-- ==== Sys2Proof/Word.lean ====
section
/-! DEFINITION. The plain words of the model: bytes, device numbers, and the sparse table that holds keyed state. -/

namespace Sys2Proof

/-- Eight bits, the unit of every data buffer. -/
abbrev Byte := BitVec 8

/-- A PCI Express function: 0 is the PF, 1 to 63 are the VFs (R37). -/
abbrev FnId := Fin 64

/-- A physical read/write channel, 0 to 127 (R2). -/
abbrev Chan := Fin 128

/-- A command in the device: 0 to 65,535 is the device-wide command slot it holds (R71); a greater number is the model's own, of a
command carried on without a slot (R598, log entry 19). -/
abbrev SlotId := Fin 131072

/-- Keyed state: pairs with strictly rising keys. -/
abbrev Tab (α : Type) := List (Nat × α)

end Sys2Proof
end

