-- ==== Sys2Proof/Syntax.lean ====
section
/-! DEFINITION. The commands of the block: one constructor of `Instr` for each row of spec/opcode_table.json, with the
operands that reach the device from outside it (a register value, the bytes a host read returned, what the tape or a
pin gave). -/

namespace Sys2Proof

/-- How a host memory access failed (HostAccess of R79). -/
inductive HostAccess
  | unsupported | completerAbort | timeout | poisoned
  deriving DecidableEq, Repr

/-- What an SGL or data read of a command was for (R63, R122, R199). -/
inductive HostReadKind
  | data | lengthList | sglTotal
  deriving DecidableEq, Repr

/-- A request for a buffer as it reaches the Buffer Pool Manager: its Flow Tag with one parity bit per word (R22, R189). -/
structure AllocReq where
  owner : Byte
  cls : Fin 3
  size : Nat
  tag : BitVec 128
  parity : BitVec 4
  deriving DecidableEq, Repr

/-- A DRAM word whose check bits did not agree when an operation read it: corrected, or with a double-bit error (R180). -/
structure EccWord where
  addr : BitVec 34
  double : Bool
  deriving DecidableEq, Repr

/-- An extent entry of the index (R162). -/
structure Extent where
  startsHere : Bool
  endsHere : Bool
  incomplete : Bool
  stream : Nat
  first : Nat
  count : Nat
  wrap : Nat
  dataset : Nat
  stored : Nat
  deriving DecidableEq, Repr

/-- A relocation entry (R163). -/
structure Reloc where
  oldWrap : Nat
  oldDataset : Nat
  newWrap : Nat
  newDataset : Nat
  deriving DecidableEq, Repr

/-- A moth-hole entry (R164). -/
structure Moth where
  stripe : Nat
  stream : Nat
  first : Nat
  count : Nat
  wrap : Nat
  dataset : Nat
  row : Nat
  deriving DecidableEq, Repr

/-- A stream entry (R165); `comp` is 1 class W, 2 class D, 3 stored. -/
structure StreamEntry where
  clean : Bool
  stream : Nat
  owner : Nat
  comp : Nat
  cipher : Bool
  next : Nat
  lease : Nat
  deriving DecidableEq, Repr

/-- An index entry other than the checkpoint header (R161); `padding` stands for types that a reader skips. -/
inductive IndexEntry
  | extent (e : Extent)
  | reloc (e : Reloc)
  | moth (e : Moth)
  | stream (e : StreamEntry)
  | padding
  deriving DecidableEq, Repr

/-- The manufacture data of a cartridge (R280). -/
structure Manufacture where
  wraps : Nat
  beginZone : Nat
  endZone : Nat
  ctype : Nat
  deriving DecidableEq, Repr

/-- One checkpoint copy whose entries all decoded (R168, R173). -/
structure Checkpoint where
  seq : Nat
  label : Nat
  endWrap : Nat
  /-- Last dataset covered; none stands for 0xFF_FFFF_FFFF. -/
  endDataset : Option Nat
  formatId : BitVec 64
  /-- Copy B lies on wrap 1 (R170); `pos` is the grid position of its first part. -/
  copyB : Bool
  pos : Nat
  entries : List IndexEntry
  deriving DecidableEq, Repr

/-- A sector header as a channel read it: content bits and CRC (R289). -/
structure HeaderRead where
  content : BitVec 176
  crc : BitVec 16
  deriving DecidableEq, Repr

/-- What the load scan found at the next position (R309, R437). -/
inductive ScanFind
  /-- The 4,096 bytes of a dataset header, and what row 0 gave after recovery should they not decode (R297, R437). -/
  | header (bytes : List Byte) (recovered : Option (List Byte))
  /-- Home sectors naming the dataset, no header; `recovered` is what row 0 gave after recovery (R437). -/
  | damaged (recovered : Option (List Byte))
  /-- An EOD burst naming this number. -/
  | eod (number : Nat)
  /-- No home sector naming the dataset. -/
  | blank
  deriving DecidableEq, Repr

/-- What an accepted copy of a Cocoon summary says: Overflow and its entries (Back, logical channel, row) (R300). -/
structure Summary where
  overflow : Bool
  entries : List (Nat × Nat × Nat)
  deriving DecidableEq, Repr

/-- Outcome of one slot read by a channel (R398). -/
inductive SectorOutcome
  | accepted | c1Failed | noSync | notTimed | defect | reset
  deriving DecidableEq, Repr

/-- One channel bit as the front end and the detector give it (R382, R389). -/
structure ChanSample where
  /-- The sample of the converter, -64 to +63 codes, after the filter, the gain and the offset correction. -/
  adc : Int
  /-- The soft value of the detector, a log-likelihood ratio of -31 to +31; at 0 or above it says a 1. -/
  soft : Int
  deriving DecidableEq, Repr

/-- What the C1 decoder makes of the soft values of a codeword: the hard decision it ends with, 2,048 bytes, and the iteration that
gives it (R316, R390). -/
structure C1Decode where
  input : List Int
  codeword : List Byte
  iterations : Nat
  deriving DecidableEq, Repr

/-- What one slot gave a channel (R382-R398). -/
structure SectorRead where
  slot : Nat
  /-- The position at which the bit of the first sample ends, and the samples in the order in which they came (R379). -/
  start : Int
  samples : List ChanSample
  /-- Length of the defect flag that stood when the first sample came (R388). -/
  flagBefore : Nat
  /-- The decoder's answers; what is not listed does not converge. -/
  c1 : List C1Decode
  /-- Signal-to-noise estimate in units of 0.25 dB. -/
  snr : Nat
  /-- Fine phase at the end of the sync window, in 1/64 bit. -/
  finePhase : Int
  /-- Loops that stayed at the end of their range for the whole sector: 0 fine phase, 1 gain, 2 offset, 3 asymmetry, 4 equaliser
  (R384, R386). -/
  rails : List (Fin 5)
  deriving DecidableEq, Repr

/-- What the journal check read of one tail dataset: its summary copies, 64 bytes each where their header sectors were recovered, and
slots of it with the channel that read each (R300, R431, R434, R435). -/
structure TailFind where
  dataset : Nat
  sample : List Chan
  patched : Bool
  copies : List (Option (List Byte))
  reads : List (Chan × SectorRead)
  deriving DecidableEq, Repr

/-- The fields of a sector header (R289). -/
structure SectorHeader where
  dataset : Nat
  logical : Nat
  physical : Nat
  row : Nat
  slotType : Nat
  wrap : Nat
  rotation : Nat
  variant : Nat := 0
  writePass : Nat
  indexRegion : Bool
  headerSector : Bool
  headerPart : Nat
  endOfData : Bool
  degraded : Bool
  lpos : Nat
  deriving DecidableEq, Repr

/-- Why a clock reader is lost: its envelope in percent of its running average in the last two clock periods; no zero crossing for so
many half periods; or its zero crossing and that of the band's other reader, against the DCO's count, in 1/64 bit (R369, R370). -/
inductive ReaderLoss
  | envelope (before last : Nat)
  | crossing (halves : Nat)
  | phase (own other : Int)
  deriving DecidableEq, Repr

/-- What the TLCS sees of a clock reader that may be valid: its envelope in percent of its running average in the last two clock periods,
half periods since its last zero crossing, and the time of that crossing against the DCO's count, in 1/64 bit (R369, R370). -/
structure ReaderSign where
  before : Nat
  last : Nat
  halves : Nat
  crossing : Int
  deriving DecidableEq, Repr

/-- The row of a datagram of the management port other than Staxa's own kinds (R495). -/
inductive BadDatagram
  | short | badMagic | disabled | fragmented
  | badVersion (session seq : Nat)
  | badFormat (session seq : Nat)
  | noSession (session seq : Nat)
  | keyUnknown (session seq : Nat)
  | tagFails
  | notAllowed (session seq : Nat)
  deriving DecidableEq, Repr

/-- One operation of a Staxa REQUEST (R498). -/
structure StaxaOp where
  op : Nat
  index : Nat
  sub : Nat
  value : List Byte
  deriving DecidableEq, Repr

/-- The JTAG instructions of R562. -/
inductive JtagInstr
  | bypass | idcode | samplePreload | extest | coreDebug | internalScan | memoryAccess
  deriving DecidableEq, Repr

/-- Which reset the brown-out, power and supply rows name; the rails of R581. -/
inductive Rail
  | vdd | vdda | vpcie | vddio | vfl
  deriving DecidableEq, Repr

/-- A message on the Actuator Serial Link or head-front link received from a stage or chip (R464, R586). -/
structure StatusFrame where
  address : Nat
  ftype : Nat
  value : BitVec 16
  echo : Nat
  flags : BitVec 8
  crc : BitVec 8
  deriving DecidableEq, Repr

/-- The commands: one constructor per row of spec/opcode_table.json, in the table's order. -/
inductive Instr
  -- 02: registers, doorbells, queues
  | registerWrite (fn : FnId) (offset : BitVec 20) (wide : Bool) (value : BitVec 64)
  | registerLowWordRead (fn : FnId) (offset : BitVec 20) (wide : Bool)
  | enable (fn : FnId)
  | disable (fn : FnId)
  | shutdown (fn : FnId)
  | shutdownResume (fn : FnId)
  | aqReset (fn : FnId) (withRestart : Bool)
  | aqRestart (fn : FnId)
  | sqTailDoorbell (fn : FnId) (qp : Fin 4096) (value : BitVec 16)
  | cqHeadDoorbell (fn : FnId) (qp : Fin 4096) (value : BitVec 16)
  | heldCompletionPost (fn : FnId) (qp : Fin 4096)
  | fetchGrant
  | commandSlotAllocate (fn : FnId) (qp : Fin 4096)
  | sqEntryReadFailure (fn : FnId) (qp : Fin 4096) (access : HostAccess)
  | dataTransferFailure (slot : SlotId) (access : HostAccess) (offset : Nat)
  | completionWriteFailure (fn : FnId) (qp : Fin 4096) (access : HostAccess) (later : Nat)
  | hostReadTimeout (slot : SlotId) (offset : Nat)
  | hostDataReadDone (slot : SlotId) (kind : HostReadKind) (buf : Nat) (bytes : List Byte) (words : List (BitVec 128))
  | intTimeExpiry (fn : FnId) (qp : Fin 4096)
  | msixUnmask (fn : FnId) (vector : Fin 2048)
  | fetchQueueMismatch (fn : FnId) (qp : Fin 4096) (write read : Fin 8)
  | flr (fn : FnId)
  | vfEnableSet (numVfs : FnId)
  | vfEnableClear
  -- 03: commands of the opcode set, named by the slot they hold
  | unknownOpcode (slot : SlotId)
  | createQp (slot : SlotId)
  | deleteQp (slot : SlotId)
  | queueRestart (slot : SlotId)
  | queueReset (slot : SlotId)
  | queueResetCut (fn : FnId) (qp : Fin 4096)
  | getLog (slot : SlotId)
  | dictRead (slot : SlotId)
  | dictWrite (slot : SlotId) (value : List Byte)
  | dictPersistDone (ok : Bool)
  | keyLoad (slot : SlotId) (data : List Byte)
  | keyUnload (slot : SlotId)
  | fwDownload (slot : SlotId) (piece : List Byte) (flashOk : Bool)
  | fwActivate (slot : SlotId)
  | fwActivateSwap (gloveOk : Bool)
  | fwStartConfirmed
  | fwStartTimeout
  | cartridgeLoad (slot : SlotId)
  | loadIndexRead (region : List HeaderRead) (head0 head1 : Option (List Byte)) (copies : List Checkpoint)
  | loadScan (find : ScanFind)
  | journalCheck (tail : List TailFind)
  | cartridgeUnload (slot : SlotId)
  | unthreadDone (ok : Bool)
  | cartridgeFormat (slot : SlotId)
  | rebuildRange (slot : SlotId) (ecc : List EccWord)
  | streamCreate (slot : SlotId)
  | streamOpen (slot : SlotId) (ecc : List EccWord)
  | streamClose (slot : SlotId)
  | write (slot : SlotId)
  | read (slot : SlotId) (ecc : List EccWord)
  | readRaw (slot : SlotId) (ecc : List EccWord)
  | flush (slot : SlotId)
  | drainComplete (slot : SlotId)
  -- 04, 06: numbering, packing, compression
  | runAssign (slot : SlotId) (ecc : List EccWord) (tagOk : Bool)
  | orderedRunRelease (slot : SlotId)
  | leaseWaitRelease (slot : SlotId)
  | throttleRelease
  | intakeDataArrival (slot : SlotId) (bytes : Nat)
  | packerIdleClose (stream : Fin 16384)
  | mediumCloseDelay
  | laneSwitch (engine : Fin 24) (stream : Fin 16384) (lane : Fin 16) (ecc : List EccWord)
  | blockEncoded (engine : Fin 24) (payload : List Byte) (ecc : List EccWord) (tagOk : Bool)
  | rawCopyDone (engine : Fin 24) (crcOk : Bool) (ecc : List EccWord)
  -- 07: cipher
  | cipherTakePacket (pair : Fin 4) (engine : Fin 24) (ecc : List EccWord) (tagOk : Bool)
  | blockEncrypted (pair : Fin 4) (ecc : List EccWord) (tagOk : Bool)
  | ivReservePersistDone (ok : Bool)
  | blockDecrypted (pair : Fin 4) (block : Nat) (ecc : List EccWord) (tagOk : Bool)
  | blockDecode (engine : Fin 24) (block : Nat) (ecc : List EccWord) (tagOk : Bool)
  | slotRetireComplete (key : Fin 8192)
  | entropyHealthFail
  | drbgReseed
  | counterRetire (blob : List Byte)
  -- 05: buffers and DRAM
  | alloc (reqs : List AllocReq)
  | ref (owner : Byte) (pool : Fin 5) (index : Fin 32768) (tag : BitVec 128) (parity : BitVec 4)
  | give (owner : Byte) (pool : Fin 5) (index : Fin 32768) (newOwner : Byte) (tag : BitVec 128) (parity : BitVec 4)
  | free (owner : Byte) (pool : Fin 5) (index : Fin 32768) (tag : BitVec 128) (parity : BitVec 4)
  | heldRequestGrant
  | poolStallLimit (request : Nat)
  | patrolScrub (addr : BitVec 34) (single : Bool) (double : Bool)
  -- 04: checkpoints and read scheduling
  | checkpointTimer
  | checkpointCopyVerified
  | readBatchWindow
  | readAgeLimit (dataset : Nat)
  -- 10: write path
  | writePassStart
  | datasetEncodeStart (tagOk : Bool)
  | datasetEncodeComplete (badOnce : Nat) (badTwice : Option (Nat × Nat)) (ecc : List EccWord)
  | slotStart (underruns : List Chan) (ecc : List EccWord)
  | sectorVerdict (dataset : Nat) (chan : Chan) (row : Fin 99) (rd : SectorRead)
  | verifyLate (dataset : Nat) (chan : Chan) (row : Fin 99)
  | datasetCommit
  | datasetRelease
  | writePassEnd (readsNeedTape : Bool)
  | writeTailDataset
  | eodBurstWrite
  -- 10, 13: pins
  | shockFall (lowNs : Nat)
  | writeGuardClear
  | tfaultLow (low : Bool)
  | cartPresentStable (level : Bool)
  | wprotStable (level : Bool)
  -- 11: TLCS and read channels
  | clockReaderLoss (reader : Fin 4) (loss : ReaderLoss)
  | clockReaderValid (reader : Fin 4) (sign : ReaderSign)
  | tlcsLockAcquired
  | flywheelLimit (since : Nat)
  | servoFrameBoundary (upper : Bool) (frame : Nat) (since : Nat) (intervals : Option (Nat × Nat))
  | servoWord (upper : Bool)
  | tiltUpdate (crossings : List (Fin 4 × Int))
  | syncWindowOpen (chan : Chan) (slot : Fin 99) (grid : Fin 65536) (wrap : Fin 384)
  | sectorReport (chan : Chan) (rd : SectorRead)
  | channelReset (chan : Chan)
  -- 12: recovery
  | datasetDecode (ecc : List EccWord)
  | harvestRead (ecc : List EccWord)
  | readRetry (ecc : List EccWord)
  | chCommandFail (chan : Chan)
  | chCommandRestore (chan : Chan)
  | replaceAcknowledge (bits : BitVec 32)
  -- 13: transport control
  | latSample (overrun : Bool)
  | reelSSample (overrun : Bool)
  | reelTSample (overrun : Bool)
  | skewSample (overrun : Bool)
  | aslKeepalive
  | aslStatusFrame (frame : StatusFrame)
  | tceBackground
  | servoReaderPosition (reader : Fin 4) (dAB : Nat) (dAC : Nat) (stripes : Bool)
  | tachEdge (takeUp : Bool) (cycles : Nat) (reverse : Bool)
  | threadRequest
  | motionRequest (speedMms : Int)
  | stopRequest
  | tceFaultClear (bits : BitVec 32)
  | satHourEnd
  | headFrontPoll (silent : Bool)
  | headFrontStatus (frame : StatusFrame)
  -- 14: dictionary and Staxa
  | dictWindowRead (fn : FnId)
  | dictWindowWrite (fn : FnId) (length : BitVec 11)
  | dictRestoreArm
  | dictRestoreConfirm
  | dictRestoreTimeout
  | staxaKeyWrite (k : Fin 8) (key : List Byte)
  | staxaOpen (nonce : BitVec 128) (timeout : BitVec 16) (keyId : Byte) (tag : BitVec 128)
  | staxaRequest (session : BitVec 32) (seq : BitVec 32) (ops : List StaxaOp) (tag : BitVec 128)
  | staxaClose (session : BitVec 32) (seq : BitVec 32) (tag : BitVec 128)
  | unusableDatagram (d : BadDatagram)
  | staxaSessionTimeout (session : BitVec 32)
  | arpRequest (target : BitVec 32)
  | icmpEcho (v6 : Bool) (target : BitVec 128) (payload : List Byte)
  | neighborDiscovery (target : BitVec 128)
  -- 15: flash
  | flashRead (desc : BitVec 256)
  | flashReadDone (errors : List (List Nat)) (meta8 : List Byte)
  | flashProgram (desc : BitVec 256)
  | flashProgramDone (ok : Bool)
  | flashErase (desc : BitVec 256)
  | flashEraseDone (ok : Bool)
  | eraseSuspend
  | eraseResume
  | fetchMiss (core : Fin 4) (block : Fin 2048) (page : Fin 64)
  | vflBrownout
  | brownoutRelease
  | flashDiagDescriptor (desc : BitVec 256)
  -- 16: events, resets, power
  | evqPop (parity : BitVec 4)
  | evqLostClear
  | evqArm
  | eventLogCopy (parity : BitVec 4)
  | eventLogRead (reader : Nat)
  | domainResetWrite (mgmt : Bool) (code : Byte)
  | domainReady (code : Byte) (testsPass : Bool)
  | perst
  | hotReset
  | sysrst (lowNs : Nat)
  | porst (lowNs : Nat)
  | supplyMonitorTrip (rail : Rail)
  | watchdogExpiry
  | idleToPs1
  | idleToPs2
  | idleToPs3
  | powerStateRequest (n : Byte)
  | wake
  | powerStateReached
  | d3hotEntry
  | d0Return
  -- 17, 18: life cycle, debug, temperature
  | lcChallengeRead
  | lcChallengeExpiry
  | lcRequest (principal : Fin 4) (token : List Byte)
  | lcFuseProgrammed (ok : Bool)
  | jtagInstruction (i : JtagInstr)
  | uartRxByte (b : Byte)
  | temperatureSample (eighths : BitVec 16)
  -- 02: fetch return
  | fetchReadReturn (fn : FnId) (qp : Fin 4096) (entries : List (BitVec 512))
  deriving DecidableEq, Repr

end Sys2Proof
end

