-- ==== Sys2Proof/Decode.lean ====
section
/-! DEFINITION. The command that a word spells: the manual's command table gives no row any bits, so no word spells a
command. -/

namespace Sys2Proof

/-- The command of a word of `nbits` bits: none, since no row of the table gives bits. -/
def decodeTableWord (_nbits _w : Nat) : Option Instr := none

end Sys2Proof
end

