-- ==== Sys2Proof/Config.lean ====
section
/-! DEFINITION. What the manual leaves to the device or to chance: free values, as constants with no body. -/

namespace Sys2Proof.Config

/-- A free number for each draw: the choice of a free buffer (R189) and every other open choice of the device. -/
opaque freeNat : Nat → Nat

/-- A free integer for each draw: a measurement or a target that the manual does not state. -/
opaque freeInt : Nat → Int

/-- A free 256-bit value for each draw from the random source (R268): FormatId, challenges, nonces, keys. -/
opaque random : Nat → BitVec 256

/-- Whether a SYSRST# low of 20 ns to 100 ns resets the device (R585), for each draw. -/
opaque sysrstTakes : Nat → Bool

/-- Values set at manufacture (R486): `SerialNumber`, `MgmtMacAddress`, `TemperatureGrade`, `DictVersion`. -/
opaque serialNumber : List Byte
opaque macAddress : List Byte
opaque temperatureGrade : BitVec 8
opaque dictVersion : BitVec 16

/-- P-256 public keys in the boot ROM: the firmware signer keys 0 to 2 (R563) and the Plovnor life-cycle key (R565). -/
opaque signerKey : Nat → BitVec 256 × BitVec 256
opaque lifeCycleKey : BitVec 256 × BitVec 256

/-- The Plovnor maker key of Staxa (R477). -/
opaque makerKey : BitVec 256

/-- The code of a write guard cause in event 0x620, by its `WriteGuardState` bit: the manual names the item, not its codes
(R359, R535). -/
opaque guardCauseCode : Nat → Nat

/-- Measured entries that no step of the model sets: read by index * 256 + subindex at a draw (R593, R530). -/
opaque measured : Nat → Nat → Nat

/-- Values of the gain, offset, asymmetry and fine phase loops of a channel after a slot, by draw (R384, R385). -/
opaque loopValue : Nat → Nat → Int

/-- A tap of the equaliser or the noise predictor after a converged sector, for a step exponent, by draw and tap (R384, R385, R389). -/
opaque tapValue : Nat → Nat → Nat → Int

/-- The next frequency in Hz and second state of the DCO's loop in LOCKED, for a bandwidth in Hz, the present frequency and state, and the
averaged phase error in 1/64 bit: the manual gives the order and the bandwidth of the loop, not its coefficients (R371). -/
opaque tlcsLoop : Nat → Nat → Int → Int → Nat × Int

/-- The bank, 0 to 127, of a DRAM row: the manual gives banks and rows but no mapping of addresses to banks (R179). -/
opaque dramBank : Nat → Nat

/-- The mantissa, at exponent 0, of a loop's feedforward quantity: the manual names the quantity but not its unit in the
loop's arithmetic (R444, R456). -/
opaque ffValue : Nat → Int → Int

/-- The position error in picometres of the head on a wrap that a coarse position value means: the manual gives the value's full scale
no length (R449, R464). -/
opaque coarseError : Nat → Int → Int

end Sys2Proof.Config
end

