-- ==== Sys2Proof/Machine/Tab.lean ====
section
/-! DEFINITION. Operations on tables with strictly rising keys, and the small list and byte helpers of the model. -/

namespace Sys2Proof.Machine

/-- The value at a key. -/
def Tab.get? {α : Type} : Tab α → Nat → Option α
  | [], _ => none
  | (k, v) :: t, i => if i = k then some v else Tab.get? t i

/-- The value at a key, or a default. -/
def Tab.getD {α : Type} (t : Tab α) (i : Nat) (d : α) : α := (Tab.get? t i).getD d

/-- Set a key, keeping the keys in rising order. -/
def Tab.put {α : Type} : Tab α → Nat → α → Tab α
  | [], i, v => [(i, v)]
  | (k, w) :: t, i, v =>
    if i < k then (i, v) :: (k, w) :: t
    else if i = k then (i, v) :: t
    else (k, w) :: Tab.put t i v

/-- Remove a key. -/
def Tab.del {α : Type} : Tab α → Nat → Tab α
  | [], _ => []
  | (k, w) :: t, i => if i = k then Tab.del t i else (k, w) :: Tab.del t i

/-- Change the value at a key, where there is one. -/
def Tab.upd {α : Type} : Tab α → Nat → (α → α) → Tab α
  | [], _, _ => []
  | (k, w) :: t, i, f => if i = k then (k, f w) :: t else (k, w) :: Tab.upd t i f

/-- Change every value. -/
def Tab.map' {α β : Type} (t : Tab α) (f : Nat → α → β) : Tab β := t.map fun p => (p.1, f p.1 p.2)

/-- Keep the entries that satisfy a test. -/
def Tab.keep {α : Type} (t : Tab α) (f : Nat → α → Bool) : Tab α := t.filter fun p => f p.1 p.2

/-- The keys rise strictly: the canonical form of a table. -/
def Tab.wf {α : Type} : Tab α → Bool
  | [] => true
  | [_] => true
  | (a, _) :: (b, y) :: t => decide (a < b) && Tab.wf ((b, y) :: t)

/-- The lowest number below `n` that starts at `i` and is not a key, trying `fuel` times. -/
def Tab.lowest {α : Type} (t : Tab α) : Nat → Nat → Option Nat
  | 0, _ => none
  | fuel + 1, i => if (Tab.get? t i).isSome then Tab.lowest t fuel (i + 1) else some i

/-- Little-endian number of a byte string (R11). -/
def leNat : List Byte → Nat
  | [] => 0
  | b :: t => b.toNat + 256 * leNat t

/-- Big-endian number of a byte string. -/
def beNat (l : List Byte) : Nat := leNat l.reverse

/-- `n` bytes of a number, little-endian. -/
def leBytes : Nat → Nat → List Byte
  | 0, _ => []
  | n + 1, v => BitVec.ofNat 8 v :: leBytes n (v / 256)

/-- `n` bytes of a number, big-endian. -/
def beBytes (n v : Nat) : List Byte := (leBytes n v).reverse

/-- The bits of a byte string, most significant first (R11). -/
def bitsOf (l : List Byte) : List Bool := l.flatMap fun b => (List.range 8).map fun i => b.getLsbD (7 - i)

/-- The number of a bit string, most significant first. -/
def natOfBits (l : List Bool) : Nat := l.foldl (fun a b => 2 * a + b.toNat) 0

/-- Eight bits at a time into bytes; a short tail is dropped. -/
def bytesOf : List Bool → List Byte
  | a :: b :: c :: d :: e :: f :: g :: h :: t => BitVec.ofNat 8 (natOfBits [a, b, c, d, e, f, g, h]) :: bytesOf t
  | _ => []

/-- A counter that saturates at 32 bits. -/
def sat32 (n : Nat) : Nat := min n 0xFFFFFFFF

/-- A counter that saturates at 16 bits. -/
def sat16 (n : Nat) : Nat := min n 0xFFFF

/-- Replace the element at a position. -/
def setAt {α : Type} (l : List α) (i : Nat) (v : α) : List α := l.set i v

/-- Round a quotient to nearest, ties away from zero (R454). -/
def roundDiv (a : Int) (b : Nat) : Int :=
  if a ≥ 0 then (2 * a + b) / (2 * b) else -((2 * (-a) + b) / (2 * b))

end Sys2Proof.Machine
end

