-- ==== Sys2Proof/Machine/Codes.lean ====
section
/-! DEFINITION. Tape geometry, CRCs, scrambler and modulation of 08_tape_format.md; C1, C2, C3 and the rotation table
of 09_error_correction.md. -/

namespace Sys2Proof.Machine

/-- A CRC, most significant bit first, no reflection: width, polynomial, initial value (R279, R291, R463). -/
def crcMsb (w : Nat) (poly init : BitVec w) (bits : List Bool) : BitVec w :=
  bits.foldl (fun c b => if (c.getMsbD 0) != b then (c <<< 1) ^^^ poly else c <<< 1) init

/-- CRC-8 of servo words and link frames (R279, R463). -/
def crc8 (bits : List Bool) : BitVec 8 := crcMsb 8 0x07#8 0#8 bits

/-- CRC-16 of sector headers and summaries (R291). -/
def crc16 (l : List Byte) : BitVec 16 := crcMsb 16 0x1021#16 0xFFFF#16 (bitsOf l)

/-- CRC-32C (R216). -/
def crc32c (l : List Byte) : BitVec 32 :=
  ~~~ l.foldl (fun c b =>
    (List.range 8).foldl (fun c _ => if c.getLsbD 0 then (c >>> 1) ^^^ 0x82F63B78#32 else c >>> 1)
      (c ^^^ b.setWidth 32)) 0xFFFFFFFF#32

/-- The bits of a number of `w` bits, most significant first. -/
def msbBits (w n : Nat) : List Bool := (List.range w).map fun i => n.testBit (w - 1 - i)

/-- Tape geometry: LPOS units per sector slot and per channel segment (R283). -/
def slotUnits : Nat := 268
def segmentUnits : Nat := 26532

/-- G of manufacture data (R280). -/
def gridPositions (lposB lposE : Nat) : Nat := (lposE - lposB) / segmentUnits

/-- The MK128 refuses a cartridge with such manufacture data (R280). -/
def manufactureRefused (m : Manufacture) : Bool :=
  let g := gridPositions (144 * m.beginZone) (144 * m.endZone)
  decide (m.ctype ≠ 1) || decide (m.wraps < 2) || decide (m.wraps > 96) || decide (g < 1) || decide (g > 65536)

/-- Data wraps of a cartridge with W wraps per band (R282). -/
def dataWraps (w : Nat) : Nat := 4 * w - 2

/-- Wrap number of serpentine data wrap `s` (R281, R282). -/
def wrapOfSerp (w s : Nat) : Nat :=
  let t := s + 2
  96 * (t / w) + t % w

/-- Wrap and grid position of data dataset `n` (R282, R308). -/
def placeOf (w g n : Nat) : Nat × Nat := (wrapOfSerp w (n / g), n % g)

/-- Number in the sector headers of a dataset at a grid position of a wrap: the grid position itself in the index region
(R282, R289). -/
def numberAt (w g wrap k : Nat) : Nat := if wrap < 2 then k else (wrap / 96 * w + wrap % 96 - 2) * g + k

/-- On even w the tape moves forward (R281). -/
def wrapForward (wrap : Nat) : Bool := wrap % 96 % 2 = 0

/-- LPOS of the leading edge of slot `j` of grid position `k` (R284). -/
def leadingEdge (lposB lposE wrap k j : Nat) : Int :=
  if wrapForward wrap then (lposB + segmentUnits * k + slotUnits * j : Nat)
  else (lposE : Int) - (segmentUnits * k + slotUnits * j : Nat)

/-- A further data dataset fits (R285). -/
def fits (w g n : Nat) : Bool := decide (n / g < dataWraps w)

/-- RotationId of a data dataset (R289). -/
def rotationOf (n : Nat) : Nat := n % 127

/-- D_t, E_(t,r) and the logical channel of physical channel p in row r (R325, R326). -/
def rotD (t : Nat) : Nat := 33 + 2 * (t % 32)
def rotE (t r : Nat) : Nat := (r + t + 8 * (t / 32)) % 128
def logicalOf (t r p : Nat) : Nat := if r < 90 then (rotD t * p + rotE t r) % 128 else p

/-- Inverse of an odd number modulo 128. -/
def inv128 (d : Nat) : Nat := (List.range 128).findIdx fun x => d * x % 128 = 1

/-- The physical channel that holds logical channel c in row r (R325). -/
def physicalOf (t r c : Nat) : Nat := if r < 90 then inv128 (rotD t) * (c + 128 - rotE t r) % 128 else c

/-- C3 stripe of physical channel p in row r (R320, R347). -/
def stripeOf (t r p : Nat) : Nat := logicalOf t r p / 32

/-- Logical channel of header part k under a failed-member sample; none when every candidate failed (R328, R329). -/
def headerPlace (t : Nat) (sample : List Nat) (k : Nat) : Option Nat :=
  let s := (t + k) % 4
  ((List.range 30).map fun m => 32 * s + m).find? fun c => !sample.contains (physicalOf t 0 c)

/-- Scrambler seed of a writing channel and slot (R292). -/
def scramblerSeed (chan slot : Nat) : BitVec 23 := BitVec.ofNat 23 (chan * 2 ^ 16 + slot * 2 ^ 8 + 0xA5)

/-- The additive scrambler (R292). -/
def scramble (s : BitVec 23) : List Bool → List Bool
  | [] => []
  | b :: t =>
    let f := (s.getLsbD 22) ^^ (s.getLsbD 17)
    (b ^^ f) :: scramble ((s <<< 1) ||| (BitVec.ofBool f).setWidth 23) t

/-- The 32/33 code: each 32 bits, then the complement of the 32nd (R293). -/
def modulate : Nat → List Bool → List Bool
  | 0, _ => []
  | n + 1, l => l.take 32 ++ [!(l.getD 31 false)] ++ modulate n (l.drop 32)

/-- The 176 content bits, bit 175 first (R289). -/
def headerBits (h : SectorHeader) : List Bool :=
  msbBits 40 h.dataset ++ msbBits 7 h.logical ++ msbBits 7 h.physical ++ msbBits 7 h.row ++ msbBits 2 h.slotType ++
  msbBits 9 h.wrap ++ msbBits 8 h.rotation ++ msbBits 4 h.variant ++ msbBits 4 h.writePass ++
  [h.indexRegion, h.headerSector] ++ msbBits 2 h.headerPart ++ [h.endOfData, h.degraded] ++ msbBits 2 0 ++
  msbBits 32 h.lpos ++ msbBits 48 0

/-- The header that 176 content bits spell; the reserved bits are ignored (R289). -/
def headerOf (c : BitVec 176) : SectorHeader :=
  let f := fun lo w => (c.extractLsb' lo w).toNat
  { dataset := f 136 40, logical := f 129 7, physical := f 122 7, row := f 115 7, slotType := f 113 2, wrap := f 104 9,
    rotation := f 96 8, variant := f 92 4, writePass := f 88 4, indexRegion := c.getLsbD 87, headerSector := c.getLsbD 86,
    headerPart := f 84 2, endOfData := c.getLsbD 83, degraded := c.getLsbD 82, lpos := f 48 32 }

/-- The header CRC of 176 content bits (R291). -/
def headerCrc (c : BitVec 176) : BitVec 16 := crcMsb 16 0x1021#16 0xFFFF#16 (msbBits 176 c.toNat)

/-- The 17,152 channel bits of a sector (R287): phase align, sync mark, header, codeword, postamble. -/
def sectorImage (h : SectorHeader) (chan slot : Nat) (codeword : List Byte) : List Bool :=
  let hb := headerBits h
  let crc := crcMsb 16 0x1021#16 0xFFFF#16 hb
  let body := scramble (scramblerSeed chan slot) (hb ++ msbBits 16 crc.toNat ++ bitsOf codeword)
  msbBits 16 0xCCCC ++ msbBits 32 0xE3A61D59 ++ modulate 518 body ++ msbBits 10 0x333

/-- Block rows of C1 payload block column j (R314). -/
def c1Rows (j : Nat) : List Nat :=
  let q := j % 10
  [q, (q + 2) % 10, (q + 5) % 10, (q + 7 + j / 10 % 2) % 10]

/-- Shift of C1 block (i, j) (R314). -/
def c1Shift (i j : Nat) : Nat := ((2 * i + 1) * j + 17 * i) % 128

/-- A 128-bit block of the codeword: bit y of the block is bit 127 - y of the number (R313). -/
def c1Block (l : List Byte) (j : Nat) : BitVec 128 := BitVec.ofNat 128 (beNat ((l.drop (16 * j)).take 16))

/-- What the payload puts into check block row i (R315). -/
def c1Acc (payload : List Byte) (i : Nat) : BitVec 128 :=
  (List.range 118).foldl (fun w j =>
    if (c1Rows j).contains i then w ^^^ (c1Block payload j).rotateLeft (c1Shift i j) else w) 0#128

/-- The 160 parity bytes of a 1,888-byte payload, by the staircase (R315). -/
def c1Parity (payload : List Byte) : List Byte :=
  ((List.range 10).foldl (fun (a : List Byte × BitVec 128) i =>
    let p := a.2 ^^^ c1Acc payload i
    (a.1 ++ beBytes 16 p.toNat, p)) ([], 0#128)).1

/-- The C1 codeword of a payload (R311). -/
def c1Encode (payload : List Byte) : List Byte := payload ++ c1Parity payload

/-- H v = 0 for a 2,048-byte word (R316). -/
def c1Ok (word : List Byte) : Bool :=
  (List.range 10).all fun i =>
    let p := c1Block word (118 + i)
    let q := if i = 0 then 0#128 else c1Block word (117 + i)
    decide (c1Acc word i ^^^ p ^^^ q = 0#128)

/-- A binary field given by its width and primitive polynomial; elements are numbers (R317, R319). -/
structure GField where
  w : Nat
  poly : Nat

def gf8 : GField := ⟨8, 0x11D⟩
def gf16 : GField := ⟨16, 0x1100B⟩

def GField.xt (f : GField) (a : Nat) : Nat :=
  let b := 2 * a
  if b.testBit f.w then b ^^^ f.poly else b

def GField.mul (f : GField) (a b : Nat) : Nat :=
  ((List.range f.w).foldl (fun (acc : Nat × Nat) i => (if b.testBit i then acc.1 ^^^ acc.2 else acc.1, f.xt acc.2)) (0, a)).1

/-- Power by repeated squaring over 2 * w bits. -/
def GField.powAux (f : GField) : Nat → Nat → Nat → Nat
  | 0, _, _ => 1
  | k + 1, a, e =>
    let r := f.powAux k (f.mul a a) (e / 2)
    if e % 2 = 1 then f.mul a r else r

def GField.pow (f : GField) (a e : Nat) : Nat := f.powAux 24 a e
def GField.inv (f : GField) (a : Nat) : Nat := f.pow a (2 ^ f.w - 2)
def GField.alpha (f : GField) (e : Nat) : Nat := f.pow 2 (e % (2 ^ f.w - 1))

/-- Generator with roots α^0 to α^(k-1), highest coefficient first (R318, R319). -/
def rsGen (f : GField) : Nat → List Nat
  | 0 => [1]
  | k + 1 =>
    let g := rsGen f k
    List.zipWith (· ^^^ ·) (g ++ [0]) (0 :: g.map (f.mul (f.alpha k)))

/-- Remainder of the message times x^k by the generator: the k parity symbols (R318, R320). -/
def rsParity (f : GField) (k : Nat) (msg : List Nat) : List Nat :=
  let g := (rsGen f k).drop 1
  msg.foldl (fun r m =>
    let t := m ^^^ r.getD 0 0
    List.zipWith (· ^^^ ·) (r.drop 1 ++ [0]) (g.map (f.mul t))) (List.replicate k 0)

/-- Value of a word, highest coefficient first, at a field element. -/
def rsEval (f : GField) (word : List Nat) (x : Nat) : Nat := word.foldl (fun a c => f.mul a x ^^^ c) 0

/-- Syndromes of a word for k roots. -/
def rsSyndromes (f : GField) (k : Nat) (word : List Nat) : List Nat := (List.range k).map fun i => rsEval f word (f.alpha i)

/-- One elimination step on rows, pivoting in column `c`. -/
def elim (f : GField) : Nat → Nat → List (List Nat) → List (List Nat) → Option (List (List Nat))
  | 0, _, done, rest => some (done ++ rest)
  | n + 1, c, done, rest =>
    match rest.findIdx? fun r => r.getD c 0 ≠ 0 with
    | none => none
    | some i =>
      let p := rest.getD i []
      let s := f.inv (p.getD c 0)
      let p := p.map (f.mul s)
      let clr := fun r => let m := r.getD c 0; List.zipWith (fun a b => a ^^^ f.mul m b) r p
      elim f n (c + 1) (done.map clr ++ [p]) ((rest.eraseIdx i).map clr)

/-- Values at erased positions that make every syndrome zero, none when there are none (R317, R417). Positions count
from the highest coefficient of a word of length `n`. -/
def rsErasures (f : GField) (k n : Nat) (word : List Nat) (pos : List Nat) : Option (List Nat) :=
  let w0 := (List.range n).map fun i => if pos.contains i then 0 else word.getD i 0
  let rows := (List.range k).map fun i => pos.map (fun p => f.alpha (i * (n - 1 - p))) ++ [rsEval f w0 (f.alpha i)]
  match elim f pos.length 0 [] rows with
  | none => none
  | some m =>
    if (m.drop pos.length).all fun r => r.getD pos.length 0 = 0 then
      some ((List.range n).map fun i =>
        match pos.idxOf? i with
        | some j => (m.getD j []).getD pos.length 0
        | none => w0.getD i 0)
    else none

/-- All sets of `e` positions out of a list. -/
def choose : Nat → List Nat → List (List Nat)
  | 0, _ => [[]]
  | _ + 1, [] => []
  | e + 1, x :: t => (choose e t).map (x :: ·) ++ choose (e + 1) t

/-- The codeword that agrees with the word outside the erasures and `e` errors, for the least `e` with
erasures + 2 e ≤ k; unique by the minimum distance (R318, R417). -/
def rsDecode (f : GField) (k n : Nat) (word : List Nat) (pos : List Nat) : Option (List Nat) :=
  (List.range ((k - pos.length) / 2 + 1)).findSome? fun e =>
    (choose e ((List.range n).filter fun i => !pos.contains i)).findSome? fun errs =>
      rsErasures f k n word (pos ++ errs)

/-- Symbols of a payload for C2 (R312). -/
def sym16 (l : List Byte) (k : Nat) : Nat := 256 * (l.getD (2 * k) 0#8).toNat + (l.getD (2 * k + 1) 0#8).toNat

/-- Transpose of columns of symbols back to payloads. -/
def payloadOf16 (cols : List (List Nat)) (row : Nat) : List Byte := cols.flatMap fun c => beBytes 2 (c.getD row 0)

/-- C2 parity payloads of rows 90 to 95 of one physical channel from its 90 payloads (R318). -/
def c2Parity (rows : List (List Byte)) : List (List Byte) :=
  let cols := (List.range 944).map fun k => rsParity gf16 6 (rows.map fun r => sym16 r k)
  (List.range 6).map fun j => payloadOf16 cols j

/-- C3 parity payloads of members 30 and 31 from 30 data payloads (R320). -/
def c3Parity (data : List (List Byte)) : List (List Byte) :=
  let cols := (List.range 1888).map fun b => rsParity gf8 2 (data.map fun d => (d.getD b 0#8).toNat)
  (List.range 2).map fun j => cols.map fun c => BitVec.ofNat 8 (c.getD j 0)

/-- C2 decoding of one segment: 96 payloads and the erased rows; none when a column fails (R417). -/
def c2Fill (rows : List (List Byte)) (erased : List Nat) : Option (List (List Byte)) :=
  match (List.range 944).mapM fun k => rsDecode gf16 6 96 (rows.map fun r => sym16 r k) erased with
  | none => none
  | some cols => some ((List.range 96).map fun j => payloadOf16 cols j)

/-- C3 filling of 1 or 2 erased members; with one erasure the remaining check is tested (R417). -/
def c3Fill (members : List (List Byte)) (erased : List Nat) : Option (List (List Byte)) :=
  match (List.range 1888).mapM fun b => rsErasures gf8 2 32 (members.map fun d => (d.getD b 0#8).toNat) erased with
  | none => none
  | some cols => some ((List.range 32).map fun m => cols.map fun c => BitVec.ofNat 8 (c.getD m 0))

end Sys2Proof.Machine
end

