-- ==== Sys2Proof/Machine/State.lean ====
section
/-! DEFINITION. The state of the MK128 as plain data, its reset value, and the reasons a command can stop. Each field's
comment names the rule of the manual that gives it and its value after power-on reset. -/

namespace Sys2Proof.Machine

/-- Why a command stops the model. -/
inductive Fault
  /-- Raised by PORST when the pin is held low for less than 10 microseconds: the manual says "must" and states no
  response, so what the device does is undefined (R585). Safe: nothing follows it. -/
  | porstTooShort
  deriving DecidableEq, Repr

/-- Why a command is rejected. -/
inductive Refusal
  /-- Raised by the dispatch arm of a command that has no meaning yet. Safe: nothing follows it. -/
  | notModelled (mnemonic : String)
  deriving DecidableEq, Repr

/-- Completion status codes; no other is posted (R15, R145). -/
inductive Status
  | success | lengthResidue | rebuiltOnRead | partialLost | earlyWarning | recordsSkipped
  | invalidField | lengthInvalid | stateConflict | streamUnknown | recordNotFound | recordIncomplete
  | authFail | keyUnavailable | ivExhausted | ivRollback | mediumError | stripeLost | writeFault | writeInhibited
  | bufferExhausted | targetReset | queueReset | firmwareRejected | accessDenied | cartridgeAbsent | endOfMedium
  | internalError | transportFault
  deriving DecidableEq, Repr

/-- Internal response codes (R25). -/
inductive Response
  | done | noShrink | poolEmpty | lostConcurrent | targetReset | backpressure | parityPoison | bufDoubleFree
  | bufNotOwner
  deriving DecidableEq, Repr

/-- Cartridge states (R99, R100). -/
inductive CartState
  | empty | present | loading | unformatted | ready | readOnly | unloading | faulted
  deriving DecidableEq, Repr

/-- Stream states (R101). -/
inductive StreamState
  | closed | opened | closing
  deriving DecidableEq, Repr

/-- A completion entry before its Phase is set (R65). -/
structure Cpl where
  epoch : Nat
  status : Status
  cid : Nat
  recordsDone : Nat := 0
  sqHead : Nat := 0
  recordNum : Nat := 0
  residue : Nat := 0
  /-- Bytes 20 to 31 as one little-endian number. -/
  specific : BitVec 96 := 0
  deriving DecidableEq, Repr

/-- One entry of a queue pair's error log (R79). -/
structure ErrEntry where
  response : Nat := 0
  status : Status
  cid : Nat
  sequence : Nat
  epoch : Nat
  opcode : Nat
  timestamp : BitVec 64
  flowTag : BitVec 128
  channel : Nat := 0xFF
  block : Nat
  hostAccess : Nat := 0
  event : Option Nat := none
  byteOffset : Nat := 0
  loc : Option (Nat × Nat) := none
  deriving DecidableEq, Repr

/-- An entry waiting in an HQE fetch queue with its place in the fetch order (R31, R98). -/
structure FqEntry where
  entry : BitVec 512
  seq : Nat
  /-- What steps 1 to 7 of R96 gave at the fetch: a status and the block that refused (R98). -/
  verdict : Option (Status × Nat) := none
  /-- Submission head after this entry, for the completion (R65). -/
  headAfter : Nat
  deriving DecidableEq, Repr

/-- A fragment of a block's content (R207); `seq` is the fetch order number of its WRITE. -/
structure Frag where
  number : Nat
  kind : Nat
  truncated : Bool := false
  skip : Nat := 0
  data : List Byte := []
  seq : Nat := 0
  deriving DecidableEq, Repr

/-- Why a WRITE's run waits (R153, R157). -/
inductive RunWait
  | none | ordered | lease
  deriving DecidableEq, Repr

/-- The transfer and placement state of a WRITE in flight (R107, R122-R129). -/
structure WriteJob where
  /-- Record lengths, once known (R122). -/
  lens : List Nat := []
  /-- Data bytes that the command supplies, once known (R107). -/
  total : Option Nat := none
  lensKnown : Bool := false
  /-- First number of the run (R123). -/
  run : Option Nat := none
  wait : RunWait := .none
  /-- The first record has reached the Stream Service, and the TIME of that (R153, R154). -/
  arrived : Bool := false
  arrivedAt : Nat := 0
  /-- Data in intake buffers not yet in a block, oldest first: buffer identity, offset in it, and bytes (R196, R229). -/
  intake : List (Nat × Nat × List Byte) := []
  /-- Bytes received from host memory. -/
  got : Nat := 0
  /-- Bytes of `intake` that have reached the Record Packer (R209). -/
  avail : Nat := 0
  /-- Record being packed, counted from 0, and its bytes already in blocks. -/
  recIdx : Nat := 0
  recOff : Nat := 0
  /-- Every byte that will come has come: the command was ended (R84, R127, R235). -/
  ended : Bool := false
  /-- Waiting under the intake throttle (R199). -/
  throttled : Bool := false
  /-- Held back before and let go by THROTTLE_RELEASE (R199). -/
  released : Bool := false
  /-- A byte of the command has entered a compression block (R84). -/
  begun : Bool := false
  /-- The dataset number that holds the command's last byte, once released (R128). -/
  lastDs : Nat := 0
  /-- The lowest of its record numbers with a byte that was lost before a dataset held it (R127, R129). -/
  lostAt : Option Nat := none
  deriving DecidableEq, Repr

/-- What a READ gives for one record number (R133, R269). -/
inductive RecRes
  | data (bytes : List Byte) (rebuilt : Bool)
  | notPlaced | incomplete | stripeLost | mediumError | authFail | internalError
  /-- At or above NextRecord. -/
  | beyond
  deriving DecidableEq, Repr

/-- A READ or READ_RAW in flight (R130-R135). -/
structure ReadJob where
  /-- Bytes of the host buffer; none until its list has been read (R62). -/
  room : Option Nat := none
  deriving DecidableEq, Repr

/-- A drain in progress (R137-R142). -/
structure DrainJob where
  scope : Nat
  stream : Nat := 0
  sync : Bool := false
  closed : Nat := 0
  padded : Nat := 0
  /-- Its data has left the Cocoon; it waits for a checkpoint (R137, R141). -/
  dataDone : Bool := false
  deriving DecidableEq, Repr

/-- A REBUILD_RANGE in flight (R425-R430). -/
structure RebuildJob where
  next : Nat
  last : Nat
  read : Nat := 0
  written : Nat := 0
  moths : Nat := 0
  /-- The ERROR of the first copy that failed, or of the stop (R429, R430). -/
  err : Option Status := none
  /-- No further dataset is read (R430). -/
  stopped : Bool := false
  deriving DecidableEq, Repr

/-- What a command in flight is doing. -/
inductive Stage
  /-- Holds its slot; its row has not run. -/
  | started
  /-- Waits for record lengths or an SGL total from host memory (step 8 of R96). -/
  | lists
  | writing (w : WriteJob)
  | reading (r : ReadJob)
  | draining (d : DrainJob)
  | rebuilding (r : RebuildJob)
  /-- Waits for a persist, a dataset, a checkpoint, the transport or an activation step. -/
  | waiting
  /-- Finished; its completion is held (R59, R81). -/
  | held
  deriving DecidableEq, Repr

/-- A change that is made when a command's completion is posted, and not before. -/
inductive PostAct
  /-- The cartridge leaves one state for another (R99). -/
  | cart (was now : CartState)
  /-- A reserved stream identifier is released (R148). -/
  | unreserve (stream : Nat)
  /-- The device leaves ACTIVATING (R103). -/
  | activated
  /-- A queue pair is no longer being reset (R88). -/
  | resetPosted (fn qp : Nat)
  /-- CARTRIDGE_FORMAT has ended: refused, with its checkpoint written, or failed (R99, R117). -/
  | formatEnds (ok : Option Bool)
  /-- A stream becomes OPEN (R101). -/
  | opened (stream : Nat)
  /-- A STREAM_OPEN has failed: the mark goes, and the key slot bound at its fetch is unbound (R101, R249). -/
  | openFailed (stream : Nat) (key : Option Nat)
  deriving DecidableEq, Repr

/-- A command in flight, by its slot (R71). -/
structure Cmd where
  fn : Nat
  qp : Nat
  epoch : Nat
  seq : Nat
  headAfter : Nat
  entry : BitVec 512
  stage : Stage := .started
  /-- What steps 1 to 7 of R96 gave at the fetch (R98). -/
  verdict : Option (Status × Nat) := none
  /-- Ended without a completion and carried on (R598); it holds no slot. -/
  orphan : Bool := false
  /-- It was ended with its function, whose streams and key slots follow when its work is done (R270, R598). -/
  fnEnded : Bool := false
  /-- INFO conditions met, bit n for INFO status n + 1 (R144). -/
  info : BitVec 8 := 0
  /-- The Flow Tag that its transfers and requests carry, built when the slot was allocated (R18). -/
  tag : BitVec 128 := 0
  /-- Host memory that its list or buffer describes: address and length, in list order (R62, R64). -/
  sg : List (Nat × Nat) := []
  /-- What the posting of its completion changes (R88, R99, R101, R103, R148). -/
  post : List PostAct := []
  deriving DecidableEq, Repr

/-- A completion held for lack of space or after a failed write, with its command (R59, R81). -/
structure HeldCpl where
  slot : Option Nat
  cmd : Option Cmd
  cpl : Cpl
  deriving DecidableEq, Repr

/-- A running reset of a queue pair (R83): the slot of its QUEUE_RESET, none for R90 and AqReset. -/
structure QpReset where
  by' : Option Nat := none
  /-- Raise event 0x401 at the end (R90). -/
  mismatch : Bool := false
  deriving DecidableEq, Repr

/-- A queue pair (R50-R59, R77-R90). -/
structure Qp where
  sqBase : BitVec 64 := 0
  cqBase : BitVec 64 := 0
  sqDepth : Nat := 2
  cqDepth : Nat := 2
  priority : Nat := 0
  maxOut : Nat := 64
  vector : Nat := 0
  intEnable : Bool := true
  intThreshold : Nat := 0
  intTime : Nat := 0
  /-- SqTail last written (R56). Reset at creation: 0 (R54). -/
  sqTail : Nat := 0
  /-- Next submission slot no fetch read has requested (R69). Reset at creation: 0 (R54). -/
  sqReq : Nat := 0
  /-- Submission head: entries the HQE has finished reading (R68). Reset at creation: 0 (R54). -/
  sqHead : Nat := 0
  /-- Fetch reads in the order of their grants: first fetch order number, entry count, and the entries once they have returned;
  they are taken in the fetch order of the device (R69, R98). -/
  reads : List (Nat × Nat × Option (List (BitVec 512))) := []
  fetchQ : List FqEntry := []
  /-- Completion slot written next (R65). Reset at creation: 0 (R54). -/
  cqTail : Nat := 0
  /-- CqHead last written (R56). Reset at creation: 0 (R54). -/
  cqHead : Nat := 0
  /-- Phase of the next completion. Reset at creation: 1 (R54). -/
  phase : Bool := true
  epoch : Nat := 0
  frozen : Bool := false
  log : List ErrEntry := []
  lost : Nat := 0
  errSeq : Nat := 0
  held : List HeldCpl := []
  /-- Completions issued and not yet consumed by the host, newest first: their writes may still fail (R81). -/
  recent : List HeldCpl := []
  /-- The head of `held` is a completion whose write failed (R81). -/
  writeFailed : Bool := false
  reset : Option QpReset := none
  /-- Fetch order number of the QUEUE_RESET that has claimed it (R88). -/
  claim : Option Nat := none
  /-- Its reset is done; the completion of the QUEUE_RESET is not posted (R88). -/
  resetEnds : Bool := false
  /-- Fetch queue pointers, modulo 8, each held twice: write, read, and the second copies (R29, R31). -/
  fqPtrs : List Nat := [0, 0, 0, 0]
  /-- Completions since the last interrupt (R75). -/
  unannounced : Nat := 0
  timer : Bool := false
  deriving DecidableEq, Repr

/-- An MSI-X vector: message address and data, mask bit, pending bit (R40, R76). -/
structure Msix where
  addr : BitVec 64 := 0
  data : BitVec 32 := 0
  masked : Bool := true
  pend : Bool := false
  deriving DecidableEq, Repr

/-- The dictionary window of a function (R491). -/
structure Window where
  index : BitVec 16 := 0
  sub : BitVec 8 := 0
  length : Nat := 0
  status : Status := .success
  busy : Bool := false
  buf : Tab Byte := []
  deriving DecidableEq, Repr

/-- A PCI Express function (R40-R49, R150, R479). -/
structure Fn where
  /-- CTRL.Enable (R44). Reset: 0. -/
  enable : Bool := false
  /-- CTRL.Shutdown (R44). Reset: 0. -/
  shutdown : Bool := false
  /-- STS.Ready (R45). Reset: 0. -/
  ready : Bool := false
  /-- STS.Fatal (R45). Reset: 0. -/
  fatal : Bool := false
  /-- STS.ShutdownDone (R45). Reset: 0. -/
  shutdownDone : Bool := false
  /-- ASQ_BASE (R47). Reset: 0. -/
  asqBase : BitVec 64 := 0
  /-- ACQ_BASE (R47). Reset: 0. -/
  acqBase : BitVec 64 := 0
  /-- AQ_SIZE: AcqDepth and AsqDepth (R47). Reset: 0. -/
  aqSize : BitVec 32 := 0
  /-- Low word written, waiting for its high word (R41): offset and value. Reset: none. -/
  lowWord : Option (Nat × BitVec 32) := none
  /-- High words latched by reads of low words (R41), by offset. Reset: empty. -/
  shadow : Tab (BitVec 32) := []
  /-- Queue pairs by local number (R51). Reset: empty. -/
  qps : Tab Qp := []
  /-- MSI-X vectors that differ from reset (R40). Reset: empty; an unlisted vector is masked. -/
  msix : Tab Msix := []
  win : Window := {}
  /-- `StreamSelect` copy (R150). Reset: 0. -/
  streamSel : Nat := 0
  /-- `KeySlotSelect` copy (R273). Reset: 0. -/
  keySel : Nat := 0
  /-- `EventSelect` copy (R557). Reset: 0. -/
  eventSel : Nat := 0
  /-- `EventLogIndex` copy (R557). Reset: 0. -/
  logIdx : Nat := 0
  /-- `FlashBlockSelect` copy (R530). Reset: 0. -/
  blockSel : Nat := 0
  /-- Deficit counter of level 2 of the arbiter (R70). Reset: 0. -/
  deficit : Int := 0
  /-- Entries fetched for priorities 1, 2, 3 in this round of level 3 (R70). Reset: 0. -/
  spent : List Nat := [0, 0, 0]
  /-- Round robin pointers of priorities 0 to 3 (R70). Reset: 0. -/
  rr : List Nat := [0, 0, 0, 0]
  deriving DecidableEq, Repr

/-- What the device has issued to the outside, newest first. -/
inductive Out
  /-- The 32-byte completion entry at a host address (R66). -/
  | completion (addr : BitVec 64) (entry : BitVec 256)
  /-- An MSI-X message of a function's vector (R73). -/
  | msix (fn vector : Nat)
  /-- A fetch read of entries (R70). -/
  | fetch (fn qp first count : Nat)
  /-- Data written to host memory for the command in a slot: whether it is record data, where each part lies (address and
  length), and the bytes in order (R39, R64, R131). -/
  | hostData (slot : Nat) (record : Bool) (segs : List (Nat × Nat)) (bytes : List Byte)
  /-- The length list of a READ and its address (R133). -/
  | lengths (slot : Nat) (addr : Nat) (entries : List Nat)
  /-- A register read answered (R41). -/
  | regRead (fn : Nat) (value : BitVec 64)
  /-- A command frame on the Actuator Serial Link (R463). -/
  | asl (frame : BitVec 38)
  /-- A command frame on the head-front link (R586). -/
  | hcf (frame : BitVec 38)
  /-- Write gates opened or closed (R337). -/
  | gates (opened : Bool)
  /-- A slot image that a channel's write-data pair drives: channel, slot, sector header, C1 codeword, and the Flow Tag of the
  transfer (R20, R289, R336, R337). Its 17,152 bits are those of `Image.bits`. -/
  | slotImage (chan slot : Nat) (header : SectorHeader) (codeword : List Byte) (flow : BitVec 128)
  /-- A Staxa message (R494). -/
  | staxa (bytes : List Byte)
  /-- An answer of the port below UDP (R493). -/
  | net (bytes : List Byte)
  /-- A flash completion record, and the Flow Tag of the operation (R18, R506). -/
  | flash (record flow : BitVec 128)
  /-- A dictionary value read through a row of its own (R542, R567). -/
  | dictValue (bytes : List Byte)
  /-- A UART byte taken, or a JTAG instruction decoded. -/
  | debug (code : Nat)
  deriving DecidableEq, Repr

/-- The Host Queue Engine and the PCI Express functions. -/
structure HostIf where
  /-- Functions that differ from reset, by number (R37). Reset: empty. -/
  fns : Tab Fn := []
  /-- VF Enable of the SR-IOV capability (R37). Reset: 0 (PRESUMED: PCI Express). -/
  vfEnable : Bool := false
  /-- NumVFs (R37). Reset: 0 (PRESUMED: PCI Express). -/
  numVfs : Nat := 0
  /-- `FnQpCount` in force by function, where it differs from the default (R50). Reset: empty, so PF 1,024 and VF 48. -/
  qpCount : Tab Nat := []
  /-- `FnMsixVectors` in force by VF, where it differs from the default (R50). Reset: empty, so 32. -/
  msixCount : Tab Nat := []
  /-- Commands in flight by slot (R71). Reset: empty. -/
  cmds : Tab Cmd := []
  /-- Fetch order number given next (R98). Reset: 0. -/
  fetchSeq : Nat := 0
  /-- Round robin pointers of levels 1 and 2 (R70). Reset: 0. -/
  rrAdmin : Nat := 0
  rrFn : Nat := 0
  /-- The PF is in D3hot (R555). Reset: 0. -/
  d3hot : Bool := false
  deriving DecidableEq, Repr

/-- An open compression block (R209); `entry` marks the start of an entry point (R212). -/
structure OpenBlk where
  frags : List Frag := []
  entry : Bool := false
  /-- `BlockSize` and `IndependentInterval` taken at its start (R239). -/
  size : Nat := 1048576
  interval : Nat := 33554432
  /-- Where its content lies in intake buffers: buffer, offset, length (R229). -/
  src : List (Nat × Nat × Nat) := []
  /-- The Flow Tag of its transfer: that of the WRITE it begins with, RecordNum its first record (R18). -/
  flow : BitVec 128 := 0
  deriving DecidableEq, Repr

/-- A run of numbers waiting for or taking its place in the stream (R155). -/
structure Run where
  seq : Nat
  first : Nat
  count : Nat
  deriving DecidableEq, Repr

/-- A dataset that failed with bytes of a stream, or bytes lost before any dataset: its place in the order of opening, its number
where it has one, its ERROR, and the lowest fetch order number of a WRITE with a byte lost (R125, R139). -/
structure DrainErr where
  place : Nat
  number : Option Nat := none
  /-- A dataset failed: event 0x551 was raised (R354). -/
  event : Bool := true
  cause : Status
  low : Nat
  deriving DecidableEq, Repr

/-- A stream of the loaded cartridge (R146-R160). -/
structure Stream where
  owner : Nat
  /-- Class: 1 W, 2 D, 3 stored (R205). -/
  comp : Nat
  cipher : Bool
  state : StreamState := .closed
  /-- Its first entry is on tape, and the completion of its STREAM_CREATE is not posted: no command names it yet (R101, R158). -/
  creating : Bool := false
  /-- Marked as opening by the STREAM_OPEN of this fetch order number (R101). -/
  opening : Option Nat := none
  /-- The fetch order number of the command that closes it (R101); none for the drain of R270. -/
  closer : Option Nat := none
  readOnly : Bool := false
  noKey : Bool := false
  keySlot : Nat := 0
  next : Nat := 0
  /-- Durable lease end (R157). -/
  durable : Nat := 0
  /-- Pending lease end (R157). -/
  pendingLease : Nat := 0
  writeFailed : Bool := false
  failedFrom : Option Nat := none
  incompleteCount : Nat := 0
  /-- Datasets that failed with bytes of the stream (R125, R139). -/
  drainErrs : List DrainErr := []
  /-- TIME at which the last run was assigned, or a WRITE last ended without one (R153, R154). -/
  lastRun : Nat := 0
  /-- Fetch order numbers of the WRITEs that wait on the lease, in the order in which they became ready (R153, R157). -/
  leaseQ : List Nat := []
  /-- Lanes fixed at STREAM_OPEN (R211). -/
  lanes : Nat := 16
  /-- Blocks cut since STREAM_OPEN (R211). -/
  cut : Nat := 0
  openBlk : Option OpenBlk := none
  /-- The next block starts an entry point (R209, R212). -/
  entryNext : Bool := true
  /-- Independent blocks still to cut in the entry point (R212). -/
  entryLeft : Nat := 0
  /-- Content bytes since the start of the entry point (R209). -/
  entryBytes : Nat := 0
  /-- Lanes whose next block must be independent (R212). -/
  mustIndep : List Nat := []
  /-- Runs assigned and not wholly in blocks, in number order (R155). -/
  runs : List Run := []
  /-- Number after the last record that entered a block. -/
  placed : Nat := 0
  /-- Records closed as incomplete since the load (R150, R152, R159). -/
  incomplete : List Nat := []
  deriving DecidableEq, Repr

/-- Where a cut block stands between the packer and a dataset. -/
inductive BlkStage
  /-- Queued to an engine of its class (R209). -/
  | queued
  /-- On an engine, being encoded (R226). -/
  | onEngine (e : Nat)
  /-- Returned to the engine for a raw copy (R227, R228). -/
  | copying (e : Nat)
  /-- In the engine's packer FIFO, length word written (R226). -/
  | packet (e : Nat)
  /-- In an encryptor (R259). -/
  | inCipher (p : Nat)
  /-- Offered to the Dataset Builder (R275). -/
  | offered
  /-- Placed into datasets, with their model identities. -/
  | placed
  /-- Not written (R261, R260, R238). -/
  | lost
  deriving DecidableEq, Repr

/-- A cut block (R210-R218). -/
structure Blk where
  id : Nat
  stream : Nat
  lane : Nat
  laneCount : Nat
  comp : Nat
  frags : List Frag
  independent : Bool
  entryDistance : Nat
  stage : BlkStage := .queued
  raw : Bool := false
  fallback : Bool := false
  /-- `ClassWEffort`, `ClassWSegment`, `ClassDResetCheck` and `ClassDResetLoss` as its encoding began (R239). -/
  effort : Nat := 0
  segment : Nat := 131072
  check : Nat := 16384
  loss : Nat := 6
  payload : List Byte := []
  /-- Where its content lies in intake buffers: buffer, offset, length (R229). -/
  src : List (Nat × Nat × Nat) := []
  /-- The Flow Tag of its transfer (R18). -/
  flow : BitVec 128 := 0
  /-- The engine whose packer FIFO holds its packet (R31, R218). -/
  fifo : Option Nat := none
  /-- Stored bytes already placed into datasets (R301). -/
  off : Nat := 0
  /-- Initialisation vector taken (R244) and tag (R243). -/
  iv : Option (BitVec 96) := none
  tag : BitVec 128 := 0
  /-- Key slot named by the Flow Tag, when encrypted. -/
  key : Option Nat := none
  /-- The cipher output buffer that holds it until it is placed (R193). -/
  buf : Option Nat := none
  /-- Model identities of the datasets that hold its bytes. -/
  datasets : List Nat := []
  deriving DecidableEq, Repr

/-- The loss test of a class D encoder: input bytes and output bits of the present window, those of the first window after the
dictionary filled, and whether CLEAR is due (R225). -/
structure DMeter where
  bytes : Nat := 0
  bits : Nat := 0
  first : Option (Nat × Nat) := none
  due : Bool := false
  deriving DecidableEq, Repr

/-- A reference of a class W history: content bytes before it that lie in no buffer (fragment headers, R207), then `len` bytes of
a buffer from an offset (R229). -/
structure WinRef where
  lead : Nat := 0
  buf : Nat
  off : Nat
  len : Nat
  deriving DecidableEq, Repr

/-- The state of one lane: class W window, class D dictionary and its loss test (R225, R229, R230). -/
structure LaneState where
  window : List Byte := []
  dict : List (List Byte) := []
  meter : DMeter := {}
  /-- References that cover the window, oldest first, and the content bytes after the last one (R207, R229). -/
  refs : List WinRef := []
  trail : Nat := 0
  deriving DecidableEq, Repr

/-- A compression engine (R204, R231); engines 0-15 are class W, 16-23 class D. -/
structure Engine where
  /-- Lane resident: stream and lane. -/
  lane : Option (Nat × Nat) := none
  state : LaneState := {}
  /-- Blocks of that lane in a row (R231). -/
  inRow : Nat := 0
  /-- Block under way. -/
  busy : Option Nat := none
  /-- Held request for the buffer into which it copies a window that would need a 17th reference (R195, R229). -/
  bufReq : Option Nat := none
  deriving DecidableEq, Repr

/-- Record Packer and compression engines. -/
structure Pack where
  /-- Blocks by model identity. Reset: empty. -/
  blks : Tab Blk := []
  /-- Next block identity. Reset: 0. -/
  nextBlk : Nat := 0
  /-- Engines that differ from reset. Reset: empty. -/
  engines : Tab Engine := []
  /-- Saved lane states, key stream * 16 + lane (R230). Reset: empty. -/
  saved : Tab LaneState := []
  /-- Bytes of each intake buffer not yet in a packet whose length word is written (R229). Reset: empty. -/
  intakeLeft : Tab Nat := []
  /-- Bytes that have come into each of those buffers. Reset: empty. -/
  intakeFill : Tab Nat := []
  /-- Counters 0x5030:01-07 (R239). Reset: 0. -/
  blocksWritten : Nat := 0
  blocksRaw : Nat := 0
  contentBytes : Nat := 0
  payloadBytes : Nat := 0
  verifyMismatches : Nat := 0
  laneSwitches : Nat := 0
  decompErrors : Nat := 0
  deriving DecidableEq, Repr

/-- The cartridge index in DRAM (R161-R175). -/
structure Index where
  extents : List Extent := []
  relocs : List Reloc := []
  moths : List Moth := []
  /-- Index-lost datasets (R437). -/
  lost : List Nat := []
  /-- Datasets that failed on write (R425). -/
  failed : List Nat := []
  /-- `IndexMemory` in force in MiB (R174). Reset: 4,096. -/
  limitMiB : Nat := 4096
  deriving DecidableEq, Repr

/-- Progress of a CARTRIDGE_LOAD (R173, R309, R433). -/
structure LoadJob where
  /-- Slot of the CARTRIDGE_LOAD, none for a reload (R545). -/
  slot : Option Nat
  /-- 0 index region, 1 scan, 2 journal check, 3 checkpoint of step 4. -/
  step : Nat := 0
  next : Nat := 0
  endDataset : Option Nat := none
  found : Nat := 0
  wprot : Bool := false
  /-- The status under which the load is refused; the tape is being unthreaded (R99). -/
  fail : Option Status := none
  /-- The newest entry of each stream with its highest lease end, and the dataset number plus 1 that holds it, 0 for the
  checkpoint (R157, R160, R439). -/
  streams : Tab (StreamEntry × Nat) := []
  /-- The Flow Tag of the transfer that reads the tape (R18, R20). -/
  flow : BitVec 128 := 0
  deriving DecidableEq, Repr

/-- The cartridge (R99, R280, R305, R310). -/
structure Cart where
  /-- Cartridge state (R99). Reset: EMPTY. -/
  state : CartState := .empty
  /-- ForceReadOnly of the last CARTRIDGE_LOAD (R545). Reset: 0. -/
  forceRo : Bool := false
  /-- READ_ONLY was entered by the failed-member rules alone (R413). Reset: 0. -/
  roByMembers : Bool := false
  /-- Manufacture data: W, LPOS_B, LPOS_E, G (R280). Reset: 0. -/
  wraps : Nat := 0
  lposB : Nat := 0
  lposE : Nat := 0
  grid : Nat := 0
  /-- FormatId (R305). Reset: 0. -/
  formatId : BitVec 64 := 0
  /-- CartridgeLabel (R116). Reset: 0. -/
  label : BitVec 64 := 0
  /-- Number of the next data dataset (R309). Reset: 0. -/
  next : Nat := 0
  /-- Sequence of the newest checkpoint and the last dataset it covers (R168). Reset: 0, none. -/
  ckptSeq : Nat := 0
  ckptEnd : Option Nat := none
  /-- Append positions on wraps 0 and 1 (R170). Reset: 0. -/
  posA : Nat := 0
  posB : Nat := 0
  load : Option LoadJob := none
  /-- Slot of the CARTRIDGE_UNLOAD in progress (R99). Reset: none. -/
  unload : Option Nat := none
  /-- The cartridge was READY at the fetch of the unload: its checkpoint is still ahead (R141). -/
  unloadClean : Bool := false
  /-- The cartridge was FAULTED at the fetch of the unload, or a fault came during it: the tape is out of use (R99, R469).
  Reset: 0. -/
  unloadFaulted : Bool := false
  /-- Slot of the CARTRIDGE_FORMAT in progress (R117). Reset: none. -/
  format : Option Nat := none
  /-- Fetch order number of the CARTRIDGE_FORMAT fetched and not ended (R117). Reset: none. -/
  formatting : Option Nat := none
  /-- Fetch order number of the REBUILD_RANGE fetched and not ended (R102). Reset: none. -/
  rebuilding : Option Nat := none
  /-- The rewind and unthread run (R99). Reset: 0. -/
  unthreading : Bool := false
  deriving DecidableEq, Repr

/-- Sector states of the Cocoon (R345). -/
inductive SectorSt
  | await | passed | needsCopy | copyPending | lost
  deriving DecidableEq, Repr

/-- A sector as the Cocoon tracks it: its state, copies counted, copies begun (R345, R346). -/
structure Sector where
  st : SectorSt
  copies : Nat := 0
  made : Nat := 0
  deriving DecidableEq, Repr

/-- Dataset states (R352), with the two states before encoding. -/
inductive DsState
  | filling | closed | encoding | ready | writing | verifying | released | failed
  deriving DecidableEq, Repr

/-- A placement in a rewrite slot: writing channel and slot, and the sector copied (R347). -/
structure Placement where
  chan : Nat
  slot : Nat
  dataset : Nat
  home : Nat
  row : Nat
  patch : Bool
  writePass : Nat
  /-- The Flow Tag of the copy's transfer (R20). -/
  flow : BitVec 128
  deriving DecidableEq, Repr

/-- A dataset from its opening to its release (R286-R303, R334-R354). -/
structure Dataset where
  /-- Model identity. -/
  id : Nat
  number : Option Nat := none
  kind : Nat := 0
  /-- The index wrap of a checkpoint dataset, whose number is its grid position there (R169, R303). -/
  index : Option Nat := none
  state : DsState := .filling
  /-- P4 buffer (R189). -/
  buf : Option Nat := none
  /-- The Flow Tag of its transfer (R18, R20). -/
  flow : BitVec 128 := 0
  /-- Payload area in use (R301). -/
  payload : List Byte := []
  continuation : Nat := 0
  padded : Bool := false
  contentOf : Nat := 0
  entries : List IndexEntry := []
  /-- Blocks with bytes here: identity, first stored byte here, and stored bytes here. -/
  blocks : List (Nat × Nat × Nat) := []
  sample : List Nat := []
  patch : Bool := false
  headerCh : List Nat := []
  speed : Nat := 0
  summary : List (Nat × Nat × Nat) := []
  overflow : Bool := false
  /-- The Flow Tag of the transfer of its Cocoon summary (R20). -/
  summaryFlow : BitVec 128 := 0
  /-- Sectors by channel * 96 + row; a required sector whose home slot has begun and that is not listed is AWAIT (R345). -/
  sectors : Tab Sector := []
  placements : List Placement := []
  /-- Rewrite slots that its commit gave a fill sector: channel and slot (R347). -/
  fills : List (Nat × Nat) := []
  /-- Slot whose leading edge passes next, 0 to 99; 100 once the trailing edge of slot 98 has passed (R352). -/
  slot : Nat := 0
  inhibits : Nat := 0
  cause : Option Status := none
  /-- The commit of slot 94 has run. -/
  committed : Bool := false
  deriving DecidableEq, Repr

/-- A checkpoint being written (R170-R173): sequence, what it covers, which copy runs. -/
structure CkptJob where
  seq : Nat
  endDataset : Option Nat
  copyB : Bool := false
  parts : Nat
  /-- Grid position of the first dataset of the copy that runs (R170). -/
  pos : Nat := 0
  /-- Datasets of the copy whose encoding has begun, one of them has failed, and the copy's pass has ended (R304, R333, R358). -/
  made : Nat := 0
  failed : Bool := false
  written : Bool := false
  /-- The buffer of its next dataset, and the held request for it (R193, R195). -/
  buf : Option Nat := none
  bufReq : Option Nat := none
  /-- The Flow Tag of that transfer (R20). -/
  flow : BitVec 128 := 0
  clean : Bool := false
  /-- Its bytes, the same in both copies (R168). -/
  bytes : List Byte := []
  /-- Datasets counted towards the next checkpoint when it began (R171). -/
  count : Nat := 0
  /-- Lease ends of its stream entries, by stream (R157). -/
  leases : Tab Nat := []
  /-- Fetch order numbers of the FLUSHes that wait for it (R137, R172). -/
  waits : List Nat := []
  deriving DecidableEq, Repr

/-- Dataset Builder, Cocoon and write front end. -/
structure Wr where
  /-- Dataset filling (R137). Reset: none. -/
  filling : Option Dataset := none
  /-- Closed datasets in order of closing (R334). Reset: empty. -/
  closedQ : List Dataset := []
  /-- The Cocoon: datasets from encoding on, in number order (R352). Reset: empty. -/
  cocoon : List Dataset := []
  /-- Next dataset identity. Reset: 0. -/
  nextDs : Nat := 0
  /-- Index entries queued for a header (R167). Reset: empty. -/
  queued : List IndexEntry := []
  /-- Blocks whose placement waits for a dataset buffer (R196), oldest first. Reset: empty. -/
  waiting : List Nat := []
  /-- Held request of the Dataset Builder for the next dataset buffer (R195). Reset: none. -/
  bufReq : Option Nat := none
  /-- STREAM_CREATEs whose first entry can reach no dataset any more, by fetch order number, with the status, and the number of the
  dataset that failed with it (R79, R158). Reset: empty. -/
  failedCreates : Tab (Status × Option Nat) := []
  /-- A write pass runs (R333); it is ending: no further dataset starts encoding (R356). Reset: 0. -/
  pass : Bool := false
  passEnding : Bool := false
  /-- The pass writes a checkpoint copy on an index wrap (R333). Reset: 0. -/
  passIndex : Bool := false
  /-- Tail datasets written since the last dataset of the pass (R356). Reset: 0. -/
  tails : Nat := 0
  /-- Write gates open (R337). Reset: 0. -/
  gates : Bool := false
  /-- Write guard state bits: position, shock, clock (R359). Reset: 0. -/
  guardPos : Bool := false
  guardShock : Bool := false
  guardClock : Bool := false
  /-- LAT samples within the limit, LAT periods with SHOCK# high, LAT periods in lock, since the condition (R359). Reset: 0. -/
  guardGood : Nat := 0
  guardQuiet : Nat := 0
  guardLocked : Nat := 0
  /-- LAT periods, the present one included, in which SHOCK# is still low (R359). Reset: 0. -/
  shockLow : Nat := 0
  /-- The dataset whose segment is under the head (R361, R362). Reset: none. -/
  head : Option Nat := none
  /-- The number of the newest dataset committed, plus 1 (R346). Reset: 0. -/
  lastCommit : Nat := 0
  /-- Current target speed step (R364). Reset: 24 (DESIGN CHOICE). -/
  speed : Nat := 24
  /-- TIME of the last change (R364). -/
  speedSince : Nat := 0
  /-- Stored bytes placed with TIME, newest first (R364). Reset: empty. -/
  placements : List (Nat × Nat) := []
  ckpt : Option CkptJob := none
  /-- A checkpoint is due (R171). Reset: 0. -/
  ckptDue : Bool := false
  /-- Datasets released since the last checkpoint (R171). Reset: 0. -/
  sinceCkpt : Nat := 0
  /-- `WriteStoppedByMembers` (R412). Reset: 0. -/
  stopped : Bool := false
  /-- Counters of R332, R367. Reset: 0. -/
  encodeCheckFailures : Nat := 0
  headerMoves : Nat := 0
  sectorsVerified : Nat := 0
  sectorsCopied : Nat := 0
  fillVerifyFailures : Nat := 0
  sectorsLost : Nat := 0
  datasetsFailed : Nat := 0
  tailDatasets : Nat := 0
  inhibitCount : Nat := 0
  speedChanges : Nat := 0
  deriving DecidableEq, Repr

/-- A stored block parsed from a dataset that was read (R214, R215, R301). -/
structure TapeBlk where
  id : Nat
  /-- The dataset in which it began, as the index numbers it, and the dataset read for it. -/
  dataset : Nat
  phys : Nat
  /-- Payload area offset of its first byte. -/
  pos : Nat
  stream : Nat
  first : Nat
  lane : Nat
  raw : Bool
  independent : Bool
  encrypted : Bool
  /-- Class: 1 W, 2 D, 3 stored. -/
  comp : Nat
  fragCount : Nat
  /-- EntryDistance (R215, R233). -/
  distance : Nat := 0
  contentLen : Nat
  payloadLen : Nat
  crc : Nat
  /-- Header, vector, payload and tag as they lie on tape. -/
  bytes : List Byte
  /-- Bytes of it that lie in the next dataset and are not yet known. -/
  short : Nat := 0
  rebuilt : Bool := false
  /-- A byte lies in an unrecovered sector (R420), and the physical channel of the first such sector (R79). -/
  unreadable : Bool := false
  badChan : Option Nat := none
  /-- Payload after decryption (R264); none before. -/
  plain : Option (List Byte) := none
  /-- The buffer that holds the plaintext until it is decoded, and the held request for it (R196, R264). -/
  buf : Option Nat := none
  bufReq : Option Nat := none
  /-- The buffer for the decompressed output, once granted, and the held request for it (R193, R196). -/
  outBuf : Option Nat := none
  outReq : Option Nat := none
  authFailed : Bool := false
  /-- Its content could not be decoded (R234). -/
  fault : Bool := false
  /-- Its fragments, once decoded (R233). -/
  frags : Option (List Frag) := none
  /-- The state of its lane after it, once decoded (R233). -/
  after : Option LaneState := none
  deriving DecidableEq, Repr

/-- The continuation at the start of a dataset's payload area (R301). -/
structure TapeTail where
  bytes : List Byte
  rebuilt : Bool
  unreadable : Bool
  badChan : Option Nat := none
  deriving DecidableEq, Repr

/-- What is known of a position of the dataset being read (R415): payload, WritePass, home sector or copy, filled by C2 or
C3. -/
structure Got where
  payload : List Byte
  pass : Nat
  home : Bool
  filled : Bool := false
  deriving DecidableEq, Repr

/-- The dataset being read (R415). -/
structure ReadDs where
  /-- The dataset on tape. -/
  number : Nat
  /-- The number under which the index knows its content (R175). -/
  orig : Nat
  wrap : Nat
  /-- Positions with an accepted home sector, or filled by the codes, by physical channel * 96 + row. -/
  got : Tab Got := []
  /-- The accepted copy with the highest WritePass of each position (R415). -/
  copies : Tab Got := []
  /-- 0 first read, 1 harvest, 2 retries (R418). -/
  phase : Nat := 0
  retry : Nat := 0
  /-- Its read dataset buffer, and the held request for it (R193, R196). -/
  buf : Option Nat := none
  bufReq : Option Nat := none
  /-- The Flow Tag of its transfer (R18, R20). -/
  flow : BitVec 128 := 0
  deriving DecidableEq, Repr

/-- The user data of a dataset that was read: its sectors in fill order, with what is lost and what was rebuilt
(R296, R420, R422). -/
structure UserArea where
  bytes : List Byte
  lost : List Nat
  rebuilt : List Nat
  /-- The physical channel of each lost sector, in the order of `lost`. -/
  lostChans : List Nat := []
  deriving DecidableEq, Repr

/-- Read scheduling and recovery (R176, R415-R424). -/
structure Rd where
  /-- Datasets wanted, none being read (R176). Reset: empty. -/
  queue : List Nat := []
  /-- The collection window runs; it has run for this batch (R176). Reset: 0. -/
  collecting : Bool := false
  batch : Bool := false
  /-- The dataset to be read next for its age (R176). Reset: none. -/
  urgent : Option Nat := none
  cur : Option ReadDs := none
  /-- The number of the last dataset read in this batch, plus 1. Reset: 0. -/
  last : Nat := 0
  /-- Datasets read for the commands in flight. Reset: empty. -/
  seen : List Nat := []
  /-- Of those, datasets in which the rest of the blocks could not be found. Reset: empty. -/
  gaps : List Nat := []
  /-- Of those, datasets whose first block is not yet found, header part 0 being lost (R421). Reset: empty. -/
  headless : Tab UserArea := []
  /-- Blocks read, in stream order within each stream, and the continuations read. Reset: empty. -/
  blks : List TapeBlk := []
  tails : Tab TapeTail := []
  nextBlk : Nat := 0
  /-- `EqTarget` in force since the last pass began (R383, R401). Reset: 0. -/
  eqTarget : Nat := 0
  /-- Lateral read offset in percent of the track pitch, and the speed step of reads (R366, R419). Reset: 0, and 24
  (DESIGN CHOICE). -/
  offset : Int := 0
  speed : Nat := 24
  /-- Counters of R442. Reset: 0. -/
  rebuiltSectors : Nat := 0
  stripesUnrecovered : Nat := 0
  retriesDone : Nat := 0
  summariesLost : Nat := 0
  tailUnverified : Nat := 0
  mothsWritten : Nat := 0
  deriving DecidableEq, Repr

/-- A buffer in use (R189). -/
structure Buf where
  owner : Byte
  count : Nat
  pinned : Bool := false
  deriving DecidableEq, Repr

/-- A held request (R195) with its Flow Tag (R25). -/
structure Held where
  id : Nat
  owner : Byte
  cls : Nat
  size : Nat
  tag : BitVec 128 := 0
  deriving DecidableEq, Repr

/-- The response to a request: its requester, code, the buffer granted, and the request's Flow Tag (R25). -/
structure Answer where
  owner : Byte
  code : Response
  buf : Option Nat := none
  tag : BitVec 128 := 0
  deriving DecidableEq, Repr

/-- What a request asks of a buffer that is in use (R189). -/
inductive BufOp
  | ref | give (newOwner : Byte) | free
  deriving DecidableEq, Repr

/-- A REF, GIVE or FREE request: requester, buffer (pool * 32768 + index), and Flow Tag (R25, R189). -/
structure BufReq where
  op : BufOp
  owner : Byte
  id : Nat
  tag : BitVec 128
  deriving DecidableEq, Repr

/-- Counters of one pool (R187). -/
structure Pool where
  /-- `PoolCount` in force since the last initialisation. -/
  count : Nat
  minFree : Nat
  lostConcurrent : Nat := 0
  refused : Nat := 0
  /-- Buffers withdrawn (R183). -/
  quarantined : List Nat := []
  deriving DecidableEq, Repr

/-- The Buffer Pool Manager. -/
structure Bpm where
  /-- Pools P0 to P4 (R187). Reset: the default counts. -/
  pools : List Pool := [⟨32768, 32768, 0, 0, []⟩, ⟨16384, 16384, 0, 0, []⟩, ⟨4096, 4096, 0, 0, []⟩,
    ⟨1024, 1024, 0, 0, []⟩, ⟨256, 256, 0, 0, []⟩]
  /-- Buffers in use, key pool * 32768 + index (R189). Reset: empty. -/
  bufs : Tab Buf := []
  /-- Waiting list in arrival order (R195). Reset: empty. -/
  held : List Held := []
  nextHeld : Nat := 0
  /-- Round robin pointer of owner identifiers (R197). Reset: 0. -/
  rr : Nat := 0
  /-- `DatasetAbove` (R198). Reset: 0. -/
  above : Bool := false
  /-- Responses given inside the device, newest first. Reset: empty. -/
  answers : List Answer := []
  /-- A served request is held: the episode of event 0x503 runs (R194). Reset: 0. -/
  servedHeld : Bool := false
  /-- REF, GIVE and FREE requests that came during a reset of the data path, oldest first (R546). Reset: empty. -/
  later : List BufReq := []
  deriving DecidableEq, Repr

/-- The DRAM stack's error state (R180-R183). -/
structure Dram where
  /-- `DramCorrected`, `DramUncorrectable` (R180). Reset: 0. -/
  corrected : Nat := 0
  uncorrectable : Nat := 0
  /-- Rows listed for repair, by row number over all banks (R183). Reset: empty. -/
  listed : List Nat := []
  /-- Corrected words by row in this scrub pass (R183). Reset: empty. -/
  rowCe : Tab Nat := []
  /-- Corrected words in the present second and its start (R203). Reset: 0. -/
  ceSecond : Nat := 0
  ceStart : Nat := 0
  /-- Spare rows used by bank (R183). Reset: empty. -/
  spares : Tab Nat := []
  /-- Event 0x508 has been raised (R183). Reset: 0. -/
  exhausted : Bool := false
  /-- `DramSpareRowsUsed` (R183). Reset: 0. -/
  sparesUsed : Nat := 0
  deriving DecidableEq, Repr

/-- Key slot states (R249). -/
inductive KeyState
  | free | loaded | bound | retiring
  deriving DecidableEq, Repr

/-- A key slot that is not FREE (R249). -/
structure KeySlot where
  state : KeyState
  key : BitVec 256
  owner : Nat
  writerId : BitVec 24
  /-- DeviceLane when the key was loaded (R244). -/
  lane : BitVec 8
  /-- Scope: one stream, or none for any stream of the owner. -/
  scope : Option Nat
  next : Nat
  highWater : Nat
  binds : Nat := 0
  /-- A pre-reservation is being written (R259). -/
  persisting : Bool := false
  /-- Event 0x524 raised (R261). -/
  warned : Bool := false
  /-- Fetch order number of the KEY_UNLOAD that will zeroise it (R256). -/
  unloading : Option Nat := none
  deriving DecidableEq, Repr

/-- A reservation being persisted: that of a KEY_LOAD of kind 0, named by its command's slot, or the pre-reservation of a
key slot (R253, R259). -/
structure KeyPend where
  slot : Option Nat
  entry : KeySlot
  key : Nat
  deriving DecidableEq, Repr

/-- One cipher pair (R259). -/
structure CipherPair where
  /-- Block being encrypted. -/
  enc : Option Nat := none
  /-- Its next output buffer, once granted, and the held request for it (R193, R196). -/
  buf : Option Nat := none
  bufReq : Option Nat := none
  deriving DecidableEq, Repr

/-- The Cipher Engine and the security store (R242-R275). -/
structure Cipher where
  /-- Key slots not FREE (R249). Reset: empty. -/
  slots : Tab KeySlot := []
  /-- KEK by function and the KeyKind that installed it (R248, R273). Reset: empty. -/
  keks : Tab (BitVec 256 × Nat) := []
  /-- Device transport key, private part (R247). Reset: none. -/
  transport : Option (BitVec 256) := none
  /-- Counter table: key fingerprint * 2^24 + writer identifier to high-water (R257). Kept in flash. Reset: empty. -/
  counters : Tab Nat := []
  /-- Persists under way, oldest first: a KEY_LOAD, or a pre-reservation of a slot (R258, R259). Reset: empty. -/
  loads : List KeyPend := []
  /-- Pairs in use. Reset: empty. -/
  pairs : Tab CipherPair := []
  /-- The engine accepts no block (R269). Reset: 0. -/
  failed : Bool := false
  /-- Requests served by the DRBG since it was seeded (R268). Reset: 0. -/
  drbgRequests : Nat := 0
  /-- Counters of R273. Reset: 0. -/
  persists : Nat := 0
  encrypted : Nat := 0
  decrypted : Nat := 0
  authFailures : Nat := 0
  deriving DecidableEq, Repr

/-- A slot image, in a write bank and then in a verify FIFO (R336, R341). -/
structure Image where
  /-- Dataset, home channel and row of the sector it holds, and the slot it is written in. -/
  dataset : Nat
  slot : Nat
  home : Nat
  row : Nat
  /-- 0 home, 1 rewrite, 2 patch, 3 fill. -/
  kind : Nat
  cut : Bool := false
  /-- The sector header and the C1 codeword written; the 17,152 bits are those of `Image.bits` (R288, R289). -/
  header : SectorHeader
  codeword : List Byte := []
  /-- The dataset in whose segment it is written, and the wrap of that segment (R282, R347). -/
  under : Nat
  wrap : Nat
  /-- The Flow Tag of its transfer (R20). -/
  flow : BitVec 128 := 0
  /-- The mark at its start is set: it has begun to drain (R29, R341). -/
  marked : Bool := false
  deriving DecidableEq, Repr

/-- Values of the adaptive loops of a channel (R379, R384, R402). -/
structure Loops where
  gain : Nat := 0
  offset : Int := 0
  asym : Int := 0
  /-- The 15 taps of the equaliser (R382). Reset: the centre tap 1, which changes no sample (DESIGN CHOICE, log entry 121). -/
  eq : List Int := [0, 0, 0, 0, 0, 0, 0, 256, 0, 0, 0, 0, 0, 0, 0]
  /-- Output of the fine phase loop, in 1/64 bit (R379). -/
  phase : Int := 0
  /-- Bits for which the gain and offset loops still run at acquisition gain after a long flag (R384). -/
  restart : Nat := 0
  /-- The two taps of the noise predictor of each branch of the detector (R389, R400). -/
  np : List Int := []
  deriving DecidableEq, Repr

/-- A slot that a channel reads, from the opening of its sync window to its report (R373, R380). -/
structure SyncWindow where
  slot : Nat
  wrap : Nat
  /-- TLCS in lock at the opening (R373). -/
  lock : Bool
  /-- Leading edge of the slot, in LPOS units (R284). -/
  lead : Int
  /-- Number that a dataset at the slot's grid position carries in its sector headers (R289). -/
  number : Nat
  /-- P of R380, in 1/64 channel bit. -/
  predicted : Int
  /-- Setting of the channel's interpolator, in 1/64 bit (R379), and corner of its low-pass filter, in Hz (R382). -/
  setting : Int
  corner : Nat
  deriving DecidableEq, Repr

/-- A physical channel (R398-R410, R588). -/
structure Channel where
  /-- `ChState` FAILED (R404). Reset: ACTIVE; kept in flash. -/
  failed : Bool := false
  /-- `ChFailCause` (R405). Reset: 0. -/
  cause : Nat := 0
  /-- `ChFailedAtDataset` (R410). Reset: all ones. -/
  failedAt : Option Nat := none
  /-- `ChBadDatasets` (R406). Reset: 0. -/
  bad : Nat := 0
  /-- `ChFailCount` (R410). Reset: 0. -/
  failCount : Nat := 0
  /-- `ChVerifyFailures` (R410). Reset: 0. -/
  verifyFailures : Nat := 0
  /-- `ChRebuiltSectors` (R410). Reset: 0. -/
  rebuilt : Nat := 0
  /-- Verify failures and cut-off slots of the channel within each dataset under the head (R345, R368). Reset: empty. -/
  failsIn : Tab Nat := []
  /-- Verify failures counted towards R406 in each dataset. Reset: empty. -/
  judgedIn : Tab Nat := []
  /-- Verify FIFO, oldest first (R31). Reset: empty. -/
  fifo : List Image := []
  /-- Which of the two write banks drains, and the image that drains from it (R29, R31). Reset: bank 0, none. -/
  bank : Bool := false
  draining : Option Image := none
  /-- The image that fills the other bank while that one drains (R29, R336). Reset: none. -/
  filling : Option Image := none
  /-- A `ChCommand` 2 waits for a reset of the channel to end (R409). Reset: 0. -/
  restorePending : Bool := false
  /-- `ChGain`, `ChOffset`, `ChAsymmetry`, `ChEqCoeffs` (R402). Reset: 0, the centre tap 1 (DESIGN CHOICE, log entries 7 and 121). -/
  loops : Loops := {}
  /-- The CORE domain's copy at the last converged sector: the loops, and the forward and reverse sync offsets (R400).
  Reset: none. -/
  kept : Option (Loops × Nat × Nat) := none
  /-- Counters of R402. Reset: 0. -/
  sectorsRead : Nat := 0
  sectorsErased : Nat := 0
  syncBlind : Nat := 0
  syncAlternate : Nat := 0
  iterHist : List Nat := [0, 0, 0, 0, 0, 0, 0, 0]
  defectBits : Nat := 0
  /-- `ChLastReport` (R398). Reset: 0. -/
  lastReport : BitVec 64 := 0
  /-- Consecutive NO_SYNC or C1_FAILED slots in a dataset (R403). Reset: 0. -/
  lossRun : Nat := 0
  /-- Slots being read, in the order of their sync windows: the next window opens while a slot decodes (R396). Reset:
  empty. -/
  windows : List SyncWindow := []
  /-- Fault bit last reported (R589). Reset: 0. -/
  headFault : Bool := false
  /-- The flag that stood at the end of the last slot has raised DEFECT_LONG (R388). Reset: 0. -/
  longFlag : Bool := false
  deriving DecidableEq, Repr

/-- TLCS states (R372). -/
inductive TlcsState
  | idle | acquire | locked | flywheel
  deriving DecidableEq, Repr

/-- The Tape-Locked Clock Synthesiser (R369-R378). -/
structure Tlcs where
  state : TlcsState := .idle
  /-- Valid readers, 0 to 3 (R370). Reset: none. -/
  valid : List Nat := []
  /-- LPOS established (R376). Reset: 0. -/
  lpos : Bool := false
  /-- Frequency of the DCO in Hz, 0 while stopped, and the speed reference of the reel loops in µm/s when it was last set by the tape
  (R371, R372, R374). Reset: stopped. -/
  dco : Nat := 0
  flyRef : Int := 0
  /-- Second state of the DCO's loop (R371). Reset: 0 (DESIGN CHOICE). -/
  integ : Int := 0
  /-- Phase of each reader less that of the DCO, in 1/64 channel bit, within a clock period (R369). Reset: empty. -/
  phases : Tab Int := []
  /-- Learned difference of the two readers of each band, in 1/64 bit, and the sum and the clock periods of the average that runs
  (R370). Reset: 0 (DESIGN CHOICE). -/
  learned : List Int := [0, 0]
  learnSum : List Int := [0, 0]
  learnCount : List Nat := [0, 0]
  /-- Clock periods for which the averaged phase error has stayed within 1/8 bit (R372). Reset: 0. -/
  steady : Nat := 0
  /-- Position in channel bits with 6 fraction bits (R375). Reset: 0 (DESIGN CHOICE). -/
  position : Int := 0
  /-- How far the DCO has counted since the last TILT_UPDATE, and the distance count of FLYWHEEL, in 1/64 bit (R374, R375).
  Reset: 0. -/
  counted : Nat := 0
  distance : Nat := 0
  /-- ACQUIRE was entered from FLYWHEEL (R376). Reset: 0. -/
  fromFly : Bool := false
  /-- The data bits of the frames that each band has passed, newest first (R278, R279). Reset: empty. -/
  frameBits : List (List Bool) := [[], []]
  /-- ΔL in 1/64 channel bit, θ in µrad, e in ppm (R377). Reset: 0 (DESIGN CHOICE). -/
  deltaL : Int := 0
  tilt : Int := 0
  width : Int := 0
  /-- The whole-period part of ΔL is still to be fixed; the frame boundary passed last: by the upper band, its frame, and the position
  (R377, R378). Reset: 0, none. -/
  fixWhole : Bool := false
  passed : Option (Bool × Nat × Int) := none
  /-- Sums of θ and e and their number since the last SKEW sample (R377). Reset: 0. -/
  tiltSum : Int := 0
  widthSum : Int := 0
  tiltCount : Nat := 0
  /-- Tilt on hold (R378). Reset: 0. -/
  hold : Bool := false
  /-- `FlywheelEntries`, `TlcsUnlocks` (R401). Reset: 0. -/
  flyEntries : Nat := 0
  unlocks : Nat := 0
  deriving DecidableEq, Repr

/-- Transport states (R467). -/
inductive TceState
  | off | hold | moving | stopping | fault
  deriving DecidableEq, Repr

/-- A biquad's delay values, as mantissas (R456). -/
structure Biquad where
  x1 : Int := 0
  x2 : Int := 0
  y1 : Int := 0
  y2 : Int := 0
  deriving DecidableEq, Repr

/-- A control loop (R456, R461). -/
structure Loop where
  target : Int := 0
  setpoint : Int := 0
  /-- A new target waits for the loop's next sample. -/
  newTarget : Bool := false
  ramping : Bool := false
  notch : List Biquad := [{}, {}, {}, {}]
  comp : Biquad := {}
  integ : Int := 0
  /-- Output mantissa at EOut, and the value on the ASL. -/
  out : Int := 0
  aslValue : Int := 0
  measured : Int := 0
  deriving DecidableEq, Repr

/-- The Transport Control Engine (R444-R472). -/
structure Tce where
  state : TceState := .off
  /-- `TceFaults` (R468). Reset: 0. -/
  faults : BitVec 32 := 0
  /-- `LoopSatFlags` (R455). Reset: 0. -/
  sat : BitVec 64 := 0
  /-- `GainRegion` (R459). Reset: 0. -/
  region : Nat := 0
  /-- Frame number (R445). Reset: 0. -/
  frame : Nat := 0
  /-- LAT, SKEW, REEL-S, REEL-T (R444). Reset: zero state. -/
  loops : List Loop := [{}, {}, {}, {}]
  /-- Tape speed in µm/s (R450). Reset: 0. -/
  speed : Int := 0
  /-- Radii in µm, none before a measurement since threading (R450). Reset: none. -/
  rT : Option Nat := none
  rS : Option Nat := none
  /-- Reel rates in µrad/s and angular acceleration of the take-up reel (R450). Reset: 0. -/
  omegaS : Int := 0
  omegaT : Int := 0
  alphaT : Int := 0
  /-- Edges since the radius update, per reel (R450). Reset: 0. -/
  edgesS : Nat := 0
  edgesT : Nat := 0
  /-- Background windows since an edge, per reel (R468). Reset: 0. -/
  quietS : Nat := 0
  quietT : Nat := 0
  /-- T̂ in nN (R451). Reset: 0 (DESIGN CHOICE). -/
  tension : Int := 0
  /-- Newest estimate of each servo reader in pm; none when invalid (R448). Reset: none. -/
  readers : List (Option Int) := [none, none, none, none]
  /-- Invalid episode of each reader reported (R448). Reset: 0. -/
  readerBad : List Bool := [false, false, false, false]
  /-- Last PES measurement in pm (R449). Reset: 0. -/
  pes : Int := 0
  /-- Wrap in use, read offset in percent of the pitch, and a seek in progress (R449). Reset: 0. -/
  wrap : Nat := 0
  readOffset : Int := 0
  seek : Bool := false
  /-- Sum, in half picometres, and count of the band b + 1 less band b differences of this SKEW period (R452). Reset: 0. -/
  bandSum : Int := 0
  bandCount : Nat := 0
  /-- ŵ in parts in 10^9 (R452). Reset: 0. -/
  width : Int := 0
  /-- Fault counters: LAT samples without a reader, beyond 25 %; 10 µs frames of speed and tension error (R468). -/
  lossCount : Nat := 0
  rangeCount : Nat := 0
  speedCount : Nat := 0
  tensionCount : Nat := 0
  /-- Sequence of the next command frame by address, last sequence sent, and frames unanswered (R463, R468). -/
  aslSeq : Tab Nat := []
  aslSilent : Tab Nat := []
  /-- `AslErrors` (R465). Reset: 0. -/
  aslErrors : Nat := 0
  /-- Flags of the last status frame by stage (R464). Reset: 0. -/
  stageFlags : Tab Nat := []
  /-- Manufacture data that the servo words have brought since threading: item and value (R279, R280). Reset: empty. -/
  made : Tab Nat := []
  /-- Coarse head position (R465). Reset: 0. -/
  coarse : Int := 0
  /-- Debounced pin levels; true means the pin is high (R466, R579). Reset: high, and WPROT# low. -/
  cartHigh : Bool := true
  wprotHigh : Bool := false
  tfaultHigh : Bool := true
  /-- `ShockCount` (R466). Reset: 0. -/
  shockCount : Nat := 0
  /-- Samples and saturated samples of each loop in this hour of motion (R470). Reset: 0. -/
  hourSamples : List Nat := [0, 0, 0, 0]
  hourSat : List Nat := [0, 0, 0, 0]
  /-- The last 64 hours, newest first: saturated or not (R470). Kept in flash. Reset: empty. -/
  hours : List Bool := []
  /-- TCE_RESET was latched by a reset while not OFF: waits for the end of the reset (R471). Reset: 0. -/
  resetLatched : Bool := false
  /-- A controlled stop runs (R468). Reset: 0. -/
  ctlStop : Bool := false
  /-- Frames of a torque off still to send: 2 the disable frames, 1 the brake frames, 0 none (R468). Reset: 0. -/
  stopFrames : Nat := 0
  /-- Head-front link: chip polled next, sequence, and silent commands by chip (R586, R588). Reset: 0. -/
  hcfChip : Nat := 0
  hcfSeq : Tab Nat := []
  hcfSilent : Tab Nat := []
  hcfErrors : Nat := 0
  /-- Register writes still to send: chip, register, data (R587). Reset: empty. -/
  hcfWrites : List (Nat × Nat × Nat) := []
  deriving DecidableEq, Repr

/-- Where a dictionary operation came from (R477). -/
inductive DictSrc
  | cmd (slot : Nat)
  | window (fn : Nat)
  | staxa (session : Nat)
  /-- A command row that is itself the write: nothing is answered. -/
  | row
  deriving DecidableEq, Repr

/-- A dictionary operation waiting for the server (R481). -/
structure DictOp where
  src : DictSrc
  isWrite : Bool
  index : Nat
  sub : Nat
  value : List Byte
  /-- The source of a write of `EventRoute`, taken when the write is executed (R557). -/
  source : Nat := 0
  deriving DecidableEq, Repr

/-- The object dictionary (R474-R483). -/
structure Dict where
  /-- Values written, by index * 256 + subindex, bytes little-endian (R475, R482). Reset: empty, so every default. -/
  vals : Tab (List Byte) := []
  /-- Event routes written, by source (R557). Reset: empty. -/
  routes : Tab Nat := []
  /-- The server's queue; its head may be an RWP write being persisted (R481, R483). Reset: empty. -/
  queue : List DictOp := []
  persisting : Bool := false
  /-- A restore is armed (R483). Reset: 0. -/
  armed : Bool := false
  /-- The request to restore defaults is in flash (R483). Reset: 0. -/
  restore : Bool := false
  deriving DecidableEq, Repr

/-- A Staxa session (R496, R497). -/
structure Session where
  keyId : Nat
  key : BitVec 256
  clientNonce : BitVec 128
  ack : List Byte
  maker : Bool
  timeout : Nat
  last : Nat := 0
  response : List Byte := []
  /-- The REQUEST executing: sequence, operations left, results so far and their count. -/
  running : Option (Nat × List StaxaOp × List Byte × Nat) := none
  /-- The session ends with the RESPONSE of the REQUEST that executes (R487, R570). -/
  closing : Bool := false
  streamSel : Nat := 0
  keySel : Nat := 0
  eventSel : Nat := 0
  logIdx : Nat := 0
  blockSel : Nat := 0
  deriving DecidableEq, Repr

/-- Staxa and the management port (R487-R501). -/
structure Staxa where
  sessions : Tab Session := []
  /-- Staxa keys loaded, kept in the security store (R488). Reset: empty. -/
  keys : Tab (BitVec 256) := []
  /-- `StaxaDropped`, `StaxaAuthFailures` (R487). Reset: 0. -/
  dropped : Nat := 0
  authFailures : Nat := 0
  /-- TIME of the ERROR messages of the last second, newest first (R495). Reset: empty. -/
  errTimes : List Nat := []
  deriving DecidableEq, Repr

/-- Flash block states (R511). -/
inductive BlockState
  | free | opened | full | erasing | incomplete | retired
  deriving DecidableEq, Repr

/-- An entry of the block status table (R511). -/
structure FlashBlock where
  state : BlockState := .free
  refresh : Bool := false
  nextPage : Nat := 0
  region : Nat := 7
  eraseCount : Nat := 0
  /-- A program of the block was interrupted: it takes no further program (R518). -/
  sealed : Bool := false
  deriving DecidableEq, Repr

/-- A descriptor in the queue and whether it came through the diagnostic entry (R505, R531). -/
structure FlashDesc where
  d : BitVec 256
  diag : Bool := false
  /-- The management core that stalls on it (R520). -/
  core : Option Nat := none
  /-- Flow Tag of the request (R18, R20). -/
  tag : BitVec 128 := 0
  deriving DecidableEq, Repr

/-- The Flash Controller (R502-R521, R530). -/
structure Flash where
  /-- Blocks that differ from manufacture (R511). Reset: empty. -/
  blocks : Tab FlashBlock := []
  /-- Metadata of programmed pages, key block * 64 + page; none when invalid (R502, R518). Reset: empty. -/
  pages : Tab (Option (BitVec 64)) := []
  /-- Descriptor queue, oldest first (R504). Reset: empty. -/
  queue : List FlashDesc := []
  /-- Descriptors of submitters that found the queue full and are held, oldest first (R504). Reset: empty. -/
  held : List FlashDesc := []
  /-- Operation in progress other than an erase. Reset: none. -/
  op : Option FlashDesc := none
  /-- Erase in progress, and whether it is suspended (R515). Reset: none, 0. -/
  erase : Option FlashDesc := none
  suspended : Bool := false
  /-- Brown-out detector tripped (R517). Reset: 0. -/
  brownout : Bool := false
  /-- Counters of R530. Reset: 0. -/
  retired : Nat := 0
  sparesUsed : Nat := 0
  correctedBits : Nat := 0
  uncorrectable : Nat := 0
  brownouts : Nat := 0
  /-- Event 0x705 raised (R514). Reset: 0. -/
  sparesOut : Bool := false
  /-- `FlashDiagResult` (R531). Reset: 0. -/
  diagResult : BitVec 128 := 0
  /-- Management cores stalled on a fetch miss (R520). Reset: none. -/
  stalled : List Nat := []
  deriving DecidableEq, Repr

/-- A Glove (R525): sequence, image slot, fallback flag, manifest; none when it does not read back valid. -/
structure Glove where
  seq : Nat
  slot : Nat
  fallback : Bool := false
  manifest : List Byte
  deriving DecidableEq, Repr

/-- Steps of FW_ACTIVATE after its checks (R142). -/
structure Activate where
  /-- Slot of the command. -/
  slot : Nat
  /-- Fetch order number: earlier commands are waited for. -/
  seq : Nat
  /-- 3 waiting and draining, 4 the Gloves are swapped, 5 the new image starts, 6 its completion is still to be posted. -/
  step : Nat
  /-- Image slot staged. -/
  image : Nat
  deriving DecidableEq, Repr

/-- Firmware images and Gloves (R522-R530). -/
structure Fw where
  /-- Gloves A and B (R525). Reset: A names slot 0 with Sequence 1, an empty manifest (DESIGN CHOICE). -/
  gloveA : Option Glove := some ⟨1, 0, false, []⟩
  gloveB : Option Glove := none
  /-- `FwActiveSlot`; none in recovery (R526). Reset: 0. -/
  active : Option Nat := some 0
  /-- Sequence of the Glove booted (R530). Reset: 1. -/
  activeSeq : Nat := 1
  /-- Staged bytes in the inactive slot, and `FwStagedState` (R523, R530). Reset: none. -/
  staged : List Byte := []
  stagedState : Nat := 0
  /-- `FwSecurityFloor` in fuses (R528). Reset: 0. -/
  floor : Nat := 0
  /-- Unconfirmed starts of the present Glove Sequence (R529). Reset: 0. -/
  starts : Nat := 0
  /-- A start is not yet confirmed (R528, R529). Reset: 0. -/
  starting : Bool := false
  /-- Image slots 0 and 1 hold the image that a Glove's manifest describes (R523, R526). Reset: slot 0 alone (DESIGN CHOICE). -/
  image0 : Bool := true
  image1 : Bool := false
  /-- Sequence of the Glove whose image failed to start (R529). Reset: 0. -/
  failedSeq : Nat := 0
  /-- The image starting is a fallback that must write its Glove (R529). Reset: 0. -/
  fallbackBoot : Bool := false
  /-- `FwLastActivateResult`, `FwFallbacks` (R530). Reset: 0. -/
  lastResult : Nat := 0
  fallbacks : Nat := 0
  activate : Option Activate := none
  deriving DecidableEq, Repr

/-- An entry of an event queue: the 128 bits of R534 and its parity outcome (R29). -/
structure EvEntry where
  bits : BitVec 128
  poison : Bool := false
  deriving DecidableEq, Repr

/-- The Event Unit and the event log (R533-R542). -/
structure Ev where
  /-- `EventCount` by source (R557). Reset: empty, so 0. -/
  counts : Tab Nat := []
  /-- EVQ-H, oldest first (R31). Reset: empty. -/
  host : List EvEntry := []
  /-- EVQ_STS.LostCount, EntryValid, Poison, Armed and EVQ_ENTRY (R538). Reset: 0. -/
  lost : Nat := 0
  entryValid : Bool := false
  poison : Bool := false
  armed : Bool := false
  entry : BitVec 128 := 0
  /-- EVQ-M, oldest first (R541). Reset: empty. -/
  mgmt : List EvEntry := []
  /-- Event log, oldest first: LogIndex, TIME, entry (R541). Reset: empty. -/
  log : List (Nat × BitVec 64 × EvEntry) := []
  /-- LogIndex given next (R541). Reset: 0. -/
  nextLog : Nat := 0
  /-- `EvqHostLostTotal`, `EvqMgmtLostTotal`, `EvqHostPoisoned` (R557). Reset: 0. -/
  hostLostTotal : Nat := 0
  /-- The lost-entry counter of EVQ-M itself, 16 bits (R29). Reset: 0. -/
  mgmtLost : Nat := 0
  mgmtLostTotal : Nat := 0
  hostPoisoned : Nat := 0
  deriving DecidableEq, Repr

/-- A domain reset running (R544, R548). -/
structure DomReset where
  code : Nat
  cause : Nat
  /-- The reset waits for the power-up of the domain (R554). -/
  deferred : Bool := false
  /-- Writes of `DomainReset` that complete when the domain is ready (R557). -/
  waits : List DictSrc := []
  deriving DecidableEq, Repr

/-- Power states (R549-R556). -/
structure Power where
  /-- `PowerStateNow`. Reset: 0. -/
  now : Nat := 0
  /-- State being entered, none outside a transition. Reset: none. -/
  goal : Option Nat := none
  /-- A wake arrived during the entry (R553). Reset: 0. -/
  wake : Bool := false
  /-- `PowerStateRequest` waiting for idleness (R551). Reset: none. -/
  request : Option Nat := none
  /-- A drain runs before PS2, of what was fetched before this fetch order number (R551). Reset: none. -/
  drain : Option Nat := none
  /-- TIME of the last change of state (R557). Reset: 0. -/
  since : BitVec 64 := 0
  deriving DecidableEq, Repr

/-- A life-cycle transition in progress (R570). -/
structure LcJob where
  target : Nat
  /-- Triple to blow; none for LcScrap. -/
  triple : Option Nat
  oldState : Nat
  tries : Nat := 0
  /-- Where the write of `LcRequest` came from. -/
  src : DictSrc := .row
  deriving DecidableEq, Repr

/-- The Life-Cycle Controller (R559-R575). -/
structure Lc where
  /-- The fuse row (R560). Reset: unblown, so BLANK. -/
  row : BitVec 40 := 0
  /-- State in force (R560). Reset: 0 BLANK. -/
  state : Nat := 0
  /-- The challenge held (R567). Reset: none. -/
  challenge : Option (BitVec 256) := none
  job : Option LcJob := none
  /-- Debug paths used since the last management reset: JTAG, UART (R564). Reset: 0. -/
  jtagUsed : Bool := false
  uartUsed : Bool := false
  /-- JTAG instruction in force (R564). Reset: IDCODE (PRESUMED: IEEE 1149.1). -/
  jtag : JtagInstr := .idcode
  deriving DecidableEq, Repr

/-- Health and environment (R441, R593). -/
structure Health where
  /-- `ReplaceCauses` (R441). Reset: 0; kept in flash. -/
  causes : BitVec 32 := 0
  /-- `DieTemperature`, `DieTemperatureMax` in 0.125 degree (R593). Reset: 0 (DESIGN CHOICE). -/
  temp : BitVec 16 := 0
  tempMax : Option (BitVec 16) := none
  /-- Residency in each power state in ns of TIME (R557). Reset: 0. -/
  residency : List Nat := [0, 0, 0, 0]
  deriving DecidableEq, Repr

/-- The whole block. -/
structure State where
  /-- Commands waiting, first in first out. Reset: empty. -/
  pending : List Instr := []
  /-- TIME in nanoseconds (R46). Reset: 0. -/
  time : BitVec 64 := 0
  /-- The model's own counter of free values drawn; not the manual's. Reset: 0 (DESIGN CHOICE). -/
  drawn : Nat := 0
  /-- What the device issued to the outside, newest first. Reset: empty. -/
  out : List Out := []
  /-- Next sequence number of each internal agent's transfers (R20, R543). Reset: empty, so 0. -/
  agentSeq : Tab Nat := []
  host : HostIf := {}
  cart : Cart := {}
  /-- Streams on the loaded cartridge, by identifier (R146). Reset: empty. -/
  streams : Tab Stream := []
  /-- Stream identifiers reserved by a STREAM_CREATE in flight: identifier, and the fetch order number of the command (R148). Reset: empty. -/
  reserved : Tab Nat := []
  index : Index := {}
  pack : Pack := {}
  wr : Wr := {}
  rd : Rd := {}
  bpm : Bpm := {}
  dram : Dram := {}
  cip : Cipher := {}
  /-- Channels that differ from reset, by number (R404). Reset: empty. -/
  chans : Tab Channel := []
  tlcs : Tlcs := {}
  tce : Tce := {}
  dict : Dict := {}
  staxa : Staxa := {}
  flash : Flash := {}
  fw : Fw := {}
  ev : Ev := {}
  /-- Domain resets running or waiting for power (R544). Reset: empty. -/
  resets : List DomReset := []
  pwr : Power := {}
  lc : Lc := {}
  health : Health := {}
  deriving DecidableEq, Repr

/-- The block after power-on reset: every field at the value its comment gives. -/
def State.reset : State := {}

end Sys2Proof.Machine
end

