-- ==== Sys2Proof/Machine/Compress.lean ====
section
/-! DEFINITION. The decoders of 06_compression.md (class W, class D), and the content format of fragments. The model
carries the decoders only: what an encoder writes is an operand, and the verify decompressor judges it (R226). -/

namespace Sys2Proof.Machine

/-- A canonical code: number of codes of each length 0 to 15, and the symbols in code order (R221). -/
structure Canon where
  counts : List Nat
  syms : List Nat

/-- The canonical code of a list of code lengths. -/
def Canon.ofLens (lens : List Nat) : Canon :=
  ⟨(List.range 16).map fun n => lens.countP (· = n),
   (List.range' 1 15).flatMap fun n => (List.range lens.length).filter fun i => lens.getD i 0 = n⟩

/-- A code is complete, or has one symbol of length 1, or is the empty offset code (R221). -/
def Canon.allowed (c : Canon) (emptyOk : Bool) : Bool :=
  let kraft := ((List.range' 1 15).map fun n => c.counts.getD n 0 * 2 ^ (15 - n)).sum
  decide (kraft = 2 ^ 15) || (decide (c.syms.length = 1) && decide (c.counts.getD 1 0 = 1)) ||
    (emptyOk && c.syms.isEmpty)

/-- Read one symbol: `fuel` lengths still to try from length `len`, the code so far, the first code of this length and
the index of its symbol (R221). -/
def Canon.readFrom (c : Canon) : Nat → Nat → Nat → Nat → Nat → List Bool → Option (Nat × List Bool)
  | 0, _, _, _, _, _ => none
  | _ + 1, _, _, _, _, [] => none
  | k + 1, len, code, first, index, b :: t =>
    let code := 2 * code + b.toNat
    let n := c.counts.getD len 0
    if code < first + n then some (c.syms.getD (index + code - first) 0, t)
    else c.readFrom k (len + 1) code (2 * (first + n)) (index + n) t

def Canon.read (c : Canon) (bits : List Bool) : Option (Nat × List Bool) := c.readFrom 15 1 0 0 0 bits

/-- An unsigned number of `n` bits, most significant first (R219). -/
def readNum (n : Nat) (bits : List Bool) : Option (Nat × List Bool) :=
  if bits.length < n then none else some (natOfBits (bits.take n), bits.drop n)

/-- Extra bits and base of length code `i` (R219). -/
def lengthCode (i : Nat) : Nat × Nat :=
  if i < 8 then (0, 4 + i) else
  let e := i / 4 - 1
  (e, [12, 20, 36, 68, 132, 260].getD (e - 1) 0 + (i % 4) * 2 ^ e)

/-- Extra bits and base of offset code `d` (R219). -/
def offsetCode (d : Nat) : Nat × Nat :=
  if d < 4 then (0, 1 + d) else
  let h := (d - 4) / 2
  (h + 1, 1 + 2 ^ (h + 2) + (d - 4) % 2 * 2 ^ (h + 1))

/-- Copy a match onto reversed output (R219). -/
def copyMatch : Nat → Nat → List Byte → List Byte
  | 0, _, r => r
  | n + 1, o, r => copyMatch n o (r.getD (o - 1) 0#8 :: r)

/-- The static code lengths (R220). -/
def staticLl : List Nat := List.replicate 144 8 ++ List.replicate 112 9 ++ List.replicate 23 7 ++ List.replicate 10 8
def staticOff : List Nat := List.replicate 32 5

/-- Bits of a literal or a literal/length symbol in a static segment (R220). -/
def staticLen (s : Nat) : Nat := staticLl.getD s 0

/-- The symbols of a static or dynamic segment, onto reversed output, up to symbol 256, with the bits that they take in a static one,
after `cost` bits; none is a decoding error. -/
def wSymbols (ll off : Canon) (limit : Nat) : Nat → Nat → List Byte → List Bool → Option (List Byte × Nat × List Bool)
  | 0, _, _, _ => none
  | k + 1, cost, out, bits =>
    match ll.read bits with
    | none => none
    | some (s, t) =>
      let cost := cost + staticLen s
      if s < 256 then (if out.length < limit then wSymbols ll off limit k cost (BitVec.ofNat 8 s :: out) t else none)
      else if s = 256 then some (out, cost, t)
      else
        let (e, base) := lengthCode (s - 257)
        match readNum e t with
        | none => none
        | some (x, t) =>
          match off.read t with
          | none => none
          | some (d, t) =>
            let (f, obase) := offsetCode d
            match readNum f t with
            | none => none
            | some (y, t) =>
              let o := obase + y
              let n := base + x
              if o > out.length || out.length + n > limit then none
              else wSymbols ll off limit k (cost + e + 5 + f) (copyMatch n o out) t

/-- Code lengths of a dynamic segment: `left` of them still to come, newest first in `acc` (R220). -/
def wLengths (cl : Canon) : Nat → Nat → List Nat → List Bool → Option (List Nat × List Bool)
  | 0, left, acc, bits => if left = 0 then some (acc.reverse, bits) else none
  | k + 1, left, acc, bits =>
    if left = 0 then some (acc.reverse, bits) else
    match cl.read bits with
    | none => none
    | some (s, t) =>
      if s < 16 then wLengths cl k (left - 1) (s :: acc) t
      else
        let (w, base, v) := if s = 16 then (3, 3, acc.head?) else if s = 17 then (4, 3, some 0) else (8, 19, some 0)
        match v, readNum w t with
        | some v, some (x, t) =>
          if base + x > left then none else wLengths cl k (left - (base + x)) (List.replicate (base + x) v ++ acc) t
        | _, _ => none

/-- Zero bits up to the next byte boundary of a payload of `total` bits. -/
def skipPad (total : Nat) (bits : List Bool) : Option (List Bool) :=
  let n := (8 - (total - bits.length) % 8) % 8
  if (bits.take n).any id then none else some (bits.drop n)

/-- A segment as a decoder meets it: Type, output bytes before and after it, the bits that its symbols take with static tables, and its
bits (R220). -/
structure WSeg where
  type : Nat
  start : Nat
  stop : Nat
  asStatic : Nat
  bits : List Bool

/-- The segments of a class W block (R220, R222): reversed output after the last segment, no bits left, and the segments met. -/
def wSegments (total limit : Nat) : Nat → List WSeg → List Byte → List Bool → Option (List Byte × List WSeg)
  | 0, _, _, _ => none
  | k + 1, segs, out, bits =>
    match bits with
    | fin :: t1 :: t0 :: t =>
      let start := out.length
      let seg : Option (List Byte × Nat × List Bool) :=
        match t1, t0 with
        | false, false => wSymbols (Canon.ofLens staticLl) (Canon.ofLens staticOff) limit (t.length + 1) 3 out t
        | false, true =>
          match readNum 6 t with
          | none => none
          | some (hll, t) =>
            match readNum 5 t with
            | none => none
            | some (hoff, t) =>
              if hll > 32 || t.length < 57 then none else
              let cl := Canon.ofLens ((List.range 19).map fun i => natOfBits ((t.drop (3 * i)).take 3))
              if !cl.allowed false then none else
              match wLengths cl (hll + hoff + 258) (hll + hoff + 258) [] (t.drop 57) with
              | none => none
              | some (lens, t) =>
                let ll := Canon.ofLens (lens.take (hll + 257))
                let off := Canon.ofLens (lens.drop (hll + 257))
                if !ll.allowed false || !off.allowed true || lens.getD 256 0 = 0 then none
                else wSymbols ll off limit (t.length + 1) 3 out t
        | true, false =>
          match skipPad total t with
          | none => none
          | some t =>
            match readNum 16 t with
            | none => none
            | some (n, t) =>
              if n = 0 || t.length < 8 * n || out.length + n > limit then none
              else some ((bytesOf (t.take (8 * n))).reverse ++ out, 0, t.drop (8 * n))
        | true, true => none
      match seg with
      | none => none
      | some (out, cost, t) =>
        let segs := ⟨2 * t1.toNat + t0.toNat, start, out.length, cost, bits.take (bits.length - t.length)⟩ :: segs
        if fin then (match skipPad total t with | some [] => some (out, segs.reverse) | _ => none)
        else wSegments total limit k segs out t
    | _ => none

/-- The segments of a class W payload of `contentLen` bytes after a history window, with its content (R219-R222). -/
def decodeSegs (window payload : List Byte) (contentLen : Nat) : Option (List Byte × List WSeg) :=
  let bits := bitsOf payload
  let limit := window.length + contentLen
  match wSegments bits.length limit (bits.length + 1) [] window.reverse bits with
  | some (out, segs) => if out.length = limit then some ((out.take contentLen).reverse, segs) else none
  | none => none

/-- Decode a class W payload of `contentLen` bytes after a history window (R219-R222). -/
def decodeW (window payload : List Byte) (contentLen : Nat) : Option (List Byte) :=
  (decodeSegs window payload contentLen).map (·.1)

/-- One code as the loop of class D reads it: its width, the bytes it puts out, CLEAR, and whether the dictionary was full
before it (R224). -/
structure DStep where
  width : Nat
  bytes : Nat
  clear : Bool
  full : Bool

/-- The code loop of class D (R224): dictionary, previous string, steps newest first, reversed output. -/
def dCodes (limit : Nat) : Nat → List (List Byte) → Option (List Byte) → List DStep → List Byte → List Bool →
    Option (List (List Byte) × List DStep × List Byte × List Bool)
  | 0, _, _, _, _, _ => none
  | k + 1, dict, prev, steps, out, bits =>
    let next := 258 + dict.length
    let w := min 16 (max 9 (Nat.log2 next + 1))
    match readNum w bits with
    | none => none
    | some (code, t) =>
      if code = 257 then some (dict, steps.reverse, out, t)
      else if code = 256 then dCodes limit k [] none (⟨w, 0, true, false⟩ :: steps) out t
      else if code > next || (code = next && prev.isNone) then none
      else
        let p := prev.getD []
        let s := if code < 256 then [BitVec.ofNat 8 code]
          else if code < next then dict.getD (code - 258) [] else p ++ p.take 1
        if out.length + s.length > limit then none else
        let dict := if prev.isSome && decide (next < 65536) then dict ++ [p ++ s.take 1] else dict
        dCodes limit k dict (some s) (⟨w, s.length, false, decide (65536 ≤ next)⟩ :: steps) (s.reverse ++ out) t

/-- The steps of a class D payload after a lane dictionary, with its content and the new dictionary (R224). -/
def decodeSteps (dict : List (List Byte)) (payload : List Byte) (contentLen : Nat) :
    Option (List Byte × List (List Byte) × List DStep) :=
  let bits := bitsOf payload
  match dCodes contentLen (bits.length + 1) dict none [] [] bits with
  | some (d, steps, out, t) =>
    if out.length = contentLen && decide (t.length < 8) && !t.any id then some (out.reverse, d, steps) else none
  | none => none

/-- Decode a class D payload after a lane dictionary: the content and the new dictionary (R224). -/
def decodeD (dict : List (List Byte)) (payload : List Byte) (contentLen : Nat) :
    Option (List Byte × List (List Byte)) :=
  (decodeSteps dict payload contentLen).map fun p => (p.1, p.2.1)

/-- The history window after more content: its last 65,536 bytes (R219). -/
def slideWindow (window content : List Byte) : List Byte :=
  let l := window ++ content
  l.drop (l.length - 65536)

/-- Decode a block's payload against its lane state: content and the lane state after it (R219, R224, R227). -/
def decodeBlock (comp : Nat) (raw independent : Bool) (st : LaneState) (payload : List Byte) (contentLen : Nat) :
    Option (List Byte × LaneState) :=
  let st := if independent then {} else st
  if raw then
    if payload.length = contentLen then
      some (payload, if comp = 1 then { st with window := slideWindow st.window payload } else {})
    else none
  else if comp = 1 then
    (decodeW st.window payload contentLen).map fun c => (c, { st with window := slideWindow st.window c })
  else if comp = 2 then
    (decodeD st.dict payload contentLen).map fun p => (p.1, { st with dict := p.2 })
  else none

/-- The most bits that raw segments take for `n` content bytes (R220). -/
def rawBits (n : Nat) : Nat := 26 + 24 * ((n - 1) / 65535) + 8 * n

/-- A segment is one that the encoder may write at an effort: within one interval of `ClassWSegment` content bytes, whole but
for a raw one cut at 65,535 bytes, of a Type its effort considers, not longer than the raw Type, and a dynamic one not longer than its
symbols with static tables. The manual gives neither the hash whose chains the encoder searches nor how it builds its tables, so the choice
of matches and of code lengths is the encoder's (R220, R223). -/
def segmentOk (effort seg base limit : Nat) (x : WSeg) : Bool :=
  let a := x.start - base
  let b := x.stop - base
  let stop := min limit ((a / seg + 1) * seg)
  decide (b ≤ stop) && !(effort == 1 && x.type == 1) &&
    (if x.type = 2 then decide (b = stop ∨ b - a = 65535)
     else decide (a % seg = 0 ∧ b = stop ∧ x.bits.length ≤ rawBits (b - a) ∧ (x.type = 1 → x.bits.length ≤ x.asStatic)))

/-- A class W payload is one that the encoder may write (R223). -/
def encoderW (effort seg : Nat) (window payload : List Byte) (contentLen : Nat) : Bool :=
  match decodeSegs window payload contentLen with
  | some (_, segs) => segs.all (segmentOk effort seg window.length contentLen)
  | none => false

/-- The loss test over one code of a class D payload; none where the encoder writes another code (R225). -/
def DMeter.step (check loss : Nat) (m : DMeter) (x : DStep) : Option DMeter :=
  if x.clear then (if m.due then some {} else none)
  else if m.due then none
  else if !x.full then some m
  else
    let bytes := m.bytes + x.bytes
    let bits := m.bits + x.width
    if bytes < check then some { m with bytes := bytes, bits := bits }
    else match m.first with
      | none => some { first := some (bits, bytes) }
      | some (fb, fn) =>
        some { first := some (fb, fn), due := decide (loss ≠ 0 ∧ fb * (100 + loss) * bytes < bits * 100 * fn) }

/-- The loss test over the codes of a payload; none where the encoder writes other codes (R225). -/
def DMeter.run (check loss : Nat) : List DStep → DMeter → Option DMeter
  | [], m => some m
  | x :: t, m => match m.step check loss x with | some m => DMeter.run check loss t m | none => none

/-- What the encoder of a class keeps beside the decoder's state after a payload; none where the encoder writes another one
(R223, R225). -/
def encoderMeter (comp effort seg check loss : Nat) (independent : Bool) (st : LaneState) (payload : List Byte)
    (contentLen : Nat) : Option DMeter :=
  let st := if independent then {} else st
  if comp = 2 then
    match decodeSteps st.dict payload contentLen with
    | some (_, _, steps) => DMeter.run check loss steps st.meter
    | none => none
  else if encoderW effort seg st.window payload contentLen then some {} else none

/-- A fragment header and its data (R207). -/
def Frag.bytes (f : Frag) : List Byte :=
  BitVec.ofNat 8 (64 * f.kind + 32 * f.truncated.toNat) :: (beBytes 3 f.skip ++ beBytes 4 f.data.length ++ f.data)

/-- Content of a block (R207). -/
def contentOf (fs : List Frag) : List Byte := fs.flatMap Frag.bytes

/-- Content length of fragments. -/
def contentLen (fs : List Frag) : Nat := (fs.map fun f => 8 + f.data.length).sum

/-- A fragment read from content, before records are assigned (R207). -/
structure RawFrag where
  kind : Nat
  truncated : Bool
  skip : Nat
  data : List Byte
  deriving DecidableEq, Repr

/-- Split content into fragments; none when a header or its data does not fit (R207). -/
def splitFrags : Nat → List Byte → Option (List RawFrag)
  | 0, l => if l.isEmpty then some [] else none
  | k + 1, l =>
    if l.isEmpty then some [] else
    if l.length < 8 then none else
    let b := l.getD 0 0#8
    let n := beNat ((l.drop 4).take 4)
    if l.length < 8 + n then none else
    (splitFrags k (l.drop (8 + n))).map fun r =>
      ⟨(b >>> 6).toNat, b.getLsbD 5, beNat ((l.drop 1).take 3), (l.drop 8).take n⟩ :: r

/-- Assign record numbers to the fragments of a block whose first record is `first` (R208); none when the sequence
breaks R208. The first fragment carries Skip 0; a whole record or a first part after the first fragment takes the next number
plus Skip; a middle or last part continues the record before it. -/
def numberFrags : Option Nat → Nat → List RawFrag → Option (List (Nat × RawFrag))
  | _, _, [] => some []
  | none, first, f :: t =>
    if f.skip ≠ 0 then none else (numberFrags (some first) first t).map ((first, f) :: ·)
  | some cur, first, f :: t =>
    if f.kind ≤ 1 then (numberFrags (some (cur + 1 + f.skip)) first t).map ((cur + 1 + f.skip, f) :: ·)
    else if f.skip ≠ 0 then none else (numberFrags (some cur) first t).map ((cur, f) :: ·)

end Sys2Proof.Machine
end

