-- ==== Sys2Proof/Machine/Format.lean ====
section
/-! DEFINITION. Layouts: submission and completion entries, error log, Flow Tag, events, link frames, flash descriptors,
index entries, block and dataset headers. -/

namespace Sys2Proof.Machine

/-- A field of a submission entry: `w` bits from bit `lo` of the little-endian word that starts at a byte (R60, R11). -/
def fld (e : BitVec 512) (byte lo w : Nat) : Nat := (e.extractLsb' (8 * byte + lo) w).toNat

/-- Fields of R60. -/
def eCid (e : BitVec 512) : Nat := fld e 0 16 16
def eCMode (e : BitVec 512) : Nat := fld e 0 10 1
def eDataMode (e : BitVec 512) : Nat := fld e 0 8 2
def eOpcode (e : BitVec 512) : Nat := fld e 0 0 8
def eCount (e : BitVec 512) : Nat := fld e 4 16 16
def eStream (e : BitVec 512) : Nat := fld e 4 0 14
def eFirst (e : BitVec 512) : Nat := fld e 8 0 48
def eAddr (e : BitVec 512) : Nat := fld e 16 0 64
def eLen (e : BitVec 512) : Nat := fld e 24 0 32

/-- Opcodes (R94). -/
def opCreateQp : Nat := 0x01
def opDeleteQp : Nat := 0x02
def opQueueRestart : Nat := 0x03
def opQueueReset : Nat := 0x04
def opGetLog : Nat := 0x05
def opDictRead : Nat := 0x06
def opDictWrite : Nat := 0x07
def opKeyLoad : Nat := 0x08
def opKeyUnload : Nat := 0x09
def opFwDownload : Nat := 0x0A
def opFwActivate : Nat := 0x0B
def opCartLoad : Nat := 0x10
def opCartUnload : Nat := 0x11
def opCartFormat : Nat := 0x12
def opRebuild : Nat := 0x13
def opStreamCreate : Nat := 0x18
def opStreamOpen : Nat := 0x19
def opStreamClose : Nat := 0x1A
def opWrite : Nat := 0x80
def opRead : Nat := 0x81
def opReadRaw : Nat := 0x82
def opFlush : Nat := 0x83

/-- Status codes (R145). -/
def Status.code : Status → Nat
  | .success => 0x00 | .lengthResidue => 0x01 | .rebuiltOnRead => 0x02 | .partialLost => 0x03 | .earlyWarning => 0x04
  | .recordsSkipped => 0x05 | .invalidField => 0x40 | .lengthInvalid => 0x41 | .stateConflict => 0x42
  | .streamUnknown => 0x43 | .recordNotFound => 0x44 | .recordIncomplete => 0x45 | .authFail => 0x46
  | .keyUnavailable => 0x47 | .ivExhausted => 0x48 | .ivRollback => 0x49 | .mediumError => 0x4A | .stripeLost => 0x4B
  | .writeFault => 0x4C | .writeInhibited => 0x4D | .bufferExhausted => 0x4E | .targetReset => 0x4F | .queueReset => 0x50
  | .firmwareRejected => 0x51 | .accessDenied => 0x52 | .cartridgeAbsent => 0x53 | .endOfMedium => 0x54
  | .internalError => 0x55 | .transportFault => 0x56

/-- The ERROR class (R14). -/
def Status.isError (s : Status) : Bool := decide (0x40 ≤ s.code)

/-- Response codes (R25). -/
def Response.code : Response → Nat
  | .done => 0 | .noShrink => 1 | .poolEmpty => 2 | .lostConcurrent => 3 | .targetReset => 4 | .backpressure => 5
  | .parityPoison => 6 | .bufDoubleFree => 7 | .bufNotOwner => 8

/-- Host access codes (R79). -/
def hostAccessCode : HostAccess → Nat
  | .unsupported => 1 | .completerAbort => 2 | .timeout => 3 | .poisoned => 4

/-- Cartridge state codes (R100). -/
def CartState.code : CartState → Nat
  | .empty => 0 | .present => 1 | .loading => 2 | .unformatted => 3 | .ready => 4 | .readOnly => 5 | .unloading => 6
  | .faulted => 7

/-- A number laid out from fields, most significant first: width and value. -/
def packMsb (fs : List (Nat × Nat)) : Nat := fs.foldl (fun a f => a * 2 ^ f.1 + f.2 % 2 ^ f.1) 0

/-- A number laid out from fields, bit 0 upward (R535). -/
def packLsb : List (Nat × Nat) → Nat
  | [] => 0
  | (w, v) :: t => v % 2 ^ w + 2 ^ w * packLsb t

/-- The 32-byte completion entry of a completion under a Phase (R65). -/
def Cpl.entry (c : Cpl) (phase : Bool) : BitVec 256 :=
  BitVec.ofNat 256 (packLsb [(16, c.cid), (8, c.status.code), (4, c.epoch), (3, 0), (1, phase.toNat), (16, c.sqHead),
    (16, c.recordsDone), (48, c.recordNum), (16, 0), (32, c.residue), (96, c.specific.toNat)])

/-- A Flow Tag from its fields; class 3 is the device's own (R18, R20). -/
def flowTag (stream qp slot key : Nat) (cipher : Bool) (comp record pool index epoch : Nat) : BitVec 128 :=
  BitVec.ofNat 128 (packMsb [(14, stream), (12, qp), (16, slot), (13, key), (1, cipher.toNat), (2, comp), (48, record),
    (3, pool), (15, index), (4, epoch)])

/-- Fields of a Flow Tag (R18). -/
def tagClass (t : BitVec 128) : Nat := (t.extractLsb' 70 2).toNat
def tagQueuePair (t : BitVec 128) : Nat := (t.extractLsb' 102 12).toNat
def tagSlot (t : BitVec 128) : Nat := (t.extractLsb' 86 16).toNat
def tagEpoch (t : BitVec 128) : Nat := (t.extractLsb' 0 4).toNat

/-- Replace `w` bits of a tag from bit `lo` on. -/
def tagSet (t : BitVec 128) (lo w v : Nat) : BitVec 128 :=
  (t &&& ~~~(BitVec.ofNat 128 ((2 ^ w - 1) * 2 ^ lo))) ||| BitVec.ofNat 128 (v % 2 ^ w * 2 ^ lo)

/-- The Stream Service writes RecordNum (R18). -/
def tagWithRecord (t : BitVec 128) (r : Nat) : BitVec 128 := tagSet t 22 48 r

/-- A block that hands a transfer to a new buffer writes BufPool and BufIndex (R18); `id` is pool * 32768 + index. -/
def tagWithBuf (t : BitVec 128) (id : Nat) : BitVec 128 := tagSet (tagSet t 19 3 (id / 32768)) 4 15 (id % 32768)

/-- The parity of 32 bits: true when an odd number is set. -/
def oddOnes (v : BitVec 32) : Bool := (List.range 32).foldl (fun b i => b != v.getLsbD i) false

/-- The even-parity bits of a tag, bit n for word [32n+31:32n] (R22). -/
def tagParity (t : BitVec 128) : BitVec 4 :=
  BitVec.ofNat 4 ((List.range 4).map fun n => (oddOnes (t.extractLsb' (32 * n) 32)).toNat * 2 ^ n).sum

/-- A tag arrives with right parity (R22). -/
def tagIntact (t : BitVec 128) (parity : BitVec 4) : Bool := parity == tagParity t

/-- The tag of a transfer that originates in the device: CompClass 0b11, the agent of R543 in QueuePair and the agent's
sequence number in CmdSlot (R18, R20). -/
def internalTag (agent seq : Nat) : BitVec 128 := flowTag 0 agent (seq % 65536) 0 false 3 0xFFFFFFFFFFFF 7 0 0

/-- Agents (R543). -/
def agStream : Nat := 0
def agCocoon : Nat := 1
def agRebuild : Nat := 2
def agLoad : Nat := 3
def agCore : Nat := 4
def agFlash : Nat := 8
def agBuilder : Nat := 9

/-- The Relaxed Ordering attribute of a write to host memory: on record data alone (R39). -/
def Out.relaxedOrdering : Out → Bool
  | .hostData _ r _ _ => r
  | _ => false

/-- The first `n` bytes of a host layout: address and length of each part (R64). -/
def layout : List (Nat × Nat) → Nat → List (Nat × Nat)
  | [], _ => []
  | (a, l) :: t, n => if n = 0 then [] else (a, min l n) :: layout t (n - min l n)

/-- The 64 bytes of an error log entry, as a little-endian number, with the LostCount of the log (R79). -/
def ErrEntry.entry (e : ErrEntry) (lost : Nat) : BitVec 512 :=
  BitVec.ofNat 512 (packLsb [(16, e.cid), (8, e.status.code), (8, e.response), (8, e.opcode), (4, e.epoch), (4, 0),
    (16, e.sequence), (64, e.timestamp.toNat), (128, e.flowTag.toNat), (8, e.block), (8, e.channel), (16, 0),
    (11, e.event.getD 0), (1, e.event.isSome.toNat), (4, e.hostAccess), (16, 0), (64, e.byteOffset),
    (40, (e.loc.getD (0, 0)).2), (9, (e.loc.getD (0, 0)).1), (14, 0), (1, e.loc.isSome.toNat), (16, lost), (16, 0), (32, 0)])

/-- An event entry: source, priority and Data packed from bit 0 (R534, R535). -/
def eventEntry (src prio : Nat) (items : List (Nat × Nat)) : BitVec 128 :=
  BitVec.ofNat 128 (packMsb [(11, src), (2, prio), (3, 0), (112, packLsb items)])

def EvEntry.source (e : EvEntry) : Nat := (e.bits.extractLsb' 117 11).toNat
def EvEntry.prio (e : EvEntry) : Nat := (e.bits.extractLsb' 115 2).toNat

/-- A list item of an event: `places` places of width `w`, first entries, the last repeated (R535). -/
def listItem (w places : Nat) (l : List Nat) : List (Nat × Nat) :=
  (List.range places).map fun i => (w, l.getD (min i (l.length - 1)) 0)

/-- A command frame of the Actuator Serial Link and the head-front link (R463, R586). -/
def commandFrame (address ftype : Nat) (value : Nat) (seq : Nat) : BitVec 38 :=
  let body := packMsb [(4, address), (4, ftype), (16, value), (4, seq)]
  let crc := crc8 (msbBits 28 body)
  BitVec.ofNat 38 (packMsb [(1, 0), (28, body), (8, crc.toNat), (1, 1)])

/-- Fields of a flash descriptor (R505). -/
def FlashDesc.field (x : FlashDesc) (lo w : Nat) : Nat := (x.d.extractLsb' lo w).toNat
def FlashDesc.op (x : FlashDesc) : Nat := x.field 24 8
def FlashDesc.noRetry (x : FlashDesc) : Bool := x.d.getLsbD 18
def FlashDesc.raw (x : FlashDesc) : Bool := x.d.getLsbD 17
def FlashDesc.urgent (x : FlashDesc) : Bool := x.d.getLsbD 16
def FlashDesc.descId (x : FlashDesc) : Nat := x.field 0 16
def FlashDesc.page (x : FlashDesc) : Nat := x.field 48 6
def FlashDesc.block (x : FlashDesc) : Nat := x.field 32 11
def FlashDesc.addr (x : FlashDesc) : Nat := x.field 64 34
def FlashDesc.meta8 (x : FlashDesc) : BitVec 64 := x.d.extractLsb' 128 64

/-- A flash completion record (R506). -/
def flashRecord (descId status retry maxErr total : Nat) (m : BitVec 64) : BitVec 128 :=
  BitVec.ofNat 128 (packLsb [(16, descId), (8, status), (3, retry), (5, 0), (8, maxErr), (8, 0), (16, total), (64, m.toNat)])

/-- The 32 bytes of an index entry (R161-R165). -/
def entryBytes : IndexEntry → List Byte
  | .extent e => beBytes 32 (packMsb [(8, 1), (1, e.startsHere.toNat), (1, e.endsHere.toNat), (1, e.incomplete.toNat), (5, 0),
      (2, 0), (14, e.stream), (48, e.first), (32, e.count), (7, 0), (9, e.wrap), (40, e.dataset), (24, 0), (32, e.stored),
      (32, 0)])
  | .reloc r => beBytes 32 (packMsb [(8, 2), (24, 0), (7, 0), (9, r.oldWrap), (40, r.oldDataset), (7, 0), (9, r.newWrap),
      (40, r.newDataset), (112, 0)])
  | .moth m => beBytes 32 (packMsb [(8, 3), (6, 0), (2, m.stripe), (2, 0), (14, m.stream), (48, m.first), (32, m.count), (7, 0),
      (9, m.wrap), (40, m.dataset), (1, 0), (7, m.row), (80, 0)])
  | .stream t => beBytes 32 (packMsb [(8, 4), (1, t.clean.toNat), (7, 0), (2, 0), (14, t.stream), (6, t.owner), (2, t.comp),
      (7, 0), (1, t.cipher.toNat), (48, t.next), (48, t.lease), (112, 0)])
  | .padding => beBytes 32 (packMsb [(8, 5), (248, 0)])

/-- The 32 bytes of a checkpoint header (R168). -/
def checkpointHeader (seq label endWrap : Nat) (endDataset : Option Nat) (count : Nat) : List Byte :=
  beBytes 32 (packMsb [(8, 0), (8, 1), (16, 0), (64, seq), (64, label), (7, 0), (9, endWrap),
    (40, endDataset.getD 0xFFFFFFFFFF), (8, 0), (32, count)])

/-- First record of a block (R208). -/
def Blk.first (b : Blk) : Nat := (b.frags.head?.map Frag.number).getD 0

/-- The 32-byte block header (R215). -/
def Blk.header (b : Blk) : List Byte :=
  let content := contentOf b.frags
  beBytes 32 (packMsb [(16, 0xA5C3), (8, 1), (1, b.raw.toNat), (1, b.independent.toNat), (1, b.key.isSome.toNat),
    (1, b.fallback.toNat), (2, if b.comp = 3 then 0 else b.comp), (2, 0), (2, 0), (14, b.stream), (48, b.first),
    (16, b.frags.length), (8, if b.raw then 0 else b.effort), (4, b.laneCount - 1), (4, b.lane), (32, content.length),
    (32, b.payload.length), (32, b.entryDistance), (32, (crc32c content).toNat)])

/-- A stored block: header, vector, payload, tag (R214). -/
def Blk.stored (b : Blk) : List Byte :=
  b.header ++ (match b.iv with | some v => beBytes 12 v.toNat | none => []) ++ b.payload ++
    (if b.iv.isSome then beBytes 16 b.tag.toNat else [])

/-- The packet that an engine puts into its packer FIFO: the length word, then the header and the payload (R218). -/
def Blk.packet (b : Blk) : List Byte := leBytes 4 (32 + b.payload.length) ++ b.header ++ b.payload

/-- Bytes of a packer FIFO (R31). -/
def packerFifo : Nat := 4194304

/-- Size of a stored block (R214). -/
def Blk.storedSize (b : Blk) : Nat := 32 + b.payload.length + (if b.key.isSome then 28 else 0)

/-- Bytes of the payload area (R296). -/
def payloadArea : Nat := 20386304

/-- One copy of the Cocoon summary (R300): entries are (dataset, row, logical channel) in that order. -/
def summaryBytes (copy base : Nat) (overflow : Bool) (entries : List (Nat × Nat × Nat)) : List Byte :=
  let es := entries.take 27
  let words := es.flatMap fun e => [(2, base - e.1 - 1), (7, e.2.2), (7, e.2.1)]
  let body := beBytes 62 (packMsb ([(2, copy), (1, overflow.toNat), (5, 0), (8, es.length), (40, base), (8, 0)] ++ words ++
    [(16 * (27 - es.length), 0)]))
  body ++ beBytes 2 (crc16 body).toNat

/-- The 60 bytes of the fixed part before HeaderCrc (R298). -/
def fixedPart (d : Dataset) (number wrap grid : Nat) (formatId : BitVec 64) : List Byte :=
  beBytes 60 (packMsb [(32, 0x4D524631), (8, 1), (2, d.kind), (1, d.padded.toNat), (1, d.patch.toNat), (4, 0), (9, 0),
    (7, d.entries.length), (40, number), (7, 0), (9, wrap), (16, grid), (40, d.contentOf), (32, d.continuation),
    (32, d.payload.length), (64, formatId.toNat), (3, 0), (7, d.headerCh.getD 0 0), (7, d.headerCh.getD 1 0),
    (7, d.headerCh.getD 2 0), (8, d.speed), (128, (d.sample.map fun e => 2 ^ e).sum), (16, 0)])

/-- The 4,096 bytes of a dataset header (R297, R299). -/
def datasetHeader (d : Dataset) (number wrap grid : Nat) (formatId : BitVec 64) : List Byte :=
  let fixed := fixedPart d number wrap grid formatId
  let slots := (List.range 120).flatMap fun i => entryBytes (d.entries.getD i .padding)
  let crc := beBytes 4 (crc32c (fixed ++ slots)).toNat
  let sum := fun c => summaryBytes c number d.overflow d.summary
  fixed ++ crc ++ sum 0 ++ slots.take 1760 ++ sum 1 ++ (slots.drop 1760).take 1824 ++ sum 2 ++ slots.drop 3584

/-- A checkpoint dataset before its encoding: a part of a copy of a checkpoint on an index wrap (R303, R304). -/
def ckptDataset (j : CkptJob) (id : Nat) : Dataset :=
  { id := id, kind := 2, state := .closed, index := some (if j.copyB then 1 else 0), buf := j.buf, flow := j.flow,
    payload := (j.bytes.drop (j.made * payloadArea)).take payloadArea, continuation := j.made, contentOf := j.seq % 2 ^ 40 }

/-- The index entry of 32 bytes; a type that a reader does not know is skipped (R161-R165). -/
def decodeEntry (b : List Byte) : IndexEntry :=
  let v := beNat b
  let f := fun (byte bytes lo w : Nat) => v / 2 ^ (8 * (32 - byte - bytes)) / 2 ^ lo % 2 ^ w
  if f 0 1 0 8 = 1 then
    .extent { startsHere := f 1 1 7 1 == 1, endsHere := f 1 1 6 1 == 1, incomplete := f 1 1 5 1 == 1, stream := f 2 2 0 14,
              first := f 4 6 0 48, count := f 10 4 0 32, wrap := f 14 2 0 9, dataset := f 16 5 0 40, stored := f 24 4 0 32 }
  else if f 0 1 0 8 = 2 then
    .reloc { oldWrap := f 4 2 0 9, oldDataset := f 6 5 0 40, newWrap := f 11 2 0 9, newDataset := f 13 5 0 40 }
  else if f 0 1 0 8 = 3 then
    .moth { stripe := f 1 1 0 2, stream := f 2 2 0 14, first := f 4 6 0 48, count := f 10 4 0 32, wrap := f 14 2 0 9,
            dataset := f 16 5 0 40, row := f 21 1 0 7 }
  else if f 0 1 0 8 = 4 then
    .stream { clean := f 1 1 7 1 == 1, stream := f 2 2 0 14, owner := f 4 1 2 6, comp := f 4 1 0 2, cipher := f 5 1 0 1 == 1,
              next := f 6 6 0 48, lease := f 12 6 0 48 }
  else .padding

/-- The fixed part and the entry slots of the 4,096 bytes of a dataset header (R297). -/
def headerSlots (b : List Byte) : List Byte := (b.drop 128).take 1760 ++ (b.drop 1952).take 1824 ++ (b.drop 3840).take 256

/-- HeaderCrc is right (R299). -/
def headerCrcOk (b : List Byte) : Bool := beNat ((b.drop 60).take 4) == (crc32c (b.take 60 ++ headerSlots b)).toNat

/-- What a decoded dataset header says (R298). -/
structure HeaderSays where
  kind : Nat
  number : Nat
  formatId : BitVec 64
  entries : List IndexEntry

/-- Read the 4,096 bytes of a dataset header; none when they do not decode (R297-R299). -/
def readDsHeader (b : List Byte) : Option HeaderSays :=
  let n := (b.getD 7 0#8).toNat % 128
  if b.length = 4096 ∧ beNat (b.take 4) = 0x4D524631 ∧ b.getD 4 0#8 = 1#8 ∧ n ≤ 120 ∧ headerCrcOk b then
    some { kind := (b.getD 5 0#8).toNat / 64, number := beNat ((b.drop 8).take 5), formatId := BitVec.ofNat 64 (beNat ((b.drop 30).take 8)),
           entries := (List.range n).map fun i => decodeEntry (((headerSlots b).drop (32 * i)).take 32) }
  else none

/-- A copy of the Cocoon summary of dataset `base`, read from header part `k`; none when it is not accepted (R300, R431). -/
def readSummary (base k : Nat) (b : List Byte) : Option Summary :=
  let b0 := (b.getD 0 0#8).toNat
  let entry := fun i =>
    let v := beNat ((b.drop (8 + 2 * i)).take 2)
    (v / 2 ^ 14 + 1, v / 2 ^ 7 % 128, v % 128)
  if b.length = 64 ∧ (crc16 (b.take 62)).toNat = beNat (b.drop 62) ∧ beNat ((b.drop 2).take 5) = base ∧ b0 / 64 = k then
    some { overflow := b0 / 32 % 2 == 1, entries := (List.range (b.getD 1 0#8).toNat).map entry }
  else none

/-- User payload at a data member of a row, by the fill order of R296. -/
def userSector (d : Dataset) (header : List Byte) (row logical : Nat) : List Byte :=
  let user := header ++ d.payload
  let cut := fun n => ((user.drop (1888 * n)).take 1888) ++ List.replicate (1888 - ((user.drop (1888 * n)).take 1888).length) 0#8
  match (if row = 0 then d.headerCh.idxOf? logical else none) with
  | some k => cut k
  | none =>
    let rank := fun r c => 30 * (c / 32) + c % 32 + 120 * r
    let skipped := d.headerCh.countP fun h => decide (rank 0 h < rank row logical)
    cut (3 + rank row logical - skipped)

/-- The payload of logical channel `c` in row `row` below 90: user data, or C3 parity of its stripe (R320). -/
def rowPayload (d : Dataset) (header : List Byte) (row c : Nat) : List Byte :=
  if c % 32 < 30 then userSector d header row c
  else (c3Parity ((List.range 30).map fun m => userSector d header row (32 * (c / 32) + m))).getD (c % 32 - 30) []

/-- The payload of physical channel `p` in slot `row` 0 to 95 (R286, R318). -/
def slotPayload (d : Dataset) (header : List Byte) (t row p : Nat) : List Byte :=
  if row < 90 then rowPayload d header row (logicalOf t row p)
  else (c2Parity ((List.range 90).map fun r => rowPayload d header r (logicalOf t r p))).getD (row - 90) []

end Sys2Proof.Machine
end

