-- ==== Sys2Proof/Machine/Entries.lean ====
section
/-! DEFINITION. The entry list of the object dictionary: type, access, default, range and principals of every entry that
the manual names (R474, R475, and the entry tables of every chapter), and the value in force of a written entry. -/

namespace Sys2Proof.Machine

/-- How the bytes of a value are read (R475). -/
inductive DKind
  | unsigned | signed | bool
  /-- Bytes of exactly the entry's length. -/
  | blob
  /-- Bytes up to the entry's length. -/
  | blobUpTo
  deriving DecidableEq, Repr

/-- Access codes (R7). -/
inductive DAccess
  | ro | rw | wo | rwp | w1c
  deriving DecidableEq, Repr

/-- Scope (R479). -/
inductive DScope
  | device | function | session
  deriving DecidableEq, Repr

/-- Attributes of an entry (R474). Principal sets are bit sets: 1 HOST-PF, 2 HOST-VF, 4 MGMT, 8 MAKER. -/
structure Entry where
  kind : DKind
  len : Nat
  acc : DAccess
  dflt : Nat := 0
  lo : Int := 0
  hi : Int := 0
  rd : Nat := 15
  wr : Nat := 5
  mask : Nat := 15
  scope : DScope := .device
  deriving DecidableEq, Repr

/-- Shapes of entries. -/
def roE (len : Nat) : Entry := ⟨.unsigned, len, .ro, 0, 0, 0, 15, 0, 15, .device⟩
def roS (len : Nat) : Entry := { roE len with kind := .signed }
def roB (len : Nat) : Entry := { roE len with kind := .blob }
def roV (len : Nat) : Entry := { roE len with kind := .blobUpTo }
def rwpE (len dflt : Nat) (lo hi : Int) : Entry := ⟨.unsigned, len, .rwp, dflt, lo, hi, 15, 5, 15, .device⟩
def rwpBool (dflt : Nat) : Entry := { rwpE 1 dflt 0 1 with kind := .bool }
def rwpB (len dflt : Nat) : Entry := { rwpE len dflt 0 0 with kind := .blob }
def rwpV (len : Nat) : Entry := { rwpE len 0 0 0 with kind := .blobUpTo }
def rwE (len : Nat) (hi : Int) : Entry := { rwpE len 0 0 hi with acc := .rw }
def woE (len : Nat) (lo hi : Int) : Entry := { rwpE len 0 lo hi with acc := .wo }
def woB (len : Nat) : Entry := { rwpB len 0 with acc := .wo }
def w1cE (len : Nat) (hi : Int) : Entry := { rwpE len 0 0 hi with acc := .w1c }

/-- Entries that every principal reads in every life-cycle state (R486, R575). -/
def idE (e : Entry) : Entry := { e with mask := 31 }
/-- Entries that HOST-PF and MGMT alone reach (R487, R488, R557). -/
def pm (e : Entry) : Entry := { e with rd := 5 }
/-- Entries that MGMT alone writes. -/
def mg (e : Entry) : Entry := { e with wr := 4 }
/-- Session scope, written by every principal that reads. -/
def ses (e : Entry) : Entry := { e with scope := .session, wr := e.rd }

/-- Rows by index and subindex (R21, R485); families of indices stand under their first index. -/
def rowsA : List (Nat × Nat × Entry) := [
  (0x1000, 1, idE (roV 20)), (0x1000, 2, idE (roE 2)), (0x1000, 3, idE (roV 5)), (0x1000, 4, idE (roE 1)),
  (0x1000, 5, idE (roE 1)), (0x1000, 6, idE (roV 16)), (0x1000, 7, idE (roB 6)), (0x1000, 8, idE (roE 2)),
  (0x1100, 1, pm (rwpBool 1)), (0x1100, 2, pm (rwpE 2 30211 1024 65535)), (0x1100, 3, pm (rwpE 4 0 0 0xFFFFFFFF)),
  (0x1100, 4, pm (rwpE 1 24 8 30)), (0x1100, 5, pm (rwpE 4 0 0 0xFFFFFFFF)), (0x1100, 6, pm (rwpB 16 0)),
  (0x1100, 7, pm (rwpE 1 64 16 126)), (0x1100, 8, pm (rwpB 16 0)), (0x1100, 9, pm (rwpE 2 60 5 3600)),
  (0x1100, 10, pm (roE 1)), (0x1100, 11, pm (roE 4)), (0x1100, 12, pm (roE 4)),
  (0x1100, 13, pm (mg (woE 4 0 0xFFFFFFFF))),
  (0x1110, 1, pm (woB 32)), (0x1110, 2, pm (roE 1)), (0x1110, 3, pm (roB 8)),
  (0x2000, 3, roE 2), (0x2010, 1, rwpE 1 8 1 255), (0x2010, 2, rwpE 1 4 1 255), (0x2010, 3, rwpE 1 1 1 255),
  (0x2010, 4, rwpE 2 64 1 4096),
  (0x2100, 1, rwpE 2 48 1 4096), (0x2100, 2, rwpE 4 128 0 65536), (0x2100, 3, rwpE 4 16384 1 65536),
  (0x2100, 4, rwpE 1 16 1 255), (0x2100, 5, rwpE 1 32 1 64),
  (0x2400, 1, rwpE 4 0 1 32768), (0x2400, 2, rwpE 4 0 0 32767), (0x2400, 3, roE 4), (0x2400, 4, roE 4), (0x2400, 5, roE 4),
  (0x2400, 6, roE 4), (0x2400, 7, roE 4), (0x2400, 8, roE 4), (0x2400, 9, rwpE 4 192 0 0xFFFFFFFF),
  (0x2400, 10, rwpE 4 128 0 0xFFFFFFFF), (0x2400, 11, roE 4), (0x2400, 12, roE 1),
  (0x2410, 1, rwpE 4 100 0 0xFFFFFFFF), (0x2410, 2, rwpE 1 24 0 255), (0x2410, 3, rwpE 1 4 0 255)]

def rowsB : List (Nat × Nat × Entry) := [
  (0x3000, 1, roE 1), (0x3010, 1, rwpE 4 0x1000000 0 0x10000000), (0x3010, 2, rwpE 4 262144 0 0xFFFFFFFF),
  (0x3010, 3, rwpE 4 10000 0 0xFFFFFFFF), (0x3010, 4, rwpE 4 2000 0 0xFFFFFFFF), (0x3010, 5, rwpE 4 2000 0 0xFFFFFFFF),
  (0x3010, 6, rwpE 4 16384 0 0xFFFFFFFF), (0x3010, 7, rwpE 4 600 0 0xFFFFFFFF), (0x3010, 8, rwpE 4 4096 256 8192),
  (0x3010, 9, rwpE 8 0x1000000 0x10000 0x100000000),
  (0x3020, 1, ses (rwE 2 65535)), (0x3020, 2, roE 1), (0x3020, 3, roE 8),
  (0x3020, 4, { rwE 4 0xFFFFFFFF with wr := 15 }), (0x3020, 5, roE 8), (0x3020, 6, roE 4), (0x3020, 7, roE 4),
  (0x4000, 1, roE 1), (0x4000, 2, roE 1), (0x4000, 3, rwpE 1 3 0 16), (0x4000, 4, rwpE 1 16 1 96), (0x4000, 5, woE 1 0 255),
  (0x4000, 6, roE 1), (0x4000, 7, roE 8), (0x4000, 8, roE 4), (0x4000, 9, roE 8), (0x4000, 10, roE 8),
  (0x4000, 16, { rwpE 4 0x7FFFFFFF (-2147483648) 2147483647 with kind := .signed }),
  (0x4000, 17, { rwpE 4 0x7FFFFFFF (-2147483648) 2147483647 with kind := .signed }),
  (0x4000, 18, roE 1), (0x4000, 19, roS 1), (0x4000, 20, roS 1), (0x4000, 21, roB 30),
  (0x4000, 22, { rwE 1 1 with kind := .bool }), (0x4000, 23, roE 8), (0x4000, 24, roE 8), (0x4000, 25, roE 4),
  (0x4000, 26, roE 4), (0x4000, 27, roB 32), (0x4000, 28, roE 8), (0x4000, 29, roE 8),
  (0x4800, 1, roE 1), (0x4800, 2, roE 4), (0x4800, 3, roE 4), (0x4800, 4, roE 4), (0x4800, 5, roE 8), (0x4800, 6, roE 8),
  (0x4800, 7, roE 8), (0x4810, 1, roE 4), (0x4810, 2, roE 4),
  (0x4820, 1, rwpE 1 0 0 1), (0x4820, 2, rwpE 4 2000 500 4000), (0x4820, 3, rwpE 1 6 1 64), (0x4820, 4, rwpE 2 160 0 1024),
  (0x4820, 5, rwpE 2 64 0 2048), (0x4820, 6, rwpE 1 3 1 8), (0x4820, 7, rwpE 1 4 1 64), (0x4820, 16, roE 8),
  (0x4820, 17, roE 8), (0x4820, 18, roE 4), (0x4820, 19, roE 4), (0x4820, 20, roE 4), (0x4820, 21, roE 4),
  (0x4830, 1, rwpE 1 12 4 25), (0x4830, 2, rwpE 1 4 1 100), (0x4830, 3, roE 8), (0x4830, 4, roE 1),
  (0x4840, 1, rwpE 1 0 0 1), (0x4840, 2, rwpE 1 24 0 24), (0x4840, 3, rwpE 1 10 0 50), (0x4840, 4, rwpE 2 100 10 10000),
  (0x4840, 5, rwpE 2 2000 100 60000), (0x4840, 6, rwpE 1 2 1 16), (0x4840, 7, roE 1), (0x4840, 8, roE 4),
  (0x4840, 9, rwpE 1 24 0 24), (0x4840, 10, roE 8)]

def rowsC : List (Nat × Nat × Entry) := [
  (0x4850, 1, rwpE 1 24 8 64), (0x4850, 2, rwpE 1 3 0 8), (0x4850, 3, rwpE 1 3 1 5), (0x4850, 4, rwpE 1 40 10 80),
  (0x4850, 5, rwpE 1 16 4 64), (0x4850, 6, rwpE 1 24 0 64), (0x4850, 7, rwpE 2 4096 256 16384), (0x4850, 8, rwpE 1 32 0 255),
  (0x4850, 9, rwpE 1 0 0 1), (0x4850, 10, rwpE 1 3 0 7), (0x4850, 11, rwpE 1 24 4 63),
  (0x4860, 1, rwpE 2 2000 100 2000), (0x4860, 2, rwpE 2 2000 200 20000), (0x4860, 3, rwpE 1 30 10 80),
  (0x4860, 4, rwpE 4 2750000 2737500 2900000), (0x4860, 6, roE 1), (0x4860, 7, roE 8), (0x4860, 8, roS 4), (0x4860, 9, roS 4),
  (0x4860, 10, roE 1), (0x4860, 11, roE 4), (0x4860, 12, roE 4),
  (0x4870, 1, rwpBool 0), (0x4870, 2, roE 1), (0x4870, 3, roB 16), (0x4870, 4, roE 1), (0x4870, 5, rwpE 1 3 1 8),
  (0x4870, 6, rwpE 1 4 0 16), (0x4870, 7, rwpE 1 6 0 24), (0x4870, 8, rwpE 1 8 0 20), (0x4870, 16, roE 8), (0x4870, 17, roE 4),
  (0x4870, 18, roE 8), (0x4870, 19, roE 4), (0x4870, 20, roE 4), (0x4870, 21, roV 128),
  (0x4880, 1, roE 1), (0x4880, 2, roE 8), (0x4880, 3, roE 4),
  (0x4890, 1, rwpV 1023), (0x4890, 2, roB 16), (0x4890, 3, roE 4),
  (0x5000, 1, rwpE 4 65536 512 1048576), (0x5000, 2, rwpE 4 33554432 1048576 1073741824),
  (0x5000, 3, rwpE 4 1048576 65536 1048576), (0x5000, 4, rwpE 4 500 10 100000), (0x5000, 5, rwpE 1 8 1 255),
  (0x5000, 6, rwpE 4 0xFFFFFF 0 0xFFFFFF), (0x5010, 1, rwpE 1 2 1 4), (0x5010, 2, rwpE 4 131072 16384 1048576),
  (0x5010, 3, rwpE 1 16 1 16), (0x5020, 1, rwpE 4 16384 4096 1048576), (0x5020, 2, rwpE 1 6 0 100),
  (0x5030, 1, roE 8), (0x5030, 2, roE 8), (0x5030, 3, roE 8), (0x5030, 4, roE 8), (0x5030, 5, roE 4), (0x5030, 6, roE 8),
  (0x5030, 7, roE 4),
  (0x5800, 1, rwpE 1 4 0 8), (0x5800, 2, rwpBool 1), (0x5800, 3, mg (rwpBool 0)), (0x5800, 4, mg (rwpE 1 0 0 255)),
  (0x5800, 5, rwpE 2 512 1 8192), (0x5800, 6, roE 2), (0x5810, 1, ses (rwE 2 65535)), (0x5810, 2, roE 1), (0x5810, 3, roB 16),
  (0x5810, 4, roE 4), (0x5810, 5, roE 8), (0x5810, 6, roE 8), (0x5810, 7, roE 2), (0x5820, 1, roB 64), (0x5820, 2, roE 1),
  (0x5830, 1, roE 2), (0x5830, 2, mg (woB 19)), (0x5830, 3, roE 4), (0x5840, 1, roE 8), (0x5840, 2, roE 8), (0x5840, 3, roE 4)]

def rowsD : List (Nat × Nat × Entry) := [
  (0x6000, 1, roE 1), (0x6000, 2, roS 4), (0x6000, 3, rwpE 2 100 10 400), (0x6000, 4, rwpE 2 700 300 1200),
  (0x6000, 5, rwpE 2 2000 100 10000), (0x6000, 6, rwpE 2 2000 100 20000), (0x6000, 7, rwpE 2 50 5 200),
  (0x6000, 8, rwpE 2 50 5 1000), (0x6000, 9, rwpE 2 50 5 1000), (0x6000, 10, rwpE 2 200 10 400),
  (0x6000, 11, rwpB 3 0x120C06), (0x6000, 12, rwpB 12 (28000 + 34000 * 2 ^ 32 + 40000 * 2 ^ 64)),
  (0x6000, 13, rwpB 16 0x80000000800000008000000080000000), (0x6000, 14, rwpE 2 512 16 8192), (0x6000, 15, rwpE 2 512 16 8192),
  (0x6000, 16, rwpE 4 0 0 0xFFFFFFFF), (0x6000, 17, rwpE 4 0 0 0xFFFFFFFF), (0x6000, 18, rwpE 4 0 0 0xFFFFFFFF),
  (0x6000, 19, rwpE 1 1 1 50), (0x6000, 20, rwpE 1 8 1 64),
  (0x6010, 1, w1cE 4 0xFFFFFFFF), (0x6010, 2, w1cE 8 0xFFFFFFFFFFFFFFFF), (0x6010, 3, roE 1), (0x6010, 4, roE 4),
  (0x6010, 5, roE 4), (0x6010, 6, roE 2), (0x6010, 7, roS 4), (0x6010, 8, roE 1), (0x6010, 9, roS 4), (0x6010, 10, roE 1),
  (0x6010, 11, roE 4), (0x6010, 12, roE 4), (0x6010, 13, roE 1), (0x6100, 1, rwpB 36 0), (0x6200, 1, rwpB 68 0),
  (0x7000, 1, rwpE 1 24 1 40), (0x7000, 2, rwpE 1 7 0 7), (0x7000, 3, rwpE 4 50000 10000 100000), (0x7000, 4, rwpE 2 96 1 128),
  (0x7000, 5, roE 2), (0x7000, 6, roE 2), (0x7000, 7, roE 4), (0x7000, 8, roE 4), (0x7000, 9, roE 8), (0x7000, 10, roE 4),
  (0x7000, 11, roE 4), (0x7000, 12, ses (rwE 2 2047)), (0x7000, 13, roE 8),
  (0x7010, 1, roE 8), (0x7010, 2, roE 1), (0x7010, 3, roE 4), (0x7010, 4, roE 1), (0x7010, 5, roE 1), (0x7010, 6, roE 1),
  (0x7010, 7, roE 4), (0x7010, 8, roE 1), (0x7010, 9, roE 4), (0x7010, 10, roE 4),
  (0x7030, 1, { woB 32 with rd := 8, wr := 8, mask := 10 }), (0x7030, 2, { roB 16 with rd := 8, mask := 10 }),
  (0x8000, 1, pm (ses (pm (rwE 2 0x7FF)))), (0x8000, 2, pm (rwpE 1 0 0 255)), (0x8000, 3, pm (roE 4)),
  (0x8010, 1, pm (roE 4)), (0x8010, 2, pm (roE 4)), (0x8010, 3, pm (roE 4)), (0x8020, 1, ses (pm (rwE 4 0xFFFFFFFE))),
  (0x8020, 2, pm (roB 32)), (0x8020, 3, pm (roE 4)),
  (0x8100, 1, woE 1 0 255), (0x8100, 2, roE 1), (0x8100, 3, roB 16),
  (0x8200, 1, roE 1), (0x8200, 2, rwpE 1 3 0 3), (0x8200, 3, rwpE 4 10 0 60000), (0x8200, 4, rwpE 4 30 0 86400),
  (0x8200, 5, rwpE 4 300 0 86400), (0x8200, 6, woE 1 0 3), (0x8200, 7, roB 32),
  (0x9000, 1, idE (roE 1)), (0x9000, 2, roE 1), (0x9000, 3, roE 1), (0x9000, 4, roE 1), (0x9010, 1, roB 32),
  (0x9010, 2, { woB 116 with wr := 15 }), (0x9010, 3, roE 1), (0x9020, 1, { rwpB 64 0 with wr := 12 }),
  (0xA000, 1, roE 1), (0xA000, 2, roE 4), (0xA000, 3, mg (woE 4 0 0xFFFFFFFF)),
  (0xA010, 1, roE 8), (0xA010, 2, roE 8), (0xA010, 3, roE 2), (0xA010, 4, roE 2),
  (0xA020, 1, roS 2), (0xA020, 2, roS 2), (0xA020, 3, roB 10)]

/-- Every row. -/
def entryRows : List (Nat × Nat × Entry) := rowsA ++ (rowsB ++ (rowsC ++ rowsD))

/-- First index of the family of an index: functions, pools, channels, gain and notch records, Staxa keys (R50, R187,
R402, R472, R488). -/
def familyOf (i : Nat) : Nat :=
  if 0x2100 ≤ i ∧ i < 0x2140 then 0x2100
  else if 0x2400 ≤ i ∧ i < 0x2405 then 0x2400
  else if 0x4000 ≤ i ∧ i < 0x4080 then 0x4000
  else if 0x6100 ≤ i ∧ i < 0x6140 then 0x6100
  else if 0x6200 ≤ i ∧ i < 0x6204 then 0x6200
  else if 0x1110 ≤ i ∧ i < 0x1118 then 0x1110
  else i

/-- Defaults of `PoolCount` and `PoolReserve` (R187). -/
def poolCountDflt (p : Nat) : Nat := [32768, 16384, 4096, 1024, 256].getD p 0
def poolReserveDflt (p : Nat) : Nat := [256, 256, 64, 32, 2].getD p 0

/-- Attributes that depend on the index within a family (R50, R187). -/
def refine (i j : Nat) (e : Entry) : Option Entry :=
  if familyOf i = 0x2100 then
    if i = 0x2100 then (if j = 5 then none else if j = 1 then some { e with dflt := 1024 } else some e)
    else if j = 1 then some { e with hi := 1024 } else some e
  else if familyOf i = 0x2400 then
    if j = 1 then some { e with dflt := poolCountDflt (i - 0x2400), lo := if i = 0x2404 then 16 else 1 }
    else if j = 2 then some { e with dflt := poolReserveDflt (i - 0x2400) }
    else if j ≥ 9 && i ≠ 0x2404 then none else some e
  else some e

/-- The entry at an index and subindex (R474). -/
def findEntry (i j : Nat) : Option Entry :=
  match entryRows.find? fun r => r.1 == familyOf i && r.2.1 == j with
  | some r => refine i j r.2.2
  | none => none

/-- Key of an entry in the table of written values. -/
def entryKey (i j : Nat) : Nat := i * 256 + j

/-- The bytes in force: the value written, else the default (R12, R482). -/
def entryBytesOf (s : State) (i j : Nat) : List Byte :=
  match Tab.get? s.dict.vals (entryKey i j) with
  | some v => v
  | none =>
    match findEntry i j with
    | some e => if e.kind = .blobUpTo then [] else leBytes e.len e.dflt
    | none => []

/-- The value in force as a number. -/
def param (s : State) (i j : Nat) : Nat := leNat (entryBytesOf s i j)

/-- Two's complement value of a number of `n` bytes (R475). -/
def signedOf (n v : Nat) : Int := if v < 2 ^ (8 * n - 1) then v else (v : Int) - 2 ^ (8 * n)

/-- Named parameters. -/
def State.recordLengthLimit (s : State) : Nat := param s 0x3010 1
def State.earlyWarningMargin (s : State) : Nat := param s 0x3010 2
def State.recordLease (s : State) : Nat := param s 0x3010 9
def State.checkpointDatasets (s : State) : Nat := param s 0x3010 6
def State.blockSize (s : State) : Nat := param s 0x5000 3
def State.independentInterval (s : State) : Nat := param s 0x5000 2
def State.fnSlotReserve (s : State) (f : Nat) : Nat := param s (0x2100 + f) 2
def State.fnSlotLimit (s : State) (f : Nat) : Nat := param s (0x2100 + f) 3
def State.fnWeight (s : State) (f : Nat) : Nat := param s (0x2100 + f) 4

end Sys2Proof.Machine
end

