-- ==== Sys2Proof/Machine/Ops.lean ====
section
/-! DEFINITION. Shared operations: outputs, free draws, functions and queue pairs, MSI-X, events, completions. -/

namespace Sys2Proof.Machine

/-- The outcome of a command. -/
abbrev Result := Host.Outcome State Fault Refusal

/-- Issue something to the outside. -/
def emit (o : Out) (s : State) : State := { s with out := o :: s.out }

/-- Issue several things, first first. -/
def emits (os : List Out) (s : State) : State := { s with out := os.reverse ++ s.out }

/-- Count one free draw. -/
def drew (s : State) : State := { s with drawn := s.drawn + 1 }

/-- A free element of a list: which one is open. -/
def freePick (s : State) (l : List Nat) : Option Nat :=
  if l.isEmpty then none else some (l.getD (Config.freeNat s.drawn % l.length) 0)

/-- A completion's RecordNum where no record was delivered or numbered: the manual gives none (R65). -/
def recordNumOf (given : Option Nat) (s : State) : Nat × State :=
  match given with
  | some r => (r, s)
  | none => (Config.freeNat s.drawn % 0x1000000000000, drew s)

/-- A function's state. -/
def getFn (s : State) (f : Nat) : Fn := Tab.getD s.host.fns f {}

/-- Replace a function's state. -/
def setFn (f : Nat) (v : Fn) (s : State) : State := { s with host := { s.host with fns := Tab.put s.host.fns f v } }

/-- Change a function's state. -/
def updFn (f : Nat) (g : Fn → Fn) (s : State) : State := setFn f (g (getFn s f)) s

/-- A queue pair. -/
def getQp (s : State) (f q : Nat) : Option Qp := Tab.get? (getFn s f).qps q

/-- Replace a queue pair. -/
def setQp (f q : Nat) (v : Qp) (s : State) : State := updFn f (fun x => { x with qps := Tab.put x.qps q v }) s

/-- Change a queue pair, where it exists. -/
def updQp (f q : Nat) (g : Qp → Qp) (s : State) : State :=
  match getQp s f q with
  | some v => setQp f q (g v) s
  | none => s

/-- Queue pairs of a function now in force (R50). -/
def qpCountOf (s : State) (f : Nat) : Nat := Tab.getD s.host.qpCount f (if f = 0 then 1024 else 48)

/-- Device-wide index of a local queue pair (R51). -/
def qpIndex (s : State) (f q : Nat) : Nat := ((List.range f).map (qpCountOf s)).sum + q

/-- MSI-X vectors of a function now in force (R38, R50). -/
def msixCountOf (s : State) (f : Nat) : Nat := if f = 0 then 2048 else Tab.getD s.host.msixCount f 32

/-- Raise a vector: a message, or the pending bit when masked (R76). -/
def sendMsix (f v : Nat) (s : State) : State :=
  let m := Tab.getD (getFn s f).msix v {}
  if m.masked then updFn f (fun x => { x with msix := Tab.put x.msix v { m with pend := true } }) s
  else emit (.msix f v) s

/-- Default priority of an event source (R536). -/
def defaultPrio (n : Nat) : Nat :=
  if n ∈ [0x402, 0x527, 0x551, 0x560, 0x705, 0x714, 0x7C0, 0x7D0, 0x7D2] ∨ (0x600 ≤ n ∧ n ≤ 0x60A) ∨ (0x780 ≤ n ∧ n ≤ 0x7BF) then 0
  else if (n < 0x400 ∧ 6 ≤ n % 8) ∨ n ∈ [0x506, 0x521, 0x523, 0x550, 0x701] ∨ (0x540 ≤ n ∧ n ≤ 0x542) ∨ (0x562 ≤ n ∧ n ≤ 0x566) then 1
  else if n < 0x400 ∨ n ∈ [0x505, 0x555, 0x610, 0x620, 0x640] then 3
  else 2

/-- Route of a source: [0] EVQ-H, [1] EVQ-M, [3:2] priority (R536). -/
def routeOf (s : State) (n : Nat) : Nat := Tab.getD s.dict.routes n (3 + 4 * defaultPrio n)

/-- Write an entry into an overwriting queue: what it holds after, and whether the oldest was lost (R29, R30). -/
def evPush (depth : Nat) (q : List EvEntry) (e : EvEntry) : List EvEntry × Bool :=
  if q.length < depth then (q ++ [e], false) else (q.drop 1 ++ [e], true)

/-- Count lost entries of EVQ-H (R29, R538, R540). -/
def lostHost (lost : Bool) (v : Ev) : Ev :=
  if lost then { v with lost := sat16 (v.lost + 1), hostLostTotal := sat32 (v.hostLostTotal + 1) } else v

/-- Count lost entries of EVQ-M (R29, R541). -/
def lostMgmt (lost : Bool) (v : Ev) : Ev :=
  if lost then { v with mgmtLost := sat16 (v.mgmtLost + 1), mgmtLostTotal := sat32 (v.mgmtLostTotal + 1) } else v

/-- Deliver to EVQ-H (R31, R539). -/
def toHost (e : EvEntry) (s : State) : State :=
  let p := evPush 2048 s.ev.host e
  let armed := s.ev.armed
  let s := { s with ev := lostHost p.2 { s.ev with host := p.1, armed := false } }
  if armed then sendMsix 0 1 s else s

/-- Deliver to EVQ-M (R31, R541). -/
def toMgmt (e : EvEntry) (s : State) : State :=
  let p := evPush 512 s.ev.mgmt e
  { s with ev := lostMgmt p.2 { s.ev with mgmt := p.1 } }

/-- Raise an event: count it, then write an entry into each queue of its route (R536). -/
def raise (src : Nat) (items : List (Nat × Nat)) (s : State) : State :=
  let r := routeOf s src
  let e : EvEntry := ⟨eventEntry src (r / 4 % 4) items, false⟩
  let s := { s with ev := { s.ev with counts := Tab.put s.ev.counts src (sat32 (Tab.getD s.ev.counts src 0 + 1)) } }
  let s := if r.testBit 0 then toHost e s else s
  if r.testBit 1 then toMgmt e s else s

/-- A pass begins: the target of `EqTarget` comes into force (R383, R401). -/
def takeEqTarget (s : State) : State := { s with rd := { s.rd with eqTarget := param s 0x4850 9 } }

/-- Raise an event when a condition holds. -/
def raiseIf (b : Bool) (src : Nat) (items : List (Nat × Nat)) (s : State) : State := if b then raise src items s else s

/-- Event items of R535 by name. -/
def iStream (n : Nat) : Nat × Nat := (14, n)
def iRecord (n : Nat) : Nat × Nat := (48, n)
def iDataset (n : Nat) : Nat × Nat := (40, n)
def iWrap (n : Nat) : Nat × Nat := (9, n)
def iRow (n : Nat) : Nat × Nat := (7, n)
def iStripe (n : Nat) : Nat × Nat := (2, n)
def iSlot (n : Nat) : Nat × Nat := (7, n)
def iChan (n : Nat) : Nat × Nat := (7, n)
def iLane (n : Nat) : Nat × Nat := (4, n)
def iCode (n : Nat) : Nat × Nat := (8, n)
def iFn (n : Nat) : Nat × Nat := (6, n)
def iQp (n : Nat) : Nat × Nat := (16, n)
def iKey (n : Nat) : Nat × Nat := (13, n)

/-- A command by its slot. -/
def getCmd (s : State) (slot : Nat) : Option Cmd := Tab.get? s.host.cmds slot

/-- Replace a command. -/
def setCmd (slot : Nat) (c : Cmd) (s : State) : State := { s with host := { s.host with cmds := Tab.put s.host.cmds slot c } }

/-- Change a command, where it exists. -/
def updCmd (slot : Nat) (g : Cmd → Cmd) (s : State) : State :=
  match getCmd s slot with
  | some c => setCmd slot (g c) s
  | none => s

/-- Set what a command is doing. -/
def setStage (slot : Nat) (st : Stage) (s : State) : State := updCmd slot (fun c => { c with stage := st }) s

/-- Slots that a function holds (R69). -/
def slotsHeld (s : State) (f : Nat) : Nat := s.host.cmds.countP fun p => p.2.fn == f && !p.2.orphan

/-- Slots that a queue pair holds (R69). -/
def qpHeld (s : State) (f q : Nat) : Nat := s.host.cmds.countP fun p => p.2.fn == f && p.2.qp == q && !p.2.orphan

/-- ShutdownDone is set once Shutdown is 1 and no command of the function is in flight (R45, R92). -/
def shutdownCheck (f : Nat) (s : State) : State :=
  let x := getFn s f
  if x.shutdown && !x.shutdownDone && slotsHeld s f == 0 then updFn f (fun x => { x with shutdownDone := true }) s else s

/-- Change a stream, where it exists. -/
def updStream (n : Nat) (g : Stream → Stream) (s : State) : State := { s with streams := Tab.upd s.streams n g }

/-- Change a key slot, where it is not FREE. -/
def updKey (n : Nat) (g : KeySlot → KeySlot) (s : State) : State :=
  { s with cip := { s.cip with slots := Tab.upd s.cip.slots n g } }

/-- One stream more is bound to a slot (R249). -/
def bindKey (n : Nat) (s : State) : State := updKey n (fun k => { k with state := .bound, binds := k.binds + 1 }) s

/-- One stream less is bound to a slot (R249); a RETIRING slot stays RETIRING (R270). -/
def unbindKey (n : Nat) (s : State) : State :=
  updKey n (fun k =>
    { k with binds := k.binds - 1, state := if k.state = .bound && k.binds ≤ 1 then .loaded else k.state }) s

/-- The cartridge enters a state; READY or READ_ONLY is judged by the failed-member rules in force at that moment (R99, R412,
R413). -/
def enterCart (now : CartState) (s : State) : State :=
  if now = .ready && s.wr.stopped then { s with cart := { s.cart with state := .readOnly, roByMembers := true } }
  else if now = .readOnly && s.cart.roByMembers && !s.wr.stopped then
    { s with cart := { s.cart with state := .ready, roByMembers := false } }
  else { s with cart := { s.cart with state := now } }

/-- The end of CARTRIDGE_FORMAT (R99, R117). -/
def endFormat (ok : Option Bool) (s : State) : State :=
  let was := s.cart.state
  let s := { s with cart := { s.cart with formatting := none } }
  match ok with
  | none => s
  | some true => if was = .unformatted ∨ was = .ready then enterCart .ready s else s
  | some false => if was = .unformatted ∨ was = .ready ∨ was = .readOnly then enterCart .unformatted s else s

/-- What the posting of a completion changes. -/
def PostAct.apply (a : PostAct) (s : State) : State :=
  match a with
  | .cart was now => if s.cart.state = was then enterCart now s else s
  | .formatEnds ok => endFormat ok s
  | .unreserve n => updStream n (fun x => { x with creating := false }) { s with reserved := Tab.del s.reserved n }
  | .activated => { s with fw := { s.fw with activate := none } }
  | .resetPosted f q => updQp f q (fun v => { v with resetEnds := false }) s
  | .opened n => updStream n (fun x => { x with state := if x.opening.isSome then .opened else x.state, opening := none }) s
  | .openFailed n key =>
    -- a stream that was closed meanwhile is unbound already
    let marked := ((Tab.get? s.streams n).map (·.opening.isSome)).getD false
    let s := updStream n (fun x => { x with opening := none }) s
    match key with
    | some k => if marked then unbindKey k s else s
    | none => s

/-- Put off a change until the completion of a command is posted. -/
def onPost (slot : Nat) (a : PostAct) (s : State) : State := updCmd slot (fun c => { c with post := c.post ++ [a] }) s

/-- The KEK of a function is zeroised, its slots retire, and its streams start to drain and close (R270). -/
def retireMarks (f : Nat) (s : State) : State :=
  let slots := s.cip.slots.map fun p => if p.2.owner = f then (p.1, { p.2 with state := KeyState.retiring, unloading := none }) else p
  let streams := s.streams.map fun p =>
    if p.2.owner = f && p.2.state == .opened then (p.1, { p.2 with state := StreamState.closing, closer := none }) else p
  { s with cip := { s.cip with keks := Tab.del s.cip.keks f, slots := slots }, streams := streams }

/-- What a command that its function's end left running has set up follows the function when its work is done: the stream that
it opened starts to drain and close (R270, R598). What the function has set up since is not touched. -/
def retireOwn (c : Cmd) (s : State) : State :=
  if eOpcode c.entry = opStreamOpen then
    updStream (eStream c.entry) (fun x =>
      if x.owner = c.fn && x.state == .opened then { x with state := StreamState.closing, closer := none } else x) s
  else s

/-- Drop a command and its slot (R71), with what waited for its completion, or for the end of its work when its function has
ended (R598). -/
def dropCmd (slot : Nat) (s : State) : State :=
  match getCmd s slot with
  | none => s
  | some c =>
    let s := c.post.foldl (fun s a => a.apply s) { s with host := { s.host with cmds := Tab.del s.host.cmds slot } }
    shutdownCheck c.fn (if c.fnEnded then retireOwn c s else s)

/-- The Flow Tag of a command as step 1 of the write and read paths builds it: the stream's binding at the allocation of the
slot, RecordNum unassigned or the first record requested, and no buffer (R18). -/
def newTag (s : State) (f q slot epoch : Nat) (e : BitVec 512) : BitVec 128 :=
  let stream := eStream e
  let st := Tab.get? s.streams stream
  let usesStream := decide (eOpcode e ≥ 0x18) && st.isSome
  let x : Stream := st.getD { owner := 0, comp := 3, cipher := false }
  let cipher := usesStream && x.cipher && !x.noKey && x.state != .closed
  let reads := decide (eOpcode e = opRead ∨ eOpcode e = opReadRaw)
  flowTag stream (qpIndex s f q) slot (if cipher then x.keySlot else 0) cipher
    (if usesStream && x.comp ≠ 3 then x.comp else 0) (if reads then eFirst e else 0xFFFFFFFFFFFF) 7 0 epoch

/-- A tag for a transfer of an internal agent, and the state with the agent's next sequence number (R20, R543). -/
def agentTag (agent : Nat) (s : State) : BitVec 128 × State :=
  let n := Tab.getD s.agentSeq agent 0
  (internalTag agent n, { s with agentSeq := Tab.put s.agentSeq agent ((n + 1) % 65536) })

/-- The tag of a command in flight; for none, that of an internal transfer numbered 0. -/
def tagOf (s : State) (slot : Nat) : BitVec 128 := match getCmd s slot with | some c => c.tag | none => internalTag 0 0

/-- The command that a tag names has its data in another buffer (R18, R189). -/
def retag (tag : BitVec 128) (id : Nat) (s : State) : State :=
  if tagClass tag = 3 then s else updCmd (tagSlot tag) (fun c => { c with tag := tagWithBuf c.tag id }) s

/-- Slots of completions whose writes may still fail (R81). -/
def recentSlots (s : State) : List Nat :=
  s.host.fns.flatMap fun f => f.2.qps.flatMap fun v => v.2.recent.filterMap (·.slot)

/-- The first free slot at or after `i` that no completion still to be consumed names. -/
def freeSlotFrom (s : State) (used : List Nat) : Nat → Nat → Option Nat
  | 0, _ => none
  | n + 1, i => if (getCmd s i).isSome || used.contains i then freeSlotFrom s used n (i + 1) else some i

/-- The slot that an entry takes: the lowest free one whose last completion the host has consumed, else the lowest free one.
DESIGN CHOICE (log entry 6): the manual does not say which free slot; with every free slot still named by a completion that
may fail, one of those is taken. -/
def freeSlot (s : State) : Option Nat :=
  match freeSlotFrom s (recentSlots s) 65536 0 with
  | some i => some i
  | none => Tab.lowest s.host.cmds 65536 0

/-- What an error log entry says beyond the command (R79). -/
structure ErrInfo where
  response : Nat := 0
  channel : Nat := 0xFF
  block : Nat := 0
  hostAccess : Nat := 0
  event : Option Nat := none
  byteOffset : Nat := 0
  loc : Option (Nat × Nat) := none

/-- Block codes (R80). -/
def bHqe : Nat := 1
def bBpm : Nat := 2
def bStream : Nat := 3
def bPacker : Nat := 4
def bCompW : Nat := 5
def bCompD : Nat := 6
def bCipher : Nat := 7
def bBuilder : Nat := 8
def bCocoon : Nat := 9
def bReadCh : Nat := 11
def bWriter : Nat := 10
def bTce : Nat := 12
def bFlash : Nat := 13
def bMgmt : Nat := 14

/-- Count an ERROR of a queue pair and log it, or count it lost when the log is full; its entry holds the Flow Tag (R24, R78, R79). -/
def logError (e : ErrEntry) (q : Qp) : Qp :=
  let n := (q.errSeq + 1) % 65536
  let q := { q with errSeq := n }
  if q.log.length < 16 then { q with log := q.log ++ [{ e with sequence := n }] } else { q with lost := sat16 (q.lost + 1) }

/-- The completion queue has no free entry (R59). -/
def cqFull (q : Qp) : Bool := decide ((q.cqTail + 1) % q.cqDepth = q.cqHead)

/-- A queue pair after a completion entry is written: tail, Phase, the entry kept in case its write fails, freeze on an
ERROR (R65, R77). -/
def cqAdvance (h : HeldCpl) (q : Qp) : Qp :=
  let t := (q.cqTail + 1) % q.cqDepth
  { q with cqTail := t, phase := if t = 0 then !q.phase else q.phase, recent := h :: q.recent,
           frozen := q.frozen || h.cpl.status.isError }

/-- Interrupt state after a completion: the new state, and whether the vector is raised now (R75). -/
def coalesce (err : Bool) (q : Qp) : Qp × Bool :=
  if !q.intEnable then (q, false)
  else
    let n := q.unannounced + 1
    if err || decide (q.intThreshold ≤ n) then ({ q with unannounced := 0, timer := false }, true)
    else ({ q with unannounced := n, timer := decide (0 < q.intTime) }, false)

/-- Write one completion entry to host memory (R65, R66), raise its vector (R73, R75), release its slot (R71). -/
def issueCpl (f q : Nat) (h : HeldCpl) (s : State) : State :=
  match getQp s f q with
  | none => s
  | some v =>
    let addr := v.cqBase + BitVec.ofNat 64 (32 * v.cqTail)
    let v1 := cqAdvance h v
    let (v2, irq) := coalesce h.cpl.status.isError v1
    let s := emit (.completion addr (h.cpl.entry v.phase)) (setQp f q v2 s)
    let s := if irq then sendMsix f v.vector s else s
    match h.slot with
    | some n => dropCmd n s
    | none => s

/-- Post held completions while the completion queue has room and no write has failed (R59, R81). -/
def drainHeld (f q : Nat) : Nat → State → State
  | 0, s => s
  | n + 1, s =>
    match getQp s f q with
    | none => s
    | some v =>
      match v.held with
      | [] => s
      | h :: t =>
        if v.writeFailed || cqFull v then s
        else drainHeld f q n (issueCpl f q h (setQp f q { v with held := t } s))

/-- Post a completion of a queue pair, or hold it (R59, R81). -/
def postCpl (f q : Nat) (h : HeldCpl) (s : State) : State :=
  match getQp s f q with
  | none => s
  | some v =>
    if v.held.isEmpty && !v.writeFailed && !cqFull v then issueCpl f q h s
    else
      let s := setQp f q { v with held := v.held ++ [h] } s
      match h.slot with
      | some n => setStage n .held s
      | none => s

/-- The completion of a command under a status, before its own fields are filled in (R65). DESIGN CHOICE (log entry 110):
RecordNum of a WRITE or READ that is refused before any record is numbered or delivered is 0; the manual gives none. -/
def baseCpl (c : Cmd) (st : Status) : Cpl := { epoch := c.epoch, status := st, cid := eCid c.entry, sqHead := c.headAfter }

/-- End a command with a completion: the error log entry and the freeze for an ERROR (R77, R78), then the completion.
A command carried on without a completion, or one of an older epoch, ends without one (R23, R598). -/
def complete (slot : Nat) (cpl : Cmd → Cpl) (e : ErrInfo) (s : State) : State :=
  match getCmd s slot with
  | none => s
  | some c =>
    if c.stage = .held then s
    else if c.orphan then dropCmd slot s
    else
      match getQp s c.fn c.qp with
      | none => dropCmd slot s
      | some v =>
        if v.epoch ≠ c.epoch then dropCmd slot s
        else
          let p := cpl c
          let v := if p.status.isError then
              { logError { response := e.response, status := p.status, cid := p.cid, sequence := 0, epoch := c.epoch,
                           opcode := eOpcode c.entry, timestamp := s.time, flowTag := c.tag, channel := e.channel,
                           block := e.block, hostAccess := e.hostAccess, event := e.event, byteOffset := e.byteOffset,
                           loc := e.loc } v with frozen := true }
            else v
          postCpl c.fn c.qp ⟨some slot, some c, p⟩ (setQp c.fn c.qp v s)

/-- A reset of the command's queue pair runs: no host memory request is issued for it any more, and data that returns is
discarded (R83). -/
def cutOff (s : State) (c : Cmd) : Bool := match getQp s c.fn c.qp with | some v => v.reset.isSome | none => true

/-- Write data to host memory for a command, by its list or buffer (R64); nothing for one that ended, or while its queue pair is
being reset (R83). -/
def toHostMem (slot : Nat) (record : Bool) (bytes : List Byte) (s : State) : State :=
  match getCmd s slot with
  | none => s
  | some c => if c.orphan || cutOff s c || bytes.isEmpty then s else emit (.hostData slot record (layout c.sg bytes.length) bytes) s

/-- End a command with a status and nothing more. -/
def finish (slot : Nat) (st : Status) (block : Nat) (s : State) : State :=
  complete slot (fun c => baseCpl c st) { block := block } s

/-- End a command with a status and Specific bytes (bytes 20 to 31). -/
def finishWith (slot : Nat) (st : Status) (spec : List (Nat × Nat)) (block : Nat) (s : State) : State :=
  complete slot (fun c => { baseCpl c st with specific := BitVec.ofNat 96 (packLsb spec) }) { block := block } s

/-- Record that an INFO condition arose (R144). -/
def noteInfo (slot : Nat) (st : Status) (s : State) : State :=
  updCmd slot (fun c => { c with info := c.info ||| BitVec.ofNat 8 (2 ^ (st.code - 1)) }) s

/-- The status of a command that meets no ERROR, from its INFO flags (R144). -/
def infoStatus (b : BitVec 8) : Status :=
  if b.getLsbD 0 then .lengthResidue else if b.getLsbD 4 then .recordsSkipped else if b.getLsbD 2 then .partialLost
  else if b.getLsbD 1 then .rebuiltOnRead else if b.getLsbD 3 then .earlyWarning else .success

end Sys2Proof.Machine
end

