-- ==== Sys2Proof/Machine/Operands.lean ====
section
/-! DEFINITION. The fields of every submission entry (R60, R110-R136, R252, R255), the checks of R96 made at the fetch of
a command, and the effects that a fetch has at once (R98, R99, R101, R148, R249, R256). -/

namespace Sys2Proof.Machine

/-- Fields of single commands. -/
def eLocalQp (e : BitVec 512) : Nat := fld e 28 0 16
def eLogId (e : BitVec 512) : Nat := fld e 28 24 8
def eSqBase (e : BitVec 512) : BitVec 64 := BitVec.ofNat 64 (fld e 32 0 64)
def eCqBase (e : BitVec 512) : BitVec 64 := BitVec.ofNat 64 (fld e 40 0 64)
def eSqDepth (e : BitVec 512) : Nat := fld e 48 0 16
def eCqDepth (e : BitVec 512) : Nat := fld e 48 16 16
def eMaxOut (e : BitVec 512) : Nat := fld e 52 16 13
def eVector (e : BitVec 512) : Nat := fld e 52 0 11
def eIntTime (e : BitVec 512) : Nat := fld e 56 24 8
def eIntThreshold (e : BitVec 512) : Nat := fld e 56 16 8
def eIntEnable (e : BitVec 512) : Bool := e.getLsbD (56 * 8 + 2)
def ePriority (e : BitVec 512) : Nat := fld e 56 0 2
def eIndex (e : BitVec 512) : Nat := fld e 28 8 16
def eSub (e : BitVec 512) : Nat := fld e 28 0 8
def eImageOffset (e : BitVec 512) : Nat := fld e 28 0 32
def eFinal (e : BitVec 512) : Bool := e.getLsbD (32 * 8)
def eForceRo (e : BitVec 512) : Bool := e.getLsbD (28 * 8)
def eOverwrite (e : BitVec 512) : Bool := e.getLsbD (28 * 8)
def eLabel (e : BitVec 512) : BitVec 64 := BitVec.ofNat 64 (fld e 32 0 64)
def eDsCount (e : BitVec 512) : Nat := fld e 28 0 32
def eDsFirst (e : BitVec 512) : Nat := fld e 32 0 40
def eOwnerFn (e : BitVec 512) : Nat := fld e 28 16 6
def eCompMode (e : BitVec 512) : Nat := fld e 28 8 2
def eCipherEn (e : BitVec 512) : Bool := e.getLsbD (28 * 8)
def eExpected (e : BitVec 512) : Nat := fld e 32 0 32
def eNoKey (e : BitVec 512) : Bool := e.getLsbD (28 * 8 + 1)
def eReadOnly (e : BitVec 512) : Bool := e.getLsbD (28 * 8)
def eKeySlot (e : BitVec 512) : Nat := fld e 32 0 13
def eRecLen (e : BitVec 512) : Nat := fld e 28 0 32
def eOrdered (e : BitVec 512) : Bool := e.getLsbD (40 * 8 + 3)
def eIndependent (e : BitVec 512) : Bool := e.getLsbD (40 * 8 + 2)
def eExpectNext (e : BitVec 512) : Bool := e.getLsbD (40 * 8 + 1)
def eLenMode (e : BitVec 512) : Bool := e.getLsbD (40 * 8)
def eSkipMissing (e : BitVec 512) : Bool := e.getLsbD (28 * 8 + 1)
def eLenList (e : BitVec 512) : Bool := e.getLsbD (28 * 8)
def eScope (e : BitVec 512) : Nat := fld e 28 0 2
def eIndexSync (e : BitVec 512) : Bool := e.getLsbD (28 * 8 + 8)
def eTargetFn (e : BitVec 512) : Nat := fld e 28 18 6
def eKeyKind (e : BitVec 512) : Nat := fld e 28 16 2
def eAnyStream (e : BitVec 512) : Bool := e.getLsbD (28 * 8 + 1)
def eStartMode (e : BitVec 512) : Bool := e.getLsbD (28 * 8)
def eWriterId (e : BitVec 512) : Nat := fld e 32 0 24
def eStartCounter (e : BitVec 512) : Nat := fld e 36 0 64
def eUnloadSlot (e : BitVec 512) : Nat := fld e 28 0 13

/-- Opcodes of R94. -/
def opcodes : List Nat := [opCreateQp, opDeleteQp, opQueueRestart, opQueueReset, opGetLog, opDictRead, opDictWrite, opKeyLoad,
  opKeyUnload, opFwDownload, opFwActivate, opCartLoad, opCartUnload, opCartFormat, opRebuild, opStreamCreate, opStreamOpen,
  opStreamClose, opWrite, opRead, opReadRaw, opFlush]

/-- An I/O opcode; the others are admin opcodes (R94). -/
def isIo (op : Nat) : Bool := decide (0x80 ≤ op)

/-- PF only (R94). -/
def pfOnly (op : Nat) : Bool := decide (op = opFwDownload ∨ op = opFwActivate ∨ (opCartLoad ≤ op ∧ op ≤ opRebuild))

/-- DataMode values that an opcode accepts (R94). -/
def dataModes (op : Nat) : List Nat :=
  if op = opDictRead ∨ op = opDictWrite ∨ op = opKeyLoad then [1]
  else if op = opGetLog ∨ op = opFwDownload ∨ op = opRead ∨ op = opReadRaw then [1, 2]
  else if op = opWrite then [0, 1, 2]
  else [0]

/-- Fields in use beyond CommandId, CMode, DataMode and Opcode: first byte, first bit, width (R60, R105, R109-R136, R252).
DEDUCED (log entry 94): LenAddr is not in use by a WRITE with LenMode 0 nor by a READ or READ_RAW with LenList 0, so it is then
reserved (R60) and must be 0 (R10). -/
def usedFields (e : BitVec 512) : List (Nat × Nat × Nat) :=
  let op := eOpcode e
  let data : List (Nat × Nat × Nat) := if eDataMode e = 0 then [] else [(16, 0, 64), (24, 0, 32)]
  let count := (4, 16, 16)
  let stream := (4, 0, 14)
  let first := (8, 0, 48)
  if op = opCreateQp then [(28, 0, 16), (32, 12, 52), (40, 12, 52), (48, 0, 32), (52, 16, 13), (52, 0, 11), (56, 16, 16),
    (56, 0, 3)]
  else if op = opDeleteQp ∨ op = opQueueRestart ∨ op = opQueueReset then [(28, 0, 16)]
  else if op = opGetLog then data ++ [(28, 24, 8), (28, 0, 16)]
  else if op = opDictRead ∨ op = opDictWrite then data ++ [(28, 0, 24)]
  else if op = opKeyLoad then
    data ++ (28, 16, 8) :: (if eKeyKind e = 0 then
      [(28, 0, 2), (32, 0, 24)] ++ (if eStartMode e then [] else [(36, 0, 64)]) ++ (if eAnyStream e then [] else [stream])
    else [])
  else if op = opKeyUnload then [(28, 0, 13)]
  else if op = opFwDownload then data ++ [(28, 0, 32), (32, 0, 1)]
  else if op = opCartLoad then [(28, 0, 1)]
  else if op = opCartFormat then [(28, 0, 1), (32, 0, 64)]
  else if op = opRebuild then [(28, 0, 32), (32, 0, 40)]
  else if op = opStreamCreate then [stream, (28, 16, 6), (28, 8, 2), (28, 0, 1)] ++ (if eCompMode e = 0 then [(32, 0, 32)] else [])
  else if op = opStreamOpen then [stream, (28, 0, 2), (32, 0, 13)]
  else if op = opStreamClose then [stream]
  else if op = opWrite then
    data ++ [count, stream, (40, 0, 4)] ++ (if eExpectNext e then [first] else []) ++
      (if eLenMode e then [(32, 2, 62)] else [(28, 0, 32)])
  else if op = opRead then data ++ [count, stream, first, (28, 0, 2)] ++ (if eLenList e then [(32, 2, 62)] else [])
  else if op = opReadRaw then data ++ [count, stream, first, (28, 0, 1)] ++ (if eLenList e then [(32, 2, 62)] else [])
  else if op = opFlush then [(28, 8, 1), (28, 0, 2)] ++ (if eScope e = 0 then [stream] else [])
  else []

/-- The bits an entry may set. -/
def usedMask (e : BitVec 512) : BitVec 512 :=
  ((0, 16, 16) :: (0, 10, 1) :: (0, 0, 10) :: usedFields e).foldl
    (fun m f => m ||| BitVec.ofNat 512 ((2 ^ f.2.2 - 1) * 2 ^ (8 * f.1 + f.2.1))) 0#512

/-- Reserved fields are 0 (R10). -/
def reservedZero (e : BitVec 512) : Bool := e &&& ~~~usedMask e == 0#512

/-- Value limits of single fields, step 3 (R53, R60, R74, R88, R105, R109, R110, R112, R115, R118, R119, R121, R253). DESIGN CHOICE (log
entry 117): a piece of FW_DOWNLOAD with Final 0 in a contiguous buffer whose length is no multiple of 4,096 fails here. -/
def rangesOk (s : State) (fn : Nat) (e : BitVec 512) : Bool :=
  let op := eOpcode e
  let dataOk := match eDataMode e with
    | 0 => true
    | 1 => decide (1 ≤ eLen e)
    | _ => decide (eAddr e % 16 = 0 ∧ 1 ≤ eLen e ∧ eLen e ≤ 256)
  let q := eLocalQp e
  let ioQp := decide (1 ≤ q ∧ q < qpCountOf s fn)
  dataOk &&
  (if op = opCreateQp then
    ioQp && decide (2 ≤ eSqDepth e ∧ eSqDepth e ≤ 16384 ∧ 2 ≤ eCqDepth e ∧ eCqDepth e ≤ 16384 ∧ eMaxOut e ≤ 4096 ∧
      (if fn = 0 then 2 ≤ eVector e else eVector e < msixCountOf s fn))
  else if op = opDeleteQp ∨ op = opQueueRestart ∨ op = opQueueReset then ioQp && (getQp s fn q).isSome
  else if op = opGetLog then decide (eLogId e = 1) && (getQp s fn q).isSome
  else if op = opKeyLoad then
    decide (eLen e = (if eKeyKind e = 1 then 80 else if eKeyKind e = 3 then 32 else 40)) &&
      !(decide (eKeyKind e = 0) && decide (eWriterId e = 0)) && (decide (eKeyKind e = 3) || decide (eTargetFn e = 0))
  else if op = opFwDownload then
    decide (eImageOffset e % 4096 = 0) && (eFinal e || decide (eDataMode e ≠ 1) || decide (eLen e % 4096 = 0))
  else if op = opRebuild then decide (1 ≤ eDsCount e)
  else if op = opStreamOpen then !eNoKey e || (eReadOnly e && decide (eKeySlot e = 0))
  else if op = opWrite then
    decide (eCount e ≠ 0) && (!eExpectNext e || (decide (eFirst e ≠ 0xFFFFFFFFFFFF) && eOrdered e))
  else if op = opRead ∨ op = opReadRaw then decide (eCount e ≠ 0 ∧ eFirst e ≠ 0xFFFFFFFFFFFF)
  else if op = opFlush then decide (eScope e ≠ 3)
  else true)

/-- Sizes stated in the entry, step 4 (R106, R107, R112). -/
def sizesOk (s : State) (e : BitVec 512) : Bool :=
  let op := eOpcode e
  if op = opGetLog then decide (eDataMode e ≠ 1 ∨ 64 ≤ eLen e)
  else if op = opWrite && !eLenMode e then
    let total := eRecLen e * eCount e
    decide (eRecLen e ≤ s.recordLengthLimit ∧ (eDataMode e = 0 ↔ total = 0) ∧ (eDataMode e = 1 → eLen e = total))
  else true

/-- Opcodes that need a cartridge (R102). -/
def needsCart (op : Nat) : Bool := decide ((opCartLoad ≤ op ∧ op ≤ opStreamClose) ∨ 0x80 ≤ op)

/-- Step 5: CARTRIDGE_ABSENT (R102). -/
def cartAbsent (op : Nat) (c : CartState) : Bool :=
  c = .empty || (c = .present && op ≠ opCartLoad && op ≠ opCartUnload)

/-- Opcodes that name a stream that must exist, step 6 (R96). -/
def namesStream (e : BitVec 512) : Bool :=
  let op := eOpcode e
  op = opStreamOpen || op = opStreamClose || op = opWrite || op = opRead || op = opReadRaw || (op = opFlush && eScope e = 0)

/-- The cartridge columns of R102 for READY and the like, with the conditions of R117. -/
def cartLegal (s : State) (e : BitVec 512) : Bool :=
  let op := eOpcode e
  let c := s.cart.state
  let busy := s.streams.any fun p => p.2.state != .closed
  if op = opCartLoad then c = .present
  else if op = opCartUnload then c = .unformatted || c = .ready || c = .readOnly || c = .faulted
  else if op = opCartFormat then
    (c = .unformatted || (c = .ready && eOverwrite e)) && !busy && s.cart.rebuilding.isNone && s.tce.wprotHigh &&
      !s.wr.stopped
  else if op = opRebuild then c = .ready && s.cart.rebuilding.isNone
  else if op = opStreamCreate ∨ op = opWrite then c = .ready
  else if op = opStreamOpen then c = .ready || (c = .readOnly && eReadOnly e)
  else c = .ready || c = .readOnly

/-- A stream of the cartridge that commands may name: one whose STREAM_CREATE has completed (R101). -/
def liveStream (s : State) (n : Nat) : Option Stream :=
  match Tab.get? s.streams n with
  | some x => if x.creating then none else some x
  | none => none

/-- The stream condition of R102. -/
def streamLegal (s : State) (e : BitVec 512) : Bool :=
  let op := eOpcode e
  match liveStream s (eStream e) with
  | none => if op = opStreamCreate then (Tab.get? s.reserved (eStream e)).isNone else !namesStream e
  | some x =>
    if op = opStreamCreate then false
    else if op = opStreamOpen then x.state = .closed && x.opening.isNone
    else if op = opWrite then x.state = .opened && !x.readOnly
    else if op = opStreamClose ∨ op = opRead ∨ op = opReadRaw then x.state = .opened
    else true

/-- Queue pair state at step 7 (R53, R55, R82, R88). DESIGN CHOICE (log entry 93): DELETE_QP of a queue pair being reset gives
STATE_CONFLICT. -/
def qpLegal (s : State) (fn : Nat) (e : BitVec 512) : Bool :=
  let op := eOpcode e
  let q := eLocalQp e
  if op = opCreateQp then (getQp s fn q).isNone
  else match getQp s fn q with
    | none => true
    | some v =>
      let resetting := v.reset.isSome || v.claim.isSome || v.resetEnds
      if op = opDeleteQp then decide (qpHeld s fn q = 0) && v.held.isEmpty && !resetting
      else if op = opQueueRestart then v.frozen && !resetting
      else if op = opQueueReset then !resetting
      else true

/-- The last dataset written, plus one: data datasets below it have left the Cocoon (R118, R169). -/
def writtenEnd (s : State) : Nat :=
  s.wr.cocoon.foldl (fun m d => match d.number with
    | some n => min m n
    | none => m) s.cart.next

/-- A slot that a STREAM_OPEN may bind (R250, R256). -/
def keyUsable (s : State) (fn stream slot : Nat) : Bool :=
  match Tab.get? s.cip.slots slot with
  | some k => (k.state = .loaded || k.state = .bound) && k.owner = fn && k.unloading.isNone &&
      (match k.scope with | none => true | some x => x = stream)
  | none => false

/-- A transport fault keeps the tape out of use (R99). -/
def tapeGone (s : State) : Bool := s.cart.state = .faulted || (s.cart.state = .unloading && s.cart.unloadFaulted)

/-- The device is ACTIVATING (R103). -/
def activating (s : State) : Bool := s.fw.activate.isSome

/-- Commands that a device in recovery accepts (R526). -/
def recoveryAdmits (e : BitVec 512) : Bool :=
  let op := eOpcode e
  op = opFwDownload || op = opFwActivate || op = opGetLog || (op = opDictRead && (eIndex e / 4096 = 7 || eIndex e / 256 = 16))

/-- Steps 1 to 7 of R96 for an entry of queue pair `q` of function `fn`: the status and the block of the first check that
fails (R80, R95, R98, R103). A stream of another function answers as one that does not exist (R97). A command is checked
against the state at its fetch (R104). -/
def verdictOf (s : State) (fn q : Nat) (e : BitVec 512) : Option (Status × Nat) :=
  let op := eOpcode e
  if !opcodes.contains op || (isIo op == decide (q = 0)) || !(dataModes op).contains (eDataMode e) ||
      (decide (eCMode e = 1) && decide (op ≠ opWrite)) then some (.invalidField, bHqe)
  else if (s.lc.state = 4 && op ≠ opDictRead) || (pfOnly op && fn ≠ 0) || (op = opFlush && eScope e = 2 && fn ≠ 0) ||
      (op = opStreamCreate && fn ≠ 0 && eOwnerFn e ≠ fn) ||
      (op = opKeyLoad && (s.lc.state ≠ 2 || (eKeyKind e = 3 && (fn ≠ 0 || param s 0x5800 3 = 0)))) then
    some (.accessDenied, bHqe)
  else if !reservedZero e || !rangesOk s fn e then some (.invalidField, bHqe)
  else if !sizesOk s e then some (.lengthInvalid, bHqe)
  else if needsCart op && cartAbsent op s.cart.state then some (.cartridgeAbsent, bStream)
  else if namesStream e && !(match liveStream s (eStream e) with | some x => x.owner = fn | none => false) then
    some (.streamUnknown, bStream)
  else if op = opStreamOpen && eKeySlot e ≠ 0 && !((Tab.get? s.streams (eStream e)).map (·.cipher)).getD false then
    some (.invalidField, bStream)
  else if activating s && op ≠ opQueueReset && op ≠ opQueueRestart && op ≠ opGetLog then some (.stateConflict, bStream)
  else if op = opKeyLoad && s.lc.job.isSome then some (.stateConflict, bStream)
  else if s.fw.active.isNone && !recoveryAdmits e then some (.stateConflict, bStream)
  else if needsCart op && (s.cart.formatting.isSome || !cartLegal s e || !streamLegal s e) then some (.stateConflict, bStream)
  else if (opCreateQp ≤ op && op ≤ opQueueReset) && !qpLegal s fn e then some (.stateConflict, bStream)
  else if op = opFwActivate && (s.cart.state = .loading || s.cart.state = .unloading) then some (.stateConflict, bStream)
  else if op = opRead && ((Tab.get? s.streams (eStream e)).map fun x => x.cipher && x.noKey).getD false then
    some (.keyUnavailable, bStream)
  else if op = opRebuild && decide (writtenEnd s < eDsFirst e + eDsCount e) then some (.invalidField, bStream)
  else if op = opStreamOpen && ((Tab.get? s.streams (eStream e)).map (·.cipher)).getD false && !eNoKey e &&
      !keyUsable s fn (eStream e) (eKeySlot e) then some (.keyUnavailable, bCipher)
  else if op = opKeyUnload then
    match Tab.get? s.cip.slots (eUnloadSlot e) with
    | some k =>
      if k.owner ≠ fn || k.state = .retiring || k.unloading.isSome then some (.keyUnavailable, bCipher)
      else if k.state = .bound then some (.stateConflict, bCipher) else none
    | none => some (.keyUnavailable, bCipher)
  else none

/-- The stream of a STREAM_OPEN is bound to a key slot. -/
def opensWithKey (s : State) (e : BitVec 512) : Bool :=
  ((Tab.get? s.streams (eStream e)).map (·.cipher)).getD false && !eNoKey e

/-- What the fetch of an admitted command does at once (R88, R99, R101, R102, R117, R148, R249, R256). -/
def fetchMarks (fn seq : Nat) (e : BitVec 512) (s : State) : State :=
  let op := eOpcode e
  if op = opQueueReset then updQp fn (eLocalQp e) (fun v => { v with claim := some seq }) s
  else if op = opKeyUnload then updKey (eUnloadSlot e) (fun k => { k with unloading := some seq }) s
  else if op = opCartLoad then { s with cart := { s.cart with state := .loading } }
  else if op = opCartUnload then
    { s with cart := { s.cart with state := .unloading, unloadClean := s.cart.state = .ready, unloadFaulted := s.cart.state = .faulted },
             streams := s.streams.map fun p =>
               if p.2.state = .opened then (p.1, { p.2 with state := .closing, closer := some seq }) else p }
  else if op = opCartFormat then { s with cart := { s.cart with formatting := some seq } }
  else if op = opRebuild then { s with cart := { s.cart with rebuilding := some seq } }
  else if op = opStreamCreate then { s with reserved := Tab.put s.reserved (eStream e) seq }
  else if op = opStreamOpen then
    let s := updStream (eStream e) (fun x => { x with opening := some seq, noKey := eNoKey e, keySlot := eKeySlot e }) s
    if opensWithKey s e then bindKey (eKeySlot e) s else s
  else if op = opStreamClose then updStream (eStream e) (fun x => { x with state := .closing, closer := some seq }) s
  else s


/-- The pointers of a fetch queue after a write into it (R29, R31). -/
def fqWrite (p : List Nat) : List Nat := [(p.getD 0 0 + 1) % 8, p.getD 1 0, (p.getD 2 0 + 1) % 8, p.getD 3 0]

/-- Fetch one entry into a queue pair's fetch queue: the checks, the marks, the entry (R96, R98). -/
def fetchOne (fn q seq headAfter : Nat) (e : BitVec 512) (s : State) : State :=
  let v := verdictOf s fn q e
  let x : FqEntry := { entry := e, seq := seq, verdict := v, headAfter := headAfter }
  let s := if v.isNone then fetchMarks fn seq e s else s
  updQp fn q (fun y => { y with fetchQ := y.fetchQ ++ [x], fqPtrs := fqWrite y.fqPtrs }) s

/-- A reset of a domain runs. -/
def resetting (s : State) (code : Nat) : Bool := s.resets.any fun r => r.code == code && !r.deferred

/-- The TCE is powered down, in PS2 and PS3, or in reset: it samples nothing and moves nothing (R471, R546, R549). -/
def tceUnpowered (s : State) : Bool := decide (2 ≤ s.pwr.now) || resetting s 3

/-- A loop. -/
def loopOf (s : State) (l : Nat) : Loop := s.tce.loops.getD l {}

/-- Replace a loop. -/
def setLoop (l : Nat) (v : Loop) (s : State) : State := { s with tce := { s.tce with loops := setAt s.tce.loops l v } }

/-- Give a loop a new target (R461). -/
def retarget (l : Nat) (target : Int) (s : State) : State := setLoop l { loopOf s l with target := target, newTarget := true } s

/-- Speed of a step in µm/s (R363). -/
def stepSpeed (k : Nat) : Nat := 200000 * (6 + k)

/-- The tape is to run along a wrap at a speed step: REEL-T ramps to it; a transport that is off, stopping or in FAULT takes no
target (R461, R467). -/
def runTape (wrap k : Nat) (s : State) : State :=
  if tceUnpowered s || !(s.tce.state = .hold || s.tce.state = .moving) then s
  else retarget 3 (if wrapForward wrap then (stepSpeed k : Int) else -(stepSpeed k : Int)) { s with tce := { s.tce with state := .moving } }

/-- The tape moves (R467). -/
def tapeRuns (s : State) : Bool := s.tce.state = .moving || s.tce.state = .stopping

/-- The device is not in PS0: a change of state runs, or a deeper state is in force (R549). -/
def asleep (s : State) : Bool := decide (s.pwr.now ≠ 0) || s.pwr.goal.isSome

/-- The first request of a command is held: its block is powered down, or its domain is being reset (R546, R552). -/
def blockHeld (s : State) (op : Nat) : Bool :=
  if needsCart op then asleep s || resetting s 1 || ((op = opCartLoad || op = opCartUnload) && resetting s 3)
  else if op = opKeyLoad ∨ op = opKeyUnload then asleep s || resetting s 2 || resetting s 5
  else if op = opDictRead ∨ op = opDictWrite ∨ op = opFwDownload ∨ op = opFwActivate then resetting s 5
  else false

/-- Run the row of a command: only on a started command of these opcodes. The verdict of the fetch ends it, else its
effect runs once its blocks take the request. -/
def onCmd (slot : Nat) (ops : List Nat) (f : Cmd → State → State) (s : State) : State :=
  match getCmd s slot with
  | none => s
  | some c =>
    if c.stage = .started && ops.contains (eOpcode c.entry) then
      match c.verdict with
      | some (st, blk) => finish slot st blk s
      | none => if blockHeld s (eOpcode c.entry) then s else f c s
    else s

end Sys2Proof.Machine
end

