-- ==== Sys2Proof/Machine/Bpm.lean ====
section
/-! DEFINITION. The Buffer Pool Manager and the DRAM stack (05_buffer_memory.md): shared operations, then the meanings of
ALLOC, REF, GIVE, FREE, HELD_REQUEST_GRANT, POOL_STALL_LIMIT and PATROL_SCRUB. -/

namespace Sys2Proof.Machine

/-- Buffer size of a pool (R187). -/
def poolSize (p : Nat) : Nat := [256, 4096, 65536, 1048576, 25165824].getD p 0

/-- A pool's counters. -/
def poolOf (s : State) (p : Nat) : Pool := s.bpm.pools.getD p ⟨0, 0, 0, 0, []⟩

/-- Buffers of a pool in use. -/
def poolUsed (s : State) (p : Nat) : Nat := s.bpm.bufs.countP fun b => b.1 / 32768 == p

/-- Buffers now in a pool, `PoolActive` (R187). -/
def poolActive (s : State) (p : Nat) : Nat := (poolOf s p).count - (poolOf s p).quarantined.length

/-- Buffers now free, `PoolFree` (R187). -/
def poolFree (s : State) (p : Nat) : Nat := poolActive s p - poolUsed s p

/-- `PoolReserve` (R187). -/
def poolReserve (s : State) (p : Nat) : Nat := param s (0x2400 + p) 2

/-- Change a pool's counters. -/
def updPool (p : Nat) (g : Pool → Pool) (s : State) : State :=
  { s with bpm := { s.bpm with pools := s.bpm.pools.set p (g (poolOf s p)) } }

/-- Insert into a rising list. -/
def insertUp (n : Nat) : List Nat → List Nat
  | [] => [n]
  | m :: t => if n ≤ m then n :: m :: t else m :: insertUp n t

/-- Indices of a pool that are in use or withdrawn, rising. -/
def takenIdx (s : State) (p : Nat) : List Nat :=
  (poolOf s p).quarantined.foldl (fun l n => insertUp n l)
    ((s.bpm.bufs.filter fun b => b.1 / 32768 == p).map fun b => b.1 % 32768)

/-- The free index of rank `n` when the rising list of taken ones is passed over. -/
def nthFree (taken : List Nat) (n : Nat) : Nat := taken.foldl (fun i t => if t ≤ i then i + 1 else i) n

/-- The class an owner may use at most: 0 served, 1 delayed, 2 refused (R193). DESIGN CHOICE (log entry 111): an owner that stands
in no row of the table, such as the Record Packer, may use the refused class alone. -/
def topClass (owner : Nat) : Nat :=
  if owner = 0x80 ∨ owner = 0x90 then 0
  else if owner = 0x10 ∨ owner = 0x30 ∨ (0x50 ≤ owner ∧ owner ≤ 0x5F) ∨ (0x60 ≤ owner ∧ owner ≤ 0x67) ∨
    (0x70 ≤ owner ∧ owner ≤ 0x73) then 1
  else 2

/-- The class a request is served under: lowered to the highest that its owner may use (R193). -/
def classOf (owner cls : Nat) : Nat := max cls (topClass owner)

/-- A pool has a buffer available to a class (R194); none is while the data path initialises (R184). -/
def availableIn (s : State) (cls p : Nat) : Bool :=
  !resetting s 1 && decide ((if cls = 0 then 0 else poolReserve s p) < poolFree s p)

/-- Pools whose buffers hold a size, smallest first (R188). -/
def poolsFor (size : Nat) : List Nat := (List.range 5).filter fun p => size ≤ poolSize p

/-- Held requests that a free buffer of a pool suits: they are served before any new request (R195). -/
def dueHeld (s : State) (p : Nat) : Nat := s.bpm.held.countP fun h => decide (h.size ≤ poolSize p) && availableIn s h.cls p

/-- The pool that serves a held request (R188, R194). -/
def heldPool (s : State) (cls size : Nat) : Option Nat := (poolsFor size).find? (availableIn s cls)

/-- The pool that serves a new request: the held ones go first (R188, R194, R195). -/
def choosePool (s : State) (cls size : Nat) : Option Nat :=
  (poolsFor size).find? fun p =>
    availableIn s cls p && decide ((if cls = 0 then 0 else poolReserve s p) + dueHeld s p < poolFree s p)

/-- Fill of the dataset buffer pool (R198). -/
def datasetFill (s : State) : Nat := poolUsed s 4

/-- WRITEs whose transfers have not begun wait from now on (R199). -/
def throttle (s : State) : State :=
  { s with host := { s.host with cmds := s.host.cmds.map fun p => match p.2.stage with
    | .writing w => if w.lensKnown && decide (w.got = 0) && w.total != some 0 then
        (p.1, { p.2 with stage := .writing { w with throttled := true, released := false } }) else p
    | _ => p } }

/-- Set and clear `DatasetAbove` (R198, R199). -/
def updAbove (s : State) : State :=
  if datasetFill s ≥ param s 0x2404 9 then
    (if s.bpm.above then s else throttle { s with bpm := { s.bpm with above := true } })
  else if datasetFill s ≤ param s 0x2404 10 then { s with bpm := { s.bpm with above := false } }
  else s

/-- Take a buffer of a pool: the index is one of the free ones, which one is open (R189); the round-robin pointer moves to just
past the owner (R197). Answers its identity. -/
def takeBuf (owner p : Nat) (s : State) : State × Nat :=
  let free := poolFree s p
  let id := p * 32768 + nthFree (takenIdx s p) (Config.freeNat s.drawn % free)
  let s := { s with drawn := s.drawn + 1,
                    bpm := { s.bpm with bufs := Tab.put s.bpm.bufs id { owner := BitVec.ofNat 8 owner, count := 1 },
                                        rr := (owner + 1) % 256 } }
  let s := updPool p (fun x => { x with minFree := min x.minFree (free - 1) }) s
  (updAbove s, id)

/-- Record the response to a request, with the request's Flow Tag (R25). -/
def answer (owner : Nat) (r : Response) (id : Option Nat) (tag : BitVec 128) (s : State) : State :=
  { s with bpm := { s.bpm with answers := ⟨BitVec.ofNat 8 owner, r, id, tag⟩ :: s.bpm.answers } }

/-- Hold a request (R194, R195). Answers its identity. -/
def holdReq (owner cls size : Nat) (tag : BitVec 128) (s : State) : State × Nat :=
  let id := s.bpm.nextHeld
  let s := { s with bpm := { s.bpm with nextHeld := id + 1, held := s.bpm.held ++ [⟨id, BitVec.ofNat 8 owner, cls, size, tag⟩] } }
  let s := answer owner .backpressure none tag s
  if cls = 0 && !s.bpm.servedHeld then (raise 0x503 [] { s with bpm := { s.bpm with servedHeld := true } }, id) else (s, id)

/-- A delayed request of the hardware: the buffer granted, which the tag of its command then names, or the held request (R18,
R193, R194). -/
def askBuf (owner size : Nat) (tag : BitVec 128) (s : State) : State × Option Nat × Option Nat :=
  match choosePool s 1 size with
  | some p =>
    let r := takeBuf owner p s
    (retag tag r.2 (answer owner .done (some r.2) tag r.1), some r.2, none)
  | none =>
    let r := holdReq owner 1 size tag s
    (r.1, none, some r.2)

/-- DRAM base address of a pool: P4, P3, P2, P1, P0 in that order (R185). -/
def poolBase (s : State) (p : Nat) : Nat :=
  0x2A000000 + (((List.range 5).filter fun q => p < q).map fun q => (poolOf s q).count * poolSize q).sum

/-- The regions of the DRAM (R185). -/
inductive Region
  | management | journal | packer | streams | pools | index | unused
  deriving DecidableEq, Repr

/-- First address after the pools, where the cartridge index begins (R185). -/
def indexBase (s : State) : Nat := 0x2A000000 + ((List.range 5).map fun q => (poolOf s q).count * poolSize q).sum

/-- The region of a DRAM address (R185). -/
def dramRegion (s : State) (addr : Nat) : Region :=
  if addr < 0x10000000 then .management
  else if addr < 0x14000000 then .journal
  else if addr < 0x1A000000 then .packer
  else if addr < 0x2A000000 then .streams
  else if addr < indexBase s then .pools
  else if addr < indexBase s + s.index.limitMiB * 1048576 then .index
  else .unused

/-- The buffer that holds a DRAM address: pool * 32768 + index (R185). -/
def bufAt (s : State) (addr : Nat) : Option Nat :=
  (List.range 5).findSome? fun p =>
    let base := poolBase s p
    if base ≤ addr ∧ addr < base + (poolOf s p).count * poolSize p then some (p * 32768 + (addr - base) / poolSize p) else none

/-- The 256-byte blocks of a DRAM row: 2 KiB of one stack channel, which takes every eighth block (R179). -/
def rowBlocks (row : Nat) : List Nat := (List.range 8).map fun k => 16384 * (row / 8) + 256 * (8 * k + row % 8)

/-- The DRAM row of an address (R179). -/
def rowOf (addr : Nat) : Nat := addr / 16384 * 8 + addr / 256 % 8

/-- The bank, 0 to 127, of a row: 16 banks of its stack channel, 65,536 rows in each (R179). Which rows share a bank is free (log
entry 28); for any choice each bank has 65,536 rows. -/
def bankOf (row : Nat) : Nat := row % 8 * 16 + (row / 8 / 65536 + Config.dramBank (row % 8 + 8 * (row / 8 % 65536))) % 16

/-- Indices of a pool's buffers that contain a row (R183). -/
def rowBufs (s : State) (p row : Nat) : List Nat :=
  let base := poolBase s p
  (((rowBlocks row).filter fun a => decide (base ≤ a ∧ a < base + (poolOf s p).count * poolSize p)).map
    fun a => (a - base) / poolSize p).dedup

/-- A buffer contains a listed row (R183). -/
def onListedRow (s : State) (p i : Nat) : Bool := s.dram.listed.any fun r => (rowBufs s p r).contains i

/-- Withdraw a buffer from its pool (R183). -/
def quarantine (p i : Nat) (s : State) : State :=
  let s := updPool p (fun x => { x with quarantined := insertUp i x.quarantined }) s
  raise 0x507 [(3, p), (15, i)] (updPool p (fun x => { x with minFree := min x.minFree (poolFree s p) }) s)

/-- A buffer's count reached 0: it returns to its pool, or leaves it (R189, R183). -/
def returnBuf (id : Nat) (s : State) : State :=
  let s := { s with bpm := { s.bpm with bufs := Tab.del s.bpm.bufs id } }
  let s := if onListedRow s (id / 32768) (id % 32768) then quarantine (id / 32768) (id % 32768) s else s
  updAbove s

/-- Drop one reference (R189, R192). -/
def dropRef (id : Nat) (s : State) : State :=
  match Tab.get? s.bpm.bufs id with
  | none => s
  | some b =>
    if b.pinned then s
    else if b.count ≤ 1 then returnBuf id s
    else { s with bpm := { s.bpm with bufs := Tab.put s.bpm.bufs id { b with count := b.count - 1 } } }

/-- A misuse: the answer and its event with the buffer, the requester and the owner of record (R191). -/
def misuse (r : Response) (src owner id : Nat) (tag : BitVec 128) (s : State) : State :=
  let rec' := match Tab.get? s.bpm.bufs id with | some b => b.owner.toNat | none => 0
  raise src [(3, id / 32768), (15, id % 32768), (8, owner), (8, rec')] (answer owner r none tag s)

/-- Set a replacement cause and report its change from 0 to 1 (R441). -/
def setCause (n : Nat) (s : State) : State :=
  if s.health.causes.getLsbD n then s
  else raise 0x7C0 [(8, n)] { s with health := { s.health with causes := s.health.causes ||| BitVec.ofNat 32 (2 ^ n) } }

/-- One reference more to a buffer in use; at 255 the buffer is pinned and the event raised (R192). DESIGN CHOICE (log entry
111): Data of event 0x502 names the pool and the buffer index, as the events of R191 do; R192 names no items. -/
def addRef (id : Nat) (s : State) : State :=
  match Tab.get? s.bpm.bufs id with
  | none => s
  | some b =>
    if b.count ≥ 255 then
      raise 0x502 [(3, id / 32768), (15, id % 32768)]
        { s with bpm := { s.bpm with bufs := Tab.put s.bpm.bufs id { b with pinned := true } } }
    else { s with bpm := { s.bpm with bufs := Tab.put s.bpm.bufs id { b with count := b.count + 1 } } }

/-- FREE of a buffer (R183, R189, R191, R192). -/
def freeReq (owner id : Nat) (tag : BitVec 128) (s : State) : State :=
  match Tab.get? s.bpm.bufs id with
  | none => misuse .bufDoubleFree 0x500 owner id tag s
  | some b =>
    if b.owner.toNat ≠ owner then misuse .bufNotOwner 0x501 owner id tag s
    else dropRef id (answer owner .done none tag s)

/-- REF of a buffer (R189, R191, R192). -/
def refReq (owner id : Nat) (tag : BitVec 128) (s : State) : State :=
  match Tab.get? s.bpm.bufs id with
  | none => misuse .bufNotOwner 0x501 owner id tag s
  | some b =>
    if b.owner.toNat ≠ owner then misuse .bufNotOwner 0x501 owner id tag s
    else addRef id (answer owner .done none tag s)

/-- GIVE of a buffer: the tag of the command then names it (R18, R189, R191). -/
def giveReq (owner id newOwner : Nat) (tag : BitVec 128) (s : State) : State :=
  match Tab.get? s.bpm.bufs id with
  | none => misuse .bufNotOwner 0x501 owner id tag s
  | some b =>
    if b.owner.toNat ≠ owner then misuse .bufNotOwner 0x501 owner id tag s
    else retag tag id (answer owner .done none tag
      { s with bpm := { s.bpm with bufs := Tab.put s.bpm.bufs id { b with owner := BitVec.ofNat 8 newOwner } } })

/-- The hardware's own FREE of a buffer that an agent owns (R25, R189); it asks for none when it does not. -/
def freeOwn (owner id : Nat) (tag : BitVec 128) (s : State) : State :=
  match Tab.get? s.bpm.bufs id with
  | some b => if b.owner.toNat = owner then freeReq owner id tag s else s
  | none => s

/-- The hardware's own GIVE of a buffer (R25, R189), where the agent owns it. -/
def giveOwn (owner id newOwner : Nat) (tag : BitVec 128) (s : State) : State :=
  match Tab.get? s.bpm.bufs id with
  | some b => if b.owner.toNat = owner then giveReq owner id newOwner tag s else s
  | none => s

/-- The hardware's own REF of a buffer (R25, R189), where the agent owns it. -/
def refOwn (owner id : Nat) (tag : BitVec 128) (s : State) : State :=
  match Tab.get? s.bpm.bufs id with
  | some b => if b.owner.toNat = owner then refReq owner id tag s else s
  | none => s

/-- FREE of a buffer by the agent that owns it (R25, R189); none where it is free. -/
def freeHeld (id : Nat) (tag : BitVec 128) (s : State) : State :=
  match Tab.get? s.bpm.bufs id with
  | some b => freeReq b.owner.toNat id tag s
  | none => s

/-- FREE of a buffer that an agent may hold. -/
def freeOpt (id : Option Nat) (tag : BitVec 128) (s : State) : State := match id with | some i => freeHeld i tag s | none => s

/-- Carry out a REF, GIVE or FREE request. -/
def BufReq.run (r : BufReq) (s : State) : State :=
  match r.op with
  | .ref => refReq r.owner.toNat r.id r.tag s
  | .give n => giveReq r.owner.toNat r.id n.toNat r.tag s
  | .free => freeReq r.owner.toNat r.id r.tag s

/-- The oldest held request of the highest class that a free buffer suits, and its pool (R195). -/
def nextHeldReq (s : State) : Option (Held × Nat) :=
  [0, 1, 2].findSome? fun c =>
    (s.bpm.held.filter fun h => h.cls == c).findSome? fun h => (heldPool s c h.size).map fun p => (h, p)

/-- Serve one held request (R195): the state and the buffer granted with the request. -/
def grantHeld (s : State) : Option (State × Held × Nat) :=
  match nextHeldReq s with
  | none => none
  | some (h, p) =>
    let (s, id) := takeBuf h.owner.toNat p s
    let held := s.bpm.held.filter fun x => x.id != h.id
    let s := { s with bpm := { s.bpm with held := held, servedHeld := s.bpm.servedHeld && held.any fun x => x.cls == 0 } }
    some (retag h.tag id (answer h.owner.toNat .done (some id) h.tag s), h, id)

/-- POOL_STALL_LIMIT: the request stays held (R196). -/
def execPoolStallLimit (request : Nat) (s : State) : Result :=
  match s.bpm.held.find? fun h => h.id == request with
  | none => .next s
  | some h => .next (raise 0x504 [(8, h.owner.toNat), (25, h.size)] s)

/-- Withdraw the free buffers of a list of pool and index pairs (R183). -/
def quarantineFree (l : List (Nat × Nat)) (s : State) : State :=
  l.foldl (fun s h =>
    if (Tab.get? s.bpm.bufs (h.1 * 32768 + h.2)).isNone && !(poolOf s h.1).quarantined.contains h.2 then quarantine h.1 h.2 s
    else s) s

/-- Add a row to the repair list: its free buffers leave their pools (R183). -/
def listRow (row : Nat) (s : State) : State :=
  if s.dram.listed.contains row then s
  else
    let s := { s with dram := { s.dram with listed := insertUp row s.dram.listed } }
    quarantineFree ((List.range 5).flatMap fun p => (rowBufs s p row).map fun i => (p, i)) s

/-- A corrected word: counted, and the rate event after more than 1,000 in one second (R180, R203). -/
def countCe (s : State) : State :=
  let t := s.time.toNat
  let fresh := decide (t - s.dram.ceStart ≥ 1000000000)
  let n := if fresh then 1 else s.dram.ceSecond + 1
  let s := { s with dram := { s.dram with corrected := s.dram.corrected + 1, ceSecond := n,
                                          ceStart := if fresh then t else s.dram.ceStart } }
  raiseIf (decide (n = 1001)) 0x505 [] s

/-- A corrected word, and its row once the limit of corrected words in a scrub pass is reached (R180, R183). -/
def corrected (addr : Nat) (s : State) : State :=
  let row := rowOf addr
  let s := countCe s
  let n := Tab.getD s.dram.rowCe row 0 + 1
  let s := { s with dram := { s.dram with rowCe := Tab.put s.dram.rowCe row n } }
  if param s 0x2410 3 ≤ n then listRow row s else s

/-- An uncorrectable word: counted, reported with its address, and its row listed (R180, R183). -/
def uncorrected (addr : Nat) (s : State) : State :=
  let s := { s with dram := { s.dram with uncorrectable := s.dram.uncorrectable + 1 } }
  listRow (rowOf addr) (raise 0x506 [(34, addr)] s)

/-- What the check bits show on the DRAM reads of an operation: words corrected, and words delivered with the poison tag set
(R180). -/
def eccReads (l : List EccWord) (s : State) : State :=
  l.foldl (fun s w => if w.double then uncorrected w.addr.toNat s else corrected w.addr.toNat s) s

/-- Poisoned addresses among the words read. -/
def poisoned (l : List EccWord) : List Nat := (l.filter (·.double)).map fun w => w.addr.toNat

/-- A poisoned word lies in the index or the saved stream state (R181). -/
def poisonedIndex (s : State) (l : List EccWord) : Bool :=
  (poisoned l).any fun a => dramRegion s a == .index || dramRegion s a == .streams

/-- A poisoned word lies in a buffer (R181, R185). -/
def poisonedBuf (s : State) (l : List EccWord) (id : Nat) : Bool := (poisoned l).any fun a => bufAt s a == some id

/-- PATROL_SCRUB: one word read, written back when corrected; rows are listed. A scrub pass begins at address 0, and
`DramScrubHours` 0 disables the scrub (R180, R182, R183). -/
def execPatrolScrub (addr : BitVec 34) (single double : Bool) (s : State) : Result :=
  let a := addr.toNat
  if param s 0x2410 2 = 0 then .next s
  else
    let s := if a < 8 then { s with dram := { s.dram with rowCe := [] } } else s
    if double then .next (uncorrected a s) else if single then .next (corrected a s) else .next s

/-- A reset of another domain: held requests of its owners are discarded without response, and every reference its owners hold
is removed, with no event of R191 (R25, R195, R201). -/
def dropOwners (mine : Nat → Bool) (s : State) : State :=
  let held := s.bpm.held.filter fun h => !mine h.owner.toNat
  let s := { s with bpm := { s.bpm with held := held, servedHeld := s.bpm.servedHeld && held.any fun x => x.cls == 0,
                                        later := s.bpm.later.filter fun r => !mine r.owner.toNat } }
  (s.bpm.bufs.filter fun b => mine b.2.owner.toNat).foldl (fun s b => (List.range b.2.count).foldl (fun s _ => dropRef b.1 s) s) s

end Sys2Proof.Machine
end

