-- ==== Sys2Proof/Machine/Packer.lean ====
section
/-! DEFINITION. Shared operations of the Record Packer: runs, open blocks, cuts, lanes, dispatch, finished packets
(R153-R157, R209-R213, R226-R237). -/

namespace Sys2Proof.Machine

/-- A stream by its identifier. -/
def getStream (s : State) (n : Nat) : Option Stream := Tab.get? s.streams n

/-- The WRITE of a fetch order number: its slot, command and job. -/
def findWriter (s : State) (seq : Nat) : Option (Nat × Cmd × WriteJob) :=
  s.host.cmds.findSome? fun p =>
    if p.2.seq = seq then (match p.2.stage with | .writing w => some (p.1, p.2, w) | _ => none) else none

/-- Set the job of a WRITE. -/
def setJob (slot : Nat) (w : WriteJob) (s : State) : State := setStage slot (.writing w) s

/-- A block by its model identity. -/
def getBlk (s : State) (b : Nat) : Option Blk := Tab.get? s.pack.blks b

/-- Replace a block. -/
def setBlk (b : Nat) (v : Blk) (s : State) : State := { s with pack := { s.pack with blks := Tab.put s.pack.blks b v } }

/-- Change a block, where it exists. -/
def updBlk (b : Nat) (g : Blk → Blk) (s : State) : State := { s with pack := { s.pack with blks := Tab.upd s.pack.blks b g } }

/-- An engine. -/
def getEngine (s : State) (e : Nat) : Engine := Tab.getD s.pack.engines e {}

/-- Replace an engine. -/
def setEngine (e : Nat) (v : Engine) (s : State) : State :=
  { s with pack := { s.pack with engines := Tab.put s.pack.engines e v } }

/-- `EngineEnable` admits the engine (R232). -/
def engineEnabled (s : State) (e : Nat) : Bool := (param s 0x5000 6).testBit e

/-- An engine is of the class that encodes a stream of this class; stored streams use class W engines (R204, R206). -/
def engineServes (e comp : Nat) : Bool := if comp = 2 then decide (16 ≤ e) else decide (e < 16)

/-- A block waits for an engine. -/
def isQueued (b : Blk) : Bool := match b.stage with | .queued => true | _ => false

/-- The oldest block of a lane that waits for an engine (R231). -/
def nextOfLane (s : State) (stream lane : Nat) : Option Blk :=
  (s.pack.blks.find? fun p => isQueued p.2 && p.2.stream == stream && p.2.lane == lane).map (·.2)

/-- A lane is resident on an engine that is at work. -/
def laneBusy (s : State) (stream lane : Nat) : Bool :=
  s.pack.engines.any fun p => p.2.lane == some (stream, lane) && p.2.busy.isSome

/-- Another lane of the engine's class waits for an engine: a lane on an engine that is out of use is saved and waits too
(R231, R232). -/
def otherLaneWaits (s : State) (e : Nat) (lane : Option (Nat × Nat)) : Bool :=
  s.pack.blks.any fun p => isQueued p.2 && engineServes e p.2.comp && lane != some (p.2.stream, p.2.lane) &&
    !(s.pack.engines.any fun q => q.2.lane == some (p.2.stream, p.2.lane) && (q.2.busy.isSome || engineEnabled s q.1))

/-- Key of a saved lane state. -/
def laneKey (stream lane : Nat) : Nat := stream * 16 + lane

/-- Save the lane state of an engine and leave it without a lane (R230, R231). -/
def saveLane (e : Nat) (s : State) : State :=
  let g := getEngine s e
  match g.lane with
  | none => s
  | some (n, l) =>
    setEngine e { g with lane := none, state := {}, inRow := 0 }
      { s with pack := { s.pack with saved := Tab.put s.pack.saved (laneKey n l) g.state } }

/-- Put a block on an engine: lanes that must restart make it independent, and the encoder takes its parameters (R212, R239). -/
def putOnEngine (e : Nat) (b : Blk) (s : State) : State :=
  let must := ((getStream s b.stream).map fun x => x.mustIndep.contains b.lane).getD false
  let s := updStream b.stream (fun x => { x with mustIndep := x.mustIndep.filter (· != b.lane) }) s
  let g := getEngine s e
  let s := setBlk b.id { b with stage := if b.comp = 3 then .copying e else .onEngine e, independent := b.independent || must,
                                effort := if b.comp = 1 then param s 0x5010 1 else 0, segment := param s 0x5010 2,
                                check := param s 0x5020 1, loss := param s 0x5020 2 } s
  setEngine e { g with busy := some b.id, inRow := g.inRow + 1 } s

/-- At a block boundary: an engine out of use saves its lane state; one in use takes the next block of its lane, unless it
waits for a buffer (R229, R231, R232). -/
def dispatch (e : Nat) (s : State) : State :=
  let g := getEngine s e
  match g.lane with
  | none => s
  | some (st, l) =>
    if g.busy.isSome || g.bufReq.isSome then s
    else if !engineEnabled s e then saveLane e s
    else if decide (param s 0x5000 5 ≤ g.inRow) && otherLaneWaits s e g.lane then s
    else match nextOfLane s st l with
      | some b => putOnEngine e b s
      | none => s

/-- Every engine that may take a block takes one. -/
def dispatchAll (s : State) : State := (List.range 24).foldl (fun s e => dispatch e s) s

/-- Cut a stream's open block (R209-R213): the block takes its lane, its entry point and its place in the stream's order. -/
def cutBlock (n : Nat) (s : State) : State :=
  match getStream s n with
  | none => s
  | some x =>
    match x.openBlk with
    | none => s
    | some o =>
      if o.frags.isEmpty then s
      else
        let lane := x.cut % x.lanes
        let len := contentLen o.frags
        let b : Blk := {
          id := s.pack.nextBlk, stream := n, lane := lane, laneCount := x.lanes, comp := x.comp, frags := o.frags,
          independent := o.entry || decide (0 < x.entryLeft) || decide (x.comp = 3),
          entryDistance := if o.entry then 0 else x.entryBytes, src := o.src, flow := o.flow,
          key := if x.cipher then some x.keySlot else none }
        let x := { x with cut := x.cut + 1, openBlk := none,
                          entryLeft := if o.entry then x.lanes - 1 else x.entryLeft - 1,
                          entryBytes := (if o.entry then 0 else x.entryBytes) + len }
        let s := { s with pack := { s.pack with blks := Tab.put s.pack.blks b.id b, nextBlk := b.id + 1 } }
        dispatchAll { s with streams := Tab.put s.streams n x }

/-- The open block of a stream, or a new one (R209, R212, R239). -/
def openOf (s : State) (x : Stream) : OpenBlk :=
  x.openBlk.getD { entry := x.entryNext, size := s.blockSize, interval := s.independentInterval }

/-- Content bytes since the start of the entry point, with the open block (R209). -/
def sinceEntry (x : Stream) (o : OpenBlk) : Nat := (if o.entry then 0 else x.entryBytes) + contentLen o.frags

/-- Data dataset numbers that remain for datasets not yet opened (R129, R285). -/
def numbersLeft (s : State) : Nat :=
  dataWraps s.cart.wraps * s.cart.grid - s.cart.next - (s.wr.closedQ.countP fun d => d.number.isNone && d.kind != 2) -
    (if s.wr.filling.isSome then 1 else 0)

/-- `DatasetsLeft`: data dataset numbers above that of the next dataset (R129, R310). -/
def datasetsLeft (s : State) : Nat := dataWraps s.cart.wraps * s.cart.grid - s.cart.next

/-- No further dataset fits, and none is filling: a byte finds no room (R99, R129). -/
def mediumFull (s : State) : Bool := decide (numbersLeft s = 0) && s.wr.filling.isNone

/-- Entries the index holds (R174). -/
def indexCount (s : State) : Nat :=
  s.index.extents.length + s.index.relocs.length + s.index.moths.length + s.streams.length

/-- An entry that the index will hold beside those it has: an existing stream's entry takes the place of its last (R174). -/
def addsEntry (s : State) : IndexEntry → Bool
  | .stream e => (getStream s e.stream).isNone
  | .padding => false
  | _ => true

/-- Streams that have or will have an extent in the dataset filling or the next one: those with a block placed in it, a block
not yet placed, or an open block (R162). -/
def extentStreams (s : State) : List Nat :=
  ((match s.wr.filling with | some d => d.blocks.filterMap fun p => (getBlk s p.1).map (·.stream) | none => []) ++
    (s.pack.blks.filterMap fun p => if p.2.stage = .placed ∨ p.2.stage = .lost then none else some p.2.stream) ++
    (s.streams.filterMap fun p => match p.2.openBlk with | some o => if o.frags.isEmpty then none else some p.1 | none => none)).dedup

/-- Index entries not yet in the index: those of datasets closed or being written and not failed, those queued, and the extents to
come. -/
def pendingEntries (s : State) (streams : List Nat) : Nat :=
  ((s.wr.closedQ ++ s.wr.cocoon.filter fun d => d.state != .failed).map fun d => d.entries.countP (addsEntry s)).sum + s.wr.queued.countP (addsEntry s) +
    streams.length

/-- The entry that a WRITE of a stream needs fits in the index (R174). -/
def indexRoom (s : State) (n : Nat) : Bool :=
  let l := extentStreams s
  decide (64 * (indexCount s + pendingEntries s (if l.contains n then l else n :: l)) ≤ s.index.limitMiB * 2 ^ 20)

/-- The first `k` bytes of intake data: what is left, the bytes, and where they lie: buffer, offset, length. -/
def takeIntake : Nat → List (Nat × Nat × List Byte) → List (Nat × Nat × List Byte) × List Byte × List (Nat × Nat × Nat)
  | _, [] => ([], [], [])
  | k, (b, o, l) :: t =>
    if k = 0 then ((b, o, l) :: t, [], [])
    else if k < l.length then ((b, o + k, l.drop k) :: t, l.take k, [(b, o, k)])
    else
      let r := takeIntake (k - l.length) t
      (r.1, l ++ r.2.1, (b, o, l.length) :: r.2.2)

/-- Add a reference to a list of them: one that goes on where the last one ends is part of it (R229). -/
def addSrc (l : List (Nat × Nat × Nat)) (x : Nat × Nat × Nat) : List (Nat × Nat × Nat) :=
  match l.getLast? with
  | some (b, o, n) => if b = x.1 ∧ o + n = x.2.1 then l.dropLast ++ [(b, o, n + x.2.2)] else l ++ [x]
  | none => [x]

/-- End the record of the last fragment: Kind of a record that ends there, Truncated when closed as incomplete (R207). -/
def endFrag (trunc : Bool) (fs : List Frag) : List Frag :=
  match fs.getLast? with
  | some f => fs.dropLast ++ [{ f with kind := if f.kind = 1 then 0 else if f.kind = 2 then 3 else f.kind, truncated := trunc }]
  | none => fs

/-- Add data to the last fragment. -/
def growFrag (d : List Byte) (fs : List Frag) : List Frag :=
  match fs.getLast? with
  | some f => fs.dropLast ++ [{ f with data := f.data ++ d }]
  | none => fs

/-- The first `k` bytes of a list of places in intake buffers, and the rest. -/
def splitSrc : Nat → List (Nat × Nat × Nat) → List (Nat × Nat × Nat) × List (Nat × Nat × Nat)
  | _, [] => ([], [])
  | k, (b, o, n) :: t =>
    if k = 0 then ([], (b, o, n) :: t)
    else if k < n then ([(b, o, k)], (b, o + k, n - k) :: t)
    else
      let r := splitSrc (k - n) t
      ((b, o, n) :: r.1, r.2)

/-- The places in intake buffers of each fragment's data. -/
def fragSrcs : List Frag → List (Nat × Nat × Nat) → List (Frag × List (Nat × Nat × Nat))
  | [], _ => []
  | f :: t, src =>
    let r := splitSrc f.data.length src
    (f, r.1) :: fragSrcs t r.2

/-- Fewer bytes of an intake buffer are still to be encoded (R229). -/
def lessLeft (b n : Nat) (s : State) : State :=
  let left := Tab.getD s.pack.intakeLeft b 0 - n
  if left = 0 then
    { s with pack := { s.pack with intakeLeft := Tab.del s.pack.intakeLeft b, intakeFill := Tab.del s.pack.intakeFill b } }
  else { s with pack := { s.pack with intakeLeft := Tab.put s.pack.intakeLeft b left } }

/-- Free intake data of a WRITE that will enter no block (R235). -/
def freeIntake (w : WriteJob) (tag : BitVec 128) (s : State) : State :=
  w.intake.foldl (fun s p =>
    let s := lessLeft p.1 p.2.2.length s
    if (Tab.get? s.pack.intakeLeft p.1).isNone then freeHeld p.1 tag s else s) s

/-- The HQE hands the intake buffers of a WRITE on to the Record Packer (R189, R201, R229). -/
def giveIntake (w : WriteJob) (tag : BitVec 128) (s : State) : State := w.intake.foldl (fun s p => giveOwn 0x10 p.1 0x40 tag s) s

/-- Close records of a stream as incomplete; each counts once (R150, R152, R159). -/
def closeRecords (n : Nat) (nums : List Nat) (s : State) : State :=
  updStream n (fun x => nums.foldl (fun x r =>
    if x.incomplete.contains r then x
    else { x with incomplete := x.incomplete ++ [r], incompleteCount := sat32 (x.incompleteCount + 1) }) x) s

/-- Records of a WRITE wholly on medium: those before the lowest one with a byte in a block not yet released (R127). -/
def onMedium (s : State) (n seq first recs : Nat) : Nat :=
  let low := fun (m : Nat) (fs : List Frag) => fs.foldl (fun m f => if f.seq = seq then min m f.number else m) m
  let m := s.pack.blks.foldl (fun m p => if p.2.stream = n then low m p.2.frags else m) (first + recs)
  let m := match (getStream s n).bind (·.openBlk) with | some o => low m o.frags | none => m
  m - first

/-- A dataset by its model identity: filling, closed or in the Cocoon. -/
def dsById (s : State) (id : Nat) : Option Dataset := (s.wr.cocoon ++ s.wr.closedQ ++ s.wr.filling.toList).find? fun d => d.id == id

/-- The dataset that holds the last byte of a WRITE, where its number is known: that of its last block still listed, or of a
dataset that has left (R128). Answers none where that dataset has no number yet. -/
def lastDataset (s : State) (n seq : Nat) (w : WriteJob) : Option Nat :=
  match (s.pack.blks.filter fun p => p.2.stream == n && p.2.frags.any fun f => f.seq == seq).getLast? with
  | some p => match p.2.datasets.getLast? with
    | some id => (dsById s id).bind (·.number)
    | none => none
  | none => some w.lastDs

/-- Records of a WRITE that stay in place, of those that it has packed: those before the first one with a byte that was lost before
a dataset held it (R127, R129). -/
def keptRecords (w : WriteJob) (n : Nat) : Nat :=
  match w.lostAt with
  | some r => min n (r - w.run.getD 0)
  | none => n

/-- A WRITE of a stream has received its run, or has ended without one: it no longer keeps an ordered one waiting (R153, R154). -/
def runSettled (n : Nat) (s : State) : State := updStream n (fun x => { x with lastRun := s.time.toNat }) s

/-- The completion of a WRITE (R123, R127, R128, R129, R144). DESIGN CHOICE (log entry 112): where the dataset with its last byte
has no number yet, LastDataset is a free value. -/
def finishWrite (slot : Nat) (st : Option Status) (e : ErrInfo) (s : State) : State :=
  match getCmd s slot with
  | none => s
  | some c =>
    match c.stage with
    | .writing w =>
      let first := w.run.getD 0
      let medium := decide (eCMode c.entry = 1)
      let n := if w.run.isNone then 0
        else keptRecords w (if medium then onMedium s (eStream c.entry) c.seq first w.recIdx else w.recIdx)
      let whole := medium && decide (eCount c.entry ≤ w.recIdx)
      let s := if w.run.isNone then runSettled (eStream c.entry) s else s
      let last := lastDataset s (eStream c.entry) c.seq w
      let s := if decide (datasetsLeft s * payloadArea < s.earlyWarningMargin * 2 ^ 20) && w.run.isSome then
          noteInfo slot .earlyWarning s else s
      let num := recordNumOf w.run s
      let ds := if !whole then (0, num.2) else match last with
        | some d => (d, num.2)
        | none => (Config.freeNat num.2.drawn % 2 ^ 40, drew num.2)
      complete slot (fun c =>
        { baseCpl c (st.getD (infoStatus c.info)) with
          recordsDone := n, recordNum := num.1,
          specific := BitVec.ofNat 96 (packLsb [(8, c.info.toNat), (24, 0),
            (40, ds.1)]) })
        e ds.2
    | _ => s

/-- Offset in a WRITE's data of the byte that would be packed next (R79). -/
def byteOf (w : WriteJob) : Nat := (w.lens.take w.recIdx).sum + w.recOff

/-- Offset in a WRITE's data of the first byte of one of its records (R79). -/
def byteOfRecord (w : WriteJob) (r : Nat) : Nat := (w.lens.take (r - w.run.getD 0)).sum

/-- The lowest record of a WRITE with a byte in a block that no dataset holds whole, or in the open block: with no room left, those
bytes find none (R129). -/
def firstUnplaced (s : State) (n seq : Nat) : Option Nat :=
  let frags := (s.pack.blks.flatMap fun p => if p.2.stream = n && p.2.stage != .placed then p.2.frags else []) ++
    (match (getStream s n).bind (·.openBlk) with | some o => o.frags | none => [])
  (frags.filter fun f => f.seq == seq).foldl (fun a f => some (match a with | some m => min m f.number | none => f.number)) none

/-- Drop the run of a fetch order number from its stream. -/
def dropRun (n seq : Nat) (s : State) : State := updStream n (fun x => { x with runs := x.runs.filter fun r => r.seq != seq }) s

/-- Stop a WRITE by an ERROR: its begun record is closed as incomplete, the rest of its data is freed, its run is
withdrawn, and it completes (R127). -/
def stopWrite (slot : Nat) (st : Status) (e : ErrInfo) (s : State) : State :=
  match getCmd s slot with
  | none => s
  | some c =>
    match c.stage with
    | .writing w =>
      let n := eStream c.entry
      let s := if 0 < w.recOff then
          (match getStream s n with
           | none => s
           | some x =>
             let o := openOf s x
             let grows := match o.frags.getLast? with | some f => decide (f.seq = c.seq) && (f.kind == 1 || f.kind == 2) | none => false
             let r := w.run.getD 0 + w.recIdx
             let fs := if grows then endFrag true o.frags else o.frags ++ [{ number := r, kind := 3, truncated := true, seq := c.seq }]
             let o := { o with frags := fs, flow := if o.frags.isEmpty then tagWithRecord c.tag r else o.flow }
             closeRecords n [r] (updStream n (fun x => { x with openBlk := some o, entryNext := false, placed := r + 1 }) s))
        else s
      let s := freeIntake w c.tag (dropRun n c.seq s)
      let s := finishWrite slot (some st) e (setJob slot { w with intake := [], avail := 0 } s)
      s
    | _ => s

/-- A WRITE all of whose bytes lie in cut blocks completes, or waits for the medium (R124, R210). -/
def inOpen (s : State) (n seq : Nat) : Bool :=
  match (getStream s n).bind (·.openBlk) with
  | some o => o.frags.any fun f => f.seq == seq
  | none => false

def inBlks (s : State) (n seq : Nat) : Bool :=
  s.pack.blks.any fun p => p.2.stream == n && p.2.frags.any fun f => f.seq == seq

/-- Post the completion of a WRITE once its mode allows it. -/
def checkWrite (slot : Nat) (s : State) : State :=
  match getCmd s slot with
  | none => s
  | some c =>
    match c.stage with
    | .writing w =>
      if !w.lensKnown || w.run.isNone || decide (w.recIdx < eCount c.entry) || inOpen s (eStream c.entry) c.seq then s
      else if decide (eCMode c.entry = 1) && inBlks s (eStream c.entry) c.seq && !c.orphan then s
      else finishWrite slot none {} s
    | _ => s

/-- Every WRITE that may complete does. -/
def checkWrites (s : State) : State := (s.host.cmds.map (·.1)).foldl (fun s n => checkWrite n s) s

/-- What one packing action came to. -/
inductive Packed
  | idle
  | again (s : State)

/-- Close the run of a WRITE that was ended with host data stopped short, or that has no record left (R235). -/
def endRun (slot n : Nat) (c : Cmd) (w : WriteJob) (s : State) : State :=
  let s := freeIntake w c.tag (dropRun n c.seq s)
  if w.ended then dropCmd slot s else setJob slot { w with intake := [], avail := 0 } s

/-- One action of the Record Packer on a stream: a cut that its rules ask for, a fragment, or the end of a run
(R155, R207-R209, R235). DESIGN CHOICE (log entry 116): the fragment of a record of length 0 counts as a byte in a compression
block, so a WRITE with such a fragment placed counts as committed (R84). -/
def packAct (n : Nat) (s : State) : Packed :=
  match getStream s n with
  | none => .idle
  | some x =>
    match x.runs with
    | [] => .idle
    | r :: _ =>
      match findWriter s r.seq with
      | none => .again (dropRun n r.seq s)
      | some (slot, c, w) =>
        if r.count ≤ w.recIdx then .again (endRun slot n c w s)
        else
          let o := openOf s x
          let room := o.size - contentLen o.frags
          let len := w.lens.getD w.recIdx 0
          let left := len - w.recOff
          let number := r.first + w.recIdx
          let grows := match o.frags.getLast? with
            | some f => f.seq == r.seq && f.number == number && decide (0 < w.recOff) && (f.kind == 1 || f.kind == 2)
            | none => false
          let cutNow := cutBlock n
          let cutEntry := fun s => cutBlock n (updStream n (fun y => { y with entryNext := true }) s)
          let newBlock := o.frags.isEmpty
          if !newBlock && decide (o.interval ≤ sinceEntry x o) then .again (cutEntry s)
          else if !newBlock && (decide (room = 0) || (!grows && decide (room < 8)) || decide (65535 ≤ o.frags.length && !grows)) then
            .again (cutNow s)
          else if decide (w.recIdx = 0 ∧ w.recOff = 0) && eIndependent c.entry && !(newBlock && o.entry) then
            if newBlock then .again (updStream n (fun y => { y with entryNext := true, openBlk := none }) s) else .again (cutEntry s)
          else if decide (0 < left) && w.avail = 0 && !w.ended then .idle
          else
            let starts := decide (w.recOff = 0)
            let skip := if newBlock then 0 else number - x.placed
            let flow := if newBlock then tagWithRecord c.tag number else o.flow
            if starts && !newBlock && (decide (room < (if len = 0 then 8 else 9)) || decide (0xFFFFFF < skip)) then .again (cutNow s)
            else if !grows && !newBlock && decide (room < 9) && decide (0 < left) && decide (0 < w.avail) then .again (cutNow s)
            else if decide (0 < left) && w.avail = 0 then
              -- host data stopped short
              let fs := if grows then endFrag true o.frags
                else o.frags ++ [{ number := number, kind := if starts then 0 else 3, truncated := true,
                                   skip := if starts then skip else 0, seq := c.seq }]
              .again (endRun slot n c { w with begun := true } (closeRecords n [number] (updStream n (fun y =>
                { y with openBlk := some { o with frags := fs, flow := flow }, entryNext := false, placed := number + 1 }) s)))
            else if !indexRoom s n then
              .again (raise 0x541 [] (stopWrite slot .bufferExhausted { block := bStream, event := some 0x541, byteOffset := byteOf w } s))
            else if mediumFull s then
              let s := stopWrite slot .endOfMedium { block := bStream, byteOffset := byteOf w }
                (setJob slot { w with lostAt := firstUnplaced s n c.seq } s)
              .again (if s.cart.state = .ready then { s with cart := { s.cart with state := .readOnly } } else s)
            else
                let head := if grows then 0 else 8
                let k := min (min w.avail left) (min (room - head) (max 1 (o.interval - sinceEntry x o - head)))
                let t := takeIntake k w.intake
                let fs := if grows then o.frags
                  else o.frags ++ [{ number := number, kind := if starts then 1 else 2, skip := if starts then skip else 0, seq := c.seq }]
                let fs := growFrag t.2.1 fs
                let done := decide (k = left)
                let fs := if done then endFrag false fs else fs
                let o := { o with frags := fs, src := t.2.2.foldl addSrc o.src, flow := flow }
                let s := updStream n (fun y => { y with openBlk := some o, entryNext := false, placed := max y.placed (number + 1) }) s
                .again (setJob slot { w with intake := t.1, avail := w.avail - k, begun := true,
                                             recIdx := if done then w.recIdx + 1 else w.recIdx,
                                             recOff := if done then 0 else w.recOff + k } s)

/-- Pack a stream until nothing more can be done. -/
def packLoop (n : Nat) : Nat → State → State
  | 0, s => s
  | k + 1, s =>
    match packAct n s with
    | .idle => s
    | .again s => packLoop n k s

/-- Actions that suffice for a stream: bytes and records of its WRITEs. -/
def packFuel (s : State) (n : Nat) : Nat :=
  ((getStream s n).map fun x => (x.runs.map fun r => 4 * r.count + 16 +
    (match findWriter s r.seq with | some (_, _, w) => 4 * w.avail | none => 0)).sum).getD 0 + 16

/-- Cut a stream's open block when it is full (R209). -/
def cutFull (n : Nat) (s : State) : State :=
  match (getStream s n).bind (·.openBlk) with
  | some o =>
    let room := o.size - contentLen o.frags
    let grows := match o.frags.getLast? with | some f => f.kind == 1 || f.kind == 2 | none => false
    let reached := match getStream s n with | some x => decide (o.interval ≤ sinceEntry x o) | none => false
    if reached then cutBlock n (updStream n (fun y => { y with entryNext := true }) s)
    else if decide (room = 0) || (decide (room < 8) && !grows) || (decide (65535 ≤ o.frags.length) && !grows) then cutBlock n s
    else s
  | none => s

/-- Pack a stream and cut its block when it is full. -/
def packStream (n : Nat) (s : State) : State := cutFull n (packLoop n (packFuel s n) s)

/-- Bytes of intake buffers have been encoded into a finished packet (R229). -/
def consumeSrc (src : List (Nat × Nat × Nat)) (tag : BitVec 128) (s : State) : State :=
  src.foldl (fun s p =>
    let s := lessLeft p.1 p.2.2 s
    if (Tab.get? s.pack.intakeLeft p.1).isNone then freeOwn 0x40 p.1 tag s else s) s

/-- The references of a block's content: its fragments' data where it lies, after the 8 header bytes of each, which lie in no
buffer; `trail` is what lies in none before it (R207, R229). Answers what lies in none after it too. -/
def winRefs (trail : Nat) (frags : List Frag) (src : List (Nat × Nat × Nat)) : List WinRef × Nat :=
  (fragSrcs frags src).foldl (fun a p => match p.2 with
    | [] => (a.1, a.2 + 8)
    | x :: t => (a.1 ++ ⟨a.2 + 8, x.1, x.2.1, x.2.2⟩ :: t.map (fun y => ⟨0, y.1, y.2.1, y.2.2⟩), 0)) ([], trail)

/-- Content bytes that a list of references stands for. -/
def refBytes (l : List WinRef) : Nat := (l.map fun r => r.lead + r.len).sum

/-- The references as the device lists them: one for each run of bytes of a buffer (R229). -/
def refRuns (l : List WinRef) : List (Nat × Nat × Nat) := l.foldl (fun a r => addSrc a (r.buf, r.off, r.len)) []

/-- The references when the oldest `extra` content bytes leave the window (R229). -/
def trimRefs (extra : Nat) : List WinRef → List WinRef
  | [] => []
  | r :: t =>
    if extra = 0 then r :: t
    else if r.lead + r.len ≤ extra then trimRefs (extra - (r.lead + r.len)) t
    else if extra ≤ r.lead then { r with lead := r.lead - extra } :: t
    else ⟨0, r.buf, r.off + (extra - r.lead), r.len - (extra - r.lead)⟩ :: t

/-- Release the references of a lane state. -/
def freeRefs (refs : List WinRef) (tag : BitVec 128) (s : State) : State :=
  (refRuns refs).foldl (fun s b => freeOwn 0x40 b.1 tag s) s

/-- Hold a reference to each buffer of a class W block's content, and free those that leave the window of 65,536 content bytes
(R207, R229). Answers the references kept and the bytes after them. -/
def windowRefs (b : Blk) (refs : List WinRef) (trail : Nat) (s : State) : State × List WinRef × Nat :=
  let w := winRefs trail b.frags b.src
  let all := refs ++ w.1
  let s := ((refRuns all).drop (refRuns refs).length).foldl (fun s p => refOwn 0x40 p.1 b.flow s) s
  let kept := trimRefs (refBytes all + w.2 - 65536) all
  let gone := (refRuns all).take ((refRuns all).length - (refRuns kept).length)
  (gone.foldl (fun s p => freeOwn 0x40 p.1 b.flow s) s, kept, min w.2 65536)

/-- An engine copies a window into the buffer it has got and gives that buffer to the Record Packer; the list of its lane then
names it alone (R229). -/
def copyWindow (e buf : Nat) (tag : BitVec 128) (s : State) : State :=
  let s := giveOwn (0x50 + e) buf 0x40 tag s
  let g := getEngine s e
  let refs := g.state.refs
  let s := setEngine e { g with
    state := { g.state with refs := [⟨0, buf, 0, refBytes refs + g.state.trail⟩], trail := 0 }, bufReq := none } s
  dispatch e (freeRefs refs tag s)

/-- A window that would need a 17th reference is copied into a P2 buffer; the engine waits for one (R195, R229). -/
def shortenRefs (e : Nat) (tag : BitVec 128) (s : State) : State :=
  let g := getEngine s e
  if (refRuns g.state.refs).length ≤ 16 then s
  else
    let r := askBuf (0x50 + e) 65536 tag s
    match r.2.1 with
    | some id => copyWindow e id tag r.1
    | none => setEngine e { (getEngine r.1 e) with bufReq := r.2.2 } r.1

/-- The lane's next block is independent (R212). -/
def lanesMust (n lane : Nat) (s : State) : State :=
  updStream n (fun x => { x with mustIndep := if x.mustIndep.contains lane then x.mustIndep else x.mustIndep ++ [lane] }) s

/-- Discard the lane states of a stream and free what they hold (R20, R229). -/
def dropLanes (n : Nat) (s : State) : State :=
  let t := agentTag agStream s
  let s := (t.2.pack.engines.filter fun p => (p.2.lane.map (·.1)) == some n).foldl
    (fun s p => setEngine p.1 { (getEngine s p.1) with lane := none, state := {}, inRow := 0 } (freeRefs p.2.state.refs t.1 s)) t.2
  let s := (s.pack.saved.filter fun p => p.1 / 16 == n).foldl (fun s p => freeRefs p.2.refs t.1 s) s
  { s with pack := { s.pack with saved := s.pack.saved.filter fun p => p.1 / 16 != n } }

end Sys2Proof.Machine
end

