-- ==== Sys2Proof/Machine/ReadJobs.lean ====
section
/-! DEFINITION. What a READ, a READ_RAW or a rebuild still needs, what it gives, and how it ends (R130-R135, R175-R178,
R217, R233, R234, R265, R420-R423, R425-R430, R438). -/

namespace Sys2Proof.Machine

/-- Drop a held request, if there is one: what it was for is gone. -/
def dropHeld (id : Option Nat) (s : State) : State :=
  match id with
  | none => s
  | some i =>
    let held := s.bpm.held.filter fun h => h.id != i
    { s with bpm := { s.bpm with held := held, servedHeld := s.bpm.servedHeld && held.any fun x => x.cls == 0 } }

/-- The blocks read of a stream, each with the first record of the next one read. -/
def streamBlks (s : State) (n : Nat) : List (TapeBlk × Option Nat) :=
  let l := s.rd.blks.filter fun b => b.stream == n
  l.zip ((l.drop 1).map (fun b => some b.first) ++ [none])

/-- The READ and READ_RAW commands that a block may serve: slots (R208). -/
def blkReaders (s : State) (b : TapeBlk) : List Nat :=
  match (streamBlks s b.stream).find? fun p => p.1.id == b.id with
  | none => []
  | some p => s.host.cmds.filterMap fun q => match q.2.stage with
    | .reading _ =>
      let lo := eFirst q.2.entry
      let hi := lo + eCount q.2.entry
      if eStream q.2.entry == b.stream && decide (b.first < hi) && (match p.2 with | none => true | some m => decide (lo ≤ m)) then
        some q.1
      else none
    | _ => none

/-- The Flow Tag of a transfer of a block read: that of the first command it serves (R18). -/
def blkTag (s : State) (b : TapeBlk) : BitVec 128 :=
  match blkReaders s b with
  | n :: _ => tagOf s n
  | [] => internalTag agStream 0

/-- Size of a stored block as its header gives it (R214). -/
def TapeBlk.size (b : TapeBlk) : Nat := 32 + b.payloadLen + (if b.encrypted then 28 else 0)

/-- Every byte of a block that its header counts is known: none waits for the next dataset, and none was cut off (R265, R301). -/
def TapeBlk.complete (b : TapeBlk) : Bool := decide (b.short = 0) && decide (b.bytes.length = b.size)

/-- Free the buffers of a block read. -/
def freeTape (s : State) (b : TapeBlk) : State :=
  let t := blkTag s b
  dropHeld b.bufReq (dropHeld b.outReq (freeOpt b.buf t (freeOpt b.outBuf t s)))

/-- Forget what was read for commands that are gone, with its buffers; the counters stay. -/
def clearReads (s : State) : State :=
  let s := s.rd.blks.foldl freeTape s
  let s := match s.rd.cur with | some d => dropHeld d.bufReq (freeOpt d.buf d.flow s) | none => s
  { s with rd := { s.rd with queue := [], collecting := false, batch := false, urgent := none, cur := none, last := 0, seen := [],
                             gaps := [], headless := [], blks := [], tails := [] } }

/-- The number of a rebuild copy in its relocation entry until it is numbered. -/
def unnumbered : Nat := 0xFFFFFFFFFF

/-- Follow relocations to the last target (R175). -/
def followReloc (s : State) : Nat → Nat → Nat
  | 0, n => n
  | k + 1, n =>
    match s.index.relocs.find? fun r => r.oldDataset == n with
    | some r => if r.newDataset = n then n else followReloc s k r.newDataset
    | none => n

/-- The dataset on tape that holds the content of a dataset of the index (R175). -/
def currentOf (s : State) (n : Nat) : Nat := followReloc s s.index.relocs.length n

/-- Insert an extent among extents in order of dataset. -/
def insertExtent (e : Extent) : List Extent → List Extent
  | [] => [e]
  | x :: t => if e.dataset ≤ x.dataset then e :: x :: t else x :: insertExtent e t

/-- Extents of a stream that hold a record, in increasing dataset (R175). -/
def extentsOf (s : State) (n r : Nat) : List Extent :=
  (s.index.extents.filter fun e => e.stream == n && decide (e.first ≤ r ∧ r < e.first + e.count)).foldr insertExtent []

/-- Step 2 of R175: the index shows a record as incomplete. -/
def cutInIndex (exts : List Extent) (r : Nat) : Bool :=
  match exts.getLast? with
  | some e => decide (r + 1 = e.first + e.count) && (!e.endsHere || e.incomplete)
  | none => false

/-- An index-lost dataset may hold a record (R438). -/
def lostMayHold (s : State) (n r : Nat) : Bool :=
  let mine := s.index.extents.filter fun e => e.stream == n
  let below := (mine.filter fun e => decide (e.first ≤ r)).map (·.dataset)
  let above := (mine.filter fun e => decide (r < e.first)).map (·.dataset)
  s.index.lost.any fun d => below.all (fun x => decide (x < d)) && above.all (fun x => decide (d < x))

/-- A record is named by a moth-hole entry (R175). -/
def inMoth (s : State) (n r : Nat) : Bool :=
  s.index.moths.any fun m => m.stream == n && decide (m.first ≤ r ∧ r < m.first + m.count)

/-- Bytes of a record are still to enter a block: it is in a run and not wholly packed, or in the open block (R133). -/
def notYetPlaced (s : State) (n r : Nat) : Bool :=
  match getStream s n with
  | none => false
  | some x =>
    (match x.openBlk with | some o => o.frags.any fun f => f.number == r | none => false) ||
    x.runs.any fun q => match findWriter s q.seq with
      | some (_, _, w) => decide (q.first + w.recIdx ≤ r ∧ r < q.first + q.count)
      | none => false

/-- Blocks in device buffers that hold a record, in the order of their cuts (R133, R210). -/
def deviceBlks (s : State) (n r : Nat) : List Blk :=
  s.pack.blks.filterMap fun p =>
    if p.2.stream = n ∧ p.2.stage ≠ .lost ∧ p.2.frags.any (fun f => f.number == r) then some p.2 else none

/-- A block may hold a record: its header and the next block's say so (R208, R215). -/
def mayHold (r : Nat) (p : TapeBlk × Option Nat) : Bool :=
  decide (p.1.first ≤ r) && (match p.2 with | none => true | some m => decide (r ≤ m))

/-- A block holds a record as far as headers show: where the next block begins with the record, the fragment count decides
whether it begins here. -/
def holdsByHeader (r : Nat) (p : TapeBlk × Option Nat) : Bool :=
  decide (p.1.first ≤ r) && (match p.2 with
    | none => true
    | some m => decide (r < m) || (decide (r = m) && (decide (p.1.first = r) || decide (p.1.first + p.1.fragCount = r + 1))))

/-- The fragments of a record in blocks of device buffers begin and end it: no block of it is elsewhere. -/
def wholeIn (r : Nat) (dev : List Blk) : Bool :=
  let fs := dev.flatMap fun b => b.frags.filter fun f => f.number == r
  (match fs.head? with | some f => f.kind == 0 || f.kind == 1 | none => false) &&
    (match fs.getLast? with | some f => f.kind == 0 || f.kind == 3 | none => false)

/-- A block read is the first part of one that is still whole in a device buffer: its rest is in a dataset not yet released
(R133, R176). -/
def onDevice (s : State) (t : TapeBlk) : Bool :=
  decide (0 < t.short) && s.pack.blks.any fun p => p.2.stream == t.stream && p.2.stage != .lost && p.2.header == t.bytes.take 32

/-- Datasets missing for a record: those of its extents, those that hold the other part of a block across two datasets. -/
def missingFor (s : State) (n r : Nat) (exts : List Extent) : List Nat :=
  let seen := fun d => s.rd.seen.contains d
  let base := (exts.map (·.dataset)).filter fun d => !seen d
  if !base.isEmpty then base
  else
    let before := exts.filterMap fun e =>
      let d := e.dataset
      let head := s.rd.blks.find? fun b => b.stream == n && b.dataset == d
      let early := match head with | some b => decide (r ≤ b.first) | none => true
      let cont := match Tab.get? s.rd.tails d with | some t => !t.bytes.isEmpty | none => false
      if 0 < d && !seen (d - 1) && ((cont && early) || (Tab.get? s.rd.headless d).isSome) then some (d - 1) else none
    let after := (streamBlks s n).filterMap fun p =>
      if mayHold r p && decide (0 < p.1.short) && !onDevice s p.1 && !seen (p.1.dataset + 1) then some (p.1.dataset + 1) else none
    before ++ after

/-- Where a record is: the answers of R133 that need no block, the datasets still to be read, or its blocks on tape and in
device buffers. -/
inductive Loc
  | pending
  | missing (r : RecRes)
  | needs (l : List Nat)
  | here (tape : List (TapeBlk × Option Nat)) (dev : List Blk)

/-- Locate a record (R133, R152, R175, R438). -/
def locate (s : State) (n r : Nat) : Loc :=
  match getStream s n with
  | none => .missing .notPlaced
  | some x =>
    let gone := fun (a : RecRes) => if lostMayHold s n r then Loc.missing .mediumError else .missing a
    if x.next ≤ r then .missing .beyond
    else if x.incomplete.contains r then gone .incomplete
    else if notYetPlaced s n r then .pending
    else
      let dev := deviceBlks s n r
      let exts := extentsOf s n r
      let inDev := !dev.isEmpty
      if wholeIn r dev then .here [] dev
      else if !inDev && exts.isEmpty then gone .notPlaced
      else if !inDev && cutInIndex exts r then gone .incomplete
      else if inMoth s n r then .missing .stripeLost
      else
        let need := missingFor s n r exts
        if !need.isEmpty then .needs need
        else .here (if exts.isEmpty then [] else (streamBlks s n).filter fun p => mayHold r p && !onDevice s p.1) dev

/-- History of a block: the earlier blocks of its lane from the nearest independent one, or from the nearest one whose lane
state is kept, oldest first (R233). -/
inductive Hist
  | ready (l : List TapeBlk)
  | needs (n : Nat)
  | lost

/-- The dataset of a stream before a dataset. -/
def earlierDs (s : State) (n d : Nat) : Option Nat :=
  (s.index.extents.filter fun e => e.stream == n && decide (e.dataset < d)).foldl (fun m e => match m with
    | some k => some (max k e.dataset)
    | none => some e.dataset) none

/-- Walk back over the blocks of a stream before block `b`, newest first, `left` content bytes at most; `at'` is the dataset
reached (R233). -/
def walkBack (s : State) (b : TapeBlk) : Nat → Nat → Nat → List TapeBlk → List TapeBlk → Hist
  | 0, _, _, _, _ => .lost
  | k + 1, left, at', acc, l =>
    let here := match l with | p :: _ => p.dataset == at' | [] => false
    if left = 0 then .lost
    else if here then
      match l with
      | [] => .lost
      | p :: t =>
        if left < p.contentLen then .lost
        else if p.lane ≠ b.lane then walkBack s b k (left - p.contentLen) at' acc t
        else if p.independent || p.after.isSome then .ready (p :: acc)
        else walkBack s b k (left - p.contentLen) at' (p :: acc) t
    else match earlierDs s b.stream at' with
      | none => .lost
      | some d =>
        if !s.rd.seen.contains d then .needs d
        else if s.rd.gaps.contains d then .lost
        else walkBack s b k left d acc l

/-- The history of a block (R233). -/
def histOf (s : State) (b : TapeBlk) : Hist :=
  if b.raw || b.independent then .ready []
  else
    let before := (s.rd.blks.filter fun p => p.stream == b.stream &&
      (decide (p.dataset < b.dataset) || (p.dataset == b.dataset && decide (p.pos < b.pos)))).reverse
    walkBack s b (before.length + s.index.extents.length + 2) b.distance b.dataset [] before

/-- The stream's CipherEn. -/
def ciphered (s : State) (n : Nat) : Bool := ((getStream s n).map (·.cipher)).getD false

/-- What stands between a block read and its fragments. -/
inductive BState
  | good (l : List Frag)
  | wait
  | needs (n : Nat)
  | bad (r : RecRes)

/-- A block in the history fails its dependants (R234, R265, R420). -/
def histBad (l : List TapeBlk) : Option RecRes :=
  if l.any fun p => p.unreadable || p.fault || decide (0 < p.short) then some .mediumError
  else if l.any (·.authFailed) then some .authFail
  else none

/-- The state of a block read (R233, R234, R265, R269, R420). -/
def blkState (s : State) (b : TapeBlk) : BState :=
  if b.authFailed then .bad .authFail
  else if b.unreadable || b.fault || decide (0 < b.short) then .bad .mediumError
  else match b.frags with
    | some l => .good l
    | none =>
      if ciphered s b.stream && b.plain.isNone then (if s.cip.failed then .bad .internalError else .wait)
      else match histOf s b with
        | .needs n => .needs n
        | .lost => .bad .mediumError
        | .ready l =>
          match histBad l with
          | some r => .bad r
          | none => if s.cip.failed && ciphered s b.stream && l.any (·.plain.isNone) then .bad .internalError else .wait

/-- What a record number comes to for a READ. -/
inductive Rs
  | wait
  | needs (l : List Nat)
  | res (r : RecRes)

/-- The first failure among blocks that hold a record as far as headers show. -/
def firstBad (s : State) (r : Nat) (l : List (TapeBlk × Option Nat)) : Option RecRes :=
  l.findSome? fun p => match blkState s p.1 with
    | .bad x => if holdsByHeader r p then some x else none
    | _ => none

/-- The first failure among blocks that may hold a record: where its first fragment is not among those that could be decoded, it
lies there, numbers skipped in that block having hidden it (R208, R234). -/
def anyBad (s : State) (l : List (TapeBlk × Option Nat)) : Option RecRes :=
  l.findSome? fun p => match blkState s p.1 with
    | .bad x => some x
    | _ => none

/-- A fragment begins its record (R207). -/
def Frag.begins (f : Frag) : Bool := f.kind == 0 || f.kind == 1

/-- A fragment ends its record (R207). -/
def Frag.ends (f : Frag) : Bool := f.kind == 0 || f.kind == 3

/-- The record of the fragments collected for it: from one that begins it to one that ends it (R133, R175, R207, R438). -/
def assemble (s : State) (n r : Nat) (fs : List Frag) (rebuilt : Bool) : RecRes :=
  match fs.head?, fs.getLast? with
  | some b, some f =>
    if f.truncated || !f.ends || !b.begins then (if lostMayHold s n r then .mediumError else .incomplete)
    else .data (fs.flatMap (·.data)) rebuilt
  | _, _ => if lostMayHold s n r then .mediumError else .notPlaced

/-- The result of one record number of a READ (R133, R175, R422). -/
def recStatus (s : State) (n r : Nat) : Rs :=
  match locate s n r with
  | .pending => .wait
  | .missing x => .res x
  | .needs l => .needs l
  | .here tape dev =>
    match firstBad s r tape with
    | some x => .res x
    | none =>
      let needs := tape.filterMap fun p => match blkState s p.1 with | .needs d => some d | _ => none
      let waits := tape.any fun p => match blkState s p.1 with | .wait => true | _ => false
      if !needs.isEmpty then .needs needs
      else if waits then .wait
      else
        let good := tape.filterMap fun p => match blkState s p.1 with
          | .good l => some (p.1, l.filter fun f => f.number == r)
          | _ => none
        let gap := (extentsOf s n r).any fun e => s.rd.gaps.contains e.dataset
        let fs := (good.flatMap (·.2)) ++ dev.flatMap fun b => b.frags.filter fun f => f.number == r
        let headless := match fs.head? with | some f => !f.begins | none => false
        let endless := match fs.getLast? with | some f => !f.ends | none => true
        match (if headless then anyBad s tape else none) with
        | some x => .res x
        | none =>
          if gap && (headless || endless) then .res .mediumError
          else .res (assemble s n r fs (good.any fun p => p.1.rebuilt && !p.2.isEmpty))

/-- The block that makes another one unreadable: itself, or the first in its history (R234, R265, R420). -/
def culprit (s : State) (b : TapeBlk) : Option TapeBlk :=
  let bad := fun (p : TapeBlk) => p.unreadable || p.fault || p.authFailed || decide (0 < p.short)
  if bad b then some b else match histOf s b with | .ready l => l.find? bad | _ => none

/-- What the error log says of a record that a READ or READ_RAW could not give: the reporting block, the channel, the event,
and where the block lies (R79, R80). -/
def readFail (s : State) (n r : Nat) : ErrInfo :=
  match locate s n r with
  | .here tape _ =>
    match (tape.filter (holdsByHeader r)).findSome? fun p => culprit s p.1 with
    | some b =>
      let place := (placeOf s.cart.wraps s.cart.grid b.phys).1
      if b.authFailed then { block := bCipher, event := some 0x521, loc := some (place, b.phys) }
      else if b.fault then { block := if b.comp = 2 then bCompD else bCompW, event := some 0x512, loc := some (place, b.phys) }
      else { block := bBuilder, channel := b.badChan.getD 0xFF, event := if b.unreadable then some 0x562 else none,
             loc := some (place, b.phys) }
    | none => { block := bBuilder }
  | _ => { block := bStream }

/-- What a READ has put together so far. -/
structure ReadAcc where
  data : List Byte := []
  lens : List Nat := []
  done : Nat := 0
  skipped : Nat := 0
  rebuilt : Nat := 0
  residue : Nat := 0
  given : Option Nat := none
  info : Nat := 0
  stop : Option Status := none
  /-- The record at which it stopped. -/
  at' : Nat := 0

/-- Length list entry and status of a record that is not delivered; none for those not written to the list (R133). -/
def RecRes.skip : RecRes → Option (Nat × Status)
  | .notPlaced => some (0xFFFFFFFF, .recordNotFound)
  | .incomplete => some (0xFFFFFFFE, .recordIncomplete)
  | .stripeLost => some (0xFFFFFFFD, .stripeLost)
  | _ => none

/-- The status of a record that ends a READ with no list entry (R133, R269). -/
def RecRes.halt : RecRes → Status
  | .authFail => .authFail
  | .internalError => .internalError
  | .beyond => .recordNotFound
  | _ => .mediumError

/-- Handle the records of a READ from number `r`, `k` of them left; where it must wait, none, or its end under the ERROR of the
command (R131-R134, R144). DESIGN CHOICE (log entry 113): a rebuilt record that does not fit the buffer counts in RecordsRebuilt
and sets REBUILT_ON_READ, whatever part of it was delivered; the manual speaks of a delivered record. -/
def readWalk (s : State) (n room : Nat) (skipMissing : Bool) (ends : Option Status) : Nat → Nat → ReadAcc → Option ReadAcc
  | 0, _, a => some a
  | k + 1, r, a =>
    match recStatus s n r with
    | .wait => ends.map fun st => { a with stop := some st, at' := r }
    | .needs _ => ends.map fun st => { a with stop := some st, at' := r }
    | .res (.data d rebuilt) =>
      let left := room - a.data.length
      let a := { a with lens := a.lens ++ [d.length], given := some (a.given.getD r),
                        rebuilt := a.rebuilt + rebuilt.toNat, info := if rebuilt then a.info ||| 2 else a.info }
      if d.length ≤ left then readWalk s n room skipMissing ends k (r + 1) { a with data := a.data ++ d, done := a.done + 1 }
      else some { a with data := a.data ++ d.take left, residue := d.length - left, info := a.info ||| 1 }
    | .res x =>
      match x.skip with
      | some (e, st) =>
        let a := { a with lens := a.lens ++ [e] }
        if skipMissing then
          readWalk s n room skipMissing ends k (r + 1) { a with done := a.done + 1, skipped := a.skipped + 1, info := a.info ||| 16 }
        else some { a with stop := some st, at' := r }
      | none => some { a with stop := some x.halt, at' := r }

/-- Set the INFO conditions of a command. -/
def addInfo (slot info : Nat) (s : State) : State := updCmd slot (fun c => { c with info := c.info ||| BitVec.ofNat 8 info }) s

/-- Write a length list to the host (R130, R133). -/
def giveLens (slot : Nat) (c : Cmd) (lens : List Nat) (s : State) : State :=
  if eLenList c.entry && !lens.isEmpty then emit (.lengths slot (4 * fld c.entry 32 2 62) lens) s else s

/-- Deliver a READ and complete it (R65, R131-R134, R144); the error log names the offset reached in its data (R79). -/
def endRead (slot : Nat) (c : Cmd) (e : ErrInfo) (a : ReadAcc) (s : State) : State :=
  let s := giveLens slot c a.lens (toHostMem slot true a.data s)
  let p := recordNumOf a.given (addInfo slot a.info s)
  complete slot (fun c =>
    { baseCpl c (a.stop.getD (infoStatus c.info)) with
      recordsDone := a.done, recordNum := p.1, residue := if a.stop.isNone then a.residue else 0,
      specific := BitVec.ofNat 96 (packLsb [(8, c.info.toNat), (24, 0), (16, a.skipped), (16, 0), (16, a.rebuilt), (16, 0)]) })
    { e with byteOffset := a.data.length } p.2

/-- A stored block that READ_RAW returns: whether it is in device buffers, its identity, bytes, rebuilt flag. -/
structure RawBlk where
  dev : Bool
  id : Nat
  bytes : List Byte
  rebuilt : Bool
  /-- FirstRecord of its header (R215). -/
  first : Nat
  /-- Its fragments, where the device knows them without a key. -/
  frags : Option (List Frag)

/-- What a record number comes to for a READ_RAW. -/
inductive RawRs
  | wait
  | needs (l : List Nat)
  | stop (st : Status) (before : List RawBlk)
  /-- The blocks to return, and whether every byte of the record lies in them. -/
  | blocks (whole : Bool) (l : List RawBlk)

/-- Fragments of the content of a block, numbered (R207, R208). -/
def contentFrags (first : Nat) (content : List Byte) : Option (List Frag) :=
  match splitFrags (content.length + 1) content with
  | none => none
  | some l => (numberFrags none first l).map fun p => p.map fun q =>
      { number := q.1, kind := q.2.kind, truncated := q.2.truncated, skip := q.2.skip, data := q.2.data }

/-- Payload of a stored block that is not encrypted. -/
def TapeBlk.payload (b : TapeBlk) : List Byte := (b.bytes.drop 32).take b.payloadLen

/-- A block read as READ_RAW returns it. -/
def tapeRaw (b : TapeBlk) : RawBlk :=
  ⟨false, b.id, b.bytes, b.rebuilt, b.first, match b.frags with
    | some l => some l
    | none => if b.raw && !b.encrypted then contentFrags b.first b.payload else none⟩

/-- A block read holds a record: by its fragments where the device knows them, else as far as headers show (R135, R215). -/
def rawHolds (r : Nat) (p : TapeBlk × Option Nat) : Bool :=
  match (tapeRaw p.1).frags with
  | some l => l.any fun f => f.number == r
  | none => holdsByHeader r p

/-- What the fragments of a record in the blocks that hold it come to, where the device knows them all: none for a number never
placed, else whether it is there from its first byte to its last (R84, R133, R135, R207). -/
def rawWhole (r : Nat) (l : List RawBlk) : Option Bool :=
  if l.all (·.frags.isSome) then
    let fs := l.flatMap fun b => (b.frags.getD []).filter fun f => f.number == r
    match fs.head?, fs.getLast? with
    | some b, some f => some (b.begins && f.ends && !f.truncated)
    | _, _ => none
  else some true

/-- The content of a block that is not encrypted is known to the device, which says where a record lies in it (R217): what is
still to be decoded for that. -/
def rawState (s : State) (b : TapeBlk) : BState :=
  if b.encrypted || b.raw || b.unreadable || !b.complete || ciphered s b.stream then .good [] else blkState s b

/-- The blocks of one record number for READ_RAW (R133, R135, R217, R423); of an incomplete record, those on tape (R159). -/
def rawStatus (s : State) (n r : Nat) : RawRs :=
  let tapeOnly := fun (l : List (TapeBlk × Option Nat)) (k : List RawBlk → RawRs) =>
    let needs := l.filterMap fun p => match rawState s p.1 with | .needs d => some d | _ => none
    let waits := l.any fun p => match rawState s p.1 with | .wait => true | _ => false
    if !needs.isEmpty then RawRs.needs needs else if waits then .wait
    else k (((l.map (·.1)).takeWhile fun b => !b.unreadable && b.complete).map tapeRaw)
  match locate s n r with
  | .pending => .wait
  | .needs l => .needs l
  | .missing .incomplete =>
    let exts := extentsOf s n r
    let need := missingFor s n r exts
    if !need.isEmpty then .needs need
    else
      let mine := if exts.isEmpty then [] else (streamBlks s n).filter fun p => mayHold r p && rawHolds r p && p.1.complete
      tapeOnly mine fun good => if good.length < mine.length then .stop .mediumError good else .blocks false good
  | .missing x => match x.skip with
    | some (_, st) => .stop st []
    | none => .stop x.halt []
  | .here tape dev =>
    let mine := tape.filter (rawHolds r)
    let gap := (extentsOf s n r).any fun e => s.rd.gaps.contains e.dataset
    tapeOnly mine fun good =>
      let all := good ++ dev.map fun b => ⟨true, b.id, b.stored, false, b.first, some b.frags⟩
      let whole := rawWhole r all
      if good.length < mine.length || (gap && whole != some true) then .stop .mediumError good
      else if dev.any fun b => !(match b.stage with | .offered => true | .placed => true | _ => false) then .wait
      else match whole with
        | some w => if !w && lostMayHold s n r then .stop .mediumError good else .blocks w all
        | none => .stop (if lostMayHold s n r then .mediumError else .recordNotFound) []

/-- What a READ_RAW has put together so far. -/
structure RawAcc where
  blks : List RawBlk := []
  size : Nat := 0
  lens : List (Option Nat) := []
  done : Nat := 0
  residue : Nat := 0
  given : Option Nat := none
  stop : Option Status := none
  /-- The record at which it stopped. -/
  at' : Nat := 0

/-- Add blocks not yet returned while they fit; the size of the first that does not fit (R135). -/
def addRaw (room : Nat) : List RawBlk → RawAcc → RawAcc × Option Nat
  | [], a => (a, none)
  | b :: t, a =>
    if a.blks.any fun x => x.dev == b.dev && x.id == b.id then addRaw room t a
    else if room < a.size + b.bytes.length then (a, some b.bytes.length)
    else addRaw room t { a with blks := a.blks ++ [b], size := a.size + b.bytes.length }

/-- Length of a record in its blocks, where the device knows their fragments. -/
def rawLength (r : Nat) (l : List RawBlk) : Option Nat :=
  if l.all (·.frags.isSome) then
    some ((l.map fun b => (((b.frags.getD []).filter fun f => f.number == r).map fun f => f.data.length).sum).sum)
  else none

/-- Handle the records of a READ_RAW from number `r`, `k` of them left; where it must wait, none, or its end under the ERROR of
the command. An incomplete record is not counted, and its list entry is that of R133 (R135, R159, R423). -/
def rawWalk (s : State) (n room : Nat) (ends : Option Status) : Nat → Nat → RawAcc → Option RawAcc
  | 0, _, a => some a
  | k + 1, r, a =>
    match rawStatus s n r with
    | .wait => ends.map fun st => { a with stop := some st, at' := r }
    | .needs _ => ends.map fun st => { a with stop := some st, at' := r }
    | .stop st l =>
      let p := addRaw room l a
      match p.2 with
      | some size => some { p.1 with residue := size }
      | none => some { p.1 with stop := some st, at' := r }
    | .blocks whole l =>
      let p := addRaw room l a
      match p.2 with
      | some size => some { p.1 with residue := size }
      | none =>
        rawWalk s n room ends k (r + 1)
          { p.1 with done := a.done + whole.toNat, lens := a.lens ++ [if whole then rawLength r l else some 0xFFFFFFFE],
                     given := some (a.given.getD r) }

/-- Offset of a record's first data byte in the content of a block (R217). -/
def fragOffset (r : Nat) : Nat → List Frag → Option Nat
  | _, [] => none
  | off, f :: t => if f.number = r then some (off + 8) else fragOffset r (off + 8 + f.data.length) t

/-- A known value, or a free one of 32 bits: the device has no key to the content (R135, R266). -/
def knownOr (v : Option Nat) (s : State) : Nat × State :=
  match v with
  | some x => (x, s)
  | none => (Config.freeNat s.drawn % 0x100000000, drew s)

/-- Known values, or free ones. -/
def knownAll : List (Option Nat) → State → List Nat × State
  | [], s => ([], s)
  | v :: t, s =>
    let p := knownOr v s
    let q := knownAll t p.2
    (p.1 :: q.1, q.2)

/-- Deliver a READ_RAW and complete it (R135, R144, R423). -/
def endRaw (slot : Nat) (c : Cmd) (e : ErrInfo) (a : RawAcc) (s : State) : State :=
  let l := knownAll a.lens (toHostMem slot true (a.blks.flatMap (·.bytes)) s)
  let s := giveLens slot c l.1 l.2
  let info := (if 0 < a.residue then 1 else 0) ||| (if a.blks.any (·.rebuilt) then 2 else 0)
  let p := recordNumOf a.given (addInfo slot info s)
  let off := match a.blks with
    | [] => some 0
    | b :: _ => (b.frags.bind (fragOffset (eFirst c.entry) 0)).orElse fun _ => if b.first = eFirst c.entry then some 8 else none
  let o := knownOr off p.2
  complete slot (fun c =>
    { baseCpl c (a.stop.getD (infoStatus c.info)) with
      recordsDone := a.done, recordNum := p.1, residue := if a.stop.isNone then a.residue else 0,
      specific := BitVec.ofNat 96 (packLsb [(32, a.blks.length), (32, o.1), (8, c.info.toNat), (24, 0)]) })
    { e with byteOffset := a.size } o.2

/-- Complete a READ or READ_RAW once nothing it needs is missing; nothing is delivered once its queue pair is being reset (R83). -/
def tryRead (slot : Nat) (s : State) : State :=
  match getCmd s slot with
  | none => s
  | some c =>
    match c.stage with
    | .reading j =>
      match j.room with
      | none => s
      | some room =>
        let e := c.entry
        if cutOff s c then s
        else if eOpcode e = opRead then
          match readWalk s (eStream e) room (eSkipMissing e) none (eCount e) (eFirst e) {} with
          | some a => endRead slot c (readFail s (eStream e) a.at') a s
          | none => s
        else match rawWalk s (eStream e) room none (eCount e) (eFirst e) {} with
          | some a => endRaw slot c (readFail s (eStream e) a.at') a s
          | none => s
    | _ => s

/-- A READ or READ_RAW ends under an ERROR before all of it is there: what is there is delivered, and its INFO conditions are
recorded (R65, R131, R144). -/
def endReadEarly (slot : Nat) (c : Cmd) (j : ReadJob) (st : Status) (i : ErrInfo) (s : State) : State :=
  let e := c.entry
  if eOpcode e = opRead then
    match readWalk s (eStream e) (j.room.getD 0) (eSkipMissing e) (some st) (if j.room.isSome then eCount e else 0) (eFirst e) {} with
    | some a => endRead slot c i { a with stop := some st } s
    | none => s
  else
    match rawWalk s (eStream e) (j.room.getD 0) (some st) (if j.room.isSome then eCount e else 0) (eFirst e) {} with
    | some a => endRaw slot c i { a with stop := some st } s
    | none => s

/-- Datasets that a READ or READ_RAW needs: those of its records up to the first that ends it (R176). -/
def jobNeeds (s : State) (raw : Bool) (n room : Nat) (skipMissing : Bool) : Nat → Nat → Nat → List Nat
  | 0, _, _ => []
  | k + 1, r, used =>
    if room < used then []
    else if raw then
      match rawStatus s n r with
      | .needs l => l ++ jobNeeds s raw n room skipMissing k (r + 1) used
      | .wait => jobNeeds s raw n room skipMissing k (r + 1) used
      | .stop _ _ => []
      | .blocks _ _ => jobNeeds s raw n room skipMissing k (r + 1) used
    else
      match recStatus s n r with
      | .needs l => l ++ jobNeeds s raw n room skipMissing k (r + 1) used
      | .wait => jobNeeds s raw n room skipMissing k (r + 1) used
      | .res (.data d _) => jobNeeds s raw n room skipMissing k (r + 1) (used + d.length)
      | .res x => if x.skip.isSome && skipMissing then jobNeeds s raw n room skipMissing k (r + 1) used else []

/-- The next dataset of a rebuild, passing over those that failed on write (R425). -/
def rebuildNext (s : State) : Nat → RebuildJob → Nat
  | 0, j => j.next
  | k + 1, j => if s.index.failed.contains j.next then rebuildNext s k { j with next := j.next + 1 } else j.next

/-- The rebuild in flight: slot and job. -/
def findRebuild (s : State) : Option (Nat × RebuildJob) :=
  s.host.cmds.findSome? fun p => match p.2.stage with | .rebuilding j => some (p.1, j) | _ => none

/-- Datasets that a rebuild needs (R425). -/
def rebuildNeeds (s : State) : List Nat :=
  match findRebuild s with
  | some (_, j) =>
    let n := rebuildNext s s.index.failed.length j
    if j.stopped || decide (j.last < n) then [] else [n]
  | none => []

/-- Datasets that the commands in flight need, without repeats (R176, R178). -/
def allNeeds (s : State) : List Nat :=
  ((s.host.cmds.flatMap fun p => match p.2.stage with
    | .reading j =>
      let e := p.2.entry
      jobNeeds s (eOpcode e == opReadRaw) (eStream e) (j.room.getD 0) (eSkipMissing e) (if j.room.isSome then eCount e else 0)
        (eFirst e) 0
    | _ => []) ++ rebuildNeeds s).dedup

/-- A READ or READ_RAW is in flight. -/
def readsRun (s : State) : Bool := s.host.cmds.any fun p => match p.2.stage with | .reading _ => true | _ => false

/-- Cut the open blocks that hold a byte of a record wanted (R133). -/
def cutWanted (s : State) : State :=
  s.host.cmds.foldl (fun s p => match p.2.stage with
    | .reading _ =>
      let n := eStream p.2.entry
      let lo := eFirst p.2.entry
      let hi := lo + eCount p.2.entry
      (match (getStream s n).bind (·.openBlk) with
       | some o => if o.frags.any fun f => decide (lo ≤ f.number ∧ f.number < hi) then cutBlock n s else s
       | none => s)
    | _ => s) s

/-- Complete a REBUILD_RANGE with its counts; moth-holes set PARTIAL_LOST whatever the status (R118, R144, R429). -/
def endRebuild (slot : Nat) (j : RebuildJob) (st : Option Status) (e : ErrInfo) (s : State) : State :=
  let s := { s with cart := { s.cart with rebuilding := none } }
  let s := if 0 < j.moths then noteInfo slot .partialLost s else s
  complete slot (fun c => { baseCpl c (st.getD (infoStatus c.info)) with
    specific := BitVec.ofNat 96 (packLsb [(32, j.read), (32, j.written), (24, min j.moths 0xFFFFFF), (8, c.info.toNat)]) }) e s

/-- The rebuild completes once every number has been treated and every copy has been released or has failed (R118, R429). -/
def rebuildCheck (s : State) : State :=
  match findRebuild s with
  | none => s
  | some (slot, j) =>
    let stop := fun st => { j with stopped := true, err := some (j.err.getD st) }
    let j := if s.wr.stopped && !j.stopped && decide (j.next ≤ j.last) then stop .writeFault else j
    let s := setStage slot (.rebuilding j) s
    let copies := ((if s.wr.stopped then [] else s.wr.closedQ) ++ s.wr.cocoon).any fun d => d.kind == 1 && d.state != .failed
    let reading := match s.rd.cur with | some d => !j.stopped && d.orig == j.next | none => false
    let finished := j.stopped || decide (j.last < rebuildNext s s.index.failed.length j)
    if !finished || copies || reading then s
    else
      endRebuild slot j j.err { block := bBuilder } s

/-- Reads that need a tape out of use complete with TRANSPORT_FAULT (R99, R468). -/
def failReads (s : State) : State :=
  if !tapeGone s then s
  else (s.host.cmds.map (·.1)).foldl (fun s slot => match getCmd s slot with
    | some c => match c.stage with
      | .reading j =>
        let e := c.entry
        let needs := jobNeeds s (eOpcode e == opReadRaw) (eStream e) (j.room.getD 0) (eSkipMissing e)
          (if j.room.isSome then eCount e else 0) (eFirst e) 0
        if needs.isEmpty then s else endReadEarly slot c j .transportFault { block := bTce } s
      | _ => s
    | none => s) s

/-- Advance reads: cut what they wait for, complete those that can, and list the datasets still needed (R133, R176). -/
def readsAdvance (s : State) : State :=
  let s := cutWanted s
  let s := failReads ((s.host.cmds.map (·.1)).foldl (fun s n => tryRead n s) s)
  let s := rebuildCheck s
  let needs := (allNeeds s).filter fun n => match s.rd.cur with | some d => d.orig != n | none => true
  let idle := needs.isEmpty && s.rd.cur.isNone
  let batch := s.rd.batch && !idle
  let urgent := s.rd.urgent.filter needs.contains
  let s := { s with rd := { s.rd with queue := needs, batch := batch, urgent := urgent, collecting := !needs.isEmpty && !batch,
                                      last := if batch then s.rd.last else 0 } }
  if idle && !readsRun s then clearReads s else s

/-- The tape can turn to reads: a batch is collected and nothing else holds it (R99, R176, R177). -/
def readsMayStart (s : State) : Bool :=
  s.rd.batch && s.rd.cur.isNone && !s.rd.queue.isEmpty && !s.wr.pass && s.wr.ckpt.isNone && !s.cart.unthreading &&
    (s.cart.state = .ready || s.cart.state = .readOnly || s.cart.state = .unloading)

/-- The dataset read next: the one past its age, else the nearest ahead (R176). DESIGN CHOICE (log entry 114): a batch begins with
the lowest number on tape, and so does what is left when none lies ahead; the manual says neither. -/
def chooseRead (s : State) : Option Nat :=
  let places := s.rd.queue.map fun n => (currentOf s n, n)
  let least := fun (l : List (Nat × Nat)) => l.foldl (fun (m : Option (Nat × Nat)) p => match m with
    | some q => if p.1 < q.1 then some p else some q
    | none => some p) none
  match s.rd.urgent with
  | some n => some n
  | none =>
    match least (places.filter fun p => decide (s.rd.last ≤ p.1)) with
    | some p => some p.2
    | none => (least places).map (·.2)


/-- Start reading a dataset, where reads may start; it takes a read dataset buffer (R176, R193, R366). -/
def startRead (s : State) : State :=
  if !readsMayStart s then s
  else match chooseRead s with
    | none => s
    | some n =>
      let m := currentOf s n
      let d : ReadDs := { number := m, orig := n, wrap := (placeOf s.cart.wraps s.cart.grid m).1 }
      let t := agentTag (if (findRebuild s).isSome then agRebuild else agStream) s
      let r := askBuf 0x80 25165824 t.1 t.2
      takeEqTarget { r.1 with rd := { r.1.rd with
          queue := r.1.rd.queue.filter (· != n), urgent := none, offset := 0, speed := param r.1 0x4840 9, last := m + 1,
          cur := some { d with buf := r.2.1, bufReq := r.2.2,
                               flow := match r.2.1 with | some id => tagWithBuf t.1 id | none => t.1 } } }

end Sys2Proof.Machine
end

