-- ==== Sys2Proof/Machine/Builder.lean ====
section
/-! DEFINITION. Shared operations of the Dataset Builder and the Cocoon: placing blocks, closing datasets, drains, release
and failure of a dataset (R137-R141, R152, R157, R158, R167, R196, R301-R303, R352-R354). -/

namespace Sys2Proof.Machine

/-- Spans of fragments that lie one after the other from an offset; the last one reaches to `stop`. -/
def spansFrom (stop : Nat) : Nat → List Frag → List (Frag × Nat × Nat)
  | _, [] => []
  | at', [f] => [(f, at', stop)]
  | at', f :: t => (f, at', at' + 8 + f.data.length) :: spansFrom stop (at' + 8 + f.data.length) t

/-- Fragments of a block with the stored bytes each covers: for an encoded block all of it. Of a raw one, each covers its own bytes,
and the last also the tag after them. DEDUCED (log entry 115): R162 has no stored byte that belongs to no record. -/
def fragSpans (b : Blk) : List (Frag × Nat × Nat) :=
  if b.raw then spansFrom b.storedSize (32 + (if b.iv.isSome then 12 else 0)) b.frags
  else b.frags.map fun f => (f, 0, b.storedSize)

/-- Records with a byte in a part of a block: number, whether its first byte, its last byte and its closing as incomplete
lie in the part. -/
def partRecords (b : Blk) (off len : Nat) : List (Nat × Bool × Bool × Bool) :=
  (fragSpans b).filterMap fun p =>
    let f := p.1
    if p.2.1 < off + len ∧ off < p.2.2 then
      let isEnd := (f.kind == 0 || f.kind == 3) && decide (p.2.2 ≤ off + len)
      some (f.number, (f.kind == 0 || f.kind == 1) && decide (off ≤ p.2.1), isEnd, isEnd && f.truncated)
    else none

/-- Records of one stream in a dataset, in order. -/
def dsRecords (s : State) (d : Dataset) (n : Nat) : List (Nat × Bool × Bool × Bool) :=
  d.blocks.flatMap fun p => match getBlk s p.1 with
    | some b => if b.stream = n then partRecords b p.2.1 p.2.2 else []
    | none => []

/-- Streams with a byte in a dataset, in order of first placement. -/
def dsStreams (s : State) (d : Dataset) : List Nat :=
  (d.blocks.foldl (fun (l : List Nat) p => match getBlk s p.1 with
    | some b => if l.contains b.stream then l else l ++ [b.stream]
    | none => l) [])

/-- The extent entry of a stream in a dataset; wrap and dataset are completed when encoding starts (R162, R334). -/
def extentOf (s : State) (d : Dataset) (n : Nat) : Extent :=
  let rs := dsRecords s d n
  let lo := (rs.head?.map (·.1)).getD 0
  let hi := (rs.getLast?.map (·.1)).getD lo
  { startsHere := rs.any fun r => r.1 == lo && r.2.1,
    endsHere := rs.any fun r => r.1 == hi && r.2.2.1,
    incomplete := rs.any fun r => r.1 == hi && r.2.2.2,
    stream := n, first := lo, count := hi + 1 - lo, wrap := 0, dataset := 0,
    stored := (d.blocks.map fun p => match getBlk s p.1 with | some b => if b.stream = n then p.2.2 else 0 | none => 0).sum }

/-- Close the dataset filling; padding is set for a drain, the entry limit, R126 or R158 (R167, R302). -/
def closeDataset (pad : Bool) (s : State) : State :=
  match s.wr.filling with
  | none => s
  | some d =>
    let ext := (dsStreams s d).map fun n => IndexEntry.extent (extentOf s d n)
    let room := 120 - ext.length
    let d := { d with state := .closed, entries := ext ++ s.wr.queued.take room,
                      padded := pad && decide (64 ≤ payloadArea - d.payload.length) }
    { s with wr := { s.wr with filling := none, closedQ := s.wr.closedQ ++ [d], queued := s.wr.queued.drop room } }

/-- Open a dataset in a P4 buffer, which the tag of its transfer names; `cont` bytes continue a block (R18, R189, R301). -/
def openInBuf (buf cont : Nat) (tag : BitVec 128) (s : State) : State :=
  { s with wr := { s.wr with filling := some { id := s.wr.nextDs, buf := some buf, flow := tagWithBuf tag buf, continuation := cont },
                             nextDs := s.wr.nextDs + 1, bufReq := none } }

/-- Ask for a write dataset buffer, a delayed request, and open the next dataset, or hold the request (R193, R195, R196). -/
def openDataset (cont : Nat) (tag : BitVec 128) (s : State) : State :=
  if s.wr.filling.isSome || s.wr.bufReq.isSome then s
  else
    let r := askBuf 0x80 25165824 tag s
    match r.2.1 with
    | some id => openInBuf id cont tag r.1
    | none => { r.1 with wr := { r.1.wr with bufReq := r.2.2 } }

/-- A block may be placed: every earlier block of its stream has been placed or lost (R210). -/
def placeable (s : State) (b : Blk) : Bool :=
  s.pack.blks.all fun p => !(p.2.stream == b.stream && decide (p.1 < b.id)) ||
    (match p.2.stage with | .placed => true | .lost => true | _ => false)

/-- The block placed next: one that continues, else the first offered that may be placed (R210, R301). -/
def nextToPlace (s : State) : Option Blk :=
  let offered := s.wr.waiting.filterMap (getBlk s)
  match offered.find? fun b => decide (0 < b.off) with
  | some b => some b
  | none => offered.find? (placeable s)

/-- A drain: scope, function, stream, fetch order number that bounds the covered commands, and its slot. -/
structure Drain where
  scope : Nat
  fn : Nat := 0
  stream : Nat := 0
  seq : Nat
  slot : Option Nat := none

/-- Every drain that runs: commands, the unload, the activation, closings of ended functions, the drain before PS2
(R137, R141, R142, R270, R551). -/
def drains (s : State) : List Drain :=
  (s.host.cmds.filterMap fun p => match p.2.stage with
    | .draining d => some { scope := d.scope, fn := p.2.fn, stream := d.stream, seq := p.2.seq, slot := some p.1 }
    | _ => none) ++
  (match s.fw.activate with | some a => if a.step = 3 then [{ scope := 2, seq := a.seq }] else [] | none => []) ++
  (s.streams.filterMap fun p =>
    if p.2.state = .closing && p.2.closer.isNone then some { scope := 0, stream := p.1, seq := s.host.fetchSeq } else none) ++
  (match s.pwr.drain with | some q => [{ scope := 2, seq := q }] | none => [])

/-- A drain covers a stream. -/
def Drain.covers (d : Drain) (s : State) (n : Nat) : Bool :=
  if d.scope = 0 then n = d.stream else if d.scope = 1 then ((getStream s n).map (·.owner)) = some d.fn else true

/-- Covered WRITEs whose bytes are not all in blocks: in flight, or waiting in a fetch queue, a frozen one too (R137). -/
def Drain.writesLeft (d : Drain) (s : State) : Bool :=
  (s.host.cmds.any fun p => eOpcode p.2.entry == opWrite && decide (p.2.seq < d.seq) && d.covers s (eStream p.2.entry) &&
    (match p.2.stage with
     | .writing w => decide (w.recIdx < eCount p.2.entry)
     | .started => p.2.verdict.isNone
     | _ => false)) ||
  (s.host.fns.any fun f => f.2.qps.any fun q => q.2.fetchQ.any fun x =>
    eOpcode x.entry == opWrite && x.verdict.isNone && decide (x.seq < d.seq) && d.covers s (eStream x.entry))

/-- Covered READs, for STREAM_CLOSE and CARTRIDGE_UNLOAD: reads in flight run to completion first (R141). -/
def Drain.readsLeft (d : Drain) (s : State) : Bool :=
  let reads := fun (e : BitVec 512) (seq : Nat) =>
    (eOpcode e == opRead || eOpcode e == opReadRaw) && decide (seq < d.seq) && d.covers s (eStream e)
  (s.host.cmds.any fun p => reads p.2.entry p.2.seq && p.2.stage != .held) ||
    s.host.fns.any fun f => f.2.qps.any fun q => q.2.fetchQ.any fun x => reads x.entry x.seq && x.verdict.isNone

/-- A block holds a byte of a covered command (R137, R138). -/
def Drain.coversBlk (d : Drain) (s : State) (b : Blk) : Bool :=
  d.covers s b.stream && b.frags.any fun f => decide (f.seq < d.seq)

/-- Covered bytes remain that have not left the Cocoon; of a lost block, those placed in datasets before it was lost. -/
def Drain.bytesLeft (d : Drain) (s : State) : Bool :=
  (s.pack.blks.any fun p => d.coversBlk s p.2 && (p.2.stage != .lost || !p.2.datasets.isEmpty)) ||
  (s.streams.any fun p => d.covers s p.1 && (match p.2.openBlk with
    | some o => o.frags.any fun f => decide (f.seq < d.seq)
    | none => false))

/-- Cut the open blocks that a drain reaches: those whose stream has no covered WRITE still to pack (R209). -/
def drainCuts (d : Drain) (s : State) : State :=
  s.streams.foldl (fun t p =>
    let has := match p.2.openBlk with | some o => o.frags.any fun f => decide (f.seq < d.seq) | none => false
    let one : Drain := { d with scope := 0, stream := p.1 }
    if d.covers s p.1 && has && !one.writesLeft s then cutBlock p.1 t else t) s

/-- Close and pad the dataset filling once the last covered byte is placed in it (R137). DESIGN CHOICE (log entry 96):
DatasetsClosed and DatasetsPadded of a FLUSH count the datasets that its own drain closes here, not those that fill up or that
another drain closes. -/
def drainClose (d : Drain) (s : State) : State :=
  let waits := s.pack.blks.any fun p => d.coversBlk s p.2 && p.2.stage != .placed && p.2.stage != .lost
  let here := match s.wr.filling with
    | some f => f.blocks.any fun p => ((getBlk s p.1).map (d.coversBlk s)).getD false
    | none => false
  if here && !waits && !d.writesLeft s then
    let padded := match s.wr.filling with | some f => decide (64 ≤ payloadArea - f.payload.length) | none => false
    let s := closeDataset true s
    match d.slot with
    | some n => updCmd n (fun c => match c.stage with
        | .draining j => { c with stage := .draining { j with closed := j.closed + 1, padded := j.padded + padded.toNat } }
        | _ => c) s
    | none => s
  else s

/-- The rules of R152 for one stream: what failed, and the records with a byte in it. -/
def failStream (err : DrainErr) (n : Nat) (nums : List Nat) (s : State) : State :=
  match nums with
  | [] => s
  | r :: t =>
    let first := t.foldl min r
    let s := updStream n (fun x =>
      { x with writeFailed := true, failedFrom := some (match x.failedFrom with | some k => min k first | none => first),
               drainErrs := x.drainErrs ++ [err] }) s
    raise 0x540 [iStream n, iRecord first] (closeRecords n nums s)

/-- A cut block is lost: its engine, its data and its buffers are free again. One with a part in a dataset stays listed until
that dataset leaves. -/
def dropBlk (s : State) (x : Blk) : State :=
  let s := (s.pack.engines.filter fun p => p.2.busy == some x.id).foldl
    (fun s p => setEngine p.1 { (getEngine s p.1) with busy := none } s) s
  let s := { s with cip := { s.cip with pairs := s.cip.pairs.map fun p => if p.2.enc = some x.id then (p.1, { p.2 with enc := none }) else p } }
  let s := freeOpt x.buf x.flow (consumeSrc x.src x.flow s)
  let s := { s with wr := { s.wr with waiting := s.wr.waiting.filter (· != x.id) } }
  if x.datasets.isEmpty then { s with pack := { s.pack with blks := Tab.del s.pack.blks x.id } }
  else setBlk x.id { x with stage := .lost, src := [], buf := none, fifo := none } s

/-- The lowest record with a byte in fragments of one WRITE. -/
def lowestOf (seq : Nat) (l : List Frag) : Option Nat :=
  (l.filter fun f => f.seq == seq).foldl (fun a f => some (match a with | some m => min m f.number | none => f.number)) none

/-- Stop a WRITE whose bytes are lost from a record on: the error log names the offset of that record in its data (R79, R127). -/
def stopLost (slot : Nat) (st : Status) (e : ErrInfo) (low : Option Nat) (s : State) : State :=
  match getCmd s slot, low with
  | some c, some r => match c.stage with
    | .writing w =>
      let lost := some (match w.lostAt with | some k => min k r | none => r)
      stopWrite slot st { e with byteOffset := byteOfRecord w r } (setJob slot { w with lostAt := lost } s)
    | _ => stopWrite slot st e s
  | _, _ => stopWrite slot st e s

/-- A block that cannot be written, and every later block of its stream that is not yet placed, are lost: the WRITEs with a byte
in them stop with the status (R127, R129, R152, R260, R261). DESIGN CHOICE (log entry 95): a FLUSH that covers such bytes reports
this status, also where it is none of those that R139 lists; they are lost before any dataset. -/
def loseFrom (b : Blk) (st : Status) (e : ErrInfo) (s : State) : State :=
  let hit := fun (x : Blk) => x.stream == b.stream && decide (b.id ≤ x.id) && x.stage != .placed && x.stage != .lost
  let bad := (s.pack.blks.filter fun p => hit p.2).map (·.2)
  let frags := bad.flatMap (·.frags)
  let seqs := (frags.map (·.seq)).dedup
  let s := seqs.foldl (fun s q => match findWriter s q with
    | some (slot, c, _) => if c.orphan then s else stopLost slot st e (lowestOf q frags) s
    | none => s) s
  let s := failStream { place := s.wr.nextDs, event := false, cause := st, low := seqs.foldl min s.host.fetchSeq } b.stream
    (frags.map (·.number)).dedup s
  dispatchAll (bad.foldl (fun s x => match getBlk s x.id with | some y => dropBlk s y | none => s) s)

/-- No room is left for a block: the bytes that found none are lost, and a READY cartridge becomes READ_ONLY (R99, R129). -/
def loseAtEnd (b : Blk) (s : State) : State :=
  let s := loseFrom b .endOfMedium { block := bBuilder } s
  if s.cart.state = .ready then { s with cart := { s.cart with state := .readOnly } } else s

/-- Close and pad the dataset filling for the drains whose last covered byte has been placed in it (R137). -/
def closeDrained (s : State) : State := (drains s).foldl (fun s d => drainClose d s) s

/-- Place the offered blocks into datasets while buffers allow (R167, R196, R210, R301). -/
def placeLoop : Nat → State → State
  | 0, s => s
  | k + 1, s =>
    match nextToPlace s with
    | none => s
    | some b =>
      match s.wr.filling with
      | none =>
        if s.wr.bufReq.isSome then s
        else if numbersLeft s = 0 then placeLoop k (loseAtEnd b s)
        else
          let t := openDataset (if 0 < b.off then min (b.storedSize - b.off) payloadArea else 0) b.flow s
          if t.wr.filling.isSome then placeLoop k t else t
      | some d =>
        let room := payloadArea - d.payload.length
        let streams := dsStreams s d
        if b.off = 0 ∧ room < 64 then placeLoop k (closeDataset false s)
        else if !streams.contains b.stream && decide (120 ≤ streams.length) then placeLoop k (closeDataset true s)
        else
          let size := b.storedSize
          let n := min room (size - b.off)
          let d := { d with payload := d.payload ++ (b.stored.drop b.off).take n, blocks := d.blocks ++ [(b.id, b.off, n)] }
          let whole := decide (b.off + n = size)
          let s := if whole then freeOpt b.buf b.flow s else s
          let s := setBlk b.id { b with off := b.off + n, stage := if whole then .placed else b.stage, datasets := b.datasets ++ [d.id],
                                        buf := if whole then none else b.buf, fifo := if whole then none else b.fifo } s
          let s := { s with wr := { s.wr with filling := some d, placements := (s.time.toNat, n) :: s.wr.placements,
                                              waiting := if whole then s.wr.waiting.filter (· != b.id) else s.wr.waiting } }
          placeLoop k (if n = room then closeDataset false s else if whole then closeDrained s else s)

/-- Place what can be placed. -/
def placeAll (s : State) : State := placeLoop (4 * s.wr.waiting.length + 4) s

/-- Close a stream: its lane states go, its key slot is unbound (R101, R229, R249). -/
def closeStream (n : Nat) (s : State) : State :=
  match getStream s n with
  | none => s
  | some x =>
    let s := dropLanes n s
    let s := if x.cipher && !x.noKey && (x.state ≠ .closed || x.opening.isSome) then unbindKey x.keySlot s else s
    updStream n (fun x => { x with state := .closed, closer := none, opening := none, openBlk := none, runs := [], mustIndep := [],
                                   readOnly := false, noKey := false }) s

/-- Streams whose function was ended close once drained (R270). -/
def closeEnded (s : State) : State :=
  s.streams.foldl (fun t p =>
    let d : Drain := { scope := 0, stream := p.1, seq := t.host.fetchSeq }
    if p.2.state = .closing && p.2.closer.isNone && !d.writesLeft t && !d.bytesLeft t && !d.readsLeft t then closeStream p.1 t else t) s

/-- The drain before PS2 ends once what it covers is on tape (R551). -/
def endPowerDrain (s : State) : State :=
  match s.pwr.drain with
  | none => s
  | some q =>
    let d : Drain := { scope := 2, seq := q }
    if d.writesLeft s || d.bytesLeft s then s else { s with pwr := { s.pwr with drain := none } }

/-- Advance every drain. -/
def pushDrains (s : State) : State := (drains s).foldl (fun s d => drainClose d (drainCuts d s)) s

/-- Place blocks, advance drains, close ended streams, post WRITE completions and advance reads until nothing more
follows. -/
def settleN : Nat → State → State
  | 0, s => s
  | n + 1, s => settleN n (pushDrains (placeAll s))

def settle (s : State) : State := readsAdvance (checkWrites (endPowerDrain (closeEnded (settleN 3 s))))

/-- Offer a finished block to the Dataset Builder (R210, R275). -/
def offer (b : Nat) (s : State) : State :=
  let s := updBlk b (fun v => { v with stage := .offered }) s
  settle { s with wr := { s.wr with waiting := s.wr.waiting ++ [b] } }

/-- A packet fits into its engine's packer FIFO (R31, R218). -/
def fifoRoom (s : State) (e : Nat) (payload : List Byte) : Bool :=
  let fill := (s.pack.blks.map fun p => if p.2.fifo = some e then 36 + p.2.payload.length else 0).sum
  decide (fill + 36 + payload.length ≤ packerFifo)

/-- A packet is finished: counters, intake buffers, history, and the engine's next block (R226, R229, R239). -/
def packetDone (e : Nat) (b : Blk) (state : LaneState) (must : Bool) (s : State) : State :=
  let g := (getEngine s e).state
  let r := if b.comp = 1 then (if b.independent then windowRefs b [] 0 s else windowRefs b g.refs g.trail s) else (s, [], 0)
  let s := if b.comp = 1 && b.independent then freeRefs g.refs b.flow r.1 else r.1
  let s := consumeSrc b.src b.flow s
  let s := if must then lanesMust b.stream b.lane s else s
  let p := s.pack
  let s := { s with pack := { p with
    blocksWritten := p.blocksWritten + 1, blocksRaw := p.blocksRaw + b.raw.toNat,
    contentBytes := p.contentBytes + contentLen b.frags, payloadBytes := p.payloadBytes + b.payload.length } }
  let g := getEngine s e
  let s := setEngine e { g with busy := none, state := { state with refs := r.2.1, trail := r.2.2 } } s
  let s := setBlk b.id { b with stage := .packet e, src := [], fifo := some e } s
  let s := dispatch e (shortenRefs e b.flow s)
  if b.key.isSome then s else offer b.id s

/-- Add a released dataset's entries to the index (R161-R167, R353). -/
def addEntry (s : State) : IndexEntry → State
  | .extent e => { s with index := { s.index with extents := s.index.extents ++ [e] } }
  | .reloc r => { s with index := { s.index with relocs := s.index.relocs ++ [r] } }
  | .moth m => { s with index := { s.index with moths := s.index.moths ++ [m] },
                        rd := { s.rd with mothsWritten := sat32 (s.rd.mothsWritten + 1) } }
  | .stream e =>
    match getStream s e.stream with
    | some _ => updStream e.stream (fun x => { x with durable := max x.durable e.lease }) s
    | none =>
      let x : Stream := { owner := e.owner, comp := e.comp, cipher := e.cipher, durable := e.lease, pendingLease := e.lease,
                          creating := (Tab.get? s.reserved e.stream).isSome }
      { s with streams := Tab.put s.streams e.stream x }
  | .padding => s

/-- The STREAM_CREATE that waits for a stream's first entry. -/
def creatorOf (s : State) (n : Nat) : Option Nat :=
  (s.host.cmds.find? fun p => eOpcode p.2.entry == opStreamCreate && eStream p.2.entry == n && p.2.stage == .waiting).map (·.1)

/-- Wrap and number of a dataset that failed, for the error log (R79). -/
def dsLoc (s : State) (number : Option Nat) : Option (Nat × Nat) :=
  number.map fun n => ((placeOf s.cart.wraps s.cart.grid n).1, n)

/-- What the error log says of a command that ends because a dataset failed (R79, R80, R354). -/
def dsFailed (s : State) (number : Option Nat) : ErrInfo := { block := bCocoon, event := some 0x551, loc := dsLoc s number }

/-- What the error log says of a STREAM_CREATE whose first entry can reach no dataset: the dataset that failed with it, if one did
(R79, R158). -/
def createFailed (s : State) (st : Status) (number : Option Nat) : ErrInfo :=
  if number.isSome then dsFailed s number else { block := if st = .transportFault then bTce else bBuilder }

/-- End the STREAM_CREATE of a stream: now, or when its row runs (R148, R158). -/
def endCreate (n : Nat) (st : Option (Status × Option Nat)) (s : State) : State :=
  match creatorOf s n with
  | some slot =>
    let s := onPost slot (.unreserve n) s
    (match st with
     | some (st, number) => complete slot (fun c => baseCpl c st) (createFailed s st number) s
     | none => finish slot .success 0 s)
  | none =>
    match Tab.get? s.reserved n, st with
    | some seq, some st => { s with wr := { s.wr with failedCreates := Tab.put s.wr.failedCreates seq st } }
    | _, _ => s

/-- Blocks lose a dataset that has left; a placed block with none left goes. -/
def forgetDs (id : Nat) (s : State) : State :=
  let blks := s.pack.blks.map fun p => (p.1, { p.2 with datasets := p.2.datasets.filter (· != id) })
  let blks := blks.filter fun p => !((p.2.stage == .placed || p.2.stage == .lost) && p.2.datasets.isEmpty)
  { s with pack := { s.pack with blks := blks } }

/-- WRITEs with a byte in a dataset: slots. -/
def dsWriters (s : State) (d : Dataset) : List Nat :=
  s.host.cmds.filterMap fun p => match p.2.stage with
    | .writing _ =>
      if d.blocks.any fun q => ((getBlk s q.1).map fun b => b.stream == eStream p.2.entry && b.frags.any fun f => f.seq == p.2.seq).getD false
      then some p.1 else none
    | _ => none

/-- A dataset is no longer in the Cocoon. -/
def leaveCocoon (d : Dataset) (s : State) : State :=
  { s with wr := { s.wr with cocoon := s.wr.cocoon.filter (fun x => x.id != d.id) } }

/-- A data dataset leaves the Cocoon verified: its entries take effect, then the on-medium WRITEs that waited on it complete (R157,
R171, R353). A checkpoint dataset only leaves. -/
def releaseDs (d : Dataset) (s : State) : State :=
  if d.kind = 2 then leaveCocoon d s else
  let n := d.number.getD 0
  let s := d.entries.foldl addEntry s
  let s := d.entries.foldl (fun s e => match e with | .stream x => endCreate x.stream none s | _ => s) s
  let s := (dsWriters s d).foldl (fun s slot => updCmd slot (fun c => match c.stage with
    | .writing w => { c with stage := .writing { w with lastDs := max w.lastDs n } }
    | _ => c) s) s
  let s := forgetDs d.id s
  let s := leaveCocoon d { s with wr := { s.wr with sinceCkpt := s.wr.sinceCkpt + 1 } }
  let every := param s 0x3010 6
  let s := if 0 < every ∧ every ≤ s.wr.sinceCkpt then { s with wr := { s.wr with ckptDue := true } } else s
  let s := if d.kind = 1 then { s with host := { s.host with cmds := s.host.cmds.map fun p => match p.2.stage with
      | .rebuilding j => (p.1, { p.2 with stage := .rebuilding { j with written := j.written + 1 } })
      | _ => p } } else s
  checkWrites s

/-- The lowest fetch order number of the WRITEs of a stream with a byte in a dataset. -/
def lowestSeq (s : State) (d : Dataset) (n : Nat) : Nat :=
  d.blocks.foldl (fun m p => match getBlk s p.1 with
    | some b => if b.stream = n then b.frags.foldl (fun m f => min m f.seq) m else m
    | none => m) s.host.fetchSeq

/-- The error that a drain reports: that of the first dataset with a lost byte of a covered WRITE (R139). -/
def Drain.error (d : Drain) (s : State) : Option DrainErr :=
  let all := (s.streams.filter fun p => d.covers s p.1).flatMap fun p => p.2.drainErrs.filter fun x => decide (x.low < d.seq)
  all.foldl (fun (a : Option DrainErr) x => match a with
    | some y => if x.place < y.place then some x else a
    | none => some x) none

/-- The status of a drain that has ended (R139). -/
def Drain.status (d : Drain) (s : State) : Status := ((d.error s).map (·.cause)).getD .success

/-- What the error log says of a drain that found lost bytes (R79, R139). -/
def Drain.errInfo (d : Drain) (s : State) : ErrInfo :=
  match d.error s with
  | some x => if x.event then dsFailed s x.number else { block := bBuilder }
  | none => { block := bCocoon }

/-- The fragments with a byte in a dataset. -/
def dsFrags (s : State) (d : Dataset) : List Frag :=
  d.blocks.flatMap fun p => match getBlk s p.1 with
    | some b => (fragSpans b).filterMap fun x => if x.2.1 < p.2.1 + p.2.2 ∧ p.2.1 < x.2.2 then some x.1 else none
    | none => []

/-- A dataset fails with a cause; one whose segment is under the head keeps its buffer while the head goes on writing it (R139, R152,
R157, R158, R352, R354). A checkpoint dataset makes its copy fail (R358). -/
def failDs (d : Dataset) (cause : Status) (s : State) : State :=
  let streams := if d.kind = 0 then dsStreams s d else []
  let number := d.number.getD 0xFFFFFFFFFF
  let s := streams.foldl (fun s n =>
    failStream { place := d.id, number := d.number, cause := cause, low := lowestSeq s d n } n ((dsRecords s d n).map (·.1)).dedup s) s
  let s := raise 0x551 [iDataset number, iCode cause.code] s
  -- an on-medium WRITE with a byte in it stops (R127)
  let s := (dsWriters s d).foldl (fun s slot => match getCmd s slot with
    | some c => if eCMode c.entry = 1 && !c.orphan then
        stopLost slot cause (dsFailed s d.number) (lowestOf c.seq (dsFrags s d))
          (updCmd slot (fun c => match c.stage with
            | .writing w => { c with stage := .writing { w with lastDs := max w.lastDs (d.number.getD 0) } }
            | _ => c) s)
      else s
    | none => s) s
  -- lease entries go into the next header again; a first stream entry ends its STREAM_CREATE
  let again := d.entries.filterMap fun e => match e with
    | .stream x => (getStream s x.stream).map fun y => IndexEntry.stream { x with next := y.next, lease := y.pendingLease }
    | _ => none
  let first := d.entries.filterMap fun e => match e with
    | .stream x => if (getStream s x.stream).isNone then some x.stream else none
    | _ => none
  let s := { s with wr := { s.wr with queued := s.wr.queued ++ again } }
  let s := first.foldl (fun s n => endCreate n (some (cause, d.number)) s) s
  let s := if d.kind = 1 then { s with host := { s.host with cmds := s.host.cmds.map fun p => match p.2.stage with
      | .rebuilding j => (p.1, { p.2 with stage := .rebuilding { j with err := some (j.err.getD cause) } })
      | _ => p } } else s
  let s := forgetDs d.id s
  let keep := s.wr.head == some d.id && cause != .writeInhibited
  let mark := fun (x : Dataset) =>
    if x.id = d.id then { x with state := .failed, cause := some cause, buf := if keep then x.buf else none } else x
  let s := { s with wr := { s.wr with
    cocoon := s.wr.cocoon.map mark, closedQ := s.wr.closedQ.filter (fun x => x.id != d.id),
    filling := match s.wr.filling with | some x => if x.id = d.id then none else some x | none => none,
    datasetsFailed := sat32 (s.wr.datasetsFailed + 1) } }
  let s := match d.number with
    | some n => if d.kind = 2 then s else { s with index := { s.index with failed := s.index.failed ++ [n] } }
    | none => s
  let s := if d.kind = 2 then
      { s with wr := { s.wr with ckpt := s.wr.ckpt.map fun j => { j with failed := true } } } else s
  settle (if keep then s else freeOpt d.buf d.flow s)

/-- Fail every dataset not yet encoded: the one filling and the closed ones (R412). -/
def failHeld (cause : Status) (s : State) : State :=
  (s.wr.closedQ ++ s.wr.filling.toList).foldl (fun s d => if d.kind = 2 then s else failDs d cause s) s

/-- A buffer granted to a request that was held goes to the block that waits for it: an engine that copies a window, a cipher
pair, a block read, the dataset being read, or the next dataset of a checkpoint copy (R195, R196, R229, R264). -/
def takeGrant (req id : Nat) (tag : BitVec 128) (s : State) : State :=
  match s.pack.engines.find? fun p => p.2.bufReq == some req with
  | some p => copyWindow p.1 id tag s
  | none =>
    let pairs := s.cip.pairs.map fun p => if p.2.bufReq = some req then (p.1, { p.2 with buf := some id, bufReq := none }) else p
    let tape := fun (b : TapeBlk) =>
      if b.bufReq = some req then { b with buf := some id, bufReq := none }
      else if b.outReq = some req then { b with outBuf := some id, outReq := none } else b
    let cur := s.rd.cur.map fun d =>
      if d.bufReq = some req then { d with buf := some id, bufReq := none, flow := tagWithBuf tag id } else d
    let ckpt := s.wr.ckpt.map fun j =>
      if j.bufReq = some req then { j with buf := some id, bufReq := none, flow := tagWithBuf tag id } else j
    { s with cip := { s.cip with pairs := pairs }, rd := { s.rd with blks := s.rd.blks.map tape, cur := cur },
             wr := { s.wr with ckpt := ckpt } }

/-- HELD_REQUEST_GRANT: a buffer that became available goes to a held request; a dataset buffer opens the next dataset
(R195, R196, R198). -/
def execHeldRequestGrant (s : State) : Result :=
  match grantHeld s with
  | none => .next s
  | some (s, h, id) =>
    if s.wr.bufReq = some h.id then
      let cont := match nextToPlace s with | some b => if 0 < b.off then min (b.storedSize - b.off) payloadArea else 0 | none => 0
      .next (settle (openInBuf id cont h.tag s))
    else .next (takeGrant h.id id h.tag s)

end Sys2Proof.Machine
end

