-- ==== Sys2Proof/Machine/Members.lean ====
section
/-! DEFINITION. Physical channels and failed members: declaration, re-enabling, and the rules that stop and resume writing
(R404-R414). -/

namespace Sys2Proof.Machine

/-- A physical channel. -/
def getChan (s : State) (e : Nat) : Channel := Tab.getD s.chans e {}

/-- Replace a channel. -/
def setChan (e : Nat) (v : Channel) (s : State) : State := { s with chans := Tab.put s.chans e v }

/-- Change a channel. -/
def updChan (e : Nat) (g : Channel → Channel) (s : State) : State := setChan e (g (getChan s e)) s

/-- The FAILED channels, rising (R404). -/
def failedMembers (s : State) : List Nat := (s.chans.filter fun p => p.2.failed).map (·.1)

/-- Writing is allowed (R411). -/
def writeAllowed (s : State) : Bool :=
  let f := (failedMembers s).length
  decide (f ≤ 1) || (decide (f = 2) && decide (param s 0x4870 1 = 1))

/-- The dataset whose segment is under the head (R361). -/
def headDs (s : State) : Option Dataset :=
  match s.wr.head with
  | some h => s.wr.cocoon.find? fun d => d.id == h
  | none => none

/-- Datasets held because writing is stopped: closed ones, in order, then the one filling (R412). -/
def heldDs (s : State) : List Dataset := s.wr.closedQ ++ s.wr.filling.toList

/-- A dataset holds a byte that a drain covers. -/
def Drain.coversDs (d : Drain) (s : State) (x : Dataset) : Bool :=
  x.blocks.any fun p => ((getBlk s p.1).map (d.coversBlk s)).getD false

/-- While writing is stopped, or the tape is out of use, a drain fails the held datasets that it covers (R99, R412). -/
def failIfStopped (d : Drain) (s : State) : State :=
  if tapeGone s then ((heldDs s).filter (d.coversDs s)).foldl (fun s x => failDs x .transportFault s) s
  else if s.wr.stopped then ((heldDs s).filter (d.coversDs s)).foldl (fun s x => failDs x .writeFault s) s else s

/-- Writing becomes stopped (R412). -/
def stopWriting (s : State) : State :=
  let f := failedMembers s
  let s := { s with wr := { s.wr with stopped := true, passEnding := s.wr.passEnding || s.wr.pass } }
  let s := if s.cart.state = .ready then { s with cart := { s.cart with state := .readOnly, roByMembers := true } } else s
  let s := raise 0x560 ((8, f.length) :: listItem 7 14 f) s
  (drains s).foldl (fun s d => failIfStopped d s) s

/-- Writing is allowed again (R413). -/
def resumeWriting (s : State) : State :=
  let s := { s with wr := { s.wr with stopped := false } }
  if s.cart.state = .readOnly && s.cart.roByMembers then
    raise 0x561 [] { s with cart := { s.cart with state := .ready, roByMembers := false } }
  else s

/-- Judge the failed-member rule (R411). -/
def judgeMembers (s : State) : State :=
  if writeAllowed s then (if s.wr.stopped then resumeWriting s else s)
  else if s.wr.stopped then s else stopWriting s

/-- Declare an ACTIVE channel FAILED; a dataset past the trailing edge of its last slot is no longer being written (R405, R407, R443). -/
def declareFailed (e cause : Nat) (s : State) : State :=
  if (getChan s e).failed then s
  else
    let at' := (((headDs s).filter fun d => decide (d.slot < 100)).bind (·.number)).getD s.cart.next
    let s := updChan e (fun c => { c with failed := true, cause := cause, failedAt := some at', failCount := sat32 (c.failCount + 1) }) s
    judgeMembers (setCause 0 (raise (8 * e + 6) [(8, cause)] s))

/-- Return a FAILED channel to ACTIVE (R409, R443). -/
def restoreMember (e : Nat) (s : State) : State :=
  if (getChan s e).failed then
    judgeMembers (raise (8 * e + 7) [] (updChan e (fun c => { c with failed := false, bad := 0 }) s))
  else s

end Sys2Proof.Machine
end

