-- ==== Sys2Proof/Machine/Ending.lean ====
section
/-! DEFINITION. Commands ended without a completion, the reset of a queue pair, and the end of a function
(R83-R93, R143, R235, R270, R430, R598). -/

namespace Sys2Proof.Machine

/-- Class of a new stream (R119, R205). -/
def classResolved (s : State) (e : BitVec 512) : Nat :=
  if eCompMode e ≠ 0 then eCompMode e else if eExpected e ≤ param s 0x5000 1 then 2 else 1

/-- The fetch of a STREAM_CREATE queues the stream's first entry for the next dataset header, and opens a data dataset when none
is filling (R158). -/
def fetchCreate (seq : Nat) (e : BitVec 512) (s : State) : State :=
  let n := eStream e
  let x : StreamEntry := { clean := false, stream := n, owner := eOwnerFn e, comp := classResolved s e, cipher := eCipherEn e,
                           next := 0, lease := s.recordLease }
  if mediumFull s then { s with wr := { s.wr with failedCreates := Tab.put s.wr.failedCreates seq (.endOfMedium, none) } }
  else
    let t := agentTag agStream { s with wr := { s.wr with queued := s.wr.queued ++ [.stream x] } }
    openDataset 0 t.1 t.2

/-- Entries of a fetch read enter the fetch queue one by one. -/
def fetchEntries (f q : Nat) : Nat → List (BitVec 512) → State → State
  | _, [], s => s
  | seq, e :: t, s =>
    match getQp s f q with
    | none => s
    | some v =>
      let h := (v.sqHead + 1) % v.sqDepth
      let creates := decide (eOpcode e = opStreamCreate) && (verdictOf s f q e).isNone
      let s := fetchOne f q seq h e (setQp f q { v with sqHead := h } s)
      fetchEntries f q (seq + 1) t (if creates then fetchCreate seq e s else s)

/-- The fetch read granted first of those whose entries have not been fetched: its number, function, queue pair and entries. -/
def firstRead (s : State) : Option (Nat × Nat × Nat × Option (List (BitVec 512))) :=
  (s.host.fns.flatMap fun f => f.2.qps.filterMap fun q => match q.2.reads with
    | (seq, _, r) :: _ => some (seq, f.1, q.1, r)
    | [] => none).foldl (fun (a : Option (Nat × Nat × Nat × Option (List (BitVec 512)))) x => match a with
      | some b => if x.1 < b.1 then some x else a
      | none => some x) none

/-- Fetch the entries that have returned, in the order of the grants (R98). -/
def takeReturnsN : Nat → State → State
  | 0, s => s
  | k + 1, s =>
    match firstRead s with
    | some (seq, f, q, some es) => takeReturnsN k (fetchEntries f q seq es (updQp f q (fun v => { v with reads := v.reads.drop 1 }) s))
    | _ => s

/-- Fetch the entries of every read that has returned and has none before it outstanding. -/
def takeReturns (s : State) : State :=
  takeReturnsN ((s.host.fns.map fun f => (f.2.qps.map fun q => q.2.reads.length).sum).sum) s

/-- Bytes of intake data of a WRITE. -/
def intakeBytes (w : WriteJob) : Nat := (w.intake.map fun p => p.2.2.length).sum

/-- A WRITE whose completion is held had entered a compression block (R84). -/
def heldPlaced (s : State) (slot : Nat) (c : Cmd) : Bool :=
  inOpen s (eStream c.entry) c.seq || inBlks s (eStream c.entry) c.seq ||
    (match getQp s c.fn c.qp with
     | some v => v.held.any fun h => h.slot == some slot && (decide (0 < h.cpl.recordsDone) ||
         (match h.cmd with
          | some d => (match d.stage with | .writing w => w.begun | _ => false)
          | none => false))
     | none => false)

/-- A WRITE that counts as committed: a byte of it has entered a compression block (R84). -/
def isCommitted (s : State) (slot : Nat) (c : Cmd) : Bool :=
  decide (eOpcode c.entry = opWrite) &&
    (match c.stage with
     | .writing w => w.begun
     | .held => heldPlaced s slot c
     | _ => false)

/-- A rebuild ends without a completion (R430). -/
def rebuildEnded (j : RebuildJob) (s : State) : State :=
  raise 0x567 [(32, j.read), (32, j.written), (24, min j.moths 0xFFFFFF)] { s with cart := { s.cart with rebuilding := none } }

/-- A WRITE ends before it has a run (R153, R154). -/
def noRun (e : BitVec 512) (s : State) : State := if eOpcode e = opWrite then runSettled (eStream e) s else s

/-- End one command without a completion (R84, R143, R235, R430, R598). -/
def endCmd (slot : Nat) (s : State) : State :=
  match getCmd s slot with
  | none => s
  | some c =>
    let op := eOpcode c.entry
    let orphan := updCmd slot (fun c => { c with orphan := true }) s
    match c.stage with
    | .writing w =>
      if w.begun then
        packStream (eStream c.entry) (updCmd slot (fun c =>
          { c with orphan := true, stage := .writing { w with ended := true, avail := intakeBytes w } }) (giveIntake w c.tag s))
      else dropCmd slot (runSettled (eStream c.entry) (freeIntake w c.tag (dropRun (eStream c.entry) c.seq s)))
    | .reading _ => dropCmd slot s
    | .rebuilding j => dropCmd slot (rebuildEnded j s)
    | .held => dropCmd slot s
    | .draining j => updCmd slot (fun c => { c with orphan := true, stage := .draining { j with sync := false } }) s
    | .waiting => orphan
    | .lists => if isIo op then dropCmd slot s else orphan
    | .started =>
      if c.verdict.isSome || isIo op || op = opFwActivate || op = opKeyLoad then dropCmd slot (noRun c.entry s)
      else if op = opRebuild then dropCmd slot (rebuildEnded { next := 0, last := 0 } s)
      else orphan

/-- The dictionary operation of a DICT_READ whose data cannot be delivered is dropped (R81, R481). -/
def dropDictOp (slot : Nat) (s : State) : State :=
  { s with dict := { s.dict with queue := s.dict.queue.filter fun op => op.isWrite || op.src != .cmd slot } }

/-- A command fails while data of it moves: by what it is doing, so that a WRITE stops (R127) and a READ and a rebuild record what
they met (R144). A command that was carried on without a completion is dropped; a WRITE carried on keeps its bytes (R598). -/
def failCmd (slot : Nat) (st : Status) (e : ErrInfo) (s : State) : State :=
  match getCmd s slot with
  | none => s
  | some c =>
    match c.stage with
    | .writing _ => if c.orphan then s else settle (stopWrite slot st e s)
    | .reading j => settle (endReadEarly slot c j st e s)
    | .rebuilding j => settle (endRebuild slot j (some st) e s)
    | .waiting => settle (complete slot (fun c => baseCpl c st) e (dropDictOp slot s))
    | _ => settle (complete slot (fun c => baseCpl c st) e s)

/-- A tag that reaches a block with wrong parity is not acted on: the owner is answered PARITY_POISON, and the command that the tag names
ends with INTERNAL_ERROR (R22). -/
def badTag (owner : Nat) (id : Option Nat) (tag : BitVec 128) (block : Nat) (s : State) : State :=
  let s := answer owner .parityPoison id tag s
  if tagClass tag = 3 then s
  else failCmd (tagSlot tag) .internalError { response := Response.parityPoison.code, block := block } s

/-- Streams whose open block holds a byte of one of these commands. -/
def openHolders (s : State) (seqs : List Nat) : List Nat :=
  s.streams.filterMap fun p => match p.2.openBlk with
    | some o => if o.frags.any fun f => seqs.contains f.seq then some p.1 else none
    | none => none

/-- End commands: the Record Packer cuts first, then each is classified (R84, R235). Answers the counts of committed and
aborted ones. -/
def endCmds (slots : List Nat) (s : State) : State × Nat × Nat :=
  let seqs := slots.filterMap fun n => (getCmd s n).map (·.seq)
  let s := (openHolders s seqs).foldl (fun s n => cutBlock n s) s
  let committed := slots.countP fun n => ((getCmd s n).map (isCommitted s n)).getD false
  let aborted := slots.length - committed
  let s := slots.foldl (fun s n => endCmd n s) s
  (settle s, committed, aborted)

/-- Slots held by a queue pair's commands. -/
def slotsOf (s : State) (f q : Nat) : List Nat :=
  (s.host.cmds.filter fun p => p.2.fn == f && p.2.qp == q && !p.2.orphan).map (·.1)

/-- An admin entry that waits in a fetch queue has passed the checks of its fetch, and the queue is discarded: it is carried on
without a slot and without a completion, and what its fetch has done stays (R98, R598). An FW_ACTIVATE has not reached its
step 2 and a REBUILD_RANGE ends (R143, R430); entries of I/O queue pairs are dropped (R83). Its place in the table is none of the 65,536 command slots. -/
def carryOn (f q : Nat) (x : FqEntry) (s : State) : State :=
  let op := eOpcode x.entry
  if x.verdict.isSome || isIo op || op = opFwActivate || op = opKeyLoad then noRun x.entry s
  else if op = opRebuild then rebuildEnded { next := 0, last := 0 } s
  else match freeSlotFrom s [] 65536 65536 with
    | none => s
    | some slot =>
      setCmd slot { fn := f, qp := q, epoch := 0, seq := x.seq, headAfter := x.headAfter, entry := x.entry, orphan := true } s

/-- Step 1 of R83: fetching stops, the fetch queue is discarded, the head goes to the tail. The claim of a QUEUE_RESET that is
still to start stays through a reset of R90 (R88). -/
def resetStart (f q : Nat) (r : QpReset) (s : State) : State :=
  match getQp s f q with
  | none => s
  | some v =>
    let s := v.fetchQ.foldl (fun s x => carryOn f q x s) s
    takeReturns (updQp f q (fun v =>
      { v with fetchQ := [], reads := [], sqHead := v.sqTail, sqReq := v.sqTail, reset := some r,
               claim := if r.by'.isSome then none else v.claim, fqPtrs := [0, 0, 0, 0] }) s)

/-- GET_LOGs of other queue pairs still reading the log of a queue pair (R113). -/
def logReaders (s : State) (f q : Nat) : List Nat :=
  (s.host.cmds.filter fun p => p.2.fn == f && p.2.qp != q && eOpcode p.2.entry == opGetLog && fld p.2.entry 28 0 16 == q &&
    (match p.2.stage with | .lists => true | _ => false)).map (·.1)

/-- Steps 2 to 6 of R83: the cut, the classification, the log, the completion or the event of R90. -/
def resetCut (f q : Nat) (s : State) : State :=
  match getQp s f q with
  | none => s
  | some v =>
    match v.reset with
    | none => s
    | some r =>
      let epoch := (v.epoch + 1) % 16
      let s := updQp f q (fun v => { v with epoch := epoch }) s
      let s := (logReaders s f q).foldl (fun s n => finish n .queueReset bHqe s) s
      let t := endCmds (slotsOf s f q) s
      let s := updQp f q (fun v => { v with log := [], lost := 0, frozen := false, held := [], writeFailed := false, recent := [],
                                            reset := none, resetEnds := r.by'.isSome }) t.1
      let s := match r.by' with
        | some slot =>
          finishWith slot .success [(17, t.2.1), (15, 0), (17, t.2.2), (15, 0), (16, v.sqHead), (4, epoch)] 0
            (onPost slot (.resetPosted f q) s)
        | none => s
      raiseIf r.mismatch 0x401 [iFn f, iQp q, (17, t.2.1), (17, t.2.2), (4, epoch)] (shutdownCheck f s)

/-- Commands of a function carried on when the function has ended: its streams and key slots follow them (R598). -/
def markEnded (f : Nat) (s : State) : State :=
  { s with host := { s.host with cmds := s.host.cmds.map fun p =>
      if p.2.fn = f && p.2.orphan then (p.1, { p.2 with fnEnded := true }) else p } }

/-- A command on a queue pair that was carried on ends with its function: the queue pair that it would act on is deleted, and one
created later is another (R91, R598). -/
def dropQpCmds (f : Nat) (s : State) : State :=
  (s.host.cmds.filter fun p => p.2.fn == f && p.2.orphan && decide (opCreateQp ≤ eOpcode p.2.entry ∧ eOpcode p.2.entry ≤ opQueueReset)).foldl
    (fun s p => dropCmd p.1 s) s

/-- End every command of a function and delete its queue pairs (R91). -/
def endFunction (f : Nat) (s : State) : State :=
  let x := getFn s f
  let slots := (s.host.cmds.filter fun p => p.2.fn == f && !p.2.orphan).map (·.1)
  let s := (endCmds slots s).1
  let s := x.qps.foldl (fun s p => p.2.fetchQ.foldl (fun s y => carryOn f p.1 y s) s) s
  takeReturns (shutdownCheck f (updFn f (fun x => { x with qps := [], ready := false }) (dropQpCmds f s)))

/-- Raise KEY_SLOTS_RETIRED when the last slot of a function is gone (R270). -/
def retiredCheck (f : Nat) (s : State) : State :=
  raiseIf (!(s.cip.slots.any fun p => p.2.owner == f)) 0x526 [iFn f] s

/-- The KEK of a function is zeroised, its slots retire, its streams drain and close (R270); a stream that a
carried-on STREAM_OPEN of the function opens later closes at that command's end (R598). -/
def retireKeys (f : Nat) (s : State) : State := settle (retireMarks f (markEnded f s))

/-- A function that exists: the PF, and the VFs that NumVFs enables (R37). -/
def fnExists (s : State) (f : Nat) : Bool := f = 0 || (s.host.vfEnable && decide (f ≤ s.host.numVfs))

/-- Registers of a function back at reset, at a host interface reset; the entry copies of R150 and the like stay (R93, R479). DEDUCED
(log entry 23): Fatal of a VF stays, whether or not the VF exists, since R45 says that only an FLR clears it; R93, which returns
every register to its reset value, is the less specific. -/
def resetFnRegs (f : Nat) (s : State) : State :=
  updFn f (fun x => { fatal := decide (f ≠ 0) && x.fatal, streamSel := x.streamSel, keySel := x.keySel, eventSel := x.eventSel, logIdx := x.logIdx,
                      blockSel := x.blockSel }) s

/-- A reset of a function's window drops what its window asked for; a write being persisted ends whole, unanswered
(R481, R491, R492). -/
def dropWindow (f : Nat) (s : State) : State :=
  let mine := fun (x : DictSrc) => x == .window f
  let head := if s.dict.persisting then 1 else 0
  let queue := (s.dict.queue.take head).map (fun op => if mine op.src then { op with src := .row } else op) ++
    (s.dict.queue.drop head).filter fun op => !mine op.src
  { s with dict := { s.dict with queue := queue }, resets := s.resets.map fun r => { r with waits := r.waits.filter fun x => !mine x },
           lc := { s.lc with job := s.lc.job.map fun j => if mine j.src then { j with src := .row } else j } }

/-- A Function Level Reset of one function: its registers and its copies of entries go back to reset (R91, R270, R479). -/
def flrOne (f : Nat) (s : State) : State := setFn f {} (dropWindow f (retireKeys f (endFunction f s)))

/-- VF Enable goes to 0: every VF ends as at an FLR of it (R91, R270). With `keepFatal`, Fatal of a VF stays: only an FLR
clears it (R45). -/
def clearVfs (keepFatal : Bool) (s : State) : State :=
  let s := (List.range' 1 63).foldl (fun s f =>
    if fnExists s f then
      let bad := (getFn s f).fatal && keepFatal
      let t := flrOne f s
      if bad then updFn f (fun x => { x with fatal := true }) t else t
    else s) s
  { s with host := { s.host with vfEnable := false } }

end Sys2Proof.Machine
end

