-- ==== Sys2Proof/Machine/Registers.lean ====
section
/-! DEFINITION. The BAR0 registers, the enabling and ending of functions, and MSI-X unmasking (R36-R49, R74-R76, R91-R93). -/

namespace Sys2Proof.Machine

/-- Base offset of the MSI-X table, of its pending-bit array and of the dictionary window of a function (R40). -/
def msixBase (f : Nat) : Nat := if f = 0 then 0x20000 else 0xC000
def pbaBase (f : Nat) : Nat := if f = 0 then 0x30000 else 0xE000
def windowBase (f : Nat) : Nat := if f = 0 then 0x40000 else 0x4000

/-- STS (R45). -/
def stsWord (x : Fn) : Nat := x.ready.toNat + 2 * x.fatal.toNat + 4 * x.shutdownDone.toNat

/-- Status word of the admin queue pair at 0x1018 (R47). DESIGN CHOICE (log entry 22): AqResetBusy is 1 while a reset that R90 starts on the
admin queue pair runs, too; the table names AqReset alone. -/
def aqWord (x : Fn) : Nat :=
  match Tab.get? x.qps 0 with
  | some v => v.frozen.toNat + 2 * v.reset.isSome.toNat + 16 * v.epoch
  | none => 0

/-- A word of the pending-bit array: bit n of the array is the pending bit of vector n (R40, R76). -/
def pbaWord (x : Fn) (vectors first : Nat) : Nat :=
  ((List.range 32).map fun i =>
    if first + i < vectors then (Tab.getD x.msix (first + i) {}).pend.toNat * 2 ^ i else 0).sum

/-- EVQ_STS (R538). -/
def evqSts (v : Ev) : Nat :=
  v.host.length + 8192 * v.armed.toNat + 16384 * v.poison.toNat + 32768 * v.entryValid.toNat + 65536 * v.lost

/-- An offset lies in a window's DataBuf while the window is busy, when what it reads is undefined (R492). -/
def bufBusy (s : State) (f off : Nat) : Bool :=
  (getFn s f).win.busy && decide (windowBase f + 0x400 ≤ off ∧ off < windowBase f + 0x800)

/-- A 32-bit register as it stands (R41-R47, R491, R492, R538); a reserved bit and an unmapped offset read 0 (R9, R40). -/
def readReg (s : State) (f off : Nat) : BitVec 32 :=
  let x := getFn s f
  let w := windowBase f
  let m := msixBase f
  if off = 0 then 0x01B10080#32
  else if off = 4 then 0x02833FFF#32
  else if off = 8 then BitVec.ofNat 32 (x.enable.toNat + 2 * x.shutdown.toNat)
  else if off = 0xC then BitVec.ofNat 32 (stsWord x)
  else if off = 0x10 then s.time.extractLsb' 0 32
  else if off = 0x14 then s.time.extractLsb' 32 32
  else if off = 0x1000 then x.asqBase.extractLsb' 0 32
  else if off = 0x1004 then x.asqBase.extractLsb' 32 32
  else if off = 0x1008 then x.acqBase.extractLsb' 0 32
  else if off = 0x100C then x.acqBase.extractLsb' 32 32
  else if off = 0x1010 then x.aqSize
  else if off = 0x1018 then BitVec.ofNat 32 (aqWord x)
  else if f = 0 && off = 0x104 then BitVec.ofNat 32 (evqSts s.ev)
  else if f = 0 && decide (0x110 ≤ off ∧ off < 0x120) then s.ev.entry.extractLsb' (8 * (off - 0x110)) 32
  else if off = w then BitVec.ofNat 32 (x.win.sub.toNat + 256 * x.win.index.toNat)
  else if off = w + 8 then BitVec.ofNat 32 (x.win.busy.toNat + 256 * x.win.status.code + 65536 * x.win.length)
  else if bufBusy s f off then BitVec.ofNat 32 (Config.freeNat (s.drawn + off))
  else if w + 0x400 ≤ off ∧ off < w + 0x800 then
    BitVec.ofNat 32 (leNat ((List.range 4).map fun i => Tab.getD x.win.buf (off - w - 0x400 + i) 0#8))
  else if m ≤ off ∧ off < m + 16 * msixCountOf s f then
    let v := Tab.getD x.msix ((off - m) / 16) {}
    match (off - m) % 16 with
    | 0 => v.addr.extractLsb' 0 32
    | 4 => v.addr.extractLsb' 32 32
    | 8 => v.data
    | 12 => BitVec.ofNat 32 v.masked.toNat
    | _ => 0
  else if pbaBase f ≤ off ∧ 8 * (off - pbaBase f) < msixCountOf s f then
    BitVec.ofNat 32 (pbaWord x (msixCountOf s f) (8 * (off - pbaBase f)))
  else 0

/-- Offsets of the low words of the 64-bit registers (R41, R46, R47). -/
def lowWordOffsets : List Nat := [0x10, 0x1000, 0x1008]

/-- REGISTER_LOW_WORD_READ: the low word is returned and the high word latched; a read of the high word returns the shadow
once, else the register; one 64-bit read returns both words as they stand (R41, R492). -/
def execRegisterLowWordRead (fn : FnId) (offset : BitVec 20) (wide : Bool) (s : State) : Result :=
  let f := fn.val
  let o := offset.toNat
  let t := if bufBusy s f o then drew s else s
  if !fnExists s f then .next s
  else if wide then .next (emit (.regRead f (readReg s f (o + 4) ++ readReg s f o)) t)
  else if lowWordOffsets.contains o then
    .next (emit (.regRead f ((readReg s f o).setWidth 64)) (updFn f (fun x => { x with shadow := Tab.put x.shadow (o + 4) (readReg s f (o + 4)) }) s))
  else match Tab.get? (getFn s f).shadow o with
    | some v => .next (emit (.regRead f (v.setWidth 64)) (updFn f (fun x => { x with shadow := Tab.del x.shadow o }) s))
    | none => .next (emit (.regRead f ((readReg s f o).setWidth 64)) t)

/-- A 64-bit queue base: 4 KiB aligned, bits [11:0] ignore writes (R48). -/
def baseOf (v : BitVec 64) : BitVec 64 := v &&& ~~~0xFFF#64

/-- Store a queue base (R47). -/
def putBase (o : Nat) (v : BitVec 64) (x : Fn) : Fn :=
  if o = 0x1000 then { x with asqBase := baseOf v } else { x with acqBase := baseOf v }

/-- Write one 32-bit word of the MSI-X table (R40, R76). -/
def msixWrite (f v word : Nat) (value : BitVec 32) (s : State) : State :=
  let m := Tab.getD (getFn s f).msix v {}
  let put := fun (m : Msix) s => updFn f (fun x => { x with msix := Tab.put x.msix v m }) s
  if word = 0 then put { m with addr := m.addr.extractLsb' 32 32 ++ value } s
  else if word = 1 then put { m with addr := value ++ m.addr.extractLsb' 0 32 } s
  else if word = 2 then put { m with data := value } s
  else if value.getLsbD 0 then put { m with masked := true } s
  else if m.pend then emit (.msix f v) (put { m with masked := false, pend := false } s)
  else put { m with masked := false } s

/-- REGISTER_WRITE: registers that store what is written; other offsets are ignored (R40, R41, R47, R491). DESIGN CHOICE (log
entry 89): a low word waits for its own high word whatever other registers are written, the low word of another 64-bit register
replaces it, and a high word that no low word preceded goes with the low word that the register holds. -/
def execRegisterWrite (fn : FnId) (offset : BitVec 20) (wide : Bool) (value : BitVec 64) (s : State) : Result :=
  let f := fn.val
  let o := offset.toNat
  let x := getFn s f
  let w := windowBase f
  let m := msixBase f
  let low := value.extractLsb' 0 32
  if !fnExists s f then .next s
  else if o = 0x1000 || o = 0x1008 then
    if x.enable then .next s
    else if wide then .next (updFn f (fun x => { putBase o value x with lowWord := none }) s)
    else .next (updFn f (fun x => { x with lowWord := some (o, low) }) s)
  else if o = 0x1004 || o = 0x100C then
    if x.enable then .next s
    else
      let base := o - 4
      let old := readReg s f base
      let lo := match x.lowWord with | some (p, v) => if p = base then v else old | none => old
      .next (updFn f (fun x => { putBase base (low ++ lo) x with lowWord := none }) s)
  else if o = 0x1010 then if x.enable then .next s else .next (updFn f (fun x => { x with aqSize := low }) s)
  else if o = w then
    if x.win.busy then .next s
    else .next (updFn f (fun x => { x with win := { x.win with index := value.extractLsb' 8 16, sub := value.extractLsb' 0 8 } }) s)
  else if w + 0x400 ≤ o ∧ o < w + 0x800 then
    if x.win.busy then .next s
    else
      let buf := (List.range (if wide then 8 else 4)).foldl (fun b i =>
        if o - w - 0x400 + i < 1024 then Tab.put b (o - w - 0x400 + i) (value.extractLsb' (8 * i) 8) else b) x.win.buf
      .next (updFn f (fun x => { x with win := { x.win with buf := buf } }) s)
  else if m ≤ o ∧ o < m + 16 * msixCountOf s f then
    let s := msixWrite f ((o - m) / 16) ((o - m) % 16 / 4) low s
    .next (if wide then msixWrite f ((o - m) / 16) ((o - m) % 16 / 4 + 1) (value.extractLsb' 32 32) s else s)
  else .next s

/-- The queue pair counts that take effect (R50). -/
def takeQpCount (f : Nat) (s : State) : State :=
  { s with host := { s.host with qpCount := Tab.put s.host.qpCount f (param s (0x2100 + f) 1) } }

/-- The admin queue pair as Enable defines it (R47, R54). -/
def adminQp (s : State) (x : Fn) : Qp :=
  { sqBase := x.asqBase, cqBase := x.acqBase, sqDepth := (x.aqSize.extractLsb' 0 16).toNat,
    cqDepth := (x.aqSize.extractLsb' 16 16).toNat, maxOut := param s 0x2010 4 }

/-- ENABLE: CTRL.Enable goes from 0 to 1 (R44, R45, R47, R48, R50). -/
def execEnable (fn : FnId) (s : State) : Result :=
  let f := fn.val
  let x := getFn s f
  if !fnExists s f || x.enable then .next s
  else
    let s := if f = 0 && !s.host.vfEnable then takeQpCount 0 s else s
    let s := updFn f (fun x => { x with enable := true }) s
    let sq := (x.aqSize.extractLsb' 0 16).toNat
    let cq := (x.aqSize.extractLsb' 16 16).toNat
    if x.fatal then .next s
    else if sq < 2 ∨ 4096 < sq ∨ cq < 2 ∨ 4096 < cq then .next (updFn f (fun x => { x with fatal := true }) s)
    else .next (shutdownCheck f (updFn f (fun x => { x with ready := true, qps := Tab.put x.qps 0 (adminQp s x) }) s))

/-- DISABLE: CTRL.Enable goes from 1 to 0 (R91). -/
def execDisable (fn : FnId) (s : State) : Result :=
  let f := fn.val
  if !(getFn s f).enable then .next s
  else .next (shutdownCheck f (updFn f (fun x => { x with enable := false }) (endFunction f s)))

/-- SHUTDOWN: Shutdown is set to 1 (R45, R92). -/
def execShutdown (fn : FnId) (s : State) : Result :=
  let f := fn.val
  if !fnExists s f then .next s else .next (shutdownCheck f (updFn f (fun x => { x with shutdown := true }) s))

/-- SHUTDOWN_RESUME: Shutdown is written to 0 (R45, R92). -/
def execShutdownResume (fn : FnId) (s : State) : Result :=
  let f := fn.val
  if !fnExists s f then .next s else .next (updFn f (fun x => { x with shutdown := false, shutdownDone := false }) s)

/-- Unfreeze a queue pair, clear its error log, and post its held completions (R78, R81, R82). -/
def unfreeze (f q : Nat) (s : State) : State :=
  match getQp s f q with
  | none => s
  | some v => drainHeld f q v.held.length (setQp f q { v with frozen := false, log := [], lost := 0, writeFailed := false } s)

/-- AQ_RESET: a write of 1 to AqReset, with or without AqRestart (R47, R49). -/
def execAqReset (fn : FnId) (_withRestart : Bool) (s : State) : Result :=
  let f := fn.val
  match getQp s f 0 with
  | none => .next s
  | some v => if v.reset.isSome then .next s else .next (resetStart f 0 {} s)

/-- AQ_RESTART: a write of 1 to AqRestart (R49). -/
def execAqRestart (fn : FnId) (s : State) : Result :=
  let f := fn.val
  match getQp s f 0 with
  | none => .next s
  | some v => if v.frozen && v.reset.isNone then .next (unfreeze f 0 s) else .next s

/-- MSIX_UNMASK (R76). -/
def execMsixUnmask (fn : FnId) (vector : Fin 2048) (s : State) : Result :=
  let f := fn.val
  if !fnExists s f || decide (msixCountOf s f ≤ vector.val) then .next s else .next (msixWrite f vector.val 3 0#32 s)

/-- FLR: for the PF it ends the VFs too (R91, R270). -/
def execFlr (fn : FnId) (s : State) : Result :=
  let f := fn.val
  if !fnExists s f then .next s
  else if f = 0 then
    let t := flrOne 0 (clearVfs false s)
    .next { t with host := { t.host with numVfs := 0 } }
  else .next (flrOne f s)

/-- TotalVFs of the SR-IOV capability (R37). -/
def totalVfs : Nat := 63

/-- VF_ENABLE_SET: the VFs exist and pending counts take effect (R37, R50). -/
def execVfEnableSet (numVfs : FnId) (s : State) : Result :=
  if s.host.vfEnable then .next s
  else
    let s := { s with host := { s.host with vfEnable := true, numVfs := numVfs.val } }
    let s := (List.range' 1 totalVfs).foldl (fun s f =>
      let s := takeQpCount f s
      { s with host := { s.host with msixCount := Tab.put s.host.msixCount f (param s (0x2100 + f) 5) } }) s
    .next (if (getFn s 0).enable then s else takeQpCount 0 s)

/-- VF_ENABLE_CLEAR (R37, R91, R270): NumVFs keeps its value, and Fatal of a VF, which only an FLR clears (R45). -/
def execVfEnableClear (s : State) : Result := if s.host.vfEnable then .next (clearVfs true s) else .next s

end Sys2Proof.Machine
end

