-- ==== Sys2Proof/Machine/Queues.lean ====
section
/-! DEFINITION. Doorbells, arbitration, fetch, slots, completions held and failed, resets of queue pairs, and the commands
on queue pairs (R50-R90, R110-R113). -/

namespace Sys2Proof.Machine

/-- A doorbell write that is ignored raises event 0x400 (R57). -/
def badDoorbell (f q v : Nat) (s : State) : State := raise 0x400 [iFn f, iQp q, (16, v)] s

/-- An SqTail value is valid (R57, R59). -/
def sqTailOk (v : Qp) (n : Nat) : Bool :=
  let used := (v.sqTail + v.sqDepth - v.sqHead) % v.sqDepth
  decide (n < v.sqDepth ∧ (n + v.sqDepth - v.sqTail) % v.sqDepth ≤ v.sqDepth - 1 - used)

/-- A CqHead value is valid (R57). -/
def cqHeadOk (v : Qp) (n : Nat) : Bool :=
  decide (n < v.cqDepth ∧ (n + v.cqDepth - v.cqHead) % v.cqDepth ≤ (v.cqTail + v.cqDepth - v.cqHead) % v.cqDepth)

/-- Doorbells in a function's map: 4,096 for the PF, 1,024 for a VF; a VF's offset past them is unmapped (R40). -/
def doorbells (f : Nat) : Nat := if f = 0 then 4096 else 1024

/-- SQ_TAIL_DOORBELL (R40, R45, R56-R58). -/
def execSqTailDoorbell (fn : FnId) (qp : Fin 4096) (value : BitVec 16) (s : State) : Result :=
  let f := fn.val
  if !(getFn s f).ready || decide (doorbells f ≤ qp.val) then .next s
  else match getQp s f qp.val with
    | none => .next (badDoorbell f qp.val value.toNat s)
    | some v =>
      if sqTailOk v value.toNat then .next (setQp f qp.val { v with sqTail := value.toNat } s)
      else .next (badDoorbell f qp.val value.toNat s)

/-- CQ_HEAD_DOORBELL: when every posted entry is consumed the coalescing count restarts and the timer stops; the write of a
completion that the host has consumed has not failed (R40, R45, R56-R59, R75, R81). -/
def execCqHeadDoorbell (fn : FnId) (qp : Fin 4096) (value : BitVec 16) (s : State) : Result :=
  let f := fn.val
  if !(getFn s f).ready || decide (doorbells f ≤ qp.val) then .next s
  else match getQp s f qp.val with
    | none => .next (badDoorbell f qp.val value.toNat s)
    | some v =>
      if cqHeadOk v value.toNat then
        let v := { v with cqHead := value.toNat,
                          recent := v.recent.take ((v.cqTail + v.cqDepth - value.toNat) % v.cqDepth) }
        .next (setQp f qp.val (if value.toNat = v.cqTail then { v with unannounced := 0, timer := false } else v) s)
      else .next (badDoorbell f qp.val value.toNat s)

/-- HELD_COMPLETION_POST: the oldest held completion is posted when the queue has space (R59). -/
def execHeldCompletionPost (fn : FnId) (qp : Fin 4096) (s : State) : Result := .next (drainHeld fn.val qp.val 1 s)

/-- INT_TIME_EXPIRY (R75). -/
def execIntTimeExpiry (fn : FnId) (qp : Fin 4096) (s : State) : Result :=
  let f := fn.val
  match getQp s f qp.val with
  | none => .next s
  | some v =>
    if v.timer && v.intEnable && decide (0 < v.unannounced) then
      .next (sendMsix f v.vector (setQp f qp.val { v with unannounced := 0, timer := false } s))
    else .next s

/-- A slot is free to a function (R69). DESIGN CHOICE (log entry 91): `FnSlotLimit`, a condition of its own for a fetch
(R69), also holds an entry back at the allocation of its slot, where R71 names the free slot and MaxOutstanding alone. -/
def slotFree (s : State) (f : Nat) : Bool :=
  let held := slotsHeld s f
  if s.fnSlotLimit f ≤ held then false
  else if held < s.fnSlotReserve f then true
  else
    let owed := (((List.range 64).filter (fnExists s)).map fun g => s.fnSlotReserve g - slotsHeld s g).sum
    decide ((s.host.cmds.countP fun p => !p.2.orphan) + owed < 65536)

/-- Entries that a grant may fetch for a queue pair now; 0 when it is not eligible (R69, R70, R92, R555). -/
def fetchRoom (s : State) (f q : Nat) (v : Qp) : Nat :=
  if v.frozen || v.reset.isSome || v.claim.isSome || (getFn s f).shutdown || s.host.d3hot || !(getFn s f).ready ||
      decide (v.maxOut ≤ qpHeld s f q) || !slotFree s f then 0
  else
    let out := (v.reads.map (·.2.1)).sum
    min 4 (min ((v.sqTail + v.sqDepth - v.sqReq) % v.sqDepth) (4 - v.fetchQ.length - out))

/-- The first number of a list at or after a pointer, else the first. -/
def nextFrom (p : Nat) (l : List Nat) : Nat := (l.find? fun n => decide (p ≤ n)).getD (l.headD 0)

/-- Eligible I/O queue pairs of a function: number, state, entries. -/
def eligible (s : State) (f : Nat) : List (Nat × Qp × Nat) :=
  (getFn s f).qps.filterMap fun p =>
    let n := fetchRoom s f p.1 p.2
    if p.1 ≠ 0 ∧ 0 < n then some (p.1, p.2, n) else none

/-- Issue a fetch read of `n` entries: the entries take their places in the fetch order (R70, R98). -/
def grant (f q n : Nat) (s : State) : State :=
  match getQp s f q with
  | none => s
  | some v =>
    let s := setQp f q { v with reads := v.reads ++ [(s.host.fetchSeq, n, none)], sqReq := (v.sqReq + n) % v.sqDepth } s
    emit (.fetch f q v.sqReq n) { s with host := { s.host with fetchSeq := s.host.fetchSeq + n } }

/-- Weights of priorities 1 to 3, as the entries stand at the grant (R70, R597). -/
def weights (s : State) : List Nat := [param s 0x2010 1, param s 0x2010 2, param s 0x2010 3]

/-- Level 3: the queue pair of a function and the entries granted. A round of the weighted round robin ends when no eligible
priority has entries of its weight left (R70, R597). -/
def grantWithin (f limit : Nat) (l : List (Nat × Qp × Nat)) (s : State) : State :=
  let x := getFn s f
  let has := fun p => l.any fun t => t.2.1.priority == p
  let left := fun (spent : List Nat) (p : Nat) => (weights s).getD (p - 1) 0 - spent.getD (p - 1) 0
  let spent := if [1, 2, 3].any (fun p => has p && decide (0 < left x.spent p)) then x.spent else [0, 0, 0]
  let prio := if has 0 then 0 else (([1, 2, 3].find? fun p => has p && decide (0 < left spent p)).getD 1)
  let mine := l.filter fun t => t.2.1.priority == prio
  let q := nextFrom (x.rr.getD prio 0) (mine.map (·.1))
  let room := ((mine.find? fun t => t.1 == q).map (·.2.2)).getD 0
  let n := if prio = 0 then min room limit else min (min room limit) (left spent prio)
  let s := updFn f (fun x => { x with
    deficit := x.deficit - n, rr := x.rr.set prio (q + 1),
    spent := if prio = 0 then x.spent else spent.set (prio - 1) (spent.getD (prio - 1) 0 + n) }) s
  grant f q n s

/-- FETCH_GRANT: one grant of the arbiter (R70). -/
def execFetchGrant (s : State) : Result :=
  let fs := s.host.fns.map (·.1)
  let admin := fs.filter fun f => match getQp s f 0 with | some v => decide (0 < fetchRoom s f 0 v) | none => false
  if !admin.isEmpty then
    let f := nextFrom s.host.rrAdmin admin
    let n := match getQp s f 0 with | some v => fetchRoom s f 0 v | none => 0
    .next (grant f 0 n { s with host := { s.host with rrAdmin := (f + 1) % 64 } })
  else
    let io := fs.filter fun f => !(eligible s f).isEmpty
    if io.isEmpty then .next s
    else
      let s := (fs.filter fun f => !io.contains f).foldl (fun s f => updFn f (fun x => { x with deficit := 0 }) s) s
      let cur := s.host.rrFn
      if io.contains cur && decide (0 < (getFn s cur).deficit) then
        .next (grantWithin cur (getFn s cur).deficit.toNat (eligible s cur) s)
      else
        let f := nextFrom (cur + 1) io
        let s := updFn f (fun x => { x with deficit := x.deficit + (s.fnWeight f : Nat) }) { s with host := { s.host with rrFn := f } }
        .next (grantWithin f (getFn s f).deficit.toNat (eligible s f) s)

/-- The pointers of a fetch queue after a read of it (R29, R31). -/
def fqRead (p : List Nat) : List Nat := [p.getD 0 0, (p.getD 1 0 + 1) % 8, p.getD 2 0, (p.getD 3 0 + 1) % 8]

/-- The oldest outstanding fetch read of a queue pair has returned. -/
def markReturn (entries : List (BitVec 512)) :
    List (Nat × Nat × Option (List (BitVec 512))) → List (Nat × Nat × Option (List (BitVec 512)))
  | [] => []
  | (seq, n, none) :: t => if entries.length = n then (seq, n, some entries) :: t else (seq, n, none) :: t
  | x :: t => x :: markReturn entries t

/-- FETCH_READ_RETURN: the oldest fetch read of a queue pair returns its entries; they are fetched when those of every read
granted before it have been (R68, R69, R98). -/
def execFetchReadReturn (fn : FnId) (qp : Fin 4096) (entries : List (BitVec 512)) (s : State) : Result :=
  let f := fn.val
  .next (takeReturns (updQp f qp.val (fun v => { v with reads := markReturn entries v.reads }) s))

/-- COMMAND_SLOT_ALLOCATE: the entry at the head of a fetch queue takes a free slot, its Flow Tag is built, and it starts
(R18, R69, R71, R77). DESIGN CHOICE (log entry 92): R44 and R92 stop fetching alone, so an entry that is already in the fetch
queue takes its slot and starts while Shutdown is 1, and after ShutdownDone too. -/
def execCommandSlotAllocate (fn : FnId) (qp : Fin 4096) (s : State) : Result :=
  let f := fn.val
  match getQp s f qp.val with
  | none => .next s
  | some v =>
    match v.fetchQ with
    | [] => .next s
    | x :: t =>
      if v.frozen || v.reset.isSome || decide (v.maxOut ≤ qpHeld s f qp.val) || !slotFree s f then .next s
      else match freeSlot s with
        | none => .next s
        | some slot =>
          if 65536 ≤ slot then .next s
          else
            let sg := if eDataMode x.entry = 1 then [(eAddr x.entry, eLen x.entry)] else []
            let c : Cmd := { fn := f, qp := qp.val, epoch := v.epoch, seq := x.seq, headAfter := x.headAfter, entry := x.entry,
                             verdict := x.verdict, tag := newTag s f qp.val slot v.epoch x.entry, sg := sg }
            .next (setCmd slot c (setQp f qp.val { v with fetchQ := t, fqPtrs := fqRead v.fqPtrs } s))

/-- SQ_ENTRY_READ_FAILURE (R81): INTERNAL_ERROR with CommandId 0xFFFF; the head stays at the failed entry. -/
def execSqEntryReadFailure (fn : FnId) (qp : Fin 4096) (access : HostAccess) (s : State) : Result :=
  let f := fn.val
  match getQp s f qp.val with
  | none => .next s
  | some v =>
    if !(v.reads.any fun r => r.2.2.isNone) then .next s
    else
      let kept := v.reads.takeWhile fun r => r.2.2.isSome
      let head := (v.sqHead + (kept.map (·.2.1)).sum) % v.sqDepth
      let tag := flowTag 0 (qpIndex s f qp.val) 0 0 false 0 0xFFFFFFFFFFFF 7 0 v.epoch
      let v := logError { status := .internalError, cid := 0xFFFF, sequence := 0, epoch := v.epoch, opcode := 0, timestamp := s.time,
                          flowTag := tag, block := bHqe, hostAccess := hostAccessCode access }
        { v with reads := kept, sqReq := head, frozen := true }
      .next (takeReturns (postCpl f qp.val
        ⟨none, none, { epoch := v.epoch, status := .internalError, cid := 0xFFFF, sqHead := head }⟩ (setQp f qp.val v s)))

/-- A command that moves data to or from the host at this moment: its list, its record lengths or its data. -/
def moving (c : Cmd) : Bool :=
  match c.stage with
  | .lists => true
  | .writing w => !c.orphan && (!w.lensKnown || decide (w.got < w.lens.sum))
  | .reading _ => true
  | .started => c.verdict.isNone && decide (eDataMode c.entry ≠ 0) && !isIo (eOpcode c.entry)
  | .waiting => decide (eOpcode c.entry = opDictRead)
  | _ => false

/-- A host access of a command's data failed (R81); the read of a command that was carried on without a completion ends it
too (R89, R598). -/
def transferFailed (slot : Nat) (a : HostAccess) (offset : Nat) (s : State) : State :=
  match getCmd s slot with
  | none => s
  | some c =>
    if !moving c then s
    else failCmd slot .internalError { block := bHqe, hostAccess := hostAccessCode a, byteOffset := offset } s

/-- DATA_TRANSFER_FAILURE (R81). -/
def execDataTransferFailure (slot : SlotId) (access : HostAccess) (offset : Nat) (s : State) : Result :=
  .next (transferFailed slot.val access offset s)

/-- HOST_READ_TIMEOUT: a data read still outstanding at the completion timeout (R81, R89). -/
def execHostReadTimeout (slot : SlotId) (offset : Nat) (s : State) : Result := .next (transferFailed slot.val .timeout offset s)

/-- The completion issued last is taken back: its completion queue slot and Phase are the next ones again, and it is held
with its command, in its slot or, where that has been taken, in the lowest free one (R59, R81; log entry 6). -/
def takeBack (f q : Nat) (s : State) : State :=
  match getQp s f q with
  | none => s
  | some v =>
    match v.recent with
    | [] => s
    | h :: t =>
      let back := match h.slot, h.cmd with
        | some n, some c =>
          let at' := if (getCmd s n).isNone then some n else Tab.lowest s.host.cmds 65536 0
          at'.map fun n => (n, c)
        | _, _ => none
      let s := match back with
        | some (n, c) => setCmd n { c with stage := .held, post := [] } s
        | none => s
      setQp f q { v with cqTail := (v.cqTail + v.cqDepth - 1) % v.cqDepth, phase := if v.cqTail = 0 then !v.phase else v.phase,
                         recent := t, held := { h with slot := back.map (·.1) } :: v.held } s

/-- Take back as many completions as given, the last first. -/
def takeBacks (f q : Nat) : Nat → State → State
  | 0, s => s
  | n + 1, s => takeBacks f q n (takeBack f q s)

/-- COMPLETION_WRITE_FAILURE: the write of the completion issued `later` completions before the last one failed; it and
every later one are held for the same completion queue slots and Phases (R81). -/
def execCompletionWriteFailure (fn : FnId) (qp : Fin 4096) (_access : HostAccess) (later : Nat) (s : State) : Result :=
  let f := fn.val
  match getQp s f qp.val with
  | none => .next s
  | some v =>
    if v.recent.length ≤ later then .next s
    else
      let s := updQp f qp.val (fun v => { v with writeFailed := true, frozen := true }) (takeBacks f qp.val (later + 1) s)
      .next (raise 0x402 [iFn f, iQp qp.val] s)

/-- The second copies of the write and the read pointer of a fetch queue, as an update finds them, agree with the first (R29, R31). -/
def fqAgrees (v : Qp) (write read : Fin 8) : Bool := v.fqPtrs.getD 0 0 == write.val && v.fqPtrs.getD 1 0 == read.val

/-- FETCH_QUEUE_MISMATCH: an update compares the two copies of the pointers; where they differ the instance stops and the queue
pair is reset without a completion (R29, R90).
DEDUCED (log entry 22): R49 says that nothing but AqRestart and AqReset clears AqFrozen; R90 resets the queue pair as R83
describes, whose step 5 unfreezes it, and R90 is the more specific, so a mismatch on an admin queue pair unfreezes it too. -/
def execFetchQueueMismatch (fn : FnId) (qp : Fin 4096) (write read : Fin 8) (s : State) : Result :=
  let f := fn.val
  match getQp s f qp.val with
  | none => .next s
  | some v =>
    if v.reset.isSome || fqAgrees v write read then .next s else .next (resetStart f qp.val { mismatch := true } s)

/-- UNKNOWN_OPCODE: the fetch has found the opcode invalid (R95). -/
def execUnknownOpcode (slot : SlotId) (s : State) : Result :=
  match getCmd s slot.val with
  | none => .next s
  | some c =>
    if c.stage = .started && !opcodes.contains (eOpcode c.entry) then .next (finish slot.val .invalidField bHqe s) else .next s

/-- The queue pair that a CREATE_QP makes (R53, R54, R111). -/
def newQp (s : State) (e : BitVec 512) : Qp :=
  { sqBase := eSqBase e, cqBase := eCqBase e, sqDepth := eSqDepth e, cqDepth := eCqDepth e, priority := ePriority e,
    maxOut := if eMaxOut e = 0 then param s 0x2010 4 else eMaxOut e, vector := eVector e, intEnable := eIntEnable e,
    intThreshold := eIntThreshold e, intTime := eIntTime e }

/-- CREATE_QP (R53, R54, R111). DESIGN CHOICE (log entry 93): of two that name one queue pair and were both admitted at their
fetches, the second gives STATE_CONFLICT. -/
def execCreateQp (slot : SlotId) (s : State) : Result :=
  .next (onCmd slot.val [opCreateQp] (fun c s =>
    let q := eLocalQp c.entry
    if (getQp s c.fn q).isSome then finish slot.val .stateConflict bStream s
    else
      let s := setQp c.fn q (newQp s c.entry) s
      finishWith slot.val .success [(12, qpIndex s c.fn q)] 0 s) s)

/-- DELETE_QP (R55). DESIGN CHOICE (log entry 93): the commands in flight and the held completions of the queue pair are
looked at again when the command runs, and a queue pair being reset gives STATE_CONFLICT; R55 names neither. -/
def execDeleteQp (slot : SlotId) (s : State) : Result :=
  .next (onCmd slot.val [opDeleteQp] (fun c s =>
    let q := eLocalQp c.entry
    match getQp s c.fn q with
    | none => finish slot.val .invalidField bHqe s
    | some v =>
      if 0 < qpHeld s c.fn q ∨ !v.held.isEmpty ∨ v.reset.isSome ∨ v.claim.isSome ∨ v.resetEnds then
        finish slot.val .stateConflict bStream s
      else finish slot.val .success 0 (takeReturns (updFn c.fn (fun x => { x with qps := Tab.del x.qps q }) s))) s)

/-- QUEUE_RESTART: its checks were made at its fetch (R82, R88, R98). -/
def execQueueRestart (slot : SlotId) (s : State) : Result :=
  .next (onCmd slot.val [opQueueRestart] (fun c s =>
    let q := eLocalQp c.entry
    match getQp s c.fn q with
    | none => finish slot.val .invalidField bHqe s
    | some _ => finish slot.val .success 0 (unfreeze c.fn q s)) s)

/-- QUEUE_RESET: step 1 of R83. A reset of R90 that runs meanwhile ends first (R88). -/
def execQueueReset (slot : SlotId) (s : State) : Result :=
  .next (onCmd slot.val [opQueueReset] (fun c s =>
    let q := eLocalQp c.entry
    match getQp s c.fn q with
    | none => finish slot.val .invalidField bHqe s
    | some v =>
      if v.reset.isSome then s
      else resetStart c.fn q { by' := some slot.val } (setStage slot.val .waiting s)) s)

/-- QUEUE_RESET_CUT: the reads have returned; steps 2 to 6 of R83 (R84-R86, R113). -/
def execQueueResetCut (fn : FnId) (qp : Fin 4096) (s : State) : Result := .next (resetCut fn.val qp.val s)

/-- Write a queue pair's error log to the host, oldest first, as many entries as fit whole, and complete (R78, R112). -/
def giveLog (slot : Nat) (c : Cmd) (room : Nat) (s : State) : State :=
  match getQp s c.fn (eLocalQp c.entry) with
  | none => finish slot .invalidField bHqe s
  | some v =>
    let n := min v.log.length (room / 64)
    let bytes := (v.log.take n).flatMap fun e => leBytes 64 (e.entry v.lost).toNat
    finishWith slot .success [(5, n), (27, 0), (5, v.log.length)] 0 (toHostMem slot false bytes s)

/-- GET_LOG: a contiguous buffer is written at once; a list is read first (R96, R112, R113). -/
def execGetLog (slot : SlotId) (s : State) : Result :=
  .next (onCmd slot.val [opGetLog] (fun c s =>
    if eDataMode c.entry = 1 then giveLog slot.val c (eLen c.entry) s else setStage slot.val .lists s) s)

end Sys2Proof.Machine
end

