-- ==== Sys2Proof/Machine/Buffers.lean ====
section
/-! DEFINITION. The requests that reach the Buffer Pool Manager with their Flow Tags: ALLOC, REF, GIVE and FREE (R18, R22,
R25, R188-R197). -/

namespace Sys2Proof.Machine

/-- A request whose tag fails its parity is not acted on: it is answered with PARITY_POISON, and the command that the tag names
ends with INTERNAL_ERROR (R22). -/
def poisonedTag (owner : Nat) (tag : BitVec 128) (s : State) : State := badTag owner none tag bBpm s

/-- Place of an owner in round-robin order from the pointer (R197). -/
def rrPlace (s : State) (owner : Nat) : Nat := (owner + 256 - s.bpm.rr) % 256

/-- A request comes before another in a cycle: by class, then in round-robin order (R197). -/
def before (s : State) (a b : AllocReq) : Bool :=
  let x := classOf a.owner.toNat a.cls
  let y := classOf b.owner.toNat b.cls
  decide (x < y ∨ (x = y ∧ rrPlace s a.owner.toNat < rrPlace s b.owner.toNat))

/-- Insert a request at its place in the order of a cycle. -/
def insertReq (s : State) (a : AllocReq) : List AllocReq → List AllocReq
  | [] => [a]
  | b :: t => if before s a b then a :: b :: t else b :: insertReq s a t

/-- At the start of the cycle a buffer was available to the class in a pool that fits (R197). -/
def wasAvailable (s0 : State) (cls size : Nat) : Option Nat := choosePool s0 cls size

/-- A request for which no pool has a buffer (R194). DESIGN CHOICE (log entry 111): one that comes while the data path is reset is
held with back-pressure whatever its class (R546), and no pool counts it. -/
def refuse (a : AllocReq) (s : State) : State :=
  let o := a.owner.toNat
  let c := classOf o a.cls
  if c = 2 && !resetting s 1 then
    let p := (poolsFor a.size).headD 4
    answer o .poolEmpty none a.tag (updPool p (fun x => { x with refused := sat32 (x.refused + 1) }) s)
  else (holdReq o c a.size a.tag s).1

/-- Grant a buffer of a pool to a request (R18, R188, R197). -/
def grantReq (a : AllocReq) (p : Nat) (s : State) : State :=
  let r := takeBuf a.owner.toNat p s
  retag a.tag r.2 (answer a.owner.toNat .done (some r.2) a.tag r.1)

/-- Decide one request of a cycle that began in `s0`. Answers the requests that lost their buffer to a grant of the same cycle
and are issued again (R197). -/
def decideReq (s0 : State) (r : State × List AllocReq) (a : AllocReq) : State × List AllocReq :=
  let (s, again) := r
  let o := a.owner.toNat
  let c := classOf o a.cls
  if !tagIntact a.tag a.parity then (poisonedTag o a.tag s, again)
  else if a.size = 0 ∨ a.size > 25165824 then (answer o .poolEmpty none a.tag s, again)
  else match choosePool s c a.size with
    | some p => (grantReq a p s, again)
    | none =>
      match wasAvailable s0 c a.size with
      | some p =>
        let s := updPool p (fun x => { x with lostConcurrent := sat32 (x.lostConcurrent + 1) }) s
        (answer o .lostConcurrent none a.tag s, if c = 2 then again else again ++ [a])
      | none => (refuse a s, again)

/-- A request that is issued again after LOST_CONCURRENT (R194, R195, R197). -/
def retryReq (s : State) (a : AllocReq) : State :=
  match choosePool s (classOf a.owner.toNat a.cls) a.size with
  | some p => grantReq a p s
  | none => refuse a s

/-- ALLOC: the requests of one CORE cycle, at most four, are decided together, by class and then in round-robin order of
owners (R188-R190, R193, R194, R197). -/
def execAlloc (reqs : List AllocReq) (s : State) : Result :=
  let order := reqs.foldl (fun l a => insertReq s a l) []
  let r := order.foldl (decideReq s) (s, [])
  .next (r.2.foldl retryReq r.1)

/-- A REF, GIVE or FREE request arrives: a tag that fails its parity is not acted on (R22); while the data path is reset the
request is held with back-pressure (R184, R546). -/
def bufRequest (r : BufReq) (parity : BitVec 4) (s : State) : State :=
  if !tagIntact r.tag parity then poisonedTag r.owner.toNat r.tag s
  else if resetting s 1 then
    answer r.owner.toNat .backpressure none r.tag { s with bpm := { s.bpm with later := s.bpm.later ++ [r] } }
  else r.run s

/-- REF (R189, R191, R192). -/
def execRef (owner : Byte) (pool : Fin 5) (index : Fin 32768) (tag : BitVec 128) (parity : BitVec 4) (s : State) : Result :=
  .next (bufRequest ⟨.ref, owner, pool.val * 32768 + index.val, tag⟩ parity s)

/-- GIVE: the tag of the command then names the buffer (R18, R189, R191). -/
def execGive (owner : Byte) (pool : Fin 5) (index : Fin 32768) (newOwner : Byte) (tag : BitVec 128) (parity : BitVec 4)
    (s : State) : Result :=
  .next (bufRequest ⟨.give newOwner, owner, pool.val * 32768 + index.val, tag⟩ parity s)

/-- FREE (R189, R191, R192, R183). -/
def execFree (owner : Byte) (pool : Fin 5) (index : Fin 32768) (tag : BitVec 128) (parity : BitVec 4) (s : State) : Result :=
  .next (bufRequest ⟨.free, owner, pool.val * 32768 + index.val, tag⟩ parity s)

end Sys2Proof.Machine
end

