-- ==== Sys2Proof/Machine/Detect.lean ====
section
/-! DEFINITION. What a read channel makes of the samples of a slot: the target, the defect flags, hard decisions, the sync
window, the header and the codeword (R373, R380, R383, R387-R396). -/

namespace Sys2Proof.Machine

/-- The TLCS is in lock (R373). -/
def inLock (s : State) : Bool := s.tlcs.state = .locked || s.tlcs.state = .flywheel

/-- Subindex of the sync offset for the direction of travel on a wrap (R281, R402). -/
def offsetSub (wrap : Nat) : Nat := if wrapForward wrap then 16 else 17

/-- The sync offset of a channel for the direction of a wrap is unlearned (R381). -/
def unlearnedOn (s : State) (p wrap : Nat) : Bool := decide (param s (0x4000 + p) (offsetSub wrap) = 0x7FFFFFFF)

/-- The tilt term of R380 in 1/64 channel bit, for a track `dy` quarter nanometres from the lower clock track centreline,
the length difference of the bands in 1/64 bit and the reader span: the tangent of an arc sine is taken from its sine; none when
the manual gives no angle (R377, R380). -/
def tiltTerm (dy deltaL : Int) (span : Nat) : Option Int :=
  let d := deltaL.natAbs * 10 ^ 6
  let h := 64 * 44882 * span
  if h ≤ d then none else some (roundDiv (16 * 44882 * 10 ^ 6 * dy * deltaL) (Nat.sqrt ((h * h - d * d) * 10 ^ 12)))

/-- Distance of a channel's track on a wrap from the lower clock track centreline, in quarters of a nanometre, the track pitch
being 206.5 nm (R276, R380, R381). -/
def trackOffset (chan wrap : Nat) : Int := (80000 + 413 * (2 * (96 * chan + wrap % 96) + 1) : Nat)

/-- P of R380 in 1/64 channel bit, without the tilt term; an unlearned offset counts as 0 (R380, R381). -/
def predictFlat (s : State) (chan wrap : Nat) (lead : Int) : Int :=
  let x := 64 * lead + (if wrapForward wrap then 48 else -48)
  let o := if unlearnedOn s chan wrap then 0 else signedOf 4 (param s (0x4000 + chan) (offsetSub wrap))
  64 * x - o

/-- The speed step nearest to the set-point of the reel loop: it changes at the midpoint of a ramp between two steps (R363, R382). -/
def stepNear (s : State) : Nat := min 24 (((loopOf s 3).setpoint.natAbs - 1100000) / 200000)

/-- Corner of a channel's low-pass filter in Hz: 0.45 of the channel bit rate of the step (R363, R382). -/
def ctfCorner (s : State) : Nat := 45 * 44882 * stepSpeed (stepNear s) / 100000

/-- The sync window of a slot that lies on a wrap, with its leading edge and the number a dataset there carries, as the TLCS
stands (R373, R379, R380). -/
def windowAt (s : State) (chan slot wrap number : Nat) (lead : Int) : SyncWindow :=
  let tilt := (tiltTerm (trackOffset chan wrap) s.tlcs.deltaL (param s 0x4860 4)).getD (Config.freeInt s.drawn)
  let p := predictFlat s chan wrap lead - tilt
  { slot := slot, wrap := wrap, lock := inLock s, lead := lead, number := number, predicted := p,
    setting := p + (getChan s chan).loops.phase, corner := ctfCorner s }

/-- P rounded to a whole bit (R392). -/
def SyncWindow.center (w : SyncWindow) : Int := (w.predicted + 32) / 64

/-- Position counts up in forward motion and down in reverse (R375, R380). -/
def SyncWindow.sigma (w : SyncWindow) : Int := if wrapForward w.wrap then 1 else -1

/-- Taps of the target that the equaliser shapes the signal to, the newest bit first: EPR4 or PR4 (R383). -/
def targetTaps (target : Nat) : List Int := if target = 1 then [1, 0, -1] else [1, 1, -1, -1]

/-- A of the target, in codes (R383). -/
def targetScale (target : Nat) : Int := if target = 1 then 20 else 12

/-- Ideal output level of the target for the bits recorded, the newest first (R383). -/
def idealLevel (target : Nat) (bits : List Bool) : Int :=
  targetScale target * ((targetTaps target).zipWith (fun c b => if b then c else -c) bits).sum

/-- The outer level, which the gain loop holds: 4A, or 2A for PR4 (R383). -/
def outerLevel (target : Nat) : Nat := (idealLevel target ((targetTaps target).map fun c => decide (0 < c))).natAbs

/-- States of the detector's trellis: one for each pattern of the bits that the target remembers (R383, R389). -/
def detectorStates (target : Nat) : Nat := 2 ^ ((targetTaps target).length - 1)

/-- A sample after asymmetry correction, in 1/16384 code: x - a x² / 64, with a in units of 1/256 (R382). -/
def asymFixed (a x : Int) : Int := 16384 * x - a * x * x

/-- The sums of products of a filter with a signal, from each place on. -/
def firFrom (taps : List Int) : List Int → List Int
  | [] => []
  | x :: l => ((x :: l).zipWith (· * ·) taps).sum :: firFrom taps l

/-- The equalised samples, in 2^-22 code: the asymmetry correction, then the FIR filter of 15 taps, whose centre is tap 7 (R382). -/
def equalised (c : Loops) (l : List ChanSample) : List Int :=
  let x := l.map fun v => asymFixed c.asym v.adc
  (firFrom c.eq.reverse (List.replicate 7 0 ++ x ++ List.replicate 7 0)).take x.length

/-- At each sample, whether the run of `w` samples that starts there is whole and fails a test. -/
def windowFails {α : Type} (w : Nat) (bad : List α → Bool) : List α → List Bool
  | [] => []
  | x :: l => (let r := (x :: l).take w; decide (r.length = w) && bad r) :: windowFails w bad l

/-- Each place at most `n` places after a true one, with `left` places still to come of an earlier one. -/
def spreadAfter (n : Nat) : Nat → List Bool → List Bool
  | _, [] => []
  | left, b :: l => let k := if b then n + 1 else left; decide (0 < k) :: spreadAfter n (k - 1) l

/-- The runs of `w` samples that fail, extended by `guard` samples on each side (R387). -/
def flagRuns (w guard : Nat) (starts : List Bool) : List Bool :=
  (spreadAfter (w - 1 + guard) 0 starts).zipWith (· || ·) (spreadAfter guard 0 starts.reverse).reverse

/-- The envelope of equalised samples: the greatest magnitude. -/
def envelope (l : List Int) : Nat := l.foldl (fun m x => max m x.natAbs) 0

/-- Dropout: the envelope over `DefectWindow` bits is below `DefectDropThreshold` percent of the target's outer level (R387). -/
def dropout (target threshold : Nat) (l : List Int) : Bool :=
  decide (100 * envelope l < threshold * outerLevel target * 2 ^ 22)

/-- Baseline shift: the mean of 8 ADC samples lies more than `TaThreshold` codes from the offset loop's value, which counts quarter
codes (R382, R387). -/
def baselineShift (threshold : Nat) (offset : Int) (l : List ChanSample) : Bool :=
  decide (8 * threshold < ((l.map (·.adc)).sum - 2 * offset).natAbs)

/-- Saturation: 4 or more of 16 ADC samples at an end of the range (R387). -/
def saturated (l : List ChanSample) : Bool := decide (4 ≤ (l.filter fun x => x.adc == -64 || x.adc == 63).length)

/-- The defect flags of the samples of a channel (R387). -/
def defectFlags (s : State) (chan : Nat) (l : List ChanSample) : List Bool :=
  let guard := param s 0x4850 6
  let w := param s 0x4850 5
  let drops := flagRuns w guard (windowFails w (dropout s.rd.eqTarget (param s 0x4850 4)) (equalised (getChan s chan).loops l))
  let shifts := flagRuns 8 guard (windowFails 8 (baselineShift (param s 0x4850 11) (getChan s chan).loops.offset) l)
  let ends := flagRuns 16 guard (windowFails 16 saturated l)
  (drops.zipWith (· || ·) shifts).zipWith (· || ·) ends

/-- Length of the longest run of flags, with `run` flags before the list (R388). -/
def longestRun : Nat → List Bool → Nat
  | run, [] => run
  | run, b :: l => if b then longestRun (run + 1) l else max run (longestRun 0 l)

/-- One bit at the detector: its soft value and whether it is flagged (R388, R389). -/
structure DetBit where
  soft : Int
  flag : Bool
  deriving DecidableEq, Repr

/-- The hard decision: the sign of the soft value (R389). -/
def DetBit.hard (b : DetBit) : Bool := decide (0 ≤ b.soft)

/-- The soft value with a flagged bit as an erasure (R388). -/
def DetBit.level (b : DetBit) : Int := if b.flag then 0 else b.soft

/-- The bits of a slot with their flags (R387-R389). -/
def detected (s : State) (chan : Nat) (l : List ChanSample) : List DetBit :=
  l.zipWith (fun x f => ⟨x.soft, f⟩) (defectFlags s chan l)

/-- Drop each 33rd bit of the 32/33 code (R293, R389). -/
def demodulate {α : Type} : Nat → List α → List α
  | 0, _ => []
  | n + 1, l => l.take 32 ++ demodulate n (l.drop 33)

/-- Soft values of 32/33 words: the 33rd bit adds its evidence, inverted, to the bit before it (R293, R388, R389). -/
def softWords : Nat → List DetBit → List Int
  | 0, _ => []
  | n + 1, l =>
    let w := (l.take 33).map DetBit.level
    w.take 31 ++ ((w.drop 31).take 1).map (fun x => x - (w.getD 32 0)) ++ softWords n (l.drop 33)

/-- The output of the scrambler for the header and codeword bits of a channel and slot (R292). -/
def scramblerKey (chan slot : Nat) : List Bool := scramble (scramblerSeed chan slot) (List.replicate 16576 false)

/-- The number that bits spell, the first the most significant. -/
def bitsNat (l : List Bool) : Nat := l.foldl (fun n b => 2 * n + b.toNat) 0

/-- What a channel has at one position of a sync window (R389-R394). -/
structure SyncTry where
  /-- The position at which the 32 bits end: the value of `TlcsPosition`, in whole channel bits. -/
  pos : Int
  /-- The 32 hard decisions that end there, and which of them the defect detector flagged. -/
  word : BitVec 32
  flags : BitVec 32
  /-- The header decoded from there, descrambled: its content bits and its CRC (R289). -/
  content : BitVec 176
  crc : BitVec 16
  /-- What the C1 decoder makes of the soft values of the codeword from there, if it takes them (R316, R390). -/
  c1 : Option C1Decode
  /-- Payload and parity bits decoded otherwise than the hard decision of the detector (R391). -/
  corrected : Nat
  deriving DecidableEq, Repr

/-- Number of samples up to a position and with it (R380). -/
def samplesTo (w : SyncWindow) (rd : SectorRead) (q : Int) : Int := (q - rd.start) * w.sigma + 1

/-- The try at a position whose header lies within the samples (R389, R391, R392). -/
def tryAt (w : SyncWindow) (chan : Nat) (rd : SectorRead) (bits : List DetBit) (q : Int) : Option SyncTry :=
  let n := (samplesTo w rd q).toNat
  let mark := bits.take n |>.drop (n - 32)
  let rest := bits.drop n
  if n < 32 ∨ mark.length < 32 ∨ (rest.take 198).length < 198 then none
  else
    let key := scramblerKey chan w.slot
    let head := (demodulate 6 ((rest.take 198).map DetBit.hard)).zipWith (fun a b => a != b) key
    let body := (rest.drop 198).take 16896
    let tail := key.drop 192
    let input := (softWords 512 body).zipWith (fun x b => if b then -x else x) tail
    let hard := (demodulate 512 (body.map DetBit.hard)).zipWith (fun a b => a != b) tail
    let r := rd.c1.find? fun r => r.input == input
    some { pos := q, word := BitVec.ofNat 32 (bitsNat (mark.map DetBit.hard)), flags := BitVec.ofNat 32 (bitsNat (mark.map (·.flag))),
           content := BitVec.ofNat 176 (bitsNat (head.take 176)), crc := BitVec.ofNat 16 (bitsNat (head.drop 176)), c1 := r,
           corrected := match r with
             | some r => ((hard.zipWith (fun a b => a != b) (bitsOf r.codeword)).filter id).length
             | none => 0 }

/-- Flagged bits from a sync mark that ends at a position to the last codeword bit (R388, R398). -/
def flaggedAt (w : SyncWindow) (rd : SectorRead) (bits : List DetBit) (q : Int) : Nat :=
  let a := samplesTo w rd q - 32
  let b := samplesTo w rd q + 17094
  (((bits.take b.toNat).drop a.toNat).filter (·.flag)).length

/-- The tries of the positions at most `reach` bits from P (R381, R392). -/
def triesOf (w : SyncWindow) (chan reach : Nat) (rd : SectorRead) (bits : List DetBit) : List SyncTry :=
  (List.range bits.length).filterMap fun (k : Nat) =>
    let q := rd.start + w.sigma * k
    if (q - w.center).natAbs ≤ reach then tryAt w chan rd bits q else none

/-- Differences of the 32 hard decisions from the sync mark; a flagged bit counts as a difference (R392). -/
def syncDiffs (t : SyncTry) : Nat :=
  let x := (t.word ^^^ 0xE3A61D59#32) ||| t.flags
  ((List.range 32).filter fun i => x.getLsbD i).length

/-- The header that a slot of a dataset written there carries at its home (R295), or that of an EOD sector (R306). -/
def homeFits (w : SyncWindow) (chan : Nat) (h : SectorHeader) : Bool :=
  decide (h.dataset = w.number ∧ h.wrap = w.wrap ∧ h.row = w.slot ∧ h.physical = chan) &&
  ((decide (h.slotType = 0) && decide (h.logical = logicalOf (rotationOf w.number) w.slot chan)) ||
   (h.endOfData && decide (w.slot < 3 ∧ h.logical = chan ∧ h.rotation = 0xFF ∧ h.headerPart = 0) && !h.headerSector &&
     !h.degraded && (h.indexRegion == decide (w.wrap < 2))))

/-- A header fits its slot (R394). -/
def headerFits (w : SyncWindow) (chan : Nat) (h : SectorHeader) : Bool :=
  (if w.slot < 96 then homeFits w chan h
   else decide (h.slotType = 1 ∨ h.slotType = 2 ∨ h.slotType = 3) && decide ((h.lpos : Int) = w.lead)) &&
  (h.indexRegion || decide (2 ≤ w.wrap))

/-- The header CRC of a try passes (R291). -/
def crcPasses (t : SyncTry) : Bool := headerCrc t.content == t.crc

/-- A position whose header CRC passes and whose header fits the slot (R291, R394). -/
def headerFound (w : SyncWindow) (chan : Nat) (t : SyncTry) : Bool := crcPasses t && headerFits w chan (headerOf t.content)

/-- The order of R393: fewer differences first, then nearer to P, then the later position in the direction of travel. -/
def triedBefore (w : SyncWindow) (a b : SyncTry) : Bool :=
  let c := w.center
  let later := if wrapForward w.wrap then decide (b.pos < a.pos) else decide (a.pos < b.pos)
  if syncDiffs a ≠ syncDiffs b then decide (syncDiffs a < syncDiffs b)
  else if (a.pos - c).natAbs ≠ (b.pos - c).natAbs then decide ((a.pos - c).natAbs < (b.pos - c).natAbs)
  else later

/-- Put a candidate into its place. -/
def putCand (w : SyncWindow) (t : SyncTry) : List SyncTry → List SyncTry
  | [] => [t]
  | x :: l => if triedBefore w t x then t :: x :: l else x :: putCand w t l

/-- The candidates of a window of `reach` bits on each side of P, in the order of R393 (R392). -/
def candidates (w : SyncWindow) (reach maxErrors : Nat) (tries : List SyncTry) : List SyncTry :=
  (tries.filter fun t => decide ((t.pos - w.center).natAbs ≤ reach ∧ syncDiffs t ≤ maxErrors)).foldr (putCand w) []

/-- A sync search under way, and its end (R391, R393). -/
structure SyncSearch where
  /-- A header that passes was found. -/
  found : Bool := false
  decodes : Nat := 0
  /-- Channel-clock cycles spent on attempts. -/
  spent : Nat := 0
  /-- Iterations and corrected bits of the last attempt. -/
  iterations : Nat := 0
  corrected : Nat := 0
  /-- The position last tried. -/
  last : Int := 0
  /-- The position accepted, and whether it was a blind one. -/
  accepted : Option (SyncTry × Bool) := none
  deriving DecidableEq, Repr

/-- Cycles of an attempt of so many iterations (R390). -/
def attemptCycles (iterations : Nat) : Nat := 8 + 128 * iterations + 16

/-- C1 converges: the decoder's hard decision is a codeword within the iteration limit (R316, R390). -/
def c1Converges (limit : Nat) (t : SyncTry) : Bool :=
  match t.c1 with
  | some r => decide (r.iterations ≤ limit) && c1Ok r.codeword
  | none => false

/-- The loop of R393 over positions, each with what the channel has there, if its header can be right, and whether it is a
blind one. `fits` is the test of the header, `limit` the iteration limit, `most` is `SyncMaxDecodes` (R393, R395). -/
def searchFrom (fits : SyncTry → Bool) (limit most : Nat) : List (Int × Option SyncTry × Bool) → SyncSearch → SyncSearch
  | [], r => r
  | (q, t?, blind) :: l, r =>
    let r := if r.decodes = 0 then { r with last := q } else r
    match t? with
    | none => searchFrom fits limit most l r
    | some t =>
      if !fits t then searchFrom fits limit most l r
      else
        let r := { r with found := true }
        if most ≤ r.decodes || decide (16384 < r.spent + attemptCycles limit) then r
        else
          let ok := c1Converges limit t
          let n := if ok then (t.c1.map (·.iterations)).getD limit else limit
          let r := { r with decodes := r.decodes + 1, spent := r.spent + attemptCycles n, iterations := n, corrected := t.corrected,
                            last := q }
          if ok then { r with accepted := some (t, blind) } else searchFrom fits limit most l r

/-- The positions of R393: the candidates, then the blind positions. -/
def searchOrder (w : SyncWindow) (reach maxErrors : Nat) (tries : List SyncTry) : List (Int × Option SyncTry × Bool) :=
  let cand := candidates w reach maxErrors tries
  let blind := [0, -1, 1, -2, 2].map (w.center + ·)
  cand.map (fun t => (t.pos, some t, false)) ++
    (blind.filter fun q => !cand.any fun t => t.pos == q).map fun q => (q, tries.find? (fun t => t.pos == q), true)

/-- The accepted position was a blind one. -/
def SyncSearch.blind (r : SyncSearch) : Bool := match r.accepted with | some (_, b) => b | none => false

/-- What a channel delivers for a slot (R397, R398). -/
structure SectorFound where
  outcome : SectorOutcome
  search : SyncSearch
  /-- Flagged bits from the sync mark to the last codeword bit, at the position last tried. -/
  flagged : Nat
  deriving DecidableEq, Repr

/-- Bits on each side of P that a search takes in: 2,048 in a calibration (R381, R392). -/
def readReach (unknown : Bool) : Nat := if unknown then 2048 else 12

/-- The search, decoding and outcome of a slot whose window opened in lock; a slot with more than `DefectSectorErase` flagged bits
is not decoded (R388, R390, R391, R393, R398). -/
def searchSlot (s : State) (chan reach limit most : Nat) (fits : SyncTry → Bool) (w : SyncWindow) (rd : SectorRead) : SectorFound :=
  let bits := detected s chan rd.samples
  let order := searchOrder w reach (param s 0x4850 2) (triesOf w chan (max reach 2) rd bits)
  let first := ((order.find? fun x => match x.2.1 with | some t => fits t | none => false).map (·.1)).getD w.center
  let defect := decide (param s 0x4850 7 < flaggedAt w rd bits first)
  let r := searchFrom fits limit (if defect then 0 else most) order {}
  let o : SectorOutcome := if defect then .defect else if r.accepted.isSome then .accepted else if r.found then .c1Failed else .noSync
  ⟨o, r, flaggedAt w rd bits r.last⟩

/-- A load check of a sector of a slot, and the header with which it passes (R394, R434). -/
def loadCheck (s : State) (chan : Nat) (w : SyncWindow) (rd : SectorRead) : Option SectorHeader :=
  if !w.lock || unlearnedOn s chan w.wrap then none
  else
    let f := searchSlot s chan 2 (param s 0x4820 3) (param s 0x4850 3) (headerFound w chan) w rd
    match f.search.accepted with
    | some (t, _) => if f.flagged ≤ param s 0x4820 5 then some (headerOf t.content) else none
    | none => none

end Sys2Proof.Machine
end

