-- ==== Sys2Proof/Machine/Streams.lean ====
section
/-! DEFINITION. Streams, the numbering of records, and the intake of WRITE data (R62-R64, R107, R119-R129, R137, R146-R160,
R199). -/

namespace Sys2Proof.Machine

/-- Type, length and address of a descriptor (R62). -/
def sgType (w : BitVec 128) : Nat := (w.extractLsb' 96 8).toNat
def sgLen (w : BitVec 128) : Nat := (w.extractLsb' 64 32).toNat
def sgAddr (w : BitVec 128) : Nat := (w.extractLsb' 0 64).toNat
def sgReserved (w : BitVec 128) : Bool := w.extractLsb' 104 24 == 0#24

/-- Walk a scatter-gather list given as its descriptors in order: `left` of the present segment, data descriptors and links
so far. Answers address and length of each data descriptor in list order; none is INVALID_FIELD (R63, R64). -/
def sgWalk : Nat → Nat → Nat → List (BitVec 128) → Option (List (Nat × Nat))
  | 0, _, _, [] => some []
  | 0, _, _, _ :: _ => none
  | _ + 1, _, _, [] => none
  | left + 1, data, links, w :: t =>
    if !sgReserved w || sgLen w = 0 then none
    else if sgType w = 0 then
      (if 65536 ≤ data then none else (sgWalk left (data + 1) links t).map ((sgAddr w, sgLen w) :: ·))
    else if sgType w = 1 then
      if left ≠ 0 ∨ 256 < sgLen w ∨ sgAddr w % 16 ≠ 0 ∨ 65536 ≤ links then none else sgWalk (sgLen w) data (links + 1) t
    else none

/-- Bytes that a walked list describes. -/
def sgTotal (l : List (Nat × Nat)) : Nat := (l.map (·.2)).sum

/-- Walk the list of a command and keep what it describes; a fault ends the command with INVALID_FIELD before any of its data has
moved (R63, step 8 of R96). -/
def walkList (slot : Nat) (c : Cmd) (words : List (BitVec 128)) (s : State) (k : Nat → State → State) : State :=
  match sgWalk (eLen c.entry) 0 0 words with
  | none => complete slot (fun c => baseCpl c .invalidField) { block := bHqe } (noRun c.entry s)
  | some l => k (sgTotal l) (updCmd slot (fun c => { c with sg := l }) s)

/-- Length list entries: little-endian 32-bit words (R121). -/
def lengthWords : Nat → List Byte → List Nat
  | 0, _ => []
  | n + 1, l => leNat (l.take 4) :: lengthWords n (l.drop 4)

/-- Lengths and data size agree (R106, R107, R122); a uniform length has been judged at the fetch (R98). -/
def lengthsOk (s : State) (e : BitVec 512) (lens : List Nat) (total : Nat) : Bool :=
  (!eLenMode e || lens.all (fun n => decide (n ≤ s.recordLengthLimit))) && decide (lens.sum = total) &&
    decide (eDataMode e = 0 ↔ total = 0)

/-- Both lists of a WRITE are known: refuse it, or let its transfer begin, held back by the throttle (R122, R199). -/
def writeReady (slot : Nat) (c : Cmd) (w : WriteJob) (s : State) : State :=
  match w.total with
  | none => setJob slot w s
  | some total =>
    if w.lens.length < eCount c.entry then setJob slot w s
    else if !lengthsOk s c.entry w.lens total then
      complete slot (fun c => baseCpl c .lengthInvalid) { block := bHqe } (noRun c.entry (setJob slot w s))
    else setJob slot { w with lensKnown := true, arrived := decide (total = 0), arrivedAt := s.time.toNat,
                              throttled := s.bpm.above && decide (0 < total) } s

/-- WRITE: the lists are asked for, or the transfer may begin (R121, R122, R199). -/
def execWrite (slot : SlotId) (s : State) : Result :=
  .next (onCmd slot.val [opWrite] (fun c s =>
    let e := c.entry
    let w : WriteJob := {
      lens := if eLenMode e then [] else List.replicate (eCount e) (eRecLen e),
      total := if eDataMode e = 2 then none else if eDataMode e = 1 then some (eLen e) else some 0 }
    match getStream s (eStream e) with
    | none => finish slot.val .transportFault bTce s
    | some _ => writeReady slot.val c w s) s)

/-- A WRITE whose transfer has not begun is held back while `DatasetAbove` is 1, until its release, and behind one fetched before
it that was held back and has not begun either (R199). -/
def heldBack (s : State) (c : Cmd) (w : WriteJob) : Bool :=
  decide (w.got = 0) && (s.bpm.above || (w.throttled && !w.released) || s.host.cmds.any fun p => decide (p.2.seq < c.seq) &&
    (match p.2.stage with | .writing v => v.throttled && decide (v.got = 0) && !p.2.orphan | _ => false))

/-- Data of a WRITE arrives in an intake buffer that the HQE owns, which the command's tag then names (R18, R189, R196, R199);
data that returns while the queue pair is being reset is discarded (R83). -/
def dataRead (slot buf : Nat) (c : Cmd) (bytes : List Byte) (w : WriteJob) (s : State) : State :=
  let own := match Tab.get? s.bpm.bufs buf with | some b => b.owner == 0x10#8 | none => false
  if !w.lensKnown || heldBack s c w || cutOff s c || w.ended || !own || decide (w.lens.sum < w.got + bytes.length) || bytes.isEmpty then s
  else
    let off := Tab.getD s.pack.intakeFill buf 0
    let left := Tab.put s.pack.intakeLeft buf (Tab.getD s.pack.intakeLeft buf 0 + bytes.length)
    let s := { s with pack := { s.pack with intakeLeft := left, intakeFill := Tab.put s.pack.intakeFill buf (off + bytes.length) } }
    let s := setJob slot { w with intake := w.intake ++ [(buf, off, bytes)], got := w.got + bytes.length, arrived := true,
                                  arrivedAt := if w.arrived then w.arrivedAt else s.time.toNat } s
    updCmd slot (fun c => { c with tag := tagWithBuf c.tag buf }) s

/-- The list of an admin command has been read: a GET_LOG gives what fits; an FW_DOWNLOAD goes on with its data (R80, R112, R115).
DESIGN CHOICE (log entry 117): the manual names no status for a piece with Final 0 whose length is no multiple of 4,096; a list
gives LENGTH_INVALID here, a contiguous buffer INVALID_FIELD at step 3 of R96. -/
def listWalked (slot : Nat) (c : Cmd) (total : Nat) (s : State) : State :=
  if eOpcode c.entry = opGetLog then
    if total < 64 then finish slot .lengthInvalid bHqe s else giveLog slot c total s
  else if eOpcode c.entry = opFwDownload then
    if !eFinal c.entry && decide (total % 4096 ≠ 0) then finish slot .lengthInvalid bMgmt s else setStage slot .started s
  else s

/-- HOST_DATA_READ_DONE: record data, a length list or the descriptors of a list return from host memory
(R62, R63, R112, R122, R199). -/
def execHostDataReadDone (slot : SlotId) (kind : HostReadKind) (buf : Nat) (bytes : List Byte) (words : List (BitVec 128))
    (s : State) : Result :=
  match getCmd s slot.val with
  | none => .next s
  | some c =>
    if cutOff s c && !c.orphan then .next s
    else match c.stage with
    | .writing w =>
      match kind with
      | .data => .next (dataRead slot.val buf c bytes w s)
      | .lengthList =>
        if w.lensKnown || !eLenMode c.entry || !w.lens.isEmpty then .next s
        else .next (writeReady slot.val c { w with lens := lengthWords (eCount c.entry) bytes } s)
      | .sglTotal =>
        if w.total.isSome || decide (eDataMode c.entry ≠ 2) then .next s
        else .next (walkList slot.val c words s fun n s => writeReady slot.val c { w with total := some n } s)
    | .lists =>
      if kind ≠ .sglTotal then .next s
      else .next (walkList slot.val c words s fun n s => listWalked slot.val c n s)
    | .reading r =>
      if kind = .sglTotal && r.room.isNone then
        .next (walkList slot.val c words s fun n s => settle (setStage slot.val (.reading { r with room := some n }) s))
      else .next s
    | _ => .next s

/-- THROTTLE_RELEASE: the waiting WRITEs start their transfers, in fetch order (R199). -/
def execThrottleRelease (s : State) : Result :=
  if s.bpm.above then .next s
  else .next { s with host := { s.host with cmds := s.host.cmds.map fun p => match p.2.stage with
    | .writing w => (p.1, { p.2 with stage := .writing { w with released := true } })
    | _ => p } }

/-- A stream entry with the present numbers and a lease end (R157, R165). -/
def leaseEntry (n : Nat) (x : Stream) (lease : Nat) : IndexEntry :=
  .stream { clean := false, stream := n, owner := x.owner, comp := x.comp, cipher := x.cipher, next := x.next, lease := lease }

/-- Set a new lease end and queue its stream entry (R157). -/
def renewLease (n : Nat) (s : State) : State :=
  match getStream s n with
  | none => s
  | some x =>
    let lease := min (x.next + s.recordLease) 0xFFFFFFFFFFFF
    let s := updStream n (fun x => { x with pendingLease := lease }) s
    { s with wr := { s.wr with queued := s.wr.queued ++ [leaseEntry n x lease] } }

/-- WRITEs of a stream fetched before a number that have no run yet: in flight or in a fetch queue (R153). -/
def earlierNoRun (s : State) (n seq : Nat) : Bool :=
  (s.host.cmds.any fun p => eOpcode p.2.entry == opWrite && eStream p.2.entry == n && decide (p.2.seq < seq) && !p.2.orphan &&
    (match p.2.stage with
     | .writing w => w.run.isNone
     | .started => p.2.verdict.isNone
     | _ => false)) ||
  (s.host.fns.any fun f => f.2.qps.any fun q => q.2.fetchQ.any fun x =>
    eOpcode x.entry == opWrite && eStream x.entry == n && decide (x.seq < seq) && x.verdict.isNone)

/-- A WRITE of a stream waits on its lease and became ready before this one did (R153). -/
def leaseWaiters (s : State) (n seq : Nat) : Bool :=
  (((getStream s n).map (·.leaseQ)).getD []).takeWhile (· != seq) |>.any fun q =>
    match findWriter s q with | some (_, _, w) => w.wait == .lease | none => false

/-- Assign a run, wait for a lease, or refuse (R19, R123, R156, R157, R174). -/
def assignRun (slot : Nat) (c : Cmd) (w : WriteJob) (s : State) : State :=
  let n := eStream c.entry
  match getStream s n with
  | none => s
  | some x =>
    let k := eCount c.entry
    if eExpectNext c.entry && decide (eFirst c.entry ≠ x.next) then settle (stopWrite slot .stateConflict { block := bStream } s)
    else if 0xFFFFFFFFFFFF < x.next + k then settle (stopWrite slot .stateConflict { block := bStream } s)
    else if !indexRoom s n then
      settle (raise 0x541 [] (stopWrite slot .bufferExhausted { block := bStream, event := some 0x541 } s))
    else if x.durable < x.next + k ∨ leaseWaiters s n c.seq then
      let s := if x.pendingLease < x.next + k then renewLease n s else s
      let s := updStream n (fun x => { x with leaseQ := if x.leaseQ.contains c.seq then x.leaseQ else x.leaseQ ++ [c.seq] }) s
      setJob slot { w with wait := .lease } s
    else
      let s := runSettled n (updStream n (fun x =>
        { x with next := x.next + k, runs := x.runs ++ [⟨c.seq, x.next, k⟩], leaseQ := x.leaseQ.filter (· != c.seq) }) s)
      let s := updCmd slot (fun c =>
        { c with tag := tagWithRecord c.tag x.next, stage := .writing { w with run := some x.next, wait := .none } }) s
      let s := if x.pendingLease ≤ x.next + k + s.recordLease / 2 ∧ x.pendingLease < 0xFFFFFFFFFFFF then renewLease n s else s
      settle (packStream n s)

/-- The TIME from which a WRITE can be numbered: its first record has arrived, and of the WRITEs before an ordered one the last has
received its run or ended without one (R153, R154). -/
def readyAt (s : State) (n : Nat) (c : Cmd) (w : WriteJob) : Nat :=
  if eOrdered c.entry then max w.arrivedAt (((getStream s n).map (·.lastRun)).getD 0) else w.arrivedAt

/-- A WRITE of the stream fetched before this one became ready for numbering at the same TIME: it is numbered first (R154). -/
def earlierReady (s : State) (n : Nat) (c : Cmd) (w : WriteJob) : Bool :=
  s.host.cmds.any fun p => eOpcode p.2.entry == opWrite && eStream p.2.entry == n && decide (p.2.seq < c.seq) && !p.2.orphan &&
    (match p.2.stage with
     | .writing v => v.arrived && v.run.isNone && v.wait != .lease && !(eOrdered p.2.entry && earlierNoRun s n p.2.seq) &&
         decide (readyAt s n p.2 v = readyAt s n c w)
     | _ => false)

/-- RUN_ASSIGN: the first record has reached the Stream Service; a WRITE whose tag arrives with a parity error, or that needs a
poisoned entry of the stream's state, ends with INTERNAL_ERROR (R22, R123, R153, R154, R181). -/
def execRunAssign (slot : SlotId) (ecc : List EccWord) (tagOk : Bool) (s : State) : Result :=
  match getCmd s slot.val with
  | none => .next s
  | some c =>
    match c.stage with
    | .writing w =>
      if !w.arrived || w.run.isSome || w.wait ≠ .none then .next s
      else if !tagOk || poisonedIndex s ecc then
        .next (settle (stopWrite slot.val .internalError { response := Response.parityPoison.code, block := bStream }
          (answer 0x30 .parityPoison none c.tag (eccReads ecc s))))
      else if eOrdered c.entry && earlierNoRun s (eStream c.entry) c.seq then .next (setJob slot.val { w with wait := .ordered } s)
      else if earlierReady s (eStream c.entry) c w then .next s
      else .next (assignRun slot.val c w s)
    | _ => .next s

/-- ORDERED_RUN_RELEASE (R153). -/
def execOrderedRunRelease (slot : SlotId) (s : State) : Result :=
  match getCmd s slot.val with
  | none => .next s
  | some c =>
    match c.stage with
    | .writing w =>
      if w.wait ≠ .ordered || earlierNoRun s (eStream c.entry) c.seq || earlierReady s (eStream c.entry) c w then .next s
      else .next (assignRun slot.val c w s)
    | _ => .next s

/-- LEASE_WAIT_RELEASE: the run is assigned once the durable lease end covers it; where the numbers given to earlier waiters
leave the pending lease end short of it, a new one is set, and where they leave too few numbers the WRITE is refused (R156, R157). -/
def execLeaseWaitRelease (slot : SlotId) (s : State) : Result :=
  match getCmd s slot.val with
  | none => .next s
  | some c =>
    match c.stage with
    | .writing w =>
      if w.wait ≠ .lease || leaseWaiters s (eStream c.entry) c.seq then .next s
      else match getStream s (eStream c.entry) with
        | some x =>
          if decide (x.durable < x.next + eCount c.entry) && decide (x.next + eCount c.entry ≤ 0xFFFFFFFFFFFF) then
            .next (if x.pendingLease < x.next + eCount c.entry then renewLease (eStream c.entry) s else s)
          else .next (assignRun slot.val c w s)
        | none => .next s
    | _ => .next s

/-- INTAKE_DATA_ARRIVAL: bytes reach the Record Packer, which takes the buffers over (R155, R209, R229). -/
def execIntakeDataArrival (slot : SlotId) (bytes : Nat) (s : State) : Result :=
  match getCmd s slot.val with
  | none => .next s
  | some c =>
    match c.stage with
    | .writing w =>
      let s := giveIntake w c.tag s
      let s := setJob slot.val { w with avail := min (w.avail + bytes) (intakeBytes w) } s
      .next (settle (packStream (eStream c.entry) s))
    | _ => .next s

/-- STREAM_CREATE: it waits until the dataset that carries the stream's first entry, queued at the fetch, has left the Cocoon; it
ends at once where that dataset has left or failed already (R148, R158). -/
def execStreamCreate (slot : SlotId) (s : State) : Result :=
  .next (onCmd slot.val [opStreamCreate] (fun c s =>
    let n := eStream c.entry
    match Tab.get? s.wr.failedCreates c.seq with
    | some (st, number) =>
      complete slot.val (fun c => baseCpl c st) (createFailed s st number) (onPost slot.val (.unreserve n)
        { s with wr := { s.wr with failedCreates := Tab.del s.wr.failedCreates c.seq } })
    | none =>
      if Tab.get? s.reserved n ≠ some c.seq then finish slot.val .transportFault bTce s
      else if (getStream s n).isSome then finish slot.val .success 0 (onPost slot.val (.unreserve n) s)
      else setStage slot.val .waiting s) s)

/-- Streams OPEN or CLOSING, with those whose STREAM_OPEN is done and not yet posted (R149). -/
def openCount (s : State) : Nat :=
  (s.streams.countP fun p => p.2.state != .closed) +
    s.host.cmds.countP fun p => p.2.post.any fun a => match a with | .opened _ => true | _ => false

/-- A STREAM_OPEN fails: at its completion the mark goes and the slot bound at its fetch is unbound (R101, R249, R256). -/
def failOpen (slot : Nat) (c : Cmd) (st : Status) (e : ErrInfo) (s : State) : State :=
  let n := eStream c.entry
  let fails := complete slot (fun c => baseCpl c st) e
  match getStream s n with
  | some x =>
    if x.opening = some c.seq then
      fails (onPost slot (.openFailed n (if x.cipher && !x.noKey then some x.keySlot else none)) s)
    else fails s
  | none => fails s

/-- STREAM_OPEN: the stream becomes OPEN when the completion is posted; a stream that is gone with its cartridge gives
TRANSPORT_FAULT, and poisoned stream state INTERNAL_ERROR (R98, R101, R119, R149, R180, R181, R211, R212, R249). -/
def execStreamOpen (slot : SlotId) (ecc : List EccWord) (s : State) : Result :=
  .next (onCmd slot.val [opStreamOpen] (fun c s =>
    let e := c.entry
    let n := eStream e
    let bad := poisonedIndex s ecc
    let s := eccReads ecc s
    match getStream s n with
    | none => finish slot.val .transportFault bTce s
    | some x =>
      if x.opening ≠ some c.seq then finish slot.val .transportFault bTce s
      else if bad then failOpen slot.val c .internalError { response := Response.parityPoison.code, block := bStream }
        (answer 0x30 .parityPoison none c.tag s)
      else if 1024 ≤ openCount s then failOpen slot.val c .bufferExhausted { block := bStream } s
      else
        let s := updStream n (fun x =>
          { x with readOnly := eReadOnly e,
                   lanes := if x.comp = 2 then 1 else param s 0x5010 3, cut := 0, openBlk := none, entryNext := true, entryLeft := 0,
                   entryBytes := 0, mustIndep := [], runs := [], placed := x.next }) s
        finishWith slot.val .success [(48, x.next), (16, 0), (2, x.comp)] 0 (onPost slot.val (.opened n) s)) s)

/-- Start the drain of a command (R137, R141, R209). -/
def startDrain (slot : Nat) (c : Cmd) (j : DrainJob) (s : State) : State :=
  let d : Drain := { scope := j.scope, fn := c.fn, stream := j.stream, seq := c.seq, slot := some slot }
  let s := setStage slot (.draining j) s
  let open' := (s.streams.filter fun p => d.covers s p.1).map (·.1)
  failIfStopped d (settle (open'.foldl (fun s n => cutBlock n s) s))

/-- STREAM_CLOSE (R101, R141). -/
def execStreamClose (slot : SlotId) (s : State) : Result :=
  .next (onCmd slot.val [opStreamClose] (fun c s =>
    match getStream s (eStream c.entry) with
    | some x => if x.closer = some c.seq then startDrain slot.val c { scope := 0, stream := eStream c.entry } s
                else finish slot.val .transportFault bTce s
    | none => finish slot.val .transportFault bTce s) s)

/-- FLUSH (R136-R139). -/
def execFlush (slot : SlotId) (s : State) : Result :=
  .next (onCmd slot.val [opFlush] (fun c s =>
    startDrain slot.val c { scope := eScope c.entry, stream := if eScope c.entry = 0 then eStream c.entry else 0,
                            sync := eIndexSync c.entry } s) s)

/-- PACKER_IDLE_CLOSE (R209). -/
def execPackerIdleClose (stream : Fin 16384) (s : State) : Result := .next (settle (cutBlock stream.val s))

/-- Streams of the on-medium WRITEs whose last byte lies in the dataset filling: every byte is in a block, no block of it is
still to be placed, and one is in the dataset (R126). -/
def mediumIn (s : State) (d : Dataset) : List Nat :=
  s.host.cmds.filterMap fun p => match p.2.stage with
    | .writing w =>
      let n := eStream p.2.entry
      let mine := fun (b : Blk) => b.stream == n && b.frags.any fun f => f.seq == p.2.seq
      if eCMode p.2.entry = 1 && w.lensKnown && decide (eCount p.2.entry ≤ w.recIdx) && !inOpen s n p.2.seq &&
          !(s.pack.blks.any fun q => mine q.2 && q.2.stage != .placed) &&
          d.blocks.any fun q => ((getBlk s q.1).map mine).getD false then some n else none
    | _ => none

/-- A STREAM_CREATE waits for the dataset that carries its first entry (R158). -/
def createWaits (s : State) : Bool :=
  s.reserved.any fun p => (getStream s p.1).isNone && (Tab.get? s.wr.failedCreates p.2).isNone

/-- A stream's first entry waits for the next dataset header (R158). -/
def firstQueued (s : State) : Bool :=
  s.wr.queued.any fun e => match e with | .stream x => (getStream s x.stream).isNone | _ => false

/-- MEDIUM_CLOSE_DELAY: the dataset filling is closed and padded (R126, R158, R209, R412). -/
def execMediumCloseDelay (s : State) : Result :=
  match s.wr.filling with
  | none => .next s
  | some d =>
    let streams := mediumIn s d
    if streams.isEmpty && !firstQueued s then .next s
    else if s.wr.stopped then .next (failDs d .writeFault s)
    else .next (settle (closeDataset true (streams.foldl (fun s n => cutBlock n s) s)))

end Sys2Proof.Machine
end

