-- ==== Sys2Proof/Machine/Transport.lean ====
section
/-! DEFINITION. The power stages: command frames on the Actuator Serial Link, enabling and disabling the stages, the tables
a thread needs, and clearing transport faults (R445, R462-R469). -/

namespace Sys2Proof.Machine

/-- Send a command frame to a stage, with the next sequence of its address (R463). -/
def sendAsl (addr ftype : Nat) (value : Int) (s : State) : State :=
  let q := Tab.getD s.tce.aslSeq addr 0
  emit (.asl (commandFrame addr ftype (value % 65536).toNat q))
    { s with tce := { s.tce with aslSeq := Tab.put s.tce.aslSeq addr ((q + 1) % 16),
                                 aslSilent := Tab.put s.tce.aslSilent addr (Tab.getD s.tce.aslSilent addr 0 + 1) } }

/-- The CRC of a status frame agrees with its bits [44:9] (R464). -/
def statusCrc (f : StatusFrame) : Bool :=
  crc8 (msbBits 36 (packMsb [(4, f.address), (4, f.ftype), (16, f.value.toNat), (4, f.echo), (8, f.flags.toNat)])) == f.crc

/-- Send one frame type to several stages. -/
def sendAll (ftype : Nat) (addrs : List Nat) (s : State) : State := addrs.foldl (fun s a => sendAsl a ftype 0 s) s

/-- Enable frames to all stages; the tension is brought up (R467). -/
def enableStages (s : State) : State :=
  retarget 2 (param s 0x6000 4 * 1000000 : Nat) (sendAll 1 [0, 1, 2, 3] s)

/-- The outputs of the stages are zero. -/
def zeroOutputs (s : State) : State :=
  { s with tce := { s.tce with loops := s.tce.loops.map fun l => { l with aslValue := 0 } } }

/-- Disable frames to all stages (R467). -/
def disableStages (s : State) : State := zeroOutputs (sendAll 2 [3, 2, 0, 1] s)

/-- Every gain record is Valid, and the head and torque scales are set (R458, R467, R472). -/
def tablesValid (s : State) : Bool :=
  ((List.range 4).all fun l => (List.range 16).all fun g => ((entryBytesOf s (0x6100 + 16 * l + g) 1).getD 0 0#8).getLsbD 0) &&
    ((List.range 4).all fun n => decide (leNat (((entryBytesOf s 0x6000 13).drop (4 * n)).take 4) ≠ 0x80000000)) &&
    decide (param s 0x6000 16 ≠ 0) && decide (param s 0x6000 17 ≠ 0)

/-- The tape is stopped (R467, R469). -/
def tapeStopped (s : State) : Bool := decide (s.tce.speed.natAbs < 20000) && !s.tce.ctlStop

/-- The condition of a fault holds now (R447, R466, R468, R471). -/
def faultHolds (s : State) (bit : Nat) : Bool :=
  match bit with
  | 0 => decide (param s 0x6000 9 ≤ s.tce.lossCount)
  | 1 => decide (100 ≤ s.tce.rangeCount)
  | 2 => decide (5000 ≤ s.tce.speedCount)
  | 3 => decide (2000 ≤ s.tce.tensionCount)
  | 4 => decide (100000 < s.tce.speed.natAbs) && decide (500 ≤ s.tce.quietS ∨ 500 ≤ s.tce.quietT)
  | 5 => s.tce.aslSilent.any fun p => decide (3 < p.2)
  | 6 => s.tce.stageFlags.any fun p => decide (p.2 % 16 ≠ 0)
  | 7 => !s.tce.tfaultHigh || (s.tce.cartHigh && s.tce.state != .off)
  | 9 => !tablesValid s
  | _ => false

/-- Clear the fault bits named that can be cleared; with none left the transport goes to HOLD (R467, R469). -/
def tceClear (bits : BitVec 32) (s : State) : State :=
  if s.tce.state ≠ .fault || !tapeStopped s then s
  else
    let keep := (List.range 11).foldl (fun (a : BitVec 32) b =>
      if s.tce.faults.getLsbD b && (!bits.getLsbD b || faultHolds s b) then a ||| BitVec.ofNat 32 (2 ^ b) else a) 0#32
    let s := { s with tce := { s.tce with faults := keep } }
    if keep ≠ 0#32 then s
    else
      let s := enableStages { s with tce := { s.tce with state := .hold, stopFrames := 0 } }
      setLoop 3 { loopOf s 3 with target := 0, setpoint := 0, newTarget := false, ramping := false } s

/-- The unthread is complete: the stages of a transport in HOLD are disabled (R467). -/
def transportOff (s : State) : State :=
  if s.tce.state = .hold then disableStages { s with tce := { s.tce with state := .off, made := [] } } else s

end Sys2Proof.Machine
end

