-- ==== Sys2Proof/Machine/Cartridge.lean ====
section
/-! DEFINITION. The cartridge: load, index, checkpoints, format, unload, and the end of drains (R99-R102, R116, R117,
R137-R142, R157, R160, R166-R174, R304, R305, R309, R433-R439). -/

namespace Sys2Proof.Machine

/-- Close every stream and forget them, with the index and what waits for a header. -/
def clearStreams (s : State) : State :=
  let s := (s.streams.map (·.1)).foldl (fun s n => closeStream n s) s
  { s with streams := [], reserved := [], index := { limitMiB := s.index.limitMiB }, wr := { s.wr with queued := [] } }

/-- No checkpoint runs any more: a buffer that its next dataset holds or waits for goes back. -/
def dropCkpt (s : State) : State :=
  match s.wr.ckpt with
  | some j => dropHeld j.bufReq (freeOpt j.buf j.flow { s with wr := { s.wr with ckpt := none } })
  | none => s

/-- What the device holds of a cartridge goes with it: streams, index, reads, and an empty dataset that was opened. -/
def clearCart (state : CartState) (s : State) : State :=
  let s := dropCkpt (clearStreams s)
  let s := match s.wr.filling with | some d => freeOpt d.buf d.flow s | none => s
  clearReads { s with cart := { state := state },
                      wr := { s.wr with filling := none, ckptDue := false, sinceCkpt := 0, lastCommit := 0 } }

/-- Put an extent into a list ordered by stream and then by FirstRecord. -/
def insertByRecord (e : Extent) : List Extent → List Extent
  | [] => [e]
  | x :: t => if e.stream < x.stream ∨ (e.stream = x.stream ∧ e.first < x.first) then e :: x :: t else x :: insertByRecord e t

/-- The entries of a checkpoint: the current stream entry of each stream, then every extent, relocation and moth-hole
(R166, R168, R174). -/
def ckptEntries (clean : Bool) (s : State) : List IndexEntry :=
  (s.streams.map fun p => IndexEntry.stream ⟨clean, p.1, p.2.owner, p.2.comp, p.2.cipher, p.2.next, p.2.pendingLease⟩) ++
    (s.index.extents.foldl (fun l e => insertByRecord e l) []).map .extent ++ s.index.relocs.map .reloc ++ s.index.moths.map .moth

/-- Checkpoint datasets of a checkpoint with so many entries (R304). -/
def ckptParts (entries : Nat) : Nat := max 1 ((32 * (1 + entries) + payloadArea - 1) / payloadArea)

/-- The grid position where a copy starts (R170). -/
def ckptPos (s : State) (pos parts : Nat) : Nat := if s.cart.grid - pos < parts + 1 then 0 else pos

/-- The last dataset that a checkpoint covers: every data dataset up to it has left the Cocoon (R169). -/
def coveredEnd (s : State) : Option Nat := if writtenEnd s = 0 then none else some (writtenEnd s - 1)

/-- The bytes of the checkpoint being written (R168). -/
def ckptBytes (seq : Nat) (endDataset : Option Nat) (clean : Bool) (s : State) : List Byte :=
  let es := ckptEntries clean s
  let wrap := match endDataset with | some n => (placeOf s.cart.wraps s.cart.grid n).1 | none => 0
  checkpointHeader seq s.cart.label.toNat wrap endDataset es.length ++ es.flatMap entryBytes

/-- The next dataset of a checkpoint copy takes a write dataset buffer: a delayed request of the Stream Service (R20, R193, R195). -/
def askCkpt (j : CkptJob) (s : State) : State :=
  let t := agentTag agStream s
  let r := askBuf 0x30 25165824 t.1 t.2
  let flow := match r.2.1 with | some id => tagWithBuf t.1 id | none => t.1
  { r.1 with wr := { r.1.wr with ckpt := some { j with buf := r.2.1, bufReq := r.2.2, flow := flow } } }

/-- Begin one copy of a checkpoint: it is written in a pass of its own, from the append position of its wrap (R170, R333). -/
def startCopy (j : CkptJob) (s : State) : State :=
  askCkpt { j with pos := ckptPos s (if j.copyB then s.cart.posB else s.cart.posA) j.parts, made := 0, failed := false, written := false } s

/-- End a FLUSH (R137, R139, R172). -/
def endFlush (slot : Nat) (c : Cmd) (j : DrainJob) (syncOk : Bool) (s : State) : State :=
  let d : Drain := { scope := j.scope, fn := c.fn, stream := j.stream, seq := c.seq, slot := some slot }
  let failed := (d.error s).isNone && !syncOk
  let st := if failed then .mediumError else d.status s
  let e := d.errInfo s
  complete slot (fun c => { baseCpl c st with specific := BitVec.ofNat 96 (packLsb [(32, j.closed), (32, j.padded)]) })
    (if failed then { e with event := some 0x542 } else e) s

/-- End the FLUSHes that wait for a checkpoint (R137, R172): those named, or all. -/
def endSyncs (only : Option (List Nat)) (ok : Bool) (s : State) : State :=
  (s.host.cmds.map (·.1)).foldl (fun s slot => match getCmd s slot with
    | some c => match c.stage with
      | .draining j =>
        if j.sync && j.dataDone && (match only with | some l => l.contains c.seq | none => true) then endFlush slot c j ok s else s
      | _ => s
    | none => s) s

/-- The newest checkpoint covers every data dataset that has left the Cocoon (R172). -/
def ckptCurrent (s : State) : Bool :=
  match s.cart.ckptEnd with
  | some e => decide (writtenEnd s ≤ e + 1)
  | none => decide (writtenEnd s = 0)

/-- Stream numbers at the end of a load (R160, R166, R439). -/
def loadedStream (s : State) (j : LoadJob) (e : StreamEntry) (at' : Nat) : Stream :=
  let k := s.index.lost.countP fun n => decide (at' ≤ n)
  let next := if 0 < k then min 0xFFFFFFFFFFFF (e.lease + k * 0x100000000) else if e.clean && j.found = 0 then e.next else e.lease
  { owner := e.owner, comp := e.comp, cipher := e.cipher, next := next, durable := e.lease, pendingLease := e.lease, placed := next }

/-- Renew the lease of every stream whose numbers come within half of it (R157). -/
def renewAll (s : State) : State :=
  s.streams.foldl (fun s p =>
    if p.2.pendingLease ≤ p.2.next + s.recordLease / 2 ∧ p.2.pendingLease < 0xFFFFFFFFFFFF then renewLease p.1 s else s) s

/-- The load would reach READY (R99, R414). -/
def loadWritable (j : LoadJob) (s : State) : Bool :=
  !j.wprot && !s.cart.forceRo && fits s.cart.wraps s.cart.grid s.cart.next && writeAllowed s

/-- The load is complete with an index; the state changes at the completion (R99, R116, R414, R545). -/
def loadDone (j : LoadJob) (s : State) : State :=
  let ready := loadWritable j s
  let members := !writeAllowed s && !j.wprot && !s.cart.forceRo && fits s.cart.wraps s.cart.grid s.cart.next
  let st := if ready then CartState.ready else CartState.readOnly
  let s := { s with cart := { s.cart with load := none, roByMembers := members },
                    wr := { s.wr with stopped := !writeAllowed s } }
  let s := if ready then renewAll s else s
  match j.slot with
  | some slot =>
    finishWith slot .success [(1, 1), (1, j.wprot.toNat), (1, (!ready).toNat), (29, 0), (15, s.streams.length), (17, 0)] 0
      (onPost slot (.cart .loading st) s)
  | none => raise 0x7D2 [(8, st.code)] (enterCart st s)

/-- A checkpoint cannot be written: the event, and the commands that wait for it go on (R117, R170, R172, R173). -/
def ckptFailed (j : CkptJob) (s : State) : State :=
  let s := raise 0x542 [] (dropCkpt s)
  let s := endSyncs (some j.waits) false s
  let s := match s.cart.format with
    | some slot =>
      complete slot (fun c => baseCpl c .mediumError) { block := bStream, event := some 0x542 }
        (onPost slot (.formatEnds (some false)) { s with cart := { s.cart with format := none } })
    | none => s
  let s := match s.cart.load with | some l => if l.step = 3 then loadDone l s else s | none => s
  if s.cart.state = .unloading && s.cart.unloadClean then
    { s with cart := { s.cart with unloadClean := false, unthreading := true } }
  else s

/-- Begin a checkpoint (R168, R170). -/
def beginCkpt (seq : Nat) (endDataset : Option Nat) (clean : Bool) (s : State) : State :=
  let waits := s.host.cmds.filterMap fun p => match p.2.stage with
    | .draining j => if j.sync && j.dataDone then some p.2.seq else none
    | _ => none
  let parts := ckptParts (ckptEntries clean s).length
  let j : CkptJob := { seq := seq, endDataset := endDataset, parts := parts, clean := clean, waits := waits,
                       bytes := ckptBytes seq endDataset clean s, count := s.wr.sinceCkpt,
                       leases := s.streams.map fun p => (p.1, p.2.pendingLease) }
  let s := { s with wr := { s.wr with ckpt := some j, ckptDue := false } }
  if s.cart.grid < parts + 1 || !writeAllowed s then ckptFailed j s else startCopy j s

/-- Begin the checkpoint that is due, between passes; one that READY does not admit ends its FLUSHes (R171, R172). -/
def tryCkpt (s : State) : State :=
  if !s.wr.ckptDue || s.wr.ckpt.isSome || s.wr.pass || s.rd.cur.isSome then s
  else if s.cart.state = .ready then beginCkpt (s.cart.ckptSeq + 1) (coveredEnd s) false s
  else
    let cur := ckptCurrent s
    let any := s.host.cmds.any fun p => match p.2.stage with | .draining j => j.sync && j.dataDone | _ => false
    endSyncs none cur (raiseIf (any && !cur) 0x542 [] { s with wr := { s.wr with ckptDue := false } })

/-- CARTRIDGE_LOAD: thread, and read the index region (R99, R173, R174). -/
def execCartridgeLoad (slot : SlotId) (s : State) : Result :=
  .next (onCmd slot.val [opCartLoad] (fun c s =>
    if s.cart.state = .faulted then finish slot.val .transportFault bTce s
    else if s.cart.state ≠ .loading then finish slot.val .stateConflict bStream s
    else
      setStage slot.val .waiting { s with
        cart := { s.cart with forceRo := eForceRo c.entry, load := some { slot := some slot.val } } }) s)

/-- A load that fails unthreads the tape first (R99, R174, R280). -/
def refuseLoad (j : LoadJob) (st : Status) (s : State) : State :=
  let s := clearStreams s
  { s with cart := { s.cart with load := some { j with fail := some st }, unthreading := true } }

/-- The index held in DRAM and the streams found fit in `IndexMemory` (R174). -/
def loadFits (j : LoadJob) (s : State) : Bool :=
  decide (64 * (s.index.extents.length + s.index.relocs.length + s.index.moths.length + j.streams.length) ≤
    s.index.limitMiB * 2 ^ 20)

/-- Take one index entry of a checkpoint (`at'` 0) or of dataset `at'` - 1 (R157, R173). -/
def loadEntry (at' : Nat) (p : LoadJob × Index) (e : IndexEntry) : LoadJob × Index :=
  match e with
  | .extent x => (p.1, { p.2 with extents := p.2.extents ++ [x] })
  | .reloc x => (p.1, { p.2 with relocs := p.2.relocs ++ [x] })
  | .moth x => (p.1, { p.2 with moths := p.2.moths ++ [x] })
  | .stream x =>
    let lease := match Tab.get? p.1.streams x.stream with | some o => max o.1.lease x.lease | none => x.lease
    ({ p.1 with streams := Tab.put p.1.streams x.stream ({ x with lease := lease }, at') }, p.2)
  | .padding => p

/-- Take the entries of a dataset or a checkpoint. -/
def loadEntries (at' : Nat) (es : List IndexEntry) (j : LoadJob) (s : State) : LoadJob × State :=
  let r := es.foldl (loadEntry at') (j, s.index)
  (r.1, { s with index := r.2 })

/-- The copy with the highest Sequence. -/
def newestCopy : List Checkpoint → Option Checkpoint
  | [] => none
  | c :: t => match newestCopy t with
    | some d => if c.seq < d.seq then some d else some c
    | none => some c

/-- The position after the newest copy on a wrap (R170). -/
def appendPos (copies : List Checkpoint) (b : Bool) : Nat :=
  match newestCopy (copies.filter fun c => c.copyB == b) with
  | some c => c.pos + ckptParts c.entries.length
  | none => 0

/-- The index region holds no checkpoint: the cartridge is UNFORMATTED (R99, R116, R304). -/
def loadUnformatted (j : LoadJob) (wprot : Bool) (s : State) : State :=
  let s := { s with cart := { s.cart with load := none } }
  match j.slot with
  | some slot =>
    finishWith slot .success [(1, 0), (1, wprot.toNat), (30, 0), (32, 0)] 0 (onPost slot (.cart .loading .unformatted) s)
  | none => raise 0x7D2 [(8, CartState.unformatted.code)] (enterCart .unformatted s)

/-- The manufacture data, once the servo words have brought its four items (R279, R280). -/
def manufacture (s : State) : Option Manufacture :=
  match Tab.get? s.tce.made 0, Tab.get? s.tce.made 1, Tab.get? s.tce.made 2, Tab.get? s.tce.made 3 with
  | some w, some b, some e, some t => some { wraps := w, beginZone := b, endZone := e, ctype := t }
  | _, _, _, _ => none

/-- Position 0 of wrap 0 or of wrap 1 has a sector of an index region (R291, R304). -/
def regionFound (l : List HeaderRead) : Bool :=
  l.any fun x => headerCrc x.content == x.crc && (headerOf x.content).indexRegion

/-- The FormatId of the checkpoint dataset at position 0 of wrap 0, or of wrap 1 when that of wrap 0 is undecodable (R305). DESIGN
CHOICE (log entry 120): with neither decodable it is that of the newest copy. -/
def formatOf (head0 head1 : Option (List Byte)) (copies : List Checkpoint) : BitVec 64 :=
  let read := fun (h : Option (List Byte)) => ((h.bind readDsHeader).filter fun x => x.kind == 2).map (·.formatId)
  match read head0, read head1 with
  | some f, _ => f
  | none, some f => f
  | none, none => ((newestCopy copies).map (·.formatId)).getD 0

/-- What the load reads from the tape next moves under a tag of its own (R18, R20). -/
def loadTag (j : LoadJob) (s : State) : LoadJob × State :=
  let t := agentTag agLoad s
  ({ j with flow := t.1 }, { t.2 with cart := { t.2.cart with load := some { j with flow := t.1 } } })

/-- LOAD_INDEX_READ, once the manufacture data is known: copies of another FormatId are as not written (R99, R173, R174, R280, R304,
R305, R466). -/
def execLoadIndexRead (region : List HeaderRead) (head0 head1 : Option (List Byte)) (copies : List Checkpoint) (s : State) : Result :=
  match s.cart.load, manufacture s with
  | none, _ => .next s
  | _, none => .next s
  | some j, some man =>
    if s.cart.state ≠ .loading || j.step ≠ 0 || j.fail.isSome then .next s
    else
    let t := loadTag j s
    let j := t.1
    let s := t.2
    if manufactureRefused man then .next (refuseLoad j .mediumError s)
    else
      let copies := copies.filter fun c => c.formatId == formatOf head0 head1 copies
      let wprot := !s.tce.wprotHigh
      let s := takeEqTarget s
      let b := 144 * man.beginZone
      let e := 144 * man.endZone
      let s := { s with cart := { s.cart with wraps := man.wraps, lposB := b, lposE := e, grid := gridPositions b e },
                        index := { limitMiB := param s 0x3010 8 } }
      let j := { j with wprot := wprot }
      if !regionFound region then .next (loadUnformatted j wprot s)
      else match newestCopy copies with
        | none => .next (refuseLoad j .mediumError s)
        | some c =>
          let next := match c.endDataset with | some n => n + 1 | none => 0
          let s := { s with cart := { s.cart with
            formatId := c.formatId, label := BitVec.ofNat 64 c.label, ckptSeq := c.seq, ckptEnd := c.endDataset, next := next,
            posA := appendPos copies false, posB := appendPos copies true } }
          let r := loadEntries 0 c.entries { j with step := 1, next := next, endDataset := c.endDataset, streams := [], found := 0 } s
          if loadFits r.1 r.2 then .next { r.2 with cart := { r.2.cart with load := some r.1 } }
          else .next (refuseLoad r.1 .bufferExhausted r.2)

/-- The datasets are known: streams take their numbers, the datasets found count as not covered by a checkpoint, and step 4 of R173
writes one (R160, R171, R173). -/
def endLoad (j : LoadJob) (s : State) : State :=
  let s := { s with streams := j.streams.map fun p => (p.1, loadedStream s j p.2.1 p.2.2), wr := { s.wr with sinceCkpt := j.found } }
  if loadWritable j s && decide (0 < j.found) then
    beginCkpt (s.cart.ckptSeq + 1) (coveredEnd s) false { s with cart := { s.cart with load := some { j with step := 3 } } }
  else loadDone j s

/-- The first dataset of the tail T (R433). -/
def tailFirst (j : LoadJob) : Nat := max (match j.endDataset with | some n => n + 1 | none => 0) (j.next - 6)

/-- The scan stops: at an EOD burst the journal needs no rebuilding (R309, R433). -/
def endScan (j : LoadJob) (burst : Bool) (s : State) : State :=
  let s := { s with cart := { s.cart with next := j.next } }
  if !loadFits j s then refuseLoad j .bufferExhausted s
  else if burst || decide (j.next ≤ tailFirst j) then endLoad j s
  else { s with cart := { s.cart with load := some { j with step := 2 } } }

/-- A dataset is present with these entries (R173, R309). -/
def scanFound (j : LoadJob) (es : List IndexEntry) (s : State) : State :=
  let r := loadEntries (j.next + 1) es j s
  { r.2 with cart := { r.2.cart with load := some { r.1 with next := j.next + 1, found := j.found + 1 } } }

/-- A dataset header with Kind data or rebuild copy, this number and the cartridge's FormatId (R309). -/
def headerPresent (h : HeaderSays) (n : Nat) (s : State) : Bool := decide (h.kind ≤ 1) && h.number == n && h.formatId == s.cart.formatId

/-- The next dataset is present and damaged: what row 0 gave after recovery is its header, or it is index-lost (R437). -/
def scanDamaged (j : LoadJob) (recovered : Option (List Byte)) (s : State) : State :=
  match (recovered.bind readDsHeader).filter fun h => headerPresent h j.next s with
  | some h => scanFound j h.entries s
  | none => scanFound j [] (raise 0x566 [iDataset j.next] { s with index := { s.index with lost := s.index.lost ++ [j.next] } })

/-- LOAD_SCAN: the position of the next number (R309, R437). -/
def execLoadScan (find : ScanFind) (s : State) : Result :=
  match s.cart.load with
  | none => .next s
  | some j =>
    if s.cart.state ≠ .loading || j.step ≠ 1 || j.fail.isSome then .next s
    else
    let t := loadTag j s
    let j := t.1
    let s := t.2
    if !fits s.cart.wraps s.cart.grid j.next then .next (endScan j false s)
    else match find with
      | .header bytes recovered =>
        match readDsHeader bytes with
        | some h => .next (if headerPresent h j.next s then scanFound j h.entries s else endScan j false s)
        | none => .next (scanDamaged j recovered s)
      | .damaged recovered => .next (scanDamaged j recovered s)
      | .eod number => .next (endScan j (number = j.next) s)
      | .blank => .next (endScan j false s)

/-- The summary taken from the accepted copies; none when lost (R431). -/
def takeSummary (t : TailFind) : Option Summary :=
  match (t.copies.zip (List.range 3)).filterMap (fun c => c.1.bind (readSummary t.dataset c.2)) with
  | [] => none
  | x :: r => if r.all (· == x) then some x else none

/-- A summary of dataset `m` is complete for dataset `n` (R435). -/
def completeFor (m n : Nat) (x : Summary) : Bool :=
  !x.overflow || (match x.entries.getLast? with | some e => decide (n < m - e.1) | none => true)

/-- The window of a slot of a dataset written at a place of its number: as the channel opened it, or else as the TLCS stands
(R373, R380, R435). -/
def tailWindow (s : State) (n chan slot : Nat) : SyncWindow :=
  let p := placeOf s.cart.wraps s.cart.grid n
  match (getChan s chan).windows.find? fun w => w.slot == slot && w.number == n && w.wrap == p.1 with
  | some w => w
  | none => windowAt s chan slot p.1 n (leadingEdge s.cart.lposB s.cart.lposE p.1 p.2 slot)

/-- The home slot of a sector passes a load check (R434, R435). -/
def homePasses (s : State) (t : TailFind) (row home : Nat) : Bool :=
  t.reads.any fun r => r.1.val == home && r.2.slot == row && (loadCheck s home (tailWindow s t.dataset home row) r.2).isSome

/-- A copy of a sector of dataset `n` in slots 96 to 98 of a tail dataset from `n` on passes a load check (R290, R434, R435). -/
def copyPasses (s : State) (tail : List TailFind) (n row home : Nat) : Bool :=
  tail.any fun u => decide (n ≤ u.dataset) && u.reads.any fun r =>
    decide (96 ≤ r.2.slot) && (match loadCheck s r.1.val (tailWindow s u.dataset r.1.val r.2.slot) r.2 with
      | some h => decide (h.slotType ≠ 3 ∧ h.dataset = n ∧ h.row = row ∧ h.physical = home)
      | none => false)

/-- A sector of a tail dataset, by row and physical channel, is required (R345, R435). -/
def tailRequired (t : TailFind) (p : Nat × Nat) : Bool := t.patched || !t.sample.any fun c => c.val == p.2

/-- A sector fails at its home slot and through every copy; a failed member has no home slot (R435, R436). -/
def sectorFails (s : State) (tail : List TailFind) (t : TailFind) (p : Nat × Nat) : Bool :=
  !((!t.sample.any fun c => c.val == p.2) && homePasses s t p.1 p.2) && !copyPasses s tail t.dataset p.1 p.2

/-- The sectors of a dataset in rows from `row` on. -/
def rowsFrom (row : Nat) : List (Nat × Nat) :=
  (List.range 96).flatMap fun r => if row ≤ r then (List.range 128).map fun p => (r, p) else []

/-- The sectors that the journal load-checks and that fail, for one dataset of T (R435). -/
def journalFails (s : State) (tail : List TailFind) (last : Nat) (t : TailFind) : List (Nat × Nat) :=
  let n := t.dataset
  let pick := (tail.filterMap fun u =>
    if n < u.dataset ∧ u.dataset ≤ min (n + 4) last then (takeSummary u).map fun x => (u.dataset, x) else none).filter
      fun p => completeFor p.1 n p.2
  let best := pick.foldl (fun (a : Option (Nat × Summary)) p => match a with
    | some b => if b.1 < p.1 then some p else a
    | none => some p) none
  let checked : List (Nat × Nat) := match best with
  | none => rowsFrom 0
  | some (m, x) =>
    let listed : List (Nat × Nat) := x.entries.filterMap fun e => if m - e.1 = n then some (e.2.2, physicalOf (rotationOf n) e.2.2 e.2.1) else none
    if m = n + 1 then (listed.filter fun p => decide (p.1 < 32)) ++ rowsFrom 32 else listed
  (checked.dedup.filter (tailRequired t)).filter (sectorFails s tail t)

/-- JOURNAL_CHECK (R431, R433-R436). -/
def execJournalCheck (tail : List TailFind) (s : State) : Result :=
  match s.cart.load with
  | none => .next s
  | some j =>
    if s.cart.state ≠ .loading || j.step ≠ 2 || j.fail.isSome then .next s
    else
      let r := loadTag j s
      let j := r.1
      let s := r.2
      let first := tailFirst j
      let t := tail.filter fun x => decide (first ≤ x.dataset ∧ x.dataset < j.next)
      let s := t.foldl (fun s x =>
        if (takeSummary x).isNone then
          raise 0x565 [iDataset x.dataset] { s with rd := { s.rd with summariesLost := sat32 (s.rd.summariesLost + 1) } }
        else s) s
      let s := t.foldl (fun s x =>
        let n := (journalFails s t (j.next - 1) x).length
        if 0 < n then
          raise 0x564 [iDataset x.dataset, (16, n)] { s with rd := { s.rd with tailUnverified := sat32 (s.rd.tailUnverified + 1) } }
        else s) s
      .next (endLoad j s)

/-- CARTRIDGE_UNLOAD: drain; in FAULTED it first clears the transport faults that can be cleared. Where a reset has carried the unload on,
its unthread may have ended before (R98, R99, R141, R469, R545). -/
def execCartridgeUnload (slot : SlotId) (s : State) : Result :=
  .next (onCmd slot.val [opCartUnload] (fun c s =>
    if s.cart.state = .faulted then finish slot.val .transportFault bTce s
    else if s.cart.state ≠ .unloading then finish slot.val .success 0 s
    else
      let s := if s.cart.unloadFaulted then tceClear 0xFFFFFFFF#32 s else s
      startDrain slot.val c { scope := 2 } { s with cart := { s.cart with unload := some slot.val } }) s)

/-- UNTHREAD_DONE: the end of an unload, or of a refused load; with fault bits set the rewind of an unload has failed
(R99, R174, R280, R467, R469, R545). -/
def execUnthreadDone (good : Bool) (s : State) : Result :=
  if !s.cart.unthreading then .next s
  else
    let ok := good && !(s.cart.unloadFaulted && s.tce.faults != 0#32)
    let load := s.cart.load
    let unload := s.cart.unload
    let was := s.cart.state
    let now := if ok then CartState.present else .faulted
    let s := if ok then clearCart was (transportOff s)
      else { s with cart := { s.cart with load := none, unload := none, unthreading := false } }
    match load.bind (·.slot), unload with
    | some slot, _ =>
      let st := if ok then (load.bind (·.fail)).getD .mediumError else .transportFault
      .next (finish slot st (if ok then bStream else bTce) (onPost slot (.cart was now) s))
    | none, some slot =>
      .next (finish slot (if ok then .success else .transportFault) (if ok then 0 else bTce) (onPost slot (.cart was now) s))
    | none, none => .next (raiseIf load.isSome 0x7D2 [(8, now.code)] (enterCart now s))

/-- CARTRIDGE_FORMAT: begins once no dataset of the old recording is under way; a cartridge that can no longer be written makes
its copy A fail (R98, R99, R117, R305). -/
def execCartridgeFormat (slot : SlotId) (s : State) : Result :=
  .next (onCmd slot.val [opCartFormat] (fun c s =>
    if s.cart.state = .faulted then finish slot.val .transportFault bTce (onPost slot.val (.formatEnds none) s)
    else if s.wr.pass || s.wr.ckpt.isSome || s.wr.filling.isSome || !s.wr.closedQ.isEmpty || createWaits s then s
    else
      let s := clearStreams s
      let s := { s with
        cart := { s.cart with formatId := (Config.random s.drawn).extractLsb' 0 64, label := eLabel c.entry, next := 0,
                              ckptSeq := 0, ckptEnd := none, posA := 0, posB := 0, format := some slot.val },
        drawn := s.drawn + 1, cip := { s.cip with drbgRequests := s.cip.drbgRequests + 1 } }
      beginCkpt 1 none false (setStage slot.val .waiting s)) s)

/-- CHECKPOINT_TIMER (R171). -/
def execCheckpointTimer (s : State) : Result :=
  if param s 0x3010 7 = 0 || s.wr.sinceCkpt = 0 || s.cart.state ≠ .ready then .next s
  else .next (tryCkpt { s with wr := { s.wr with ckptDue := true } })

/-- Copy A of a checkpoint is verified: the checkpoint counts as written (R117, R157, R168, R172, R173). -/
def copyAVerified (j : CkptJob) (s : State) : State :=
  let s := { s with
    cart := { s.cart with ckptSeq := j.seq, ckptEnd := j.endDataset, posA := j.pos + j.parts },
    streams := s.streams.map fun p => (p.1, { p.2 with durable := max p.2.durable (Tab.getD j.leases p.1 0) }),
    wr := { s.wr with ckpt := some { j with copyB := true }, sinceCkpt := s.wr.sinceCkpt - j.count } }
  let s := endSyncs (some j.waits) true s
  let s := match s.cart.format with
    | some slot =>
      finish slot .success 0 (onPost slot (.formatEnds (some true)) { s with cart := { s.cart with format := none } })
    | none => s
  let s := match s.cart.load with | some l => if l.step = 3 then loadDone l s else s | none => s
  startCopy { j with copyB := true } s

/-- The checkpoint has ended: an unload goes on, a checkpoint that is due begins, reads go on. -/
def afterCkpt (s : State) : State :=
  let s := dropCkpt s
  if s.cart.state = .unloading && s.cart.unloadClean then
    { s with cart := { s.cart with unloadClean := false, unthreading := true } }
  else startRead (tryCkpt s)

/-- CHECKPOINT_COPY_VERIFIED: the pass of a copy has ended; a dataset of it that failed makes the copy fail (R170, R172, R358). -/
def execCheckpointCopyVerified (s : State) : Result :=
  match s.wr.ckpt with
  | none => .next s
  | some j =>
    if !j.written then .next s
    else if !j.copyB then .next (if j.failed then startRead (tryCkpt (ckptFailed j s)) else copyAVerified j s)
    else if j.failed then .next (afterCkpt (raise 0x542 [] s))
    else .next (afterCkpt { s with cart := { s.cart with posB := j.pos + j.parts } })

/-- The data of a FLUSH has left the Cocoon: with IndexSync its checkpoint is due, or already covers it (R137, R172). -/
def flushDone (slot : Nat) (c : Cmd) (j : DrainJob) (s : State) : State :=
  if !j.sync then endFlush slot c j true s
  else tryCkpt { setStage slot (.draining { j with dataDone := true }) s with wr := { s.wr with ckptDue := true } }

/-- The drain of STREAM_CLOSE is over: the stream is CLOSED whatever the drain found (R101, R120, R141). -/
def closeDone (slot : Nat) (j : DrainJob) (d : Drain) (s : State) : State :=
  let st := d.status s
  let e := d.errInfo s
  let next := ((getStream s j.stream).map (·.next)).getD 0
  complete slot (fun c => { baseCpl c st with specific := BitVec.ofNat 96 (packLsb [(48, next)]) }) e (closeStream j.stream s)

/-- The drain of CARTRIDGE_UNLOAD is over: its streams are CLOSED, a checkpoint follows when it was READY, then the rewind
(R99, R141, R172). -/
def unloadDrained (slot seq : Nat) (s : State) : State :=
  let s := (s.streams.filter fun p => p.2.closer == some seq).foldl (fun s p => closeStream p.1 s) s
  let s := setStage slot .waiting s
  if s.cart.unloadClean then beginCkpt (s.cart.ckptSeq + 1) (coveredEnd s) true s
  else { s with cart := { s.cart with unthreading := true } }

/-- An earlier command has neither completed nor been ended (R142). -/
def earlierRuns (s : State) (seq : Nat) : Bool :=
  (s.host.cmds.any fun p => decide (p.2.seq < seq) && !p.2.orphan) ||
    s.host.fns.any fun f => f.2.qps.any fun q => q.2.fetchQ.any fun x => decide (x.seq < seq)

/-- The write path holds nothing: no pass, no closed dataset, no stream entry on its way. -/
def writeIdle (s : State) : Bool := !s.wr.pass && s.wr.closedQ.isEmpty && s.wr.ckpt.isNone && !createWaits s

/-- A FLUSH whose covered data has left the Cocoon ends, or goes on to its checkpoint (R137, R353). -/
def flushIfDone (s : State) (slot : Nat) : State :=
  match getCmd s slot with
  | none => s
  | some c => match c.stage with
    | .draining j =>
      let d : Drain := { scope := j.scope, fn := c.fn, stream := j.stream, seq := c.seq, slot := some slot }
      if eOpcode c.entry ≠ opFlush || j.dataDone || d.writesLeft s || d.bytesLeft s then s else flushDone slot c j s
    | _ => s

/-- The FLUSHes that waited on a dataset which has left (R353). -/
def flushesDone (s : State) : State := (s.host.cmds.map (·.1)).foldl flushIfDone s

/-- DRAIN_COMPLETE (R137-R142, R172, R412, R430). -/
def execDrainComplete (slot : SlotId) (s : State) : Result :=
  match getCmd s slot.val with
  | none => .next s
  | some c =>
    let op := eOpcode c.entry
    match c.stage with
    | .draining j =>
      let d : Drain := { scope := j.scope, fn := c.fn, stream := j.stream, seq := c.seq, slot := some slot.val }
      let s := failIfStopped d s
      if j.dataDone || d.writesLeft s || d.bytesLeft s || (op ≠ opFlush && d.readsLeft s) then .next s
      else if op = opFlush then .next (flushDone slot.val c j s)
      else if op = opStreamClose then .next (closeDone slot.val j d s)
      else if writeIdle s && s.cart.rebuilding.isNone then .next (unloadDrained slot.val c.seq s)
      else .next s
    | .waiting =>
      match s.fw.activate with
      | some a =>
        let d : Drain := { scope := 2, seq := a.seq }
        let s := failIfStopped d s
        if a.slot ≠ slot.val || a.step ≠ 3 || earlierRuns s a.seq || d.bytesLeft s then .next s
        else .next { s with fw := { s.fw with activate := some { a with step := 4 } } }
      | none => .next s
    | _ => .next s

end Sys2Proof.Machine
end

