-- ==== Sys2Proof/Machine/WritePath.lean ====
section
/-! DEFINITION. The write path and the Cocoon: passes, encoding, slots, verify, copies, release, tails, the EOD burst, the
write guard and speed matching (R303, R304, R306, R307, R321-R329, R333-R368). -/

namespace Sys2Proof.Machine

/-- The state of a required sector; none before its home slot begins (R345). -/
def Dataset.sectorSt (d : Dataset) (p r : Nat) : Option SectorSt :=
  match Tab.get? d.sectors (p * 96 + r) with
  | some x => some x.st
  | none => if !d.sample.contains p && decide (r < d.slot) then some .await else none

/-- The record of a sector. -/
def Dataset.sector (d : Dataset) (p r : Nat) : Sector := Tab.getD d.sectors (p * 96 + r) { st := .await }

/-- Replace the record of a sector. -/
def Dataset.putSector (p r : Nat) (x : Sector) (d : Dataset) : Dataset := { d with sectors := Tab.put d.sectors (p * 96 + r) x }

/-- Change a dataset of the Cocoon. -/
def updDs (id : Nat) (g : Dataset → Dataset) (s : State) : State :=
  { s with wr := { s.wr with cocoon := s.wr.cocoon.map fun d => if d.id = id then g d else d } }

/-- A dataset of the Cocoon by number. -/
def dsByNumber (s : State) (n : Nat) : Option Dataset := s.wr.cocoon.find? fun d => d.number == some n

/-- Failed datasets leave the Cocoon once their segment is past, and give back the buffer that the head still wrote from (R352). -/
def sweep (s : State) : State :=
  let gone := fun (d : Dataset) => d.state == .failed && s.wr.head != some d.id
  let old := s.wr.cocoon.filter gone
  old.foldl (fun s d => freeOpt d.buf d.flow s) { s with wr := { s.wr with cocoon := s.wr.cocoon.filter fun d => !gone d } }

/-- Sectors of a dataset in a state, by row, then logical channel: row and home channel (R300, R347). -/
def Dataset.listSectors (d : Dataset) (want : SectorSt → Bool) : List (Nat × Nat) :=
  let t := rotationOf (d.number.getD 0)
  let keys := d.sectors.foldl (fun l x =>
    if want x.2.st then insertUp ((x.1 % 96) * 16384 + logicalOf t (x.1 % 96) (x.1 / 96) * 128 + x.1 / 96) l else l) []
  keys.map fun k => (k / 16384, k % 128)

/-- Outstanding sectors of a dataset: dataset, row, logical channel (R300, R355). -/
def Dataset.outstanding (d : Dataset) : List (Nat × Nat × Nat) :=
  let n := d.number.getD 0
  (d.listSectors fun x => x == .needsCopy || x == .copyPending).map fun p => (n, p.1, logicalOf (rotationOf n) p.1 p.2)

/-- Sectors of a dataset whose window has closed become LOST, and the dataset fails (R345, R346, R352). -/
def loseSectors (d : Dataset) (l : List (Nat × Nat)) (s : State) : State :=
  if l.isEmpty || d.state = .failed then s
  else
    let s := l.foldl (fun s p => raise 0x550 [] (updDs d.id (fun d => d.putSector p.2 p.1 { d.sector p.2 p.1 with st := .lost }) s)) s
    failDs d .writeFault { s with wr := { s.wr with sectorsLost := sat32 (s.wr.sectorsLost + l.length) } }

/-- A condition of the write guard has arisen and not cleared: `WriteGuardState` (R359, R367). -/
def guardSet (s : State) : Bool := s.wr.guardPos || s.wr.guardShock || s.wr.guardClock

/-- The write guard inhibits writing; the TLCS must have been in lock for `WriteGuardHoldoff` LAT periods (R359). -/
def inhibited (s : State) : Bool := guardSet s || !inLock s || decide (s.wr.guardLocked < param s 0x4830 2)

/-- Open or close the write gates (R337). -/
def setGates (on : Bool) (s : State) : State :=
  if s.wr.gates = on then s else emit (.gates on) { s with wr := { s.wr with gates := on } }

/-- Native rate of a speed step in MB/s (R363). -/
def nativeRate (k : Nat) : Nat := 648 + 108 * k

/-- Bytes placed in the last `SpeedWindow` (R364). -/
def placedInWindow (s : State) : Nat :=
  ((s.wr.placements.filter fun p => decide (s.time.toNat ≤ p.1 + 1000000 * param s 0x4840 4)).map (·.2)).sum

/-- P, in MB/s (R364, R367). -/
def placementRate (s : State) : Nat := placedInWindow s / (1000 * param s 0x4840 4)

/-- The lowest step whose native rate covers P with its margin, or 24 (R364). -/
def targetStep (s : State) : Nat :=
  ((List.range 25).find? fun k =>
    decide (placedInWindow s * (100 + param s 0x4840 3) ≤ nativeRate k * 100 * (1000 * param s 0x4840 4))).getD 24

/-- Take a new target step (R365). -/
def setSpeed (k : Nat) (s : State) : State :=
  if k = s.wr.speed then s
  else raise 0x555 [] { s with wr := { s.wr with speed := k, speedSince := s.time.toNat,
                                                 speedChanges := s.wr.speedChanges + 1 } }

/-- Stored bytes placed in the `SpeedWindow` that ends at a TIME (R364). -/
def placedUpTo (s : State) (t : Nat) : Nat :=
  ((s.wr.placements.filter fun p => decide (p.1 ≤ t ∧ t < p.1 + 1000000 * param s 0x4840 4)).map (·.2)).sum

/-- k* was at or below a step at a TIME: its native rate covered P with the margin then (R364). -/
def coveredAt (s : State) (k t : Nat) : Bool :=
  decide (placedUpTo s t * (100 + param s 0x4840 3) ≤ nativeRate k * 100 * (1000 * param s 0x4840 4))

/-- k* has been two steps below for `SpeedDwell` without a break, and the last change is as long ago: P rises only where bytes are placed
(R364). -/
def longBelow (s : State) : Bool :=
  let now := s.time.toNat
  let dwell := 1000000 * param s 0x4840 5
  let since := now - dwell
  let times := (s.wr.placements.map (·.1)).filter fun t => decide (since < t)
  decide (2 ≤ s.wr.speed) && decide (s.wr.speedSince + dwell ≤ now) && (since :: now :: times).all (coveredAt s (s.wr.speed - 2))

/-- Choose the speed at the start of a pass or of a dataset (R364). -/
def chooseSpeed (passStart : Bool) (s : State) : State :=
  let span := 1000000 * (param s 0x4840 4 + param s 0x4840 5)
  let s := { s with wr := { s.wr with placements := s.wr.placements.filter fun p => decide (s.time.toNat ≤ p.1 + span) } }
  let k := s.wr.speed
  let best := targetStep s
  if param s 0x4840 1 = 1 then setSpeed (param s 0x4840 2) s
  else if passStart then setSpeed (if s.bpm.above then 24 else best) s
  else if s.bpm.above then setSpeed 24 s
  else if s.wr.closedQ.length ≤ param s 0x4840 6 then setSpeed (k - 2) s
  else if k < best then setSpeed best s
  else if longBelow s then setSpeed (k - 1) s
  else s

/-- Number the entries of a dataset's header (R162, R163, R334). -/
def numberEntry (kind n wrap : Nat) : IndexEntry → IndexEntry
  | .extent e => .extent { e with wrap := wrap, dataset := n }
  | .reloc r => if kind = 1 && r.newDataset = unnumbered then .reloc { r with newWrap := wrap, newDataset := n } else .reloc r
  | e => e

/-- The summary of a dataset: sectors outstanding in the four before it (R300, R355). -/
def summaryOf (s : State) (n : Nat) : List (Nat × Nat × Nat) :=
  (s.wr.cocoon.filter fun d => d.state != .failed && (match d.number with | some m => decide (n ≤ m + 4 ∧ m < n) | none => false)).flatMap
    Dataset.outstanding

/-- Wrap and grid position of a dataset: that of its number, or on its index wrap the number itself (R282, R303). -/
def Dataset.place (s : State) (d : Dataset) : Nat × Nat :=
  match d.index with
  | some w => (w, d.number.getD 0)
  | none => placeOf s.cart.wraps s.cart.grid (d.number.getD 0)

/-- Encoding of a dataset starts under a number: the failed-member sample, the write mode, the summary, the places of the header, and the
Cocoon's hold on its buffer (R20, R323, R328, R329, R334, R349, R352, R355). -/
def encodeAs (d : Dataset) (n owner : Nat) (s : State) : State :=
  let sample := failedMembers s
  let patch := decide (param s 0x4820 1 = 1) && !sample.isEmpty
  let out := summaryOf s n
  let chans := ((List.range 3).map (headerPlace (rotationOf n) sample)).filterMap id
  let t := agentTag agCocoon s
  let d := { d with number := some n, state := .encoding, sample := sample, patch := patch,
                    contentOf := if d.kind = 0 then n else d.contentOf,
                    headerCh := chans, speed := s.wr.speed, summary := out.take 27, overflow := decide (27 < out.length), summaryFlow := t.1,
                    sectors := if patch then
                        sample.flatMap fun f => (List.range 96).map fun r => (f * 96 + r, { st := .needsCopy })
                      else [] }
  let d := { d with entries := d.entries.map (numberEntry d.kind n (d.place s).1) }
  let s := match d.buf with | some b => giveOwn owner b 0x90 d.flow t.2 | none => t.2
  let s := { s with wr := { s.wr with cocoon := s.wr.cocoon ++ [d],
                                      headerMoves := sat32 (s.wr.headerMoves + (if chans.any fun c => c % 32 != 0 then 1 else 0)) } }
  let s := raiseIf d.overflow 0x552 [] s
  if chans.length < 3 then failDs d .writeFault (raise 0x531 [iDataset n] s) else s

/-- The next dataset of a checkpoint copy starts encoding at its grid position, once it has a buffer; its pass ends after the last, or
when the copy has failed or writing is stopped (R168, R170, R303, R304, R333, R411). -/
def encodeCkpt (j : CkptJob) (s : State) : State :=
  if j.failed || s.wr.stopped || decide (j.parts ≤ j.made) then
    { s with wr := { s.wr with passEnding := true, ckpt := some { j with failed := j.failed || decide (j.made < j.parts) } } }
  else if j.buf.isNone then s
  else
    let d := ckptDataset j s.wr.nextDs
    let next := { j with made := j.made + 1, buf := none, bufReq := none }
    let s := { s with wr := { s.wr with nextDs := s.wr.nextDs + 1, ckpt := some next } }
    let s := if next.made < j.parts then askCkpt next s else s
    encodeAs d (j.pos + j.made) 0x30 s

/-- Start the encoding of the next dataset of the pass: of a checkpoint copy, or the oldest closed one under the next data dataset number
(R323, R328, R329, R333, R334, R349, R352, R355). -/
def encodeStart (s : State) : State :=
  let s := sweep (judgeMembers s)
  match (if s.wr.passIndex then s.wr.ckpt else none), s.wr.closedQ with
  | some j, _ => encodeCkpt j s
  | none, [] => s
  | none, d :: rest =>
    if s.wr.stopped || !fits s.cart.wraps s.cart.grid s.cart.next then { s with wr := { s.wr with passEnding := true } }
    else
      let n := s.cart.next
      encodeAs d n 0x80 { s with cart := { s.cart with next := n + 1 }, wr := { s.wr with closedQ := rest } }

/-- On-medium WRITEs in flight. -/
def mediumSeqs (s : State) : List Nat :=
  s.host.cmds.filterMap fun p => match p.2.stage with
    | .writing _ => if eCMode p.2.entry = 1 then some p.2.seq else none
    | _ => none

/-- Images of fill and EOD sectors whose verdicts did not come are late: each counts as a failure and is released (R342, R344). -/
def lateFills (s : State) : State :=
  let late := (s.chans.map fun p => p.2.fifo.countP fun i => i.kind == 3).sum
  { s with chans := s.chans.map (fun p => (p.1, { p.2 with fifo := p.2.fifo.filter fun i => i.kind != 3 })),
           wr := { s.wr with fillVerifyFailures := sat32 (s.wr.fillVerifyFailures + late) } }

/-- The write banks of every channel are empty (R31). -/
def emptyBanks (s : State) : State :=
  { s with chans := s.chans.map fun p => (p.1, { p.2 with filling := none, draining := none }) }

/-- A closed dataset is wanted on tape now (R126, R137, R141, R142, R158, R333). -/
def passWanted (s : State) : Bool :=
  let seqs := mediumSeqs s
  let has := fun (d : Dataset) => d.blocks.any fun p => ((getBlk s p.1).map fun b => b.frags.any fun f => seqs.contains f.seq).getD false
  decide (param s 0x4820 7 ≤ s.wr.closedQ.length) || s.bpm.above || createWaits s || s.cart.state = .unloading ||
    s.wr.closedQ.any (fun d => d.kind == 1 || has d) || (drains s).any fun r => s.wr.closedQ.any (r.coversDs s)

/-- The checkpoint copy that waits to be written: it holds the buffer of its first dataset (R170, R333). -/
def copyReady (s : State) : Bool := match s.wr.ckpt with | some j => !j.written && j.buf.isSome | none => false

/-- A data pass may start: a cartridge that END_OF_MEDIUM made READ_ONLY still gets the bytes placed before it (R129, R333). While a
checkpoint waits for its buffer the datasets that hold the buffers are still written. -/
def dataPassDue (s : State) : Bool :=
  !s.wr.stopped && !s.wr.closedQ.isEmpty && passWanted s && (match s.wr.ckpt with | some j => j.buf.isNone && !j.written | none => true) &&
    (s.cart.state = .ready || s.cart.state = .readOnly || (s.cart.state = .unloading && !s.cart.unthreading))

/-- WRITE_PASS_START: a checkpoint copy is written in a pass of its own; no pass starts before the head-front chips have their register
writes (R129, R333, R334, R364, R587). -/
def execWritePassStart (s : State) : Result :=
  if s.wr.pass || s.rd.cur.isSome || tapeGone s || !s.tce.hcfWrites.isEmpty || !(copyReady s || dataPassDue s) then .next s
  else
    let s := takeEqTarget { s with
      chans := s.chans.map fun p => (p.1, { p.2 with failsIn := [], judgedIn := [] }),
      wr := { s.wr with pass := true, passEnding := false, passIndex := copyReady s, tails := 0, head := none,
                        lastCommit := match (if copyReady s then s.wr.ckpt else none) with | some j => j.pos | none => s.cart.next } }
    .next (encodeStart (chooseSpeed true (emptyBanks (lateFills s))))

/-- A dataset is encoded or being encoded and not yet under the head. -/
def encodedWaits (s : State) : Bool := s.wr.cocoon.any fun d => d.state == .encoding || d.state == .ready

/-- WRITE data waits in intake (R356). -/
def intakeHeld (s : State) : Bool :=
  s.host.cmds.any fun p => match p.2.stage with | .writing w => !w.intake.isEmpty | _ => false

/-- The tape is wanted for something else: a checkpoint, reads, or the entry to a power state (R171, R177, R356). -/
def tapeWanted (s : State) : Bool := s.wr.ckptDue || copyReady s || (!s.rd.queue.isEmpty && s.rd.batch) || s.pwr.goal.isSome

/-- The tag of the dataset whose transfer to the Cocoon comes next arrives with wrong parity: nothing is done, and the command that it
names ends (R22). -/
def dsTagBad (s : State) : State :=
  match s.wr.closedQ.head? with
  | none => s
  | some d => settle (badTag 0x90 d.buf d.flow bCocoon s)

/-- DATASET_ENCODE_START: at slot 48, or when no dataset of the pass is under the head or on its way there, the next dataset starts
encoding, or the pass ends (R22, R334, R356). -/
def execDatasetEncodeStart (tagOk : Bool) (s : State) : Result :=
  let early := match headDs s with | some d => decide (d.slot ≤ 48) | none => false
  if !s.wr.pass || s.wr.passEnding || early || encodedWaits s then .next s
  else if s.wr.passIndex then .next (encodeStart s)
  else if s.wr.closedQ.isEmpty then
    .next (raiseIf (intakeHeld s) 0x553 [] { s with wr := { s.wr with passEnding := true } })
  else if tapeWanted s then .next { s with wr := { s.wr with passEnding := true } }
  else if !tagOk then .next (dsTagBad s)
  else .next (encodeStart s)

/-- A poisoned word in the buffer that a dataset is written from keeps it from being written (R181). DESIGN CHOICE (log entry 99): it
fails with WRITE_FAULT. -/
def dsUnreadable (d : Dataset) (s : State) : State :=
  failDs d .writeFault (answer 0x90 .parityPoison d.buf d.flow s)

/-- DATASET_ENCODE_COMPLETE: with the first dataset of a run of datasets the transport is started (R180, R181, R321, R324, R335,
R352). -/
def execDatasetEncodeComplete (badOnce : Nat) (badTwice : Option (Nat × Nat)) (ecc : List EccWord) (s : State) : Result :=
  match s.wr.cocoon.find? fun d => d.state == .encoding with
  | none => .next s
  | some d =>
    let fails := badOnce + (if badTwice.isSome then 2 else 0)
    let bad := match d.buf with | some b => poisonedBuf s ecc b | none => false
    let s := eccReads ecc { s with wr := { s.wr with encodeCheckFailures := sat32 (s.wr.encodeCheckFailures + fails) } }
    if bad then .next (dsUnreadable d s)
    else match badTwice with
      | some (c, r) => .next (failDs d .writeFault (raise 0x530 [iDataset (d.number.getD 0), iChan c, iRow r] s))
      | none =>
        let s := updDs d.id (fun d => { d with state := .ready }) s
        .next (if (headDs s).isNone then runTape (d.place s).1 s.wr.speed s else s)

/-- LPOS of the leading edge of a slot of a dataset (R282, R284). -/
def slotLpos (s : State) (d : Dataset) (j : Nat) : Int :=
  let p := d.place s
  leadingEdge s.cart.lposB s.cart.lposE p.1 p.2 j

/-- The header of a sector or of its copy; a copy repeats the header of its sector but for SlotType, WritePass, Lpos and the
flags, which say what they mean of the dataset named (R289, R290, R325, R326). -/
def sectorHeader (s : State) (d : Dataset) (home row kind writePass : Nat) (lpos : Int) : SectorHeader :=
  let n := d.number.getD 0
  let t := rotationOf n
  let c := logicalOf t row home
  let part := if row = 0 then d.headerCh.idxOf? c else none
  { dataset := n, logical := c, physical := home, row := row, slotType := kind, wrap := (d.place s).1,
    rotation := t, writePass := writePass, indexRegion := d.index.isSome, headerSector := part.isSome, headerPart := part.getD 0,
    endOfData := false, degraded := !d.sample.isEmpty, lpos := (lpos % 2 ^ 32).toNat }

/-- The header of a fill sector or, with EndOfData, of an EOD sector, at a place of a number (R289, R290, R306, R326). -/
def fillHeader (s : State) (n p j : Nat) (place : Nat × Nat) (index eod degraded : Bool) : SectorHeader :=
  { dataset := n, logical := p, physical := p, row := j, slotType := 3, wrap := place.1,
    rotation := 0xFF, writePass := 0, indexRegion := index, headerSector := false, headerPart := 0, endOfData := eod,
    degraded := degraded, lpos := (leadingEdge s.cart.lposB s.cart.lposE place.1 place.2 j % 2 ^ 32).toNat }

/-- A payload with its C1 parity (R288). -/
def c1Codeword (payload : List Byte) : List Byte := payload ++ c1Parity payload

/-- The C1 codeword of a sector of a dataset, at home or in a copy (R286, R298, R311, R321, R336). -/
def sectorCodeword (s : State) (d : Dataset) (home row : Nat) : List Byte :=
  let n := d.number.getD 0
  c1Codeword (slotPayload d (datasetHeader d n (d.place s).1 (d.place s).2 s.cart.formatId) (rotationOf n) row home)

/-- The C1 codeword of a fill sector: a payload of zeros (R290). -/
def fillCodeword : List Byte := c1Codeword (List.replicate 1888 0#8)

/-- The 17,152 channel bits of a slot image that a channel writes (R287, R336). -/
def Image.bits (i : Image) (chan : Nat) : List Bool := sectorImage i.header chan i.slot i.codeword

/-- The image of a home sector (R336). -/
def homeImage (s : State) (d : Dataset) (j p : Nat) : Image :=
  let n := d.number.getD 0
  { dataset := n, slot := j, home := p, row := j, kind := 0, header := sectorHeader s d p j 0 0 (slotLpos s d j),
    codeword := sectorCodeword s d p j, under := n, wrap := (d.place s).1, flow := d.flow }

/-- The image of a copy, under the dataset whose rewrite slot it takes (R290, R347). -/
def copyImage (s : State) (d : Dataset) (x : Placement) : Image :=
  let src := (dsByNumber s x.dataset).getD d
  let kind := if x.patch then 2 else 1
  { dataset := x.dataset, slot := x.slot, home := x.home, row := x.row, kind := kind,
    header := sectorHeader s src x.home x.row kind x.writePass (slotLpos s d x.slot), codeword := sectorCodeword s src x.home x.row,
    under := d.number.getD 0, wrap := (d.place s).1, flow := x.flow }

/-- The image of a fill sector (R290). -/
def fillImage (s : State) (d : Dataset) (j p : Nat) (flow : BitVec 128) : Image :=
  let n := d.number.getD 0
  { dataset := n, slot := j, home := p, row := j, kind := 3, header := fillHeader s n p j (d.place s) d.index.isSome false (!d.sample.isEmpty),
    codeword := fillCodeword, under := n, wrap := (d.place s).1, flow := flow }

/-- What a channel writes in a slot of a dataset: its home sector, or in a rewrite slot what the commit gave it; none for a failed member
of the sample and for a slot that the commit withdrew (R337, R338, R347). -/
def slotImageOf (s : State) (d : Dataset) (j p : Nat) (fill : BitVec 128) : Option Image :=
  if d.sample.contains p then none
  else if j < 96 then some (homeImage s d j p)
  else match d.placements.find? fun x => x.chan == p && x.slot == j with
    | some x => some (copyImage s d x)
    | none => if d.fills.contains (p, j) then some (fillImage s d j p fill) else none

/-- A channel's bank holds its image of a slot of a dataset. -/
def bankHolds (c : Channel) (n j : Nat) : Bool := match c.filling with | some i => i.under == n && i.slot == j | none => false

/-- The images of a slot fill the banks of the channels that do not hold theirs (R29, R31, R336). -/
def fillBanks (d : Dataset) (j : Nat) (s : State) : State :=
  let lacks := (List.range 128).any fun p => !bankHolds (getChan s p) (d.number.getD 0) j && (slotImageOf s d j p 0).isSome
  let t := if j < 96 || !lacks then ((0 : BitVec 128), s) else agentTag agBuilder s
  (List.range 128).foldl (fun u p => updChan p (fun c =>
    if bankHolds c (d.number.getD 0) j then c else { c with filling := slotImageOf s d j p t.1 }) u) t.2

/-- A queue with the MARK option: its entries, the read pointer and the mark (R29). -/
structure MarkQ where
  entries : List Image
  read : Nat := 0
  mark : Nat := 0

/-- Mark saves the read pointer (R29). -/
def MarkQ.setMark (q : MarkQ) : MarkQ := { q with mark := q.read }

/-- A read moves the read pointer past an entry; its space is not freed (R29). -/
def MarkQ.take (q : MarkQ) : MarkQ := { q with read := min (q.read + 1) q.entries.length }

/-- Rewind restores the read pointer (R29). -/
def MarkQ.rewind (q : MarkQ) : MarkQ := { q with read := q.mark }

/-- Release frees the space before the mark (R29). -/
def MarkQ.release (q : MarkQ) : MarkQ := { entries := q.entries.drop q.mark, read := q.read - q.mark, mark := 0 }

/-- Release and rewind in one cycle: release first, then rewind, both by the mark as it stood (R30). -/
def MarkQ.releaseRewind (q : MarkQ) : MarkQ := q.release.rewind

/-- The verifier reads the image at a place of the queue, rewinds to its mark, reads it again, and releases it (R29, R341). -/
def verifyReads (l : List Image) (at' : Nat) : List Image :=
  let q : MarkQ := { entries := l, read := at' }
  q.setMark.take.rewind.take.setMark.releaseRewind.entries

/-- Images that a verify FIFO holds (R31). -/
def verifyDepth : Nat := 16

/-- A verify FIFO is full: back-pressure to the Dataset Builder (R29, R31, R342). -/
def verifyFull (s : State) : Bool := s.chans.any fun p => decide (verifyDepth ≤ p.2.fifo.length)

/-- The banks of a channel swap: the image drains, enters the verify FIFO, and its start is marked. A drain that stops leaves the rest of
the sector unwritten (R29-R31, R336, R339, R341). -/
def drainBank (p : Nat) (i : Image) (cut : Bool) (s : State) : State :=
  let i := { i with cut := cut, marked := true }
  emit (.slotImage p i.slot i.header i.codeword i.flow)
    (updChan p (fun c => { c with fifo := c.fifo ++ [i], bank := !c.bank, draining := if cut then none else some i, filling := none }) s)

/-- One more home sector of a channel counts towards its judgement (R406). -/
def countJudged (p n : Nat) (s : State) : State :=
  updChan p (fun c => { c with judgedIn := Tab.put c.judgedIn n (Tab.getD c.judgedIn n 0 + 1) }) s

/-- A sector that a channel wrote in the segment of a dataset failed verify or was cut off: the ninth raises VERIFY_BURST (R345, R368). -/
def countFail (p under : Nat) (s : State) : State :=
  let k := Tab.getD (getChan s p).failsIn under 0 + 1
  raiseIf (decide (k = 9)) (8 * p + 1) [] (updChan p (fun c => { c with failsIn := Tab.put c.failsIn under k }) s)

/-- A commit may still come in the pass: a dataset is on its way to it, or may be: closed, a tail, or the next of a checkpoint copy
(R346, R356, R358). -/
def commitsMay (s : State) : Bool :=
  encodedWaits s || (match headDs s with | some d => !d.committed | none => false) ||
    (!s.wr.stopped && match (if s.wr.passIndex then s.wr.ckpt else none) with
      | some j => !j.failed && decide (j.made < j.parts)
      | none => !s.wr.passIndex && decide (s.wr.tails < 4) && fits s.cart.wraps s.cart.grid s.cart.next)

/-- A later commit within n + 4 remains for a sector of dataset `n` (R346). -/
def commitRemains (s : State) (n : Nat) : Bool := decide (s.wr.lastCommit ≤ n + 4) && commitsMay s

/-- A home sector was cut off or skipped (R345, R361). -/
def cutHome (id p r : Nat) (s : State) : State := updDs id (fun d => d.putSector p r { d.sector p r with st := .needsCopy }) s

/-- A copy was cut off or skipped: it is not counted in Copies; with its window closed the sector is LOST (R345, R346). -/
def cutCopy (n home row : Nat) (s : State) : State :=
  match dsByNumber s n with
  | none => s
  | some d =>
    if d.state = .failed || d.sectorSt home row ≠ some .copyPending then s
    else
      let x := d.sector home row
      let s := updDs d.id (fun d => d.putSector home row { x with st := .needsCopy, copies := x.copies - 1 }) s
      if commitRemains s n then s else loseSectors d [(row, home)] s

/-- The sector of an image is cut off, or the image is never written (R345, R361). -/
def cutImage (d : Dataset) (i : Image) (s : State) : State :=
  if i.kind = 0 then cutHome d.id i.home i.row s else if i.kind = 3 then s else cutCopy i.dataset i.home i.row s

/-- The copy in an image has been begun once more: the next carries a higher WritePass (R346). -/
def countCopy (i : Image) (s : State) : State :=
  let s := { s with wr := { s.wr with sectorsCopied := s.wr.sectorsCopied + 1 } }
  match dsByNumber s i.dataset with
  | some t => updDs t.id (fun t => let y := t.sector i.home i.row; t.putSector i.home i.row { y with made := y.made + 1 }) s
  | none => s

/-- A channel writes what its bank holds; a drain that stops cuts the sector off (R336, R337, R339, R345, R406). -/
def writeSlot (d : Dataset) (cut : List Nat) (s : State) (p : Nat) : State :=
  match (getChan s p).filling with
  | none => s
  | some i =>
    let c := cut.contains p
    let s := drainBank p i c s
    let s := if i.kind = 1 ∨ i.kind = 2 then countCopy i s else s
    if !c then s
    else
      let s := cutImage d i (raise (8 * p) [] s)
      let s := if i.kind = 0 then countJudged p i.dataset s else s
      if i.kind = 3 then s else countFail p i.under s

/-- A channel does not write what its bank holds (R361, R587). -/
def skipSlot (d : Dataset) (s : State) (p : Nat) : State :=
  match (getChan s p).filling with
  | none => s
  | some i => cutImage d i (updChan p (fun c => { c with filling := none, draining := none }) s)

/-- The head-front chip of a channel still waits for register writes, so that no slot data is written to the channel (R587). -/
def chipWaits (s : State) (p : Nat) : Bool := s.tce.hcfWrites.any fun w => w.1 == p / 16

/-- The rewrite slot that a copy takes (R347). -/
def findSlot (slots : List (Nat × Nat)) (n h r : Nat) (patch : Bool) : Option (Nat × Nat) :=
  (List.range 128).findSome? fun i =>
    let p := (h + 64 + i) % 128
    if p = h ∨ p = (h + 1) % 128 ∨ p = (h + 127) % 128 then none
    else if patch && decide (r < 90) && stripeOf (rotationOf n) r p = stripeOf (rotationOf n) r h then none
    else [96, 97, 98].findSome? fun j => if slots.contains (p, j) then some (p, j) else none

/-- Place the copy of one sector, where a slot is left: free slots, placements and datasets so far (R20, R347). -/
def placeCopy (a : List (Nat × Nat) × List Placement × State) (x : Nat × Nat × Nat × Bool) : List (Nat × Nat) × List Placement × State :=
  let (n, h, r, patch) := x
  match dsByNumber a.2.2 n with
  | none => a
  | some d =>
    if d.sectorSt h r ≠ some .needsCopy then a
    else match findSlot a.1 n h r patch with
      | none => a
      | some (p, j) =>
        let y := d.sector h r
        let t := agentTag agCocoon a.2.2
        (a.1.erase (p, j), a.2.1 ++ [⟨p, j, n, h, r, patch, y.made + 1, t.1⟩],
          updDs d.id (fun d => d.putSector h r { y with st := .copyPending, copies := y.copies + 1 }) t.2)

/-- The copies that a commit places, in order (R347). -/
def commitList (s : State) (d : Dataset) (m : Nat) : List (Nat × Nat × Nat × Bool) :=
  (if d.patch && d.state != .failed then d.sample.flatMap fun f => (List.range 96).map fun r => (m, f, r, true) else []) ++
    ((s.wr.cocoon.filter fun x => x.state != .failed && (match x.number with | some n => decide (m ≤ n + 4 ∧ n ≤ m) | none => false)).flatMap
      fun x => (x.listSectors (· == .needsCopy)).map fun p => (x.number.getD 0, p.2, p.1, x.sample.contains p.2))

/-- The commit of a dataset: its copies are placed, every slot left gets a fill sector, and the windows that close make sectors LOST
(R346-R348). -/
def commitDs (d : Dataset) (s : State) : State :=
  let m := d.number.getD 0
  let slots := ((List.range 128).filter fun p => !d.sample.contains p && !(getChan s p).failed).flatMap fun p => [(p, 96), (p, 97), (p, 98)]
  let r := (commitList s d m).foldl placeCopy (slots, [], s)
  let s := updDs d.id (fun d => { d with placements := r.2.1, fills := r.1, committed := true }) r.2.2
  let s := { s with wr := { s.wr with lastCommit := m + 1 } }
  match dsByNumber s (m - 4) with
  | some o => if 4 ≤ m then loseSectors o (o.listSectors (· == .needsCopy)) s else s
  | none => s

/-- The commit of the dataset under the head falls at the leading edge of slot 94, once (R347). -/
def commitHead (s : State) : State :=
  match headDs s with
  | none => s
  | some d => if d.slot ≤ 94 || d.committed then s else commitDs d s

/-- DATASET_COMMIT (R346-R348). -/
def execDatasetCommit (s : State) : Result := .next (commitHead s)

/-- The trailing edge of slot 98 has passed: VERIFYING begins (R352). -/
def endSegment (s : State) : State :=
  match headDs s with
  | some d =>
    if d.slot = 99 then
      updDs d.id (fun d => { d with slot := 100, state := if d.state = .writing then .verifying else d.state })
        ((List.range 128).foldl (fun s p => updChan p (fun c => { c with draining := none }) s) s)
    else s
  | none => s

/-- The dataset that is written after the one under the head. -/
def nextReady (s : State) : Option Dataset := s.wr.cocoon.find? fun d => d.state == .ready

/-- While a slot drains, the image of the next one enters the other bank: of this dataset, or after slot 98 of the next one that is ready
(R336). -/
def prepareNext (j : Nat) (s : State) : State :=
  match headDs s with
  | none => s
  | some d => if j < 98 then fillBanks d (j + 1) s else match nextReady s with | some e => fillBanks e 0 s | none => s

/-- A dataset that its eighth inhibit failed: its gates stay closed (R362). -/
def shutDs (d : Dataset) : Bool := d.state = .failed && d.cause = some .writeInhibited

/-- The next slot of the dataset under the head begins; one that failed otherwise than by its eighth inhibit goes on being written
(DEDUCED, log entry 118) (R180, R181, R336-R339, R345, R347, R361, R362, R587). -/
def runSlot (cut : List Nat) (ecc : List EccWord) (s : State) : State :=
  let s := match headDs s with | some d => if d.slot = 95 then commitHead s else s | none => s
  match headDs s with
  | none => s
  | some d =>
    let j := d.slot
    let s := fillBanks d j s
    let bad := match d.buf with | some b => poisonedBuf s ecc b | none => false
    let s := updDs d.id (fun d => { d with slot := j + 1 }) (eccReads ecc s)
    let s := if bad && d.state = .writing then dsUnreadable d s else s
    let all := List.range 128
    let s := if shutDs d || inhibited s then all.foldl (skipSlot d) s
      else
        let off := all.filter (chipWaits s)
        let s := setGates true (off.foldl (skipSlot d) s)
        (all.filter fun p => !off.contains p).foldl (writeSlot d cut) s
    prepareNext j s

/-- A dataset that is ready comes under the head: WRITING begins (R352). -/
def beginDs (e : Dataset) (s : State) : State :=
  updDs e.id (fun d => { d with state := .writing, slot := 0 }) (sweep { s with wr := { s.wr with head := some e.id } })

/-- SLOT_START: the leading edge of the next slot, with the tape in motion; that after slot 98 is slot 0 of the next dataset, or the gates
close. A dataset after one that its eighth inhibit failed waits for the guard (R335-R339, R352, R361, R362, R364). -/
def execSlotStart (underruns : List Chan) (ecc : List EccWord) (s : State) : Result :=
  if !s.wr.pass || !tapeRuns s || verifyFull s then .next s
  else
    let cut := underruns.map (·.val)
    match headDs s with
    | some d =>
      if d.slot < 99 then .next (runSlot cut ecc s)
      else
        let s := endSegment s
        match nextReady s with
        | none => .next (setGates false s)
        | some e =>
          if shutDs d && inhibited s then .next s
          else .next (runSlot cut ecc (chooseSpeed false (beginDs e s)))
    | none =>
      match nextReady s with
      | none => .next s
      | some e => .next (runSlot cut ecc (chooseSpeed false (beginDs e s)))

/-- Store a sync offset, in units of 1/64 bit (R380, R381, R402). -/
def storeOffset (p wrap : Nat) (o : Int) (s : State) : State :=
  { s with dict := { s.dict with
      vals := Tab.put s.dict.vals (entryKey (0x4000 + p) (offsetSub wrap)) (leBytes 4 (o % 2 ^ 32).toNat) } }

/-- A home sector failed: the statistics of its channel; a failure while the channel's sync offset is unlearned says nothing of its head
(R345, R368, R381, R406, R410). -/
def homeFailed (p : Nat) (i : Image) (s : State) : State :=
  let s := updChan p (fun c => { c with verifyFailures := c.verifyFailures + 1 }) s
  if unlearnedOn s p i.wrap then s else countJudged p i.dataset s

/-- The judgement of a channel over a dataset; its counts of earlier datasets are done with (R406). -/
def judgeChannel (p n : Nat) (s : State) : State :=
  let c := getChan s p
  let isBad := decide (param s (0x4000 + p) 4 ≤ Tab.getD c.judgedIn n 0)
  let bad := if isBad then c.bad + 1 else 0
  let s := setChan p { c with bad := bad, judgedIn := Tab.del c.judgedIn n, failsIn := c.failsIn.filter fun x => decide (n ≤ x.1) } s
  let limit := param s (0x4000 + p) 3
  if isBad && decide (0 < limit) && decide (limit ≤ bad) then declareFailed p 1 s else s

/-- A copy failed (R345, R346). -/
def copyFailed (d : Dataset) (i : Image) (s : State) : State :=
  let x := d.sector i.home i.row
  let s := updDs d.id (fun d => d.putSector i.home i.row { x with st := .needsCopy }) s
  if param s 0x4820 6 ≤ x.copies || !commitRemains s i.dataset then loseSectors d [(i.row, i.home)] s else s

/-- A verdict moves the sector (R341, R345). -/
def moveSector (i : Image) (pass : Bool) (s : State) : State :=
  match dsByNumber s i.dataset with
  | none => s
  | some d =>
    if d.state = .failed || i.cut then s
    else
      let st := d.sectorSt i.home i.row
      if i.kind = 0 then
        if st ≠ some .await then s
        else updDs d.id (fun d => d.putSector i.home i.row { d.sector i.home i.row with st := if pass then .passed else .needsCopy }) s
      else if st ≠ some .copyPending then s
      else if pass then updDs d.id (fun d => d.putSector i.home i.row { d.sector i.home i.row with st := .passed }) s
      else copyFailed d i s

/-- A verdict is posted on an image of a channel; images of fill sectors that are released with it are late (R341, R342, R344, R345,
R406). -/
def postVerdict (p : Nat) (i : Image) (pass : Bool) (s : State) : State :=
  let at' := (getChan s p).fifo.idxOf i
  let s := updChan p (fun c => { c with fifo := verifyReads c.fifo at' }) s
  let missed := at' + (if i.kind = 3 && !pass then 1 else 0)
  let s := { s with wr := { s.wr with fillVerifyFailures := sat32 (s.wr.fillVerifyFailures + missed) } }
  if i.kind = 3 then s
  else
    let s := { s with wr := { s.wr with sectorsVerified := s.wr.sectorsVerified + 1 } }
    let s := moveSector i pass s
    let s := if !pass && !i.cut then countFail p i.under s else s
    let s := if i.kind = 0 && !pass && !i.cut then homeFailed p i s else s
    if i.kind = 0 && i.row = 95 then judgeChannel p i.dataset s else s

/-- The image of a dataset and a row at the front of a channel's verify FIFO; the images of fill sectors before it, whose verdicts
did not come, are released with it (R31, R341). -/
def findImage (s : State) (p n r : Nat) : Option Image :=
  let mine := fun (i : Image) => i.dataset == n && i.row == r
  ((getChan s p).fifo.dropWhile fun i => i.kind == 3 && !mine i).head?.filter mine

/-- VERIFY_LATE (R342). -/
def execVerifyLate (dataset : Nat) (chan : Chan) (row : Fin 99) (s : State) : Result :=
  match findImage s chan.val dataset row.val with
  | none => .next s
  | some i => .next (postVerdict chan.val i false s)

/-- Sectors required of a dataset (R345). -/
def Dataset.required (d : Dataset) : Nat := 96 * (128 - d.sample.length) + (if d.patch then 96 * d.sample.length else 0)

/-- Every required sector is PASSED (R352). -/
def Dataset.verified (d : Dataset) : Bool := d.state = .verifying && (d.sectors.countP fun x => x.2.st == .passed) == d.required

/-- DATASET_RELEASE: the index and the on-medium WRITEs, then the FLUSHes that waited on the dataset, then its buffer (R352, R353). -/
def execDatasetRelease (s : State) : Result :=
  match s.wr.cocoon.find? fun d => d.state != .failed with
  | none => .next s
  | some d => if d.verified then .next (settle (freeOpt d.buf d.flow (flushesDone (releaseDs d s)))) else .next s

/-- No dataset is under way in the write path, and every verdict has been posted. -/
def passQuiet (s : State) : Bool :=
  !encodedWaits s && (match headDs s with | some d => decide (99 ≤ d.slot) || shutDs d | none => true) &&
    s.chans.all fun p => p.2.fifo.all fun i => i.kind == 3

/-- The remaining windows of the pass close (R346, R356, R412). -/
def closeWindows (s : State) : State :=
  s.wr.cocoon.foldl (fun s d => loseSectors d (d.listSectors fun x => x == .needsCopy || x == .copyPending) s) s

/-- Datasets of the pass that are neither RELEASED nor FAILED (R356). -/
def passLeft (s : State) : Bool := s.wr.cocoon.any fun d => d.state != .failed

/-- A dataset of the pass waits for a copy (R356). -/
def copyWanted (s : State) : Bool := s.wr.cocoon.any fun d => d.state != .failed && !d.verified

/-- A tail dataset may still be written: not on an index wrap, not when writing is stopped, at most four, and while a data dataset number
remains (R285, R356, R358, R412). -/
def tailMay (s : State) : Bool :=
  !s.wr.passIndex && !s.wr.stopped && decide (s.wr.tails < 4) && fits s.cart.wraps s.cart.grid s.cart.next

/-- WRITE_PASS_END: the last verdict of the pass has been posted; windows that no commit can close end (R346, R356, R412). -/
def execWritePassEnd (readsNeedTape : Bool) (s : State) : Result :=
  if !s.wr.pass || !(s.wr.passEnding || readsNeedTape) || !passQuiet s then .next s
  else
    let s := setGates false (endSegment s)
    let s := sweep { s with wr := { s.wr with passEnding := true, head := none } }
    .next (if tailMay s then s else closeWindows s)

/-- WRITE_TAIL_DATASET (R356, R357). -/
def execWriteTailDataset (s : State) : Result :=
  if !s.wr.pass || !s.wr.passEnding || !passQuiet s || !copyWanted s || !tailMay s then .next s
  else
    let t := agentTag agBuilder s
    let s := if s.wr.closedQ.isEmpty then closeDataset true (openDataset 0 t.1 t.2) else s
    if s.wr.closedQ.isEmpty then .next s
    else
      let mark := fun (d : Dataset) => if d.payload.isEmpty then { d with padded := true } else d
      let s := { s with wr := { s.wr with closedQ := s.wr.closedQ.map mark, tails := s.wr.tails + 1,
                                          tailDatasets := sat32 (s.wr.tailDatasets + 1), head := none } }
      .next (encodeStart (raise 0x554 [] s))

/-- Where the EOD burst of the pass goes: the number that its sectors carry, the place, and whether it lies in the index region; none
after the last dataset of the last data wrap (R170, R304, R306). -/
def burstPlace (s : State) : Option (Nat × (Nat × Nat) × Bool) :=
  match (if s.wr.passIndex then s.wr.ckpt else none) with
  | some j => some (j.pos + j.made, (if j.copyB then 1 else 0, j.pos + j.made), true)
  | none =>
    let n := s.cart.next
    if !s.wr.passIndex && fits s.cart.wraps s.cart.grid n then some (n, placeOf s.cart.wraps s.cart.grid n, false) else none

/-- The image of a sector of an EOD burst (R289, R306). -/
def eodImage (s : State) (n : Nat) (place : Nat × Nat) (index : Bool) (j p : Nat) (flow : BitVec 128) : Image :=
  { dataset := n, slot := j, home := p, row := j, kind := 3, header := fillHeader s n p j place index true false,
    codeword := fillCodeword, under := n, wrap := place.1, flow := flow }

/-- One slot of an EOD burst (R20, R306). -/
def burstSlot (n : Nat) (place : Nat × Nat) (index : Bool) (s : State) (j : Nat) : State :=
  let t := agentTag agBuilder s
  (List.range 128).foldl (fun u p => drainBank p (eodImage s n place index j p t.1) false u) t.2

/-- The pass is over: a checkpoint copy has been written, reads and a checkpoint that is due may take the tape. -/
def endPass (s : State) : State :=
  let ckpt := if s.wr.passIndex then s.wr.ckpt.map fun j => { j with written := true, failed := j.failed || decide (j.made < j.parts) }
    else s.wr.ckpt
  let s := emptyBanks (sweep { s with wr := { s.wr with pass := false, passEnding := false, passIndex := false, tails := 0, head := none,
                                                        ckpt := ckpt } })
  startRead (tryCkpt s)

/-- EOD_BURST_WRITE: the end of a pass, once every dataset of it has left the Cocoon (R306, R307, R342, R356). -/
def execEodBurstWrite (s : State) : Result :=
  if !s.wr.pass || !s.wr.passEnding || !passQuiet s || inhibited s || (copyWanted s && tailMay s) then .next s
  else
    let s := sweep (closeWindows { s with wr := { s.wr with head := none } })
    if passLeft s then .next s
    else
      let s := match burstPlace s with
        | some (n, place, index) => setGates false ([0, 1, 2].foldl (burstSlot n place index) (setGates true (lateFills s)))
        | none => setGates false s
      .next (endPass s)

/-- The slot being written is cut off (R345, R361). -/
def cutSlot (d : Dataset) (s : State) : State :=
  let n := d.number.getD 0
  let j := d.slot - 1
  (List.range 128).foldl (fun s p =>
    match (getChan s p).fifo.find? fun i => i.slot == j && i.under == n && !i.cut && !i.header.endOfData with
    | none => s
    | some i =>
      let s := updChan p (fun c => { c with draining := none, fifo := c.fifo.map fun x => if x = i then { x with cut := true } else x }) s
      let s := cutImage d i s
      if i.kind = 3 then s else countFail p i.under s) s

/-- An inhibit counts against the dataset in whose segment it begins; the eighth fails it (R361, R362). -/
def countInhibit (d : Dataset) (s : State) : State :=
  let k := d.inhibits + 1
  let s := updDs d.id (fun d => { d with inhibits := k }) s
  if k = 8 && (d.state = .writing || d.state = .verifying) then failDs { d with inhibits := k } .writeInhibited s else s

/-- A condition of the write guard arises: bit 1 position, 2 shock, 4 clock; one that begins in no dataset's segment counts against none
(R359-R362). -/
def guardOnset (bit : Nat) (s : State) : State :=
  let was := guardSet s
  let w := s.wr
  let s := { s with wr := { w with guardPos := w.guardPos || bit == 1, guardShock := w.guardShock || bit == 2, guardClock := w.guardClock || bit == 4 } }
  if was then s
  else
    let s := { s with wr := { s.wr with inhibitCount := s.wr.inhibitCount + 1 } }
    match (headDs s).filter fun d => decide (d.slot ≤ 99) with
    | some d =>
      let s := raise 0x620 [(8, Config.guardCauseCode bit), iDataset (d.number.getD 0), iSlot (d.slot - 1)] s
      let s := if s.wr.gates && 0 < d.slot then cutSlot d (setGates false s) else s
      countInhibit (((headDs s).getD d)) s
    | none =>
      let s := raise 0x620 [(8, Config.guardCauseCode bit), iDataset (Config.freeNat s.drawn), iSlot (Config.freeNat (s.drawn + 1))] s
      { s with drawn := s.drawn + 2 }

/-- LAT periods that a low of so many nanoseconds touches, one more where it begins late in its period (R359, R445). -/
def shockPeriods (lowNs late : Nat) : Nat := (lowNs + 9999) / 10000 + late % 2

/-- SHOCK_FALL: a low of 12 ns or more is detected, one shorter than 4 ns is not, between them either (R359, R466). -/
def execShockFall (lowNs : Nat) (s : State) : Result :=
  let open' := decide (4 ≤ lowNs) && decide (lowNs < 12)
  let seen := decide (12 ≤ lowNs) || (open' && Config.freeNat s.drawn % 2 == 1)
  let s := if open' then drew s else s
  if !seen then .next s
  else
    let s := { s with tce := { s.tce with shockCount := s.tce.shockCount + 1 },
                      wr := { s.wr with guardQuiet := 0, shockLow := max s.wr.shockLow (shockPeriods lowNs (Config.freeNat s.drawn)) } }
    .next (guardOnset 2 (drew s))

/-- A LAT period ends: those in which SHOCK# was low, those since with it high throughout, and those in lock (R359). -/
def guardTick (s : State) : State :=
  { s with wr := { s.wr with guardQuiet := if s.wr.shockLow = 0 then s.wr.guardQuiet + 1 else 0, shockLow := s.wr.shockLow - 1,
                             guardLocked := if inLock s then s.wr.guardLocked + 1 else 0 } }

/-- WRITE_GUARD_CLEAR: conditions that have stayed away for `WriteGuardHoldoff` samples clear (R359). -/
def execWriteGuardClear (s : State) : Result :=
  let h := param s 0x4830 2
  let w := s.wr
  .next { s with wr := { w with
    guardPos := w.guardPos && decide (w.guardGood < h),
    guardShock := w.guardShock && decide (w.guardQuiet < h),
    guardClock := w.guardClock && !(decide (h ≤ w.guardLocked) && inLock s) } }

end Sys2Proof.Machine
end

