-- ==== Sys2Proof/Machine/Recovery.lean ====
section
/-! DEFINITION. Reading a dataset: accepted sectors, rounds of C2 and C3, harvest, retries, the blocks found, and rebuild
copies (R295, R301, R415-R428). -/

namespace Sys2Proof.Machine

/-- Position of the home slot that a sector names, and whether the sector is the home sector; none when it names another
dataset or does not fit (R289, R290, R295). -/
def namedPlace (d : ReadDs) (chan slot : Nat) (h : SectorHeader) : Option (Nat × Nat × Bool) :=
  let t := rotationOf d.number
  if h.dataset ≠ d.number || h.endOfData || 96 ≤ h.row || 128 ≤ h.physical then none
  else if h.logical ≠ logicalOf t h.row h.physical then none
  else if h.slotType = 0 then (if h.physical = chan && slot = h.row then some (chan, h.row, true) else none)
  else if (h.slotType = 1 || h.slotType = 2) && decide (96 ≤ slot) then some (h.physical, h.row, false)
  else none

/-- Keep an accepted sector: a home sector at its position, a copy among the copies if none with as high a WritePass is there; what the
codes filled gives way to either (R415). -/
def keepGot (i : Nat) (g : Got) (d : ReadDs) : ReadDs :=
  let filled := match Tab.get? d.got i with | some o => o.filled | none => false
  if g.home then (if (Tab.get? d.got i).isNone || filled then { d with got := Tab.put d.got i g } else d)
  else
    let better := match Tab.get? d.copies i with | some o => decide (o.pass < g.pass) | none => true
    { d with copies := if better then Tab.put d.copies i g else d.copies, got := if filled then Tab.del d.got i else d.got }

/-- Take an accepted sector into the dataset being read (R415). -/
def takeSector (chan slot : Nat) (h : SectorHeader) (codeword : List Byte) (s : State) : State :=
  match s.rd.cur with
  | none => s
  | some d =>
    match namedPlace d chan slot h with
    | none => s
    | some (p, r, home) =>
      let g : Got := { payload := codeword.take 1888, pass := h.writePass, home := home }
      { s with rd := { s.rd with cur := some (keepGot (p * 96 + r) g d) } }

/-- What is known of a position: its home sector or what the codes filled, else a copy (R415). -/
def ReadDs.at (d : ReadDs) (p r : Nat) : Option Got := (Tab.get? d.got (p * 96 + r)).orElse fun _ => Tab.get? d.copies (p * 96 + r)

/-- A payload of zeros in place of an erasure. -/
def payloadAt (d : ReadDs) (p r : Nat) : List Byte :=
  match d.at p r with
  | some g => g.payload
  | none => List.replicate 1888 0#8

/-- Put filled payloads at positions: those that were erased or that changed (R417). Answers how many. -/
def putFilled (l : List (Nat × Nat × List Byte)) (d : ReadDs) : ReadDs × Nat :=
  l.foldl (fun a x =>
    let old := a.1.at x.1 x.2.1
    let same := match old with | some g => g.payload == x.2.2 | none => false
    if same then a
    else
      let g : Got := match old with
        | some g => { g with payload := x.2.2, filled := true }
        | none => { payload := x.2.2, pass := 0, home := true, filled := true }
      ({ a.1 with got := Tab.put a.1.got (x.1 * 96 + x.2.1) g }, a.2 + 1)) (d, 0)

/-- C2 on the segment of one physical channel (R416, R417). -/
def c2Step (a : ReadDs × Nat) (p : Nat) : ReadDs × Nat :=
  let erased := (List.range 96).filter fun r => (a.1.at p r).isNone
  if erased.isEmpty || decide (6 < erased.length) then a
  else match c2Fill ((List.range 96).map (payloadAt a.1 p)) erased with
    | none => a
    | some rows =>
      let x := putFilled ((List.range 96).map fun r => (p, r, rows.getD r [])) a.1
      (x.1, a.2 + x.2)

/-- C3 on one stripe of one row (R416, R417). -/
def c3Step (t : Nat) (a : ReadDs × Nat) (x : Nat × Nat) : ReadDs × Nat :=
  let chans := (List.range 32).map fun m => physicalOf t x.1 (32 * x.2 + m)
  let erased := (List.range 32).filter fun m => (a.1.at (chans.getD m 0) x.1).isNone
  if erased.isEmpty || decide (2 < erased.length) then a
  else match c3Fill (chans.map fun p => payloadAt a.1 p x.1) erased with
    | none => a
    | some ms =>
      let y := putFilled (erased.map fun m => (chans.getD m 0, x.1, ms.getD m [])) a.1
      (y.1, a.2 + y.2)

/-- Erased data members of rows 0 to 89, as row and logical channel (R416, R420). -/
def erasedData (d : ReadDs) : List (Nat × Nat) :=
  let t := rotationOf d.number
  (List.range 90).flatMap fun r => (List.range 128).filterMap fun c =>
    if c % 32 < 30 ∧ (d.at (physicalOf t r c) r).isNone then some (r, c) else none

/-- The rounds (R330, R416). -/
def rounds : Nat → ReadDs → ReadDs
  | 0, d => d
  | k + 1, d =>
    let t := rotationOf d.number
    let a := (List.range 128).foldl c2Step (d, 0)
    let a := ((List.range 90).flatMap fun r => (List.range 4).map fun q => (r, q)).foldl (c3Step t) a
    if a.2 = 0 || (erasedData a.1).isEmpty then a.1 else rounds k a.1

/-- Logical channels of the header parts (R298). -/
def headerChans (h : List Byte) : List Nat :=
  let v := beNat ((h.drop 38).take 3)
  [v / 2 ^ 14 % 128, v / 2 ^ 7 % 128, v % 128]

/-- HeaderCrc is not found wrong: where all three parts are known it is right (R299). -/
def headerSound (d : ReadDs) (h : List Byte) : Bool :=
  let t := rotationOf d.number
  match (headerChans h).map fun c => (d.at (physicalOf t 0 c) 0).map (·.payload) with
  | [some a, some b, some c] => headerCrcOk (a ++ b ++ c)
  | _ => true

/-- Sectors of row 0 that are header part 0 of the dataset, of a header not found wrong (R298, R299). -/
def headParts (d : ReadDs) : List (List Byte) :=
  (List.range 128).filterMap fun p => match d.at p 0 with
    | some g =>
      if beNat (g.payload.take 4) = 0x4D524631 ∧ beNat ((g.payload.drop 8).take 5) = d.number ∧ headerSound d g.payload then some g.payload
      else none
    | none => none

/-- FormatId of a header part 0 (R298). -/
def partFormat (h : List Byte) : BitVec 64 := BitVec.ofNat 64 (beNat ((h.drop 30).take 8))

/-- Header part 0 of a dataset of this format, among what is known of row 0 (R296, R298, R305). -/
def fixedOf (s : State) (d : ReadDs) : Option (List Byte) := (headParts d).find? fun h => partFormat h == s.cart.formatId

/-- A header part 0 of the dataset with another FormatId: the dataset is not written (R305, R309). -/
def otherFormat (s : State) (d : ReadDs) : Bool := (headParts d).any fun h => partFormat h != s.cart.formatId

/-- Home sectors of the channels in FailedMembers are erasures; a copy of one stays (R295, R415). -/
def dropFailed (h : List Byte) (d : ReadDs) : ReadDs :=
  let members := beNat ((h.drop 42).take 16)
  { d with got := d.got.filter fun x => !(members.testBit (x.1 / 96) && x.2.home && !x.2.filled) }

/-- Run the rounds as a header part 0 says; a header that they show to be wrong is undecodable, and they run without it (R299, R415,
R416). -/
def roundsBy (n : Nat) (h : List Byte) (d : ReadDs) : ReadDs :=
  let e := rounds n (dropFailed h d)
  if headerSound e h then e else rounds n d

/-- Run the rounds on what has been accepted; where only they fill header part 0, they run again without the home sectors that it
names as failed (R415, R416). -/
def decodeRounds (s : State) (d : ReadDs) : ReadDs :=
  let n := param s 0x4870 5
  match fixedOf s d with
  | some h => roundsBy n h d
  | none =>
    let e := rounds n d
    match fixedOf s e with
    | some h => roundsBy n h e
    | none => e

/-- The position holds a dataset of this recording (R305, R309, R425). -/
def dsPresent (s : State) (d : ReadDs) : Bool := (d.got.any fun x => x.2.home) && !otherFormat s d

/-- The user data in fill order; header parts stand where the fixed part says, else where the placement rule puts them
(R296, R328). -/
def userArea (s : State) (d : ReadDs) (h : Option (List Byte)) : UserArea :=
  let t := rotationOf d.number
  let parts := match h with
    | some h => headerChans h
    | none => (List.range 3).filterMap (headerPlace t (failedMembers s))
  let others := (List.range 90).flatMap fun r =>
    ((List.range 128).filter fun c => decide (c % 32 < 30) && !(r == 0 && parts.contains c)).map fun c => (r, c)
  let all := (parts.map fun c => (0, c)) ++ others
  let got := all.map fun x => d.at (physicalOf t x.1 x.2) x.1
  let idx := got.zip (List.range got.length)
  { bytes := all.flatMap fun x => payloadAt d (physicalOf t x.1 x.2) x.1,
    lost := idx.filterMap fun x => if x.1.isNone then some x.2 else none,
    lostChans := all.filterMap fun x => if (d.at (physicalOf t x.1 x.2) x.1).isNone then some (physicalOf t x.1 x.2) else none,
    rebuilt := idx.filterMap fun x => match x.1 with | some g => if g.filled then some x.2 else none | none => none }

/-- A range of the payload area touches one of these user sectors. -/
def touches (l : List Nat) (off len : Nat) : Bool :=
  decide (0 < len) && l.any fun i => decide ((4096 + off) / 1888 ≤ i ∧ i ≤ (4096 + off + len - 1) / 1888)

/-- The physical channel of the first lost sector that a range of the payload area touches (R79). -/
def UserArea.lostChan (u : UserArea) (off len : Nat) : Option Nat :=
  ((u.lost.zip u.lostChans).find? fun x => touches [x.1] off len).map (·.2)

/-- Payload area of the user data. -/
def UserArea.payload (u : UserArea) : List Byte := u.bytes.drop 4096

/-- A block header read at an offset of a dataset (R215). -/
def readHeader (orig phys off : Nat) (h : List Byte) : TapeBlk :=
  let b := beNat h
  let f := fun (lo w : Nat) => b / 2 ^ lo % 2 ^ w
  { id := 0, dataset := orig, phys := phys, pos := off, stream := f 208 14, first := f 160 48, lane := f 128 4,
    raw := f 231 1 == 1, independent := f 230 1 == 1, encrypted := f 229 1 == 1,
    comp := if f 226 2 = 0 then 3 else if f 226 2 = 3 then 0 else f 226 2,
    fragCount := f 144 16, contentLen := f 96 32, payloadLen := f 64 32, distance := f 32 32, crc := f 0 32, bytes := [] }

/-- The header is one of this format (R215). -/
def headerOk (h : List Byte) : Bool := beNat (h.take 2) == 0xA5C3 && h.getD 2 0 == 1#8

/-- Blocks that begin at an offset and after it, and the offset from which none could be found (R301, R420). -/
def parseBlks (orig phys : Nat) (u : UserArea) (used : Nat) : Nat → Nat → List TapeBlk × Option Nat
  | 0, _ => ([], none)
  | k + 1, off =>
    if used ≤ off then ([], none)
    else
      let h := (u.payload.drop off).take 32
      if touches u.lost off 32 then ([], some off)
      else if !headerOk h then ([], if h.all (· == 0#8) then none else some off)
      else
        let b := readHeader orig phys off h
        let size := 32 + b.payloadLen + (if b.encrypted then 28 else 0)
        let n := min size (used - off)
        let b := { b with bytes := (u.payload.drop off).take n, short := size - n, rebuilt := touches u.rebuilt off n,
                          unreadable := touches u.lost off n, badChan := u.lostChan off n }
        let r := parseBlks orig phys u used k (off + n)
        (b :: r.1, r.2)

/-- Blocks with consecutive identities. -/
def numberBlks : Nat → List TapeBlk → List TapeBlk
  | _, [] => []
  | n, b :: t => { b with id := n } :: numberBlks (n + 1) t

/-- A block that waits for its rest takes it from the continuation of the next dataset (R301). -/
def joinTail (tails : Tab TapeTail) (b : TapeBlk) : TapeBlk :=
  if b.short = 0 then b
  else match Tab.get? tails (b.dataset + 1) with
    | some t => { b with
        bytes := b.bytes ++ t.bytes, short := 0, rebuilt := b.rebuilt || t.rebuilt, unreadable := b.unreadable || t.unreadable,
        badChan := b.badChan.orElse fun _ => t.badChan }
    | none => b

/-- Every block that can be joined is. -/
def joinTails (s : State) : State := { s with rd := { s.rd with blks := s.rd.blks.map (joinTail s.rd.tails) } }

/-- The bytes that the last block of the dataset before leaves to a dataset; none when that is not known (R421). -/
def contBefore (s : State) (orig : Nat) : Option Nat :=
  if orig = 0 then some 0
  else if !s.rd.seen.contains (orig - 1) || s.rd.gaps.contains (orig - 1) then none
  else some ((s.rd.blks.filter fun b => b.dataset == orig - 1).foldl (fun m b => max m b.short) 0)

/-- Add the blocks of a dataset: its continuation, then its own (R301). -/
def addBlks (orig phys cont used : Nat) (u : UserArea) (s : State) : State :=
  let p := parseBlks orig phys u used (used / 32 + 1) cont
  let new := numberBlks s.rd.nextBlk p.1
  let tail : TapeTail := { bytes := u.payload.take cont, rebuilt := touches u.rebuilt 0 cont, unreadable := touches u.lost 0 cont,
                           badChan := u.lostChan 0 cont }
  joinTails { s with rd := { s.rd with
    blks := (s.rd.blks.filter fun b => decide (b.dataset < orig)) ++ new ++ s.rd.blks.filter fun b => decide (orig < b.dataset),
    nextBlk := s.rd.nextBlk + new.length, tails := Tab.put s.rd.tails orig tail,
    gaps := if p.2.isSome then orig :: s.rd.gaps else s.rd.gaps } }

/-- Find the blocks of a dataset whose header part 0 is lost, once the dataset before is known (R421). -/
def addHeadless (orig : Nat) (s : State) : State :=
  match Tab.get? s.rd.headless orig with
  | none => s
  | some u =>
    let done := fun (s : State) => { s with rd := { s.rd with headless := Tab.del s.rd.headless orig } }
    match contBefore s orig with
    | some cont => done (addBlks orig (currentOf s orig) cont payloadArea u s)
    | none =>
      if s.rd.gaps.contains (orig - 1) then done { s with rd := { s.rd with gaps := orig :: s.rd.gaps } } else s

/-- Unrecovered stripes: row, stripe, erased members of it (R420). -/
def lostStripes (d : ReadDs) : List (Nat × Nat × Nat) :=
  let t := rotationOf d.number
  let keys := ((erasedData d).map fun x => (x.1, x.2 / 32)).dedup
  keys.map fun x => (x.1, x.2, (List.range 32).countP fun m => (d.at (physicalOf t x.1 (32 * x.2 + m)) x.1).isNone)

/-- Count what C2 and C3 filled, and raise the events of unrecovered stripes (R420, R422). -/
def countRead (d : ReadDs) (s : State) : State :=
  let filled := d.got.filter fun x => x.2.filled && x.2.home
  let s := filled.foldl (fun s x => updChan (x.1 / 96) (fun c => { c with rebuilt := c.rebuilt + 1 }) s) s
  let lost := lostStripes d
  let s := { s with rd := { s.rd with rebuiltSectors := s.rd.rebuiltSectors + filled.length,
                                      stripesUnrecovered := sat32 (s.rd.stripesUnrecovered + lost.length) } }
  lost.foldl (fun s x => raise 0x562 [iDataset d.number, iWrap d.wrap, iRow x.1, iStripe x.2.1, (6, x.2.2)] s) s

/-- Last record of a block as far as its header, the next block's and the extent show (R208, R428). -/
def lastOf (s : State) (gap : Bool) (b : TapeBlk) (next : Option TapeBlk) : Nat :=
  let own := b.first + b.fragCount - 1
  match next with
  | some m => if m.first ≤ own then m.first else m.first - 1
  | none =>
    if gap then own
    else match s.index.extents.find? fun e => e.stream == b.stream && e.dataset == b.dataset with
      | some e => e.first + e.count - 1
      | none => own

/-- Ranges of a dataset that hold records, for moth-holes: first and end offset, stream, first and last record (R428). -/
def recordRanges (s : State) (orig cont used : Nat) (p : List TapeBlk × Option Nat) : List (Nat × Nat × Nat × Nat × Nat) :=
  let own := p.1.map fun b =>
    let next := p.1.find? fun c => c.stream == b.stream && decide (b.pos < c.pos)
    (b.pos, b.pos + b.bytes.length, b.stream, b.first, lastOf s p.2.isSome b next)
  let exts := s.index.extents.filter fun e => e.dataset == orig
  let before := if cont = 0 then [] else
    match s.rd.blks.find? fun b => decide (b.dataset + 1 = orig) && decide (b.bytes.length + b.short + b.pos > payloadArea) with
    | some b => [(0, cont, b.stream, b.first, lastOf s false b none)]
    | none => (exts.filter fun e => !e.startsHere).map fun e => (0, cont, e.stream, e.first, e.first)
  let after := match p.2 with
    | none => []
    | some off => exts.filterMap fun e =>
        let lo := ((p.1.filter fun b => b.stream == e.stream).getLast?.map fun b => b.first + b.fragCount).getD e.first
        if lo < e.first + e.count then some (off, used, e.stream, lo, e.first + e.count - 1) else none
  before ++ own ++ after

/-- Put a range into rising ranges, joining those that touch. -/
def mergeRange (x : Nat × Nat) : List (Nat × Nat) → List (Nat × Nat)
  | [] => [x]
  | y :: t => if y.2 + 1 < x.1 then y :: mergeRange x t else if x.2 + 1 < y.1 then x :: y :: t
              else mergeRange (min x.1 y.1, max x.2 y.2) t

/-- Moth-hole entries of a dataset read (R164, R428). -/
def mothsOf (d : ReadDs) (u : UserArea) (parts : List Nat) (ranges : List (Nat × Nat × Nat × Nat × Nat)) : List Moth :=
  let place := fun (x : Nat × Nat) =>
    let skipped := parts.countP fun c => decide (c < x.2) || decide (0 < x.1)
    match (if x.1 = 0 then parts.idxOf? x.2 else none) with
    | some k => k
    | none => 3 + 120 * x.1 + 30 * (x.2 / 32) + x.2 % 32 - skipped
  (lostStripes d).flatMap fun q =>
    let idx := ((erasedData d).filter fun x => x.1 == q.1 && x.2 / 32 == q.2.1).map place
    let hit := ranges.filter fun r => touches (idx.filter u.lost.contains) r.1 (r.2.1 - r.1)
    ((hit.map fun r => r.2.2.1).dedup).flatMap fun n =>
      let runs := (hit.filter fun r => r.2.2.1 == n).foldl (fun l r => mergeRange (r.2.2.2.1, r.2.2.2.2) l) []
      runs.map fun r => { stripe := q.2.1, stream := n, first := r.1, count := r.2 + 1 - r.1, wrap := d.wrap,
                          dataset := d.number, row := q.1 }

/-- Build the rebuild copy of a dataset read (R303, R425, R426, R428). -/
def buildCopy (d : ReadDs) (u : UserArea) (h : Option (List Byte)) (cont used : Nat) (slot : Nat) (j : RebuildJob)
    (s : State) : State :=
  let parts := match h with
    | some h => headerChans h
    | none => (List.range 3).filterMap (headerPlace (rotationOf d.number) (failedMembers s))
  let p := parseBlks d.orig d.number u used (used / 32 + 1) cont
  let moths := mothsOf d u parts (recordRanges s d.orig cont used p)
  let reloc := IndexEntry.reloc ⟨d.wrap, d.number, 0, unnumbered⟩
  let entries := (reloc :: moths.map .moth) ++ s.wr.queued
  let t := agentTag agRebuild s
  let s := t.2
  let copy : Dataset := {
    id := s.wr.nextDs, kind := 1, flow := t.1, state := .closed, payload := u.payload.take used, continuation := cont,
    padded := match h with | some h => (h.getD 5 0#8).getLsbD 5 | none => false,
    contentOf := d.orig, entries := entries.take 120 }
  let s := moths.foldl (fun s _ => raise 0x563 [] s) s
  let s := { s with wr := { s.wr with nextDs := s.wr.nextDs + 1, closedQ := s.wr.closedQ ++ [copy], queued := entries.drop 120 } }
  setStage slot (.rebuilding { j with moths := j.moths + moths.length }) s

/-- The rebuild takes the dataset read (R425, R430). -/
def rebuildTake (d : ReadDs) (u : UserArea) (h : Option (List Byte)) (cont used : Nat) (s : State) : State :=
  match findRebuild s with
  | none => s
  | some (slot, j) =>
    if j.stopped || rebuildNext s s.index.failed.length j ≠ d.orig then s
    else if !dsPresent s d then setStage slot (.rebuilding { j with next := d.orig + 1 }) s
    else
      let j := { j with next := d.orig + 1, read := j.read + 1 }
      if numbersLeft s = 0 then
        setStage slot (.rebuilding { j with stopped := true, err := some (j.err.getD .endOfMedium) }) s
      else buildCopy d u h cont used slot j s

/-- The dataset has been read as far as it can be: its blocks are found, a rebuild takes it, and the next read starts
(R176, R177, R420-R425). -/
def endDsRead (d : ReadDs) (s : State) : State :=
  let s := countRead d s
  let h := fixedOf s d
  let u := userArea s d h
  let s := freeOpt d.buf d.flow { s with rd := { s.rd with cur := none, offset := 0, speed := param s 0x4840 9, seen := d.orig :: s.rd.seen } }
  let found := dsPresent s d
  let used := match h with | some h => beNat ((h.drop 26).take 4) | none => payloadArea
  let cont := match h with | some h => beNat ((h.drop 22).take 4) | none => (contBefore s d.orig).getD 0
  let s := rebuildTake d u h cont used s
  let s :=
    if !found then
      -- no continuation follows: a block that reaches into it is cut short (R265)
      joinTails { s with rd := { s.rd with gaps := d.orig :: s.rd.gaps,
                                           tails := Tab.put s.rd.tails d.orig { bytes := [], rebuilt := false, unreadable := false } } }
    else match h with
      | some _ => addBlks d.orig d.number cont used u s
      | none => addHeadless d.orig { s with rd := { s.rd with headless := Tab.put s.rd.headless d.orig u } }
  let s := addHeadless (d.orig + 1) s
  startRead (tryCkpt (settle s))

/-- Speed step and lateral offset of retry `i` (R419). -/
def retrySettings (s : State) (i : Nat) : Nat × Int :=
  let base := param s 0x4840 9
  let slow := base - param s 0x4870 7
  let off : Int := (param s 0x4870 8 : Nat)
  let k := if i ≤ 4 then i else 2 + (i - 5) % 3
  if k = 1 then (base, 0) else if k = 2 then (slow, 0) else if k = 3 then (slow, off) else (slow, -off)

/-- Go on to retry `i`, or end the read when there is none left (R418, R419). -/
def nextRetry (d : ReadDs) (i : Nat) (s : State) : State :=
  if param s 0x4870 6 < i then endDsRead d s
  else
    let p := retrySettings s i
    { s with rd := { s.rd with cur := some { d with phase := 2, retry := i }, speed := p.1, offset := p.2 } }

/-- The commands that need the dataset being read: slots (R176, R181). -/
def dsReaders (s : State) (d : ReadDs) : List Nat :=
  s.host.cmds.filterMap fun p => match p.2.stage with
    | .reading j =>
      let e := p.2.entry
      if (jobNeeds s (eOpcode e == opReadRaw) (eStream e) (j.room.getD 0) (eSkipMissing e) (if j.room.isSome then eCount e else 0)
        (eFirst e) 0).contains d.orig then some p.1 else none
    | .rebuilding j => if !j.stopped && rebuildNext s s.index.failed.length j = d.orig then some p.1 else none
    | _ => none

/-- The error log entry of a command whose data was poisoned (R22, R79, R181). -/
def poisonInfo (block : Nat) : ErrInfo := { response := Response.parityPoison.code, block := block }

/-- A poisoned word in a read dataset buffer: its data is not used, the read is given up, and the commands that need it complete with
INTERNAL_ERROR (R181). -/
def dsPoisoned (d : ReadDs) (s : State) : State :=
  let slots := dsReaders s d
  let s := answer 0x80 .parityPoison d.buf d.flow s
  let s := freeOpt d.buf d.flow { s with rd := { s.rd with cur := none, offset := 0, speed := param s 0x4840 9 } }
  startRead (tryCkpt (slots.foldl (fun s n => failCmd n .internalError (poisonInfo bBuilder) s) s))

/-- A decode of the dataset being read, in its phase and with its buffer: the rounds run on what has been accepted; `miss` follows
where a data member stays erased (R180, R181, R196, R416-R418, R424). -/
def decodePass (phase : Nat) (ecc : List EccWord) (miss : ReadDs → State → State) (s : State) : Result :=
  match s.rd.cur with
  | none => .next s
  | some d =>
    match d.buf with
    | none => .next s
    | some b =>
      if d.phase ≠ phase then .next s
      else
        let bad := poisonedBuf s ecc b
        let s := eccReads ecc s
        if bad then .next (dsPoisoned d s)
        else
          let d := decodeRounds s d
          if (erasedData d).isEmpty then .next (endDsRead d s) else .next (miss d s)

/-- DATASET_DECODE: the rounds after the first read (R196, R416-R418, R424). -/
def execDatasetDecode (ecc : List EccWord) (s : State) : Result :=
  decodePass 0 ecc (fun d s => { s with rd := { s.rd with cur := some { d with phase := 1 } } }) s

/-- HARVEST_READ: the copies in slots 96 to 98 of the four datasets after it have been read; the rounds run again (R418). -/
def execHarvestRead (ecc : List EccWord) (s : State) : Result := decodePass 1 ecc (fun d s => nextRetry d 1 s) s

/-- READ_RETRY: a retry has read the dataset again; the rounds run again (R418-R420). -/
def execReadRetry (ecc : List EccWord) (s : State) : Result :=
  let due := match s.rd.cur with | some d => decide (d.phase = 2) && d.buf.isSome | none => false
  let s := if due then { s with rd := { s.rd with retriesDone := s.rd.retriesDone + 1 } } else s
  decodePass 2 ecc (fun d s => nextRetry d (d.retry + 1) s) s

end Sys2Proof.Machine
end

