-- ==== Sys2Proof/Machine/Tlcs.lean ====
section
/-! DEFINITION. The Tape-Locked Clock Synthesiser (R369-R378). -/

namespace Sys2Proof.Machine

/-- Channel bits of a servo frame (R278, R283). -/
def frameBits : Nat := 64 * 144

/-- A band has a valid reader: band 0 the lower, band 1 the upper (R369). -/
def bandValid (s : State) (band : Nat) : Bool := s.tlcs.valid.any fun r => r / 2 == band

/-- The DCO's frequency for a tape speed: 44,882 bit/mm, in its range (R371). -/
def dcoFor (ums : Int) : Nat := max 40000000 (min 290000000 (44882 * ums.natAbs / 1000))

/-- The speed reference that the reel loops follow, in µm/s (R374, R461). -/
def speedRef (s : State) : Int := (s.tce.loops.getD 3 {}).setpoint

/-- The present frequency of the DCO: in FLYWHEEL it keeps its last one, in proportion to the speed reference (R374). -/
def dcoNow (s : State) : Nat :=
  if s.tlcs.state = .flywheel && decide (s.tlcs.flyRef ≠ 0) then
    max 40000000 (min 290000000 (s.tlcs.dco * (speedRef s).natAbs / s.tlcs.flyRef.natAbs))
  else s.tlcs.dco

/-- The speed that the DCO's frequency means, in µm/s (R450). -/
def dcoSpeed (s : State) : Nat := dcoNow s * 1000 / 44882

/-- Set the DCO's frequency; the speed reference goes with it (R371, R374). -/
def setDco (hz : Nat) (s : State) : State := { s with tlcs := { s.tlcs with dco := hz, flyRef := speedRef s } }

/-- 1/64 bits of a clock period, 24 bits (R277, R369). -/
def periodQ : Nat := 1536

/-- The nearest multiple of a clock period. -/
def wholePeriods (q : Int) : Int := periodQ * roundDiv q periodQ

/-- A reader's phase within the clock period, from how far it is ahead of the DCO's count at its zero crossing, in 1/64 bit (R369). -/
def phaseOf (crossing : Int) : Int := crossing - wholePeriods crossing

/-- The phase of a reader. -/
def readerPhase (s : State) (r : Nat) : Int := Tab.getD s.tlcs.phases r 0

/-- Keep the phase of a reader. -/
def putPhase (r : Nat) (crossing : Int) (s : State) : State :=
  { s with tlcs := { s.tlcs with phases := Tab.put s.tlcs.phases r (phaseOf crossing) } }

/-- The average phase of some readers. -/
def meanPhase (s : State) (l : List Nat) : Int := roundDiv ((l.map (readerPhase s)).sum) (max 1 l.length)

/-- The phase of the upper band's valid readers less that of the lower band's (R377). -/
def bandPhase (s : State) : Int :=
  meanPhase s (s.tlcs.valid.filter (2 ≤ ·)) - meanPhase s (s.tlcs.valid.filter (· < 2))

/-- Both bands have a valid reader (R378). -/
def bothBands (s : State) : Bool := bandValid s 0 && bandValid s 1

/-- The DCO has counted so many 1/64 bits since the last TILT_UPDATE: the position counts up in forward motion and down in reverse, and in
FLYWHEEL the distance count goes on (R374, R375). -/
def countTo (since : Nat) (s : State) : State :=
  if s.tlcs.state = .idle then s
  else
    let n := since - s.tlcs.counted
    { s with tlcs := { s.tlcs with
        counted := max s.tlcs.counted since,
        position := if 0 ≤ s.tce.speed then s.tlcs.position + n else s.tlcs.position - n,
        distance := if s.tlcs.state = .flywheel then s.tlcs.distance + n else s.tlcs.distance } }

/-- The distance count has reached `FlywheelLimit`, in µm at 44,882 bit/mm (R372, R374). -/
def pastLimit (s : State) : Bool := decide (64 * 44882 * param s 0x4860 1 ≤ 1000 * s.tlcs.distance)

/-- Enter ACQUIRE out of lock: the clock condition of the write guard arises (R359, R372, R373, R376). -/
def loseLock (fromFly : Bool) (s : State) : State :=
  let s := guardOnset 4 s
  { s with tlcs := { s.tlcs with state := .acquire, lpos := false, fromFly := fromFly, steady := 0, unlocks := sat32 (s.tlcs.unlocks + 1) },
           wr := { s.wr with guardLocked := 0 } }

/-- Enter LOCKED: the whole-period part of ΔL is to be fixed (R372, R377). -/
def enterLock (s : State) : State :=
  { s with tlcs := { s.tlcs with state := .locked, fromFly := false, fixWhole := true, passed := none } }

/-- Event TLCS_UNLOCK, then ACQUIRE (R372). -/
def unlockTlcs (s : State) : State := loseLock true (raise 0x641 [] s)

/-- Event LPOS_SLIP, then ACQUIRE (R372, R375). -/
def slipTlcs (s : State) : State := loseLock false (raise 0x642 [] s)

/-- The tape speed changes: the DCO starts at 1.1 m/s and stops below 1.0 m/s (R372). -/
def tlcsSpeed (ums : Int) (s : State) : State :=
  let v := ums.natAbs
  if s.tlcs.state = .idle then
    if 1100000 ≤ v then setDco (dcoFor ums) { s with tlcs := { s.tlcs with state := .acquire, lpos := false, fromFly := false } } else s
  else if v < 1000000 then
    let s := if inLock s then guardOnset 4 s else s
    { s with tlcs := { s.tlcs with state := .idle, dco := 0, lpos := false, fromFly := false }, wr := { s.wr with guardLocked := 0 } }
  else s

/-- The transport control domain is reset: the DCO stops (R372). -/
def tlcsReset (s : State) : State :=
  let s := if inLock s then guardOnset 4 s else s
  { s with tlcs := { flyEntries := 0, unlocks := 0 }, wr := { s.wr with guardLocked := 0 } }

/-- Two readers of a band differ by more than 2 bits beyond their learned difference; `r` is the one in question (R370). -/
def phasesApart (s : State) (r : Nat) (own other : Int) : Bool :=
  let learned := s.tlcs.learned.getD (r / 2) 0
  decide (128 < (own - other - (if r % 2 = 0 then learned else -learned)).natAbs)

/-- The other reader of a reader's band (R369). -/
def otherReader (r : Nat) : Nat := r / 2 * 2 + (1 - r % 2)

/-- What makes a clock reader invalid: an envelope too small for two periods, no zero crossing for one and a half, or a phase more than 2
bits from that of the band's other reader beyond their learned difference and no nearer to the DCO phase than it (R370). -/
def readerFails (reader : Nat) (loss : ReaderLoss) (s : State) : Bool :=
  match loss with
  | .envelope before last => decide (before < param s 0x4860 3 ∧ last < param s 0x4860 3)
  | .crossing halves => decide (3 ≤ halves)
  | .phase own other =>
    s.tlcs.valid.contains (otherReader reader) && phasesApart s reader (phaseOf own) (phaseOf other) &&
      decide ((phaseOf other).natAbs ≤ (phaseOf own).natAbs)

/-- The tilt goes on hold while one band has no valid reader, with an event once per episode (R378). -/
def holdTilt (s : State) : State :=
  if s.tlcs.valid.isEmpty || bothBands s || s.tlcs.hold then s else raise 0x644 [] { s with tlcs := { s.tlcs with hold := true } }

/-- CLOCK_READER_LOSS (R370, R372, R378). -/
def execClockReaderLoss (reader : Fin 4) (loss : ReaderLoss) (s : State) : Result :=
  if !s.tlcs.valid.contains reader.val || !readerFails reader.val loss s then .next s
  else
    let s := raise 0x643 [(2, reader.val)] { s with tlcs := { s.tlcs with valid := s.tlcs.valid.erase reader.val } }
    let s := if !bothBands s && !s.tlcs.hold then raise 0x644 [] { s with tlcs := { s.tlcs with hold := true } } else s
    if s.tlcs.state = .locked && s.tlcs.valid.isEmpty then
      .next (raise 0x640 [] { s with tlcs := { s.tlcs with
        state := .flywheel, distance := 0, flyRef := speedRef s, flyEntries := sat32 (s.tlcs.flyEntries + 1) } })
    else .next s

/-- No test of R370 fails for a reader that may become valid. -/
def readerPasses (reader : Nat) (x : ReaderSign) (s : State) : Bool :=
  !(decide (x.before < param s 0x4860 3) && decide (x.last < param s 0x4860 3)) && decide (x.halves < 3) &&
    !(s.tlcs.valid.contains (otherReader reader) &&
      phasesApart s reader (phaseOf x.crossing) (readerPhase s (otherReader reader)))

/-- CLOCK_READER_VALID: no test of R370 fails any more (R370, R372, R378). -/
def execClockReaderValid (reader : Fin 4) (sign : ReaderSign) (s : State) : Result :=
  if s.tlcs.valid.contains reader.val || !readerPasses reader.val sign s then .next s
  else
    let s := putPhase reader.val sign.crossing { s with tlcs := { s.tlcs with valid := insertUp reader.val s.tlcs.valid } }
    let s := holdTilt s
    if s.tlcs.state = .flywheel then
      let s := setDco (dcoNow s) s
      if (phaseOf sign.crossing).natAbs ≤ 6 * 64 && !pastLimit s then .next (enterLock s) else .next (unlockTlcs s)
    else .next s

/-- TLCS_LOCK_ACQUIRED: the averaged phase error has stayed within 1/8 bit for 256 clock periods (R372). -/
def execTlcsLockAcquired (s : State) : Result :=
  if s.tlcs.state = .acquire && !s.tlcs.valid.isEmpty && s.tlcs.lpos && decide (256 ≤ s.tlcs.steady) then .next (enterLock s)
  else .next s

/-- FLYWHEEL_LIMIT: the DCO has counted `since` 1/64 bits since the last TILT_UPDATE (R372, R374). -/
def execFlywheelLimit (since : Nat) (s : State) : Result :=
  if s.tlcs.state = .flywheel then
    let s := countTo since s
    if pastLimit s then .next (unlockTlcs (setDco (dcoNow s) s)) else .next s
  else .next s

/-- The count of a band's clock readers, in 1/64 bit (R375, R377). -/
def bandCount (upper : Bool) (s : State) : Int := if upper then s.tlcs.position + s.tlcs.deltaL else s.tlcs.position

/-- LPOS is established: a band stands at a position, in channel bits (R375, R376). -/
def setPosition (upper : Bool) (bits : Int) (s : State) : State :=
  { s with tlcs := { s.tlcs with position := if upper then 64 * bits - s.tlcs.deltaL else 64 * bits, lpos := true } }

/-- The data bit of the frame that a band has passed: its C to D interval is longer than its A to B interval for a 1, shorter for a 0;
without the intervals the word is lost (R278, R279). -/
def noteBit (upper : Bool) (intervals : Option (Nat × Nat)) (s : State) : State :=
  let old := s.tlcs.frameBits.getD upper.toNat []
  let new := match intervals with
    | some (ab, cd) => if ab = cd then [] else (decide (ab < cd) :: old).take 48
    | none => []
  { s with tlcs := { s.tlcs with frameBits := setAt s.tlcs.frameBits upper.toNat new } }

/-- Both bands have passed the same frame boundary: the whole-period part of ΔL is fixed where that is due, and a hold whose bands are
valid again ends (R377, R378). -/
def passBoundary (upper : Bool) (frame : Nat) (s : State) : State :=
  let q := s.tlcs.position
  let s := match s.tlcs.passed with
    | some (u, f, p) =>
      if u = upper || f ≠ frame || !(s.tlcs.fixWhole || s.tlcs.hold) || !bothBands s || !inLock s then s
      else
        let length := if upper then p - q else q - p
        { s with tlcs := { s.tlcs with deltaL := bandPhase s + wholePeriods (length - bandPhase s), fixWhole := false, hold := false } }
    | none => s
  { s with tlcs := { s.tlcs with passed := some (upper, frame, q) } }

/-- SERVO_FRAME_BOUNDARY: a band passes the boundary of a frame when the DCO has counted `since` 1/64 bits since the last TILT_UPDATE, and
the frame's A to B and C to D intervals (R278, R375-R378). -/
def execServoFrameBoundary (upper : Bool) (frame : Nat) (since : Nat) (intervals : Option (Nat × Nat)) (s : State) : Result :=
  let s := passBoundary upper frame (noteBit upper intervals (countTo since s))
  let want : Int := (frameBits * frame : Nat)
  let err := (bandCount upper s - 64 * want).natAbs
  if s.tlcs.state = .locked then (if 12 * 64 < err then .next (slipTlcs s) else .next s)
  else if s.tlcs.state = .acquire && !s.tlcs.lpos && s.tlcs.fromFly then
    if err ≤ 36 * 64 * 64 then .next (setPosition upper want s)
    else .next { s with tlcs := { s.tlcs with fromFly := false } }
  else .next s

/-- The 48 bits of the word that a band has passed, in frame order (R279). -/
def wordBits (s : State) (upper : Bool) : List Bool :=
  let l := s.tlcs.frameBits.getD upper.toNat []
  if 0 ≤ s.tce.speed then l.reverse else l

/-- The payload of a servo word whose sync and CRC-8 are right (R279). -/
def wordPayload (l : List Bool) : Option Nat :=
  if l.length = 48 ∧ bitsNat (l.take 8) = 0xE4 ∧ (crc8 ((l.drop 8).take 32)).toNat = bitsNat (l.drop 40) then some (bitsNat ((l.drop 8).take 32))
  else none

/-- SERVO_WORD: a band has passed the last frame of a servo word; a word with bit 31 set brings an item of the manufacture data, another
the index of its first frame (R279, R280, R375, R376). -/
def execServoWord (upper : Bool) (s : State) : Result :=
  match wordPayload (wordBits s upper) with
  | none => .next s
  | some v =>
    if 2 ^ 31 ≤ v then .next { s with tce := { s.tce with made := Tab.put s.tce.made (v / 2 ^ 28 % 8) (v % 2 ^ 24) } }
    else
      let f : Nat := v % 2 ^ 24
      let at' : Int := if 0 ≤ s.tce.speed then (f : Int) + 48 else (f : Int)
      if s.tlcs.state = .locked then
        (if roundDiv (bandCount upper s) (64 * frameBits) ≠ at' then .next (slipTlcs s) else .next s)
      else if s.tlcs.state = .acquire && !s.tlcs.lpos && !s.tlcs.fromFly then .next (setPosition upper (frameBits * at') s)
      else .next s

/-- Sum of the series of the arc sine at a scale of 10^15: terms left, present term, square of the argument, index. -/
def asinSum : Nat → Nat → Nat → Nat → Nat
  | 0, _, _, _ => 0
  | n + 1, t, x2, k => t / (2 * k + 1) + asinSum n (t * x2 / 10 ^ 15 * (2 * k + 1) / (2 * k + 2)) x2 (k + 1)

/-- The tilt in microradians, to the nearest, for a length difference in 1/64 bit and a reader span in nanometres (R377). -/
def tiltOf (deltaL : Int) (span : Nat) : Int :=
  let x := deltaL.natAbs * 10 ^ 21 / (64 * 44882 * span)
  let a := roundDiv (asinSum 120 x (x * x / 10 ^ 15) 0 : Nat) (10 ^ 9)
  if deltaL < 0 then -a else a

/-- The width estimate in ppm (R377). -/
def widthOf (deltaL : Int) (span : Nat) : Int :=
  let shift := deltaL.natAbs * 10 ^ 12 / (64 * 44882)
  let cosSpan := Nat.sqrt (span * span * 10 ^ 12 - shift * shift)
  roundDiv (((cosSpan : Int) - 2737500 * 10 ^ 6) * 10 ^ 6) (2737500 * 10 ^ 6)

/-- The learned difference of the readers of a band, averaged over 4,096 clock periods with both valid, of which 24 have passed
(R370). DESIGN CHOICE (log entry 119): the averages follow one another. -/
def learnBand (s : State) (band : Nat) : State :=
  let t := s.tlcs
  if !(t.valid.contains (2 * band) && t.valid.contains (2 * band + 1)) then s
  else
    let sum := t.learnSum.getD band 0 + 24 * phaseOf (readerPhase s (2 * band) - readerPhase s (2 * band + 1))
    let n := t.learnCount.getD band 0 + 24
    if n < 4096 then { s with tlcs := { t with learnSum := setAt t.learnSum band sum, learnCount := setAt t.learnCount band n } }
    else { s with tlcs := { t with learned := setAt t.learned band (roundDiv sum n), learnSum := setAt t.learnSum band 0,
                                   learnCount := setAt t.learnCount band 0 } }

/-- In LOCKED the DCO follows the average phase of the valid readers through its second-order loop; in ACQUIRE the time within 1/8 bit is
counted (R371, R372). -/
def followPhase (s : State) : State :=
  let err := meanPhase s s.tlcs.valid
  if s.tlcs.valid.isEmpty then { s with tlcs := { s.tlcs with steady := 0 } }
  else if s.tlcs.state = .locked then
    let r := Config.tlcsLoop (param s 0x4860 2) s.tlcs.dco s.tlcs.integ err
    setDco (max 40000000 (min 290000000 r.1)) { s with tlcs := { s.tlcs with integ := r.2 } }
  else if s.tlcs.state = .acquire then
    { s with tlcs := { s.tlcs with steady := if err.natAbs ≤ 8 then s.tlcs.steady + 24 else 0 } }
  else s

/-- ΔL follows the phase difference of the bands, unwrapped, with the tilt and the width that it gives (R377, R378). -/
def followTilt (s : State) : State :=
  if s.tlcs.hold || s.tlcs.fixWhole || !inLock s || !bothBands s then s
  else
    let span := param s 0x4860 4
    let d := bandPhase s + wholePeriods (s.tlcs.deltaL - bandPhase s)
    let s := { s with tlcs := { s.tlcs with deltaL := d } }
    if d.natAbs * 10 ^ 6 ≤ 64 * 44882 * span then { s with tlcs := { s.tlcs with tilt := tiltOf d span, width := widthOf d span } }
    else
      let free := fun (k : Nat) => Config.freeInt (s.drawn + k)
      { s with tlcs := { s.tlcs with tilt := free 0, width := free 1 }, drawn := s.drawn + 2 }

/-- TILT_UPDATE, every 24 clock periods: the phases of the readers, as each is ahead of the DCO's count at its zero crossing, in 1/64 bit;
what follows from them goes into the average for the SKEW loop (R369-R372, R374, R375, R377, R378). -/
def execTiltUpdate (crossings : List (Fin 4 × Int)) (s : State) : Result :=
  let s := countTo (24 * periodQ) s
  let s := crossings.foldl (fun s x => putPhase x.1.val x.2 s) { s with tlcs := { s.tlcs with counted := 0 } }
  let s := followTilt (followPhase (learnBand (learnBand s 0) 1))
  .next { s with tlcs := { s.tlcs with
    tiltSum := s.tlcs.tiltSum + s.tlcs.tilt, widthSum := s.tlcs.widthSum + s.tlcs.width, tiltCount := s.tlcs.tiltCount + 1 } }

end Sys2Proof.Machine
end

