-- ==== Sys2Proof/Machine/Channels.lean ====
section
/-! DEFINITION. The read channels: sync windows, sector reports, sync offsets, loop values, channel resets, and the
commands on a channel, with the verdicts of read-while-write verify (R341, R373, R379-R398, R400-R403, R405, R407, R409). -/

namespace Sys2Proof.Machine

/-- A window takes the place of an earlier one of its slot; at a load the slots of several datasets stay (R373, R435). -/
def openWindow (loading : Bool) (w : SyncWindow) (c : Channel) : Channel :=
  { c with windows := (c.windows.filter fun x => x.slot != w.slot || (loading && x.number != w.number)) ++ [w] }

/-- SYNC_WINDOW_OPEN: the channel samples the TLCS state for the slot of a grid position of the wrap under the head, and predicts the end
of its sync mark (R373, R379, R380, R392). -/
def execSyncWindowOpen (chan : Chan) (slot : Fin 99) (grid : Fin 65536) (wrap : Fin 384) (s : State) : Result :=
  let w := windowAt s chan.val slot.val wrap.val (numberAt s.cart.wraps s.cart.grid wrap.val grid.val)
    (leadingEdge s.cart.lposB s.cart.lposE wrap.val grid.val slot.val)
  .next (drew (updChan chan.val (openWindow (s.cart.state == .loading) w) s))

/-- Outcome codes (R398). -/
def outcomeCode : SectorOutcome → Nat
  | .accepted => 0 | .c1Failed => 1 | .noSync => 2 | .notTimed => 3 | .defect => 4 | .reset => 5

/-- The slot's search, decoding and outcome; until an offset is learned only a calibration finds sectors, at a load in the index region
(R381, R388, R390, R391, R393, R396, R398). -/
def sectorFound (s : State) (chan : Nat) (w : SyncWindow) (rd : SectorRead) : SectorFound :=
  let unknown := unlearnedOn s chan w.wrap
  if !w.lock || (unknown && !(s.cart.state == .loading && decide (w.wrap < 2))) then
    ⟨.notTimed, { last := w.center }, flaggedAt w rd (detected s chan rd.samples) w.center⟩
  else searchSlot s chan (readReach unknown) (param s 0x4850 1) (param s 0x4850 3) (headerFound w chan) w rd

/-- The 64-bit sector report (R398). -/
def reportBits (w : SyncWindow) (rd : SectorRead) (f : SectorFound) : BitVec 64 :=
  let r := f.search
  BitVec.ofNat 64 (packMsb [(3, outcomeCode f.outcome), (7, w.slot), (1, r.found.toNat), (7, r.iterations),
    (5, ((r.last - w.center) % 32).toNat), (1, r.blind.toNat), (3, r.decodes), (12, min f.flagged 4095), (12, min r.corrected 4095),
    (8, rd.snr), (5, 0)])

/-- Place of a number of iterations in `ChIterHistogram` (R402). -/
def iterBucket (n : Nat) : Nat :=
  if n ≤ 2 then 0 else if n ≤ 4 then 1 else if n ≤ 6 then 2 else if n ≤ 8 then 3 else if n ≤ 12 then 4 else if n ≤ 16 then 5
  else if n ≤ 32 then 6 else 7

/-- The bits for which the loops are frozen: those flagged, and `LoopFreezeExtend` bits after each flag (R384). -/
def frozenBits (s : State) (flagBefore : Nat) (bits : List DetBit) : List Bool :=
  let ext := param s 0x4850 8
  spreadAfter ext (if 0 < flagBefore then ext else 0) (bits.map (·.flag))

/-- Bits of acquisition gain left after the bits of a slot: 64 after a freeze of more than 256; `run` bits of one went before (R384). -/
def restartLeft : Nat → Nat → List Bool → Nat
  | _, left, [] => left
  | run, left, b :: l => if b then restartLeft (run + 1) left l else restartLeft 0 ((if 256 < run then 64 else left) - 1) l

/-- A loop of a channel stands at an end of its range: 0 fine phase, 1 gain, 2 offset, 3 asymmetry, 4 equaliser (R379, R382, R384,
R386). -/
def atRail (c : Loops) (k : Nat) : Bool :=
  if k = 0 then decide (c.phase.natAbs = 256)
  else if k = 1 then decide (c.gain = 0 ∨ c.gain = 255)
  else if k = 2 then decide (c.offset.natAbs = 64)
  else if k = 3 then decide (c.asym = -128 ∨ c.asym = 127)
  else c.eq.any fun x => x == -2048 || x == 2047

/-- The loops that stayed at the end of their range for a whole sector: such a one stands there already (R386). -/
def railed (c : Loops) (rd : SectorRead) : List Nat :=
  (List.range 5).filter fun k => atRail c k && rd.rails.any (·.val == k)

/-- The span of the equaliser's updates in a slot: the first header bit to the last codeword bit (R385). -/
def adaptSpan (w : SyncWindow) (rd : SectorRead) (q : Int) (l : List Bool) : List Bool :=
  (l.drop (samplesTo w rd q).toNat).take 17094

/-- Loop values after a slot. The manual gives what moves a loop and when, not the gains of its steps: a loop that moves has a free value in
its range. A loop moves on a bit that is not frozen, the fine phase in lock only; the equaliser and the noise predictor, two taps for each
of the two branches of a state, within the span of a sector in which C1 converged (R379, R382, R384-R386, R389, R402). -/
def nextLoops (s : State) (chan : Nat) (w : SyncWindow) (rd : SectorRead) (f : SectorFound) (old : Loops) : Loops :=
  let frozen := frozenBits s rd.flagBefore (detected s chan rd.samples)
  let held := fun k => !frozen.any (! ·) || (railed old rd).contains k
  let v := Config.loopValue s.drawn
  let tap := Config.tapValue (10 + param s 0x4850 10) s.drawn
  let adapts := f.outcome == .accepted && param s (0x4000 + chan) 22 == 0 && (adaptSpan w rd f.search.last frozen).any (! ·)
  { phase := if held 0 || !w.lock then old.phase else v 0 % 513 - 256,
    gain := if held 1 then old.gain else (v 1 % 256).toNat,
    offset := if held 2 then old.offset else v 2 % 129 - 64,
    asym := if held 3 then old.asym else v 3 % 256 - 128,
    restart := restartLeft rd.flagBefore old.restart frozen,
    eq := if !adapts || (railed old rd).contains 4 then old.eq else (List.range 15).map fun i => tap i % 4096 - 2048,
    np := if !adapts then old.np else (List.range (4 * detectorStates s.rd.eqTarget)).map fun i => tap (15 + i) }

/-- Flagged bits of a slot: its 17,152 bits, of which 48 come up to the end of the sync mark (R287, R402). -/
def slotFlagged (w : SyncWindow) (rd : SectorRead) (bits : List DetBit) : Nat :=
  let a := samplesTo w rd w.center - 48
  (((bits.take (a + 17152).toNat).drop a.toNat).filter (·.flag)).length

/-- Counters and the report of a slot with so many flagged bits (R402). -/
def countSlot (w : SyncWindow) (rd : SectorRead) (f : SectorFound) (flagged : Nat) (c : Channel) : Channel :=
  let ok := f.outcome == .accepted
  let k := iterBucket f.search.iterations
  { c with
    sectorsRead := c.sectorsRead + ok.toNat, sectorsErased := c.sectorsErased + (!ok).toNat,
    syncBlind := if ok && f.search.blind then sat32 (c.syncBlind + 1) else c.syncBlind,
    syncAlternate := if ok && decide (2 ≤ f.search.decodes) then sat32 (c.syncAlternate + 1) else c.syncAlternate,
    iterHist := if ok then c.iterHist.set k (sat32 (c.iterHist.getD k 0 + 1)) else c.iterHist,
    defectBits := c.defectBits + flagged, lastReport := reportBits w rd f, windows := c.windows.erase w }

/-- The sync offset moves against 1/16 of the measured error, towards the position found; how the sixteenth is rounded is
open. A calibration stores the position found (R380, R381). -/
def learnOffset (chan : Nat) (w : SyncWindow) (rd : SectorRead) (f : SectorFound) (s : State) : State :=
  let err := 64 * f.search.last - w.predicted + rd.finePhase
  if f.outcome ≠ .accepted then s
  else if unlearnedOn s chan w.wrap then storeOffset chan w.wrap (-err) s
  else if f.search.blind then s
  else
    let old := signedOf 4 (param s (0x4000 + chan) (offsetSub w.wrap))
    let up : Int := if err % 16 = 0 then 0 else ((Config.freeNat s.drawn % 2 : Nat) : Int)
    storeOffset chan w.wrap (old - (err / 16 + up)) (drew s)

/-- The copy of loop values and sync offsets that the CORE domain keeps of a converged sector (R400). -/
def keepLoops (chan : Nat) (s : State) : State :=
  let c := getChan s chan
  setChan chan { c with kept := some (c.loops, param s (0x4000 + chan) 16, param s (0x4000 + chan) 17) } s

/-- Defect flags of more than 17,152 bits that come to that length in a slot, and whether the flag at its end has: `run` bits of a flag
went before, and `seen` says that it has been reported (R388). -/
def longFlags : Nat → Bool → List Bool → Nat × Bool
  | run, seen, [] => (if 17152 < run && !seen then 1 else 0, seen || decide (17152 < run))
  | run, seen, b :: l =>
    let due := if 17152 < run && !seen then 1 else 0
    let r := if b then longFlags (run + 1) (seen || decide (17152 < run)) l else longFlags 0 false l
    (due + r.1, r.2)

/-- Channel events of a slot, whose loops stood as `old` before it (R379, R386, R388, R403). -/
def slotEvents (chan : Nat) (o : SectorOutcome) (rd : SectorRead) (flags : List Bool) (old : Loops) (s : State) : State :=
  let c := getChan s chan
  let base := if rd.slot = 0 then 0 else c.lossRun
  let loss := if o = .noSync ∨ o = .c1Failed then base + 1 else 0
  let long := longFlags rd.flagBefore (decide (0 < rd.flagBefore) && c.longFlag) flags
  let s := setChan chan { c with lossRun := loss, longFlag := long.2 } s
  let s := raiseIf (decide (loss = 8)) (8 * chan + 2) [] s
  let s := raiseIf ((railed old rd).contains 0) (8 * chan + 3) [] s
  let s := (railed old rd).foldl (fun s k => raise (8 * chan + 4) [(8, k)] s) s
  (List.replicate long.1 ()).foldl (fun s _ => raise (8 * chan + 5) [] s) s

/-- A slot that a channel has read ends: its counts and report, its loops, its sync offset and its events (R381, R384-R388, R397, R398,
R400, R402, R403). -/
def endSlot (p : Nat) (w : SyncWindow) (rd : SectorRead) (f : SectorFound) (s : State) : State :=
  let bits := detected s p rd.samples
  let old := (getChan s p).loops
  let next := nextLoops s p w rd f old
  let s := drew (updChan p (fun c => { countSlot w rd f (slotFlagged w rd bits) c with loops := next }) s)
  let s := learnOffset p w rd f s
  let s := if f.outcome = .accepted then keepLoops p s else s
  slotEvents p f.outcome rd (bits.map (·.flag)) old s

/-- The Dataset Builder takes the sector that a channel accepted (R397, R415). -/
def deliverSector (chan slot : Nat) (f : SectorFound) (s : State) : State :=
  match f.search.accepted with
  | some (t, _) => takeSector chan slot (headerOf t.content) ((t.c1.map (·.codeword)).getD []) s
  | none => s

/-- SECTOR_REPORT: a slot for which the channel opened a window (R397, R398, R402, R415). -/
def execSectorReport (chan : Chan) (rd : SectorRead) (s : State) : Result :=
  let p := chan.val
  match (getChan s p).windows.find? fun w => w.slot == rd.slot with
  | none => .next s
  | some w =>
    let f := sectorFound s p w rd
    .next (deliverSector p w.slot f (endSlot p w rd f s))

/-- What the verifier found of a written sector (R341). -/
structure VerifyResult where
  /-- What the search of the read channel found (R395). -/
  found : SectorFound
  /-- Differences between the hard decisions and the image (R341, pass 1). -/
  rawErrors : Nat
  /-- The decoded codeword equals that of the image (R341, pass 2). -/
  codewordEqual : Bool
  deriving DecidableEq, Repr

/-- The sync window of a slot image as the head passes over it: as the channel opened it, or else as the TLCS stands (R340, R373,
R380). -/
def imageWindow (s : State) (p : Nat) (i : Image) : SyncWindow :=
  match (getChan s p).windows.find? fun w => w.slot == i.slot && w.number == i.under && w.wrap == i.wrap with
  | some w => w
  | none => windowAt s p i.slot i.wrap i.under i.header.lpos

/-- The header of a try is the header written (R341, R395). -/
def headerEquals (i : Image) (t : SyncTry) : Bool := crcPasses t && headerOf t.content == i.header

/-- The two passes of the verifier over an image: the narrowed search of R395, or the wide one of a calibration; the differences of the
hard decisions from the image, aligned at the position last tried; and the decoded codeword (R341, R381, R395). -/
def verifyOf (s : State) (p : Nat) (i : Image) (rd : SectorRead) : VerifyResult :=
  let w := imageWindow s p i
  let wide := unlearnedOn s p w.wrap
  let f := if !w.lock then ⟨.notTimed, { last := w.center }, 0⟩
    else searchSlot s p (if wide then 2048 else 2) (param s 0x4820 3) (if wide then param s 0x4850 3 else 1) (headerEquals i) w rd
  let bits := (detected s p rd.samples).map DetBit.hard
  let n := samplesTo w rd f.search.last
  { found := f,
    rawErrors := ((((i.bits p).drop (48 - n).toNat).zipWith (fun a b => a != b)
      (bits.drop (n - 48).toNat)).filter id).length,
    codewordEqual := match f.search.accepted.bind (·.1.c1) with
      | some r => r.codeword == i.codeword
      | none => false }

/-- The checks of a verdict (R341). -/
def verdictPass (s : State) (v : VerifyResult) : Bool :=
  v.found.outcome == .accepted && decide (v.rawErrors ≤ param s 0x4820 4) && decide (v.found.flagged ≤ param s 0x4820 5) &&
    v.codewordEqual

/-- SECTOR_VERDICT: the verdict, and the end of the slot as of any that the channel reads (R341, R342, R381, R385, R395). -/
def execSectorVerdict (dataset : Nat) (chan : Chan) (row : Fin 99) (rd : SectorRead) (s : State) : Result :=
  match findImage s chan.val dataset row.val with
  | none => .next s
  | some i =>
    let v := verifyOf s chan.val i rd
    .next (endSlot chan.val (imageWindow s chan.val i) rd v.found (postVerdict chan.val i (verdictPass s v) s))

/-- A channel's domain is reset: its slot ends with outcome RESET, images to be verified fail, the FIFO is empty, counters
of R402 return to 0, loop values and sync offsets come back from the copy kept, and the channel fails (R33, R400, R402, R405). -/
def channelDown (p cause : Nat) (s : State) : State :=
  let s := (getChan s p).fifo.foldl (fun s i => postVerdict p i false s) s
  let c := getChan s p
  let report : BitVec 64 := match c.windows.getLast? with
    | some w => BitVec.ofNat 64 (packMsb [(3, outcomeCode .reset), (7, w.slot), (54, 0)])
    | none => c.lastReport
  let c := { c with fifo := [], windows := [], draining := none, filling := none, lossRun := 0, longFlag := false, sectorsRead := 0, sectorsErased := 0, syncBlind := 0,
                    syncAlternate := 0, iterHist := List.replicate 8 0, defectBits := 0, lastReport := report,
                    loops := match c.kept with | some k => k.1 | none => {} }
  let s := setChan p c s
  let s := match c.kept with
    | some (_, fwd, rev) => { s with dict := { s.dict with
        vals := Tab.put (Tab.put s.dict.vals (entryKey (0x4000 + p) 16) (leBytes 4 fwd)) (entryKey (0x4000 + p) 17) (leBytes 4 rev) } }
    | none => s
  declareFailed p cause s

/-- Reset a channel's domain; `rcause` is the reset cause and `cause` that of the failure ; a second reset merges
into a running one (R400, R405, R544, R546, R548, R588). -/
def resetChannel (p rcause cause : Nat) (s : State) : State :=
  let code := 0x80 + p
  if s.resets.any (fun r => r.code == code) then declareFailed p cause s
  else channelDown p cause { s with resets := s.resets ++ [{ code := code, cause := rcause }] }

/-- CHANNEL_RESET: the channel's domain is reset, as a write of `DomainReset` does (R400, R405, R544, R546, R548). -/
def execChannelReset (chan : Chan) (s : State) : Result := .next (resetChannel chan.val 5 3 s)

/-- CH_COMMAND_FAIL: `ChCommand` 1 (R405, R409). -/
def execChCommandFail (chan : Chan) (s : State) : Result := .next (declareFailed chan.val 4 s)

/-- `ChCommand` 2 is refused while the head-front fault that failed the channel is still reported (R409). -/
def restoreRefused (s : State) (p : Nat) : Bool :=
  let c := getChan s p
  c.failed && decide (c.cause = 2) && c.headFault

/-- Apply `ChCommand` 2, at once or when a reset of the channel completes (R409). -/
def restoreCommand (p : Nat) (s : State) : State :=
  if resetting s (0x80 + p) then updChan p (fun c => { c with restorePending := true }) s else restoreMember p s

/-- CH_COMMAND_RESTORE: `ChCommand` 2 (R409, R413). -/
def execChCommandRestore (chan : Chan) (s : State) : Result :=
  if restoreRefused s chan.val then .next s else .next (restoreCommand chan.val s)

end Sys2Proof.Machine
end

