-- ==== Sys2Proof/Machine/Crypto.lean ====
section
/-! DEFINITION. The standards the cipher and the signatures cite: SHA-256 (FIPS 180-4), HMAC (RFC 2104), AES-256
(FIPS 197), AES-KW (SP 800-38F), GCM (SP 800-38D), P-256 (FIPS 186-5). -/

namespace Sys2Proof.Machine.Crypto

abbrev W32 := BitVec 32

/-- Round constants of SHA-256. -/
def shaK : List W32 :=
  [0x428a2f98#32, 0x71374491#32, 0xb5c0fbcf#32, 0xe9b5dba5#32, 0x3956c25b#32, 0x59f111f1#32, 0x923f82a4#32, 0xab1c5ed5#32,
   0xd807aa98#32, 0x12835b01#32, 0x243185be#32, 0x550c7dc3#32, 0x72be5d74#32, 0x80deb1fe#32, 0x9bdc06a7#32, 0xc19bf174#32] ++
  [0xe49b69c1#32, 0xefbe4786#32, 0x0fc19dc6#32, 0x240ca1cc#32, 0x2de92c6f#32, 0x4a7484aa#32, 0x5cb0a9dc#32, 0x76f988da#32,
   0x983e5152#32, 0xa831c66d#32, 0xb00327c8#32, 0xbf597fc7#32, 0xc6e00bf3#32, 0xd5a79147#32, 0x06ca6351#32, 0x14292967#32] ++
  [0x27b70a85#32, 0x2e1b2138#32, 0x4d2c6dfc#32, 0x53380d13#32, 0x650a7354#32, 0x766a0abb#32, 0x81c2c92e#32, 0x92722c85#32,
   0xa2bfe8a1#32, 0xa81a664b#32, 0xc24b8b70#32, 0xc76c51a3#32, 0xd192e819#32, 0xd6990624#32, 0xf40e3585#32, 0x106aa070#32] ++
  [0x19a4c116#32, 0x1e376c08#32, 0x2748774c#32, 0x34b0bcb5#32, 0x391c0cb3#32, 0x4ed8aa4a#32, 0x5b9cca4f#32, 0x682e6ff3#32,
   0x748f82ee#32, 0x78a5636f#32, 0x84c87814#32, 0x8cc70208#32, 0x90befffa#32, 0xa4506ceb#32, 0xbef9a3f7#32, 0xc67178f2#32]

/-- Message schedule: 48 further words, newest first. -/
def shaExtend : Nat → List W32 → List W32
  | 0, l => l
  | n + 1, l =>
    let g := fun i => l.getD i 0
    let x := g 14
    let y := g 1
    let s0 := x.rotateRight 7 ^^^ x.rotateRight 18 ^^^ (x >>> 3)
    let s1 := y.rotateRight 17 ^^^ y.rotateRight 19 ^^^ (y >>> 10)
    shaExtend n ((g 15 + s0 + g 6 + s1) :: l)

/-- One round of the compression. -/
def shaRound (h : List W32) (kw : W32) : List W32 :=
  match h with
  | [a, b, c, d, e, f, g, hh] =>
    let s1 := e.rotateRight 6 ^^^ e.rotateRight 11 ^^^ e.rotateRight 25
    let ch := (e &&& f) ^^^ (~~~e &&& g)
    let t1 := hh + s1 + ch + kw
    let s0 := a.rotateRight 2 ^^^ a.rotateRight 13 ^^^ a.rotateRight 22
    let mj := (a &&& b) ^^^ (a &&& c) ^^^ (b &&& c)
    [t1 + s0 + mj, a, b, c, d + t1, e, f, g]
  | _ => h

/-- One 64-byte block. -/
def shaBlock (h : List W32) (block : List Byte) : List W32 :=
  let w0 := (List.range 16).map fun i => BitVec.ofNat 32 (beNat ((block.drop (4 * i)).take 4))
  let w := (shaExtend 48 w0.reverse).reverse
  let r := (List.zipWith (· + ·) shaK w).foldl shaRound h
  List.zipWith (· + ·) h r

def shaBlocks : Nat → List W32 → List Byte → List W32
  | 0, h, _ => h
  | n + 1, h, m => shaBlocks n (shaBlock h (m.take 64)) (m.drop 64)

/-- SHA-256 of a byte string. -/
def sha256 (m : List Byte) : List Byte :=
  let z := (119 - m.length % 64) % 64
  let p := m ++ [0x80#8] ++ List.replicate z 0#8 ++ beBytes 8 (8 * m.length)
  (shaBlocks (p.length / 64)
    [0x6a09e667#32, 0xbb67ae85#32, 0x3c6ef372#32, 0xa54ff53a#32, 0x510e527f#32, 0x9b05688c#32, 0x1f83d9ab#32, 0x5be0cd19#32] p).flatMap
    fun x => beBytes 4 x.toNat

/-- HMAC-SHA-256. -/
def hmac (key m : List Byte) : List Byte :=
  let k0 := if key.length > 64 then sha256 key else key
  let k := k0 ++ List.replicate (64 - k0.length) 0#8
  sha256 (k.map (· ^^^ 0x5c#8) ++ sha256 (k.map (· ^^^ 0x36#8) ++ m))

/-- ASCII bytes. -/
def ascii (s : String) : List Byte := s.toList.map fun c => BitVec.ofNat 8 c.toNat

/-- Multiplication by x in GF(2^8) of AES. -/
def xtime (b : Byte) : Byte := (b <<< 1) ^^^ (if b.getLsbD 7 then 0x1b#8 else 0#8)

/-- Product in GF(2^8) of AES. -/
def gmul (a b : Byte) : Byte :=
  ((List.range 8).foldl (fun (acc : Byte × Byte) i => (if b.getLsbD i then acc.1 ^^^ acc.2 else acc.1, xtime acc.2)) (0#8, a)).1

/-- The AES S-box. -/
def sbox (a : Byte) : Byte :=
  let b := (List.range 6).foldl (fun r _ => gmul (gmul r r) a) a
  let i := gmul b b
  i ^^^ i.rotateLeft 1 ^^^ i.rotateLeft 2 ^^^ i.rotateLeft 3 ^^^ i.rotateLeft 4 ^^^ 0x63#8

/-- The S-box as a table, and its inverse. -/
def sboxTab : List Byte := (List.range 256).map fun n => sbox (BitVec.ofNat 8 n)
def sub (t : List Byte) (b : Byte) : Byte := t.getD b.toNat 0#8
def invSboxTab (t : List Byte) : List Byte := (List.range 256).map fun n => BitVec.ofNat 8 (t.idxOf (BitVec.ofNat 8 n))

/-- AES-256 key expansion: 60 words, newest first. -/
def expand (t : List Byte) : Nat → Nat → Byte → List (List Byte) → List (List Byte)
  | 0, _, _, l => l
  | n + 1, i, rc, l =>
    let p := l.getD 0 []
    let q := l.getD 7 []
    let (u, rc') :=
      if i % 8 = 0 then
        let r := (p.drop 1 ++ p.take 1).map (sub t)
        (List.zipWith (· ^^^ ·) r [rc, 0#8, 0#8, 0#8], xtime rc)
      else if i % 8 = 4 then (p.map (sub t), rc) else (p, rc)
    expand t n (i + 1) rc' (List.zipWith (· ^^^ ·) q u :: l)

/-- The 15 round keys of 16 bytes. -/
def roundKeys (t : List Byte) (key : BitVec 256) : List (List Byte) :=
  let k := beBytes 32 key.toNat
  let w0 := (List.range 8).map fun i => (k.drop (4 * i)).take 4
  let w := (expand t 52 8 0x01#8 w0.reverse).reverse
  (List.range 15).map fun r => ((w.drop (4 * r)).take 4).flatten

def xorBytes (a b : List Byte) : List Byte := List.zipWith (· ^^^ ·) a b

def shiftRows (s : List Byte) : List Byte := (List.range 16).map fun i => s.getD ((i + 4 * (i % 4)) % 16) 0#8
def invShiftRows (s : List Byte) : List Byte := (List.range 16).map fun i => s.getD ((i + 12 * (i % 4)) % 16) 0#8
def mixWith (m : List Byte) (s : List Byte) : List Byte :=
  (List.range 16).map fun i =>
    let c := i / 4 * 4
    (List.range 4).foldl (fun a k => a ^^^ gmul (m.getD ((k + 4 - i % 4) % 4) 0#8) (s.getD (c + k) 0#8)) 0#8

/-- AES-256 encryption of one block under expanded round keys. -/
def aesEnc (t : List Byte) (rk : List (List Byte)) (b : List Byte) : List Byte :=
  let s := xorBytes b (rk.getD 0 [])
  let s := (List.range 13).foldl
    (fun s r => xorBytes (mixWith [2#8, 3#8, 1#8, 1#8] (shiftRows (s.map (sub t)))) (rk.getD (r + 1) [])) s
  xorBytes (shiftRows (s.map (sub t))) (rk.getD 14 [])

/-- AES-256 decryption of one block. -/
def aesDec (it : List Byte) (rk : List (List Byte)) (b : List Byte) : List Byte :=
  let s := xorBytes b (rk.getD 14 [])
  let s := (List.range 13).foldl
    (fun s r => mixWith [14#8, 11#8, 13#8, 9#8] (xorBytes ((invShiftRows s).map (sub it)) (rk.getD (13 - r) []))) s
  xorBytes ((invShiftRows s).map (sub it)) (rk.getD 0 [])

/-- AES-KW unwrap with the default initial value; none when the integrity check fails (SP 800-38F). -/
def unwrap (kek : BitVec 256) (c : List Byte) : Option (List Byte) :=
  let t := sboxTab
  let it := invSboxTab t
  let rk := roundKeys t kek
  let n := c.length / 8 - 1
  let r0 := (List.range n).map fun i => (c.drop (8 * (i + 1))).take 8
  let step := fun (ar : List Byte × List (List Byte)) (k : Nat) =>
    let tt := 6 * n - k
    let i := (tt - 1) % n
    let b := aesDec it rk (xorBytes ar.1 (beBytes 8 tt) ++ ar.2.getD i [])
    (b.take 8, ar.2.set i (b.drop 8))
  let (a, r) := (List.range (6 * n)).foldl step (c.take 8, r0)
  if a = List.replicate 8 0xA6#8 then some r.flatten else none

/-- Product in GF(2^128) of GCM; bit 127 of the number is the first bit of the block. -/
def ghashMul (x y : BitVec 128) : BitVec 128 :=
  ((List.range 128).foldl (fun (zv : BitVec 128 × BitVec 128) i =>
    (if x.getMsbD i then zv.1 ^^^ zv.2 else zv.1,
     (zv.2 >>> 1) ^^^ (if zv.2.getLsbD 0 then (0xE1#128 <<< 120) else 0#128))) (0#128, y)).1

/-- 16-byte blocks, the last one padded with zeros. -/
def blocks16 : Nat → List Byte → List (BitVec 128)
  | 0, _ => []
  | n + 1, l =>
    let b := l.take 16
    BitVec.ofNat 128 (beNat (b ++ List.replicate (16 - b.length) 0#8)) :: blocks16 n (l.drop 16)

def toBlocks (l : List Byte) : List (BitVec 128) := blocks16 ((l.length + 15) / 16) l

def ghash (h : BitVec 128) (l : List (BitVec 128)) : BitVec 128 := l.foldl (fun y b => ghashMul (y ^^^ b) h) 0#128

/-- Counter-mode stream over `n` blocks from counter `c`. -/
def ctr (t : List Byte) (rk : List (List Byte)) (iv : BitVec 96) : Nat → Nat → List Byte → List Byte
  | 0, _, _ => []
  | n + 1, c, l =>
    xorBytes (l.take 16) (aesEnc t rk (beBytes 12 iv.toNat ++ beBytes 4 c)) ++ ctr t rk iv n (c + 1) (l.drop 16)

/-- The GCM tag over additional data and ciphertext. -/
def gcmTag (t : List Byte) (rk : List (List Byte)) (iv : BitVec 96) (aad c : List Byte) : BitVec 128 :=
  let h := BitVec.ofNat 128 (beNat (aesEnc t rk (List.replicate 16 0#8)))
  let len := BitVec.ofNat 128 (8 * aad.length * 2 ^ 64 + 8 * c.length)
  ghash h (toBlocks aad ++ toBlocks c ++ [len]) ^^^
    BitVec.ofNat 128 (beNat (aesEnc t rk (beBytes 12 iv.toNat ++ beBytes 4 1)))

/-- AES-256-GCM encryption: ciphertext and tag (R243). -/
def gcmEnc (key : BitVec 256) (iv : BitVec 96) (aad p : List Byte) : List Byte × BitVec 128 :=
  let t := sboxTab
  let rk := roundKeys t key
  let c := ctr t rk iv ((p.length + 15) / 16) 2 p
  (c, gcmTag t rk iv aad c)

/-- AES-256-GCM decryption: the plaintext when the tag matches (R264). -/
def gcmDec (key : BitVec 256) (iv : BitVec 96) (aad c : List Byte) (tag : BitVec 128) : Option (List Byte) :=
  let t := sboxTab
  let rk := roundKeys t key
  if gcmTag t rk iv aad c = tag then some (ctr t rk iv ((c.length + 15) / 16) 2 c) else none

/-- The field, order and base point of P-256. -/
def p256 : Nat := 0xffffffff00000001000000000000000000000000ffffffffffffffffffffffff
def n256 : Nat := 0xffffffff00000000ffffffffffffffffbce6faada7179e84f3b9cac2fc632551
def b256 : Nat := 0x5ac635d8aa3a93e7b3ebbd55769886bc651d06b0cc53b0f63bce3c3e27d2604b
def g256 : Nat × Nat :=
  (0x6b17d1f2e12c4247f8bce6e563a440f277037d812deb33a0f4a13945d898c296,
   0x4fe342e2fe1a7f9b8ee7eb4a7c0f9e162bce33576b315ececbb6406837bf51f5)

/-- Power modulo `m` over a bit count. -/
def powMod (m : Nat) : Nat → Nat → Nat → Nat
  | 0, _, _ => 1 % m
  | k + 1, b, e => if e % 2 = 1 then b * powMod m k (b * b % m) (e / 2) % m else powMod m k (b * b % m) (e / 2)

def invMod (m a : Nat) : Nat := powMod m 256 (a % m) (m - 2)
def subMod (a b : Nat) : Nat := (a % p256 + p256 - b % p256) % p256

/-- Point addition; none is the point at infinity. -/
def ecAdd (x y : Option (Nat × Nat)) : Option (Nat × Nat) :=
  match x, y with
  | none, q => q
  | q, none => q
  | some (x1, y1), some (x2, y2) =>
    if x1 = x2 ∧ (y1 + y2) % p256 = 0 then none
    else
      let l := if x1 = x2 then (3 * x1 * x1 + (p256 - 3)) * invMod p256 (2 * y1) % p256
               else subMod y2 y1 * invMod p256 (subMod x2 x1) % p256
      let x3 := subMod (l * l) (x1 + x2)
      some (x3, subMod (l * subMod x1 x3) y1)

/-- Scalar multiple over a bit count. -/
def ecMul : Nat → Nat → Option (Nat × Nat) → Option (Nat × Nat)
  | 0, _, _ => none
  | k + 1, n, q => let r := ecMul k (n / 2) (ecAdd q q); if n % 2 = 1 then ecAdd q r else r

/-- A public key that is a point on P-256 other than infinity (R247, R566). -/
def onCurve (x y : Nat) : Bool :=
  decide (x < p256) && decide (y < p256) && decide (y * y % p256 = (x * x * x + (p256 - 3) * x + b256) % p256)

/-- ECDSA P-256 verification with SHA-256: key, message, and r then s (FIPS 186-5). -/
def ecdsaOk (q : Nat × Nat) (m sig : List Byte) : Bool :=
  let r := beNat (sig.take 32)
  let s := beNat (sig.drop 32)
  if r = 0 ∨ s = 0 ∨ r ≥ n256 ∨ s ≥ n256 then false
  else
    let e := beNat (sha256 m)
    let w := invMod n256 s
    match ecAdd (ecMul 256 (e * w % n256) (some g256)) (ecMul 256 (r * w % n256) (some q)) with
    | none => false
    | some (x, _) => decide (x % n256 = r)

/-- A KEK agreed by ECDH (R247): transport private key, function, nonce, host public key. -/
def ecdhKek (d : BitVec 256) (fn : Nat) (nonce : List Byte) (x y : Nat) : List Byte :=
  match ecMul 256 d.toNat (some (x, y)) with
  | none => []
  | some (z, _) =>
    hmac (beBytes 32 z) (ascii "PLVKEK01" ++ [BitVec.ofNat 8 fn] ++ nonce ++ beBytes 32 x ++ beBytes 32 y)

/-- KekCheck (R248), the slot fingerprint (R251), StaxaKeyCheck (R488). -/
def kekCheck (kek : List Byte) : List Byte := (hmac kek (ascii "PLVKCV01")).take 8
def fingerprint (key : List Byte) : List Byte := (sha256 (ascii "MRF1-KFP" ++ key)).take 16
def staxaCheck (key : List Byte) : List Byte := (hmac key (ascii "PLVSCV01")).take 8

end Sys2Proof.Machine.Crypto
end

