-- ==== Sys2Proof/Machine/Engines.lean ====
section
/-! DEFINITION. The compression engines: lane switches, finished encodings, raw copies (R204, R212, R226-R237). -/

namespace Sys2Proof.Machine

/-- The engine on which a lane is resident. -/
def residentOn (s : State) (stream lane : Nat) : Option Nat :=
  (s.pack.engines.find? fun p => p.2.lane == some (stream, lane)).map (·.1)

/-- The oldest waiting block of a lane that the engine may take: one resident on no engine (R231, R232). -/
def oldestFor (s : State) (e : Nat) : Option Blk :=
  (s.pack.blks.find? fun p => isQueued p.2 && engineServes e p.2.comp && (residentOn s p.2.stream p.2.lane).isNone).map (·.2)

/-- A poisoned word among those read with a lane state: in the saved-state region or in a buffer of its window (R181, R237). -/
def poisonedLane (s : State) (ecc : List EccWord) (st : LaneState) : Bool :=
  (poisoned ecc).any fun a => dramRegion s a == .streams || st.refs.any fun r => bufAt s a == some r.buf

/-- Restore a lane state onto an engine for a block with a tag; a poisoned state is discarded (R18, R231, R237). -/
def restoreLane (e n l : Nat) (flow : BitVec 128) (ecc : List EccWord) (s : State) : State :=
  let had := Tab.get? s.pack.saved (laneKey n l)
  let st := had.getD {}
  let bad := had.isSome && poisonedLane s ecc st
  let s := eccReads ecc { s with pack := { s.pack with saved := Tab.del s.pack.saved (laneKey n l) } }
  if bad then
    let s := setEngine e { lane := some (n, l), state := {}, inRow := 0, busy := none } (freeRefs st.refs flow s)
    raise 0x513 [iStream n, iLane l] (lanesMust n l (answer 0x40 .parityPoison none flow s))
  else setEngine e { lane := some (n, l), state := st, inRow := 0, busy := none } s

/-- LANE_SWITCH: an idle engine takes the oldest waiting block of another lane (R230, R231, R237, R239). -/
def execLaneSwitch (engine : Fin 24) (stream : Fin 16384) (lane : Fin 16) (ecc : List EccWord) (s : State) : Result :=
  let e := engine.val
  let g := getEngine s e
  let stays := match g.lane with
    | some (n, l) => (nextOfLane s n l).isSome && decide (g.inRow < param s 0x5000 5)
    | none => false
  match oldestFor s e with
  | none => .next s
  | some b =>
    if g.busy.isSome || g.bufReq.isSome || !engineEnabled s e || stays || b.stream ≠ stream.val || b.lane ≠ lane.val then .next s
    else
      let s := restoreLane e b.stream b.lane b.flow ecc (saveLane e s)
      let s := { s with pack := { s.pack with laneSwitches := s.pack.laneSwitches + 1 } }
      .next (dispatchAll (putOnEngine e b s))

/-- The block that an engine has under way. -/
def blkOn (s : State) (e : Nat) : Option Blk := (getEngine s e).busy.bind (getBlk s)

/-- A 64-bit word at an address overlaps a place in a buffer (R180, R185). -/
def wordIn (s : State) (a : Nat) (x : Nat × Nat × Nat) : Bool :=
  let base := poolBase s (x.1 / 32768) + x.1 % 32768 * poolSize (x.1 / 32768) + x.2.1
  decide (a < base + x.2.2 ∧ base < a + 8)

/-- The content of a block is still to be encoded. -/
def unfinished (b : Blk) : Bool := match b.stage with | .queued => true | .onEngine _ => true | .copying _ => true | _ => false

/-- The records whose fragments of a block hold a poisoned word (R181, R236). -/
def poisonedRecords (s : State) (ecc : List EccWord) (b : Blk) : List Nat :=
  ((fragSrcs b.frags b.src).filter fun p => (poisoned ecc).any fun a => p.2.any (wordIn s a)).map (·.1.number)

/-- Take the data of fragments out of a block: those that `keep` refuses become what `repl` says; the intake data of the others
stays. Answers the fragments, the places kept and the places given up. -/
def thinFrags (keep : Frag → Bool) (repl : Frag → List Frag) (frags : List Frag) (src : List (Nat × Nat × Nat)) :
    List Frag × List (Nat × Nat × Nat) × List (Nat × Nat × Nat) :=
  let l := fragSrcs frags src
  (l.flatMap fun p => if keep p.1 then [p.1] else repl p.1,
   l.flatMap fun p => if keep p.1 then p.2 else [],
   l.flatMap fun p => if keep p.1 then [] else p.2)

/-- Fragments without those of some records; the first one left carries Skip 0 (R208). -/
def firstNoSkip : List Frag → List Frag
  | [] => []
  | f :: t => { f with skip := 0 } :: t

/-- The content of a cut block has become shorter: later blocks of its entry point start nearer to it, those whose packets are not finished
yet, and so does the next one to be cut (R215). -/
def shrinkAfter (b : Blk) (less : Nat) (s : State) : State :=
  let later := (s.pack.blks.filter fun p => p.2.stream == b.stream && decide (b.id < p.1)).map (·.2)
  let same := later.takeWhile fun x => x.entryDistance != 0
  let s := same.foldl (fun s x =>
    if unfinished x then updBlk x.id (fun y => { y with entryDistance := y.entryDistance - less }) s else s) s
  if same.length = later.length then updStream b.stream (fun y => { y with entryBytes := y.entryBytes - less }) s else s

/-- A block not yet encoded takes new fragments, its engine lets go of it, and the data given up is freed (R207, R215, R236). -/
def rebuildBlk (frags : List Frag) (src gone : List (Nat × Nat × Nat)) (independent : Bool) (x : Blk) (s : State) : State :=
  let s := (s.pack.engines.filter fun p => p.2.busy == some x.id).foldl
    (fun s p => setEngine p.1 { (getEngine s p.1) with busy := none } s) (consumeSrc gone x.flow s)
  shrinkAfter x (contentLen x.frags - contentLen frags)
    (setBlk x.id { x with frags := frags, src := src, stage := .queued, fallback := false, independent := independent } s)

/-- A fragment of a closed record: of length 0, Truncated, of the same Kind (R207, R236). -/
def emptied (f : Frag) : Frag := { f with data := [], truncated := true }

/-- A block not yet encoded loses the fragments of closed records, and its engine starts it anew. A cut block stays in the order: one that
would be left without a fragment keeps an empty one (R207, R210, R236; DESIGN CHOICE, log entry 97). -/
def thinBlk (nums : List Nat) (s : State) (x : Blk) : State :=
  let t := thinFrags (fun f => !nums.contains f.number) (fun _ => []) x.frags x.src
  if t.1.length = x.frags.length then s
  else rebuildBlk (if t.1.isEmpty then (x.frags.take 1).map emptied else firstNoSkip t.1) t.2.1 t.2.2 x.independent x s

/-- No fragment of a closed record follows: later blocks not yet encoded and the open block lose theirs (R207, R236). DESIGN
CHOICE (log entry 97): a later block whose packet is already finished keeps the fragment. -/
def thinLater (b : Blk) (nums : List Nat) (s : State) : State :=
  let later := (s.pack.blks.filter fun p => p.2.stream == b.stream && decide (b.id < p.1) && unfinished p.2).map (·.1)
  let s := later.foldl (fun s n => match getBlk s n with | some x => thinBlk nums s x | none => s) s
  match (getStream s b.stream).bind (·.openBlk) with
  | none => s
  | some o =>
    let t := thinFrags (fun f => !nums.contains f.number) (fun _ => []) o.frags o.src
    consumeSrc t.2.2 b.flow (updStream b.stream (fun y =>
      if t.1.isEmpty then { y with openBlk := none, entryNext := o.entry }
      else { y with openBlk := some { o with frags := firstNoSkip t.1, src := t.2.1 } }) s)

/-- A WRITE that goes on as an orphan packs no more of a record that has been closed. -/
def skipRest (slot : Nat) (w : WriteJob) (tag : BitVec 128) (s : State) : State :=
  let k := min w.avail (w.lens.getD w.recIdx 0 - w.recOff)
  let t := takeIntake k w.intake
  setJob slot { w with intake := t.1, avail := w.avail - k, recIdx := w.recIdx + 1, recOff := 0 } (consumeSrc t.2.2 tag s)

/-- The command of a poisoned record completes with INTERNAL_ERROR; its records before that one stay in place (R79, R127, R181, R236). -/
def poisonWriter (e : Nat) (s : State) (f : Frag) : State :=
  match findWriter s f.seq with
  | none => s
  | some (slot, c, w) =>
    let begun := decide (w.run.getD 0 + w.recIdx = f.number ∧ 0 < w.recOff)
    if c.orphan then (if begun then skipRest slot w c.tag s else s)
    else
      stopLost slot .internalError
        { response := Response.parityPoison.code, block := if e < 16 then bCompW else bCompD, event := some 0x511 } (some f.number)
        (if begun then setJob slot { w with recOff := 0 } s else s)

/-- A poisoned intake word: the block is rebuilt, independent, each fragment that holds one replaced by an empty one (R181, R236,
R240). -/
def blockPoisoned (e : Nat) (ecc : List EccWord) (b : Blk) (s : State) : State :=
  let nums := poisonedRecords s ecc b
  let s := raise 0x511 [] (answer 0x40 .parityPoison none b.flow (eccReads ecc s))
  let t := thinFrags (fun f => !nums.contains f.number) (fun f => [emptied f]) b.frags b.src
  let s := thinLater b nums (closeRecords b.stream nums (rebuildBlk t.1 t.2.1 t.2.2 true b s))
  let s := (b.frags.filter fun f => nums.contains f.number).foldl (poisonWriter e) s
  settle (dispatchAll s)

/-- The Flow Tag of a block reaches an engine with wrong parity: the engine does not act on it, and the block is sent to it again (R22). -/
def engineTagBad (e : Nat) (b : Blk) (s : State) : State :=
  let s := setEngine e { (getEngine s e) with busy := none } (updBlk b.id (fun x => { x with stage := .queued }) s)
  settle (dispatchAll (badTag 0x40 none b.flow (if e < 16 then bCompW else bCompD) s))

/-- A verify mismatch: the event, the counter, and the copy with VerifyFallback (R228, R240). -/
def verifyMismatch (e : Nat) (b : Blk) (s : State) : State :=
  let s := { s with pack := { s.pack with verifyMismatches := sat32 (s.pack.verifyMismatches + 1) } }
  raise 0x510 [(8, e), iStream b.stream, iRecord b.first] (setBlk b.id { b with stage := .copying e, fallback := true } s)

/-- An encoding that did not shrink: the engine answers NOSHRINK, and its lane state stays as it was at the block's start (R25,
R227). -/
def noShrink (e : Nat) (b : Blk) (s : State) : State :=
  answer 0x40 .noShrink none b.flow (setBlk b.id { b with stage := .copying e } s)

/-- A finished encoding: the verify decoder compares first; a payload as long as the content is not kept (R223, R225-R228). -/
def encodingDone (e : Nat) (b : Blk) (payload : List Byte) (s : State) : State :=
  let content := contentOf b.frags
  let st := (getEngine s e).state
  match decodeBlock b.comp false b.independent st payload content.length with
  | none => verifyMismatch e b s
  | some (out, new) =>
    if out ≠ content then verifyMismatch e b s
    else match encoderMeter b.comp b.effort b.segment b.check b.loss b.independent st payload content.length with
      | none => s
      | some m =>
        if content.length ≤ payload.length then noShrink e b s
        else if !fifoRoom s e payload then s
        else packetDone e { b with payload := payload } { new with meter := m } false s

/-- BLOCK_ENCODED (R22, R31, R180, R181, R223, R225, R226, R227, R228, R236): the payload is what the encoder wrote, one that R223 and
R225 allow it. -/
def execBlockEncoded (engine : Fin 24) (payload : List Byte) (ecc : List EccWord) (tagOk : Bool) (s : State) : Result :=
  let e := engine.val
  match blkOn s e with
  | none => .next s
  | some b =>
    match b.stage with
    | .onEngine _ =>
      if !tagOk then .next (engineTagBad e b s)
      else if (poisonedRecords s ecc b).isEmpty then .next (encodingDone e b payload (eccReads ecc s))
      else .next (blockPoisoned e ecc b s)
    | _ => .next s

/-- A finished copy of a block (R206, R212, R227, R228). -/
def copyDone (e : Nat) (b : Blk) (crcOk : Bool) (s : State) : State :=
  if !crcOk then verifyMismatch e b s
  else
    let content := contentOf b.frags
    let old := if b.independent then {} else (getEngine s e).state
    let st : LaneState := if b.comp = 1 then { old with window := slideWindow old.window content } else {}
    if !fifoRoom s e content then s
    else packetDone e { b with raw := true, payload := content } st (b.fallback || decide (b.comp = 2)) s

/-- RAW_COPY_DONE (R31, R180, R181, R206, R212, R227, R228, R236). -/
def execRawCopyDone (engine : Fin 24) (crcOk : Bool) (ecc : List EccWord) (s : State) : Result :=
  let e := engine.val
  match blkOn s e with
  | none => .next s
  | some b =>
    match b.stage with
    | .copying _ =>
      if (poisonedRecords s ecc b).isEmpty then .next (copyDone e b crcOk (eccReads ecc s))
      else .next (blockPoisoned e ecc b s)
    | _ => .next s

end Sys2Proof.Machine
end

