-- ==== Sys2Proof/Machine/Cipher.lean ====
section
/-! DEFINITION. Keys, key slots and encryption (R242-R263, R268-R275). -/

namespace Sys2Proof.Machine

/-- First invocation value that no slot issues (R261). -/
def ivLimit : Nat := 2 ^ 64 - 2 ^ 24

/-- Key of a pair in the counter table (R257). -/
def pairKey (key : BitVec 256) (writer : BitVec 24) : Nat :=
  beNat (Crypto.fingerprint (beBytes 32 key.toNat)) * 2 ^ 24 + writer.toNat

/-- The recorded high-water of a pair (R257). -/
def recordedHigh (s : State) (pair : Nat) : Option Nat := Tab.get? s.cip.counters pair

/-- A reservation of the pair is being persisted: a KEY_LOAD of the pair waits for its outcome (R258, R263). -/
def persisting (s : State) (pair : Nat) : Bool := s.cip.loads.any fun p => pairKey p.entry.key p.entry.writerId == pair

/-- The counter table holds the pair or has room for it (R253, R257). -/
def counterRoom (s : State) (pair : Nat) : Bool :=
  (recordedHigh s pair).isSome || decide (s.cip.counters.length +
    (s.cip.loads.countP fun p => (Tab.get? s.cip.counters (pairKey p.entry.key p.entry.writerId)).isNone) < 8192)

/-- The lowest FREE key slot, passing over slots taken by a load in progress (R253). -/
def lowestKey (s : State) : Option Nat :=
  (List.range 8192).find? fun n => (Tab.get? s.cip.slots n).isNone && !(s.cip.loads.any fun p => p.slot.isSome && p.key == n)

/-- Slots that a function owns, with those being loaded (R253). -/
def keysOwned (s : State) (f : Nat) : Nat :=
  (s.cip.slots.countP fun p => p.2.owner == f) + s.cip.loads.countP fun p => p.slot.isSome && p.entry.owner == f

/-- End a KEY_LOAD with its Specific fields (R254). -/
def keyLoaded (slot key check : Nat) (s : State) : State := finishWith slot .success [(13, key), (19, 0), (64, check)] 0 s

/-- Install a KEK and answer its check value (R248). -/
def installKek (slot fn kind : Nat) (kek : List Byte) (s : State) : State :=
  let s := { s with cip := { s.cip with keks := Tab.put s.cip.keks fn (BitVec.ofNat 256 (beNat kek), kind) } }
  keyLoaded slot 0 (leNat (Crypto.kekCheck kek)) s

/-- The AES-KW or public key check failed (R253). -/
def unwrapFail (slot : Nat) (s : State) : State :=
  complete slot (fun c => baseCpl c .invalidField) { block := bCipher, event := some 0x520 } (raise 0x520 [] s)

/-- A data key unwrapped: the checks on its counter and on room, then the reservation is persisted (R253, R257, R258). -/
def loadData (slot : Nat) (c : Cmd) (key : BitVec 256) (s : State) : State :=
  let e := c.entry
  let writer := BitVec.ofNat 24 (eWriterId e)
  let pair := pairKey key writer
  let high := recordedHigh s pair
  if persisting s pair then s else
  let start := if eStartMode e then (match high with | some h => h + 1 | none => 0) else eStartCounter e
  if ivLimit ≤ start then finish slot .ivExhausted bCipher s
  else if !eStartMode e && (match high with | some h => decide (start ≤ h) | none => false) then
    complete slot (fun c => baseCpl c .ivRollback) { block := bCipher, event := some 0x522 } (raise 0x522 [] s)
  else if !counterRoom s pair then
    complete slot (fun c => baseCpl c .bufferExhausted) { block := bCipher, event := some 0x525 } (raise 0x525 [] s)
  else match lowestKey s with
    | none => finish slot .bufferExhausted bCipher s
    | some n =>
      if param s 0x5800 5 ≤ keysOwned s c.fn then finish slot .bufferExhausted bCipher s
      else
        let k : KeySlot := { state := .loaded, key := key, owner := c.fn, writerId := writer, lane := BitVec.ofNat 8 (param s 0x5800 4),
                             scope := if eAnyStream e then none else some (eStream e), next := start,
                             highWater := min (start + 2 ^ 24 - 1) (ivLimit - 1) }
        setStage slot .waiting { s with cip := { s.cip with loads := s.cip.loads ++ [⟨some slot, k, n⟩] } }

/-- A KEY_LOAD of kind 0 under the same writer identifier that was fetched earlier and has not been carried out: it may be one of
the same pair (R257, R263). -/
def earlierLoad (s : State) (c : Cmd) : Bool :=
  let same := fun (e : BitVec 512) => decide (eOpcode e = opKeyLoad ∧ eKeyKind e = 0 ∧ eWriterId e = eWriterId c.entry)
  decide (eKeyKind c.entry = 0) &&
    ((s.host.cmds.any fun p => decide (p.2.seq < c.seq) && same p.2.entry && p.2.verdict.isNone && !p.2.orphan &&
        (match p.2.stage with | .started => true | .lists => true | _ => false)) ||
      s.host.fns.any fun f => f.2.qps.any fun q => q.2.fetchQ.any fun x =>
        decide (x.seq < c.seq) && same x.entry && x.verdict.isNone)

/-- The recorded high-water of a pair never falls (R257, R258). -/
def recordHigh (k : KeySlot) (s : State) : State :=
  let pair := pairKey k.key k.writerId
  { s with cip := { s.cip with counters := Tab.put s.cip.counters pair (max (Tab.getD s.cip.counters pair 0) k.highWater),
                               persists := sat32 (s.cip.persists + 1) } }

/-- The next value of a slot has come near the limit: event 0x524, once per slot (R261). -/
def nearLimit (k : KeySlot) : Bool := decide (2 ^ 64 - 2 ^ 32 ≤ k.next) && !k.warned

/-- KEY_LOAD; two of one pair run in fetch order (R263), and the life-cycle state is judged again when the command runs (R247, R248, R252, R253, R269, R571). -/
def execKeyLoad (slot : SlotId) (data : List Byte) (s : State) : Result :=
  .next (onCmd slot.val [opKeyLoad] (fun c s =>
    let e := c.entry
    let kind := eKeyKind e
    let kek := Tab.get? s.cip.keks c.fn
    if s.lc.job.isSome then finish slot.val .stateConflict bMgmt s
    else if s.lc.state ≠ 2 then finish slot.val .accessDenied bHqe s
    else if s.cip.failed then finish slot.val .internalError bCipher s
    else if data.length ≠ eLen e || earlierLoad s c then s
    else if kind = 3 then installKek slot.val (eTargetFn e) 3 data s
    else if kind = 1 then
      let x := beNat (data.take 32)
      let y := beNat ((data.drop 32).take 32)
      match s.cip.transport with
      | none => unwrapFail slot.val s
      | some d =>
        if Crypto.onCurve x y then installKek slot.val c.fn 1 (Crypto.ecdhKek d c.fn (data.drop 64) x y) s
        else unwrapFail slot.val s
    else match kek with
      | none => finish slot.val .keyUnavailable bCipher s
      | some (k, _) =>
        match Crypto.unwrap k data with
        | none => unwrapFail slot.val s
        | some p =>
          if kind = 2 then installKek slot.val c.fn 2 p s else loadData slot.val c (BitVec.ofNat 256 (beNat p)) s) s)

/-- KEY_UNLOAD (R255, R256). -/
def execKeyUnload (slot : SlotId) (s : State) : Result :=
  .next (onCmd slot.val [opKeyUnload] (fun c s =>
    let n := eUnloadSlot c.entry
    match Tab.get? s.cip.slots n with
    | none => finish slot.val .keyUnavailable bCipher s
    | some k =>
      if k.unloading ≠ some c.seq then finish slot.val .keyUnavailable bCipher s
      else finish slot.val .success 0 { s with cip := { s.cip with slots := Tab.del s.cip.slots n } }) s)

/-- IV_RESERVE_PERSIST_DONE of a KEY_LOAD; one ended before its reservation is persisted has no effect but the reservation
(R253, R258, R261, R598). -/
def loadPersisted (p : KeyPend) (slot : Nat) (ok : Bool) (s : State) : State :=
  if ok then
    let s := recordHigh p.entry s
    match getCmd s slot with
    | some c =>
      if c.orphan then dropCmd slot s
      else
        let near := nearLimit p.entry
        let k := { p.entry with warned := near }
        keyLoaded slot p.key k.next (raiseIf near 0x524 [iKey p.key] { s with cip := { s.cip with slots := Tab.put s.cip.slots p.key k } })
    | none => s
  else complete slot (fun c => baseCpl c .internalError) { block := bCipher, event := some 0x523 } (raise 0x523 [iKey p.key] s)

/-- A block that cannot be encrypted, and every later block of its stream that is not yet placed, are not written (R260,
R261, R152). -/
def loseBlocks (b : Blk) (st : Status) (s : State) : State :=
  settle (loseFrom b st { block := bCipher, event := some 0x540 } s)

/-- The first packet of each stream that waits for a value of a key slot. -/
def waitingFor (s : State) (key : Nat) : List Blk :=
  (s.pack.blks.filter fun p => p.2.key == some key && (match p.2.stage with | .packet _ => true | _ => false)).foldl
    (fun l p => if l.any fun x => x.stream == p.2.stream then l else l ++ [p.2]) []

/-- IV_RESERVE_PERSIST_DONE of a pre-reservation; when it failed, the blocks that needed it are lost (R259, R260). -/
def prePersisted (p : KeyPend) (ok : Bool) (s : State) : State :=
  let s := updKey p.key (fun k => { k with persisting := false }) s
  if ok then updKey p.key (fun k => { k with highWater := p.entry.highWater }) (recordHigh p.entry s)
  else
    let s := raise 0x523 [iKey p.key] s
    match Tab.get? s.cip.slots p.key with
    | some k => if k.highWater < k.next then (waitingFor s p.key).foldl (fun s b => loseBlocks b .internalError s) s else s
    | none => s

/-- IV_RESERVE_PERSIST_DONE (R253, R258-R260). -/
def execIvReservePersistDone (ok : Bool) (s : State) : Result :=
  match s.cip.loads with
  | [] => .next s
  | p :: t =>
    let s := { s with cip := { s.cip with loads := t } }
    match p.slot with
    | some slot => .next (loadPersisted p slot ok s)
    | none => .next (prePersisted p ok s)

/-- Start the pre-reservation of a slot (R259). -/
def reserveMore (key : Nat) (k : KeySlot) (s : State) : State :=
  let k := { k with persisting := true }
  let high := min (k.highWater + 2 ^ 24) (ivLimit - 1)
  let s := { s with cip := { s.cip with slots := Tab.put s.cip.slots key k } }
  { s with cip := { s.cip with loads := s.cip.loads ++ [⟨none, { k with highWater := high }, key⟩] } }

/-- The IV of a block (R244). -/
def ivOf (k : KeySlot) : BitVec 96 := BitVec.ofNat 96 (packMsb [(24, k.writerId.toNat), (8, k.lane.toNat), (64, k.next)])

/-- Issue the slot's next value to a block; the block leaves its packer FIFO for the pair's buffer, which its tag names from then on (R18,
R31, R259, R261). -/
def takeValue (pair key buf : Nat) (k : KeySlot) (b : Blk) (s : State) : State :=
  let s := setBlk b.id { b with stage := .inCipher pair, iv := some (ivOf k), fifo := none, buf := some buf, flow := tagWithBuf b.flow buf } s
  let k' := { k with next := k.next + 1 }
  let near := nearLimit k'
  let k' := { k' with warned := k.warned || near }
  let p := Tab.getD s.cip.pairs pair {}
  let s := { s with cip := { s.cip with slots := Tab.put s.cip.slots key k',
                                        pairs := Tab.put s.cip.pairs pair { p with enc := some b.id, buf := none } } }
  let s := raiseIf near 0x524 [iKey key] s
  if k'.highWater + 1 ≤ k'.next + 2 ^ 22 && !k'.persisting && decide (k'.highWater < ivLimit - 1) then reserveMore key k' s else s

/-- A slot issues nothing until its pre-reservation is persisted (R259). -/
def slotWaits (s : State) (key : Nat) : Bool :=
  match Tab.get? s.cip.slots key with
  | some k => k.persisting && decide (k.highWater < k.next)
  | none => false

/-- The oldest encrypted packet of an engine whose slot does not wait (R259). -/
def headPacket (s : State) (e : Nat) : Option Blk :=
  (s.pack.blks.find? fun p => p.2.key.isSome && p.2.stage == .packet e && !slotWaits s (p.2.key.getD 0)).map (·.2)

/-- The output buffer of a pair for a block; the pair waits where none is available (R193, R195, R196). -/
def cipherBuf (pair : Nat) (b : Blk) (s : State) : State × Option Nat :=
  let p := Tab.getD s.cip.pairs pair {}
  let ask := fun (s : State) =>
    let r := askBuf (0x70 + pair) b.storedSize b.flow s
    ({ r.1 with cip := { r.1.cip with pairs := Tab.put r.1.cip.pairs pair { p with buf := r.2.1, bufReq := r.2.2 } } }, r.2.1)
  match p.buf with
  | some id => if b.storedSize ≤ poolSize (id / 32768) then (s, some id) else ask (freeOwn (0x70 + pair) id b.flow s)
  | none => if p.bufReq.isSome then (s, none) else ask s

/-- The error log entry of a WRITE whose packet a poisoned word keeps from being encrypted (R79, R181). -/
def cipherPoison : ErrInfo := { response := Response.parityPoison.code, block := bCipher }

/-- A packet of which a DRAM word is poisoned is not used: it is lost, with what follows it (R181). DESIGN CHOICE (log entry 122): the
table of R181 does not name the packer FIFOs, and a packet is data tied to commands. -/
def packetPoisoned (owner : Nat) (b : Blk) (s : State) : State :=
  settle (loseFrom b .internalError cipherPoison (answer owner .parityPoison b.buf b.flow s))

/-- CIPHER_TAKE_PACKET (R22, R180, R181, R193, R242, R259, R261, R269). -/
def execCipherTakePacket (pair : Fin 4) (engine : Fin 24) (ecc : List EccWord) (tagOk : Bool) (s : State) : Result :=
  match headPacket s engine.val with
  | none => .next s
  | some b =>
    let key := b.key.getD 0
    if ((Tab.getD s.cip.pairs pair.val {}).enc).isSome || resetting s 2 then .next s
    else if s.cip.failed then .next (loseBlocks b .internalError s)
    else if !tagOk then .next (settle (badTag (0x70 + pair.val) none b.flow bCipher s))
    else if (poisoned ecc).any fun a => dramRegion s a == .packer then .next (packetPoisoned (0x70 + pair.val) b (eccReads ecc s))
    else match Tab.get? s.cip.slots key with
      | none => .next (loseBlocks b .internalError s)
      | some k =>
        if ivLimit ≤ k.next then .next (loseBlocks b .ivExhausted s)
        else if k.highWater < k.next then .next (reserveMore key k s)
        else
          let r := cipherBuf pair.val b s
          match r.2 with
          | none => .next r.1
          | some id => .next (takeValue pair.val key id k b (eccReads ecc r.1))

/-- Requests to the random source for the dummy rounds and the shuffling of AES operations: none with both off, else a number
that the spec does not state (log entry 98) (R267, R268). -/
def countDraws (s : State) : State :=
  if param s 0x5800 1 = 0 ∧ param s 0x5800 2 = 0 then s
  else { s with drawn := s.drawn + 1, cip := { s.cip with drbgRequests := s.cip.drbgRequests + Config.freeNat s.drawn } }

/-- BLOCK_ENCRYPTED: the block goes to the Dataset Builder in its buffer (R22, R180, R181, R189, R242, R243, R268, R275). -/
def execBlockEncrypted (pair : Fin 4) (ecc : List EccWord) (tagOk : Bool) (s : State) : Result :=
  let p := Tab.getD s.cip.pairs pair.val {}
  match p.enc.bind (getBlk s) with
  | none => .next { s with cip := { s.cip with pairs := Tab.put s.cip.pairs pair.val { p with enc := none } } }
  | some b =>
    if !tagOk then .next (settle (badTag 0x80 b.buf b.flow bBuilder s)) else
    let bad := match b.buf with | some id => poisonedBuf s ecc id | none => false
    let s := eccReads ecc { s with cip := { s.cip with pairs := Tab.put s.cip.pairs pair.val { p with enc := none } } }
    if bad then .next (packetPoisoned 0x80 b s) else
    match Tab.get? s.cip.slots (b.key.getD 0), b.iv with
    | some k, some iv =>
      let r := Crypto.gcmEnc k.key iv b.header b.payload
      let s := countDraws { s with cip := { s.cip with encrypted := s.cip.encrypted + 1 } }
      let s := match b.buf with | some id => giveOwn (0x70 + pair.val) id 0x80 b.flow s | none => s
      .next (offer b.id (setBlk b.id { b with payload := r.1, tag := r.2 } s))
    | _, _ => .next (loseBlocks b .internalError s)

/-- A block names a key slot before it leaves the Cipher Engine (R270). -/
def namesKey (b : Blk) (key : Nat) : Bool :=
  b.key == some key && (match b.stage with | .offered => false | .placed => false | .lost => false | _ => true)

/-- SLOT_RETIRE_COMPLETE (R270). -/
def execSlotRetireComplete (key : Fin 8192) (s : State) : Result :=
  match Tab.get? s.cip.slots key.val with
  | none => .next s
  | some k =>
    let used := s.pack.blks.any fun p => namesKey p.2 key.val
    let bound := s.streams.any fun p => p.2.cipher && p.2.keySlot == key.val && (p.2.state != .closed || p.2.opening.isSome) && !p.2.noKey
    if k.state ≠ .retiring || used || bound then .next s
    else .next (retiredCheck k.owner { s with cip := { s.cip with slots := Tab.del s.cip.slots key.val } })

/-- ENTROPY_HEALTH_FAIL (R268, R269). -/
def execEntropyHealthFail (s : State) : Result := .next (raise 0x527 [] { s with cip := { s.cip with failed := true } })

/-- DRBG_RESEED: after 2^20 requests (R268). -/
def execDrbgReseed (s : State) : Result :=
  if s.cip.drbgRequests < 2 ^ 20 then .next s else .next { s with cip := { s.cip with drbgRequests := 0 } }

/-- A draw from the random source (R268). -/
def drawRandom (s : State) : BitVec 256 × State :=
  (Config.random s.drawn, { s with drawn := s.drawn + 1, cip := { s.cip with drbgRequests := s.cip.drbgRequests + 1 } })

/-- The pair that a CounterRetire value names, and whether it may be retired (R262). -/
def retirePair (blob : List Byte) : Nat := beNat (blob.take 16) * 2 ^ 24 + beNat ((blob.drop 16).take 3)
def retireOk (s : State) (blob : List Byte) : Bool :=
  decide (blob.length = 19) && !(s.cip.slots.any fun p => pairKey p.2.key p.2.writerId == retirePair blob)

/-- COUNTER_RETIRE: the effect of a MGMT write that R262 admits; a pair loaded in a slot stays. -/
def execCounterRetire (blob : List Byte) (s : State) : Result :=
  if retireOk s blob then .next { s with cip := { s.cip with counters := Tab.del s.cip.counters (retirePair blob) } } else .next s

end Sys2Proof.Machine
end

