-- ==== Sys2Proof/Machine/Tce.lean ====
section
/-! DEFINITION. The Transport Control Engine: loops, servo and tachometer inputs, the Actuator Serial Link, faults and stops,
and the pins it watches (R352, R358, R359, R444-R473). -/

namespace Sys2Proof.Machine

/-- A load in progress ends by a transport fault (R99). -/
def faultLoad (s : State) : State :=
  match s.cart.load with
  | none => s
  | some j =>
    let s := { s with cart := { s.cart with load := none, unthreading := false } }
    match j.slot with
    | some slot => finish slot .transportFault bTce s
    | none => raise 0x7D2 [(8, CartState.faulted.code)] s

/-- A CARTRIDGE_FORMAT in progress ends by a transport fault (R99, R117). -/
def faultFormat (s : State) : State :=
  match s.cart.format with
  | some slot =>
    finish slot .transportFault bTce (onPost slot (.formatEnds none) { s with cart := { s.cart with format := none } })
  | none => s

/-- FLUSHes whose checkpoint will not be written, and STREAM_CREATEs whose entry will not be, end (R99, R137, R158). -/
def faultWaits (s : State) : State :=
  let s := (s.host.cmds.map (·.1)).foldl (fun s slot => match getCmd s slot with
    | some c => match c.stage with
      | .draining j => if eOpcode c.entry = opFlush && j.dataDone then finish slot .transportFault bTce s else s
      | _ => s
    | none => s) s
  let lost := s.reserved.filter fun p => (getStream s p.1).isNone && (Tab.get? s.wr.failedCreates p.2).isNone
  let kept := s.wr.queued.filter fun e => match e with | .stream x => (getStream s x.stream).isSome | _ => true
  lost.foldl (fun s p => endCreate p.1 (some (.transportFault, none)) s) { s with wr := { s.wr with queued := kept } }

/-- A rebuild reads no further dataset and reports the fault (R99, R429). -/
def faultRebuild (s : State) : State :=
  match findRebuild s with
  | some (slot, j) => setStage slot (.rebuilding { j with stopped := true, err := some (j.err.getD .transportFault) }) s
  | none => s

/-- A transport fault: the pass ends without tails or a burst, its datasets fail, commands that need the tape complete with
TRANSPORT_FAULT, a checkpoint under way is not written, and the cartridge becomes FAULTED (R99, R172, R352, R358, R468). -/
def cartFault (s : State) : State :=
  if !(s.cart.state = .loading || s.cart.state = .unformatted || s.cart.state = .ready || s.cart.state = .readOnly ||
      s.cart.state = .unloading) then s
  else
    let cart := s.cart
    let unloading := decide (cart.state = .unloading)
    let s := { s with cart := { cart with state := if unloading then .unloading else .faulted, unloadFaulted := unloading, unloadClean := false } }
    let s := dropCkpt (raiseIf s.wr.ckpt.isSome 0x542 [] s)
    let s := emptyBanks (setGates false { s with wr := { s.wr with
      pass := false, passEnding := false, passIndex := false, tails := 0, head := none, ckptDue := false } })
    let s := match s.rd.cur with | some d => dropHeld d.bufReq (freeOpt d.buf d.flow s) | none => s
    let s := { s with rd := { s.rd with cur := none, batch := false, urgent := none } }
    let s := faultRebuild s
    let s := s.wr.cocoon.foldl (fun s d => if d.state = .failed then s else failDs d .transportFault s) s
    let s := sweep (failHeld .transportFault s)
    settle (faultWaits (faultFormat (faultLoad s)))

/-- Start the stop of a fault (R468). -/
def stopFor (bit : Nat) (s : State) : State :=
  if bit ≤ 2 then
    if s.tce.ctlStop || s.tce.state = .fault then s else retarget 3 0 { s with tce := { s.tce with ctlStop := true } }
  else if bit ≤ 8 then { s with tce := { s.tce with ctlStop := false, stopFrames := 2 } }
  else s

/-- Latch a fault: its event when the bit was clear, its stop, and the transport fault of R99 (R467, R468). -/
def tceFault (bit : Nat) (s : State) : State :=
  if s.tce.faults.getLsbD bit then s
  else
    let s := raise (0x600 + bit) [] { s with tce := { s.tce with faults := s.tce.faults ||| BitVec.ofNat 32 (2 ^ bit) } }
    let s := if s.tce.state = .off then s else stopFor bit s
    let s := if s.tce.state ≠ .off || bit = 9 || bit = 10 then { s with tce := { s.tce with state := .fault } } else s
    cartFault s

/-- Latch a fault when a condition holds. -/
def faultIf (b : Bool) (bit : Nat) (s : State) : State := if b then tceFault bit s else s

/-- Three consecutive command frames to one address have had no valid status frame (R468). -/
def aslCheck (s : State) : State := faultIf (s.tce.aslSilent.any fun p => decide (3 < p.2)) 5 s

/-- A loop computes and its stage is driven: not in OFF, and in FAULT only during a controlled stop (R467, R468). -/
def loopsRun (s : State) : Bool :=
  match s.tce.state with
  | .off => false
  | .fault => s.tce.ctlStop
  | _ => true

/-- A gain record (R458). -/
structure Gains where
  expIn : Int
  kin : Int
  expC : Int
  comp : List Int
  expI : Int
  ki : Int
  expFf : Int
  kff : Int
  eErr : Int
  eNotch : Int
  eComp : Int
  eOut : Int
  outLimit : Int

/-- Signed field of a record: offset and size in bytes, little-endian. -/
def signedAt (l : List Byte) (i n : Nat) : Int := signedOf n (leNat ((l.drop i).take n))

/-- Five coefficients from an offset (R457, R458). -/
def coefsAt (l : List Byte) (i : Nat) : List Int := (List.range 5).map fun k => signedAt l (i + 3 * k) 3

/-- The gain record of a loop for the region in force (R458, R459). -/
def gainsOf (s : State) (l : Nat) : Gains :=
  let r := entryBytesOf s (0x6100 + 16 * l + s.tce.region) 1
  { expIn := signedAt r 1 1, kin := signedAt r 2 3, expC := signedAt r 5 1, comp := coefsAt r 6, expI := signedAt r 21 1,
    ki := signedAt r 22 3, expFf := signedAt r 25 1, kff := signedAt r 26 3, eErr := signedAt r 29 1, eNotch := signedAt r 30 1,
    eComp := signedAt r 31 1, eOut := signedAt r 32 1, outLimit := signedAt r 33 3 }

/-- `num` / `den` × 2^`sh`, rounded to nearest, ties away from zero (R454). -/
def scaled (num : Int) (den : Nat) (sh : Int) : Int :=
  if 0 ≤ sh then roundDiv (num * 2 ^ sh.toNat) den else roundDiv num (den * 2 ^ (-sh).toNat)

/-- Limit a mantissa to its 24 bits; true when it lay beyond (R454). -/
def limit24 (m : Int) : Int × Bool := if 8388607 < m then (8388607, true) else if m < -8388608 then (-8388608, true) else (m, false)

/-- A sum of mantissas × 2^exponents brought to a stage's exponent (R453, R454). -/
def sumTo (terms : List (Int × Int)) (e : Int) : Int × Bool :=
  let low := terms.foldl (fun m t => min m t.2) 0
  limit24 (scaled ((terms.map fun t => t.1 * 2 ^ (t.2 - low).toNat).sum) 1 (low + 23 - e))

/-- A biquad: output and new delay values; `ein` and `eout` are its stage exponents (R456). -/
def biquad (c : List Int) (exp ein eout : Int) (x : Int) (b : Biquad) : (Int × Bool) × Biquad :=
  let k := fun i => c.getD i 0
  let fx := exp + ein - 46
  let fy := exp + eout - 46
  let y := sumTo [(k 0 * x, fx), (k 1 * b.x1, fx), (k 2 * b.x2, fx), (-(k 3) * b.y1, fy), (-(k 4) * b.y2, fy)] eout
  (y, ⟨x, b.x1, y.1, b.y1⟩)

/-- Notch filter `k` of a loop's record on an input: output, flag, new state; a disabled filter passes its input (R456, R457). -/
def notchStep (r : List Byte) (e : Int) (k : Nat) (x : Int) (b : Biquad) : (Int × Bool) × Biquad :=
  if (r.getD (17 * k) 0#8).getLsbD 0 then biquad (coefsAt r (17 * k + 2)) (signedAt r (17 * k + 1) 1) e e x b else ((x, false), b)

/-- What a sample of a loop's chain gives: the loop, its flags by bit, and whether the output saturated or was clamped. -/
structure Chain where
  loop : Loop
  flags : Nat
  outSat : Bool

/-- Sum of flag bits. -/
def flagBits (l : List Bool) : Nat := packLsb (l.map fun b => (1, b.toNat))

/-- The chain of stages of a loop: `num` / `den` is the error in the loop's unit, `ff` the feedforward quantity (R456). -/
def chain (s : State) (l : Nat) (num : Int) (den : Nat) (ff : Int) (p : Loop) : Chain :=
  let g := gainsOf s l
  let r := entryBytesOf s (0x6200 + l) 1
  let x0 := limit24 (scaled num den (23 - g.eErr))
  let x1 := sumTo [(g.kin * x0.1, g.expIn + g.eErr - 46)] g.eNotch
  let n0 := notchStep r g.eNotch 0 x1.1 (p.notch.getD 0 {})
  let n1 := notchStep r g.eNotch 1 n0.1.1 (p.notch.getD 1 {})
  let n2 := notchStep r g.eNotch 2 n1.1.1 (p.notch.getD 2 {})
  let n3 := notchStep r g.eNotch 3 n2.1.1 (p.notch.getD 3 {})
  let c := biquad g.comp g.expC g.eNotch g.eComp n3.1.1 p.comp
  let i := sumTo [(p.integ, g.eComp - 23), (g.ki * n3.1.1, g.expI + g.eNotch - 46)] g.eComp
  let fm := if ff = 0 then 0 else Config.ffValue l ff
  let u := sumTo [(c.1.1, g.eComp - 23), (i.1, g.eComp - 23), (g.kff * fm, g.expFf - 46)] g.eOut
  let clamped := decide (g.outLimit < u.1 ∨ u.1 < -g.outLimit)
  let out := if g.outLimit < u.1 then g.outLimit else if u.1 < -g.outLimit then -g.outLimit else u.1
  let sat := u.2 || clamped
  { loop := { p with notch := [n0.2, n1.2, n2.2, n3.2], comp := c.2, integ := if sat then p.integ else i.1, out := out,
                     aslValue := roundDiv (out * 32767) 8388608 },
    flags := flagBits [x0.2, x1.2, n0.1.2, n1.1.2, n2.1.2, n3.1.2, c.1.2, i.2, sat], outSat := sat }

/-- Set sticky saturation flags of a loop; its output flag's rise raises event 0x610 (R455). -/
def setFlags (l flags : Nat) (s : State) : State :=
  let was := s.tce.sat.getLsbD (16 * l + 8)
  let s := { s with tce := { s.tce with sat := s.tce.sat ||| (BitVec.ofNat 64 flags <<< (16 * l)) } }
  raiseIf (!was && flags.testBit 8) 0x610 [(8, l)] s

/-- Move the set-point of a loop at a sample: to the measurement after a new target, else one step towards it (R461). -/
def rampStep (step measured : Int) (p : Loop) : Loop :=
  let p := { p with measured := measured }
  if p.newTarget then { p with setpoint := measured, newTarget := false, ramping := true }
  else if p.ramping then
    if (p.target - p.setpoint).natAbs ≤ step.toNat then { p with setpoint := p.target, ramping := false }
    else { p with setpoint := if p.setpoint < p.target then p.setpoint + step else p.setpoint - step }
  else p

/-- Count a sample of a loop in an hour of motion (R470). -/
def countHour (l : Nat) (outSat : Bool) (s : State) : State :=
  if s.tce.state ≠ .moving && s.tce.state ≠ .stopping then s
  else
    let up := fun (x : List Nat) (b : Bool) => setAt x l (x.getD l 0 + b.toNat)
    { s with tce := { s.tce with hourSamples := up s.tce.hourSamples true, hourSat := up s.tce.hourSat outSat } }

/-- Send a loop's output, unless the frame carries stop frames (R445, R468). -/
def sendOutput (l : Nat) (s : State) : State :=
  if s.tce.stopFrames ≠ 0 then s else aslCheck (sendAsl l 0 (loopOf s l).aslValue s)

/-- One sample of a loop: ramp, chain, flags, output; `den` scales the loop's quantity to its unit, `ff` gives the
feedforward quantity from the set-point's move (R445, R447, R455, R456, R461, R470). -/
def sampleLoop (l : Nat) (step measured : Int) (den : Nat) (ff : Int → Int) (overrun : Bool) (s : State) : State :=
  let old := loopOf s l
  let p := rampStep step measured old
  let slope := if old.newTarget then 0 else p.setpoint - old.setpoint
  let c := chain s l (p.setpoint - measured) den (ff slope) p
  let s := countHour l c.outSat (setFlags l c.flags (setLoop l c.loop s))
  if overrun then tceFault 8 s else sendOutput l s

/-- The track pitch in picometres (R276). -/
def pitchPm : Int := 206500

/-- Y of a servo reader, in picometres (R449). -/
def readerTarget (s : State) (n : Nat) : Int :=
  1000 * signedAt (entryBytesOf s 0x6000 13) (4 * n) 4 + (2 * ((s.tce.wrap % 96 : Nat) : Int) + 1) * 103250 +
    2065 * s.tce.readOffset

/-- The position error of each reader (R449). -/
def readerPes (s : State) (n : Nat) : Option Int := (s.tce.readers.getD n none).map fun y => y - readerTarget s n

/-- Twice the mean error of a band's valid readers (R449). -/
def bandPes2 (s : State) (band : Nat) : Option Int :=
  match readerPes s (2 * band), readerPes s (2 * band + 1) with
  | some a, some b => some (a + b)
  | some a, none => some (2 * a)
  | none, some b => some (2 * b)
  | none, none => none

/-- The frames of a torque off that this frame carries (R468). -/
def stopFramesStep (s : State) : State :=
  if s.tce.stopFrames = 2 then zeroOutputs (sendAll 2 [3, 2, 0, 1] { s with tce := { s.tce with stopFrames := 1 } })
  else if s.tce.stopFrames = 1 then sendAll 3 [3, 2] { s with tce := { s.tce with stopFrames := 0 } }
  else s

/-- The position test and the periods of the write guard at a LAT sample (R359, R447). -/
def guardSample (exceeds : Bool) (s : State) : State :=
  let s := guardTick { s with wr := { s.wr with guardGood := if exceeds then 0 else s.wr.guardGood + 1 } }
  if exceeds then guardOnset 1 s else s

/-- A seek ends once both readers of the new band lie within 20 µm of their set-points (R449). -/
def seekDone (s : State) : Bool :=
  match readerPes s 0, readerPes s 1 with
  | some a, some b => decide (a.natAbs ≤ 20000000 ∧ b.natAbs ≤ 20000000)
  | _, _ => false

/-- Sum the difference of the two bands for SKEW (R452). -/
def sumBands (s : State) : State :=
  match bandPes2 s 0, bandPes2 s 1 with
  | some a, some b => { s with tce := { s.tce with bandSum := s.tce.bandSum + (b - a), bandCount := s.tce.bandCount + 1 } }
  | _, _ => s

/-- The measurement of a LAT sample: its value, and whether no reader gave it (R449). -/
def latMeasure (s : State) : Int × Bool :=
  if s.tce.seek then (Config.coarseError s.tce.wrap s.tce.coarse, false)
  else match (bandPes2 s 0).or (bandPes2 s 1) with
    | some p2 => (roundDiv p2 2, false)
    | none => (s.tce.pes, true)

/-- The LAT loop at a sample: the position of the readers, the guard, the fault counts and the output (R447, R449, R468). -/
def latRun (overrun : Bool) (s : State) : State :=
  let s := if s.tce.seek && seekDone s then { s with tce := { s.tce with seek := false } } else s
  let s := sumBands s
  let seek := s.tce.seek
  let m := latMeasure s
  let far := decide (m.1.natAbs * 100 > param s 0x4830 1 * 206500)
  let s := guardSample (m.2 || seek || far || s.tce.faults != 0#32) s
  let loss := if m.2 then s.tce.lossCount + 1 else 0
  let range := if !seek && decide (51625 < m.1.natAbs) then s.tce.rangeCount + 1 else 0
  let s := { s with tce := { s.tce with pes := m.1, lossCount := loss, rangeCount := range } }
  let step : Int := (if seek then 10000 * param s 0x6000 7 else 10 * param s 0x6000 6 : Nat)
  let s := if s.tce.state = .fault then (if s.tce.ctlStop then sendOutput 0 s else s)
    else sampleLoop 0 step m.1 1000 id overrun s
  let s := if s.tce.state = .fault && overrun then tceFault 8 s else s
  faultIf (decide (100 ≤ range)) 1 (faultIf (decide (param s 0x6000 9 ≤ loss)) 0 s)

/-- LAT_SAMPLE: the start of a frame; `overrun` says that its computation misses its output cycle (R445, R447, R449). -/
def execLatSample (overrun : Bool) (s : State) : Result :=
  if tceUnpowered s then .next s else
  let s := { s with tce := { s.tce with frame := s.tce.frame + 1 } }
  if s.tce.state = .off then
    .next (guardTick s)
  else .next (latRun overrun (stopFramesStep s))

/-- REEL_S_SAMPLE (R444, R451). -/
def execReelSSample (overrun : Bool) (s : State) : Result :=
  if tceUnpowered s then .next s else
  let rT := s.tce.rT.getD 28000
  let rS := s.tce.rS.getD 28000
  let torque := (param s 0x6000 17 : Int) * (loopOf s 3).aslValue * 1000000000 - 32767 * (param s 0x6000 18 : Int) * s.tce.alphaT
  let s := { s with tce := { s.tce with tension := roundDiv torque (32767 * rT) } }
  if !loopsRun s then .next s
  else .next (sampleLoop 2 (40 * param s 0x6000 5 : Nat) s.tce.tension 1000000 (fun _ => ((param s 0x6000 4 * rS : Nat) : Int)) overrun s)

/-- REEL_T_SAMPLE (R444, R450). -/
def execReelTSample (overrun : Bool) (s : State) : Result :=
  if tceUnpowered s then .next s else
  if !loopsRun s then .next s
  else
    let slew := if s.tce.ctlStop then param s 0x6000 10 else param s 0x6000 3
    .next (sampleLoop 3 (4 * slew : Nat) s.tce.speed 1000 id overrun s)

/-- θ* in nanoradians for a width estimate in parts in 10^9 and a reader span in nanometres; none where no angle has that
cosine (R452). -/
def skewTarget (width : Int) (span : Nat) : Option Int :=
  let c := 2737500 * (1000000000 + width) * 1000000 / (span : Int)
  if c < 0 ∨ 10 ^ 15 < c then none
  else
    let x := Nat.sqrt (10 ^ 30 - c.toNat * c.toNat)
    some (roundDiv ((asinSum 120 x (x * x / 10 ^ 15) 0 : Nat) : Int) 1000000)

/-- The average of a sum over the TILT_UPDATEs of the sample period; with none, the latest value (R377). -/
def tlcsMean (s : State) (sum last : Int) : Int := if s.tlcs.tiltCount = 0 then last else roundDiv sum s.tlcs.tiltCount

/-- SKEW_SAMPLE; θ and e are averages over the period, and the target follows θ* without a new ramp (R377, R452, R461). -/
def execSkewSample (overrun : Bool) (s : State) : Result :=
  if tceUnpowered s then .next s else
  let tilt := tlcsMean s (1000 * s.tlcs.tiltSum) (1000 * s.tlcs.tilt)
  let wide := tlcsMean s (1000 * s.tlcs.widthSum) (1000 * s.tlcs.width)
  let s := { s with tlcs := { s.tlcs with tiltSum := 0, widthSum := 0, tiltCount := 0 } }
  let held := s.tlcs.hold || decide (s.tce.bandCount = 0)
  let sum := s.tce.bandSum
  let n := s.tce.bandCount
  let s := { s with tce := { s.tce with bandSum := 0, bandCount := 0 } }
  if !loopsRun s then .next s
  else if held || s.tce.ctlStop then .next (if overrun then tceFault 8 s else sendOutput 1 s)
  else
    let width := wide - roundDiv (sum * 1000000) (2 * n * 2737500)
    let t := match skewTarget width (param s 0x4860 4) with
      | some t => (t, s)
      | none => (Config.freeInt s.drawn, drew s)
    let s := { t.2 with tce := { t.2.tce with width := width } }
    let p := loopOf s 1
    let s := setLoop 1 { p with target := t.1, ramping := true } s
    .next (sampleLoop 1 (100 * param s 0x6000 8 : Nat) tilt 1000 (fun _ => 0) overrun s)

/-- ASL_KEEPALIVE to address f mod 4; during a seek the head actuator is told with Value 1 (R445, R463, R465). -/
def execAslKeepalive (s : State) : Result :=
  if tceUnpowered s then .next s else
  if s.tce.stopFrames ≠ 0 then .next s
  else
    let a := (s.tce.frame - 1) % 4
    .next (aslCheck (sendAsl a 4 (if a = 0 ∧ s.tce.seek then 1 else 0) s))

/-- ASL_STATUS_FRAME (R464, R465, R468). -/
def execAslStatusFrame (frame : StatusFrame) (s : State) : Result :=
  if tceUnpowered s then .next s else
  let a := frame.address
  let echo := (Tab.getD s.tce.aslSeq a 0 + 15) % 16
  if !statusCrc frame || decide (3 < a) || decide (Tab.getD s.tce.aslSilent a 0 = 0) || decide (frame.echo ≠ echo) then
    .next { s with tce := { s.tce with aslErrors := sat32 (s.tce.aslErrors + 1) } }
  else
    let s := { s with tce := { s.tce with
      aslSilent := Tab.del s.tce.aslSilent a, stageFlags := Tab.put s.tce.stageFlags a frame.flags.toNat,
      coarse := if frame.ftype = 1 ∧ a = 0 then frame.value.toInt else s.tce.coarse } }
    .next (faultIf (decide (frame.flags.toNat % 16 ≠ 0)) 6 s)

/-- Number of bounds at or below a value, against the one in force: a group changes only past the boundary by the
margin (R459). -/
def groupOf (bounds : List Int) (margin cur : Int) (now : Nat) : Nat :=
  let up := bounds.countP fun b => decide (b + margin ≤ cur)
  let down := bounds.countP fun b => decide (b - margin ≤ cur)
  if now < up then up else if down < now then down else now

/-- The gain region: speed boundaries lie where the rounded speed step, which is clamped to 0 to 24, changes (R459). -/
def regionOf (s : State) : Nat :=
  let steps := (entryBytesOf s 0x6000 11).filter fun b => decide (b.toNat ≤ 24)
  let sb := steps.map fun b => if b = 0#8 then -10000000 else (1100000 + 200000 * (b.toNat : Int))
  let rb := (List.range 3).map fun k => ((leNat (((entryBytesOf s 0x6000 12).drop (4 * k)).take 4) : Nat) : Int)
  4 * groupOf sb 100000 (s.tce.speed.natAbs : Int) (s.tce.region / 4) + groupOf rb 200 (s.tce.rT.getD 28000 : Nat) (s.tce.region % 4)

/-- The dataset under the head, on the write side or the read side: wrap, read offset and target speed step. -/
def headJob (s : State) : Option (Nat × Int × Nat) :=
  match s.rd.cur, headDs s with
  | some d, _ => some (d.wrap, s.rd.offset, s.rd.speed)
  | none, some d => some ((d.place s).1, 0, s.wr.speed)
  | none, none => none

/-- Targets that the write and read sides give the LAT and REEL-T loops, and a changed tension (R364-R366, R419, R449, R461). -/
def takeTargets (s : State) : State :=
  let tension : Int := (param s 0x6000 4 * 1000000 : Nat)
  let s := if (loopOf s 2).target = tension then s else retarget 2 tension s
  match headJob s with
  | none => s
  | some (wrap, offset, step) =>
    let s := if wrap = s.tce.wrap && offset = s.tce.readOffset then s
      else retarget 0 0 { s with tce := { s.tce with
        wrap := wrap, readOffset := offset, seek := s.tce.seek || decide (wrap / 96 ≠ s.tce.wrap / 96) } }
    let v : Int := (1200000 + 200000 * step : Nat)
    let v := if wrapForward wrap then v else -v
    if s.tce.state ≠ .moving || (loopOf s 3).target = v then s else retarget 3 v s

/-- The frames that a fault timer has run (R468). -/
def timerUp (on : Bool) (n : Nat) : Nat := if on then n + 1 else 0

/-- Fault timers of the background window (R468). -/
def runTimers (s : State) : State :=
  let run := s.tce.state = .hold || s.tce.state = .moving || s.tce.state = .stopping
  let sp := (loopOf s 3).setpoint
  let slow := run && decide (100 * (s.tce.speed - sp).natAbs > 5 * sp.natAbs + 5000000)
  let goal := param s 0x6000 4
  let tense := run && !(loopOf s 2).ramping && !(loopOf s 2).newTarget &&
    decide (s.tce.tension < (500000 * goal : Nat) ∨ ((1500000 * goal : Nat) : Int) < s.tce.tension)
  let fast := s.tce.state != .off && decide (100000 < s.tce.speed.natAbs)
  let s := { s with tce := { s.tce with
    speedCount := timerUp slow s.tce.speedCount, tensionCount := timerUp tense s.tce.tensionCount,
    quietS := timerUp fast s.tce.quietS, quietT := timerUp fast s.tce.quietT } }
  let s := faultIf (decide (5000 ≤ s.tce.speedCount)) 2 s
  let s := faultIf (decide (2000 ≤ s.tce.tensionCount)) 3 s
  faultIf (decide (500 ≤ s.tce.quietS ∨ 500 ≤ s.tce.quietT)) 4 s

/-- The tape has stopped: STOPPING becomes HOLD, a controlled stop ends with disable and brake frames (R467, R468). -/
def endMotion (s : State) : State :=
  if 20000 ≤ s.tce.speed.natAbs then s
  else if s.tce.ctlStop then zeroOutputs (sendAll 3 [3, 2] (sendAll 2 [3, 2] { s with tce := { s.tce with ctlStop := false } }))
  else if s.tce.state = .stopping then
    setLoop 3 { loopOf s 3 with target := 0, setpoint := 0, newTarget := false, ramping := false } { s with tce := { s.tce with state := .hold } }
  else s

/-- TCE_BACKGROUND (R445, R459, R461, R467, R468). -/
def execTceBackground (s : State) : Result :=
  if tceUnpowered s then .next s else
  if s.tce.state = .off then .next s
  else
    let s := { s with tce := { s.tce with region := regionOf s } }
    .next (endMotion (runTimers (if s.tce.state = .fault then s else takeTargets s)))

/-- y of a servo reader in picometres (R448). -/
def readerY (dAB dAC : Nat) : Int :=
  roundDiv ((96 * (dAC : Int) - 192 * (dAB : Int)) * 534700 * 10 ^ 15) (2 * 158384440324536 * dAC)

/-- SERVO_READER_POSITION: `stripes` says that all 12 stripes were detected (R448). -/
def execServoReaderPosition (reader : Fin 4) (dAB dAC : Nat) (stripes : Bool) (s : State) : Result :=
  if tceUnpowered s then .next s else
  let n := reader.val
  let y := readerY dAB dAC
  if stripes && decide (0 < dAC) && decide (y.natAbs ≤ 60000000) then
    .next { s with tce := { s.tce with readers := setAt s.tce.readers n (some y), readerBad := setAt s.tce.readerBad n false } }
  else
    let t := { s with tce := { s.tce with readers := setAt s.tce.readers n none, readerBad := setAt s.tce.readerBad n true } }
    .next (raiseIf (!s.tce.readerBad.getD n false) 0x615 [(2, n)] t)

/-- The rate of a reel in µrad/s from the TCE cycles since its last edge (R450). -/
def reelRate (lines cycles : Nat) : Nat := 1570796326794897 / (4 * lines * cycles)

/-- The radius of a reel after an edge: once a revolution, in lock (R450). -/
def radiusAt (lock : Bool) (edges lines : Nat) (speed omega : Int) (old : Option Nat) : Option Nat :=
  if lock && decide (4 * lines ≤ edges) && decide (omega ≠ 0) then some (speed.natAbs * 1000000 / omega.natAbs) else old

/-- TACH_EDGE: `cycles` since the reel's last edge, and the direction that the quadrature pair gives; in lock the DCO's frequency gives the
tape speed (R371, R372, R374, R450). -/
def execTachEdge (takeUp : Bool) (cycles : Nat) (reverse : Bool) (s : State) : Result :=
  if tceUnpowered s then .next s else
  if cycles = 0 then .next s
  else
    let lines := param s 0x6000 (if takeUp then 15 else 14)
    let rate : Int := reelRate lines cycles
    let w := if reverse then -rate else rate
    let lock := inLock s
    let inLockV : Int := if reverse then -(dcoSpeed s : Int) else dcoSpeed s
    let c := s.tce
    let full := fun (n : Nat) => if 4 * lines ≤ n then 0 else n
    let s := if takeUp then
        let e := c.edgesT + 1
        let v := if lock then inLockV else roundDiv (w * (c.rT.getD 28000 : Nat)) 1000000
        { s with tce := { c with omegaT := w, alphaT := roundDiv ((w - c.omegaT) * 250000000) cycles, quietT := 0, edgesT := full e,
                                 speed := v, rT := radiusAt lock e lines v w c.rT } }
      else
        let e := c.edgesS + 1
        let v := if lock then inLockV else roundDiv (c.omegaT * (c.rT.getD 28000 : Nat)) 1000000
        { s with tce := { c with omegaS := w, quietS := 0, edgesS := full e, speed := v, rS := radiusAt lock e lines v w c.rS } }
    .next (tlcsSpeed s.tce.speed s)

/-- THREAD_REQUEST; never carried out in SCRAPPED (R450, R461, R467, R562). -/
def execThreadRequest (s : State) : Result :=
  if tceUnpowered s then .next s else
  if s.tce.state ≠ .off || s.lc.state = 4 then .next s
  else if !tablesValid s then
    let s := tceFault 9 s
    .next { s with tce := { s.tce with state := .fault } }
  else
    let fresh : Loop := { newTarget := true }
    .next (enableStages { s with tce := { s.tce with state := .hold, made := [], loops := [fresh, fresh, fresh, {}], rT := none, rS := none, edgesS := 0, edgesT := 0,
                                                     lossCount := 0, rangeCount := 0, speedCount := 0, tensionCount := 0, quietS := 0, quietT := 0 } })

/-- MOTION_REQUEST: a target speed in mm/s (R467). -/
def execMotionRequest (speedMms : Int) (s : State) : Result :=
  if tceUnpowered s then .next s else
  if s.tce.state = .hold || s.tce.state = .moving then
    .next (retarget 3 (1000 * speedMms) { s with tce := { s.tce with state := .moving } })
  else .next s

/-- STOP_REQUEST (R467). -/
def execStopRequest (s : State) : Result :=
  if tceUnpowered s then .next s else
  if s.tce.state = .moving then .next (retarget 3 0 { s with tce := { s.tce with state := .stopping } }) else .next s

/-- TCE_FAULT_CLEAR: a write of ones to `TceFaults` (R469). -/
def execTceFaultClear (bits : BitVec 32) (s : State) : Result := .next (tceClear bits s)

/-- `SatHours` (R470). -/
def satHours (s : State) : Nat := s.tce.hours.countP id

/-- The condition of `ReplaceCauses` bit 3 (R470). -/
def satHolds (s : State) : Bool := decide (param s 0x6000 20 ≤ satHours s)

/-- Raise SAT_PERSISTENT when its condition begins to hold (R441, R470). -/
def satCheck (before : Bool) (s : State) : State := if !before && satHolds s then setCause 3 (raise 0x611 [] s) else s

/-- SAT_HOUR_END: an hour in MOVING or STOPPING is over (R470). -/
def execSatHourEnd (s : State) : Result :=
  let bad := (List.range 4).any fun l =>
    decide (param s 0x6000 19 * s.tce.hourSamples.getD l 0 < 100 * s.tce.hourSat.getD l 0)
  let t := { s with tce := { s.tce with hours := (bad :: s.tce.hours).take 64, hourSamples := [0, 0, 0, 0], hourSat := [0, 0, 0, 0] } }
  .next (satCheck (satHolds s) t)

/-- TFAULT_LOW: TFAULT# has been low for 1 µs, or has returned high (R466). -/
def execTfaultLow (low : Bool) (s : State) : Result :=
  let s := { s with tce := { s.tce with tfaultHigh := !low } }
  .next (faultIf (low && !tceUnpowered s) 7 s)

/-- CART_PRESENT_STABLE: the level of CART_PRESENT#, low when a cartridge is present (R99, R466). -/
def execCartPresentStable (level : Bool) (s : State) : Result :=
  if level = s.tce.cartHigh then .next s
  else
    let s := { s with tce := { s.tce with cartHigh := level } }
    if !level then
      let s := raise 0x612 [] s
      .next (if s.cart.state = .empty then { s with cart := { s.cart with state := .present } } else s)
    else
      let s := raise 0x613 [] s
      let s := if s.cart.state = .present then clearCart .empty s else s
      .next (faultIf (s.tce.state != .off) 7 s)

/-- A cartridge is threaded: loading, loaded, or unloading (R99, R466). -/
def threaded (s : State) : Bool := s.cart.state != .empty && s.cart.state != .present

/-- WPROT_STABLE: the level of WPROT# (R466). -/
def execWprotStable (level : Bool) (s : State) : Result :=
  if level = s.tce.wprotHigh then .next s
  else .next (raiseIf (threaded s) 0x614 [] { s with tce := { s.tce with wprotHigh := level } })

/-- The condition of a cause of replacement holds (R441, R470, R514). -/
def causeHolds (s : State) (bit : Nat) : Bool :=
  match bit with
  | 0 => !(failedMembers s).isEmpty
  | 1 => s.dram.exhausted
  | 2 => decide (param s 0x7000 4 ≤ s.flash.retired)
  | 3 => satHolds s
  | _ => false

/-- REPLACE_ACKNOWLEDGE (R441). -/
def execReplaceAcknowledge (bits : BitVec 32) (s : State) : Result :=
  let keep := (List.range 4).foldl (fun (a : BitVec 32) b =>
    if s.health.causes.getLsbD b && (!bits.getLsbD b || causeHolds s b) then a ||| BitVec.ofNat 32 (2 ^ b) else a) 0#32
  .next { s with health := { s.health with causes := keep } }

end Sys2Proof.Machine
end

