-- ==== Sys2Proof/Machine/HeadFront.lean ====
section
/-! DEFINITION. The head-front configuration link (R586-R589), and the die temperature (R593). -/

namespace Sys2Proof.Machine

/-- Register writes of `HeadFrontInit`, in order: chip, register, data (R589). -/
def initWrites : Nat → List Byte → List (Nat × Nat × Nat)
  | 0, _ => []
  | n + 1, l => match l with
    | c :: r :: d :: t => (c.toNat, r.toNat, d.toNat) :: initWrites n t
    | _ => []

/-- Queue the register writes of `HeadFrontInit` for the chips named (R587). -/
def headFrontInit (want : Nat → Bool) (s : State) : State :=
  let l := entryBytesOf s 0x4890 1
  { s with tce := { s.tce with hcfWrites := s.tce.hcfWrites ++ (initWrites (l.length / 3) l).filter fun w => want w.1 } }

/-- Every channel of a chip whose fault bit rises is reset and failed (R588). -/
def takeFaults (chip : Nat) (map : BitVec 16) (s : State) : State :=
  (List.range 16).foldl (fun s i =>
    let p := 16 * chip + i
    let on := map.getLsbD i
    let was := (getChan s p).headFault
    if on = was then s
    else
      let s := updChan p (fun c => { c with headFault := on }) s
      if on then resetChannel p 8 2 s else s) s

/-- HEAD_FRONT_POLL: the next chip's slot; `silent` says that its last command has had no valid status frame. A register
write takes the place of the poll (R586, R588). -/
def execHeadFrontPoll (silent : Bool) (s : State) : Result :=
  let k := s.tce.hcfChip % 8
  let n := if silent then Tab.getD s.tce.hcfSilent k 0 + 1 else 0
  let q := Tab.getD s.tce.hcfSeq k 0
  let w := s.tce.hcfWrites.find? fun w => w.1 == k
  let frame := match w with
    | some (_, r, d) => commandFrame k 0 (256 * r + d) q
    | none => commandFrame k 4 0 q
  let s := emit (.hcf frame) { s with tce := { s.tce with
    hcfChip := (k + 1) % 8, hcfSilent := Tab.put s.tce.hcfSilent k n, hcfSeq := Tab.put s.tce.hcfSeq k ((q + 1) % 16),
    hcfWrites := match w with | some x => s.tce.hcfWrites.erase x | none => s.tce.hcfWrites } }
  .next (if 3 ≤ n then takeFaults k 0xFFFF#16 s else s)

/-- HEAD_FRONT_STATUS: a frame is checked as on the ASL, and its fault map taken (R465, R586, R588). -/
def execHeadFrontStatus (frame : StatusFrame) (s : State) : Result :=
  let k := frame.address
  let echo := (Tab.getD s.tce.hcfSeq k 0 + 15) % 16
  if !statusCrc frame || decide (7 < k) || decide (frame.ftype ≠ 2) || decide (frame.echo ≠ echo) then
    .next { s with tce := { s.tce with hcfErrors := sat32 (s.tce.hcfErrors + 1) } }
  else .next (takeFaults k frame.value { s with tce := { s.tce with hcfSilent := Tab.put s.tce.hcfSilent k 0 } })

/-- TEMPERATURE_SAMPLE: every millisecond, in eighths of a degree; the highest since power-on is kept (R593). -/
def execTemperatureSample (eighths : BitVec 16) (s : State) : Result :=
  let top := match s.health.tempMax with
    | some m => if m.slt eighths then eighths else m
    | none => eighths
  .next { s with health := { s.health with temp := eighths, tempMax := some top } }

end Sys2Proof.Machine
end

