-- ==== Sys2Proof/Machine/FlashCtl.lean ====
section
/-! DEFINITION. The Flash Controller: descriptors, block states, retirement, suspended erases, brown-outs and
initialisation (R502-R521, R531, R532). -/

namespace Sys2Proof.Machine

/-- Region code of a block at manufacture (R503). -/
def flashRegion (b : Nat) : Nat :=
  if b < 2 then 0 else if b < 10 then 1 else if b < 170 then 2 else if b < 330 then 3 else if b < 458 then 4
  else if b < 970 then 5 else if b < 1920 then 6 else 7

/-- The entry of a block (R511). -/
def getBlock (s : State) (b : Nat) : FlashBlock := Tab.getD s.flash.blocks b { region := flashRegion b }

/-- Replace the entry of a block. -/
def setBlock (b : Nat) (v : FlashBlock) (s : State) : State := { s with flash := { s.flash with blocks := Tab.put s.flash.blocks b v } }

/-- Change the entry of a block. -/
def updBlock (b : Nat) (g : FlashBlock → FlashBlock) (s : State) : State := setBlock b (g (getBlock s b)) s

/-- State codes (R511). -/
def BlockState.code : BlockState → Nat
  | .free => 0 | .opened => 1 | .full => 2 | .erasing => 3 | .incomplete => 4 | .retired => 5

/-- The 64-bit entry of a block as it is read (R511). -/
def FlashBlock.bits (v : FlashBlock) : Nat :=
  packMsb [(3, v.state.code), (1, v.refresh.toNat), (6, v.nextPage % 64), (2, 0), (4, v.region), (16, 0), (32, v.eraseCount % 2 ^ 32)]

/-- Spare blocks unassigned (R514). -/
def spareBlocks (s : State) : List Nat :=
  (List.range' 1920 128).filter fun b => (getBlock s b).region = 7 && (getBlock s b).state != .retired

/-- The condition of `ReplaceCauses` bit 2 (R514). -/
def wornHolds (s : State) : Bool := decide (param s 0x7000 4 ≤ s.flash.retired)

/-- Raise FLASH_WORN when its condition begins (R441, R514). -/
def wornCheck (before : Bool) (s : State) : State := if !before && wornHolds s then setCause 2 (raise 0x708 [] s) else s

/-- Retire a block; a spare takes over the region of blocks of regions 1 to 6 (R503, R512, R514). -/
def retireBlock (b : Nat) (s : State) : State :=
  let v := getBlock s b
  let worn := wornHolds s
  let s := setBlock b { v with state := .retired } s
  let s := raise 0x704 [(11, b)] { s with flash := { s.flash with retired := s.flash.retired + 1 } }
  let s := if v.region = 0 ∨ v.region = 7 then s
    else match spareBlocks s with
      | x :: _ => updBlock x (fun y => { y with region := v.region }) { s with flash := { s.flash with sparesUsed := s.flash.sparesUsed + 1 } }
      | [] => if s.flash.sparesOut then s else raise 0x705 [] { s with flash := { s.flash with sparesOut := true } }
  wornCheck worn s

/-- Post the completion record of a descriptor, with the tag of the request (R18, R504, R506, R508, R520, R531). -/
def postFlash (x : FlashDesc) (status retry maxErr total : Nat) (m : BitVec 64) (s : State) : State :=
  let r := flashRecord x.descId status retry maxErr total m
  let s := emit (.flash r x.tag) s
  let s := if x.diag then { s with flash := { s.flash with diagResult := r } } else s
  match x.core with
  | some c => { s with flash := { s.flash with stalled := s.flash.stalled.filter (· != c) } }
  | none => s

/-- A descriptor ends with a status and no data; the metadata of a READ that delivers none are free (R506, R507). -/
def refuseFlash (x : FlashDesc) (status : Nat) (s : State) : State :=
  if x.op = 1 then postFlash x status 0 0 0 (BitVec.ofNat 64 (Config.freeNat s.drawn)) (drew s)
  else postFlash x status 0 0 0 0 s

/-- Reserved fields are 0, the Op exists, Raw and the diagnostic entry agree with R505 and R531. -/
def descValid (x : FlashDesc) : Bool :=
  (x.op = 1 || x.op = 2 || x.op = 3) && x.field 19 5 = 0 && x.field 43 5 = 0 && x.field 54 10 = 0 && x.field 98 30 = 0 &&
    x.field 192 64 = 0 && (x.op = 2 || x.meta8 = 0#64) && (x.op ≠ 3 || (x.page = 0 && x.addr = 0)) &&
    (x.diag || !(x.op = 1 && x.raw)) &&
    !(x.diag && (decide (x.block < 2) || (x.op = 1 && x.raw && decide (0x10000000 ≤ x.addr))))

/-- The status under which a descriptor that may start is refused, if any (R507, R512, R513, R516-R518). -/
def flashRefusal (s : State) (x : FlashDesc) : Option Nat :=
  let v := getBlock s x.block
  let underErase := match s.flash.erase with | some e => decide (e.block = x.block) | none => false
  if !descValid x then some 0x0A
  else if underErase then some 0x02
  else if v.state = .retired then some 0x08
  else if x.op = 1 then (if v.state = .incomplete || v.state = .erasing then some 0x07 else none)
  else if s.flash.brownout then some 0x03
  else if x.op = 3 then none
  else if v.state = .incomplete || v.state = .erasing then some 0x07
  else if v.sealed || v.state = .full || x.page ≠ v.nextPage then some 0x09
  else none

/-- The descriptor that may start next; none while the flash domain is being reset (R508, R515, R516, R546). -/
def nextDesc (s : State) : Option FlashDesc :=
  if s.flash.op.isSome || resetting s 4 then none
  else match s.flash.erase with
    | some _ => if s.flash.suspended then s.flash.queue.find? (·.urgent) else none
    | none => s.flash.queue.head?

/-- Start a descriptor that is not refused; an Urgent ERASE served while an erase is suspended runs to its end (R508, R512,
R515). -/
def beginFlash (x : FlashDesc) (s : State) : State :=
  if x.op = 3 then
    let s := updBlock x.block (fun v => { v with state := .erasing, eraseCount := v.eraseCount + 1 }) s
    if s.flash.erase.isSome then { s with flash := { s.flash with op := some x } }
    else { s with flash := { s.flash with erase := some x, suspended := false } }
  else
    let s := if x.op = 2 then updBlock x.block (fun v => { v with state := .opened }) s else s
    { s with flash := { s.flash with op := some x } }

/-- The queue takes held descriptors while it has room: it holds 64 (R504). -/
def refillFlash (s : State) : State :=
  let room := 64 - s.flash.queue.length
  { s with flash := { s.flash with queue := s.flash.queue ++ s.flash.held.take room, held := s.flash.held.drop room } }

/-- Start or refuse descriptors while one may start. -/
def flashRun : Nat → State → State
  | 0, s => s
  | n + 1, s =>
    match nextDesc s with
    | none => s
    | some x =>
      let t := refillFlash { s with flash := { s.flash with queue := s.flash.queue.erase x } }
      match flashRefusal s x with
      | some st => flashRun n (refuseFlash x st t)
      | none => flashRun n (beginFlash x t)

/-- Let the controller go on. -/
def flashGo (s : State) : State :=
  let s := refillFlash s
  flashRun (s.flash.queue.length + s.flash.held.length + 1) s

/-- A management core submits a descriptor under a tag of its own; with the queue full it is held (R20, R504, R543). -/
def submitFlash (x : FlashDesc) (s : State) : State :=
  let t := agentTag (agCore + x.core.getD 0) s
  flashGo { t.2 with flash := { t.2.flash with held := t.2.flash.held ++ [{ x with tag := t.1 }] } }

/-- FLASH_READ (R505, R508). -/
def execFlashRead (desc : BitVec 256) (s : State) : Result := .next (submitFlash { d := desc } s)

/-- FLASH_PROGRAM (R505, R508, R512). -/
def execFlashProgram (desc : BitVec 256) (s : State) : Result := .next (submitFlash { d := desc } s)

/-- FLASH_ERASE (R505, R508, R512). -/
def execFlashErase (desc : BitVec 256) (s : State) : Result := .next (submitFlash { d := desc } s)

/-- FLASH_DIAG_DESCRIPTOR: in MAKER and RETURN (R531). -/
def execFlashDiagDescriptor (desc : BitVec 256) (s : State) : Result :=
  if s.lc.state = 1 || s.lc.state = 3 then .next (submitFlash { d := desc, diag := true } s) else .next s

/-- The first read step at which all four codewords decode, from `k` on; none with the last step tried (R510). -/
def readStep (limit : Nat) : Nat → Nat → List (List Nat) → Option Nat × Nat
  | 0, k, _ => (none, k)
  | n + 1, k, l =>
    let e := l.getD 0 []
    if e.length = 4 && e.all (fun x => decide (x ≤ 40)) then (some k, k)
    else if limit ≤ k then (none, k)
    else readStep limit n (k + 1) (l.drop 1)

/-- FLASH_READ_DONE: the bit errors of the four codewords at each read step, and the page's metadata (R509, R510). -/
def execFlashReadDone (errors : List (List Nat)) (meta8 : List Byte) (s : State) : Result :=
  match s.flash.op with
  | none => .next s
  | some x =>
    if x.op ≠ 1 then .next s
    else
      let s := { s with flash := { s.flash with op := none } }
      let m : BitVec 64 := match Tab.get? s.flash.pages (x.block * 64 + x.page) with
        | some (some v) => v
        | _ => BitVec.ofNat 64 (leNat (meta8.take 8))
      if x.raw then .next (flashGo (postFlash x 0 0 0 0 m s))
      else
        let r := readStep (if x.noRetry then 0 else param s 0x7000 2) 8 0 errors
        match r.1 with
        | some k =>
          let e := errors.getD k []
          let top := e.foldl max 0
          let s := { s with flash := { s.flash with correctedBits := s.flash.correctedBits + e.sum } }
          if param s 0x7000 1 ≤ top then
            let s := updBlock x.block (fun v => { v with refresh := true }) (raise 0x700 [(11, x.block), (6, x.page)] s)
            .next (flashGo (postFlash x 1 k top e.sum m s))
          else .next (flashGo (postFlash x 0 k top e.sum m s))
        | none =>
          let good := (errors.getD r.2 []).filter fun n => decide (n ≤ 40)
          let s := raise 0x701 [(11, x.block), (6, x.page)]
            { s with flash := { s.flash with uncorrectable := sat32 (s.flash.uncorrectable + 1), correctedBits := s.flash.correctedBits + good.sum } }
          .next (flashGo (postFlash x 4 r.2 (good.foldl max 0) good.sum (BitVec.ofNat 64 (Config.freeNat s.drawn)) (drew s)))

/-- The page of a program in progress is no longer erased: programmed with its metadata, or programmed and invalid. -/
def pageUsed (x : FlashDesc) (m : Option (BitVec 64)) (s : State) : State :=
  let s := { s with flash := { s.flash with pages := Tab.put s.flash.pages (x.block * 64 + x.page) m } }
  updBlock x.block (fun v => { v with nextPage := x.page + 1, state := if x.page = 63 then .full else .opened }) s

/-- FLASH_PROGRAM_DONE (R512, R514). -/
def execFlashProgramDone (ok : Bool) (s : State) : Result :=
  match s.flash.op with
  | none => .next s
  | some x =>
    if x.op ≠ 2 then .next s
    else
      let s := { s with flash := { s.flash with op := none } }
      if ok then .next (flashGo (postFlash x 0 0 0 0 0 (pageUsed x (some x.meta8) s)))
      else .next (flashGo (postFlash x 5 0 0 0 0 (retireBlock x.block (raise 0x702 [(11, x.block), (6, x.page)] (pageUsed x none s)))))

/-- The erase that runs now: one served while another is suspended, or one that is not suspended (R508, R515). -/
def runningErase (s : State) : Option FlashDesc :=
  match s.flash.op with
  | some x => if x.op = 3 then some x else none
  | none => if s.flash.suspended then none else s.flash.erase

/-- The running erase is over. -/
def eraseOver (s : State) : State :=
  if s.flash.op.isSome then { s with flash := { s.flash with op := none } } else { s with flash := { s.flash with erase := none } }

/-- FLASH_ERASE_DONE (R512, R514). -/
def execFlashEraseDone (ok : Bool) (s : State) : Result :=
  match runningErase s with
  | none => .next s
  | some x =>
    let v := getBlock s x.block
    let s := eraseOver s
    if ok then
      let pages := Tab.keep s.flash.pages fun k _ => decide (k / 64 ≠ x.block)
      let s := { s with flash := { s.flash with pages := pages } }
      let s := setBlock x.block { v with state := .free, refresh := false, nextPage := 0, sealed := false } s
      let s := if param s 0x7000 3 ≤ v.eraseCount then retireBlock x.block s else s
      .next (flashGo (postFlash x 0 0 0 0 0 s))
    else .next (flashGo (postFlash x 6 0 0 0 0 (retireBlock x.block (raise 0x703 [(11, x.block)] s))))

/-- An Urgent descriptor waits, other than for the block being erased while the erase runs (R508, R515). -/
def urgentWaits (s : State) (b : Nat) : Bool := s.flash.queue.any fun x => x.urgent && (s.flash.suspended || x.block != b)

/-- ERASE_SUSPEND (R515). -/
def execEraseSuspend (s : State) : Result :=
  match s.flash.erase with
  | none => .next s
  | some x =>
    if s.flash.suspended || !urgentWaits s x.block then .next s
    else .next (flashGo { s with flash := { s.flash with suspended := true } })

/-- ERASE_RESUME (R515, R516). -/
def execEraseResume (s : State) : Result :=
  match s.flash.erase with
  | none => .next s
  | some x =>
    if !s.flash.suspended || s.flash.op.isSome || urgentWaits s x.block || s.flash.brownout then .next s
    else .next { s with flash := { s.flash with suspended := false } }

/-- The Urgent READ of an instruction fetch that misses: DescId is the core, the buffer is at address 0 of the management
region (R520). -/
def fetchDesc (core block page : Nat) : BitVec 256 := BitVec.ofNat 256 (packLsb [(16, core), (1, 1), (7, 0), (8, 1), (11, block), (5, 0), (6, page)])

/-- FETCH_MISS: the core stalls until its READ ends (R520). -/
def execFetchMiss (core : Fin 4) (block : Fin 2048) (page : Fin 64) (s : State) : Result :=
  if s.flash.stalled.contains core.val then .next s
  else
    let s := { s with flash := { s.flash with stalled := insertUp core.val s.flash.stalled } }
    .next (submitFlash { d := fetchDesc core.val block.val page.val, core := some core.val } s)

/-- The interrupted program or erase ends; its page or block stays unusable until an erase (R517, R518). -/
def interruptFlash (s : State) : State :=
  let s := match s.flash.op with
    | some x =>
      if x.op = 2 then
        let s := pageUsed x none { s with flash := { s.flash with op := none } }
        postFlash x 3 0 0 0 0 (updBlock x.block (fun v => { v with sealed := true, refresh := true }) s)
      else if x.op = 3 then postFlash x 3 0 0 0 0 { s with flash := { s.flash with op := none } }
      else s
    | none => s
  match s.flash.erase with
  | some x => postFlash x 3 0 0 0 0 { s with flash := { s.flash with erase := none, suspended := false } }
  | none => s

/-- VFL_BROWNOUT: waiting PROGRAMs and ERASEs end without starting, READs go on (R517, R518). -/
def execVflBrownout (s : State) : Result :=
  if s.flash.brownout then .next s
  else
    let s := raise 0x706 [] { s with flash := { s.flash with brownout := true, brownouts := sat32 (s.flash.brownouts + 1) } }
    let s := interruptFlash s
    let out := s.flash.queue.filter fun x => x.op = 2 || x.op = 3
    let s := { s with flash := { s.flash with queue := s.flash.queue.filter fun x => !(x.op = 2 || x.op = 3) } }
    .next (flashGo (out.foldl (fun s x => refuseFlash x 3 s) s))

/-- BROWNOUT_RELEASE (R517). -/
def execBrownoutRelease (s : State) : Result :=
  if s.flash.brownout then .next (flashGo { s with flash := { s.flash with brownout := false } }) else .next s

/-- Initialisation of the flash domain: every block left ERASING becomes INCOMPLETE (R512, R513). -/
def flashInit (s : State) : State :=
  (s.flash.blocks.filter fun p => p.2.state == .erasing).foldl (fun s p =>
    raise 0x707 [(11, p.1)] (updBlock p.1 (fun v => { v with state := .incomplete }) s)) s

/-- The operations in progress stop with power or a reset; a page being programmed is programmed and invalid (R518, R519). -/
def stopFlash (s : State) : State :=
  let s := match s.flash.op with
    | some x => if x.op = 2 then pageUsed x none s else s
    | none => s
  { s with flash := { s.flash with op := none, erase := none, suspended := false, queue := [] } }

/-- A reset of the flash domain: its queue is emptied, the submitters held stay held, its counters start again (R482, R519, R546). -/
def flashReset (s : State) : State :=
  let all := s.flash.op.toList ++ s.flash.erase.toList ++ s.flash.queue
  let s := dropOwners (· == 0xD0) (all.foldl (fun s x => refuseFlash x 0x0B s) (stopFlash s))
  { s with flash := { s.flash with correctedBits := 0, uncorrectable := 0, brownouts := 0 } }

end Sys2Proof.Machine
end

