-- ==== Sys2Proof/Machine/DictStore.lean ====
section
/-! DEFINITION. The values of the dictionary as they are kept: a persisted write and what follows from it at once, defaults
restored, and values that a management reset loses (R12, R239, R411, R470, R479, R482, R483, R487, R514, R536, R557). -/

namespace Sys2Proof.Machine

/-- End every Staxa session; its copies go with it (R487, R496, R500). -/
def endSessions (s : State) : State := { s with staxa := { s.staxa with sessions := [] } }

/-- What a persisted value does at once, beyond being read by the blocks that use it: the rule of failed members, the
watermarks, the conditions of the replacement causes. -/
def rwpEffect (satBefore wornBefore : Bool) (index sub : Nat) (s : State) : State :=
  if index = 0x4870 ∧ sub = 1 then judgeMembers s
  else if index = 0x2404 then updAbove s
  else if index = 0x5000 ∧ sub = 6 then dispatchAll s
  else if index = 0x6000 ∧ sub = 20 then satCheck satBefore s
  else if index = 0x7000 ∧ sub = 4 then wornCheck wornBefore s
  else s

/-- Store a value that has been persisted, or the request to restore the defaults (R482, R483, R557). -/
def storeRwp (op : DictOp) (s : State) : State :=
  if op.index = 0x1100 ∧ op.sub = 13 then { s with dict := { s.dict with restore := true } }
  else if op.index = 0x8000 then
    { s with dict := { s.dict with routes := Tab.put s.dict.routes op.source (leNat op.value % 16) } }
  else
    rwpEffect (satHolds s) (wornHolds s) op.index op.sub
      { s with dict := { s.dict with vals := Tab.put s.dict.vals (entryKey op.index op.sub) op.value } }

/-- An entry is kept in flash (R479, R483). -/
def isRwp (key : Nat) : Bool := match findEntry (key / 256) (key % 256) with | some e => e.acc == .rwp | none => false

/-- Values that are not RWP return to their defaults (R479). -/
def dropVolatile (s : State) : State := { s with dict := { s.dict with vals := Tab.keep s.dict.vals fun k _ => isRwp k } }

/-- Every RWP entry returns to its default (R483). -/
def restoreDefaults (s : State) : State :=
  { s with dict := { s.dict with vals := Tab.keep s.dict.vals (fun k _ => !isRwp k), routes := [], restore := false } }

/-- The session-scope copies of every function return to their defaults (R479). -/
def dropCopies (s : State) : State :=
  { s with host := { s.host with fns := s.host.fns.map fun p =>
    (p.1, { p.2 with streamSel := 0, keySel := 0, eventSel := 0, logIdx := 0, blockSel := 0 }) } }

/-- Whether a persist that is cut off leaves the new value is open (R481, R483). -/
def cutPersist (s : State) : State :=
  if !s.dict.persisting then s
  else
    let kept := Config.freeNat s.drawn % 2 == 1
    let s := drew s
    if kept then (match s.dict.queue with | op :: _ => storeRwp op s | [] => s) else s

/-- End the operations of the dictionary server: commands and windows get TARGET_RESET (R481, R546). -/
def endDictOps (s : State) : State :=
  let ops := s.dict.queue ++ s.resets.flatMap fun r => r.waits.map fun x => { src := x, isWrite := true, index := 0, sub := 0, value := [] }
  let s := cutPersist s
  let s := { s with dict := { s.dict with queue := [], persisting := false, armed := false },
                    resets := s.resets.map fun r => { r with waits := [] } }
  ops.foldl (fun s op => match op.src with
    | .cmd slot => finish slot .targetReset bMgmt s
    | .window f => updFn f (fun x => { x with win := { x.win with busy := false, status := .targetReset } }) s
    | .staxa _ => s
    | .row => s) s

end Sys2Proof.Machine
end

