-- ==== Sys2Proof/Machine/Firmware.lean ====
section
/-! DEFINITION. Firmware images, Gloves, boot, activation, and the reset of the management domain (R103, R142, R143, R479,
R501, R522-R530, R546-R548). -/

namespace Sys2Proof.Machine

/-- A little-endian field of a manifest. -/
def mfield (m : List Byte) (i n : Nat) : Nat := leNat ((m.drop i).take n)

/-- Firmware signer keys that a life-cycle state admits (R562, R563). -/
def signerAdmits (lc key : Nat) : Bool := if lc = 4 then false else if lc = 2 then decide (key ≤ 1) else decide (key ≤ 2)

/-- Checks 2 to 6 of R524 on a manifest: the first reason that fails. -/
def manifestFault (s : State) (m : List Byte) : Option Nat :=
  let key := mfield m 58 1
  let point := Config.signerKey key
  if mfield m 0 4 ≠ 0x57464C50 || mfield m 4 4 ≠ 1 || mfield m 8 2 ≠ 0x80 || mfield m 10 1 ≠ 0xB1 || decide (1 < mfield m 11 1) ||
      mfield m 17 3 ≠ 0 || mfield m 60 388 ≠ 0 then some 2
  else if !(mfield m 59 1).testBit s.lc.state then some 3
  else if !signerAdmits s.lc.state key then some 4
  else if !Crypto.ecdsaOk (point.1.toNat, point.2.toNat) (m.take 448) ((m.drop 448).take 64) then some 5
  else if mfield m 16 1 < s.fw.floor then some 6
  else none

/-- The reason to reject the staged image (R524). -/
def stagedFault (s : State) : Option Nat :=
  let m := s.fw.staged.take 512
  let body := s.fw.staged.drop 512
  if s.fw.stagedState ≠ 2 || decide (s.fw.staged.length < 512) || s.fw.staged.length ≠ 512 + mfield m 20 4 then some 1
  else match manifestFault s m with
    | some r => some r
    | none => if Crypto.sha256 body ≠ (m.drop 24).take 32 then some 7 else none

/-- The image slot that is not active (R523). -/
def otherSlot (s : State) : Nat := if s.fw.active = some 0 then 1 else 0

/-- Whether an image slot holds the image its Glove describes. -/
def imageOk (s : State) (slot : Nat) : Bool := if slot = 0 then s.fw.image0 else s.fw.image1

/-- Set it. -/
def setImage (slot : Nat) (ok : Bool) (s : State) : State :=
  if slot = 0 then { s with fw := { s.fw with image0 := ok } } else { s with fw := { s.fw with image1 := ok } }

/-- A Glove is valid; the factory Glove's manifest is not given and passes wherever a signer key is admitted (R525). -/
def gloveValid (s : State) (g : Glove) : Bool :=
  if g.manifest.isEmpty then s.lc.state != 4 else (manifestFault s g.manifest).isNone

/-- The valid Gloves, the higher Sequence first (R526). -/
def validGloves (s : State) : List Glove :=
  let l := (s.fw.gloveA.toList ++ s.fw.gloveB.toList).filter (gloveValid s)
  match l with
  | [a, b] => if a.seq < b.seq then [b, a] else [a, b]
  | _ => l

/-- The highest valid Sequence (R525). -/
def topSeq (s : State) : Nat := (validGloves s).foldl (fun m g => max m g.seq) 0

/-- Write the Glove that does not hold the higher Sequence (R527). -/
def putGlove (g : Glove) (s : State) : State :=
  let a := match s.fw.gloveA with | some x => if gloveValid s x then x.seq else 0 | none => 0
  let b := match s.fw.gloveB with | some x => if gloveValid s x then x.seq else 0 | none => 0
  if b < a then { s with fw := { s.fw with gloveB := some g } } else { s with fw := { s.fw with gloveA := some g } }

/-- The Glove that does not hold the higher Sequence is left invalid (R527). -/
def spoilGlove (s : State) : State :=
  let a := match s.fw.gloveA with | some x => if gloveValid s x then x.seq else 0 | none => 0
  let b := match s.fw.gloveB with | some x => if gloveValid s x then x.seq else 0 | none => 0
  if b < a then { s with fw := { s.fw with gloveB := none } } else { s with fw := { s.fw with gloveA := none } }

/-- Boot: the valid Glove with the higher Sequence whose image is good and has not failed to start three times; with none the
device runs in recovery (R526, R529). -/
def boot (s : State) : State :=
  let tired := fun (g : Glove) => decide (3 ≤ s.fw.starts) && g.seq = s.fw.failedSeq
  match (validGloves s).find? fun g => imageOk s g.slot && !tired g with
  | some g =>
    let fallback := decide (3 ≤ s.fw.starts) && decide (g.seq < s.fw.failedSeq)
    { s with fw := { s.fw with active := some g.slot, activeSeq := g.seq, starting := true, fallbackBoot := fallback } }
  | none => { s with fw := { s.fw with active := none, starting := false, fallbackBoot := false } }

/-- What a restart of the management cores ends and loses, whatever starts it; their requests and buffers go (R25, R195, R201,
R479, R483, R501, R529, R530, R546, R564). -/
def mgmtLoss (s : State) : State :=
  let s := dropCopies (dropVolatile (endSessions (endDictOps (dropOwners (fun o => decide (0xE0 ≤ o ∧ o ≤ 0xE3)) s))))
  let s := if s.dict.restore then restoreDefaults s else s
  let free := fun (x : FlashDesc) => { x with core := none }
  { s with
    fw := { s.fw with staged := [], stagedState := 0 }, lc := { s.lc with jtagUsed := false, uartUsed := false },
    flash := { s.flash with stalled := [], op := s.flash.op.map free, queue := s.flash.queue.map free,
                              held := s.flash.held.map free } }

/-- End of an activation: its completion, where one is still wanted; ACTIVATING is left when it is posted (R103, R142, R143). -/
def endActivateWith (a : Activate) (st : Status) (spec : BitVec 96) (e : ErrInfo) (s : State) : State :=
  let next := if (getCmd s a.slot).isSome then some { a with step := 6 } else none
  complete a.slot (fun c => { baseCpl c st with specific := spec }) e
    (onPost a.slot .activated { s with fw := { s.fw with activate := next } })

/-- End of an activation with the Sequence that its completion names, or none (R142, R529). -/
def endActivate (a : Activate) (st : Status) (seq : Option Nat) (event : Option Nat) (s : State) : State :=
  endActivateWith a st (match seq with | some n => BitVec.ofNat 96 (n % 2 ^ 32) | none => 0#96) { block := bMgmt, event := event } s

/-- A reset of the management domain: an activation before its Glove swap ends with TARGET_RESET; EVQ-M and the descriptor queue of
the Flash Controller, clock crossings of the domain, are emptied; the Staxa counters start again; the cores boot (R8, R33, R103,
R482, R504, R526, R544, R546). -/
def mgmtDown (s : State) : State :=
  let s := match s.fw.activate with
    | some a =>
      if a.step < 5 then endActivateWith a .targetReset 0 { response := Response.targetReset.code, block := bMgmt } s else s
    | none => s
  let s := mgmtLoss { s with ev := { s.ev with mgmt := [], mgmtLost := 0 }, flash := { s.flash with queue := [], held := [] } }
  boot { s with staxa := { s.staxa with dropped := 0, authFailures := 0 } }

/-- A buffer of the refused class: one is taken, or the request is refused and counted (R188, R194). -/
def askRefused (owner size : Nat) (tag : BitVec 128) (s : State) : State × Option Nat :=
  match choosePool s 2 size with
  | some p =>
    let r := takeBuf owner p s
    (answer owner .done (some r.2) tag r.1, some r.2)
  | none =>
    let fits := decide (1 ≤ size ∧ size ≤ 25165824)
    let s := if fits then updPool ((poolsFor size).headD 4) (fun x => { x with refused := sat32 (x.refused + 1) }) s else s
    (answer owner .poolEmpty none tag s, none)

/-- A piece of an image, held in a management buffer, is programmed into the slot that is not active and read back (R193, R194,
R523). -/
def stagePiece (slot off : Nat) (fin : Bool) (piece : List Byte) (flashOk : Bool) (s : State) : State :=
  let t := agentTag agCore s
  let r := askRefused 0xE0 piece.length t.1 t.2
  match r.2 with
  | none => complete slot (fun c => baseCpl c .bufferExhausted) { response := Response.poolEmpty.code, block := bBpm } r.1
  | some id =>
    let s := setImage (otherSlot s) false (freeOwn 0xE0 id t.1 r.1)
    if !flashOk then
      finish slot .internalError bMgmt { s with fw := { s.fw with staged := [], stagedState := 0 } }
    else
      let old := if off = 0 then [] else s.fw.staged
      let s := { s with fw := { s.fw with staged := old ++ piece, stagedState := if fin then 2 else 1 } }
      finish slot .success 0 (raiseIf fin 0x710 [] s)

/-- FW_DOWNLOAD: a list is read first; then one piece, of the size that the command gives, is staged (R63, R115, R523). -/
def execFwDownload (slot : SlotId) (piece : List Byte) (flashOk : Bool) (s : State) : Result :=
  .next (onCmd slot.val [opFwDownload] (fun c s =>
    let off := eImageOffset c.entry
    let fin := eFinal c.entry
    let at' := if off = 0 then 0 else s.fw.staged.length
    if eDataMode c.entry = 2 && c.sg.isEmpty then setStage slot.val .lists s
    else if piece.length ≠ (c.sg.map (·.2)).sum then s
    else if (off ≠ 0 && (off ≠ at' || s.fw.stagedState = 0)) || decide (2 ^ 25 < off + piece.length) ||
        (!fin && decide (piece.length % 4096 ≠ 0)) then finish slot.val .invalidField bMgmt s
    else stagePiece slot.val off fin piece flashOk s) s)

/-- FW_ACTIVATE: the checks, then ACTIVATING and the drain (R103, R142, R524). -/
def execFwActivate (slot : SlotId) (s : State) : Result :=
  .next (onCmd slot.val [opFwActivate] (fun c s =>
    match stagedFault s with
    | some r =>
      let s := raise 0x712 [(8, r)] { s with fw := { s.fw with lastResult := 2 } }
      complete slot.val (fun c => baseCpl c .firmwareRejected) { block := bMgmt, event := some 0x712 } s
    | none =>
      if s.fw.activate.isSome then finish slot.val .stateConflict bMgmt s
      else
        let s := { s with fw := { s.fw with activate := some { slot := slot.val, seq := c.seq, step := 3, image := otherSlot s } } }
        settle (setStage slot.val .waiting s)) s)

/-- FW_ACTIVATE_SWAP: the Glove is written and read back, or its write has failed twice; the cores restart from the new image. The
image staged is checked once more: an FW_DOWNLOAD fetched before FW_ACTIVATE may have replaced it at step 3 (log entry 101)
(R16, R142, R501, R524, R527). -/
def execFwActivateSwap (gloveOk : Bool) (s : State) : Result :=
  match s.fw.activate with
  | none => .next s
  | some a =>
    if a.step ≠ 4 then .next s
    else if (stagedFault s).isSome then
      .next (endActivate a .firmwareRejected none (some 0x712)
        (raise 0x712 [(8, (stagedFault s).getD 0)] { s with fw := { s.fw with lastResult := 2 } }))
    else if !gloveOk then
      .next (endActivate a .internalError none (some 0x714) (raise 0x714 [] (spoilGlove { s with fw := { s.fw with lastResult := 4 } })))
    else
      let g : Glove := { seq := topSeq s + 1, slot := a.image, manifest := s.fw.staged.take 512 }
      let s := setImage a.image true (putGlove g s)
      let s := mgmtLoss { s with fw := { s.fw with activate := some { a with step := 5 }, starts := 0 } }
      .next { s with fw := { s.fw with active := some a.image, activeSeq := g.seq, starting := true, fallbackBoot := false } }

/-- The manifest of the Glove booted. -/
def activeManifest (s : State) : List Byte :=
  match (s.fw.gloveA.toList ++ s.fw.gloveB.toList).find? fun g => g.seq == s.fw.activeSeq with
  | some g => g.manifest
  | none => []

/-- A fallback image has started: a new Glove names its slot, and a pending FW_ACTIVATE is rejected (R529). -/
def fallbackStarted (s : State) : State :=
  let g : Glove := { seq := s.fw.failedSeq + 1, slot := s.fw.active.getD 0, fallback := true, manifest := activeManifest s }
  let booted := s.fw.activeSeq
  let s := putGlove g s
  let s := raise 0x713 [] { s with fw := { s.fw with fallbacks := sat32 (s.fw.fallbacks + 1), lastResult := 3, fallbackBoot := false } }
  match s.fw.activate with
  | some a => if a.step = 5 then endActivate a .firmwareRejected (some booted) (some 0x713) s else s
  | none => s

/-- The new image of an activation has started (R528). -/
def activated (a : Activate) (s : State) : State :=
  let m := activeManifest s
  let floor := if (mfield m 11 1).testBit 0 then max s.fw.floor (mfield m 16 1) else s.fw.floor
  let s := raise 0x711 [] { s with fw := { s.fw with floor := floor, lastResult := 1 } }
  endActivate a .success (some s.fw.activeSeq) none s

/-- FW_START_CONFIRMED (R528, R529). -/
def execFwStartConfirmed (s : State) : Result :=
  if !s.fw.starting then .next s
  else
    let s := { s with fw := { s.fw with starting := false, starts := 0 } }
    if s.fw.fallbackBoot then .next (fallbackStarted s)
    else match s.fw.activate with
      | some a => .next (if a.step = 5 then activated a s else s)
      | none => .next s

/-- Note a reset of a domain that runs; a second one merges into it, and its cause is the first (R546, R548). -/
def noteReset (code cause : Nat) (wait : List DictSrc) (s : State) : State :=
  if s.resets.any fun r => r.code == code then
    { s with resets := s.resets.map fun r => if r.code = code then { r with waits := r.waits ++ wait } else r }
  else { s with resets := s.resets ++ [{ code := code, cause := cause, waits := wait }] }

/-- FW_START_TIMEOUT: the management domain is reset; an activation that leaves the device in recovery is rejected (log entry 105)
(R526, R529, R548). -/
def execFwStartTimeout (s : State) : Result :=
  if !s.fw.starting then .next s
  else
    let n := if s.fw.failedSeq = s.fw.activeSeq then s.fw.starts + 1 else 1
    let s := { s with fw := { s.fw with starts := n, failedSeq := s.fw.activeSeq } }
    let s := mgmtDown (noteReset 5 6 [] s)
    match s.fw.activate with
    | some a => .next (if a.step = 5 && s.fw.active.isNone then endActivate a .firmwareRejected none none s else s)
    | none => .next s

/-- WATCHDOG_EXPIRY (R547, R548). -/
def execWatchdogExpiry (s : State) : Result := .next (mgmtDown (noteReset 5 7 [] s))

end Sys2Proof.Machine
end

