-- ==== Sys2Proof/Machine/Events.lean ====
section
/-! DEFINITION. The host's registers of EVQ-H and the event log (R537-R542). -/

namespace Sys2Proof.Machine

/-- The oldest entry of the highest priority present, and the queue without it (R31, R538). -/
def popEv (q : List EvEntry) : Option (EvEntry × List EvEntry) :=
  match q.foldl (fun (m : Option Nat) e => match m with
    | some p => some (min p e.prio)
    | none => some e.prio) none with
  | none => none
  | some p => match q.find? fun e => e.prio == p with
    | some e => some (e, q.erase e)
    | none => none

/-- EVQ_POP: an entry with a bad word, one parity bit to each 32-bit word, is delivered with its poison tag set (R29, R31, R538). -/
def execEvqPop (parity : BitVec 4) (s : State) : Result :=
  match popEv s.ev.host with
  | none => .next { s with ev := { s.ev with entry := 0, entryValid := false, poison := false } }
  | some (e, q) =>
    let bad := e.poison || !tagIntact e.bits parity
    .next { s with ev := { s.ev with
      host := q, entry := e.bits, entryValid := true, poison := bad,
      hostPoisoned := if bad then sat32 (s.ev.hostPoisoned + 1) else s.ev.hostPoisoned } }

/-- EVQ_LOST_CLEAR (R537). -/
def execEvqLostClear (s : State) : Result := .next { s with ev := { s.ev with lost := 0 } }

/-- EVQ_ARM: the message at once when entries wait, else Armed (R539). -/
def execEvqArm (s : State) : Result :=
  if s.ev.host.isEmpty then .next { s with ev := { s.ev with armed := true } } else .next (sendMsix 0 1 s)

/-- The LogIndex after one (R541). -/
def nextLogIndex (n : Nat) : Nat := (n + 1) % 0xFFFFFFFF

/-- EVENT_LOG_COPY: a management core reads an entry of EVQ-M into the log, poisoned where a word fails its parity (R29, R31,
R541). -/
def execEventLogCopy (parity : BitVec 4) (s : State) : Result :=
  match popEv s.ev.mgmt with
  | none => .next s
  | some (e, q) =>
    let log := s.ev.log ++ [(s.ev.nextLog, s.time, { e with poison := e.poison || !tagIntact e.bits parity })]
    .next { s with ev := { s.ev with mgmt := q, log := log.drop (log.length - 1024), nextLog := nextLogIndex s.ev.nextLog } }

/-- The newest LogIndex, all ones before the first entry (R541, R542, R557). -/
def newestLog (s : State) : Nat := match s.ev.log.getLast? with | some x => x.1 | none => 0xFFFFFFFF

/-- The 32 bytes of `EventLogEntry` (R542). -/
def logBytes (x : Nat × BitVec 64 × EvEntry) : List Byte :=
  leBytes 4 x.1 ++ leBytes 8 x.2.1.toNat ++ leBytes 1 x.2.2.poison.toNat ++ leBytes 3 0 ++ leBytes 16 x.2.2.bits.toNat

/-- A read at a reader's index: the bytes, and the reader's index after it (R542). -/
def readLog (s : State) (idx : Nat) : List Byte × Nat :=
  let none' : List Byte × Nat := (leBytes 4 0xFFFFFFFF ++ leBytes 28 0, idx)
  match s.ev.log.getLast?, s.ev.log.head? with
  | some new, some old =>
    let d := (idx + 0xFFFFFFFF - new.1) % 0xFFFFFFFF
    if 1 ≤ d ∧ d ≤ 0x7FFFFFFF then none'
    else
      let x := (s.ev.log.find? fun y => y.1 == idx).getD old
      (logBytes x, nextLogIndex x.1)
  | _, _ => none'

/-- EVENT_LOG_READ by HOST-PF (`reader` 0), or by the Staxa session of that SessionId (R542). -/
def execEventLogRead (reader : Nat) (s : State) : Result :=
  if reader = 0 then
    let r := readLog s (getFn s 0).logIdx
    .next (emit (.dictValue r.1) (updFn 0 (fun x => { x with logIdx := r.2 }) s))
  else match Tab.get? s.staxa.sessions reader with
    | none => .next s
    | some x =>
      let r := readLog s x.logIdx
      .next (emit (.dictValue r.1) { s with staxa := { s.staxa with sessions := Tab.put s.staxa.sessions reader { x with logIdx := r.2 } } })

end Sys2Proof.Machine
end

