-- ==== Sys2Proof/Machine/Answer.lean ====
section
/-! DEFINITION. Staxa messages, and the answer of the dictionary server on the path an operation came by
(R114, R477, R481, R491, R494, R497, R498). -/

namespace Sys2Proof.Machine

/-- A Staxa message: header, payload, and the Tag unless KeyId is 0 (R494, R496). -/
def staxaMessage (kind session seq keyId : Nat) (key : BitVec 256) (payload : List Byte) : List Byte :=
  let m := beBytes 2 0x5358 ++ [1#8, BitVec.ofNat 8 kind] ++ beBytes 4 session ++ beBytes 4 seq ++ beBytes 2 payload.length ++
    [BitVec.ofNat 8 keyId, 0#8] ++ payload
  if keyId = 0 then m else m ++ (Crypto.hmac (beBytes 32 key.toNat) m).take 16

/-- Change a session, where it is open. -/
def updSession (id : Nat) (g : Session → Session) (s : State) : State :=
  { s with staxa := { s.staxa with sessions := Tab.upd s.staxa.sessions id g } }

/-- The RESPONSE of the REQUEST that executes is sent and kept (R497, R498). -/
def staxaRespond (id : Nat) (s : State) : State :=
  match Tab.get? s.staxa.sessions id with
  | none => s
  | some x =>
    match x.running with
    | none => s
    | some (seq, _, res, n) =>
      let m := staxaMessage 4 id seq x.keyId x.key ([BitVec.ofNat 8 n, 0#8, 0#8, 0#8] ++ res)
      let s := emit (.staxa m) (updSession id (fun x => { x with last := seq, response := m, running := none }) s)
      if x.closing then { s with staxa := { s.staxa with sessions := Tab.del s.staxa.sessions id } } else s

/-- One result of a RESPONSE (R498). -/
def staxaResult (op : StaxaOp) (st : Status) (v : List Byte) : List Byte :=
  [BitVec.ofNat 8 st.code, BitVec.ofNat 8 op.sub] ++ beBytes 2 op.index ++ beBytes 2 v.length ++ [0#8, 0#8] ++ v

/-- Queue an operation for the dictionary server (R481). -/
def queueOp (op : DictOp) (s : State) : State := { s with dict := { s.dict with queue := s.dict.queue ++ [op] } }

/-- An operation of a REQUEST as the server takes it. -/
def opOfStaxa (id : Nat) (op : StaxaOp) : DictOp :=
  { src := .staxa id, isWrite := decide (op.op = 2), index := op.index, sub := op.sub, value := op.value }

/-- The server's answer to one operation: a status, the value of a read, and the event that goes with an error. -/
structure DictAns where
  st : Status
  value : List Byte := []
  ev : Option Nat := none
  deriving DecidableEq, Repr

/-- An operation of a REQUEST has ended: the next one is queued, or the RESPONSE goes out (R498). -/
def answerStaxa (id : Nat) (a : DictAns) (s : State) : State :=
  match Tab.get? s.staxa.sessions id with
  | none => s
  | some x =>
    match x.running with
    | some (seq, op :: rest, res, n) =>
      let v := if op.op = 1 && !a.st.isError then a.value else []
      let s := updSession id (fun x => { x with running := some (seq, rest, res ++ staxaResult op a.st v, n + 1) }) s
      match rest with
      | [] => staxaRespond id s
      | nxt :: _ => if a.st.isError then staxaRespond id s else queueOp (opOfStaxa id nxt) s
    | _ => s

/-- Every session ends; that of a write whose REQUEST still executes ends with its RESPONSE (R487, R570). -/
def lapseSessions (src : DictSrc) (s : State) : State :=
  let mine := fun (id : Nat) (x : Session) => src == .staxa id && x.running.isSome
  { s with staxa := { s.staxa with sessions := (Tab.keep s.staxa.sessions mine).map fun p => (p.1, { p.2 with closing := true }) } }

/-- The completion of a DICT_READ or DICT_WRITE (R65, R114). -/
def answerCmd (slot : Nat) (isWrite : Bool) (len : Nat) (a : DictAns) (s : State) : State :=
  let err : ErrInfo := { block := bMgmt, event := a.ev }
  if a.st.isError then complete slot (fun c => baseCpl c a.st) err s
  else if isWrite then complete slot (fun c => { baseCpl c a.st with specific := BitVec.ofNat 96 len }) err s
  else match getCmd s slot with
    | none => s
    | some c =>
      let room := eLen c.entry
      let n := a.value.length
      let st := if room < n then Status.lengthResidue else a.st
      complete slot (fun c => { baseCpl c st with specific := BitVec.ofNat 96 n, residue := n - room }) err
        (toHostMem slot false (a.value.take room) s)

/-- Put bytes at the start of a window's DataBuf. -/
def fillBuf (b : Tab Byte) (v : List Byte) : Tab Byte := (v.zip (List.range v.length)).foldl (fun t p => Tab.put t p.2 p.1) b

/-- The end of a window's operation; the Length after a read that failed is not stated (R491). -/
def answerWindow (f : Nat) (isWrite : Bool) (len : Nat) (a : DictAns) (s : State) : State :=
  let n := if isWrite then len else if a.st.isError then Config.freeNat s.drawn % 2048 else a.value.length
  let s := if !isWrite && a.st.isError then drew s else s
  updFn f (fun x =>
    if x.win.busy then
      { x with win := { x.win with busy := false, status := a.st, length := n, buf := fillBuf x.win.buf a.value } }
    else x) s

/-- Answer an operation. -/
def answerDict (src : DictSrc) (isWrite : Bool) (len : Nat) (a : DictAns) (s : State) : State :=
  match src with
  | .cmd slot => answerCmd slot isWrite len a s
  | .window f => answerWindow f isWrite len a s
  | .staxa id => answerStaxa id a s
  | .row => s

end Sys2Proof.Machine
end

