-- ==== Sys2Proof/Machine/LifeCycle.lean ====
section
/-! DEFINITION. The life cycle: the fuse row, tokens, transitions, zeroisation, and the debug ports (R559-R576). -/

namespace Sys2Proof.Machine

/-- Bits blown in a triple of the fuse row; triple 12 is LcScrap (R560). -/
def tripleBits (row : BitVec 40) (k : Nat) : Nat :=
  (row.getLsbD (3 * k)).toNat + (row.getLsbD (3 * k + 1)).toNat + (row.getLsbD (3 * k + 2)).toNat

/-- A triple counts as blown (R560). -/
def tripleBlown (row : BitVec 40) (k : Nat) : Bool := decide (2 ≤ tripleBits row k)

/-- The row with a whole triple blown (R570). -/
def blowTriple (row : BitVec 40) (k : Nat) : BitVec 40 := row ||| BitVec.ofNat 40 (7 * 2 ^ (3 * k))

/-- n: transition triples that count as blown (R560). -/
def lcCount (row : BitVec 40) : Nat := (List.range 12).countP (tripleBlown row)

/-- A transition triple counted as blown lies above one counted as unblown (R561). -/
def rowInvalid (row : BitVec 40) : Bool := (List.range 12).any fun k => tripleBlown row k && decide (lcCount row ≤ k)

/-- The state of a number of transitions (R560). -/
def lcOfCount (n : Nat) : Nat := if n = 0 then 0 else (n - 1) % 3 + 1

/-- The state that the row reads (R560, R561). -/
def rowState (row : BitVec 40) : Nat := if rowInvalid row || tripleBlown row 12 then 4 else lcOfCount (lcCount row)

/-- One triple is repaired when exactly two of its bits are blown (R561). -/
def repairTriple (s : State) (k : Nat) : State :=
  if tripleBits s.lc.row k = 2 then raise 0x783 [iCode k] { s with lc := { s.lc with row := blowTriple s.lc.row k } } else s

/-- Read the fuse row: repair, the invalid row, the state in force (R560, R561). -/
def readFuses (s : State) : State :=
  if rowInvalid s.lc.row then raise 0x784 [] { s with lc := { s.lc with state := 4 } }
  else
    let s := (List.range 13).foldl repairTriple s
    { s with lc := { s.lc with state := rowState s.lc.row } }

/-- A private key of P-256 from the random source (R247, R268). -/
def drawScalar (s : State) : BitVec 256 × State :=
  let r := drawRandom s
  (BitVec.ofNat 256 (r.1.toNat % (Crypto.n256 - 1) + 1), r.2)

/-- In FIELD a device without a transport key generates one (R247, R573). -/
def fieldKey (s : State) : State :=
  if s.lc.state = 2 && s.cip.transport.isNone then
    let r := drawScalar s
    raise 0x786 [] { r.2 with cip := { r.2.cip with transport := some r.1 } }
  else s

/-- Entries to FIELD still possible (R560, R575). -/
def fieldLeft (s : State) : Nat := if s.lc.state = 4 then 0 else 4 - (lcCount s.lc.row + 1) / 3

/-- The Plovnor JTAG instructions and the UART are open (R562, R565). -/
def debugOpen (s : State) : Bool :=
  (s.lc.state = 0 || s.lc.state = 1 || s.lc.state = 3) && !((s.lc.job.map fun j => j.target == 2).getD false)

/-- Boundary-scan instructions are always open, the Plovnor ones while debug is (R562). -/
def jtagOpen (s : State) (i : JtagInstr) : Bool :=
  match i with
  | .bypass => true | .idcode => true | .samplePreload => true | .extest => true
  | .coreDebug => debugOpen s | .internalScan => debugOpen s | .memoryAccess => debugOpen s

/-- An instruction in force that has become closed decodes as BYPASS (R562). -/
def closeDebug (s : State) : State := if jtagOpen s s.lc.jtag then s else { s with lc := { s.lc with jtag := .bypass } }

/-- A transition of R565: the principals that may write its token, and whether `LcOwnerKey` and the Plovnor life-cycle key
may sign it. -/
def transitionOf (now target : Nat) : Option (Nat × Bool × Bool) :=
  if now = 0 ∧ target = 1 then some (8, false, true)
  else if now = 1 ∧ target = 2 then some (12, true, false)
  else if now = 2 ∧ target = 3 then some (5, true, false)
  else if now = 3 ∧ target = 1 then some (8, false, true)
  else if (now = 1 ∨ now = 3) ∧ target = 4 then some (12, true, true)
  else if now = 2 ∧ target = 4 then some (5, true, false)
  else none

/-- `LcOwnerKey`; none when it is empty (R566). -/
def ownerKey (s : State) : Option (Nat × Nat) :=
  let b := entryBytesOf s 0x9020 1
  if b.all (· == 0#8) then none else some (beNat (b.take 32), beNat (b.drop 32))

/-- The token's signature verifies under a key that the transition admits (R565, R568). -/
def tokenSigned (s : State) (owner maker : Bool) (token : List Byte) : Bool :=
  let m := Crypto.ascii "PLVLC001" ++ token.take 52
  let sig := (token.drop 52).take 64
  (owner && (match ownerKey s with | some q => Crypto.ecdsaOk q m sig | none => false)) ||
    (maker && Crypto.ecdsaOk (Config.lifeCycleKey.1.toNat, Config.lifeCycleKey.2.toNat) m sig)

/-- `SerialNumber` padded with zero bytes to 16 (R568). -/
def serialBytes : List Byte := (Config.serialNumber ++ List.replicate 16 0#8).take 16

/-- The first check of R569 that fails, as its reason and status; while a transition is in progress the write gives
STATE_CONFLICT (R571). -/
def tokenFault (s : State) (prin : Nat) (token : List Byte) : Option (Nat × Status) :=
  let target := leNat (token.take 1)
  let n := lcCount s.lc.row
  if s.lc.job.isSome then some (7, .stateConflict)
  else match s.lc.challenge with
    | none => some (1, .accessDenied)
    | some c =>
      if beBytes 32 c.toNat ≠ (token.drop 4).take 32 then some (2, .accessDenied)
      else match transitionOf s.lc.state target with
        | none => some (3, .accessDenied)
        | some (who, owner, maker) =>
          if prin &&& who = 0 then some (3, .accessDenied)
          else if !tokenSigned s owner maker token then some (4, .accessDenied)
          else if (token.drop 36).take 16 ≠ serialBytes || leNat ((token.drop 2).take 2) ≠ 0 then some (5, .invalidField)
          else if leNat ((token.drop 1).take 1) ≠ n then some (6, .invalidField)
          else if (s.cart.state ≠ .empty && s.cart.state ≠ .present) || activating s then some (7, .stateConflict)
          else if target ≠ 4 && decide (12 ≤ n) then some (8, .stateConflict)
          else none

/-- A KEY_LOAD that waits for its persist ends: no key enters a slot during a transition (R571). -/
def endLoads (s : State) : State :=
  let slots := s.cip.loads.filterMap (·.slot)
  slots.foldl (fun s n => finish n .stateConflict bMgmt s) { s with cip := { s.cip with loads := [] } }

/-- Zeroisation (R249, R488, R572). -/
def zeroise (s : State) : State :=
  let s := endLoads s
  raise 0x782 [] { s with
    cip := { s.cip with slots := [], keks := [], transport := none, drbgRequests := 0 }, staxa := { s.staxa with keys := [] } }

/-- What a transition does before its fuses (R565). -/
def beforeFuses (now target : Nat) (s : State) : State :=
  if target = 4 ∨ now = 2 then zeroise s
  else if now = 3 then { s with dict := { s.dict with vals := Tab.del s.dict.vals (entryKey 0x9020 1) } }
  else s

/-- A write of `LcRequest`: an answer at once, or none while the transition it starts goes on (R569-R571). -/
def lcRequest (src : DictSrc) (prin : Nat) (token : List Byte) (s : State) : Option DictAns × State :=
  match tokenFault s prin token with
  | some (reason, st) =>
    (some { st := st, ev := some 0x781 }, raise 0x781 [iCode reason] { s with lc := { s.lc with challenge := none } })
  | none =>
    let now := s.lc.state
    let target := leNat (token.take 1)
    let job : LcJob := { target := target, triple := if target = 4 then none else some (lcCount s.lc.row), oldState := now, src := src }
    (none, beforeFuses now target (closeDebug { s with lc := { s.lc with challenge := none, job := some job } }))

/-- The principals of the operand of a row: HOST-PF, HOST-VF, MGMT, and MAKER, which holds MGMT too (R477). -/
def principalBits (p : Fin 4) : Nat := [1, 2, 4, 12].getD p.val 0

/-- LC_CHALLENGE_READ: 32 fresh bytes, which replace any earlier challenge; not in SCRAPPED (R567, R575). -/
def lcChallenge (s : State) : List Byte × State :=
  let r := drawRandom s
  (beBytes 32 r.1.toNat, { r.2 with lc := { r.2.lc with challenge := some r.1 } })

/-- LC_CHALLENGE_READ (R567). -/
def execLcChallengeRead (s : State) : Result :=
  if s.lc.state = 4 then .next s
  else
    let r := lcChallenge s
    .next (emit (.dictValue r.1) r.2)

/-- LC_CHALLENGE_EXPIRY (R567). -/
def execLcChallengeExpiry (s : State) : Result := .next { s with lc := { s.lc with challenge := none } }

/-- LC_REQUEST: a token of the length of `LcRequest`, in a state that reaches it (R480, R568-R571). -/
def execLcRequest (principal : Fin 4) (token : List Byte) (s : State) : Result :=
  if s.lc.state = 4 || token.length ≠ 116 then .next s else .next (lcRequest .row (principalBits principal) token s).2

/-- The triple of a transition reads as blown, or not; it is blown again up to three times (R570, R573). -/
def lcFuse (ok : Bool) (s : State) : State :=
  match s.lc.job with
  | none => s
  | some j =>
    if !ok then
      if j.tries < 3 then { s with lc := { s.lc with job := some { j with tries := j.tries + 1 } } }
      else answerDict j.src true 116 { st := .internalError } { s with lc := { s.lc with job := none } }
    else
      let row := blowTriple s.lc.row (j.triple.getD 12)
      let state := rowState row
      let s := fieldKey (closeDebug { s with lc := { s.lc with row := row, state := state, job := none } })
      let s := answerDict j.src true 116 { st := .success } s
      lapseSessions j.src (raise 0x780 [iCode j.oldState, iCode state] s)

/-- A Plovnor JTAG instruction. -/
def jtagPlovnor (i : JtagInstr) : Bool := i = .coreDebug || i = .internalScan || i = .memoryAccess

/-- JTAG_INSTRUCTION (R562, R564). -/
def execJtagInstruction (i : JtagInstr) (s : State) : Result :=
  if jtagOpen s i then
    let s := { s with lc := { s.lc with jtag := i } }
    if jtagPlovnor i && !s.lc.jtagUsed then .next (raise 0x785 [iCode 0] { s with lc := { s.lc with jtagUsed := true } }) else .next s
  else .next { s with lc := { s.lc with jtag := .bypass } }

/-- UART_RX_BYTE (R562, R564). -/
def execUartRxByte (b : Byte) (s : State) : Result :=
  if !debugOpen s then .next s
  else
    let s := emit (.debug b.toNat) s
    if s.lc.uartUsed then .next s else .next (raise 0x785 [iCode 1] { s with lc := { s.lc with uartUsed := true } })

end Sys2Proof.Machine
end

