-- ==== Sys2Proof/Machine/Resets.lean ====
section
/-! DEFINITION. The reset domains, system reset and power-on reset (R33, R93, R183, R184, R200, R201, R238, R269-R271, R372,
R400, R471, R519, R540, R541, R543-R548, R554, R583, R585). -/

namespace Sys2Proof.Machine

/-- Ends of commands: a host interface reset ends every function's commands, retires its keys and resets its registers,
queues and window, and EVQ-H is emptied; the intake buffers of committed WRITEs have been handed on, and the HQE's requests and
other buffers go (R25, R91, R93, R195, R201, R270, R491, R540). -/
def hostReset (s : State) : State :=
  let fs := (List.range 64).filter (fnExists s)
  let s := fs.foldl (fun s f => resetFnRegs f (dropWindow f (retireKeys f (endFunction f s)))) s
  let s := dropOwners (· == 0x10) s
  { s with
    host := { s.host with vfEnable := false, numVfs := 0, d3hot := false, rrAdmin := 0, rrFn := 0 },
    ev := { s.ev with host := [], lost := 0, entryValid := false, poison := false, armed := false, entry := 0,
                      hostLostTotal := sat32 (s.ev.hostLostTotal + s.ev.host.length) } }

/-- Opcodes of the commands that a data path reset ends (R545). -/
def dataOps : List Nat := [opCartFormat, opRebuild, opStreamCreate, opStreamOpen, opStreamClose, opWrite, opRead, opReadRaw, opFlush]

/-- The error log entry of a command whose request receives TARGET_RESET (R25, R79, R546). -/
def resetInfo (block : Nat) : ErrInfo := { response := Response.targetReset.code, block := block }

/-- A command in flight ends with TARGET_RESET, and records the INFO conditions it met (R144, R429, R430, R545, R546). -/
def resetCmd (slot : Nat) (s : State) : State :=
  match getCmd s slot with
  | none => s
  | some c =>
    let op := eOpcode c.entry
    if !dataOps.contains op then s
    else if c.orphan then dropCmd slot s
    else match c.stage with
      | .held => s
      | .writing _ => finishWrite slot (some .targetReset) (resetInfo bStream) s
      | .reading j => endReadEarly slot c j .targetReset (resetInfo bStream) s
      | .rebuilding j => endRebuild slot j (some .targetReset) (resetInfo bBuilder) s
      | .draining j =>
        if op = opFlush then
          complete slot (fun c => { baseCpl c .targetReset with specific := BitVec.ofNat 96 (packLsb [(32, j.closed), (32, j.padded)]) })
            (resetInfo bCocoon) s
        else complete slot (fun c => baseCpl c .targetReset) (resetInfo bCocoon) s
      | _ =>
        if op = opWrite ∨ op = opRead ∨ op = opReadRaw then
          let p := recordNumOf none s
          complete slot (fun c => { baseCpl c .targetReset with recordNum := p.1 }) (resetInfo bStream) p.2
        else complete slot (fun c => baseCpl c .targetReset) (resetInfo bStream) s

/-- A fetched entry that still waits has this fetch order number. -/
def stillQueued (s : State) (q : Nat) : Bool := s.host.fns.any fun f => f.2.qps.any fun v => v.2.fetchQ.any fun x => x.seq == q

/-- A mark that a fetched entry has set, kept while the entry waits. -/
def keepMark (s : State) (m : Option Nat) : Option Nat := if (m.map (stillQueued s)).getD false then m else none

/-- The repair list is applied: a listed row is replaced by a spare row of its bank while one is left (R183, R184). -/
def repairRow (s : State) (row : Nat) : State :=
  let bank := bankOf row
  let used := Tab.getD s.dram.spares bank 0
  if used < 4 then
    { s with dram := { s.dram with listed := s.dram.listed.erase row, spares := Tab.put s.dram.spares bank (used + 1),
                                   sparesUsed := s.dram.sparesUsed + 1 } }
  else if s.dram.exhausted then s
  else setCause 1 (raise 0x508 [] { s with dram := { s.dram with exhausted := true } })

/-- Buffers of a pool that contain a row still listed, rising (R183). -/
def listedBufs (s : State) (p : Nat) : List Nat :=
  (s.dram.listed.flatMap fun r => rowBufs s p r).foldl (fun l i => if l.contains i then l else insertUp i l) []

/-- The DRAM is initialised and the pools are filled: every buffer is free and unowned (R184, R187, R200). DESIGN CHOICE (log entry
111): no event 0x507 is raised for the buffers of rows that no spare replaces, since no count reaches 0 (R183), and the
round-robin pointer of R197 returns to 0. -/
def fillPools (s : State) : State :=
  let s := s.dram.listed.foldl repairRow s
  let s := { s with dram := { s.dram with rowCe := [] } }
  let fresh := (List.range 5).map fun p => (⟨param s (0x2400 + p) 1, 0, 0, 0, []⟩ : Pool)
  let s := { s with bpm := { pools := fresh, nextHeld := s.bpm.nextHeld, answers := s.bpm.answers, later := s.bpm.later } }
  (List.range 5).foldl (fun s p =>
    let bad := listedBufs s p
    updPool p (fun x => { x with quarantined := bad }) s) s

/-- Initialisation of the DRAM has ended: `PoolMinFree` starts from `PoolFree`, and the requests that came meanwhile are served
(R184, R187, R200, R546). -/
def poolsReady (s : State) : State :=
  let s := (List.range 5).foldl (fun s p => updPool p (fun x => { x with minFree := poolFree s p }) s) s
  s.bpm.later.foldl (fun s r => r.run s) { s with bpm := { s.bpm with later := [] } }

/-- The cartridge at a data path reset: loaded again, carried on to its unthread, or FAULTED when the transport control
domain is reset with it (R99, R545). -/
def cartAtReset (tceToo : Bool) (s : State) : State :=
  let c := s.cart
  let fmt := keepMark s c.formatting
  let reb := keepMark s c.rebuilding
  let base : Cart := { state := c.state, forceRo := c.forceRo, formatting := fmt, rebuilding := reb }
  if c.state = .empty || c.state = .present then { s with cart := base }
  else if tceToo then
    let s := { s with cart := { base with state := .faulted } }
    let s := match c.load with
      | some j => match j.slot with
        | some n => finish n .transportFault bTce s
        | none => raise 0x7D2 [(8, CartState.faulted.code)] s
      | none => s
    match c.unload with | some n => finish n .transportFault bTce s | none => s
  else match c.state with
    | .unformatted => { s with cart := { base with state := .loading, load := some { slot := none } } }
    | .ready => { s with cart := { base with state := .loading, load := some { slot := none } } }
    | .readOnly => { s with cart := { base with state := .loading, load := some { slot := none } } }
    | .loading => { s with cart := { base with load := c.load.map fun j => { slot := j.slot } } }
    | .unloading =>
      let s := { s with cart := { base with unload := c.unload, unloadFaulted := c.unloadFaulted, unthreading := true } }
      match c.unload with | some n => setStage n .waiting s | none => s
    | _ => { s with cart := base }

/-- A reset of the data path; `tceToo` when the transport control domain is reset with it and the transport was not OFF
(R33, R200, R238, R352, R358, R545). -/
def dataReset (tceToo : Bool) (s : State) : State :=
  let s := setGates false s
  let s := (s.host.cmds.map (·.1)).foldl (fun s n => resetCmd n s) s
  let s := s.bpm.held.foldl (fun s h => answer h.owner.toNat .targetReset none h.tag s) s
  let s := (s.streams.map (·.1)).foldl (fun s n => closeStream n s) s
  let w := s.wr
  let s := { s with
    streams := [], reserved := [], index := { limitMiB := s.index.limitMiB },
    pack := { nextBlk := s.pack.nextBlk },
    wr := { nextDs := w.nextDs, gates := w.gates, guardPos := w.guardPos, guardShock := w.guardShock, guardClock := w.guardClock,
            guardGood := w.guardGood, guardQuiet := w.guardQuiet, guardLocked := w.guardLocked, shockLow := w.shockLow, stopped := !writeAllowed s },
    rd := { nextBlk := s.rd.nextBlk },
    cip := { s.cip with pairs := [] },
    chans := s.chans.map fun p => (p.1, { p.2 with fifo := [], filling := none, draining := none, failsIn := [], judgedIn := [], bad := 0, failCount := 0, verifyFailures := 0, rebuilt := 0 }),
    pwr := { s.pwr with drain := none } }
  cartAtReset tceToo (fillPools s)

/-- Blocks read whose decryption the reset cuts short: one in a decryptor's buffer, or for which a decryptor waits (R271). -/
def inDecryptor (s : State) (b : TapeBlk) : Bool :=
  b.plain.isNone && !b.authFailed && (b.bufReq.isSome || match b.buf.bind (Tab.get? s.bpm.bufs) with
    | some x => decide (0x70 ≤ x.owner.toNat ∧ x.owner.toNat ≤ 0x73)
    | none => false)

/-- A reset of the cipher domain: blocks in the encryptors and the decryptors end, with their commands (R271, R482, R546). -/
def cipherReset (s : State) : State :=
  let inside := (s.pack.blks.filter fun p => match p.2.stage with | .inCipher _ => true | _ => false).map (·.1)
  let s := inside.foldl (fun s n => match getBlk s n with
    | some b => settle (loseFrom b .targetReset (resetInfo bCipher) s)
    | none => s) s
  let readers := ((s.rd.blks.filter (inDecryptor s)).flatMap (blkReaders s)).dedup
  let s := readers.foldl (fun s n => failCmd n .targetReset (resetInfo bCipher) s) s
  let mine := fun (s : State) (id : Nat) => match Tab.get? s.bpm.bufs id with
    | some b => decide (0x70 ≤ b.owner.toNat ∧ b.owner.toNat ≤ 0x73)
    | none => false
  let blks := s.rd.blks.map fun b => { b with buf := b.buf.filter (fun id => !mine s id), bufReq := none }
  let s := dropOwners (fun o => decide (0x70 ≤ o ∧ o ≤ 0x73)) { s with rd := { s.rd with blks := blks } }
  { s with cip := { s.cip with pairs := [], drbgRequests := 0, persists := 0, encrypted := 0, decrypted := 0, authFailures := 0 } }

/-- A load whose thread the reset cuts short ends; with nothing threaded yet the cartridge is PRESENT (R471, R546). -/
def endThread (s : State) : State :=
  match s.cart.load with
  | none => s
  | some j =>
    let state := if s.tce.state = .off then CartState.present else s.cart.state
    let s := { s with cart := { s.cart with state := state, load := if state = .present then none else some { j with slot := none } } }
    match j.slot with | some n => complete n (fun c => baseCpl c .targetReset) (resetInfo bTce) s | none => s

/-- An unthread that the reset cuts short ends (R471, R546). -/
def endUnthread (s : State) : State :=
  match s.cart.unload with
  | some n => if s.cart.unthreading then
      complete n (fun c => baseCpl c .targetReset) (resetInfo bTce)
        { s with cart := { s.cart with unload := none, unthreading := false, state := .faulted } }
    else s
  | none => s

/-- What the transport control domain keeps through a reset: the saturation history, the pins, the head-front link; the
fault that it will latch (R471). -/
def tceKept (t : Tce) : Tce :=
  { hours := t.hours, hourSamples := t.hourSamples, hourSat := t.hourSat, cartHigh := t.cartHigh, wprotHigh := t.wprotHigh,
    tfaultHigh := t.tfaultHigh, hcfChip := t.hcfChip, hcfSeq := t.hcfSeq, hcfSilent := t.hcfSilent, hcfErrors := t.hcfErrors,
    hcfWrites := t.hcfWrites, resetLatched := t.resetLatched || t.state != .off }

/-- A reset of the transport control domain (R372, R471). -/
def transportReset (s : State) : State :=
  let s := tlcsReset (endUnthread (endThread s))
  { s with tce := tceKept s.tce }

/-- A domain is powered down in the present state (R549, R554). -/
def poweredDown (s : State) (code : Nat) : Bool :=
  (decide (2 ≤ s.pwr.now) && (code = 2 || code = 3 || decide (0x80 ≤ code))) || (decide (3 ≤ s.pwr.now) && code = 1)

/-- The effects of a reset of a domain (R544). -/
def domainDown (code : Nat) (s : State) : State :=
  match code with
  | 0 => hostReset s
  | 1 => dataReset false s
  | 2 => cipherReset s
  | 3 => transportReset s
  | 4 => flashReset s
  | 5 => mgmtDown s
  | _ => channelDown (code - 0x80) 3 s

/-- Start a reset of a domain: it merges into one that runs; a domain that is powered down is reset at its power-up
(R546, R548, R554). `wait` is a write of `DomainReset` that completes when the domain is ready. -/
def startReset (code cause : Nat) (wait : List DictSrc) (s : State) : State :=
  if s.resets.any fun r => r.code == code then noteReset code cause wait s
  else if poweredDown s code then { s with resets := s.resets ++ [{ code := code, cause := cause, deferred := true }] }
  else noteReset code cause wait (domainDown code s)

/-- Every domain code (R544). -/
def domainCodes : List Nat := List.range 6 ++ List.range' 0x80 128

/-- Codes that `DomainReset` takes, and those that HOST-PF may write (R557). -/
def domainCode (code : Nat) : Bool := decide (code ≤ 5) || decide (0x80 ≤ code)
def hostDomain (code : Nat) : Bool := (decide (1 ≤ code) && decide (code ≤ 4)) || decide (0x80 ≤ code)

/-- What a domain does when its reset is over: the pools are filled, the known-answer tests of the cipher pass or fail, TCE_RESET is latched, the flash domain initialises, a
channel takes its head-front writes and a re-enabling that waited (R269, R409, R471, R513, R587). -/
def domainUp (code : Nat) (testsPass : Bool) (s : State) : State :=
  if code = 1 then poolsReady s
  else if code = 2 then raiseIf (!testsPass) 0x527 [] { s with cip := { s.cip with failed := !testsPass } }
  else if code = 3 then
    let s := if s.tce.resetLatched then tceFault 10 { s with tce := { s.tce with resetLatched := false } } else s
    faultIf (!s.tce.tfaultHigh) 7 s
  else if code = 4 then flashGo (flashInit s)
  else if 0x80 ≤ code then
    let p := code - 0x80
    let s := headFrontInit (fun c => c == p / 16) s
    if (getChan s p).restorePending then restoreMember p (updChan p (fun c => { c with restorePending := false }) s) else s
  else s

/-- PERST: PERST# resets the host interface domain (R544, R548). -/
def execPerst (s : State) : Result := .next (startReset 0 3 [] s)

/-- HOT_RESET: a hot reset or link down (R544, R548). -/
def execHotReset (s : State) : Result := .next (startReset 0 4 [] s)

/-- The cartridge after a reset of the whole device (R99, R545). -/
def cartRestart (power : Bool) (s : State) : Cart :=
  let c := s.cart
  let out : Cart := { state := if s.tce.cartHigh then .empty else .present }
  if power || c.state = .empty || c.state = .present then out
  else if s.tce.state ≠ .off || c.state = .faulted then { state := .faulted, forceRo := c.forceRo }
  else if c.state = .unloading then { state := .unloading, forceRo := c.forceRo, unthreading := true }
  else if c.state = .loading && c.load.isNone then out
  else { state := .loading, forceRo := c.forceRo, load := some { slot := none } }

/-- The security store after SYSRST#: the host interface reset in it retires every slot (R249, R270, R544). -/
def storeKept (c : Cipher) : Cipher :=
  { slots := c.slots.map fun p => (p.1, { p.2 with state := KeyState.retiring, binds := 0, persisting := false, unloading := none }),
    transport := c.transport, counters := c.counters }

/-- Every domain and the global part are reset; `power` is power-on reset. What flash and fuses keep stays (R183, R408, R470,
R479, R483, R529, R541, R544, R545, R560, R573). -/
def restart (power : Bool) (cause : Nat) (s : State) : State :=
  let s := stopFlash (cutPersist (setGates false s))
  let t := if power then 0#64 else s.time
  let keepTce : Tce := { hours := s.tce.hours, cartHigh := s.tce.cartHigh, wprotHigh := s.tce.wprotHigh, tfaultHigh := s.tce.tfaultHigh }
  let s : State := {
    pending := s.pending, drawn := s.drawn, out := s.out, time := t,
    cart := cartRestart power s,
    dram := { listed := s.dram.listed, spares := s.dram.spares, exhausted := s.dram.exhausted, sparesUsed := s.dram.sparesUsed },
    cip := if power then { transport := s.cip.transport, counters := s.cip.counters } else storeKept s.cip,
    staxa := { keys := if power then [] else s.staxa.keys },
    chans := s.chans.map fun p => (p.1, { failed := p.2.failed, cause := p.2.cause, failedAt := p.2.failedAt }),
    tce := if power then keepTce else { keepTce with resetLatched := s.tce.resetLatched || s.tce.state != .off },
    dict := { vals := s.dict.vals, routes := s.dict.routes, restore := s.dict.restore },
    flash := { blocks := s.flash.blocks, pages := s.flash.pages, retired := s.flash.retired, sparesUsed := s.flash.sparesUsed,
               sparesOut := s.flash.sparesOut },
    fw := { gloveA := s.fw.gloveA, gloveB := s.fw.gloveB, image0 := s.fw.image0, image1 := s.fw.image1, floor := s.fw.floor,
            failedSeq := s.fw.failedSeq, starts := if power then 0 else s.fw.starts },
    lc := { row := s.lc.row },
    health := if power then { causes := s.health.causes } else s.health,
    pwr := { since := t },
    resets := domainCodes.map fun c => { code := c, cause := cause } }
  let s := dropVolatile s
  let s := if s.dict.restore then restoreDefaults s else s
  let s := fillPools { s with wr := { s.wr with stopped := !writeAllowed s } }
  headFrontInit (fun _ => true) (fieldKey (boot (readFuses s)))

/-- PowerStateResidency up to now, in nanoseconds of TIME (R557). -/
def accrue (s : State) : State :=
  let d := (s.time - s.pwr.since).toNat
  let l := s.health.residency
  { s with health := { s.health with residency := l.set s.pwr.now (l.getD s.pwr.now 0 + d) }, pwr := { s.pwr with since := s.time } }

/-- SYSRST: a low of 100 ns resets every domain and the global part; one of 20 ns to 100 ns may or may not (R544, R585). -/
def execSysrst (lowNs : Nat) (s : State) : Result :=
  if lowNs < 20 then .next s
  else if lowNs < 100 then
    if Config.sysrstTakes s.drawn then .next (restart false 2 (accrue (drew s))) else .next (drew s)
  else .next (restart false 2 (accrue s))

/-- PORST: power-on reset; a low shorter than 10 µs breaks the manual's rule, and what follows it is not stated
(R544, R585). -/
def execPorst (lowNs : Nat) (s : State) : Result := if lowNs < 10000 then .fault .porstTooShort else .next (restart true 1 s)

/-- SUPPLY_MONITOR_TRIP: VDD, VDDA, VPCIE or VDDIO out of range for 1 µs; VFL has no monitor but its brown-out detector
(R517, R583). -/
def execSupplyMonitorTrip (rail : Rail) (s : State) : Result :=
  match rail with
  | .vfl => .next s
  | .vdd => .next (restart true 1 s)
  | .vdda => .next (restart true 1 s)
  | .vpcie => .next (restart true 1 s)
  | .vddio => .next (restart true 1 s)

end Sys2Proof.Machine
end

