-- ==== Sys2Proof/Machine/Power.lean ====
section
/-! DEFINITION. Power states (R549-R556). -/

namespace Sys2Proof.Machine

/-- A byte placed in a dataset buffer is not on tape (R551). -/
def bytesHeld (s : State) : Bool :=
  (match s.wr.filling with | some d => !d.payload.isEmpty | none => false) || !s.wr.closedQ.isEmpty || !s.wr.cocoon.isEmpty

/-- The device is idle (R550). -/
def idle (s : State) : Bool :=
  (s.host.cmds.all fun p => p.2.orphan) && (s.host.fns.all fun f => f.2.qps.all fun q => q.2.fetchQ.isEmpty && q.2.reads.isEmpty) &&
    !s.wr.pass && s.rd.cur.isNone && s.rd.queue.isEmpty && (drains s).isEmpty && s.wr.ckpt.isNone && !s.wr.ckptDue &&
    s.cart.load.isNone && !s.cart.unthreading && tapeStopped s && s.tce.state != .moving && s.tce.state != .stopping &&
    s.cip.loads.isEmpty

/-- `PowerStateMax` (R557). -/
def powerMax (s : State) : Nat := param s 0x8200 2

/-- A request asks for a state at least this deep (R551). -/
def wanted (s : State) (n : Nat) : Bool := match s.pwr.request with | some r => decide (n ≤ r) | none => false

/-- The timers down to a state are not disabled: a timer set to 0 disables its transition and every deeper one (R551). -/
def timersOn (s : State) (n : Nat) : Bool := (List.range' 3 n).all fun j => decide (param s 0x8200 j ≠ 0)

/-- Begin the entry of state `n` from the state above it; before PS2, bytes in dataset buffers are drained first, which
returns the device to PS0 (R551). -/
def enterPower (n : Nat) (s : State) : State :=
  if s.pwr.now + 1 ≠ n || s.pwr.goal.isSome || !idle s || decide (powerMax s < n) then s
  else if n = 2 && bytesHeld s then
    settle { s with pwr := { s.pwr with drain := some s.host.fetchSeq, goal := some 0, request := none } }
  else { s with pwr := { s.pwr with goal := some n } }

/-- A pending `PowerStateRequest` acts as if the timers had expired, once the device is idle (R551). -/
def followRequest (s : State) : State :=
  if wanted s (s.pwr.now + 1) then enterPower (s.pwr.now + 1) s
  else if s.pwr.now ≠ 0 || powerMax s = 0 then { s with pwr := { s.pwr with request := none } } else s

/-- A wake: an exit to PS0 begins, after the entry under way (R552, R553). -/
def wakeUp (s : State) : State :=
  match s.pwr.goal with
  | some 0 => s
  | some _ => { s with pwr := { s.pwr with wake := true, request := none } }
  | none => if s.pwr.now = 0 then s else { s with pwr := { s.pwr with goal := some 0, request := none } }

/-- The blocks off in PS2 lose power: the reels are braked and the tension is off (R549). -/
def powerOff (s : State) : State := if s.tce.state = .hold then sendAll 3 [3, 2] (disableStages s) else s

/-- The blocks come back: deferred resets are carried out first, the channels take their loop values and their head-front
writes, the tension is restored (R549, R552, R554, R587). -/
def powerOn (s : State) : State :=
  let late := s.resets.filter (·.deferred)
  let s := { s with resets := s.resets.filter fun r => !r.deferred }
  let s := late.foldl (fun s r => noteReset r.code r.cause r.waits (domainDown r.code s)) s
  let s := { s with chans := s.chans.map fun p => (p.1, { p.2 with loops := match p.2.kept with | some k => k.1 | none => p.2.loops }) }
  let s := headFrontInit (fun _ => true) s
  let s := if s.tce.state = .hold then enableStages s else s
  faultIf (!s.tce.tfaultHigh) 7 s

/-- IDLE_TO_PS1, IDLE_TO_PS2 and IDLE_TO_PS3: the idle timer of a state has expired, or a request stands in for it; the end of
a write pass has written the EOD burst before the device is idle (R307, R551). -/
def idleTo (n : Nat) (s : State) : State := if timersOn s n || wanted s n then enterPower n s else s

/-- IDLE_TO_PS1 (R551). -/
def execIdleToPs1 (s : State) : Result := .next (idleTo 1 s)

/-- IDLE_TO_PS2 (R551). -/
def execIdleToPs2 (s : State) : Result := .next (idleTo 2 s)

/-- IDLE_TO_PS3 (R551). -/
def execIdleToPs3 (s : State) : Result := .next (idleTo 3 s)

/-- A write of `PowerStateRequest` (R551). -/
def powerRequest (n : Nat) (s : State) : State :=
  if n = 0 then wakeUp { s with pwr := { s.pwr with request := none } }
  else followRequest { s with pwr := { s.pwr with request := some n } }

/-- POWER_STATE_REQUEST: the values of the entry's range (R551, R557). -/
def execPowerStateRequest (n : Byte) (s : State) : Result := if 3 < n.toNat then .next s else .next (powerRequest n.toNat s)

/-- WAKE (R552, R553). -/
def execWake (s : State) : Result := .next (wakeUp s)

/-- POWER_STATE_REACHED: the entry or exit ends; a wake that came during an entry starts the exit (R549, R553, R556, R558). -/
def execPowerStateReached (s : State) : Result :=
  match s.pwr.goal with
  | none => .next s
  | some g =>
    let s := accrue s
    let old := s.pwr.now
    let wake := s.pwr.wake
    let s := raise 0x7D1 [(8, old), (8, g)] { s with pwr := { s.pwr with now := g, goal := none, wake := false } }
    let s := if g = 2 && decide (old < 2) then powerOff s else if g = 0 && decide (2 ≤ old) then powerOn s else s
    .next (if wake then wakeUp s else followRequest s)

/-- D3HOT_ENTRY: fetching stops, and once idle the device goes as deep as `PowerStateMax` allows (R555). -/
def execD3hotEntry (s : State) : Result :=
  let s := { s with host := { s.host with d3hot := true } }
  if powerMax s = 0 then .next s else .next (followRequest { s with pwr := { s.pwr with request := some (powerMax s) } })

/-- D0_RETURN (R555). -/
def execD0Return (s : State) : Result :=
  .next (wakeUp { s with host := { s.host with d3hot := false }, pwr := { s.pwr with request := none } })

end Sys2Proof.Machine
end

