-- ==== Sys2Proof/Machine/DictRead.lean ====
section
/-! DEFINITION. What a read of each dictionary entry returns (R50, R100, R150, R151, R180, R183, R187, R198, R239, R273, R310,
R332, R367, R401, R402, R410, R441, R442, R472, R486-R488, R530, R541, R542, R557, R575, R589, R593). -/

namespace Sys2Proof.Machine

/-- Who makes an operation: its principals, its function, whether it sees every function's entries, and its copies of the
entries of session scope (R477, R479). -/
structure Reader where
  prin : Nat
  fn : Nat := 0
  all : Bool := false
  streamSel : Nat := 0
  keySel : Nat := 0
  eventSel : Nat := 0
  logIdx : Nat := 0
  blockSel : Nat := 0
  deriving DecidableEq, Repr

/-- The reader that a function is. -/
def fnReader (s : State) (f : Nat) : Reader :=
  let x := getFn s f
  { prin := if f = 0 then 1 else 2, fn := f, streamSel := x.streamSel, keySel := x.keySel, eventSel := x.eventSel, logIdx := x.logIdx,
    blockSel := x.blockSel }

/-- The reader that a path is; none for a session that has ended. -/
def readerOf (s : State) (src : DictSrc) : Option Reader :=
  match src with
  | .cmd slot => (getCmd s slot).map fun c => fnReader s c.fn
  | .window f => some (fnReader s f)
  | .staxa id => (Tab.get? s.staxa.sessions id).map fun x =>
    { prin := if x.maker then 12 else 4, all := true, streamSel := x.streamSel, keySel := x.keySel, eventSel := x.eventSel,
      logIdx := x.logIdx, blockSel := x.blockSel }
  | .row => some { prin := 4, all := true }

/-- Two's complement of an integer in `n` bytes (R475). -/
def intBytes (n : Nat) (v : Int) : List Byte := leBytes n (v % (2 ^ (8 * n) : Nat)).toNat

/-- A bit map of the first `n` numbers, in bytes, bit 0 first. -/
def bitMap (n : Nat) (f : Nat → Bool) : List Byte := leBytes (n / 8) (packLsb ((List.range n).map fun i => (1, (f i).toNat)))

/-- A string or bytes fixed at manufacture, cut or filled to `n` bytes. -/
def fixedBytes (n : Nat) (l : List Byte) : List Byte := (l ++ List.replicate n 0#8).take n

/-- The size of a union of ranges given in rising order of their starts. -/
def unionSize : Nat → List (Nat × Nat) → Nat
  | _, [] => 0
  | from', (a, n) :: t =>
    let lo := max from' a
    (a + n - lo) + unionSize (max from' (a + n)) t

/-- Insert a range by its start. -/
def insertRange (x : Nat × Nat) : List (Nat × Nat) → List (Nat × Nat)
  | [] => [x]
  | y :: t => if x.1 ≤ y.1 then x :: y :: t else y :: insertRange x t

/-- Records of a stream in moth-holes (R150). -/
def mothRecords (s : State) (n : Nat) : Nat :=
  let l := (s.index.moths.filter fun m => m.stream == n).map fun m => (m.first, m.count)
  sat32 (unionSize 0 (l.foldr insertRange []))

/-- The stream that the reader's `StreamSelect` names, where the reader may see it (R150). -/
def seenStream (s : State) (r : Reader) : Option Stream :=
  (liveStream s r.streamSel).bind fun x => if r.all || x.owner == r.fn then some x else none

/-- `StreamState` (R150). -/
def streamCode (x : Stream) : Nat := match x.state with | .closed => 1 | .opened => 2 | .closing => 3

/-- `StreamFlags` (R151). -/
def streamFlags (s : State) (n : Nat) (x : Stream) : Nat :=
  let moved := s.index.extents.any fun e => e.stream == n && s.index.relocs.any fun r => r.oldDataset == e.dataset
  packLsb [(2, if x.comp = 3 then 3 else x.comp), (1, 0), (1, x.cipher.toNat), (1, (x.state != .closed && x.readOnly).toNat),
           (1, (s.index.moths.any fun m => m.stream == n).toNat), (1, moved.toNat), (1, x.writeFailed.toNat)]

/-- 0x3020 (R150). -/
def readStream (s : State) (r : Reader) (j : Nat) : List Byte :=
  match j, seenStream s r with
  | 1, _ => leBytes 2 r.streamSel
  | 2, some x => leBytes 1 (streamCode x)
  | 3, some x => leBytes 8 x.next
  | 4, some x => leBytes 4 (streamFlags s r.streamSel x)
  | 5, some x => leBytes 8 (x.failedFrom.getD 0xFFFFFFFFFFFF)
  | 6, some x => leBytes 4 (sat32 x.incompleteCount)
  | 7, some _ => leBytes 4 (mothRecords s r.streamSel)
  | 2, none => leBytes 1 0
  | 3, none => leBytes 8 0
  | 5, none => leBytes 8 0
  | _, _ => leBytes 4 0

/-- 0x4000 + channel: what a measured entry reads (R402, R410). -/
def readChannel (s : State) (e j : Nat) : List Byte :=
  let c := getChan s e
  match j with
  | 1 => leBytes 1 c.failed.toNat
  | 2 => leBytes 1 c.cause
  | 6 => leBytes 1 c.bad
  | 7 => leBytes 8 (c.failedAt.getD 0xFFFFFFFFFFFFFFFF)
  | 8 => leBytes 4 c.failCount
  | 9 => leBytes 8 c.verifyFailures
  | 10 => leBytes 8 c.rebuilt
  | 18 => leBytes 1 c.loops.gain
  | 19 => intBytes 1 c.loops.offset
  | 20 => intBytes 1 c.loops.asym
  | 21 => (List.range 15).flatMap fun k => intBytes 2 (c.loops.eq.getD k 0)
  | 23 => leBytes 8 c.sectorsRead
  | 24 => leBytes 8 c.sectorsErased
  | 25 => leBytes 4 c.syncBlind
  | 26 => leBytes 4 c.syncAlternate
  | 27 => (List.range 8).flatMap fun k => leBytes 4 (c.iterHist.getD k 0)
  | 28 => leBytes 8 c.defectBits
  | _ => leBytes 8 c.lastReport.toNat

/-- 0x2400 + pool (R187, R198). -/
def readPool (s : State) (p j : Nat) : List Byte :=
  let x := poolOf s p
  match j with
  | 3 => leBytes 4 (poolActive s p)
  | 4 => leBytes 4 (poolFree s p)
  | 5 => leBytes 4 x.minFree
  | 6 => leBytes 4 x.lostConcurrent
  | 7 => leBytes 4 x.refused
  | 8 => leBytes 4 x.quarantined.length
  | 11 => leBytes 4 (datasetFill s)
  | _ => leBytes 1 s.bpm.above.toNat

/-- 0x4800 (R310). -/
def readFormat (s : State) (j : Nat) : Nat :=
  let c := s.cart
  let has := c.state = .ready || c.state = .readOnly
  if !has && (c.state ≠ .unformatted || decide (5 ≤ j)) then 0
  else match j with
    | 1 => c.wraps
    | 2 => c.grid
    | 3 => c.lposB
    | 4 => c.lposE
    | 5 => c.formatId.toNat
    | 6 => c.next
    | _ => (4 * c.wraps - 2) * c.grid - c.next

/-- 0x4820 (R367). -/
def readWrite (s : State) (j : Nat) : List Byte :=
  match j with
  | 16 => leBytes 8 s.wr.sectorsVerified
  | 17 => leBytes 8 s.wr.sectorsCopied
  | 18 => leBytes 4 s.wr.fillVerifyFailures
  | 19 => leBytes 4 s.wr.sectorsLost
  | 20 => leBytes 4 s.wr.datasetsFailed
  | _ => leBytes 4 s.wr.tailDatasets

/-- `TlcsState` (R401). -/
def tlcsCode (t : TlcsState) : Nat := match t with | .idle => 0 | .acquire => 1 | .locked => 2 | .flywheel => 3

/-- 0x4860 (R401). -/
def readTlcs (s : State) (j : Nat) : List Byte :=
  let t := s.tlcs
  match j with
  | 6 => leBytes 1 (tlcsCode t.state)
  | 7 => intBytes 8 t.position
  | 8 => intBytes 4 t.tilt
  | 9 => intBytes 4 t.width
  | 10 => leBytes 1 (packLsb (((List.range 4).map fun r => (1, (t.valid.contains r).toNat)) ++ [(1, t.hold.toNat)]))
  | 11 => leBytes 4 t.flyEntries
  | _ => leBytes 4 t.unlocks

/-- 0x4870 and 0x4880 (R442); with no rebuild running `RebuildNext` is not stated. -/
def readRecovery (s : State) (j : Nat) : List Byte :=
  match j with
  | 2 => leBytes 1 (failedMembers s).length
  | 3 => bitMap 128 fun e => (getChan s e).failed
  | 4 => leBytes 1 s.wr.stopped.toNat
  | 16 => leBytes 8 s.rd.rebuiltSectors
  | 17 => leBytes 4 s.rd.stripesUnrecovered
  | 18 => leBytes 8 s.rd.retriesDone
  | 19 => leBytes 4 s.rd.summariesLost
  | 20 => leBytes 4 s.rd.tailUnverified
  | _ => ((s.index.lost.foldr insertUp []).take 16).flatMap (leBytes 8)
def readRebuild (s : State) (j : Nat) : List Byte :=
  match j, findRebuild s with
  | 1, r => leBytes 1 r.isSome.toNat
  | 2, some (_, x) => leBytes 8 x.next
  | 2, none => leBytes 8 (Config.measured (entryKey 0x4880 2) s.drawn)
  | _, _ => leBytes 4 s.rd.mothsWritten

/-- 0x5030 (R239). -/
def readPack (s : State) (j : Nat) : List Byte :=
  match j with
  | 1 => leBytes 8 s.pack.blocksWritten
  | 2 => leBytes 8 s.pack.blocksRaw
  | 3 => leBytes 8 s.pack.contentBytes
  | 4 => leBytes 8 s.pack.payloadBytes
  | 5 => leBytes 4 (sat32 s.pack.verifyMismatches)
  | 6 => leBytes 8 s.pack.laneSwitches
  | _ => leBytes 4 (sat32 s.pack.decompErrors)

/-- `KeySlotState` (R273). -/
def keyCode (k : KeyState) : Nat := match k with | .free => 0 | .loaded => 1 | .bound => 2 | .retiring => 3

/-- 0x5810 (R251, R273). -/
def readKey (s : State) (r : Reader) (j : Nat) : List Byte :=
  let k := (Tab.get? s.cip.slots r.keySel).bind fun x => if r.all || x.owner == r.fn then some x else none
  match j, k with
  | 1, _ => leBytes 2 r.keySel
  | 2, some x => leBytes 1 (keyCode x.state)
  | 3, some x => Crypto.fingerprint (beBytes 32 x.key.toNat)
  | 4, some x => leBytes 4 x.writerId.toNat
  | 5, some x => leBytes 8 x.next
  | 6, some x => leBytes 8 x.highWater
  | 7, some x => leBytes 2 x.binds
  | 2, none => leBytes 1 0
  | 3, none => leBytes 16 0
  | 4, none => leBytes 4 0
  | 7, none => leBytes 2 0
  | _, _ => leBytes 8 0

/-- `DeviceTransportKey`: the public key, zeros outside FIELD (R247, R273). -/
def transportKey (s : State) : List Byte :=
  match s.cip.transport with
  | some d => if s.lc.state = 2 then (match Crypto.ecMul 256 d.toNat (some Crypto.g256) with
      | some (x, y) => beBytes 32 x ++ beBytes 32 y
      | none => leBytes 64 0) else leBytes 64 0
  | none => leBytes 64 0

/-- 0x5820 to 0x5840 (R273); for a reader that is no function `FnKekState` is not stated. -/
def readCipher (s : State) (r : Reader) (i j : Nat) : List Byte :=
  if i = 0x5820 then
    if j = 1 then transportKey s
    else if r.all then leBytes 1 (Config.measured (entryKey 0x5820 2) s.drawn)
    else leBytes 1 (match Tab.get? s.cip.keks r.fn with | some k => k.2 | none => 0)
  else if i = 0x5830 then (if j = 1 then leBytes 2 s.cip.counters.length else leBytes 4 s.cip.persists)
  else if j = 1 then leBytes 8 s.cip.encrypted
  else if j = 2 then leBytes 8 s.cip.decrypted
  else leBytes 4 (sat32 s.cip.authFailures)

/-- `TceState` (R467). -/
def tceCode (t : TceState) : Nat := match t with | .off => 0 | .hold => 1 | .moving => 2 | .stopping => 3 | .fault => 4

/-- A radius in micrometres; before one is measured it is not stated. -/
def readRadius (s : State) (key : Nat) (v : Option Nat) : List Byte := leBytes 4 (v.getD (Config.measured key s.drawn))

/-- 0x6010 (R472). -/
def readTce (s : State) (j : Nat) : List Byte :=
  let t := s.tce
  match j with
  | 1 => leBytes 4 t.faults.toNat
  | 2 => leBytes 8 t.sat.toNat
  | 3 => leBytes 1 t.region
  | 4 => readRadius s (entryKey 0x6010 4) t.rT
  | 5 => readRadius s (entryKey 0x6010 5) t.rS
  | 6 => leBytes 2 (min 65535 (roundDiv t.tension 1000000).toNat)
  | 7 => intBytes 4 (roundDiv (t.pes - (loopOf s 0).setpoint) 100)
  | 8 => leBytes 1 (packLsb ((List.range 4).map fun r => (1, ((t.readers.getD r none).isSome).toNat)))
  | 9 => intBytes 4 (roundDiv t.width 1000)
  | 10 => leBytes 1 (satHours s)
  | 11 => leBytes 4 t.shockCount
  | 12 => leBytes 4 t.aslErrors
  | _ => leBytes 1 (!t.wprotHigh).toNat

/-- 0x7000 (R530). -/
def readFlash (s : State) (r : Reader) (j : Nat) : List Byte :=
  match j with
  | 5 => leBytes 2 s.flash.retired
  | 6 => leBytes 2 (spareBlocks s).length
  | 7 => leBytes 4 (s.flash.blocks.foldl (fun m p => max m p.2.eraseCount) 0)
  | 8 =>
    let live := s.flash.blocks.filter fun p => p.2.state != .retired
    let n := 2048 - (s.flash.blocks.length - live.length)
    leBytes 4 ((live.map fun p => p.2.eraseCount).sum / n)
  | 9 => leBytes 8 s.flash.correctedBits
  | 10 => leBytes 4 s.flash.uncorrectable
  | 11 => leBytes 4 s.flash.brownouts
  | 12 => leBytes 2 r.blockSel
  | _ => leBytes 8 (getBlock s r.blockSel).bits

/-- A field of the active manifest; that of the factory image is not given (R525, R530). -/
def readManifest (s : State) (j i n : Nat) : List Byte :=
  let m := activeManifest s
  leBytes n (if m.isEmpty then Config.measured (entryKey 0x7010 j) s.drawn else mfield m i n)

/-- 0x7010 (R530). -/
def readFw (s : State) (j : Nat) : List Byte :=
  let f := s.fw
  match j with
  | 1 => leBytes 8 f.activeSeq
  | 2 => leBytes 1 (f.active.getD 0xFF)
  | 3 => readManifest s 3 12 4
  | 4 => readManifest s 4 16 1
  | 5 => leBytes 1 f.floor
  | 6 => leBytes 1 f.lastResult
  | 7 => leBytes 4 f.fallbacks
  | 8 => leBytes 1 f.stagedState
  | 9 => leBytes 4 f.staged.length
  | _ => leBytes 4 (if 512 ≤ f.staged.length then mfield f.staged 12 4 else 0)

/-- 0x8000 to 0x8200 (R540, R541, R557). -/
def readSystem (s : State) (r : Reader) (i j : Nat) : List Byte :=
  if i = 0x8000 then
    (match j with
     | 1 => leBytes 2 r.eventSel
     | 2 => leBytes 1 (routeOf s r.eventSel)
     | _ => leBytes 4 (Tab.getD s.ev.counts r.eventSel 0))
  else if i = 0x8010 then
    (match j with
     | 1 => leBytes 4 s.ev.hostLostTotal
     | 2 => leBytes 4 s.ev.mgmtLostTotal
     | _ => leBytes 4 s.ev.hostPoisoned)
  else if i = 0x8020 then
    (match j with
     | 1 => leBytes 4 r.logIdx
     | 2 => (readLog s r.logIdx).1
     | _ => leBytes 4 (newestLog s))
  else if i = 0x8100 then
    (if j = 2 then bitMap 8 fun n => decide (n < 6) && resetting s n else bitMap 128 fun e => resetting s (0x80 + e))
  else if j = 1 then leBytes 1 s.pwr.now
  else (accrue s).health.residency.flatMap fun n => leBytes 8 (n / 1000000)

/-- 0x9000 and 0x9010:03 (R575). -/
def readLc (s : State) (i j : Nat) : List Byte :=
  if i = 0x9010 then leBytes 1 s.lc.job.isSome.toNat
  else match j with
    | 1 => leBytes 1 s.lc.state
    | 2 => leBytes 1 (lcCount s.lc.row)
    | 3 => leBytes 1 (fieldLeft s)
    | _ => leBytes 1 (if debugOpen s then 3 else 0)

/-- 0x1000 (R486). -/
def readIdentity (j : Nat) : List Byte :=
  match j with
  | 1 => Crypto.ascii "Plovnor Microsystems"
  | 2 => leBytes 2 0x80
  | 3 => Crypto.ascii "MK128"
  | 4 => leBytes 1 0xB1
  | 5 => [Config.temperatureGrade]
  | 6 => Config.serialNumber.take 16
  | 7 => fixedBytes 6 Config.macAddress
  | _ => leBytes 2 Config.dictVersion.toNat

/-- `StaxaKeyState` and `StaxaKeyCheck` of key `k` (R488). -/
def readStaxaKey (s : State) (k j : Nat) : List Byte :=
  match Tab.get? s.staxa.keys k with
  | none => if j = 2 then leBytes 1 0 else leBytes 8 0
  | some v => if j = 2 then leBytes 1 1 else Crypto.staxaCheck (beBytes 32 v.toNat)

/-- 0xA000, 0xA010 and 0xA020 (R180, R183, R441, R593); the supply voltages are measured. -/
def readHealth (s : State) (i j : Nat) : List Byte :=
  if i = 0xA000 then (if j = 1 then leBytes 1 (s.health.causes != 0#32).toNat else leBytes 4 s.health.causes.toNat)
  else if i = 0xA010 then
    (match j with
     | 1 => leBytes 8 s.dram.corrected
     | 2 => leBytes 8 s.dram.uncorrectable
     | 3 => leBytes 2 s.dram.sparesUsed
     | _ => leBytes 2 s.dram.listed.length)
  else match j with
    | 1 => leBytes 2 s.health.temp.toNat
    | 2 => leBytes 2 (match s.health.tempMax with | some t => t.toNat | none => Config.measured (entryKey 0xA020 2) s.drawn)
    | _ => leBytes 10 (Config.measured (entryKey 0xA020 3) s.drawn)

/-- The value of an entry that is not kept as a written value: RO entries, entries of session scope, and the W1C entries. -/
def roValue (s : State) (r : Reader) (i j : Nat) : List Byte :=
  let fam := familyOf i
  if i = 0x1000 then readIdentity j
  else if i = 0x1100 then
    (if j = 10 then leBytes 1 s.staxa.sessions.length else if j = 11 then leBytes 4 s.staxa.dropped else leBytes 4 s.staxa.authFailures)
  else if fam = 0x1110 then readStaxaKey s (i - 0x1110) j
  else if i = 0x2000 then leBytes 2 2048
  else if fam = 0x2400 then readPool s (i - 0x2400) j
  else if i = 0x3000 then leBytes 1 s.cart.state.code
  else if i = 0x3020 then readStream s r j
  else if fam = 0x4000 then readChannel s (i - 0x4000) j
  else if i = 0x4800 then leBytes (if j = 1 then 1 else if j ≤ 4 then 4 else 8) (readFormat s j)
  else if i = 0x4810 then leBytes 4 (if j = 1 then s.wr.encodeCheckFailures else s.wr.headerMoves)
  else if i = 0x4820 then readWrite s j
  else if i = 0x4830 then
    (if j = 3 then leBytes 8 s.wr.inhibitCount else leBytes 1 (packLsb [(1, s.wr.guardPos.toNat), (1, s.wr.guardShock.toNat), (1, s.wr.guardClock.toNat)]))
  else if i = 0x4840 then
    (if j = 7 then leBytes 1 s.wr.speed else if j = 8 then leBytes 4 (placementRate s) else leBytes 8 s.wr.speedChanges)
  else if i = 0x4860 then readTlcs s j
  else if i = 0x4870 then readRecovery s j
  else if i = 0x4880 then readRebuild s j
  else if i = 0x4890 then (if j = 2 then bitMap 128 (fun e => (getChan s e).headFault) else leBytes 4 s.tce.hcfErrors)
  else if i = 0x5030 then readPack s j
  else if i = 0x5800 then leBytes 2 s.cip.slots.length
  else if i = 0x5810 then readKey s r j
  else if 0x5820 ≤ i ∧ i ≤ 0x5840 then readCipher s r i j
  else if i = 0x6000 then (if j = 1 then leBytes 1 (tceCode s.tce.state) else intBytes 4 s.tce.speed)
  else if i = 0x6010 then readTce s j
  else if i = 0x7000 then readFlash s r j
  else if i = 0x7010 then readFw s j
  else if i = 0x7030 then leBytes 16 s.flash.diagResult.toNat
  else if 0x8000 ≤ i ∧ i ≤ 0x8200 then readSystem s r i j
  else if 0x9000 ≤ i ∧ i ≤ 0x9010 then readLc s i j
  else readHealth s i j

/-- The bytes that a read of an admitted entry returns; a WO entry reads zeros (R476). `LcChallenge` is read apart. -/
def readValue (s : State) (r : Reader) (i j : Nat) (e : Entry) : List Byte :=
  if e.acc = .wo then leBytes e.len 0
  else if e.acc = .ro || e.acc = .w1c || e.scope = .session || (i = 0x3020 && j = 4) || (i = 0x8000 && j = 2) then roValue s r i j
  else entryBytesOf s i j

end Sys2Proof.Machine
end

