-- ==== Sys2Proof/Machine/Dictionary.lean ====
section
/-! DEFINITION. The dictionary server: checks, reads, writes, persists, the window, and the rows that are writes of an entry
(R50, R114, R186, R187, R198, R232, R239, R273, R367, R401, R409, R472, R476-R483, R487-R492, R501, R536, R542, R544, R557,
R566, R589). -/

namespace Sys2Proof.Machine

/-- The state as a write would leave the values (R480). -/
def withVal (s : State) (i j : Nat) (v : List Byte) : State :=
  { s with dict := { s.dict with vals := Tab.put s.dict.vals (entryKey i j) v } }

/-- The pools and `IndexMemory`, as written, fit in 15,712 MiB (R186). -/
def memoryFits (s : State) : Bool :=
  decide (((List.range 5).map fun p => param s (0x2400 + p) 1 * poolSize p).sum + param s 0x3010 8 * 2 ^ 20 ≤ 15712 * 2 ^ 20)

/-- The dataset watermarks keep their order, below P4 as written and as in force (R198). -/
def watersOk (s : State) : Bool :=
  let high := param s 0x2404 9
  decide (param s 0x2404 10 < high) && decide (high + param s 0x2404 2 ≤ min (param s 0x2404 1) (poolOf s 4).count)

/-- The sum of an entry of every function (R50). -/
def fnSum (s : State) (j : Nat) : Nat := ((List.range 64).map fun f => param s (0x2100 + f) j).sum

/-- Numbers rise strictly. -/
def rising : List Nat → Bool
  | a :: b :: t => decide (a < b) && rising (b :: t)
  | _ => true

/-- Every triple of `HeadFrontInit` names a chip (R589). -/
def initOk (v : List Byte) : Bool :=
  decide (v.length % 3 = 0) && (initWrites (v.length / 3) v).all fun w => decide (w.1 ≤ 7)

/-- The dependencies that an entry names, and values that only some numbers of its range keep (step 5 of R480). -/
def dependsOk (s : State) (r : Reader) (i j : Nat) (v : List Byte) : Bool :=
  let n := leNat v
  let t := withVal s i j v
  let fam := familyOf i
  if fam = 0x2100 then (if j = 1 then decide (fnSum t 1 ≤ 4096) else if j = 2 then decide (fnSum t 2 ≤ 65536) else true)
  else if fam = 0x2400 then
    (if j = 1 then memoryFits t && decide (param s i 2 < n) && (i ≠ 0x2404 || watersOk t)
     else if j = 2 then decide (n < min (param s i 1) (poolOf s (i - 0x2400)).count) && (i ≠ 0x2404 || watersOk t)
     else if j = 9 then watersOk t && decide (param s 0x4820 7 ≤ n)
     else watersOk t)
  else if i = 0x3010 ∧ j = 8 then memoryFits t
  else if i = 0x4820 ∧ j = 3 then decide (n ≤ param s 0x4850 1)
  else if i = 0x4850 ∧ j = 1 then decide (param s 0x4820 3 ≤ n)
  else if i = 0x4820 ∧ j = 7 then decide (n ≤ param s 0x2404 9)
  else if i = 0x4890 then initOk v
  else if i = 0x5000 ∧ j = 3 then decide (n % 4096 = 0)
  else if i = 0x5000 ∧ j = 6 then decide (n % 65536 ≠ 0) && decide (n / 65536 ≠ 0)
  else if i = 0x5830 then retireOk s v
  else if i = 0x6000 ∧ j = 11 then rising (v.map (·.toNat))
  else if i = 0x6000 ∧ j = 12 then rising [leNat (v.take 4), leNat ((v.drop 4).take 4), leNat (v.drop 8)]
  else if i = 0x8000 ∧ j = 2 then defaultPrio r.eventSel ≠ 0 || n.testBit 1
  else if i = 0x8100 then domainCode n
  else if i = 0x9020 then Crypto.onCurve (beNat (v.take 32)) (beNat (v.drop 32))
  else if fam = 0x4000 ∧ j = 5 then n = 1 || (n = 2 && !restoreRefused s (i - 0x4000))
  else if i = 0x1100 ∧ j = 13 then n = 0x5A5A0001 || (n = 0x5A5A0002 && s.dict.armed)
  else true

/-- The entry may be written in the present state (step 6 of R480; R50, R273, R472). -/
def stateAdmits (s : State) (i j : Nat) : Bool :=
  if familyOf i = 0x2100 ∧ (j = 1 ∨ j = 5) then !s.host.vfEnable
  else if i = 0x5800 ∧ j = 4 then s.cip.slots.isEmpty
  else if i = 0x6000 ∧ 11 ≤ j ∧ j ≤ 18 then s.tce.state = .off || s.tce.state = .fault
  else true

/-- The principal and the life-cycle state admit the operation (step 2 of R480; R477, R478, R557, R566). -/
def admits (s : State) (r : Reader) (op : DictOp) (e : Entry) : Bool :=
  e.mask.testBit s.lc.state && (r.prin &&& (if op.isWrite then e.wr else e.rd)) ≠ 0 &&
    !(op.isWrite && decide (op.index = 0x8100) && !r.all && domainCode (leNat op.value) && !hostDomain (leNat op.value)) &&
    !(op.isWrite && decide (op.index = 0x9020) && s.lc.state ≠ 1)

/-- The value has the type's length, or one that it allows (step 4 of R480; R490). -/
def lengthOk (e : Entry) (v : List Byte) : Bool := if e.kind = .blobUpTo then decide (v.length ≤ e.len) else v.length = e.len

/-- The value lies within its range (step 5 of R480; R475). -/
def inRange (e : Entry) (v : List Byte) : Bool :=
  match e.kind with
  | .blob => true
  | .blobUpTo => true
  | .signed => decide (e.lo ≤ signedOf e.len (leNat v)) && decide (signedOf e.len (leNat v) ≤ e.hi)
  | .unsigned => decide (e.lo ≤ (leNat v : Int)) && decide ((leNat v : Int) ≤ e.hi)
  | .bool => decide (leNat v ≤ 1)

/-- Steps 1 to 6 of R480: the status of the first check that fails. -/
def checkOp (s : State) (r : Reader) (op : DictOp) : Option Status :=
  match findEntry op.index op.sub with
  | none => some .invalidField
  | some e =>
    if !admits s r op e then some .accessDenied
    else if !op.isWrite then none
    else if e.acc = .ro then some .accessDenied
    else if !lengthOk e op.value then some .invalidField
    else if !inRange e op.value || !dependsOk s r op.index op.sub op.value then some .invalidField
    else if !stateAdmits s op.index op.sub then some .stateConflict
    else none

/-- Keep the reader's copies of the entries of session scope (R479). -/
def keepCopies (src : DictSrc) (r : Reader) (s : State) : State :=
  let fn := fun f => updFn f (fun x => { x with streamSel := r.streamSel, keySel := r.keySel, eventSel := r.eventSel, logIdx := r.logIdx,
                                                blockSel := r.blockSel }) s
  match src with
  | .cmd _ => fn r.fn
  | .window f => fn f
  | .staxa id => updSession id (fun x => { x with streamSel := r.streamSel, keySel := r.keySel, eventSel := r.eventSel,
                                                  logIdx := r.logIdx, blockSel := r.blockSel }) s
  | .row => s

/-- A write of `StreamFlags`: WriteFailed is cleared by the owner of the stream or MGMT (R151, R476). -/
def clearFlags (r : Reader) (n : Nat) (s : State) : State :=
  if n.testBit 7 && (seenStream s r).isSome then updStream r.streamSel (fun x => { x with writeFailed := false }) s else s

/-- A write of `StaxaKey` (R488). -/
def putStaxaKey (k : Nat) (v : List Byte) (s : State) : State :=
  let keys := if v.all (· == 0#8) then Tab.del s.staxa.keys k else Tab.put s.staxa.keys k (BitVec.ofNat 256 (beNat v))
  { s with staxa := { s.staxa with keys := keys } }

/-- A write of `ReplaceAcknowledge`, of `LoopSatFlags` (R441, R472). -/
def ackCauses (n : Nat) (s : State) : State :=
  let keep := (List.range 4).foldl (fun (a : BitVec 32) b =>
    if s.health.causes.getLsbD b && (!n.testBit b || causeHolds s b) then a ||| BitVec.ofNat 32 (2 ^ b) else a) 0#32
  { s with health := { s.health with causes := keep } }
def clearSat (n : Nat) (s : State) : State := { s with tce := { s.tce with sat := s.tce.sat &&& ~~~BitVec.ofNat 64 n } }

/-- A write of `DomainReset`: it completes when the domain is ready, or at once for a powered-down domain (R546, R554, R557). -/
def writeReset (src : DictSrc) (code : Nat) (s : State) : Option DictAns × State :=
  if !(s.resets.any fun r => r.code == code && !r.deferred) && poweredDown s code then
    (some { st := .success }, startReset code 5 [] s)
  else (none, startReset code 5 [src] s)

/-- The effect of a write that is not persisted: its answer, or none when it is answered later. -/
def writeNow (src : DictSrc) (r : Reader) (op : DictOp) (s : State) : Option DictAns × State :=
  let i := op.index
  let j := op.sub
  let n := leNat op.value
  let fam := familyOf i
  let ok := fun (s : State) => (some ({ st := .success } : DictAns), s)
  if i = 0x1100 then ok { s with dict := { s.dict with armed := true } }
  else if fam = 0x1110 then ok (putStaxaKey (i - 0x1110) op.value s)
  else if i = 0x3020 then (if j = 1 then ok (keepCopies src { r with streamSel := n } s) else ok (clearFlags r n s))
  else if fam = 0x4000 ∧ j = 5 then ok (if n = 1 then declareFailed (i - 0x4000) 4 s else restoreCommand (i - 0x4000) s)
  else if i = 0x5810 then ok (keepCopies src { r with keySel := n } s)
  else if i = 0x5830 then ok { s with cip := { s.cip with counters := Tab.del s.cip.counters (retirePair op.value) } }
  else if i = 0x6010 then ok (if j = 1 then tceClear (BitVec.ofNat 32 n) s else clearSat n s)
  else if i = 0x7000 then ok (keepCopies src { r with blockSel := n } s)
  else if i = 0x7030 then ok (submitFlash { d := BitVec.ofNat 256 n, diag := true } s)
  else if i = 0x8000 then ok (keepCopies src { r with eventSel := n } s)
  else if i = 0x8020 then ok (keepCopies src { r with logIdx := n } s)
  else if i = 0x8100 then writeReset src n s
  else if i = 0x8200 then ok (powerRequest n s)
  else if i = 0x9010 then lcRequest src r.prin op.value s
  else if i = 0xA000 then ok (ackCauses n s)
  else ok (withVal s i j op.value)

/-- A write is persisted first: an RWP entry, and the second write of `DictRestoreDefaults` (R483). -/
def persists (op : DictOp) : Bool :=
  (match findEntry op.index op.sub with | some e => e.acc == .rwp | none => false) ||
    (decide (op.index = 0x1100 ∧ op.sub = 13) && decide (leNat op.value = 0x5A5A0002))

/-- A read that the checks admit: its value and the state after it (R542, R567); an open value is drawn. -/
def readNow (src : DictSrc) (r : Reader) (op : DictOp) (s : State) : List Byte × State :=
  if op.index = 0x9010 ∧ op.sub = 1 then lcChallenge s
  else if op.index = 0x8020 ∧ op.sub = 2 then
    let x := readLog s r.logIdx
    (x.1, keepCopies src { r with logIdx := x.2 } s)
  else match findEntry op.index op.sub with
    | some e => (readValue s r op.index op.sub e, drew s)
    | none => ([], s)

/-- Bytes that an operation adds to a RESPONSE (R498). -/
def resultSize (s : State) (r : Reader) (op : DictOp) : Nat :=
  if op.isWrite || (checkOp s r op).isSome then 8
  else match findEntry op.index op.sub with
    | some e => 8 + (if op.index = 0x9010 ∧ op.sub = 1 then 32 else (readValue s r op.index op.sub e).length)
    | none => 8

/-- The result would take the RESPONSE past 1,168 payload bytes: the REQUEST stops before it (R498). -/
def overfull (s : State) (r : Reader) (op : DictOp) : Option Nat :=
  match op.src with
  | .staxa id => ((Tab.get? s.staxa.sessions id).bind (·.running)).bind fun x =>
      if 1168 < 4 + x.2.2.1.length + resultSize s r op then some id else none
  | _ => none

/-- A write that comes through the window or Staxa while the device is ACTIVATING (R492, R501). -/
def heldByActivation (s : State) (op : DictOp) : Bool :=
  activating s && op.isWrite && (match op.src with | .window _ => true | .staxa _ => true | _ => false)

/-- Carry out one operation, taken from the queue; a write to be persisted stays at the queue's head (R481, R483). -/
def serveOp (op : DictOp) (s : State) : State :=
  match readerOf s op.src with
  | none => s
  | some r =>
    match overfull s r op with
    | some id => staxaRespond id s
    | none =>
      let reply := fun (a : DictAns) s => answerDict op.src op.isWrite op.value.length a s
      if heldByActivation s op then reply { st := .stateConflict } s
      else match checkOp s r op with
        | some st => reply { st := st } s
        | none =>
          if !op.isWrite then
            let x := readNow op.src r op s
            reply { st := .success, value := x.1 } x.2
          else if persists op then
            { s with dict := { s.dict with queue := { op with source := r.eventSel } :: s.dict.queue, persisting := true, armed := s.dict.armed && decide (op.index ≠ 0x1100 ∨ op.sub ≠ 13) } }
          else
            let x := writeNow op.src r op s
            match x.1 with
            | some a => reply a x.2
            | none => x.2

/-- Serve operations one at a time until the queue is empty or a write is being persisted; a management domain in reset
serves none (R481, R546). -/
def serveLoop : Nat → State → State
  | 0, s => s
  | n + 1, s =>
    if s.dict.persisting || resetting s 5 then s
    else match s.dict.queue with
      | [] => s
      | op :: t => serveLoop n (serveOp op { s with dict := { s.dict with queue := t } })

/-- Operations that may still come to the queue. -/
def serveFuel (s : State) : Nat :=
  s.dict.queue.length + (s.staxa.sessions.map fun p => match p.2.running with | some x => x.2.1.length | none => 0).sum + 1

/-- Let the dictionary server go on. -/
def serve (s : State) : State := serveLoop (serveFuel s) s

/-- DICT_READ (R114, R481). -/
def execDictRead (slot : SlotId) (s : State) : Result :=
  .next (onCmd slot.val [opDictRead] (fun c s =>
    serve (queueOp { src := .cmd slot.val, isWrite := false, index := eIndex c.entry, sub := eSub c.entry, value := [] }
      (setStage slot.val .waiting s))) s)

/-- DICT_WRITE: `value` is what the data buffer holds; of a buffer longer than any value only the length counts
(R114, R475, R481, R490). -/
def execDictWrite (slot : SlotId) (value : List Byte) (s : State) : Result :=
  .next (onCmd slot.val [opDictWrite] (fun c s =>
    let n := eLen c.entry
    if n ≤ 1024 && value.length ≠ n then s
    else
      let v := if n ≤ 1024 then value else List.replicate 1025 0#8
      serve (queueOp { src := .cmd slot.val, isWrite := true, index := eIndex c.entry, sub := eSub c.entry, value := v }
        (setStage slot.val .waiting s))) s)

/-- Entries whose change ends every Staxa session (R487). -/
def endsSessions (op : DictOp) : Bool := decide (op.index = 0x1100 ∧ 2 ≤ op.sub ∧ op.sub ≤ 8)

/-- DICT_PERSIST_DONE: the value is in flash and read back, or it could not be (R480, R483, R487). -/
def execDictPersistDone (ok : Bool) (s : State) : Result :=
  if !s.dict.persisting then .next s
  else match s.dict.queue with
    | [] => .next { s with dict := { s.dict with persisting := false } }
    | op :: t =>
      let changed := ok && endsSessions op && entryBytesOf s op.index op.sub != op.value
      let s := { s with dict := { s.dict with queue := t, persisting := false } }
      let s := if ok then storeRwp op s else s
      let s := answerDict op.src true op.value.length { st := if ok then .success else .internalError } s
      .next (serve (if changed then lapseSessions op.src s else s))

/-- Start an operation of a function's window (R491, R492). -/
def startWindow (f : Nat) (op : DictOp) (s : State) : State :=
  if !fnExists s f || (getFn s f).win.busy then s
  else serve (queueOp op (updFn f (fun x => { x with win := { x.win with busy := true } }) s))

/-- DICT_WINDOW_READ: Op 1 (R491, R492). -/
def execDictWindowRead (fn : FnId) (s : State) : Result :=
  let w := (getFn s fn.val).win
  .next (startWindow fn.val { src := .window fn.val, isWrite := false, index := w.index.toNat, sub := w.sub.toNat, value := [] } s)

/-- DICT_WINDOW_WRITE: Op 2 with this WriteLength (R491, R492). -/
def execDictWindowWrite (fn : FnId) (length : BitVec 11) (s : State) : Result :=
  let w := (getFn s fn.val).win
  let v := (List.range length.toNat).map fun k => Tab.getD w.buf k 0#8
  .next (startWindow fn.val { src := .window fn.val, isWrite := true, index := w.index.toNat, sub := w.sub.toNat, value := v } s)

/-- A write of an entry by MGMT whose row is the write itself. -/
def rowWrite (i j : Nat) (v : List Byte) (s : State) : State :=
  serve (queueOp { src := .row, isWrite := true, index := i, sub := j, value := v } s)

/-- DICT_RESTORE_ARM: 0x5A5A_0001 written to `DictRestoreDefaults` (R483). -/
def execDictRestoreArm (s : State) : Result := .next (rowWrite 0x1100 13 (leBytes 4 0x5A5A0001) s)

/-- DICT_RESTORE_CONFIRM: 0x5A5A_0002 written within 10 s; the request is persisted (R483). -/
def execDictRestoreConfirm (s : State) : Result := .next (rowWrite 0x1100 13 (leBytes 4 0x5A5A0002) s)

/-- DICT_RESTORE_TIMEOUT (R483). -/
def execDictRestoreTimeout (s : State) : Result := .next { s with dict := { s.dict with armed := false } }

/-- STAXA_KEY_WRITE (R488). -/
def execStaxaKeyWrite (k : Fin 8) (key : List Byte) (s : State) : Result := .next (rowWrite (0x1110 + k.val) 1 key s)

/-- LC_FUSE_PROGRAMMED (R570, R571). -/
def execLcFuseProgrammed (ok : Bool) (s : State) : Result := .next (serve (lcFuse ok s))

/-- DOMAIN_RESET_WRITE: `DomainReset` written by MGMT, or by HOST-PF where it may (R544, R546, R554, R557). -/
def execDomainResetWrite (mgmt : Bool) (code : Byte) (s : State) : Result :=
  let c := code.toNat
  if s.lc.state = 4 || !domainCode c || !(mgmt || hostDomain c) then .next s else .next (startReset c 5 [] s)

/-- DOMAIN_READY: the reset is over; its event, and the writes of `DomainReset` that waited. The management domain is ready
once its firmware has started (R269, R409, R471, R513, R544, R548, R557, R558). -/
def execDomainReady (code : Byte) (testsPass : Bool) (s : State) : Result :=
  let c := code.toNat
  match s.resets.find? fun r => r.code == c && !r.deferred with
  | none => .next s
  | some r =>
    if c = 5 && s.fw.starting then .next s
    else
      let s := domainUp c testsPass { s with resets := s.resets.filter fun x => x.code != c || x.deferred }
      let s := raise 0x7D0 [iCode c, (8, r.cause)] s
      .next (serve (r.waits.foldl (fun s w => answerDict w true 1 { st := .success } s) s))

end Sys2Proof.Machine
end

