-- ==== Sys2Proof/Machine/Reads.lean ====
section
/-! DEFINITION. READ, READ_RAW and REBUILD_RANGE, decryption and decoding of blocks read, and the scheduling of reads
(R118, R130-R135, R176, R233, R234, R264, R265, R425, R430). -/

namespace Sys2Proof.Machine

/-- Start a READ or READ_RAW; one that needs a poisoned entry of the index ends with INTERNAL_ERROR, and one whose stream is gone
with its cartridge with TRANSPORT_FAULT (R62, R99, R141, R180, R181). -/
def beginRead (slot : Nat) (ecc : List EccWord) (c : Cmd) (s : State) : State :=
  let bad := poisonedIndex s ecc
  let s := eccReads ecc s
  if bad then failCmd slot .internalError (poisonInfo bStream) (answer 0x30 .parityPoison none c.tag s)
  else match getStream s (eStream c.entry) with
    | some _ => settle (setStage slot (.reading { room := if eDataMode c.entry = 1 then some (eLen c.entry) else none }) s)
    | none => finish slot .transportFault bTce s

/-- READ (R130-R134). -/
def execRead (slot : SlotId) (ecc : List EccWord) (s : State) : Result := .next (onCmd slot.val [opRead] (beginRead slot.val ecc) s)

/-- READ_RAW (R130, R135, R423). -/
def execReadRaw (slot : SlotId) (ecc : List EccWord) (s : State) : Result :=
  .next (onCmd slot.val [opReadRaw] (beginRead slot.val ecc) s)

/-- REBUILD_RANGE; the tape may have gone out of use since its fetch, and a poisoned entry of the index ends it (R99, R118, R180,
R181, R425, R430). -/
def execRebuildRange (slot : SlotId) (ecc : List EccWord) (s : State) : Result :=
  .next (onCmd slot.val [opRebuild] (fun c s =>
    let bad := poisonedIndex s ecc
    let s := eccReads ecc s
    if tapeGone s then finish slot.val .transportFault bTce { s with cart := { s.cart with rebuilding := none } }
    else if bad then
      complete slot.val (fun c => baseCpl c .internalError) (poisonInfo bStream)
        (answer 0x30 .parityPoison none c.tag { s with cart := { s.cart with rebuilding := none } })
    else
      settle (setStage slot.val (.rebuilding { next := eDsFirst c.entry, last := eDsFirst c.entry + eDsCount c.entry - 1 }) s)) s)

/-- READ_BATCH_WINDOW: the collection of requests ends and the batch starts (R176). -/
def execReadBatchWindow (s : State) : Result :=
  if s.rd.collecting then .next (startRead { s with rd := { s.rd with collecting := false, batch := true, last := 0 } }) else .next s

/-- READ_AGE_LIMIT: a dataset that a command needs is read next (R176). -/
def execReadAgeLimit (dataset : Nat) (s : State) : Result :=
  if s.rd.queue.contains dataset && s.rd.urgent.isNone then .next { s with rd := { s.rd with urgent := some dataset } }
  else .next s

/-- A block read, by its model identity. -/
def getTape (s : State) (id : Nat) : Option TapeBlk := s.rd.blks.find? fun b => b.id == id

/-- Replace a block read. -/
def setTape (b : TapeBlk) (s : State) : State :=
  { s with rd := { s.rd with blks := s.rd.blks.map fun x => if x.id = b.id then b else x } }

/-- Event items of a block that failed on a read (R234, R265). -/
def TapeBlk.items (b : TapeBlk) (s : State) : List (Nat × Nat) :=
  [iStream b.stream, iRecord b.first, iWrap (placeOf s.cart.wraps s.cart.grid b.phys).1, iDataset b.phys]

/-- Decrypt and authenticate a block under a key; none is a failure of R265 (R243, R264, R265). -/
def decryptBlk (key : BitVec 256) (b : TapeBlk) : Option (List Byte) :=
  if !b.encrypted || b.bytes.length ≠ b.size then none
  else
    Crypto.gcmDec key (BitVec.ofNat 96 (beNat ((b.bytes.drop 32).take 12))) (b.bytes.take 32)
      ((b.bytes.drop 44).take b.payloadLen) (BitVec.ofNat 128 (beNat (b.bytes.drop (44 + b.payloadLen))))

/-- The tags of the commands that a block serves name the buffer it is now in (R18). -/
def retagReaders (b : TapeBlk) (id : Nat) (s : State) : State := (blkReaders s b).foldl (fun s n => retag (tagOf s n) id s) s

/-- A poisoned word in a buffer of a block read: its data is not used, and the commands that it serves complete with INTERNAL_ERROR
(R181). -/
def blkPoisoned (owner block : Nat) (b : TapeBlk) (id : Nat) (s : State) : State :=
  let slots := blkReaders s b
  let s := answer owner .parityPoison (some id) (blkTag s b) s
  settle (slots.foldl (fun s n => failCmd n .internalError (poisonInfo block) s) s)

/-- A block read whose Flow Tag arrives with a parity error is not acted on, and the command that the tag names completes with
INTERNAL_ERROR (R22). -/
def blkTagBad (owner block : Nat) (b : TapeBlk) (s : State) : State := settle (badTag owner b.buf (blkTag s b) block s)

/-- The decompressor that takes the plaintext of a block: the first engine of its class in use and at rest, else the first of its
class. DESIGN CHOICE (log entry 100): the manual does not say which. -/
def givenEngine (s : State) (comp : Nat) : Nat :=
  match (List.range 24).find? fun e => engineServes e comp && engineEnabled s e && (getEngine s e).busy.isNone with
  | some e => e
  | none => if comp = 2 then 16 else 0

/-- The plaintext of a block goes to a decompressor in its buffer; on a mismatch the buffer is zeroed and freed (R189, R264,
R265). -/
def decrypted (pair : Nat) (k : KeySlot) (b : TapeBlk) (id : Nat) (s : State) : State :=
  let s := countDraws s
  match decryptBlk k.key b with
  | some p =>
    let s := { s with cip := { s.cip with decrypted := s.cip.decrypted + 1 } }
    settle (setTape { b with plain := some p } (giveOwn (0x70 + pair) id (0x50 + givenEngine s b.comp) (blkTag s b) s))
  | none =>
    let s := { s with cip := { s.cip with authFailures := sat32 (s.cip.authFailures + 1) } }
    settle (raise 0x521 (b.items s) (setTape { b with authFailed := true, buf := none } (freeOwn (0x70 + pair) id (blkTag s b) s)))

/-- The key slot bound to the stream that reads; none for a stream opened without its key (R119, R264). -/
def blkKey (s : State) (n : Nat) : Option KeySlot :=
  (getStream s n).bind fun x => if x.noKey then none else Tab.get? s.cip.slots x.keySlot

/-- BLOCK_DECRYPTED: the decryptor writes into a buffer of its own, for which it may wait (R22, R180, R181, R193, R196, R264, R265,
R269, R273). -/
def execBlockDecrypted (pair : Fin 4) (block : Nat) (ecc : List EccWord) (tagOk : Bool) (s : State) : Result :=
  match getTape s block with
  | none => .next s
  | some b =>
    match blkKey s b.stream with
    | none => .next s
    | some k =>
      if !ciphered s b.stream || s.cip.failed || b.plain.isSome || b.authFailed || b.unreadable || decide (0 < b.short) ||
          b.bufReq.isSome || resetting s 2 then .next s
      else if !tagOk then .next (blkTagBad (0x70 + pair.val) bCipher b s)
      else
        let r := match b.buf with
          | some id => (s, some id, none)
          | none => askBuf (0x70 + pair.val) (max 1 b.payloadLen) (blkTag s b) s
        match r.2.1 with
        | none => .next (setTape { b with bufReq := r.2.2 } r.1)
        | some id =>
          let s := retagReaders b id r.1
          let bad := poisonedBuf s ecc id
          let s := eccReads ecc s
          let b := { b with buf := some id }
          if bad then .next (blkPoisoned (0x70 + pair.val) bCipher b id (setTape b s))
          else .next (decrypted pair.val k b id s)

/-- The payload that a decoder takes. -/
def TapeBlk.coded (b : TapeBlk) : List Byte := b.plain.getD b.payload

/-- One block decoded from the state of its lane: its fragments, and the state after it where the state before it was known; none
is a decoding error (R207, R208, R215, R216, R222, R224, R234, R265). -/
def decodeOne (s : State) (known : Bool) (st : LaneState) (b : TapeBlk) : Option (TapeBlk × LaneState) :=
  if (b.encrypted && !ciphered s b.stream) || b.bytes.length ≠ b.size then none
  else match decodeBlock b.comp b.raw b.independent st b.coded b.contentLen with
    | none => none
    | some (content, st') =>
      if (crc32c content).toNat ≠ b.crc then none
      else match contentFrags b.first content with
        | some l =>
          if l.length = b.fragCount then
            some ({ b with frags := some l, after := if known || b.independent || b.comp ≠ 1 then some st' else none }, st')
          else none
        | none => none

/-- Decode a lane's blocks in order: those decoded, and the first that could not be (R233, R234). -/
def decodeLane (s : State) (known : Bool) : LaneState → List TapeBlk → List TapeBlk × Option TapeBlk
  | _, [] => ([], none)
  | st, b :: t =>
    match decodeOne s known st b with
    | none => ([], some b)
    | some (d, st') =>
      let r := decodeLane s (known || b.independent) st' t
      (d :: r.1, r.2)

/-- Where decoding starts: at the lane state kept after the first block of the history, or before it (R233). -/
def laneStart (l : List TapeBlk) : Option LaneState × List TapeBlk :=
  match l with
  | p :: t => match p.after with
    | some st => (some st, t)
    | none => (none, l)
  | [] => (none, [])

/-- Buffers of a block read are free again, where it is still held. -/
def freeDecoded (s : State) (id : Nat) : State :=
  match getTape s id with
  | some b =>
    let t := blkTag s b
    setTape { b with buf := none, outBuf := none } (freeOpt b.outBuf t (freeOpt b.buf t s))
  | none => s

/-- A block goes on where the stream's block before it left off: a middle or last part that comes first belongs to the record of the
fragment before it, which does not end it (R208). -/
def follows (p b : TapeBlk) : Bool :=
  match p.frags.bind (·.getLast?), b.frags.bind (·.head?) with
  | some x, some y => y.begins || (x.number == y.number && !x.ends)
  | _, _ => true

/-- The blocks read of a stream that follow each other there, with no dataset between them that is unread or whose blocks could not
be found. -/
def inSequence (s : State) (p b : TapeBlk) : Bool :=
  p.dataset == b.dataset || (!s.rd.gaps.contains p.dataset && !s.rd.gaps.contains b.dataset &&
    (earlierDs s b.stream b.dataset).all fun d => decide (d ≤ p.dataset))

/-- Decoded blocks of a stream whose fragments break R208 with those of the block before (R234). -/
def brokenBlks (s : State) (n : Nat) : List TapeBlk :=
  let l := (streamBlks s n).map (·.1)
  (l.zip (l.drop 1)).filterMap fun p => if !p.2.fault && inSequence s p.1 p.2 && !follows p.1 p.2 then some p.2 else none

/-- A decoding error of a block: counted, reported, and the block is unreadable (R234). -/
def markFault (x : TapeBlk) (s : State) : State :=
  let s := { s with pack := { s.pack with decompErrors := sat32 (s.pack.decompErrors + 1) } }
  raise 0x512 (x.items s) (setTape { x with fault := true } s)

/-- A chain of blocks decoded: each keeps its fragments and its lane state; the first that fails, and one whose fragments do not
follow those before it, makes itself and those that depend on it unreadable (R233, R234). -/
def decodeChain (l : List TapeBlk) (b : TapeBlk) (s : State) : State :=
  let p := laneStart l
  let r := decodeLane s p.1.isSome (p.1.getD {}) (p.2 ++ [b])
  let s := r.1.foldl (fun s x => setTape x s) s
  let done := fun (s : State) => freeDecoded ((r.1.map (·.id)).foldl freeDecoded s) b.id
  let s := match r.2 with
    | none => s
    | some x => markFault x s
  settle (done ((brokenBlks s b.stream).foldl (fun s x => markFault x s) s))

/-- BLOCK_DECODE on an engine in use that encodes nothing; its output takes a buffer, for which it may wait (R22, R180, R181, R193,
R196, R204, R232-R234). -/
def execBlockDecode (engine : Fin 24) (block : Nat) (ecc : List EccWord) (tagOk : Bool) (s : State) : Result :=
  let e := engine.val
  match getTape s block with
  | none => .next s
  | some b =>
    match blkState s b, histOf s b with
    | .wait, .ready l =>
      if !engineServes e b.comp || !engineEnabled s e || (getEngine s e).busy.isSome || b.outReq.isSome ||
          (ciphered s b.stream && (b :: (laneStart l).2).any fun p => p.plain.isNone) then .next s
      else if !tagOk then .next (blkTagBad (0x50 + e) (if e < 16 then bCompW else bCompD) b s)
      else
        let r := match b.outBuf with
          | some id => (s, some id, none)
          | none => askBuf (0x50 + e) (max 1 b.contentLen) (blkTag s b) s
        match r.2.1 with
        | none => .next (setTape { b with outReq := r.2.2 } r.1)
        | some id =>
          let s := retagReaders b id r.1
          let bad := poisonedBuf s ecc id || (match b.buf with | some i => poisonedBuf s ecc i | none => false)
          let s := eccReads ecc s
          let b := { b with outBuf := some id }
          let s := setTape b s
          if bad then .next (blkPoisoned (0x50 + e) (if e < 16 then bCompW else bCompD) b id s)
          else .next (decodeChain l b s)
    | _, _ => .next s

end Sys2Proof.Machine
end

