-- ==== Sys2Proof/Machine/Staxa.lean ====
section
/-! DEFINITION. Staxa sessions and the management port (R487, R488, R493-R501). -/

namespace Sys2Proof.Machine

/-- The port serves Staxa: its domain is not in reset, and `StaxaEnable` is 1 (R487, R495). -/
def staxaOn (s : State) : Bool := decide (param s 0x1100 1 = 1)

/-- Count a datagram dropped (R495). -/
def dropDatagram (s : State) : State := { s with staxa := { s.staxa with dropped := sat32 (s.staxa.dropped + 1) } }

/-- Count a Tag failure; the message is dropped (R495). -/
def tagFailed (s : State) : State := { s with staxa := { s.staxa with authFailures := sat32 (s.staxa.authFailures + 1) } }

/-- An ERROR message, at most 100 a second (R495). -/
def staxaError (code session seq : Nat) (s : State) : State :=
  let now := s.time.toNat
  let recent := s.staxa.errTimes.filter fun t => decide (now < t + 1000000000)
  if 100 ≤ recent.length then s
  else emit (.staxa (staxaMessage 7 session seq 0 0 [BitVec.ofNat 8 code, 0#8, 0#8, 0#8]))
    { s with staxa := { s.staxa with errTimes := now :: recent } }

/-- The key of a KeyId: none when it is not admitted, `some none` for KeyId 0 (R488, R500). -/
def staxaKey (s : State) (keyId : Nat) : Option (Option (BitVec 256)) :=
  let lc := s.lc.state
  if keyId = 0 then (if lc = 2 then none else some none)
  else if keyId ≤ 8 then (if lc = 4 then none else (Tab.get? s.staxa.keys (keyId - 1)).map some)
  else if keyId = 0xFF then (if lc = 0 ∨ lc = 1 ∨ lc = 3 then some (some Config.makerKey) else none)
  else none

/-- A message's Tag is right; with KeyId 0 there is none (R494, R496). -/
def tagOk (kind session seq keyId : Nat) (key : BitVec 256) (payload : List Byte) (tag : BitVec 128) : Bool :=
  keyId = 0 || (staxaMessage kind session seq keyId key payload).drop (16 + payload.length) == beBytes 16 tag.toNat

/-- Open a session (R479, R496). -/
def openSession (nonce : BitVec 128) (asked keyId : Nat) (key : Option (BitVec 256)) (s : State) : State :=
  let a := drawRandom s
  let b := drawRandom a.2
  let s := b.2
  let device := beBytes 16 (a.1.toNat % 2 ^ 128)
  let id := (Tab.lowest s.staxa.sessions 17 (b.1.toNat % (2 ^ 32 - 17) + 1)).getD 1
  let session := match key with
    | some k => BitVec.ofNat 256 (beNat (Crypto.hmac (beBytes 32 k.toNat)
        (Crypto.ascii "PLVSTX01" ++ beBytes 16 nonce.toNat ++ device ++ beBytes 4 id)))
    | none => 0#256
  let granted := max 5 (min (if asked = 0 then param s 0x1100 9 else asked) 3600)
  let maker := decide (keyId = 0xFF)
  let payload := device ++ beBytes 2 granted ++ [if maker then 3#8 else 1#8, BitVec.ofNat 8 s.lc.state]
  let ack := staxaMessage 2 id 0 keyId session payload
  let x : Session := { keyId := keyId, key := session, clientNonce := nonce, ack := ack, maker := maker, timeout := granted }
  emit (.staxa ack) { s with staxa := { s.staxa with sessions := Tab.put s.staxa.sessions id x } }

/-- STAXA_OPEN (R495, R496, R500). -/
def execStaxaOpen (nonce : BitVec 128) (timeout : BitVec 16) (keyId : Byte) (tag : BitVec 128) (s : State) : Result :=
  let k := keyId.toNat
  let payload := beBytes 16 nonce.toNat ++ beBytes 2 timeout.toNat ++ [0#8, 0#8]
  if resetting s 5 then .next s
  else if !staxaOn s then .next (dropDatagram s)
  else match staxaKey s k with
    | none => .next (staxaError 6 0 0 s)
    | some key =>
      if !tagOk 1 0 0 k (key.getD 0) payload tag then .next (tagFailed s)
      else match s.staxa.sessions.find? fun p => p.2.clientNonce == nonce && p.2.keyId == k with
        | some p => .next (emit (.staxa p.2.ack) s)
        | none =>
          if 16 ≤ s.staxa.sessions.length then .next (staxaError 2 0 0 s)
          else .next (openSession nonce timeout.toNat k key s)

/-- The bytes of an operation in a REQUEST (R498). -/
def opBytes (o : StaxaOp) : List Byte :=
  [BitVec.ofNat 8 o.op, BitVec.ofNat 8 o.sub] ++ beBytes 2 o.index ++ beBytes 2 o.value.length ++ [0#8, 0#8] ++ o.value

/-- The payload of a REQUEST (R498). -/
def requestPayload (ops : List StaxaOp) : List Byte := [BitVec.ofNat 8 ops.length, 0#8, 0#8, 0#8] ++ ops.flatMap opBytes

/-- A REQUEST is as R498 lays down (R499). -/
def requestOk (ops : List StaxaOp) : Bool :=
  decide (1 ≤ ops.length ∧ ops.length ≤ 64) && (ops.all fun o => (o.op = 1 && o.value.isEmpty) || o.op = 2) &&
    decide ((requestPayload ops).length ≤ 1168)

/-- In SCRAPPED only reads of region 0x1000 are allowed (R495, R500). -/
def requestAllowed (s : State) (ops : List StaxaOp) : Bool :=
  s.lc.state ≠ 4 || ops.all fun o => o.op = 1 && o.index / 256 = 0x10

/-- The sequence rules of a REQUEST (R497): executed, dropped, sent again, or refused. -/
def takeRequest (id seq : Nat) (ops : List StaxaOp) (x : Session) (s : State) : State :=
  if x.last ≠ 0xFFFFFFFF ∧ seq = x.last + 1 then
    if x.running.isSome then s
    else match ops with
      | o :: _ => serve (queueOp (opOfStaxa id o) (updSession id (fun x => { x with running := some (seq, ops, [], 0) }) s))
      | [] => s
  else if seq = x.last ∧ x.last ≠ 0 then emit (.staxa x.response) s
  else staxaError 5 id seq s

/-- STAXA_REQUEST (R495, R497-R500). -/
def execStaxaRequest (session seq : BitVec 32) (ops : List StaxaOp) (tag : BitVec 128) (s : State) : Result :=
  let id := session.toNat
  if resetting s 5 then .next s
  else if !staxaOn s then .next (dropDatagram s)
  else match Tab.get? s.staxa.sessions id with
    | none => .next (staxaError 1 id seq.toNat s)
    | some x =>
      if !tagOk 3 id seq.toNat x.keyId x.key (requestPayload ops) tag then .next (tagFailed s)
      else if !requestOk ops then .next (staxaError 4 id seq.toNat s)
      else if !requestAllowed s ops then .next (staxaError 7 id seq.toNat s)
      else .next (takeRequest id seq.toNat ops x s)

/-- End a session (R496). -/
def endSession (id : Nat) (s : State) : State := { s with staxa := { s.staxa with sessions := Tab.del s.staxa.sessions id } }

/-- STAXA_CLOSE (R496, R497). -/
def execStaxaClose (session seq : BitVec 32) (tag : BitVec 128) (s : State) : Result :=
  let id := session.toNat
  if resetting s 5 then .next s
  else if !staxaOn s then .next (dropDatagram s)
  else match Tab.get? s.staxa.sessions id with
    | none => .next (staxaError 1 id seq.toNat s)
    | some x =>
      if !tagOk 5 id seq.toNat x.keyId x.key [] tag then .next (tagFailed s)
      else if seq.toNat ≠ x.last + 1 then .next (staxaError 5 id seq.toNat s)
      else .next (emit (.staxa (staxaMessage 6 id seq.toNat x.keyId x.key [])) (endSession id s))

/-- UNUSABLE_DATAGRAM (R493, R495). -/
def execUnusableDatagram (d : BadDatagram) (s : State) : Result :=
  if resetting s 5 then .next s
  else match d with
    | .short => .next (dropDatagram s)
    | .badMagic => .next (dropDatagram s)
    | .disabled => if staxaOn s then .next s else .next (dropDatagram s)
    | .fragmented => .next s
    | .badVersion a b => .next (if staxaOn s then staxaError 3 a b s else dropDatagram s)
    | .badFormat a b => .next (if staxaOn s then staxaError 4 a b s else dropDatagram s)
    | .noSession a b => .next (if staxaOn s then staxaError 1 a b s else dropDatagram s)
    | .keyUnknown a b => .next (if staxaOn s then staxaError 6 a b s else dropDatagram s)
    | .tagFails => .next (if staxaOn s then tagFailed s else dropDatagram s)
    | .notAllowed a b => .next (if staxaOn s then staxaError 7 a b s else dropDatagram s)

/-- STAXA_SESSION_TIMEOUT (R496). -/
def execStaxaSessionTimeout (session : BitVec 32) (s : State) : Result := .next (endSession session.toNat s)

/-- The port's MAC address (R486). -/
def portMac : List Byte := fixedBytes 6 Config.macAddress

/-- The link-local address formed from the MAC address (R493), in the modified EUI-64 way (PRESUMED: RFC 4291). -/
def linkLocal : List Byte :=
  [0xFE#8, 0x80#8, 0#8, 0#8, 0#8, 0#8, 0#8, 0#8, portMac.getD 0 0#8 ^^^ 2#8, portMac.getD 1 0#8, portMac.getD 2 0#8, 0xFF#8, 0xFE#8,
   portMac.getD 3 0#8, portMac.getD 4 0#8, portMac.getD 5 0#8]

/-- An IPv4 address of the port: `MgmtIpv4Address`, 0 for none (R487, R493). -/
def ownV4 (s : State) (a : Nat) : Bool := decide (param s 0x1100 3 ≠ 0) && decide (a = param s 0x1100 3)

/-- An IPv6 address of the port: `MgmtIpv6Address` unless zeros, or the link-local one (R487, R493). -/
def ownV6 (s : State) (a : Nat) : Bool :=
  let own := entryBytesOf s 0x1100 6
  (!(own.all (· == 0#8)) && decide (a = beNat own)) || decide (a = beNat linkLocal)

/-- ARP_REQUEST: answered with the port's address pair (R493). -/
def execArpRequest (target : BitVec 32) (s : State) : Result :=
  if resetting s 5 || !ownV4 s target.toNat then .next s else .next (emit (.net (portMac ++ beBytes 4 target.toNat)) s)

/-- ICMP_ECHO: the payload is sent back (R493). -/
def execIcmpEcho (v6 : Bool) (target : BitVec 128) (payload : List Byte) (s : State) : Result :=
  let own := if v6 then ownV6 s target.toNat else ownV4 s target.toNat
  if resetting s 5 || !own then .next s else .next (emit (.net payload) s)

/-- NEIGHBOR_DISCOVERY: answered with the port's address pair (R493). -/
def execNeighborDiscovery (target : BitVec 128) (s : State) : Result :=
  if resetting s 5 || !ownV6 s target.toNat then .next s else .next (emit (.net (portMac ++ beBytes 16 target.toNat)) s)

end Sys2Proof.Machine
end

