-- ==== Sys2Proof/Machine/Dispatch.lean ====
section
/-! DEFINITION. The one match from a command to its meaning. -/

namespace Sys2Proof.Machine

def exec (i : Instr) (s : State) : Host.Outcome State Fault Refusal :=
  match i with
  | .registerWrite fn offset wide value => Sys2Proof.Machine.execRegisterWrite fn offset wide value s
  | .registerLowWordRead fn offset wide => Sys2Proof.Machine.execRegisterLowWordRead fn offset wide s
  | .enable fn => Sys2Proof.Machine.execEnable fn s
  | .disable fn => Sys2Proof.Machine.execDisable fn s
  | .shutdown fn => Sys2Proof.Machine.execShutdown fn s
  | .shutdownResume fn => Sys2Proof.Machine.execShutdownResume fn s
  | .aqReset fn withRestart => Sys2Proof.Machine.execAqReset fn withRestart s
  | .aqRestart fn => Sys2Proof.Machine.execAqRestart fn s
  | .sqTailDoorbell fn qp value => Sys2Proof.Machine.execSqTailDoorbell fn qp value s
  | .cqHeadDoorbell fn qp value => Sys2Proof.Machine.execCqHeadDoorbell fn qp value s
  | .heldCompletionPost fn qp => Sys2Proof.Machine.execHeldCompletionPost fn qp s
  | .fetchGrant => Sys2Proof.Machine.execFetchGrant s
  | .commandSlotAllocate fn qp => Sys2Proof.Machine.execCommandSlotAllocate fn qp s
  | .sqEntryReadFailure fn qp access => Sys2Proof.Machine.execSqEntryReadFailure fn qp access s
  | .dataTransferFailure slot access offset => Sys2Proof.Machine.execDataTransferFailure slot access offset s
  | .completionWriteFailure fn qp access later => Sys2Proof.Machine.execCompletionWriteFailure fn qp access later s
  | .hostReadTimeout slot offset => Sys2Proof.Machine.execHostReadTimeout slot offset s
  | .hostDataReadDone slot kind buf bytes words => Sys2Proof.Machine.execHostDataReadDone slot kind buf bytes words s
  | .intTimeExpiry fn qp => Sys2Proof.Machine.execIntTimeExpiry fn qp s
  | .msixUnmask fn vector => Sys2Proof.Machine.execMsixUnmask fn vector s
  | .fetchQueueMismatch fn qp write read => Sys2Proof.Machine.execFetchQueueMismatch fn qp write read s
  | .flr fn => Sys2Proof.Machine.execFlr fn s
  | .vfEnableSet numVfs => Sys2Proof.Machine.execVfEnableSet numVfs s
  | .vfEnableClear => Sys2Proof.Machine.execVfEnableClear s
  | .unknownOpcode slot => Sys2Proof.Machine.execUnknownOpcode slot s
  | .createQp slot => Sys2Proof.Machine.execCreateQp slot s
  | .deleteQp slot => Sys2Proof.Machine.execDeleteQp slot s
  | .queueRestart slot => Sys2Proof.Machine.execQueueRestart slot s
  | .queueReset slot => Sys2Proof.Machine.execQueueReset slot s
  | .queueResetCut fn qp => Sys2Proof.Machine.execQueueResetCut fn qp s
  | .getLog slot => Sys2Proof.Machine.execGetLog slot s
  | .dictRead slot => Sys2Proof.Machine.execDictRead slot s
  | .dictWrite slot value => Sys2Proof.Machine.execDictWrite slot value s
  | .dictPersistDone ok => Sys2Proof.Machine.execDictPersistDone ok s
  | .keyLoad slot data => Sys2Proof.Machine.execKeyLoad slot data s
  | .keyUnload slot => Sys2Proof.Machine.execKeyUnload slot s
  | .fwDownload slot piece flashOk => Sys2Proof.Machine.execFwDownload slot piece flashOk s
  | .fwActivate slot => Sys2Proof.Machine.execFwActivate slot s
  | .fwActivateSwap gloveOk => Sys2Proof.Machine.execFwActivateSwap gloveOk s
  | .fwStartConfirmed => Sys2Proof.Machine.execFwStartConfirmed s
  | .fwStartTimeout => Sys2Proof.Machine.execFwStartTimeout s
  | .cartridgeLoad slot => Sys2Proof.Machine.execCartridgeLoad slot s
  | .loadIndexRead region head0 head1 copies => Sys2Proof.Machine.execLoadIndexRead region head0 head1 copies s
  | .loadScan find => Sys2Proof.Machine.execLoadScan find s
  | .journalCheck tail => Sys2Proof.Machine.execJournalCheck tail s
  | .cartridgeUnload slot => Sys2Proof.Machine.execCartridgeUnload slot s
  | .unthreadDone ok => Sys2Proof.Machine.execUnthreadDone ok s
  | .cartridgeFormat slot => Sys2Proof.Machine.execCartridgeFormat slot s
  | .rebuildRange slot ecc => Sys2Proof.Machine.execRebuildRange slot ecc s
  | .streamCreate slot => Sys2Proof.Machine.execStreamCreate slot s
  | .streamOpen slot ecc => Sys2Proof.Machine.execStreamOpen slot ecc s
  | .streamClose slot => Sys2Proof.Machine.execStreamClose slot s
  | .write slot => Sys2Proof.Machine.execWrite slot s
  | .read slot ecc => Sys2Proof.Machine.execRead slot ecc s
  | .readRaw slot ecc => Sys2Proof.Machine.execReadRaw slot ecc s
  | .flush slot => Sys2Proof.Machine.execFlush slot s
  | .drainComplete slot => Sys2Proof.Machine.execDrainComplete slot s
  | .runAssign slot ecc tagOk => Sys2Proof.Machine.execRunAssign slot ecc tagOk s
  | .orderedRunRelease slot => Sys2Proof.Machine.execOrderedRunRelease slot s
  | .leaseWaitRelease slot => Sys2Proof.Machine.execLeaseWaitRelease slot s
  | .throttleRelease => Sys2Proof.Machine.execThrottleRelease s
  | .intakeDataArrival slot bytes => Sys2Proof.Machine.execIntakeDataArrival slot bytes s
  | .packerIdleClose stream => Sys2Proof.Machine.execPackerIdleClose stream s
  | .mediumCloseDelay => Sys2Proof.Machine.execMediumCloseDelay s
  | .laneSwitch engine stream lane ecc => Sys2Proof.Machine.execLaneSwitch engine stream lane ecc s
  | .blockEncoded engine payload ecc tagOk => Sys2Proof.Machine.execBlockEncoded engine payload ecc tagOk s
  | .rawCopyDone engine crcOk ecc => Sys2Proof.Machine.execRawCopyDone engine crcOk ecc s
  | .cipherTakePacket pair engine ecc tagOk => Sys2Proof.Machine.execCipherTakePacket pair engine ecc tagOk s
  | .blockEncrypted pair ecc tagOk => Sys2Proof.Machine.execBlockEncrypted pair ecc tagOk s
  | .ivReservePersistDone ok => Sys2Proof.Machine.execIvReservePersistDone ok s
  | .blockDecrypted pair block ecc tagOk => Sys2Proof.Machine.execBlockDecrypted pair block ecc tagOk s
  | .blockDecode engine block ecc tagOk => Sys2Proof.Machine.execBlockDecode engine block ecc tagOk s
  | .slotRetireComplete key => Sys2Proof.Machine.execSlotRetireComplete key s
  | .entropyHealthFail => Sys2Proof.Machine.execEntropyHealthFail s
  | .drbgReseed => Sys2Proof.Machine.execDrbgReseed s
  | .counterRetire blob => Sys2Proof.Machine.execCounterRetire blob s
  | .alloc reqs => Sys2Proof.Machine.execAlloc reqs s
  | .ref owner pool index tag parity => Sys2Proof.Machine.execRef owner pool index tag parity s
  | .give owner pool index newOwner tag parity => Sys2Proof.Machine.execGive owner pool index newOwner tag parity s
  | .free owner pool index tag parity => Sys2Proof.Machine.execFree owner pool index tag parity s
  | .heldRequestGrant => Sys2Proof.Machine.execHeldRequestGrant s
  | .poolStallLimit request => Sys2Proof.Machine.execPoolStallLimit request s
  | .patrolScrub addr single double => Sys2Proof.Machine.execPatrolScrub addr single double s
  | .checkpointTimer => Sys2Proof.Machine.execCheckpointTimer s
  | .checkpointCopyVerified => Sys2Proof.Machine.execCheckpointCopyVerified s
  | .readBatchWindow => Sys2Proof.Machine.execReadBatchWindow s
  | .readAgeLimit dataset => Sys2Proof.Machine.execReadAgeLimit dataset s
  | .writePassStart => Sys2Proof.Machine.execWritePassStart s
  | .datasetEncodeStart tagOk => Sys2Proof.Machine.execDatasetEncodeStart tagOk s
  | .datasetEncodeComplete badOnce badTwice ecc => Sys2Proof.Machine.execDatasetEncodeComplete badOnce badTwice ecc s
  | .slotStart underruns ecc => Sys2Proof.Machine.execSlotStart underruns ecc s
  | .sectorVerdict dataset chan row rd => Sys2Proof.Machine.execSectorVerdict dataset chan row rd s
  | .verifyLate dataset chan row => Sys2Proof.Machine.execVerifyLate dataset chan row s
  | .datasetCommit => Sys2Proof.Machine.execDatasetCommit s
  | .datasetRelease => Sys2Proof.Machine.execDatasetRelease s
  | .writePassEnd readsNeedTape => Sys2Proof.Machine.execWritePassEnd readsNeedTape s
  | .writeTailDataset => Sys2Proof.Machine.execWriteTailDataset s
  | .eodBurstWrite => Sys2Proof.Machine.execEodBurstWrite s
  | .shockFall lowNs => Sys2Proof.Machine.execShockFall lowNs s
  | .writeGuardClear => Sys2Proof.Machine.execWriteGuardClear s
  | .tfaultLow low => Sys2Proof.Machine.execTfaultLow low s
  | .cartPresentStable level => Sys2Proof.Machine.execCartPresentStable level s
  | .wprotStable level => Sys2Proof.Machine.execWprotStable level s
  | .clockReaderLoss reader loss => Sys2Proof.Machine.execClockReaderLoss reader loss s
  | .clockReaderValid reader sign => Sys2Proof.Machine.execClockReaderValid reader sign s
  | .tlcsLockAcquired => Sys2Proof.Machine.execTlcsLockAcquired s
  | .flywheelLimit since => Sys2Proof.Machine.execFlywheelLimit since s
  | .servoFrameBoundary upper frame since intervals => Sys2Proof.Machine.execServoFrameBoundary upper frame since intervals s
  | .servoWord upper => Sys2Proof.Machine.execServoWord upper s
  | .tiltUpdate crossings => Sys2Proof.Machine.execTiltUpdate crossings s
  | .syncWindowOpen chan slot grid wrap => Sys2Proof.Machine.execSyncWindowOpen chan slot grid wrap s
  | .sectorReport chan rd => Sys2Proof.Machine.execSectorReport chan rd s
  | .channelReset chan => Sys2Proof.Machine.execChannelReset chan s
  | .datasetDecode ecc => Sys2Proof.Machine.execDatasetDecode ecc s
  | .harvestRead ecc => Sys2Proof.Machine.execHarvestRead ecc s
  | .readRetry ecc => Sys2Proof.Machine.execReadRetry ecc s
  | .chCommandFail chan => Sys2Proof.Machine.execChCommandFail chan s
  | .chCommandRestore chan => Sys2Proof.Machine.execChCommandRestore chan s
  | .replaceAcknowledge bits => Sys2Proof.Machine.execReplaceAcknowledge bits s
  | .latSample overrun => Sys2Proof.Machine.execLatSample overrun s
  | .reelSSample overrun => Sys2Proof.Machine.execReelSSample overrun s
  | .reelTSample overrun => Sys2Proof.Machine.execReelTSample overrun s
  | .skewSample overrun => Sys2Proof.Machine.execSkewSample overrun s
  | .aslKeepalive => Sys2Proof.Machine.execAslKeepalive s
  | .aslStatusFrame frame => Sys2Proof.Machine.execAslStatusFrame frame s
  | .tceBackground => Sys2Proof.Machine.execTceBackground s
  | .servoReaderPosition reader dAB dAC stripes => Sys2Proof.Machine.execServoReaderPosition reader dAB dAC stripes s
  | .tachEdge takeUp cycles reverse => Sys2Proof.Machine.execTachEdge takeUp cycles reverse s
  | .threadRequest => Sys2Proof.Machine.execThreadRequest s
  | .motionRequest speedMms => Sys2Proof.Machine.execMotionRequest speedMms s
  | .stopRequest => Sys2Proof.Machine.execStopRequest s
  | .tceFaultClear bits => Sys2Proof.Machine.execTceFaultClear bits s
  | .satHourEnd => Sys2Proof.Machine.execSatHourEnd s
  | .headFrontPoll silent => Sys2Proof.Machine.execHeadFrontPoll silent s
  | .headFrontStatus frame => Sys2Proof.Machine.execHeadFrontStatus frame s
  | .dictWindowRead fn => Sys2Proof.Machine.execDictWindowRead fn s
  | .dictWindowWrite fn length => Sys2Proof.Machine.execDictWindowWrite fn length s
  | .dictRestoreArm => Sys2Proof.Machine.execDictRestoreArm s
  | .dictRestoreConfirm => Sys2Proof.Machine.execDictRestoreConfirm s
  | .dictRestoreTimeout => Sys2Proof.Machine.execDictRestoreTimeout s
  | .staxaKeyWrite k key => Sys2Proof.Machine.execStaxaKeyWrite k key s
  | .staxaOpen nonce timeout keyId tag => Sys2Proof.Machine.execStaxaOpen nonce timeout keyId tag s
  | .staxaRequest session seq ops tag => Sys2Proof.Machine.execStaxaRequest session seq ops tag s
  | .staxaClose session seq tag => Sys2Proof.Machine.execStaxaClose session seq tag s
  | .unusableDatagram d => Sys2Proof.Machine.execUnusableDatagram d s
  | .staxaSessionTimeout session => Sys2Proof.Machine.execStaxaSessionTimeout session s
  | .arpRequest target => Sys2Proof.Machine.execArpRequest target s
  | .icmpEcho v6 target payload => Sys2Proof.Machine.execIcmpEcho v6 target payload s
  | .neighborDiscovery target => Sys2Proof.Machine.execNeighborDiscovery target s
  | .flashRead desc => Sys2Proof.Machine.execFlashRead desc s
  | .flashReadDone errors meta8 => Sys2Proof.Machine.execFlashReadDone errors meta8 s
  | .flashProgram desc => Sys2Proof.Machine.execFlashProgram desc s
  | .flashProgramDone ok => Sys2Proof.Machine.execFlashProgramDone ok s
  | .flashErase desc => Sys2Proof.Machine.execFlashErase desc s
  | .flashEraseDone ok => Sys2Proof.Machine.execFlashEraseDone ok s
  | .eraseSuspend => Sys2Proof.Machine.execEraseSuspend s
  | .eraseResume => Sys2Proof.Machine.execEraseResume s
  | .fetchMiss core block page => Sys2Proof.Machine.execFetchMiss core block page s
  | .vflBrownout => Sys2Proof.Machine.execVflBrownout s
  | .brownoutRelease => Sys2Proof.Machine.execBrownoutRelease s
  | .flashDiagDescriptor desc => Sys2Proof.Machine.execFlashDiagDescriptor desc s
  | .evqPop parity => Sys2Proof.Machine.execEvqPop parity s
  | .evqLostClear => Sys2Proof.Machine.execEvqLostClear s
  | .evqArm => Sys2Proof.Machine.execEvqArm s
  | .eventLogCopy parity => Sys2Proof.Machine.execEventLogCopy parity s
  | .eventLogRead reader => Sys2Proof.Machine.execEventLogRead reader s
  | .domainResetWrite mgmt code => Sys2Proof.Machine.execDomainResetWrite mgmt code s
  | .domainReady code testsPass => Sys2Proof.Machine.execDomainReady code testsPass s
  | .perst => Sys2Proof.Machine.execPerst s
  | .hotReset => Sys2Proof.Machine.execHotReset s
  | .sysrst lowNs => Sys2Proof.Machine.execSysrst lowNs s
  | .porst lowNs => Sys2Proof.Machine.execPorst lowNs s
  | .supplyMonitorTrip rail => Sys2Proof.Machine.execSupplyMonitorTrip rail s
  | .watchdogExpiry => Sys2Proof.Machine.execWatchdogExpiry s
  | .idleToPs1 => Sys2Proof.Machine.execIdleToPs1 s
  | .idleToPs2 => Sys2Proof.Machine.execIdleToPs2 s
  | .idleToPs3 => Sys2Proof.Machine.execIdleToPs3 s
  | .powerStateRequest n => Sys2Proof.Machine.execPowerStateRequest n s
  | .wake => Sys2Proof.Machine.execWake s
  | .powerStateReached => Sys2Proof.Machine.execPowerStateReached s
  | .d3hotEntry => Sys2Proof.Machine.execD3hotEntry s
  | .d0Return => Sys2Proof.Machine.execD0Return s
  | .lcChallengeRead => Sys2Proof.Machine.execLcChallengeRead s
  | .lcChallengeExpiry => Sys2Proof.Machine.execLcChallengeExpiry s
  | .lcRequest principal token => Sys2Proof.Machine.execLcRequest principal token s
  | .lcFuseProgrammed ok => Sys2Proof.Machine.execLcFuseProgrammed ok s
  | .jtagInstruction ji => Sys2Proof.Machine.execJtagInstruction ji s
  | .uartRxByte b => Sys2Proof.Machine.execUartRxByte b s
  | .temperatureSample eighths => Sys2Proof.Machine.execTemperatureSample eighths s
  | .fetchReadReturn fn qp entries => Sys2Proof.Machine.execFetchReadReturn fn qp entries s

end Sys2Proof.Machine
end

