-- ==== Sys2Proof/WellFormed.lean ====
section
/-! DEFINITION. Which commands are well formed: operands that the types of `Instr` admit and the outside world never
sends. -/

namespace Sys2Proof

/-- A register access is aligned to its width (R41). -/
def alignedAt (offset : Nat) (wide : Bool) : Bool := decide (offset % (if wide then 8 else 4) = 0)

/-- The codes of `DomainReset` (R557). -/
def domainCodeOk (n : Nat) : Bool := decide (n ≤ 5 ∨ (0x80 ≤ n ∧ n ≤ 0xFF))

/-- An entry's fields fit their widths (R162-R165). -/
def IndexEntry.wf : IndexEntry → Bool
  | .extent e => decide (e.stream < 2 ^ 14 ∧ e.first < 2 ^ 48 ∧ e.dataset < 2 ^ 40)
  | .reloc r => decide (r.oldDataset < 2 ^ 40 ∧ r.newDataset < 2 ^ 40)
  | .moth m => decide (m.stream < 2 ^ 14 ∧ m.first < 2 ^ 48 ∧ m.dataset < 2 ^ 40 ∧ m.row < 96)
  | .stream e => decide (e.stream < 2 ^ 14 ∧ 1 ≤ e.comp ∧ e.comp ≤ 3)
  | .padding => true

/-- What was read of a dataset header is its 4,096 bytes (R297). -/
def headerWhole (l : Option (List Byte)) : Bool := (l.map List.length).getD 4096 == 4096

/-- A scan result brings dataset headers whole and names a number of 40 bits (R309, R437). -/
def ScanFind.wf : ScanFind → Bool
  | .header bytes recovered => headerWhole (some bytes) && headerWhole recovered
  | .damaged recovered => headerWhole recovered
  | .eod number => decide (number < 2 ^ 40)
  | .blank => true

/-- Samples of 7 bits and soft values of 6 bits (R382, R389). -/
def ChanSample.wf (x : ChanSample) : Bool := decide (-64 ≤ x.adc ∧ x.adc ≤ 63 ∧ -31 ≤ x.soft ∧ x.soft ≤ 31)

/-- C1 gives a word of 2,048 bytes after 1 to 64 iterations (R288, R401). -/
def C1Decode.wf (r : C1Decode) : Bool := decide (1 ≤ r.iterations ∧ r.iterations ≤ 64 ∧ r.codeword.length = 2048)

/-- The slot is 0 to 98, the fine phase at most 4 bits, and the decoder has one answer for an input (R379, R390, R398). -/
def SectorRead.wf (r : SectorRead) : Bool :=
  decide (r.slot < 99 ∧ r.finePhase.natAbs ≤ 256) && r.samples.all (·.wf) && r.c1.all (·.wf) && decide ((r.c1.map (·.input)).Nodup)

/-- A tail dataset has three summary copies of 64 bytes (R300, R431). -/
def TailFind.wf (t : TailFind) : Bool :=
  decide (t.copies.length = 3) && t.copies.all (fun c => decide ((c.map List.length).getD 64 = 64)) && t.reads.all (fun r => r.2.wf)

/-- Stage and chip addresses, types and echoes fit their fields (R464, R586). -/
def StatusFrame.wf (f : StatusFrame) : Bool := decide (f.address < 16 ∧ f.ftype < 16 ∧ f.echo < 16)

/-- An operation of a REQUEST fits its fields (R498). -/
def StaxaOp.wf (o : StaxaOp) : Bool := decide (o.op < 256 ∧ o.index < 65536 ∧ o.sub < 256 ∧ o.value.length < 65536)

/-- A well-formed command, constructor by constructor. -/
def Instr.wf : Instr → Bool
  | .registerWrite _ offset wide _ => alignedAt offset.toNat wide
  | .registerLowWordRead _ offset wide => alignedAt offset.toNat wide
  | .enable _ => true
  | .disable _ => true
  | .shutdown _ => true
  | .shutdownResume _ => true
  | .aqReset _ _ => true
  | .aqRestart _ => true
  | .sqTailDoorbell _ _ _ => true
  | .cqHeadDoorbell _ _ _ => true
  | .heldCompletionPost _ _ => true
  | .fetchGrant => true
  | .commandSlotAllocate _ _ => true
  | .sqEntryReadFailure _ _ _ => true
  | .dataTransferFailure _ _ _ => true
  | .completionWriteFailure _ _ _ _ => true
  | .hostReadTimeout _ _ => true
  | .hostDataReadDone _ _ buf _ _ => decide (buf < 163840)
  | .intTimeExpiry _ _ => true
  | .msixUnmask _ _ => true
  | .fetchQueueMismatch _ _ _ _ => true
  | .flr _ => true
  | .vfEnableSet numVfs => decide (1 ≤ numVfs.val)
  | .vfEnableClear => true
  | .unknownOpcode _ => true
  | .createQp _ => true
  | .deleteQp _ => true
  | .queueRestart _ => true
  | .queueReset _ => true
  | .queueResetCut _ _ => true
  | .getLog _ => true
  | .dictRead _ => true
  | .dictWrite _ value => decide (value.length ≤ 1024)
  | .dictPersistDone _ => true
  | .keyLoad _ data => [32, 40, 80].contains data.length
  | .keyUnload _ => true
  | .fwDownload _ piece _ => decide (piece.length ≤ 33554432)
  | .fwActivate _ => true
  | .fwActivateSwap _ => true
  | .fwStartConfirmed => true
  | .fwStartTimeout => true
  | .cartridgeLoad _ => true
  | .loadIndexRead _ head0 head1 copies => headerWhole head0 && headerWhole head1 && copies.all fun c => c.entries.all (·.wf)
  | .loadScan find => find.wf
  | .journalCheck tail => tail.all (·.wf)
  | .cartridgeUnload _ => true
  | .unthreadDone _ => true
  | .cartridgeFormat _ => true
  | .rebuildRange _ _ => true
  | .streamCreate _ => true
  | .streamOpen _ _ => true
  | .streamClose _ => true
  | .write _ => true
  | .read _ _ => true
  | .readRaw _ _ => true
  | .flush _ => true
  | .drainComplete _ => true
  | .runAssign _ _ _ => true
  | .orderedRunRelease _ => true
  | .leaseWaitRelease _ => true
  | .throttleRelease => true
  | .intakeDataArrival _ bytes => decide (0 < bytes)
  | .packerIdleClose _ => true
  | .mediumCloseDelay => true
  | .laneSwitch _ _ _ _ => true
  | .blockEncoded _ payload _ _ => decide (payload.length ≤ 33554432)
  | .rawCopyDone _ _ _ => true
  | .cipherTakePacket _ _ _ _ => true
  | .blockEncrypted _ _ _ => true
  | .ivReservePersistDone _ => true
  | .blockDecrypted _ _ _ _ => true
  | .blockDecode _ _ _ _ => true
  | .slotRetireComplete _ => true
  | .entropyHealthFail => true
  | .drbgReseed => true
  | .counterRetire blob => decide (blob.length = 19)
  | .alloc reqs => decide (1 ≤ reqs.length ∧ reqs.length ≤ 4) && reqs.all (fun r => decide (0 < r.size))
  | .ref _ _ _ _ _ => true
  | .give _ _ _ _ _ _ => true
  | .free _ _ _ _ _ => true
  | .heldRequestGrant => true
  | .poolStallLimit _ => true
  | .patrolScrub _ _ _ => true
  | .checkpointTimer => true
  | .checkpointCopyVerified => true
  | .readBatchWindow => true
  | .readAgeLimit dataset => decide (dataset < 2 ^ 40)
  | .writePassStart => true
  | .datasetEncodeStart _ => true
  | .datasetEncodeComplete _ badTwice _ => badTwice.all fun p => decide (p.1 < 128 ∧ p.2 < 96)
  | .slotStart underruns _ => underruns.Nodup
  | .sectorVerdict dataset _ _ rd => decide (dataset < 2 ^ 40) && rd.wf
  | .verifyLate dataset _ _ => decide (dataset < 2 ^ 40)
  | .datasetCommit => true
  | .datasetRelease => true
  | .writePassEnd _ => true
  | .writeTailDataset => true
  | .eodBurstWrite => true
  | .shockFall _ => true
  | .writeGuardClear => true
  | .tfaultLow _ => true
  | .cartPresentStable _ => true
  | .wprotStable _ => true
  | .clockReaderLoss _ _ => true
  | .clockReaderValid _ _ => true
  | .tlcsLockAcquired => true
  | .flywheelLimit _ => true
  | .servoFrameBoundary _ _ _ _ => true
  | .servoWord _ => true
  | .tiltUpdate _ => true
  | .syncWindowOpen _ _ _ _ => true
  | .sectorReport _ rd => rd.wf
  | .channelReset _ => true
  | .datasetDecode _ => true
  | .harvestRead _ => true
  | .readRetry _ => true
  | .chCommandFail _ => true
  | .chCommandRestore _ => true
  | .replaceAcknowledge _ => true
  | .latSample _ => true
  | .reelSSample _ => true
  | .reelTSample _ => true
  | .skewSample _ => true
  | .aslKeepalive => true
  | .aslStatusFrame frame => frame.wf
  | .tceBackground => true
  | .servoReaderPosition _ _ _ _ => true
  | .tachEdge _ _ _ => true
  | .threadRequest => true
  | .motionRequest _ => true
  | .stopRequest => true
  | .tceFaultClear _ => true
  | .satHourEnd => true
  | .headFrontPoll _ => true
  | .headFrontStatus frame => frame.wf
  | .dictWindowRead _ => true
  | .dictWindowWrite _ _ => true
  | .dictRestoreArm => true
  | .dictRestoreConfirm => true
  | .dictRestoreTimeout => true
  | .staxaKeyWrite _ key => decide (key.length = 32)
  | .staxaOpen _ _ _ _ => true
  | .staxaRequest _ _ ops _ => decide (ops.length ≤ 64) && ops.all (·.wf)
  | .staxaClose _ _ _ => true
  | .unusableDatagram _ => true
  | .staxaSessionTimeout _ => true
  | .arpRequest _ => true
  | .icmpEcho _ _ _ => true
  | .neighborDiscovery _ => true
  | .flashRead _ => true
  | .flashReadDone errors meta8 => errors.all (fun r => decide (r.length ≤ 8)) && decide (meta8.length = 8)
  | .flashProgram _ => true
  | .flashProgramDone _ => true
  | .flashErase _ => true
  | .flashEraseDone _ => true
  | .eraseSuspend => true
  | .eraseResume => true
  | .fetchMiss _ _ _ => true
  | .vflBrownout => true
  | .brownoutRelease => true
  | .flashDiagDescriptor _ => true
  | .evqPop _ => true
  | .evqLostClear => true
  | .evqArm => true
  | .eventLogCopy _ => true
  | .eventLogRead reader => decide (reader < 2 ^ 32)
  | .domainResetWrite _ code => domainCodeOk code.toNat
  | .domainReady code _ => domainCodeOk code.toNat
  | .perst => true
  | .hotReset => true
  | .sysrst _ => true
  | .porst _ => true
  | .supplyMonitorTrip _ => true
  | .watchdogExpiry => true
  | .idleToPs1 => true
  | .idleToPs2 => true
  | .idleToPs3 => true
  | .powerStateRequest n => decide (n.toNat ≤ 3)
  | .wake => true
  | .powerStateReached => true
  | .d3hotEntry => true
  | .d0Return => true
  | .lcChallengeRead => true
  | .lcChallengeExpiry => true
  | .lcRequest _ token => decide (token.length = 116)
  | .lcFuseProgrammed _ => true
  | .jtagInstruction _ => true
  | .uartRxByte _ => true
  | .temperatureSample _ => true
  | .fetchReadReturn _ _ entries => decide (entries.length ≤ 4)

end Sys2Proof
end

