-- ==== Sys2Proof/Safety.lean ====
section
/-! DEFINITION. What claims speak of: the one rule a sender must keep, a command that is ready to run, a queue pair that can
take a completion, the completion it takes, and the bounds that hold of every state. -/

namespace Sys2Proof.Machine

/-- The sender keeps R585: PORST# is not held low for less than 10 microseconds. -/
def Admissible (c : Instr) : Prop := ∀ n, c = .porst n → 10000 ≤ n

/-- A command of opcode `op` holds the slot, has passed steps 1 to 7 of R96 and its blocks take requests (R98, R546,
R552). -/
structure Started (s : State) (slot op : Nat) (c : Cmd) : Prop where
  cmd : getCmd s slot = some c
  stage : c.stage = .started
  opcode : eOpcode c.entry = op
  passed : c.verdict = none
  free : blockHeld s op = false

/-- The queue pair `v` of a command takes its completion at once (R23, R59, R81). -/
structure Takes (s : State) (c : Cmd) (v : Qp) : Prop where
  live : c.orphan = false
  qp : getQp s c.fn c.qp = some v
  epoch : v.epoch = c.epoch
  held : v.held = []
  writes : v.writeFailed = false
  room : cqFull v = false
  /-- Nothing is left to the posting of its completion, and its function goes on (R99, R598). -/
  plain : c.post = []
  kept : c.fnEnded = false

/-- The command ends with this completion: the entry is written at the tail of the completion queue, followed by at most
one message, and the slot is released (R65, R66, R71, R73). -/
structure Ends (s t : State) (slot : Nat) (v : Qp) (p : Cpl) : Prop where
  posted : ∃ l o, l.length ≤ 1 ∧
    t.out = l ++ .completion (v.cqBase + BitVec.ofNat 64 (32 * v.cqTail)) (p.entry v.phase) :: (o ++ s.out)
  released : getCmd t slot = none

/-- The tables of functions and of their queue pairs have rising keys, and no queue pair but the one named has a fetch read
outstanding: nothing else can be fetched (R68, R98). -/
def OthersQuiet (s : State) (f q : Nat) : Prop :=
  Tab.wf s.host.fns = true ∧
    ∀ x ∈ s.host.fns, Tab.wf x.2.qps = true ∧ ∀ y ∈ x.2.qps, (x.1 ≠ f ∨ y.1 ≠ q) → y.2.reads = []

/-- The queues of the Event Unit and the event log lie within their depths (R31, R541). -/
def EventsBounded (s : State) : Prop := s.ev.host.length ≤ 2048 ∧ s.ev.mgmt.length ≤ 512 ∧ s.ev.log.length ≤ 1024

end Sys2Proof.Machine
end

