-- ==== Sys2Proof/Certificates/Slice0/Obligations.lean ====
section
/-! DEFINITION. The statements about the MK128 model that are to be proved. Each says which rules of the manual it
formalises; a clause that rests on a choice of the model names its log entry. -/

open Sys2Proof Sys2Proof.Machine

/-! ## The queue of commands, and the whole machine -/

/-- A step takes the front command and runs it on the state with the queue's rest. -/
def Obligations.StepRunsFrontCommand : Prop :=
  ∀ (c : Instr) (rest : List Instr) (s : State),
    Machine.step { s with pending := c :: rest } = exec c { s with pending := rest }

/-- On an empty queue TIME counts one nanosecond and nothing else changes (the model's choice: assumption 2; R46 gives the
unit). -/
def Obligations.IdleStepCountsTime : Prop :=
  ∀ s : State, s.pending = [] → Machine.step s = .next { s with time := s.time + 1 }

/-- Every command but a PORST held low for less than 10 microseconds answers a next state, with the queue untouched; that
PORST stops the model (R585; the stop is the model's reading of a "must", assumption 3). -/
def Obligations.EveryCommandGoesOn : Prop :=
  (∀ (c : Instr) (s : State), Admissible c → ∃ t, exec c s = .next t ∧ t.pending = s.pending) ∧
  ∀ (n : Nat) (s : State), n < 10000 → exec (.porst n) s = .fault .porstTooShort

/-- A blown fuse stays blown, whatever a step does (R560, R570). -/
def Obligations.FusesOnlyBlow : Prop :=
  ∀ (s t : State), Machine.step s = .next t → ∀ i, s.lc.row.getLsbD i = true → t.lc.row.getLsbD i = true

/-- `FwSecurityFloor` never falls (R528). -/
def Obligations.SecurityFloorOnlyRises : Prop :=
  ∀ (s t : State), Machine.step s = .next t → s.fw.floor ≤ t.fw.floor

/-- Every step keeps EVQ-H, EVQ-M and the event log within their depths (R31, R541). -/
def Obligations.EventQueuesStayBounded : Prop :=
  ∀ (s t : State), EventsBounded s → Machine.step s = .next t → EventsBounded t

/-! ## Registers, functions, doorbells -/

/-- A 64-bit write of ASQ_BASE or ACQ_BASE while Enable is 0 stores the base with bits [11:0] zero; as two 32-bit writes it
takes effect with the high word; AQ_SIZE is stored too; while Enable is 1 all three are ignored (R41, R47, R48). Nothing outside
the function changes. Completes: REGISTER_WRITE. -/
def Obligations.QueueBaseWrites : Prop :=
  ∀ (fn : FnId) (value : BitVec 64) (s : State), fnExists s fn.val = true →
    ((getFn s fn.val).enable = false →
      (∃ t, exec (.registerWrite fn 0x1000#20 true value) s = .next t ∧
        getFn t fn.val = { getFn s fn.val with asqBase := value &&& ~~~0xFFF#64, lowWord := none } ∧
        (∀ g, g ≠ fn.val → getFn t g = getFn s g) ∧ t.host.cmds = s.host.cmds ∧ t.out = s.out ∧ t.streams = s.streams ∧
        t.cart = s.cart ∧ t.ev = s.ev) ∧
      (∃ t u, exec (.registerWrite fn 0x1008#20 false value) s = .next t ∧
        exec (.registerWrite fn 0x100C#20 false (value >>> 32)) t = .next u ∧
        (getFn t fn.val).acqBase = (getFn s fn.val).acqBase ∧ (getFn u fn.val).acqBase = value &&& ~~~0xFFF#64 ∧
        (getFn u fn.val).asqBase = (getFn s fn.val).asqBase) ∧
      ∃ t, exec (.registerWrite fn 0x1010#20 false value) s = .next t ∧
        getFn t fn.val = { getFn s fn.val with aqSize := value.extractLsb' 0 32 }) ∧
    ((getFn s fn.val).enable = true → ∀ o ∈ [0x1000#20, 0x1004#20, 0x1008#20, 0x100C#20, 0x1010#20],
      exec (.registerWrite fn o false value) s = .next s ∧ exec (.registerWrite fn o true value) s = .next s)

/-- A read of the low word of TIME, ASQ_BASE or ACQ_BASE returns it and latches the high word; the next read of the high
word returns the shadow, and the one after it the register as it stands; one 64-bit read returns both words and leaves the
shadows alone (R41). Completes: REGISTER_LOW_WORD_READ. -/
def Obligations.LowWordReadLatches : Prop :=
  ∀ (fn : FnId) (o : BitVec 20) (s : State), fnExists s fn.val = true → o.toNat ∈ [0x10, 0x1000, 0x1008] →
    exec (.registerLowWordRead fn o true) s =
      .next { s with out := .regRead fn.val (readReg s fn.val (o.toNat + 4) ++ readReg s fn.val o.toNat) :: s.out } ∧
    ∃ t, exec (.registerLowWordRead fn o false) s = .next t ∧
      t.out = .regRead fn.val ((readReg s fn.val o.toNat).setWidth 64) :: s.out ∧
      Tab.get? (getFn t fn.val).shadow (o.toNat + 4) = some (readReg s fn.val (o.toNat + 4)) ∧
      ∀ u : State, getFn u fn.val = getFn t fn.val → fnExists u fn.val = true →
        ∃ v, exec (.registerLowWordRead fn (o + 4) false) u = .next v ∧
          v.out = .regRead fn.val ((readReg s fn.val (o.toNat + 4)).setWidth 64) :: u.out ∧
          Tab.get? (getFn v fn.val).shadow (o.toNat + 4) = none

/-- Enable from 0 to 1 with both depths within 2 to 4,096 and Fatal 0: Ready is 1, and the admin queue pair starts from the
bases and depths with epoch 0, heads and tails 0, phase 1, unfrozen, its log empty. If AsqDepth or AcqDepth lies outside 2 to
4,096, Ready stays 0 and Fatal is set; while Fatal is 1, Enable starts nothing (R44, R45, R47, R48, R54). Completes: ENABLE. -/
def Obligations.EnableStartsFunction : Prop :=
  ∀ (fn : FnId) (s : State), fnExists s fn.val = true → (getFn s fn.val).enable = false →
    let x := getFn s fn.val
    let sq := (x.aqSize.extractLsb' 0 16).toNat
    let cq := (x.aqSize.extractLsb' 16 16).toNat
    (x.fatal = false → 2 ≤ sq → sq ≤ 4096 → 2 ≤ cq → cq ≤ 4096 →
      ∃ t v, exec (.enable fn) s = .next t ∧ (getFn t fn.val).enable = true ∧ (getFn t fn.val).ready = true ∧
        (getFn t fn.val).fatal = false ∧ getQp t fn.val 0 = some v ∧
        v.sqBase = x.asqBase ∧ v.cqBase = x.acqBase ∧ v.sqDepth = sq ∧ v.cqDepth = cq ∧ v.maxOut = param s 0x2010 4 ∧
        v.vector = 0 ∧ v.intEnable = true ∧ v.intThreshold = 0 ∧ v.intTime = 0 ∧ v.epoch = 0 ∧ v.sqHead = 0 ∧ v.sqTail = 0 ∧
        v.cqHead = 0 ∧ v.cqTail = 0 ∧ v.phase = true ∧ v.frozen = false ∧ v.log = [] ∧
        (∀ g, g ≠ fn.val → getFn t g = getFn s g) ∧ t.host.cmds = s.host.cmds ∧ t.out = s.out ∧ t.streams = s.streams ∧
        t.cart = s.cart ∧ t.ev = s.ev) ∧
    (x.ready = false → (x.fatal = true ∨ sq < 2 ∨ 4096 < sq ∨ cq < 2 ∨ 4096 < cq) →
      ∃ t, exec (.enable fn) s = .next t ∧ (getFn t fn.val).fatal = true ∧ (getFn t fn.val).ready = false ∧
        (getFn t fn.val).enable = true ∧ (getFn t fn.val).qps = x.qps)

/-- Shutdown set to 1 stops the function's fetching, and ShutdownDone is set at once when no command of it is in flight;
written to 0 it clears both (R44, R45, R92). Completes: SHUTDOWN, SHUTDOWN_RESUME. -/
def Obligations.ShutdownAndResume : Prop :=
  ∀ (fn : FnId) (s : State), fnExists s fn.val = true →
    (∃ t, exec (.shutdown fn) s = .next t ∧ (getFn t fn.val).shutdown = true ∧
      (slotsHeld s fn.val = 0 → (getFn t fn.val).shutdownDone = true) ∧
      (slotsHeld s fn.val ≠ 0 → (getFn t fn.val).shutdownDone = (getFn s fn.val).shutdownDone) ∧
      (∀ q v, fetchRoom t fn.val q v = 0) ∧ t.host.cmds = s.host.cmds ∧ t.out = s.out) ∧
    ∃ t, exec (.shutdownResume fn) s = .next t ∧ (getFn t fn.val).shutdown = false ∧
      (getFn t fn.val).shutdownDone = false ∧ t.host.cmds = s.host.cmds ∧ t.out = s.out

/-- A valid doorbell of a ready function stores its value, of a frozen queue pair too, from which nothing is fetched until it is
unfrozen or reset (R58); a CqHead doorbell that consumes every posted entry restarts the coalescing count and stops the timer.
Nothing else of the device changes. Completes: SQ_TAIL_DOORBELL, CQ_HEAD_DOORBELL. -/
def Obligations.ValidDoorbellsStore : Prop :=
  ∀ (fn : FnId) (qp : Fin 4096) (value : BitVec 16) (v : Qp) (s : State), (getFn s fn.val).ready = true →
    qp.val < doorbells fn.val → getQp s fn.val qp.val = some v →
    (sqTailOk v value.toNat = true → ∃ t, exec (.sqTailDoorbell fn qp value) s = .next t ∧
      getQp t fn.val qp.val = some { v with sqTail := value.toNat } ∧
      (v.frozen = true → fetchRoom t fn.val qp.val { v with sqTail := value.toNat } = 0) ∧
      (∀ g r, (g ≠ fn.val ∨ r ≠ qp.val) → getQp t g r = getQp s g r) ∧ t.ev = s.ev ∧ t.out = s.out ∧ t.host.cmds = s.host.cmds) ∧
    (cqHeadOk v value.toNat = true → ∃ t w, exec (.cqHeadDoorbell fn qp value) s = .next t ∧
      getQp t fn.val qp.val = some w ∧ w.cqHead = value.toNat ∧ w.cqTail = v.cqTail ∧ w.held = v.held ∧
      (value.toNat = v.cqTail → w.unannounced = 0 ∧ w.timer = false) ∧
      (value.toNat ≠ v.cqTail → w.unannounced = v.unannounced ∧ w.timer = v.timer) ∧
      (∀ g r, (g ≠ fn.val ∨ r ≠ qp.val) → getQp t g r = getQp s g r) ∧ t.ev = s.ev ∧ t.out = s.out ∧ t.host.cmds = s.host.cmds)

/-- A doorbell write is ignored, and event 0x400 is raised, when the queue pair does not exist, the value is not below the
depth, or the pointer would pass the device's; no queue pair changes. While Ready is 0, and at an offset past the function's
doorbells, it is ignored without an event (R40, R45, R57). -/
def Obligations.InvalidDoorbellsAreIgnored : Prop :=
  ∀ (fn : FnId) (qp : Fin 4096) (value : BitVec 16) (s : State),
    ((getFn s fn.val).ready = false ∨ doorbells fn.val ≤ qp.val →
      exec (.sqTailDoorbell fn qp value) s = .next s ∧ exec (.cqHeadDoorbell fn qp value) s = .next s) ∧
    ((getFn s fn.val).ready = true → qp.val < doorbells fn.val →
      ((∀ v, getQp s fn.val qp.val = some v → sqTailOk v value.toNat = false) → ∃ t,
        exec (.sqTailDoorbell fn qp value) s = .next t ∧
        Tab.getD t.ev.counts 0x400 0 = sat32 (Tab.getD s.ev.counts 0x400 0 + 1) ∧ (∀ g r, getQp t g r = getQp s g r) ∧
        t.host.cmds = s.host.cmds ∧ t.streams = s.streams) ∧
      ((∀ v, getQp s fn.val qp.val = some v → cqHeadOk v value.toNat = false) → ∃ t,
        exec (.cqHeadDoorbell fn qp value) s = .next t ∧
        Tab.getD t.ev.counts 0x400 0 = sat32 (Tab.getD s.ev.counts 0x400 0 + 1) ∧ (∀ g r, getQp t g r = getQp s g r) ∧
        t.host.cmds = s.host.cmds ∧ t.streams = s.streams))

/-! ## Interrupts, fetching, slots, failures -/

/-- A masked vector that is raised sets its pending bit and sends no message, an unmasked one sends it; unmasking a vector that
exists clears its mask, and a message held in the pending bit follows (R76). Completes: MSIX_UNMASK. -/
def Obligations.UnmaskSendsPendingMessage : Prop :=
  ∀ (fn : FnId) (vector : Fin 2048) (s : State), fnExists s fn.val = true → vector.val < msixCountOf s fn.val →
    ((Tab.getD (getFn s fn.val).msix vector.val {}).masked = true → (sendMsix fn.val vector.val s).out = s.out ∧
      (Tab.getD (getFn (sendMsix fn.val vector.val s) fn.val).msix vector.val {}).pend = true) ∧
    ((Tab.getD (getFn s fn.val).msix vector.val {}).masked = false →
      (sendMsix fn.val vector.val s).out = .msix fn.val vector.val :: s.out) ∧
    ∃ t, exec (.msixUnmask fn vector) s = .next t ∧
      (Tab.getD (getFn t fn.val).msix vector.val {}).masked = false ∧
      ((Tab.getD (getFn s fn.val).msix vector.val {}).pend = true →
        t.out = .msix fn.val vector.val :: s.out ∧ (Tab.getD (getFn t fn.val).msix vector.val {}).pend = false) ∧
      ((Tab.getD (getFn s fn.val).msix vector.val {}).pend = false → t.out = s.out) ∧
      (getFn t fn.val).qps = (getFn s fn.val).qps ∧ t.host.cmds = s.host.cmds

/-- IntTime has passed since a completion that no interrupt followed: the vector is raised, or its pending bit set when it is
masked, and the count restarts (R75, R76). Completes: INT_TIME_EXPIRY. -/
def Obligations.IntTimeRaisesVector : Prop :=
  ∀ (fn : FnId) (qp : Fin 4096) (v : Qp) (s : State), getQp s fn.val qp.val = some v → v.timer = true → v.intEnable = true →
    0 < v.unannounced → ∃ t, exec (.intTimeExpiry fn qp) s = .next t ∧
      getQp t fn.val qp.val = some { v with unannounced := 0, timer := false } ∧
      ((Tab.getD (getFn s fn.val).msix v.vector {}).masked = false → t.out = .msix fn.val v.vector :: s.out) ∧
      ((Tab.getD (getFn s fn.val).msix v.vector {}).masked = true →
        t.out = s.out ∧ (Tab.getD (getFn t fn.val).msix v.vector {}).pend = true) ∧ t.host.cmds = s.host.cmds

/-- When a CqHead doorbell has freed space, the oldest held completion is posted (R59), and what the manual ties to the posting
happens then: a reserved stream identifier is released, or the device leaves ACTIVATING (R103, R148). Completes:
HELD_COMPLETION_POST. -/
def Obligations.HeldCompletionIsPosted : Prop :=
  ∀ (fn : FnId) (qp : Fin 4096) (v : Qp) (h : HeldCpl) (l : List HeldCpl) (s : State), getQp s fn.val qp.val = some v →
    v.held = h :: l → v.writeFailed = false → cqFull v = false →
    ∃ t w k, exec (.heldCompletionPost fn qp) s = .next t ∧ getQp t fn.val qp.val = some w ∧ w.held = l ∧
      w.cqTail = (v.cqTail + 1) % v.cqDepth ∧
      t.out = k ++ .completion (v.cqBase + BitVec.ofNat 64 (32 * v.cqTail)) (h.cpl.entry v.phase) :: s.out ∧ k.length ≤ 1 ∧
      ∀ n, h.slot = some n → getCmd t n = none ∧
        ∀ c, getCmd s n = some c → c.fnEnded = false → (∀ m, c.post = [.unreserve m] → t.reserved = Tab.del s.reserved m) ∧
          (c.post = [.activated] → t.fw.activate = none)

/-- While an admin queue pair is eligible, the grant goes to an admin queue pair: a fetch read of its next entries is issued
and they take their places in the fetch order. Else, while the function whose turn it is has credit and one eligible queue pair,
of priority 0, that queue pair gets as many entries as its credit allows. With no queue pair eligible the arbiter does nothing
(R69, R70, R98). Completes: FETCH_GRANT. -/
def Obligations.AdminQueuesAreGrantedFirst : Prop :=
  ∀ s : State,
    ((∃ f v, f ∈ s.host.fns.map (·.1) ∧ getQp s f 0 = some v ∧ 0 < fetchRoom s f 0 v) →
      ∃ t f v, exec .fetchGrant s = .next t ∧ getQp s f 0 = some v ∧ 0 < fetchRoom s f 0 v ∧
        t.out = .fetch f 0 v.sqReq (fetchRoom s f 0 v) :: s.out ∧
        getQp t f 0 = some { v with reads := v.reads ++ [(s.host.fetchSeq, fetchRoom s f 0 v, none)],
                                    sqReq := (v.sqReq + fetchRoom s f 0 v) % v.sqDepth } ∧
        t.host.fetchSeq = s.host.fetchSeq + fetchRoom s f 0 v ∧ t.host.cmds = s.host.cmds) ∧
    ((∀ f v, getQp s f 0 = some v → fetchRoom s f 0 v = 0) →
      ((∀ f ∈ s.host.fns.map (·.1), eligible s f = []) → exec .fetchGrant s = .next s) ∧
      ∀ q v n, s.host.rrFn ∈ s.host.fns.map (·.1) → 0 < (getFn s s.host.rrFn).deficit →
        eligible s s.host.rrFn = [(q, v, n)] → getQp s s.host.rrFn q = some v → v.priority = 0 →
        let k := min n (getFn s s.host.rrFn).deficit.toNat
        ∃ t, exec .fetchGrant s = .next t ∧ t.out = .fetch s.host.rrFn q v.sqReq k :: s.out ∧
          getQp t s.host.rrFn q = some { v with reads := v.reads ++ [(s.host.fetchSeq, k, none)],
                                                sqReq := (v.sqReq + k) % v.sqDepth } ∧
          t.host.cmds = s.host.cmds)

/-- The entries of a fetch read that no other outstanding read goes before enter the fetch queue in order, each with its place in
the fetch order, and the device's submission head moves past them; those of a read that another, granted earlier, goes before
wait for it (R68, R69, R98). Completes: FETCH_READ_RETURN. -/
def Obligations.FetchReturnFillsFetchQueue : Prop :=
  ∀ (fn : FnId) (qp : Fin 4096) (entries : List (BitVec 512)) (v : Qp) (seq : Nat) (s : State),
    getQp s fn.val qp.val = some v →
    (v.reads = [(seq, entries.length, none)] → v.sqHead < v.sqDepth → OthersQuiet s fn.val qp.val →
      ∃ t w, exec (.fetchReadReturn fn qp entries) s = .next t ∧ getQp t fn.val qp.val = some w ∧ w.reads = [] ∧
        w.sqHead = (v.sqHead + entries.length) % v.sqDepth ∧
        w.fetchQ.map (fun x => (x.entry, x.seq)) = v.fetchQ.map (fun x => (x.entry, x.seq)) ++ entries.zipIdx seq ∧
        (entries.all (fun e => eOpcode e != opStreamCreate) = true → t.host.cmds = s.host.cmds ∧ t.out = s.out)) ∧
    ∀ (l : List (Nat × Nat × Option (List (BitVec 512)))) (n g r : Nat), v.reads = (seq, entries.length, none) :: l →
      Tab.wf s.host.fns = true → (∀ x ∈ s.host.fns, Tab.wf x.2.qps = true) → firstRead s = some (n, g, r, none) →
      (g ≠ fn.val ∨ r ≠ qp.val) →
      exec (.fetchReadReturn fn qp entries) s =
        .next (setQp fn.val qp.val { v with reads := (seq, entries.length, some entries) :: l } s)

/-- The entry at the head of a fetch queue takes a free slot and starts, unless the queue pair is frozen or being reset, holds
MaxOutstanding slots, or no slot is free to the function: then it waits (R18, R69, R71, R77). Which free slot it is, and that
`FnSlotLimit` counts here, are the model's choices (assumptions 6, 91). Completes: COMMAND_SLOT_ALLOCATE. -/
def Obligations.SlotAllocationStartsCommand : Prop :=
  ∀ (fn : FnId) (qp : Fin 4096) (v : Qp) (x : FqEntry) (l : List FqEntry) (s : State), getQp s fn.val qp.val = some v →
    v.fetchQ = x :: l →
    (∀ slot, v.frozen = false → v.reset = none → qpHeld s fn.val qp.val < v.maxOut → slotFree s fn.val = true →
      freeSlot s = some slot → slot < 65536 →
      ∃ t c, exec (.commandSlotAllocate fn qp) s = .next t ∧ getCmd t slot = some c ∧ c.fn = fn.val ∧ c.qp = qp.val ∧
        c.epoch = v.epoch ∧ c.seq = x.seq ∧ c.entry = x.entry ∧ c.verdict = x.verdict ∧ c.stage = .started ∧
        c.tag = newTag s fn.val qp.val slot v.epoch x.entry ∧
        getQp t fn.val qp.val = some { v with fetchQ := l, fqPtrs := fqRead v.fqPtrs } ∧ (∀ n, n ≠ slot → getCmd t n = getCmd s n) ∧ t.out = s.out ∧
        t.streams = s.streams ∧ t.cart = s.cart) ∧
    ((v.frozen = true ∨ v.reset ≠ none ∨ v.maxOut ≤ qpHeld s fn.val qp.val ∨ slotFree s fn.val = false) →
      exec (.commandSlotAllocate fn qp) s = .next s)

/-- A failed read of a submission entry: a completion with CommandId 0xFFFF and INTERNAL_ERROR is posted, the queue pair
freezes, the error is logged with Block 0x01, and fetching will resume at the failed entry (R81). Completes:
SQ_ENTRY_READ_FAILURE. -/
def Obligations.EntryReadFailureFreezesQueue : Prop :=
  ∀ (fn : FnId) (qp : Fin 4096) (a : HostAccess) (v : Qp) (seq n : Nat) (l : List (Nat × Nat × Option (List (BitVec 512))))
    (s : State), getQp s fn.val qp.val = some v → v.reads = (seq, n, none) :: l → v.sqHead < v.sqDepth →
    OthersQuiet s fn.val qp.val → v.held = [] → v.writeFailed = false → cqFull v = false → v.log.length < 16 →
    ∃ t w e k, exec (.sqEntryReadFailure fn qp a) s = .next t ∧ getQp t fn.val qp.val = some w ∧ w.frozen = true ∧
      w.reads = [] ∧ w.sqReq = v.sqHead ∧ w.sqHead = v.sqHead ∧ w.log = v.log ++ [e] ∧ e.cid = 0xFFFF ∧ e.block = 1 ∧
      e.status = .internalError ∧ e.hostAccess = hostAccessCode a ∧ k.length ≤ 1 ∧
      t.out = k ++ .completion (v.cqBase + BitVec.ofNat 64 (32 * v.cqTail))
        (({ epoch := v.epoch, status := .internalError, cid := 0xFFFF, sqHead := v.sqHead } : Cpl).entry v.phase) :: s.out ∧
      t.host.cmds = s.host.cmds

/-- A failed write of a completion freezes the queue pair and raises event 0x402; it and every later one are held again for the
same slots of the completion queue and the same Phases, in their order, ahead of any other; the command of the one that failed
takes its slot back, where that is still free (R81). Completes: COMPLETION_WRITE_FAILURE. -/
def Obligations.CompletionWriteFailureHolds : Prop :=
  ∀ (fn : FnId) (qp : Fin 4096) (a : HostAccess) (later : Nat) (v : Qp) (s : State), getQp s fn.val qp.val = some v →
    later < v.recent.length → later < v.cqDepth → v.cqTail < v.cqDepth →
    ∃ t w, exec (.completionWriteFailure fn qp a later) s = .next t ∧ getQp t fn.val qp.val = some w ∧
      w.frozen = true ∧ w.writeFailed = true ∧
      w.held.map (·.cpl) = ((v.recent.take (later + 1)).map (·.cpl)).reverse ++ v.held.map (·.cpl) ∧
      w.recent = v.recent.drop (later + 1) ∧ w.cqTail = (v.cqTail + v.cqDepth - (later + 1)) % v.cqDepth ∧
      w.phase = (if v.cqTail ≤ later then !v.phase else v.phase) ∧
      (∀ h l n c, later = 0 → v.recent = h :: l → h.slot = some n → h.cmd = some c → getCmd s n = none →
        getCmd t n = some { c with stage := .held, post := [] }) ∧
      Tab.getD t.ev.counts 0x402 0 = sat32 (Tab.getD s.ev.counts 0x402 0 + 1) ∧
      (getFn t fn.val).fatal = (getFn s fn.val).fatal

/-- A data transfer of a command that fails, or whose read times out, ends it with INTERNAL_ERROR, Block 0x01 and the byte
offset in the error log, and freezes its queue pair (R77, R78, R81, R89): commands that wait for a length list or an SGL. `u` is
the state with the command ended; what it held back then goes on (`settle`). Completes: DATA_TRANSFER_FAILURE,
HOST_READ_TIMEOUT. -/
def Obligations.TransferFailureEndsCommand : Prop :=
  ∀ (slot : SlotId) (a : HostAccess) (offset : Nat) (c : Cmd) (v : Qp) (s : State), getCmd s slot.val = some c →
    c.stage = .lists → Takes s c v → v.log.length < 16 →
    (∃ u w e, exec (.dataTransferFailure slot a offset) s = .next (settle u) ∧ Ends s u slot.val v (baseCpl c .internalError) ∧
      getQp u c.fn c.qp = some w ∧ w.frozen = true ∧ w.log = v.log ++ [e] ∧ e.block = 1 ∧ e.byteOffset = offset ∧
      e.hostAccess = hostAccessCode a ∧ e.flowTag = c.tag ∧ u.streams = s.streams ∧ u.cart = s.cart) ∧
    ∃ u w e, exec (.hostReadTimeout slot offset) s = .next (settle u) ∧ Ends s u slot.val v (baseCpl c .internalError) ∧
      getQp u c.fn c.qp = some w ∧ w.frozen = true ∧ w.log = v.log ++ [e] ∧ e.block = 1 ∧ e.byteOffset = offset ∧
      e.hostAccess = hostAccessCode .timeout ∧ e.flowTag = c.tag

/-- A reset of a queue pair starts: its fetch queue is emptied, its outstanding fetch reads are forgotten, its head goes to
its tail, and the reset runs; AqReset while one runs is merged (R49, R83), and a fetch queue whose pointers differ from their
second copies starts one that will end without a completion (R29, R90). Completes: AQ_RESET, FETCH_QUEUE_MISMATCH, QUEUE_RESET. -/
def Obligations.QueueResetStarts : Prop :=
  (∀ (fn : FnId) (b : Bool) (v : Qp) (s : State), getQp s fn.val 0 = some v →
    (v.reset = none → ∃ t w, exec (.aqReset fn b) s = .next t ∧ getQp t fn.val 0 = some w ∧ w.fetchQ = [] ∧ w.reads = [] ∧
      w.sqHead = v.sqTail ∧ w.sqReq = v.sqTail ∧ w.reset = some {} ∧ w.epoch = v.epoch ∧
      (v.fetchQ = [] → OthersQuiet s fn.val 0 → t.host.cmds = s.host.cmds ∧ t.out = s.out)) ∧
    (v.reset ≠ none → exec (.aqReset fn b) s = .next s)) ∧
  (∀ (fn : FnId) (qp : Fin 4096) (write read : Fin 8) (v : Qp) (s : State), getQp s fn.val qp.val = some v →
    ((v.fqPtrs.getD 0 0 = write.val ∧ v.fqPtrs.getD 1 0 = read.val → exec (.fetchQueueMismatch fn qp write read) s = .next s) ∧
    (v.fqPtrs.getD 0 0 ≠ write.val ∨ v.fqPtrs.getD 1 0 ≠ read.val → v.reset = none →
      ∃ t w, exec (.fetchQueueMismatch fn qp write read) s = .next t ∧ getQp t fn.val qp.val = some w ∧ w.fetchQ = [] ∧
        w.reads = [] ∧ w.sqHead = v.sqTail ∧ w.sqReq = v.sqTail ∧ w.reset = some { mismatch := true } ∧ w.epoch = v.epoch))) ∧
  ∀ (slot : SlotId) (c : Cmd) (v : Qp) (s : State), Started s slot.val opQueueReset c →
    getQp s c.fn (eLocalQp c.entry) = some v → v.reset = none →
    ∃ t w, exec (.queueReset slot) s = .next t ∧ getQp t c.fn (eLocalQp c.entry) = some w ∧ w.fetchQ = [] ∧ w.reads = [] ∧
      w.sqHead = v.sqTail ∧ w.sqReq = v.sqTail ∧ w.reset = some { by' := some slot.val } ∧
      getCmd t slot.val = some { c with stage := .waiting } ∧
      (v.fetchQ = [] → OthersQuiet s c.fn (eLocalQp c.entry) → w.claim = none ∧ t.out = s.out)

/-- When the reads of a queue pair under reset have returned, its epoch is one higher modulo 16, it is unfrozen, its error log
and its held completions are gone (R83, R85). With no command of it in flight and nothing of the data path waiting to go on
(`settle`), the reset of a fetch queue mismatch raises event 0x401 (R90), and that of a QUEUE_RESET ends it with SUCCESS, no
command committed or aborted, the head and the new epoch (R83, R113). Completes: QUEUE_RESET_CUT. -/
def Obligations.QueueResetEnds : Prop :=
  ∀ (fn : FnId) (qp : Fin 4096) (v : Qp) (r : QpReset) (s : State), getQp s fn.val qp.val = some v → v.reset = some r →
    (r.by' = none → ∃ t w, exec (.queueResetCut fn qp) s = .next t ∧ getQp t fn.val qp.val = some w ∧
      w.epoch = (v.epoch + 1) % 16 ∧ w.reset = none ∧ w.frozen = false ∧ w.log = [] ∧ w.lost = 0 ∧ w.held = []) ∧
    let x := setQp fn.val qp.val { v with epoch := (v.epoch + 1) % 16 } s
    (slotsOf s fn.val qp.val = [] → logReaders s fn.val qp.val = [] → settle x = x →
      (r.by' = none → r.mismatch = true → ∃ t, exec (.queueResetCut fn qp) s = .next t ∧
        Tab.getD t.ev.counts 0x401 0 = sat32 (Tab.getD s.ev.counts 0x401 0 + 1)) ∧
      ∀ (slot : SlotId) (c : Cmd) (a : Qp), r.by' = some slot.val → r.mismatch = false → getCmd s slot.val = some c →
        c.stage = .waiting → c.fn = fn.val → c.qp ≠ qp.val → Takes s c a →
        let counts := packLsb [(17, 0), (15, 0), (17, 0), (15, 0), (16, v.sqHead), (4, (v.epoch + 1) % 16)]
        ∃ t w, exec (.queueResetCut fn qp) s = .next t ∧ getQp t fn.val qp.val = some w ∧ w.epoch = (v.epoch + 1) % 16 ∧
          w.reset = none ∧ w.resetEnds = false ∧
          Ends s t slot.val a { baseCpl c .success with specific := BitVec.ofNat 96 counts })

/-- AqRestart of a frozen admin queue pair that no reset runs on, and QUEUE_RESTART of an I/O queue pair, admitted at its fetch,
clear the error log with LostCount and unfreeze it when no completion is held; the command completes with SUCCESS (R49, R78, R82,
R98).
Completes: AQ_RESTART, QUEUE_RESTART. -/
def Obligations.RestartUnfreezes : Prop :=
  (∀ (fn : FnId) (v : Qp) (s : State), getQp s fn.val 0 = some v → v.frozen = true → v.reset = none →
    ∃ t w, exec (.aqRestart fn) s = .next t ∧ getQp t fn.val 0 = some w ∧ w.log = [] ∧ w.lost = 0 ∧ w.writeFailed = false ∧
      w.epoch = v.epoch ∧ (v.held = [] → w.frozen = false ∧ t.out = s.out)) ∧
  (∀ (fn : FnId) (v : Qp) (s : State), getQp s fn.val 0 = some v → (v.frozen = false ∨ v.reset ≠ none) →
    exec (.aqRestart fn) s = .next s) ∧
  ∀ (slot : SlotId) (c : Cmd) (v a : Qp) (s : State), Started s slot.val opQueueRestart c → c.qp ≠ eLocalQp c.entry →
    getQp s c.fn (eLocalQp c.entry) = some v → v.held = [] → Takes s c a →
    ∃ t w, exec (.queueRestart slot) s = .next t ∧ Ends s t slot.val a (baseCpl c .success) ∧
      getQp t c.fn (eLocalQp c.entry) = some w ∧ w.frozen = false ∧ w.log = [] ∧ w.lost = 0

/-- CREATE_QP makes a queue pair from the fields of its entry, with epoch 0, heads and tails 0, phase 1, unfrozen and an empty
log, and completes with its device-wide index; DELETE_QP takes one without commands away (R53, R54, R55, R111). Completes:
CREATE_QP, DELETE_QP. -/
def Obligations.QueuePairsComeAndGo : Prop :=
  (∀ (slot : SlotId) (c : Cmd) (a : Qp) (s : State), Started s slot.val opCreateQp c →
    getQp s c.fn (eLocalQp c.entry) = none → Takes s c a →
    ∃ t v, exec (.createQp slot) s = .next t ∧ getQp t c.fn (eLocalQp c.entry) = some v ∧ v.sqBase = eSqBase c.entry ∧
      v.cqBase = eCqBase c.entry ∧ v.sqDepth = eSqDepth c.entry ∧ v.cqDepth = eCqDepth c.entry ∧
      v.priority = ePriority c.entry ∧ v.vector = eVector c.entry ∧ v.intEnable = eIntEnable c.entry ∧
      v.intThreshold = eIntThreshold c.entry ∧ v.intTime = eIntTime c.entry ∧
      v.maxOut = (if eMaxOut c.entry = 0 then param s 0x2010 4 else eMaxOut c.entry) ∧
      v.epoch = 0 ∧ v.sqHead = 0 ∧ v.sqTail = 0 ∧ v.cqHead = 0 ∧ v.cqTail = 0 ∧ v.phase = true ∧ v.frozen = false ∧
      v.log = [] ∧ Ends s t slot.val a { baseCpl c .success with
        specific := BitVec.ofNat 96 (packLsb [(12, qpIndex s c.fn (eLocalQp c.entry))]) }) ∧
  ∀ (slot : SlotId) (c : Cmd) (v a : Qp) (s : State), Started s slot.val opDeleteQp c → c.qp ≠ eLocalQp c.entry →
    getQp s c.fn (eLocalQp c.entry) = some v → qpHeld s c.fn (eLocalQp c.entry) = 0 → v.held = [] → v.reset = none →
    v.claim = none → v.resetEnds = false → OthersQuiet s c.fn (eLocalQp c.entry) → Takes s c a →
    ∃ t, exec (.deleteQp slot) s = .next t ∧ getQp t c.fn (eLocalQp c.entry) = none ∧
      Ends s t slot.val a (baseCpl c .success)

/-- GET_LOG with a contiguous buffer writes the error log's oldest entries, as many as fit whole at 64 bytes each, unless a reset of
its own queue pair has cut it off from host memory, and completes with their number (R78, R83, R112). UNKNOWN_OPCODE, whose whole
effect that is (R95), completes the command with INVALID_FIELD, adds to that log an entry with the opcode and the Flow Tag, freezes
the queue pair, and changes nothing of the streams, the cartridge or the data path. Completes: GET_LOG, UNKNOWN_OPCODE. -/
def Obligations.GetLogReturnsEntries : Prop :=
  (∀ (slot : SlotId) (c : Cmd) (v a : Qp) (s : State), Started s slot.val opGetLog c → eDataMode c.entry = 1 →
    getQp s c.fn (eLocalQp c.entry) = some v → Takes s c a →
    let n := min v.log.length (eLen c.entry / 64)
    ∃ t, exec (.getLog slot) s = .next t ∧
      Ends s t slot.val a { baseCpl c .success with
        specific := BitVec.ofNat 96 (packLsb [(5, n), (27, 0), (5, v.log.length)]) } ∧
      (0 < n → a.reset = none → let bytes := (v.log.take n).flatMap fun e => leBytes 64 (e.entry v.lost).toNat
        .hostData slot.val false (layout c.sg bytes.length) bytes ∈ t.out) ∧
      t.streams = s.streams ∧ t.cart = s.cart) ∧
  ∀ (slot : SlotId) (c : Cmd) (v : Qp) (s : State), getCmd s slot.val = some c → c.stage = .started →
    opcodes.contains (eOpcode c.entry) = false → Takes s c v → v.log.length < 16 →
    ∃ t w e, exec (.unknownOpcode slot) s = .next t ∧ Ends s t slot.val v (baseCpl c .invalidField) ∧
      getQp t c.fn c.qp = some w ∧ w.frozen = true ∧ w.log = v.log ++ [e] ∧ e.status = .invalidField ∧
      e.opcode = eOpcode c.entry ∧ e.cid = eCid c.entry ∧ e.flowTag = c.tag ∧ e.block = 1 ∧ t.streams = s.streams ∧
      t.cart = s.cart ∧ t.index = s.index ∧ t.cip = s.cip ∧ t.wr = s.wr ∧ t.rd = s.rd ∧ t.pack = s.pack ∧ t.bpm = s.bpm ∧
      t.dict = s.dict

/-- An opcode outside the table ends with INVALID_FIELD, which freezes the queue pair; and whatever command failed a check of
R96 at its fetch ends with that check's status, changing nothing else (R77, R95, R96, R98). Completes: UNKNOWN_OPCODE, whose
effect is that ending. -/
def Obligations.RefusedCommandsEndWithTheirStatus : Prop :=
  (∀ (slot : SlotId) (c : Cmd) (v : Qp) (s : State), getCmd s slot.val = some c → c.stage = .started →
    opcodes.contains (eOpcode c.entry) = false → Takes s c v →
    ∃ t w, exec (.unknownOpcode slot) s = .next t ∧ Ends s t slot.val v (baseCpl c .invalidField) ∧
      getQp t c.fn c.qp = some w ∧ w.frozen = true) ∧
  ∀ (slot : SlotId) (c : Cmd) (v : Qp) (st : Status) (b : Nat) (s : State), getCmd s slot.val = some c → c.stage = .started →
    c.verdict = some (st, b) → Takes s c v → st.isError = true →
    ∀ p ∈ [(opWrite, Instr.write slot), (opRead, .read slot []), (opReadRaw, .readRaw slot []), (opFlush, .flush slot),
           (opStreamCreate, .streamCreate slot), (opStreamOpen, .streamOpen slot []), (opStreamClose, .streamClose slot),
           (opKeyUnload, .keyUnload slot), (opCartLoad, .cartridgeLoad slot), (opCartFormat, .cartridgeFormat slot),
           (opRebuild, .rebuildRange slot []), (opFwActivate, .fwActivate slot), (opDictRead, .dictRead slot)],
      eOpcode c.entry = p.1 →
      ∃ t w, exec p.2 s = .next t ∧ Ends s t slot.val v (baseCpl c st) ∧ getQp t c.fn c.qp = some w ∧ w.frozen = true ∧
        t.streams = s.streams ∧ t.cart = s.cart ∧ t.cip = s.cip ∧ t.index = s.index ∧ t.wr = s.wr ∧ t.rd = s.rd ∧
        t.pack = s.pack ∧ t.bpm = s.bpm ∧ t.dict = s.dict

/-- Enable from 1 to 0, and a Function Level Reset, leave the function without queue pairs and without Ready; an FLR puts all
of its registers back to reset, and one of the PF ends the VFs too; VF Enable makes VFs exist with the counts then in force,
and clearing it takes them away and leaves NumVFs (R37, R50, R91; that NumVFs goes to 0 with an FLR of the PF is the model's
choice, assumption 23). Completes: DISABLE, FLR, VF_ENABLE_SET, VF_ENABLE_CLEAR. -/
def Obligations.FunctionsEnd : Prop :=
  (∀ (fn : FnId) (s : State), (getFn s fn.val).enable = true → ∃ t, exec (.disable fn) s = .next t ∧
    (getFn t fn.val).enable = false ∧ (getFn t fn.val).ready = false ∧ (getFn t fn.val).qps = []) ∧
  (∀ (fn : FnId) (s : State), fnExists s fn.val = true → ∃ t, exec (.flr fn) s = .next t ∧ getFn t fn.val = {} ∧
    (fn.val = 0 → t.host.vfEnable = false ∧ t.host.numVfs = 0)) ∧
  (∀ (n : FnId) (s : State), s.host.vfEnable = false → ∃ t, exec (.vfEnableSet n) s = .next t ∧ t.host.vfEnable = true ∧
    t.host.numVfs = n.val ∧ (∀ f, 1 ≤ f → f ≤ 63 → qpCountOf t f = param s (0x2100 + f) 1 ∧ msixCountOf t f = param s (0x2100 + f) 5) ∧
    (∀ f, getFn t f = getFn s f) ∧ t.host.cmds = s.host.cmds ∧ t.out = s.out) ∧
  ∀ s : State, s.host.vfEnable = true → ∃ t, exec .vfEnableClear s = .next t ∧ t.host.vfEnable = false ∧
    t.host.numVfs = s.host.numVfs ∧ ∀ f, f ≠ 0 → fnExists t f = false


/-! ## Streams, records, blocks and drains -/

/-- The fetch of a STREAM_CREATE queues the stream's first entry, with numbers from 0 and the lease of RecordLease, for the next
dataset header, and opens a dataset when none is filling and a buffer is free; the command waits until that dataset has left the
Cocoon, and completes with SUCCESS when it has, the identifier no longer reserved (R148, R158). STREAM_OPEN opens a CLOSED stream
with the flags of its entry, fixes its lanes, and completes with NextRecord and the class (R101, R119, R149, R211, R212).
Completes: STREAM_CREATE, STREAM_OPEN. -/
def Obligations.StreamsAreCreatedAndOpened : Prop :=
  (∀ (seq : Nat) (e : BitVec 512) (s : State), mediumFull s = false →
    (fetchCreate seq e s).wr.queued = s.wr.queued ++
      [.stream ⟨false, eStream e, eOwnerFn e, classResolved s e, eCipherEn e, 0, s.recordLease⟩] ∧
    (fetchCreate seq e s).streams = s.streams ∧
    (s.wr.filling.isSome = true → (fetchCreate seq e s).wr.filling = s.wr.filling ∧ (fetchCreate seq e s).out = s.out) ∧
    (s.wr.filling = none → s.wr.bufReq = none → (choosePool s 1 25165824).isSome = true →
      ∃ d, (fetchCreate seq e s).wr.filling = some d ∧ d.id = s.wr.nextDs ∧ d.payload = [] ∧ d.state = .filling)) ∧
  (∀ (slot : SlotId) (c : Cmd) (s : State), Started s slot.val opStreamCreate c → Tab.get? s.wr.failedCreates c.seq = none →
    Tab.get? s.reserved (eStream c.entry) = some c.seq →
    (getStream s (eStream c.entry) = none → ∃ t, exec (.streamCreate slot) s = .next t ∧
      getCmd t slot.val = some { c with stage := .waiting } ∧ t.reserved = s.reserved ∧ t.wr = s.wr ∧ t.streams = s.streams ∧
      t.out = s.out) ∧
    ∀ v, (getStream s (eStream c.entry)).isSome = true → Takes s c v → ∃ t, exec (.streamCreate slot) s = .next t ∧
      Ends s t slot.val v (baseCpl c .success) ∧ t.reserved = Tab.del s.reserved (eStream c.entry) ∧
      (∀ x, getStream s (eStream c.entry) = some x → getStream t (eStream c.entry) = some { x with creating := false }) ∧
      (∀ m, m ≠ eStream c.entry → getStream t m = getStream s m) ∧ t.wr = s.wr) ∧
  ∀ (slot : SlotId) (c : Cmd) (x : Stream) (v : Qp) (s : State), Started s slot.val opStreamOpen c →
    getStream s (eStream c.entry) = some x → x.opening = some c.seq → openCount s < 1024 → Takes s c v →
    ∃ t y, exec (.streamOpen slot []) s = .next t ∧
      Ends s t slot.val v { baseCpl c .success with
        specific := BitVec.ofNat 96 (packLsb [(48, x.next), (16, 0), (2, x.comp)]) } ∧
      getStream t (eStream c.entry) = some y ∧ y.state = .opened ∧ y.opening = none ∧ y.readOnly = eReadOnly c.entry ∧
      y.noKey = x.noKey ∧ y.keySlot = x.keySlot ∧ y.lanes = (if x.comp = 2 then 1 else param s 0x5010 3) ∧
      y.cut = 0 ∧ y.entryNext = true ∧ y.openBlk = none ∧ y.next = x.next ∧ y.owner = x.owner ∧ y.comp = x.comp ∧
      y.writeFailed = x.writeFailed ∧ (∀ m, m ≠ eStream c.entry → getStream t m = getStream s m) ∧ t.cart = s.cart ∧
      t.index = s.index ∧ t.pack = s.pack

/-- WRITE of an open stream: with the record lengths and the total known and matching, its transfer may begin, unless the
intake throttle holds it; lengths that do not match end it with LENGTH_INVALID. Data of it that returns from host memory into
an intake buffer of the HQE is its intake, and its tag then names that buffer; it reaches the Record Packer, which takes the
buffers over; while DatasetAbove is 0 every WRITE that the throttle held goes on (R18, R107, R121, R122, R189, R196, R199, R209).
Completes: WRITE, HOST_DATA_READ_DONE, INTAKE_DATA_ARRIVAL, THROTTLE_RELEASE. -/
def Obligations.WritesTakeTheirData : Prop :=
  (∀ (slot : SlotId) (c : Cmd) (x : Stream) (s : State), Started s slot.val opWrite c → getStream s (eStream c.entry) = some x →
    eLenMode c.entry = false → eDataMode c.entry = 1 → 0 < eLen c.entry →
    let lens := List.replicate (eCount c.entry) (eRecLen c.entry)
    (lens.sum = eLen c.entry → ∃ t, exec (.write slot) s = .next t ∧
      getCmd t slot.val = some { c with
        stage := .writing { lens := lens, total := some (eLen c.entry), lensKnown := true, arrivedAt := s.time.toNat,
                            throttled := s.bpm.above } } ∧
      t.out = s.out ∧ t.streams = s.streams ∧ t.pack = s.pack) ∧
    (∀ v, lens.sum ≠ eLen c.entry → Takes s c v → ∃ t, exec (.write slot) s = .next t ∧
      Ends s t slot.val v (baseCpl c .lengthInvalid) ∧
      getStream t (eStream c.entry) = some { x with lastRun := s.time.toNat } ∧
      (∀ m, m ≠ eStream c.entry → getStream t m = getStream s m) ∧ t.pack = s.pack)) ∧
  (∀ (slot : SlotId) (buf : Nat) (bytes : List Byte) (words : List (BitVec 128)) (c : Cmd) (w : WriteJob) (b : Buf) (s : State),
    getCmd s slot.val = some c → c.stage = .writing w → w.lensKnown = true → heldBack s c w = false → cutOff s c = false →
    w.ended = false → Tab.get? s.bpm.bufs buf = some b → b.owner = 0x10#8 → bytes ≠ [] → w.got + bytes.length ≤ w.lens.sum →
    ∃ t, exec (.hostDataReadDone slot .data buf bytes words) s = .next t ∧
      getCmd t slot.val = some { c with tag := tagWithBuf c.tag buf, stage := .writing { w with
        intake := w.intake ++ [(buf, Tab.getD s.pack.intakeFill buf 0, bytes)], got := w.got + bytes.length, arrived := true,
        arrivedAt := if w.arrived then w.arrivedAt else s.time.toNat } } ∧
      Tab.get? t.pack.intakeLeft buf = some (Tab.getD s.pack.intakeLeft buf 0 + bytes.length) ∧ t.streams = s.streams ∧
      t.out = s.out ∧ t.bpm = s.bpm) ∧
  (∀ (slot : SlotId) (n : Nat) (c : Cmd) (w : WriteJob) (s : State), getCmd s slot.val = some c → c.stage = .writing w →
    ∃ u tag, exec (.intakeDataArrival slot n) s = .next (settle (packStream (eStream c.entry) u)) ∧
      getCmd u slot.val = some { c with tag := tag, stage := .writing { w with avail := min (w.avail + n) (intakeBytes w) } } ∧
      (w.intake = [] → tag = c.tag) ∧
      (∀ p ∈ w.intake, ∀ b, Tab.get? s.bpm.bufs p.1 = some b → b.owner = 0x10#8 →
        ∃ b', Tab.get? u.bpm.bufs p.1 = some b' ∧ b'.owner = 0x40#8 ∧ b'.count = b.count) ∧ u.streams = s.streams) ∧
  ∀ s : State, (s.bpm.above = true → exec .throttleRelease s = .next s) ∧
    (s.bpm.above = false → ∃ t, exec .throttleRelease s = .next t ∧ t.streams = s.streams ∧ t.out = s.out ∧
      ∀ n c, getCmd s n = some c →
        (∀ w, c.stage = .writing w → getCmd t n = some { c with stage := .writing { w with released := true } }) ∧
        ((∀ w, c.stage ≠ .writing w) → getCmd t n = some c))

/-- The run of a WRITE: the numbers from NextRecord on, as many as Count, go to the WRITE, NextRecord moves past them and the
WRITE's tag names the first, when the durable lease covers them and no earlier WRITE of the stream waits for the lease or became
ready at the same time; an ordered WRITE waits while an earlier one of its stream has no run; a WRITE beyond the durable lease
waits, and a lease that does not cover it is renewed; ORDERED and lease waits end the same way (R19, R123, R153-R157).
Completes: RUN_ASSIGN, ORDERED_RUN_RELEASE, LEASE_WAIT_RELEASE. -/
def Obligations.RunsAreAssigned : Prop :=
  ∀ (slot : SlotId) (c : Cmd) (w : WriteJob) (x : Stream) (s : State), getCmd s slot.val = some c → c.stage = .writing w →
    getStream s (eStream c.entry) = some x → (eExpectNext c.entry = false ∨ eFirst c.entry = x.next) →
    x.next + eCount c.entry ≤ 0xFFFFFFFFFFFF → indexRoom s (eStream c.entry) = true →
    (w.wait = .lease ∨ earlierReady s (eStream c.entry) c w = false) →
    (x.next + eCount c.entry ≤ x.durable → leaseWaiters s (eStream c.entry) c.seq = false →
      ∀ i : Instr, ((i = .runAssign slot [] true ∧ w.arrived = true ∧ w.run = none ∧ w.wait = .none ∧
            (eOrdered c.entry = true → earlierNoRun s (eStream c.entry) c.seq = false)) ∨
          (i = .orderedRunRelease slot ∧ w.wait = .ordered ∧ earlierNoRun s (eStream c.entry) c.seq = false) ∨
          (i = .leaseWaitRelease slot ∧ w.wait = .lease)) →
        ∃ u y, exec i s = .next (settle (packStream (eStream c.entry) u)) ∧ getStream u (eStream c.entry) = some y ∧
          y.next = x.next + eCount c.entry ∧ y.runs = x.runs ++ [⟨c.seq, x.next, eCount c.entry⟩] ∧ y.durable = x.durable ∧
          y.lastRun = s.time.toNat ∧
          getCmd u slot.val = some { c with tag := tagWithRecord c.tag x.next,
                                            stage := .writing { w with run := some x.next, wait := .none } } ∧
          (∀ m, m ≠ eStream c.entry → getStream u m = getStream s m) ∧ u.out = s.out) ∧
    let renewed := if x.pendingLease < x.next + eCount c.entry then min (x.next + s.recordLease) 0xFFFFFFFFFFFF else x.pendingLease
    (w.arrived = true → w.run = none → w.wait = .none →
      (eOrdered c.entry = true → earlierNoRun s (eStream c.entry) c.seq = true → ∃ t, exec (.runAssign slot [] true) s = .next t ∧
        getCmd t slot.val = some { c with stage := .writing { w with wait := .ordered } } ∧ t.streams = s.streams ∧
        t.out = s.out) ∧
      (eOrdered c.entry = false → x.durable < x.next + eCount c.entry → ∃ t y, exec (.runAssign slot [] true) s = .next t ∧
        getCmd t slot.val = some { c with stage := .writing { w with wait := .lease } } ∧
        getStream t (eStream c.entry) = some y ∧ y.next = x.next ∧ y.runs = x.runs ∧ t.out = s.out ∧
        y.pendingLease = renewed)) ∧
    (w.wait = .lease → leaseWaiters s (eStream c.entry) c.seq = false → x.durable < x.next + eCount c.entry →
      ∃ t y, exec (.leaseWaitRelease slot) s = .next t ∧ getStream t (eStream c.entry) = some y ∧ y.next = x.next ∧
        y.runs = x.runs ∧ y.pendingLease = renewed ∧ t.host.cmds = s.host.cmds ∧ t.out = s.out)

/-- An idle engine takes over the lane whose block has waited longest, with the lane's saved state, and the block takes the
encoder's parameters; an encoding that is shorter than the content and decodes back to it is the block's payload; one that is
not shorter is answered NOSHRINK and the block is copied raw; one that does not decode back, or a copy with a wrong CRC, is
counted, raises event 0x510, and the block is copied raw; a finished packet that its FIFO holds is counted with its content and
payload, and a block without a cipher is offered to the Dataset Builder (R25, R31, R226, R227, R228, R230, R231, R239, R275).
Completes: LANE_SWITCH, BLOCK_ENCODED, RAW_COPY_DONE. -/
def Obligations.BlocksAreEncoded : Prop :=
  (∀ (e : Fin 24) (n : Fin 16384) (l : Fin 16) (b : Blk) (s : State), oldestFor s e.val = some b → b.stream = n.val →
    b.lane = l.val → (getEngine s e.val).busy = none → (getEngine s e.val).bufReq = none → engineEnabled s e.val = true →
    (∀ m k, (getEngine s e.val).lane = some (m, k) →
      k < 16 ∧ (nextOfLane s m k = none ∨ param s 0x5000 5 ≤ (getEngine s e.val).inRow)) →
    ∃ u y, exec (.laneSwitch e n l []) s = .next (dispatchAll u) ∧ (getEngine u e.val).lane = some (n.val, l.val) ∧
      (getEngine u e.val).busy = some b.id ∧ (getEngine u e.val).inRow = 1 ∧
      (getEngine u e.val).state = Tab.getD s.pack.saved (laneKey n.val l.val) {} ∧
      (∀ m k, (getEngine s e.val).lane = some (m, k) →
        Tab.get? u.pack.saved (laneKey m k) = some (getEngine s e.val).state) ∧
      getBlk u b.id = some y ∧ y.frags = b.frags ∧ y.stage = (if b.comp = 3 then .copying e.val else .onEngine e.val) ∧
      y.effort = (if b.comp = 1 then param s 0x5010 1 else 0) ∧ y.segment = param s 0x5010 2 ∧
      y.check = param s 0x5020 1 ∧ y.loss = param s 0x5020 2 ∧
      u.pack.laneSwitches = s.pack.laneSwitches + 1 ∧ (dispatchAll u).wr = s.wr ∧ (dispatchAll u).out = s.out ∧
      (dispatchAll u).host = s.host) ∧
  (∀ (e : Fin 24) (p : List Byte) (b : Blk) (k : Nat) (s : State), (getEngine s e.val).busy = some b.id →
    getBlk s b.id = some b → b.stage = .onEngine k →
    (∀ st m, decodeBlock b.comp false b.independent (getEngine s e.val).state p (contentOf b.frags).length =
        some (contentOf b.frags, st) →
      encoderMeter b.comp b.effort b.segment b.check b.loss b.independent (getEngine s e.val).state p
        (contentOf b.frags).length = some m →
      ((contentOf b.frags).length ≤ p.length → ∃ t, exec (.blockEncoded e p [] true) s = .next t ∧
        getBlk t b.id = some { b with stage := .copying e.val } ∧
        t.bpm.answers = ⟨0x40#8, .noShrink, none, b.flow⟩ :: s.bpm.answers ∧ t.pack.engines = s.pack.engines ∧ t.wr = s.wr ∧
        t.out = s.out ∧ t.host = s.host) ∧
      (p.length < (contentOf b.frags).length → fifoRoom s e.val p = true →
        ∃ u, exec (.blockEncoded e p [] true) s = .next (if b.key.isSome then u else offer b.id u) ∧
          u.pack.blocksWritten = s.pack.blocksWritten + 1 ∧ u.pack.blocksRaw = s.pack.blocksRaw + b.raw.toNat ∧
          u.pack.contentBytes = s.pack.contentBytes + contentLen b.frags ∧
          u.pack.payloadBytes = s.pack.payloadBytes + p.length ∧ u.wr = s.wr)) ∧
    ((∀ st, decodeBlock b.comp false b.independent (getEngine s e.val).state p (contentOf b.frags).length ≠
        some (contentOf b.frags, st)) →
      ∃ t, exec (.blockEncoded e p [] true) s = .next t ∧
        getBlk t b.id = some { b with stage := .copying e.val, fallback := true } ∧
        t.pack.verifyMismatches = sat32 (s.pack.verifyMismatches + 1) ∧ t.pack.engines = s.pack.engines ∧
        Tab.getD t.ev.counts 0x510 0 = sat32 (Tab.getD s.ev.counts 0x510 0 + 1) ∧ t.wr = s.wr)) ∧
  ∀ (e : Fin 24) (b : Blk) (k : Nat) (s : State), (getEngine s e.val).busy = some b.id → getBlk s b.id = some b →
    b.stage = .copying k →
    (fifoRoom s e.val (contentOf b.frags) = true →
      ∃ u, exec (.rawCopyDone e true []) s = .next (if b.key.isSome then u else offer b.id u) ∧
      u.pack.blocksWritten = s.pack.blocksWritten + 1 ∧ u.pack.blocksRaw = s.pack.blocksRaw + 1 ∧
      u.pack.contentBytes = s.pack.contentBytes + contentLen b.frags ∧
      u.pack.payloadBytes = s.pack.payloadBytes + (contentOf b.frags).length ∧ u.wr = s.wr) ∧
    ∃ t, exec (.rawCopyDone e false []) s = .next t ∧ getBlk t b.id = some { b with stage := .copying e.val, fallback := true } ∧
      t.pack.verifyMismatches = sat32 (s.pack.verifyMismatches + 1) ∧ t.pack.engines = s.pack.engines ∧
      Tab.getD t.ev.counts 0x510 0 = sat32 (Tab.getD s.ev.counts 0x510 0 + 1) ∧ t.wr = s.wr

/-- STREAM_CLOSE and FLUSH start a drain that cuts the open blocks it covers; a block cut after the idle time takes its lane by
turn and its place in the stream; a dataset that holds the end of an on-medium WRITE, or for which a created stream waits, is
closed and padded after the delay; a drain with nothing left ends its command: FLUSH with the error of the first failed dataset,
else with SUCCESS, and the counts of datasets closed and padded; STREAM_CLOSE with NextRecord, the stream then CLOSED (R101,
R126, R137, R139, R141, R158, R209, R211). Which datasets those counts take in is the model's choice (assumption 96). Completes:
FLUSH, STREAM_CLOSE, PACKER_IDLE_CLOSE, MEDIUM_CLOSE_DELAY, DRAIN_COMPLETE. -/
def Obligations.DrainsCloseAndComplete : Prop :=
  (∀ (slot : SlotId) (c : Cmd) (s : State) (j : DrainJob) (i : Instr),
    (i = .flush slot ∧ Started s slot.val opFlush c ∧
        j = { scope := eScope c.entry, stream := if eScope c.entry = 0 then eStream c.entry else 0, sync := eIndexSync c.entry }) ∨
      (i = .streamClose slot ∧ Started s slot.val opStreamClose c ∧ j = { scope := 0, stream := eStream c.entry } ∧
        ∃ x, getStream s (eStream c.entry) = some x ∧ x.closer = some c.seq) →
    let d : Drain := { scope := j.scope, fn := c.fn, stream := j.stream, seq := c.seq, slot := some slot.val }
    ∃ u, exec i s = .next (failIfStopped d (settle u)) ∧ getCmd u slot.val = some { c with stage := .draining j } ∧
      (∀ n y o, d.covers s n = true → getStream u n = some y → y.openBlk = some o → o.frags = []) ∧
      (∀ n, d.covers s n = false → (getStream u n).map (·.openBlk) = (getStream s n).map (·.openBlk)) ∧ u.out = s.out) ∧
  (∀ (n : Fin 16384) (x : Stream) (o : OpenBlk) (s : State), getStream s n.val = some x → x.openBlk = some o → o.frags ≠ [] →
    ∃ u b y, exec (.packerIdleClose n) s = .next (settle (dispatchAll u)) ∧ getBlk u s.pack.nextBlk = some b ∧
      b.frags = o.frags ∧ b.stream = n.val ∧ b.lane = x.cut % x.lanes ∧ b.laneCount = x.lanes ∧ b.comp = x.comp ∧
      b.stage = .queued ∧ b.key = (if x.cipher then some x.keySlot else none) ∧
      b.independent = (o.entry || decide (0 < x.entryLeft) || decide (x.comp = 3)) ∧
      getStream u n.val = some y ∧ y.openBlk = none ∧ y.cut = x.cut + 1 ∧ u.pack.nextBlk = s.pack.nextBlk + 1) ∧
  (∀ (d : Dataset) (s : State), s.wr.filling = some d → (mediumIn s d ≠ [] ∨ firstQueued s = true) → s.wr.stopped = false →
    ∃ u e, exec .mediumCloseDelay s = .next (settle u) ∧ u.wr.filling = none ∧ u.wr.closedQ = s.wr.closedQ ++ [e] ∧
      e.id = d.id ∧ e.state = .closed ∧ e.payload = d.payload ∧ e.padded = decide (64 ≤ payloadArea - d.payload.length)) ∧
  ∀ (slot : SlotId) (c : Cmd) (j : DrainJob) (v : Qp) (s : State), getCmd s slot.val = some c → c.stage = .draining j →
    j.dataDone = false → tapeGone s = false → s.wr.stopped = false → Takes s c v →
    let d : Drain := { scope := j.scope, fn := c.fn, stream := j.stream, seq := c.seq, slot := some slot.val }
    d.writesLeft s = false → d.bytesLeft s = false →
    (eOpcode c.entry = opFlush → j.sync = false → ∃ t, exec (.drainComplete slot) s = .next t ∧
      Ends s t slot.val v { baseCpl c (d.status s) with
        specific := BitVec.ofNat 96 (packLsb [(32, j.closed), (32, j.padded)]) }) ∧
    (∀ x, eOpcode c.entry = opStreamClose → d.readsLeft s = false → getStream s j.stream = some x →
      ∃ t y, exec (.drainComplete slot) s = .next t ∧ getStream t j.stream = some y ∧ y.state = .closed ∧ y.openBlk = none ∧
        y.runs = [] ∧ y.next = x.next ∧
        Ends s t slot.val v { baseCpl c (d.status s) with
          specific := BitVec.ofNat 96 (packLsb [(48, x.next)]) })

/-! ## Reads, keys, buffers -/

/-- A READ whose one record is at hand on an otherwise idle device delivers its bytes to the places its buffer names and completes
with RecordsDone 1; a record longer than the buffer fills it and leaves a residue; a record that is not there ends it with its
status, unless SkipMissing is set. A READ_RAW whose one record lies in one stored block delivers that block; a record of which not
every byte is there is not counted. `recStatus` and `rawStatus` say what a record number comes to (R64, R130-R135, R159).
Completes: READ, READ_RAW. -/
def Obligations.ReadsDeliverRecords : Prop :=
  ∀ (slot : SlotId) (c : Cmd) (x : Stream) (v : Qp) (s : State), s.host.cmds = [(slot.val, c)] → s.pack.blks = [] →
    s.wr.waiting = [] → s.wr.closedQ = [] → s.wr.filling = none → s.pwr.drain = none → s.fw.activate = none → s.bpm.bufs = [] →
    (∀ p ∈ s.streams, p.2.openBlk = none ∧ p.2.state ≠ .closing) → getStream s (eStream c.entry) = some x →
    eDataMode c.entry = 1 → eCount c.entry = 1 → v.reset = none → Takes s c v →
    (Started s slot.val opRead c →
      (∀ d b, recStatus s (eStream c.entry) (eFirst c.entry) = .res (.data d b) → d ≠ [] → ∃ t p,
        exec (.read slot []) s = .next t ∧ Ends s t slot.val v p ∧ p.cid = eCid c.entry ∧ p.epoch = c.epoch ∧
        p.recordNum = eFirst c.entry ∧
        (d.length ≤ eLen c.entry → .hostData slot.val true (layout c.sg d.length) d ∈ t.out ∧ p.recordsDone = 1 ∧ p.residue = 0 ∧
          p.status = infoStatus (c.info ||| if b then 2#8 else 0#8)) ∧
        (eLen c.entry < d.length → 0 < eLen c.entry →
          .hostData slot.val true (layout c.sg (eLen c.entry)) (d.take (eLen c.entry)) ∈ t.out ∧ p.recordsDone = 0 ∧
          p.residue = d.length - eLen c.entry ∧ p.status = .lengthResidue)) ∧
      (∀ y e st, recStatus s (eStream c.entry) (eFirst c.entry) = .res y → y.skip = some (e, st) → ∃ t p,
        exec (.read slot []) s = .next t ∧ Ends s t slot.val v p ∧
        (eSkipMissing c.entry = false → p.status = st ∧ p.recordsDone = 0) ∧
        (eSkipMissing c.entry = true → p.status = infoStatus (c.info ||| 16#8) ∧ p.recordsDone = 1))) ∧
    (Started s slot.val opReadRaw c →
      ∀ (whole : Bool) (b : RawBlk), rawStatus s (eStream c.entry) (eFirst c.entry) = .blocks whole [b] → b.bytes ≠ [] →
        b.bytes.length ≤ eLen c.entry →
        ∃ t p, exec (.readRaw slot []) s = .next t ∧ Ends s t slot.val v p ∧
          .hostData slot.val true (layout c.sg b.bytes.length) b.bytes ∈ t.out ∧ p.recordsDone = whole.toNat ∧
          p.recordNum = eFirst c.entry ∧ p.residue = 0 ∧ p.status = infoStatus (c.info ||| if b.rebuilt then 2#8 else 0#8))

/-- When the collection window ends, the dataset with the lowest place on tape is read first, or the one past its age limit, and a
read dataset buffer is granted or asked for; after each round of correction a dataset with every data sector known has been
read, and one with erasures goes on to the harvest and then to the retries, each counted, until no retry is left (R176, R178,
R196, R415-R420). Completes: READ_BATCH_WINDOW, READ_AGE_LIMIT, DATASET_DECODE, HARVEST_READ, READ_RETRY. -/
def Obligations.ReadsAreScheduledAndRetried : Prop :=
  (∀ s : State, s.rd.collecting = true → s.rd.cur = none → s.rd.queue ≠ [] → s.rd.urgent = none → s.wr.pass = false →
    s.wr.ckpt = none → s.cart.unthreading = false → (s.cart.state = .ready ∨ s.cart.state = .readOnly) →
    ∃ t n d, exec .readBatchWindow s = .next t ∧ n ∈ s.rd.queue ∧ (∀ m ∈ s.rd.queue, currentOf s n ≤ currentOf s m) ∧
      t.rd.cur = some d ∧ d.orig = n ∧ d.number = currentOf s n ∧ d.phase = 0 ∧ d.got = [] ∧
      ((choosePool s 1 25165824).isSome = true → d.buf.isSome = true) ∧
      (choosePool s 1 25165824 = none → d.buf = none ∧ d.bufReq = some s.bpm.nextHeld) ∧
      t.rd.queue = s.rd.queue.filter (· != n) ∧ t.rd.collecting = false ∧ t.rd.batch = true ∧ t.rd.offset = 0 ∧
      t.rd.speed = param s 0x4840 9 ∧ (t.bpm.above = s.bpm.above → t.host = s.host) ∧ t.out = s.out) ∧
  (∀ (n : Nat) (s : State),
    (n ∈ s.rd.queue → s.rd.urgent = none → exec (.readAgeLimit n) s = .next { s with rd := { s.rd with urgent := some n } }) ∧
    (n ∉ s.rd.queue → exec (.readAgeLimit n) s = .next s)) ∧
  ∀ (d : ReadDs) (i : Instr) (s : State), s.rd.cur = some d → d.buf.isSome = true →
    (i = .datasetDecode [] ∧ d.phase = 0 ∨ i = .harvestRead [] ∧ d.phase = 1 ∨ i = .readRetry [] ∧ d.phase = 2) →
    let e := decodeRounds s d
    let again := if d.phase = 2 then d.retry + 1 else 1
    (erasedData e = [] ∨ (d.phase ≠ 0 ∧ param s 0x4870 6 < again) → ∃ u, exec i s = .next (startRead (tryCkpt (settle u))) ∧
      u.rd.cur = none ∧ d.orig ∈ u.rd.seen ∧ u.rd.offset = 0 ∧ u.rd.speed = param s 0x4840 9 ∧
      u.rd.retriesDone = s.rd.retriesDone + (if d.phase = 2 then 1 else 0)) ∧
    (erasedData e ≠ [] → d.phase = 0 → ∃ t, exec i s = .next t ∧ t.rd.cur = some { e with phase := 1 } ∧ t.host = s.host ∧
      t.out = s.out) ∧
    (erasedData e ≠ [] → d.phase ≠ 0 → again ≤ param s 0x4870 6 → ∃ t, exec i s = .next t ∧
      t.rd.cur = some { e with phase := 2, retry := again } ∧ t.host = s.host ∧ t.out = s.out ∧
      t.rd.speed = (retrySettings s again).1 ∧ t.rd.offset = (retrySettings s again).2 ∧
      t.rd.retriesDone = s.rd.retriesDone + (if d.phase = 2 then 1 else 0))

/-- REBUILD_RANGE starts at its first dataset, which on an otherwise idle device is then listed to be read; an encrypted block
read is decrypted under its stream's key into a buffer of the decryptor, or marked and event 0x521 raised when its tag fails; where
no buffer is available it waits for one; a block whose history is at hand is decoded to its fragments on an engine that is at
rest, or the block that could not be decoded is marked and event 0x512 raised, as for every block of the stream whose fragments do
not follow those before it (R118, R196, R204, R233, R234, R264, R265, R425).
Completes: REBUILD_RANGE, BLOCK_DECRYPTED, BLOCK_DECODE. -/
def Obligations.TapeBlocksAreDecoded : Prop :=
  (∀ (slot : SlotId) (c : Cmd) (s : State), Started s slot.val opRebuild c → tapeGone s = false →
    let job : RebuildJob := { next := eDsFirst c.entry, last := eDsFirst c.entry + eDsCount c.entry - 1 }
    (∃ u, exec (.rebuildRange slot []) s = .next (settle u) ∧ getCmd u slot.val = some { c with stage := .rebuilding job } ∧
      u.rd = s.rd ∧ u.wr = s.wr ∧ u.cart = s.cart ∧ u.out = s.out) ∧
    (s.host.cmds = [(slot.val, c)] → s.pack.blks = [] → s.wr.waiting = [] → s.wr.closedQ = [] → s.wr.cocoon = [] →
      s.wr.filling = none → s.wr.stopped = false → s.pwr.drain = none → s.fw.activate = none → s.rd.cur = none →
      (∀ p ∈ s.streams, p.2.openBlk = none ∧ p.2.state ≠ .closing) → 0 < eDsCount c.entry →
      s.index.failed.contains (eDsFirst c.entry) = false →
      ∃ t, exec (.rebuildRange slot []) s = .next t ∧ getCmd t slot.val = some { c with stage := .rebuilding job } ∧
        t.rd.queue = [eDsFirst c.entry] ∧ t.out = s.out ∧ t.wr = s.wr ∧ t.cart = s.cart ∧ t.streams = s.streams)) ∧
  (∀ (p : Fin 4) (id : Nat) (b : TapeBlk) (k : KeySlot) (s : State), getTape s id = some b → blkKey s b.stream = some k →
    ciphered s b.stream = true → s.cip.failed = false → b.plain = none → b.authFailed = false → b.unreadable = false →
    b.short = 0 → b.bufReq = none → resetting s 2 = false →
    (b.buf.isSome = true ∨ (choosePool s 1 (max 1 b.payloadLen)).isSome = true →
      ∃ u i, exec (.blockDecrypted p id [] true) s = .next (settle u) ∧
        (∀ l, decryptBlk k.key b = some l → getTape u id = some { b with buf := some i, plain := some l } ∧
          u.cip.decrypted = s.cip.decrypted + 1 ∧ u.ev = s.ev) ∧
        (decryptBlk k.key b = none → getTape u id = some { b with buf := none, authFailed := true } ∧
          u.cip.decrypted = s.cip.decrypted ∧ u.cip.authFailures = sat32 (s.cip.authFailures + 1) ∧
          Tab.getD u.ev.counts 0x521 0 = sat32 (Tab.getD s.ev.counts 0x521 0 + 1))) ∧
    (b.buf = none → choosePool s 1 (max 1 b.payloadLen) = none → ∃ t, exec (.blockDecrypted p id [] true) s = .next t ∧
      getTape t id = some { b with bufReq := some s.bpm.nextHeld } ∧ t.cip = s.cip ∧ t.host = s.host)) ∧
  ∀ (e : Fin 24) (id : Nat) (b : TapeBlk) (l : List TapeBlk) (s : State), getTape s id = some b → blkState s b = .wait →
    histOf s b = .ready l → engineServes e.val b.comp = true → engineEnabled s e.val = true → (getEngine s e.val).busy = none →
    b.outReq = none → (ciphered s b.stream = true → ∀ p ∈ b :: (laneStart l).2, p.plain.isSome = true) →
    (b.outBuf.isSome = true ∨ (choosePool s 1 (max 1 b.contentLen)).isSome = true) →
    let r := decodeLane s (laneStart l).1.isSome ((laneStart l).1.getD {}) ((laneStart l).2 ++ [b])
    ∃ u, exec (.blockDecode e id [] true) s = .next (settle u) ∧
      (∀ y, r.2 = none → r.1.getLast? = some y → y.frags.isSome = true ∧
        (∃ z, getTape u id = some z ∧ z.frags = y.frags ∧ z.after = y.after) ∧
        (s.rd.blks = [b] → u.pack.decompErrors = s.pack.decompErrors)) ∧
      (∀ x, r.2 = some x → sat32 (s.pack.decompErrors + 1) ≤ u.pack.decompErrors ∧
        sat32 (Tab.getD s.ev.counts 0x512 0 + 1) ≤ Tab.getD u.ev.counts 0x512 0 ∧
        (s.rd.blks = [b] → u.pack.decompErrors = sat32 (s.pack.decompErrors + 1) ∧
          Tab.getD u.ev.counts 0x512 0 = sat32 (Tab.getD s.ev.counts 0x512 0 + 1)) ∧
        (x.id = id → ∃ z, getTape u id = some z ∧ z.fault = true))

/-- KEY_LOAD of kind 3 installs a KEK for the function it names and answers its check value; of kind 0 it unwraps the key, takes
the lowest free slot and waits for its reservation of invocation values to be persisted; a blob that does not unwrap ends with
INVALID_FIELD and event 0x520. The persist done, the slot is LOADED and the command answers its number and first value; a
failed one ends it with INTERNAL_ERROR. The recorded high-water of a pair never falls. KEY_UNLOAD frees its slot; a retiring slot
that nothing names goes, and the last of its function raises event 0x526 (R248, R252-R255, R257-R261, R270). Completes:
KEY_LOAD, KEY_UNLOAD, IV_RESERVE_PERSIST_DONE, SLOT_RETIRE_COMPLETE. -/
def Obligations.KeysAreLoadedAndRetired : Prop :=
  (∀ (slot : SlotId) (data : List Byte) (c : Cmd) (v : Qp) (s : State), Started s slot.val opKeyLoad c → s.lc.job = none →
    s.lc.state = 2 → s.cip.failed = false → data.length = eLen c.entry → earlierLoad s c = false → Takes s c v →
    (eKeyKind c.entry = 3 → ∃ t, exec (.keyLoad slot data) s = .next t ∧
      Tab.get? t.cip.keks (eTargetFn c.entry) = some (BitVec.ofNat 256 (beNat data), 3) ∧ t.cip.slots = s.cip.slots ∧
      Ends s t slot.val v { baseCpl c .success with
        specific := BitVec.ofNat 96 (packLsb [(13, 0), (19, 0), (64, leNat (Crypto.kekCheck data))]) }) ∧
    (∀ k n, eKeyKind c.entry = 0 → Tab.get? s.cip.keks c.fn = some (k, n) →
      (Crypto.unwrap k data = none → ∃ t, exec (.keyLoad slot data) s = .next t ∧ t.cip = s.cip ∧
        Ends s t slot.val v (baseCpl c .invalidField) ∧
        Tab.getD t.ev.counts 0x520 0 = sat32 (Tab.getD s.ev.counts 0x520 0 + 1)) ∧
      ∀ l i, Crypto.unwrap k data = some l → eStartMode c.entry = false → eStartCounter c.entry < ivLimit →
        recordedHigh s (pairKey (BitVec.ofNat 256 (beNat l)) (BitVec.ofNat 24 (eWriterId c.entry))) = none →
        persisting s (pairKey (BitVec.ofNat 256 (beNat l)) (BitVec.ofNat 24 (eWriterId c.entry))) = false →
        counterRoom s (pairKey (BitVec.ofNat 256 (beNat l)) (BitVec.ofNat 24 (eWriterId c.entry))) = true →
        lowestKey s = some i → keysOwned s c.fn < param s 0x5800 5 →
        ∃ t p, exec (.keyLoad slot data) s = .next t ∧ t.cip.loads = s.cip.loads ++ [p] ∧ p.slot = some slot.val ∧ p.key = i ∧
          p.entry.state = .loaded ∧ p.entry.key = BitVec.ofNat 256 (beNat l) ∧ p.entry.owner = c.fn ∧
          p.entry.next = eStartCounter c.entry ∧ p.entry.highWater = min (eStartCounter c.entry + 2 ^ 24 - 1) (ivLimit - 1) ∧
          p.entry.scope = (if eAnyStream c.entry then none else some (eStream c.entry)) ∧
          getCmd t slot.val = some { c with stage := .waiting } ∧ t.cip.slots = s.cip.slots ∧ t.out = s.out)) ∧
  (∀ (slot : SlotId) (c : Cmd) (k : KeySlot) (v : Qp) (s : State), Started s slot.val opKeyUnload c →
    Tab.get? s.cip.slots (eUnloadSlot c.entry) = some k → k.unloading = some c.seq → Takes s c v →
    ∃ t, exec (.keyUnload slot) s = .next t ∧ Tab.get? t.cip.slots (eUnloadSlot c.entry) = none ∧
      (∀ n, n ≠ eUnloadSlot c.entry → Tab.get? t.cip.slots n = Tab.get? s.cip.slots n) ∧ t.cip.keks = s.cip.keks ∧
      Ends s t slot.val v (baseCpl c .success)) ∧
  (∀ (p : KeyPend) (l : List KeyPend) (s : State), s.cip.loads = p :: l →
    let pair := pairKey p.entry.key p.entry.writerId
    let high := max (Tab.getD s.cip.counters pair 0) p.entry.highWater
    (∀ slot c v, p.slot = some slot → getCmd s slot = some c → c.stage = .waiting → Takes s c v →
      (∃ t, exec (.ivReservePersistDone true) s = .next t ∧ t.cip.loads = l ∧
        Tab.get? t.cip.slots p.key = some { p.entry with warned := nearLimit p.entry } ∧
        Tab.get? t.cip.counters pair = some high ∧ t.cip.persists = sat32 (s.cip.persists + 1) ∧
        Ends s t slot v { baseCpl c .success with
          specific := BitVec.ofNat 96 (packLsb [(13, p.key), (19, 0), (64, p.entry.next)]) }) ∧
      ∃ t, exec (.ivReservePersistDone false) s = .next t ∧ t.cip.loads = l ∧ t.cip.slots = s.cip.slots ∧
        t.cip.counters = s.cip.counters ∧ Ends s t slot v (baseCpl c .internalError) ∧
        Tab.getD t.ev.counts 0x523 0 = sat32 (Tab.getD s.ev.counts 0x523 0 + 1)) ∧
    ∀ k, p.slot = none → Tab.get? s.cip.slots p.key = some k → ∃ t, exec (.ivReservePersistDone true) s = .next t ∧
      t.cip.loads = l ∧ Tab.get? t.cip.slots p.key = some { k with persisting := false, highWater := p.entry.highWater } ∧
      Tab.get? t.cip.counters pair = some high) ∧
  ∀ (n : Fin 8192) (k : KeySlot) (s : State), Tab.get? s.cip.slots n.val = some k → k.state = .retiring →
    (∀ p ∈ s.pack.blks, namesKey p.2 n.val = false) →
    (∀ p ∈ s.streams, p.2.cipher = true → p.2.keySlot = n.val → (p.2.state = .closed ∧ p.2.opening = none) ∨ p.2.noKey = true) →
    ∃ t, exec (.slotRetireComplete n) s = .next t ∧ Tab.get? t.cip.slots n.val = none ∧ t.cip.keks = s.cip.keks ∧
      ((∀ m e, m ≠ n.val → (m, e) ∈ s.cip.slots → e.owner ≠ k.owner) →
        Tab.getD t.ev.counts 0x526 0 = sat32 (Tab.getD s.ev.counts 0x526 0 + 1))

/-- A cipher pair that is idle, and has or gets an output buffer, takes an engine's oldest packet whose slot does not wait, with
the key slot's next invocation value, which moves on by one; where the slot of every packet waits for its reservation to be
persisted, none is taken. The block is sealed with AES-GCM under its key and vector and offered to the Dataset Builder. A failed
entropy source stops the engine and raises event 0x527; the request count restarts with the reseed after 2^20 requests; a counter
pair that no slot uses is retired (R242, R243, R244, R259, R262, R268, R269, R275). Completes: CIPHER_TAKE_PACKET,
BLOCK_ENCRYPTED, ENTROPY_HEALTH_FAIL, DRBG_RESEED, COUNTER_RETIRE. -/
def Obligations.BlocksAreEncrypted : Prop :=
  (∀ (pair : Fin 4) (e : Fin 24) (b : Blk) (k : KeySlot) (s : State), headPacket s e.val = some b →
    let p := Tab.getD s.cip.pairs pair.val {}
    p.enc = none → resetting s 2 = false → s.cip.failed = false → Tab.get? s.cip.slots (b.key.getD 0) = some k →
    k.next < ivLimit → k.next ≤ k.highWater →
    ((∃ i, p.buf = some i ∧ b.storedSize ≤ poolSize (i / 32768)) ∨
      (p.buf = none ∧ p.bufReq = none ∧ (choosePool s 1 b.storedSize).isSome = true)) →
    ∃ t k' p' i, exec (.cipherTakePacket pair e [] true) s = .next t ∧
      getBlk t b.id = some { b with
        stage := .inCipher pair.val, iv := some (ivOf k), fifo := none, buf := some i, flow := tagWithBuf b.flow i } ∧
      Tab.get? t.cip.slots (b.key.getD 0) = some k' ∧ k'.next = k.next + 1 ∧ k'.key = k.key ∧ k'.highWater = k.highWater ∧
      Tab.get? t.cip.pairs pair.val = some p' ∧ p'.enc = some b.id ∧ p'.buf = none ∧ t.wr = s.wr ∧ t.streams = s.streams) ∧
  (∀ (pair : Fin 4) (e : Fin 24) (ecc : List EccWord) (tagOk : Bool) (s : State),
    (∀ p ∈ s.pack.blks, p.2.stage = .packet e.val → slotWaits s (p.2.key.getD 0) = true) →
    exec (.cipherTakePacket pair e ecc tagOk) s = .next s) ∧
  (∀ (pair : Fin 4) (b : Blk) (p : CipherPair) (n : Nat) (k : KeySlot) (iv : BitVec 96) (s : State),
    Tab.get? s.cip.pairs pair.val = some p → p.enc = some n → getBlk s n = some b → b.id = n →
    Tab.get? s.cip.slots (b.key.getD 0) = some k → b.iv = some iv →
    let r := Crypto.gcmEnc k.key iv b.header b.payload
    ∃ u, exec (.blockEncrypted pair [] true) s = .next (offer b.id u) ∧ getBlk u b.id = some { b with payload := r.1, tag := r.2 } ∧
      u.cip.encrypted = s.cip.encrypted + 1 ∧ Tab.get? u.cip.pairs pair.val = some { p with enc := none } ∧
      u.cip.slots = s.cip.slots ∧ u.wr = s.wr) ∧
  (∀ s : State, ∃ t, exec .entropyHealthFail s = .next t ∧ t.cip = { s.cip with failed := true } ∧
    Tab.getD t.ev.counts 0x527 0 = sat32 (Tab.getD s.ev.counts 0x527 0 + 1)) ∧
  (∀ s : State, (2 ^ 20 ≤ s.cip.drbgRequests → exec .drbgReseed s = .next { s with cip := { s.cip with drbgRequests := 0 } }) ∧
    (s.cip.drbgRequests < 2 ^ 20 → exec .drbgReseed s = .next s)) ∧
  ∀ (blob : List Byte) (s : State),
    (retireOk s blob = true → ∃ t, exec (.counterRetire blob) s = .next t ∧ Tab.get? t.cip.counters (retirePair blob) = none ∧
      (∀ n, n ≠ retirePair blob → Tab.get? t.cip.counters n = Tab.get? s.cip.counters n) ∧ t.cip.slots = s.cip.slots) ∧
    (retireOk s blob = false → exec (.counterRetire blob) s = .next s)

/-- ALLOC takes a buffer of the smallest pool that fits and has one available to the request's class; with none it is refused
with POOL_EMPTY or held, by the class; every request of a cycle is answered. REF and FREE count references, GIVE names the new
owner, and the tag of the command then names the buffer, each for the owner of record alone: others raise BUF_NOT_OWNER, and a FREE
of a free buffer BUF_DOUBLE_FREE; a count at its limit pins the buffer. While the data path is reset they are held. A request whose
tag fails its parity is not acted on, is answered PARITY_POISON, and the command it names ends with INTERNAL_ERROR. A buffer that
becomes available goes to the oldest held request of the highest class; every answer carries the request's tag (R18, R22, R25, R188,
R189, R191-R195, R546). Completes: ALLOC, REF, GIVE, FREE, HELD_REQUEST_GRANT. -/
def Obligations.BuffersAreHandedOut : Prop :=
  (∀ (a : AllocReq) (s : State), tagIntact a.tag a.parity = true →
    ((a.size = 0 ∨ 25165824 < a.size) → ∃ t, exec (.alloc [a]) s = .next t ∧ t.bpm.bufs = s.bpm.bufs ∧
      t.bpm.answers = ⟨a.owner, .poolEmpty, none, a.tag⟩ :: s.bpm.answers) ∧
    (0 < a.size → a.size ≤ 25165824 →
      let cls := classOf a.owner.toNat a.cls
      (∀ p, choosePool s cls a.size = some p → ∃ t id, exec (.alloc [a]) s = .next t ∧
        p * 32768 ≤ id ∧ Tab.get? t.bpm.bufs id = some { owner := a.owner, count := 1 } ∧
        (∀ n, n ≠ id → Tab.get? t.bpm.bufs n = Tab.get? s.bpm.bufs n) ∧
        t.bpm.answers = ⟨a.owner, .done, some id, a.tag⟩ :: s.bpm.answers ∧ t.bpm.held = s.bpm.held ∧
        t.bpm.rr = (a.owner.toNat + 1) % 256 ∧ t.ev = s.ev ∧ t.out = s.out ∧ t.streams = s.streams) ∧
      (choosePool s cls a.size = none → ∃ t, exec (.alloc [a]) s = .next t ∧ t.bpm.bufs = s.bpm.bufs ∧
        (cls = 2 → resetting s 1 = false → t.bpm.answers = ⟨a.owner, .poolEmpty, none, a.tag⟩ :: s.bpm.answers ∧
          t.bpm.held = s.bpm.held) ∧
        (cls ≠ 2 ∨ resetting s 1 = true → t.bpm.answers = ⟨a.owner, .backpressure, none, a.tag⟩ :: s.bpm.answers ∧
          t.bpm.held = s.bpm.held ++ [⟨s.bpm.nextHeld, a.owner, cls, a.size, a.tag⟩])))) ∧
  (∀ (reqs : List AllocReq) (s : State), (∀ a ∈ reqs, tagIntact a.tag a.parity = true) →
    ∃ t, exec (.alloc reqs) s = .next t ∧ ∀ a ∈ reqs, ∃ r i, ⟨a.owner, r, i, a.tag⟩ ∈ t.bpm.answers) ∧
  (∀ (owner new : Byte) (pool : Fin 5) (index : Fin 32768) (tag : BitVec 128) (p : BitVec 4) (s : State),
    let id := pool.val * 32768 + index.val
    let rows := [Instr.ref owner pool index tag p, .give owner pool index new tag p, .free owner pool index tag p]
    (tagIntact tag p = true → resetting s 1 = false →
      (∀ b, Tab.get? s.bpm.bufs id = some b →
        (b.owner = owner →
          (b.count < 255 → ∃ t, exec (.ref owner pool index tag p) s = .next t ∧
            Tab.get? t.bpm.bufs id = some { b with count := b.count + 1 } ∧ t.ev = s.ev ∧
            (∀ n, n ≠ id → Tab.get? t.bpm.bufs n = Tab.get? s.bpm.bufs n) ∧
            t.bpm.answers = ⟨owner, .done, none, tag⟩ :: s.bpm.answers ∧ t.host = s.host) ∧
          (255 ≤ b.count → ∃ t, exec (.ref owner pool index tag p) s = .next t ∧
            Tab.get? t.bpm.bufs id = some { b with pinned := true } ∧
            Tab.getD t.ev.counts 0x502 0 = sat32 (Tab.getD s.ev.counts 0x502 0 + 1)) ∧
          (∃ t, exec (.give owner pool index new tag p) s = .next t ∧ Tab.get? t.bpm.bufs id = some { b with owner := new } ∧
            t.ev = s.ev ∧ (∀ n, n ≠ id → Tab.get? t.bpm.bufs n = Tab.get? s.bpm.bufs n) ∧
            t.bpm.answers = ⟨owner, .done, none, tag⟩ :: s.bpm.answers ∧
            ∀ c, tagClass tag ≠ 3 → getCmd s (tagSlot tag) = some c →
              getCmd t (tagSlot tag) = some { c with tag := tagWithBuf c.tag id }) ∧
          (b.pinned = true → ∃ t, exec (.free owner pool index tag p) s = .next t ∧ t.bpm.bufs = s.bpm.bufs ∧
            t.bpm.answers = ⟨owner, .done, none, tag⟩ :: s.bpm.answers ∧ t.ev = s.ev) ∧
          (b.pinned = false → 1 < b.count → ∃ t, exec (.free owner pool index tag p) s = .next t ∧
            Tab.get? t.bpm.bufs id = some { b with count := b.count - 1 } ∧ t.ev = s.ev ∧
            (∀ n, n ≠ id → Tab.get? t.bpm.bufs n = Tab.get? s.bpm.bufs n) ∧
            t.bpm.answers = ⟨owner, .done, none, tag⟩ :: s.bpm.answers) ∧
          (b.pinned = false → b.count ≤ 1 → ∃ t, exec (.free owner pool index tag p) s = .next t ∧
            Tab.get? t.bpm.bufs id = none ∧ (∀ n, n ≠ id → Tab.get? t.bpm.bufs n = Tab.get? s.bpm.bufs n) ∧
            t.bpm.answers = ⟨owner, .done, none, tag⟩ :: s.bpm.answers)) ∧
        (b.owner ≠ owner → ∀ i ∈ rows, ∃ t, exec i s = .next t ∧ t.bpm.bufs = s.bpm.bufs ∧
          t.bpm.answers = ⟨owner, .bufNotOwner, none, tag⟩ :: s.bpm.answers ∧
          Tab.getD t.ev.counts 0x501 0 = sat32 (Tab.getD s.ev.counts 0x501 0 + 1))) ∧
      (Tab.get? s.bpm.bufs id = none →
        (∃ t, exec (.free owner pool index tag p) s = .next t ∧ t.bpm.bufs = s.bpm.bufs ∧
          t.bpm.answers = ⟨owner, .bufDoubleFree, none, tag⟩ :: s.bpm.answers ∧
          Tab.getD t.ev.counts 0x500 0 = sat32 (Tab.getD s.ev.counts 0x500 0 + 1)) ∧
        ∀ i ∈ [Instr.ref owner pool index tag p, .give owner pool index new tag p], ∃ t, exec i s = .next t ∧
          t.bpm.bufs = s.bpm.bufs ∧ t.bpm.answers = ⟨owner, .bufNotOwner, none, tag⟩ :: s.bpm.answers)) ∧
    (tagIntact tag p = true → resetting s 1 = true → ∀ i ∈ rows, ∃ t, exec i s = .next t ∧ t.bpm.bufs = s.bpm.bufs ∧
      t.bpm.answers = ⟨owner, .backpressure, none, tag⟩ :: s.bpm.answers ∧ t.bpm.later.length = s.bpm.later.length + 1) ∧
    (tagIntact tag p = false → ∀ i ∈ rows,
      (tagClass tag = 3 → ∃ t, exec i s = .next t ∧ t.bpm.bufs = s.bpm.bufs ∧
        t.bpm.answers = ⟨owner, .parityPoison, none, tag⟩ :: s.bpm.answers) ∧
      ∀ c v, tagClass tag ≠ 3 → getCmd s (tagSlot tag) = some c → c.stage = .lists → Takes s c v → ∃ u,
        exec i s = .next (settle u) ∧ Ends s u (tagSlot tag) v (baseCpl c .internalError) ∧ u.bpm.bufs = s.bpm.bufs ∧
        u.bpm.answers = ⟨owner, .parityPoison, none, tag⟩ :: s.bpm.answers)) ∧
  ∀ s : State, (nextHeldReq s = none → exec .heldRequestGrant s = .next s) ∧
    ∀ h p, nextHeldReq s = some (h, p) →
      (s.wr.bufReq ≠ some h.id → (∀ q ∈ s.pack.engines, q.2.bufReq ≠ some h.id) →
        ∃ t id, exec .heldRequestGrant s = .next t ∧
          Tab.get? t.bpm.bufs id = some { owner := h.owner, count := 1 } ∧
          (∀ n, n ≠ id → Tab.get? t.bpm.bufs n = Tab.get? s.bpm.bufs n) ∧
          t.bpm.held = s.bpm.held.filter (fun x => x.id != h.id) ∧
          t.bpm.answers = ⟨h.owner, .done, some id, h.tag⟩ :: s.bpm.answers ∧ (s.wr.ckpt = none → t.wr = s.wr) ∧
          (∀ j, s.wr.ckpt = some j → j.bufReq = some h.id →
            t.wr.ckpt = some { j with buf := some id, bufReq := none, flow := tagWithBuf h.tag id }) ∧
          (∀ d, s.rd.cur = some d → d.bufReq = some h.id →
            t.rd.cur = some { d with buf := some id, bufReq := none, flow := tagWithBuf h.tag id }) ∧
          ∀ n q, Tab.get? s.cip.pairs n = some q → q.bufReq = some h.id →
            Tab.get? t.cip.pairs n = some { q with buf := some id, bufReq := none }) ∧
      (s.wr.bufReq = some h.id → ∃ u d id, exec .heldRequestGrant s = .next (settle u) ∧ u.wr.filling = some d ∧ d.buf = some id ∧
        d.payload = [] ∧ u.wr.bufReq = none ∧ Tab.get? u.bpm.bufs id = some { owner := h.owner, count := 1 } ∧
        u.bpm.held = s.bpm.held.filter (fun x => x.id != h.id)) ∧
      (s.wr.bufReq ≠ some h.id → (∃ q ∈ s.pack.engines, q.2.bufReq = some h.id) →
        ∃ t, exec .heldRequestGrant s = .next t ∧ t.bpm.held = s.bpm.held.filter (fun x => x.id != h.id))

/-- A request held past the stall limit raises event 0x504 and stays held. The patrol scrub, unless it is disabled, counts
corrected and uncorrectable words; an uncorrectable one raises event 0x506 and lists its row, a corrected one lists the row once
its words of this pass reach the limit (R180, R182, R183, R196). Completes: POOL_STALL_LIMIT, PATROL_SCRUB. -/
def Obligations.DramErrorsAreCounted : Prop :=
  (∀ (n : Nat) (s : State),
    ((∃ h ∈ s.bpm.held, h.id = n) → ∃ t, exec (.poolStallLimit n) s = .next t ∧ t.bpm = s.bpm ∧
      Tab.getD t.ev.counts 0x504 0 = sat32 (Tab.getD s.ev.counts 0x504 0 + 1)) ∧
    ((∀ h ∈ s.bpm.held, h.id ≠ n) → exec (.poolStallLimit n) s = .next s)) ∧
  (∀ (a : BitVec 34) (b d : Bool) (s : State), param s 0x2410 2 = 0 → exec (.patrolScrub a b d) s = .next s) ∧
  ∀ (a : BitVec 34) (b : Bool) (s : State), 8 ≤ a.toNat → param s 0x2410 2 ≠ 0 →
    exec (.patrolScrub a false false) s = .next s ∧
    (∃ t, exec (.patrolScrub a b true) s = .next t ∧ t.dram.uncorrectable = s.dram.uncorrectable + 1 ∧
      t.dram.corrected = s.dram.corrected ∧ rowOf a.toNat ∈ t.dram.listed ∧
      Tab.getD t.ev.counts 0x506 0 = sat32 (Tab.getD s.ev.counts 0x506 0 + 1)) ∧
    ∃ t, exec (.patrolScrub a true false) s = .next t ∧ t.dram.corrected = s.dram.corrected + 1 ∧
      t.dram.uncorrectable = s.dram.uncorrectable ∧
      Tab.getD t.dram.rowCe (rowOf a.toNat) 0 = Tab.getD s.dram.rowCe (rowOf a.toNat) 0 + 1 ∧
      (param s 0x2410 3 ≤ Tab.getD s.dram.rowCe (rowOf a.toNat) 0 + 1 → rowOf a.toNat ∈ t.dram.listed) ∧
      (Tab.getD s.dram.rowCe (rowOf a.toNat) 0 + 1 < param s 0x2410 3 → t.dram.listed = s.dram.listed ∧ t.bpm = s.bpm)

/-! ## The cartridge -/

/-- A load threads the tape, reads the index region once the servo words have brought the manufacture data, scans the datasets after
the checkpoint, and judges the tail's journal: refused manufacture data unthread the tape; positions 0 without a sector of an index
region leave the cartridge UNFORMATTED; the newest checkpoint of the cartridge's FormatId gives the label, the format, the sequence
and the next number, and without one the load is refused; each dataset found is the next number, a damaged one
that recovery does not give is index-lost; with nothing to add the load completes READY or READ_ONLY (R99, R116, R173, R174,
R280, R304, R305, R309, R414, R433, R437). Completes: CARTRIDGE_LOAD, LOAD_INDEX_READ,
LOAD_SCAN, JOURNAL_CHECK. -/
def Obligations.LoadsReadTheCartridge : Prop :=
  (∀ (slot : SlotId) (c : Cmd) (s : State), Started s slot.val opCartLoad c → s.cart.state = .loading →
    ∃ t j, exec (.cartridgeLoad slot) s = .next t ∧ getCmd t slot.val = some { c with stage := .waiting } ∧ t.cart.load = some j ∧
      j.slot = some slot.val ∧ j.step = 0 ∧ j.fail = none ∧ t.cart.forceRo = eForceRo c.entry ∧ t.cart.state = .loading ∧
      t.out = s.out) ∧
  (∀ (region : List HeaderRead) (h0 h1 : Option (List Byte)) (copies : List Checkpoint) (man : Manufacture) (j : LoadJob) (s : State),
    s.cart.load = some j → s.cart.state = .loading → j.step = 0 → j.fail = none → manufacture s = some man →
    let mine := copies.filter fun c => c.formatId == formatOf h0 h1 copies
    (manufactureRefused man = true → ∃ t k, exec (.loadIndexRead region h0 h1 copies) s = .next t ∧ t.cart.unthreading = true ∧
      t.cart.load = some k ∧ k.fail = some .mediumError ∧ t.cart.state = .loading) ∧
    (∀ slot c v, manufactureRefused man = false → regionFound region = false → j.slot = some slot → getCmd s slot = some c →
      c.stage = .waiting → Takes s c v → ∃ t, exec (.loadIndexRead region h0 h1 copies) s = .next t ∧
        t.cart.state = .unformatted ∧ t.cart.load = none ∧ t.cart.wraps = man.wraps ∧
        Ends s t slot v { baseCpl c .success with
          specific := BitVec.ofNat 96 (packLsb [(1, 0), (1, (!s.tce.wprotHigh).toNat), (30, 0), (32, 0)]) }) ∧
    (manufactureRefused man = false → regionFound region = true → newestCopy mine = none → ∃ t k,
      exec (.loadIndexRead region h0 h1 copies) s = .next t ∧ t.cart.unthreading = true ∧ t.cart.load = some k ∧
      k.fail = some .mediumError) ∧
    (∀ c, manufactureRefused man = false → regionFound region = true → newestCopy mine = some c →
      64 * c.entries.length ≤ param s 0x3010 8 * 2 ^ 20 → ∃ t k, exec (.loadIndexRead region h0 h1 copies) s = .next t ∧
        t.cart.formatId = c.formatId ∧ t.cart.label = BitVec.ofNat 64 c.label ∧ t.cart.ckptSeq = c.seq ∧
        t.cart.ckptEnd = c.endDataset ∧ t.cart.next = (match c.endDataset with | some n => n + 1 | none => 0) ∧
        t.cart.wraps = man.wraps ∧ t.cart.load = some k ∧ k.step = 1 ∧ k.next = t.cart.next ∧ k.found = 0 ∧ k.fail = none ∧
        t.index.extents = c.entries.filterMap (fun e => match e with | .extent x => some x | _ => none) ∧ t.out = s.out)) ∧
  (∀ (region : List HeaderRead) (h0 h1 : Option (List Byte)) (copies : List Checkpoint) (s : State), manufacture s = none →
    exec (.loadIndexRead region h0 h1 copies) s = .next s) ∧
  (∀ (find : ScanFind) (j : LoadJob) (s : State), s.cart.load = some j → s.cart.state = .loading → j.step = 1 → j.fail = none →
    fits s.cart.wraps s.cart.grid j.next = true →
    (∀ bytes recovered h, find = .header bytes recovered → readDsHeader bytes = some h → headerPresent h j.next s = true →
      ∃ t k, exec (.loadScan find) s = .next t ∧
      t.cart.load = some k ∧ k.next = j.next + 1 ∧ k.found = j.found + 1 ∧ k.step = 1 ∧
      t.index.extents = s.index.extents ++ h.entries.filterMap (fun e => match e with | .extent x => some x | _ => none) ∧
      t.index.lost = s.index.lost ∧ t.out = s.out) ∧
    (find = .damaged none ∨ (∃ bytes, find = .header bytes none ∧ readDsHeader bytes = none) →
      ∃ t k, exec (.loadScan find) s = .next t ∧ t.cart.load = some k ∧ k.next = j.next + 1 ∧
      t.index.lost = s.index.lost ++ [j.next] ∧
      Tab.getD t.ev.counts 0x566 0 = sat32 (Tab.getD s.ev.counts 0x566 0 + 1)) ∧
    (find = .blank → loadFits j s = true → tailFirst j < j.next → ∃ t k, exec (.loadScan find) s = .next t ∧
      t.cart.next = j.next ∧ t.cart.load = some k ∧ k.step = 2 ∧ k.next = j.next)) ∧
  ∀ (i : Instr) (j : LoadJob) (slot : Nat) (c : Cmd) (v : Qp) (s : State), s.cart.load = some j → s.cart.state = .loading →
    j.fail = none → j.slot = some slot → getCmd s slot = some c → c.stage = .waiting → Takes s c v → j.found = 0 →
    (i = .loadScan (.eod j.next) ∧ j.step = 1 ∧ loadFits j s = true ∧ fits s.cart.wraps s.cart.grid j.next = true ∨
      ∃ tail, i = .journalCheck tail ∧ j.step = 2 ∧ s.cart.next = j.next) →
    let ready := !j.wprot && !s.cart.forceRo && fits s.cart.wraps s.cart.grid j.next && writeAllowed s
    ∃ t, exec i s = .next t ∧ t.cart.load = none ∧ t.cart.state = (if ready then .ready else .readOnly) ∧ t.cart.next = j.next ∧
      Ends s t slot v { baseCpl c .success with specific := BitVec.ofNat 96 (packLsb [(1, 1), (1, j.wprot.toNat),
        (1, (!ready).toNat), (29, 0), (15, j.streams.length), (17, 0)]) }

/-- CARTRIDGE_UNLOAD starts a drain of everything; when the tape is off the reels the cartridge is PRESENT, its streams and its
index are gone and the command completes; a rewind that fails leaves it FAULTED with TRANSPORT_FAULT. CARTRIDGE_FORMAT forgets
the old recording and begins copy A of the first checkpoint, at grid position 0 (R99, R117, R141, R170, R304, R305, R469). Completes:
CARTRIDGE_UNLOAD, UNTHREAD_DONE, CARTRIDGE_FORMAT. -/
def Obligations.UnloadAndFormatEndRecordings : Prop :=
  (∀ (slot : SlotId) (c : Cmd) (s : State), Started s slot.val opCartUnload c → s.cart.state = .unloading →
    s.cart.unloadFaulted = false →
    ∃ u, exec (.cartridgeUnload slot) s = .next (failIfStopped { scope := 2, fn := c.fn, seq := c.seq, slot := some slot.val }
        (settle u)) ∧ getCmd u slot.val = some { c with stage := .draining { scope := 2 } } ∧
      u.cart = { s.cart with unload := some slot.val } ∧ u.out = s.out) ∧
  (∀ (slot : Nat) (c : Cmd) (v : Qp) (s : State), s.cart.unthreading = true → s.cart.unload = some slot → s.cart.load = none →
    s.cart.unloadFaulted = false → getCmd s slot = some c → c.stage = .waiting → Takes s c v →
    (∃ t, exec (.unthreadDone true) s = .next t ∧ t.cart = { state := .present } ∧ t.streams = [] ∧ t.index.extents = [] ∧
      t.index.moths = [] ∧ t.rd.blks = [] ∧ Ends s t slot v (baseCpl c .success)) ∧
    ∃ t, exec (.unthreadDone false) s = .next t ∧ t.cart.state = .faulted ∧ t.cart.unload = none ∧ t.streams = s.streams ∧
      Ends s t slot v (baseCpl c .transportFault)) ∧
  ∀ (slot : SlotId) (c : Cmd) (s : State), Started s slot.val opCartFormat c → s.cart.state ≠ .faulted → s.wr.pass = false → s.wr.ckpt = none → s.wr.filling = none →
    s.wr.closedQ = [] → createWaits s = false → writeAllowed s = true → 2 ≤ s.cart.grid →
    ∃ t j, exec (.cartridgeFormat slot) s = .next t ∧ t.streams = [] ∧ t.index.extents = [] ∧ t.cart.next = 0 ∧
      t.cart.label = eLabel c.entry ∧ t.cart.format = some slot.val ∧ t.wr.ckpt = some j ∧ j.seq = 1 ∧ j.endDataset = none ∧
      j.copyB = false ∧ j.pos = 0 ∧ j.parts = 1 ∧ j.made = 0 ∧ (j.buf.isSome = true ∨ j.bufReq.isSome = true) ∧
      getCmd t slot.val = some { c with stage := .waiting }

/-- A checkpoint that is due by its timer begins between passes, with the next sequence, covering every dataset that has left
the Cocoon; it asks for a buffer and waits for its copy to be written in a pass of its own, in which each of its datasets bears its
grid position on wrap 0 or 1 and is encoded like any other; copy A verified makes it the newest checkpoint and its leases durable, and
copy B follows; copy B verified ends it; a copy of which a dataset failed raises event 0x542 (R157, R168-R172, R303, R304, R333, R358).
Completes: CHECKPOINT_TIMER, CHECKPOINT_COPY_VERIFIED, WRITE_PASS_START. -/
def Obligations.CheckpointsAreWrittenTwice : Prop :=
  (∀ s : State, param s 0x3010 7 ≠ 0 → s.wr.sinceCkpt ≠ 0 → s.cart.state = .ready → s.wr.ckpt = none → s.wr.pass = false →
    s.rd.cur = none → writeAllowed s = true →
    let parts := ckptParts (ckptEntries false s).length
    parts + 1 ≤ s.cart.grid →
    ∃ t j, exec .checkpointTimer s = .next t ∧ t.wr.ckpt = some j ∧ j.seq = s.cart.ckptSeq + 1 ∧
      j.endDataset = coveredEnd s ∧ j.copyB = false ∧ j.parts = parts ∧ j.count = s.wr.sinceCkpt ∧
      j.pos = ckptPos s s.cart.posA parts ∧ j.made = 0 ∧ j.written = false ∧ j.bytes = ckptBytes j.seq j.endDataset false s ∧
      ((choosePool s 1 25165824).isSome = true → j.buf.isSome = true) ∧
      (choosePool s 1 25165824 = none → j.buf = none ∧ j.bufReq = some s.bpm.nextHeld) ∧
      t.out = s.out ∧ t.wr.sinceCkpt = s.wr.sinceCkpt ∧ t.cart = s.cart ∧ t.streams = s.streams) ∧
  (∀ (j : CkptJob) (s : State), s.wr.ckpt = some j → j.written = false → j.failed = false → j.buf.isSome = true → j.made < j.parts →
    s.wr.pass = false → s.rd.cur = none → tapeGone s = false → s.tce.hcfWrites = [] → s.wr.stopped = false → writeAllowed s = true →
    ∃ t e k, exec .writePassStart s = .next t ∧ t.wr.pass = true ∧ t.wr.passIndex = true ∧ e ∈ t.wr.cocoon ∧
      e.number = some (j.pos + j.made) ∧ e.kind = 2 ∧ e.index = some (if j.copyB then 1 else 0) ∧ e.state = .encoding ∧
      e.sample = failedMembers s ∧ t.wr.ckpt = some k ∧ k.made = j.made + 1 ∧ k.pos = j.pos ∧ k.parts = j.parts ∧
      t.cart = s.cart ∧ t.wr.closedQ = s.wr.closedQ ∧ t.streams = s.streams) ∧
  (∀ (j : CkptJob) (s : State), s.wr.ckpt = some j → j.written = false → exec .checkpointCopyVerified s = .next s) ∧
  (∀ (j : CkptJob) (s : State), s.wr.ckpt = some j → j.written = true → j.failed = false → j.copyB = false → j.waits = [] →
    s.cart.format = none → s.cart.load = none →
    ∃ t k, exec .checkpointCopyVerified s = .next t ∧ t.cart.ckptSeq = j.seq ∧ t.cart.ckptEnd = j.endDataset ∧
      t.cart.posA = j.pos + j.parts ∧ t.cart.posB = s.cart.posB ∧
      t.wr.ckpt = some k ∧ k.copyB = true ∧ k.seq = j.seq ∧ k.parts = j.parts ∧ k.bytes = j.bytes ∧
      k.pos = ckptPos s s.cart.posB j.parts ∧ k.made = 0 ∧ k.written = false ∧
      t.wr.sinceCkpt = s.wr.sinceCkpt - j.count ∧ t.out = s.out ∧
      (∀ n x, getStream s n = some x → ∃ y, getStream t n = some y ∧ y.durable = max x.durable (Tab.getD j.leases n 0) ∧
        y.next = x.next)) ∧
  ∀ (j : CkptJob) (s : State), s.wr.ckpt = some j → j.written = true → j.buf = none → j.copyB = true → s.wr.ckptDue = false →
    ∃ t, exec .checkpointCopyVerified s = .next t ∧ t.wr.ckpt = none ∧ t.cart.posA = s.cart.posA ∧
      (j.failed = false → t.cart.posB = j.pos + j.parts ∧ t.out = s.out) ∧
      (j.failed = true → t.cart.posB = s.cart.posB ∧
        Tab.getD t.ev.counts 0x542 0 = sat32 (Tab.getD s.ev.counts 0x542 0 + 1)) ∧
      (s.cart.state = .unloading → s.cart.unloadClean = true → t.cart.unthreading = true)

/-! ## The write path -/

/-- The next closed dataset takes the next number and is encoded, at the start of a pass, at slot 48 of the dataset under the
head, or as a tail dataset at the end of the pass; a pass with nothing left to write is ending. An encoding that its check
passes is ready; one that fails twice fails the dataset with event 0x530 (R321, R324, R333, R334, R352, R356, R357). Completes:
WRITE_PASS_START, DATASET_ENCODE_START, DATASET_ENCODE_COMPLETE, WRITE_TAIL_DATASET. -/
def Obligations.DatasetsAreNumberedAndEncoded : Prop :=
  (∀ (i : Instr) (d : Dataset) (rest : List Dataset) (s : State), s.wr.closedQ = d :: rest → s.wr.stopped = false →
    writeAllowed s = true → fits s.cart.wraps s.cart.grid s.cart.next = true →
    (i = .writePassStart ∧ s.wr.pass = false ∧ s.wr.ckpt = none ∧ s.rd.cur = none ∧ s.cart.state = .ready ∧
        s.tce.hcfWrites = [] ∧ passWanted s = true ∨
      i = .datasetEncodeStart true ∧ s.wr.pass = true ∧ s.wr.passIndex = false ∧ s.wr.passEnding = false ∧
        (∀ h, headDs s = some h → 48 < h.slot) ∧ encodedWaits s = false ∧ tapeWanted s = false ∨
      i = .writeTailDataset ∧ s.wr.pass = true ∧ s.wr.passEnding = true ∧ passQuiet s = true ∧ copyWanted s = true ∧
        tailMay s = true) →
    ∃ t e, exec i s = .next t ∧ t.cart.next = s.cart.next + 1 ∧ t.wr.closedQ.length = rest.length ∧ e ∈ t.wr.cocoon ∧
      e.id = d.id ∧ e.number = some s.cart.next ∧ e.state = .encoding ∧ e.payload = d.payload ∧ e.kind = d.kind ∧
      e.sample = failedMembers s ∧ t.wr.pass = true ∧ t.streams = s.streams ∧ t.host.fns = s.host.fns ∧
      ∀ n c, getCmd s n = some c → ∃ tag, getCmd t n = some { c with tag := tag }) ∧
  (∀ (tagOk : Bool) (s : State), s.wr.closedQ = [] → s.wr.pass = true → s.wr.passIndex = false → s.wr.passEnding = false →
    (∀ h, headDs s = some h → 48 < h.slot) →
    encodedWaits s = false → ∃ t, exec (.datasetEncodeStart tagOk) s = .next t ∧ t.wr = { s.wr with passEnding := true } ∧
      (intakeHeld s = true → Tab.getD t.ev.counts 0x553 0 = sat32 (Tab.getD s.ev.counts 0x553 0 + 1)) ∧
      (intakeHeld s = false → t.ev = s.ev)) ∧
  ∀ (n : Nat) (d : Dataset) (s : State), s.wr.cocoon.find? (fun d => d.state == .encoding) = some d →
    (∃ t, exec (.datasetEncodeComplete n none []) s = .next t ∧
      t.wr.encodeCheckFailures = sat32 (s.wr.encodeCheckFailures + n) ∧
      t.wr.cocoon = s.wr.cocoon.map (fun e => if e.id = d.id then { e with state := .ready } else e) ∧ t.out = s.out) ∧
    ∀ p, ∃ u, exec (.datasetEncodeComplete n (some p) []) s = .next (failDs d .writeFault u) ∧
      u.wr.encodeCheckFailures = sat32 (s.wr.encodeCheckFailures + (n + 2)) ∧ u.wr.cocoon = s.wr.cocoon ∧
      Tab.getD u.ev.counts 0x530 0 = sat32 (Tab.getD s.ev.counts 0x530 0 + 1)

/-- With the tape in motion, the gates allowed open and no verify FIFO full, every channel of the dataset under the head that is not a
failed member writes its home sector as its slot begins, out of its bank where that holds it already, and the image waits for its
verdict; while writing is inhibited nothing is written and the home sectors need copies; with a verify FIFO full, or the tape at rest,
no slot begins. The first slot of a ready dataset puts it under the head. A home sector that passes the checks is PASSED, one that fails
or whose verdict is late needs a copy; the commit after slot 94 places the copies; a dataset with every required sector PASSED is
released, and its entries are the index's (R29, R31, R335-R337, R341, R342, R345-R348, R352, R353, R361). Completes: SLOT_START,
SECTOR_VERDICT, VERIFY_LATE, DATASET_COMMIT, DATASET_RELEASE. -/
def Obligations.SlotsAreWrittenAndVerified : Prop :=
  (∀ (d : Dataset) (s : State), s.wr.pass = true → headDs s = some d → d.state = .writing → d.slot < 96 →
    (d.slot = 95 → d.committed = true) →
    let held := fun (p : Nat) => bankHolds (getChan s p) (d.number.getD 0) d.slot
    (verifyFull s = true ∨ tapeRuns s = false → exec (.slotStart [] []) s = .next s) ∧
    (verifyFull s = false → tapeRuns s = true → s.tce.hcfWrites = [] → inhibited s = false →
      ∃ t, exec (.slotStart [] []) s = .next t ∧ t.wr.gates = true ∧
      (∀ p, p < 128 → p ∉ d.sample → ∃ i, (held p = true → (getChan s p).filling = some i) ∧
        (held p = false → i = homeImage s d d.slot p) ∧ .slotImage p i.slot i.header i.codeword i.flow ∈ t.out ∧
        (getChan t p).fifo = (getChan s p).fifo ++ [{ i with cut := false, marked := true }]) ∧
      ∀ e ∈ t.wr.cocoon, e.id = d.id → e.slot = d.slot + 1) ∧
    (verifyFull s = false → tapeRuns s = true → inhibited s = true →
      (∀ p i, held p = true → (getChan s p).filling = some i → i.kind = 0 ∧ i.home = p ∧ i.row = d.slot) →
      ∃ t, exec (.slotStart [] []) s = .next t ∧ t.out = s.out ∧ t.wr.gates = s.wr.gates ∧
      (∀ p, (getChan t p).fifo = (getChan s p).fifo) ∧
      ∀ e ∈ t.wr.cocoon, e.id = d.id → e.slot = d.slot + 1 ∧
        ∀ p, p < 128 → p ∉ d.sample → (Tab.get? e.sectors (p * 96 + d.slot)).map (·.st) = some .needsCopy)) ∧
  (∀ (d : Dataset) (s : State), s.wr.pass = true → s.wr.head = none → verifyFull s = false → tapeRuns s = true →
    s.tce.hcfWrites = [] → inhibited s = false → nextReady s = some d →
    ∃ t e, exec (.slotStart [] []) s = .next t ∧ t.wr.head = some d.id ∧ e ∈ t.wr.cocoon ∧ e.id = d.id ∧ e.state = .writing ∧
      e.slot = 1) ∧
  (∀ (n : Nat) (p : Chan) (r : Fin 99) (rd : SectorRead) (im : Image) (d : Dataset) (s : State) (i : Instr) (pass : Bool),
    findImage s p.val n r.val = some im → im.kind = 0 → im.cut = false → dsByNumber s n = some d → d.state ≠ .failed →
    d.sectorSt im.home im.row = some .await →
    (im.row = 95 → Tab.getD (getChan s p.val).judgedIn n 0 + 1 < param s (0x4000 + p.val) 4) →
    (i = .sectorVerdict n p r rd ∧ pass = verdictPass s (verifyOf s p.val im rd) ∨ i = .verifyLate n p r ∧ pass = false) →
    ∃ t e, exec i s = .next t ∧ dsByNumber t n = some e ∧
      e.sectorSt im.home im.row = some (if pass then .passed else .needsCopy) ∧
      t.wr.sectorsVerified = s.wr.sectorsVerified + 1 ∧ 
      (getChan t p.val).fifo = (getChan s p.val).fifo.drop ((getChan s p.val).fifo.idxOf im + 1) ∧
      (getChan t p.val).verifyFailures = (getChan s p.val).verifyFailures + (if pass then 0 else 1)) ∧
  (∀ (d : Dataset) (s : State), headDs s = some d → 94 < d.slot → d.committed = false → d.number.getD 0 < 4 →
    ∃ t, exec .datasetCommit s = .next t ∧ t.wr.lastCommit = d.number.getD 0 + 1 ∧
      (∃ e ∈ t.wr.cocoon, e.id = d.id ∧ e.committed = true) ∧ t.out = s.out ∧ t.chans = s.chans) ∧
  ∀ (d : Dataset) (s : State), s.wr.cocoon.find? (fun d => d.state != .failed) = some d →
    (d.verified = true → ∃ u, exec .datasetRelease s = .next (settle (freeOpt d.buf d.flow (flushesDone u))) ∧
      (∀ e ∈ u.wr.cocoon, e.id ≠ d.id) ∧
      (d.kind ≠ 2 → u.wr.sinceCkpt = s.wr.sinceCkpt + 1 ∧
        u.index.extents = s.index.extents ++ d.entries.filterMap (fun e => match e with | .extent x => some x | _ => none)) ∧
      (d.kind = 2 → u.wr.sinceCkpt = s.wr.sinceCkpt ∧ u.index = s.index)) ∧
    (d.verified = false → exec .datasetRelease s = .next s)

/-- The pass ends with the gates closed; where no tail dataset may follow, its windows close; a burst of three slots on all channels
marks the end of the data where a number still fits, or follows the last dataset of a checkpoint copy, which then waits for its result;
then the pass is over (R304, R306, R307, R346, R356). Completes: WRITE_PASS_END, EOD_BURST_WRITE. -/
def Obligations.PassesEndWithABurst : Prop :=
  (∀ (b : Bool) (s : State), s.wr.pass = true → (s.wr.passEnding = true ∨ b = true) → passQuiet s = true →
    (∀ d ∈ s.wr.cocoon, d.state ≠ .failed) →
    ∃ t, exec (.writePassEnd b) s = .next (if tailMay s then t else closeWindows t) ∧ t.wr.gates = false ∧
      t.wr.passEnding = true ∧ t.wr.head = none ∧
      (s.wr.gates = true → t.out = .gates false :: s.out) ∧ (s.wr.gates = false → t.out = s.out) ∧ t.cart = s.cart) ∧
  ∀ s : State, s.wr.pass = true → s.wr.passEnding = true → passQuiet s = true → inhibited s = false → s.wr.cocoon = [] →
    s.wr.ckptDue = false → ∃ t, exec .eodBurstWrite s = .next t ∧ t.wr.pass = false ∧ t.wr.passEnding = false ∧
      t.wr.gates = false ∧ t.cart = s.cart ∧
      (s.wr.passIndex = false → fits s.cart.wraps s.cart.grid s.cart.next = true → ∀ p j, p < 128 → j < 3 → ∃ f,
        .slotImage p j (fillHeader s s.cart.next p j (placeOf s.cart.wraps s.cart.grid s.cart.next) false true false) fillCodeword f ∈
          t.out) ∧
      (s.wr.passIndex = false → fits s.cart.wraps s.cart.grid s.cart.next = false → s.wr.gates = false → t.out = s.out) ∧
      (s.wr.passIndex = true → ∀ c, s.wr.ckpt = some c →
        t.wr.ckpt = some { c with written := true, failed := c.failed || decide (c.made < c.parts) } ∧
        ∀ p j, p < 128 → j < 3 → ∃ f, .slotImage p j (fillHeader s (c.pos + c.made) p j (if c.copyB then 1 else 0, c.pos + c.made)
          true true false) fillCodeword f ∈ t.out)

/-- A low of SHOCK# of 12 ns or more is a shock, one shorter than 4 ns is none; the onset of a write guard condition counts one
inhibit and raises event 0x620, and a condition that comes while another holds raises none; conditions clear after their
hold-off (R359, R362, R466). TFAULT# low latches transport fault 7; the other pins raise their events, and a cartridge put in
is PRESENT (R99, R466, R468). Completes: SHOCK_FALL, WRITE_GUARD_CLEAR, TFAULT_LOW, CART_PRESENT_STABLE,
WPROT_STABLE. -/
def Obligations.PinsActOnTheirLevels : Prop :=
  (∀ (n : Nat) (s : State),
    (n < 4 → exec (.shockFall n) s = .next s) ∧
    (12 ≤ n → s.wr.head = none → ∃ t, exec (.shockFall n) s = .next t ∧ t.wr.guardShock = true ∧ t.wr.guardQuiet = 0 ∧
      t.tce.shockCount = s.tce.shockCount + 1 ∧
      (guardSet s = false → t.wr.inhibitCount = s.wr.inhibitCount + 1 ∧
        Tab.getD t.ev.counts 0x620 0 = sat32 (Tab.getD s.ev.counts 0x620 0 + 1)) ∧
      (guardSet s = true → t.wr.inhibitCount = s.wr.inhibitCount ∧ t.ev = s.ev))) ∧
  (∀ s : State, ∃ t, exec .writeGuardClear s = .next t ∧
    (param s 0x4830 2 ≤ s.wr.guardGood → t.wr.guardPos = false) ∧ (s.wr.guardGood < param s 0x4830 2 → t.wr.guardPos = s.wr.guardPos) ∧
    (param s 0x4830 2 ≤ s.wr.guardQuiet → t.wr.guardShock = false) ∧
    (s.wr.guardQuiet < param s 0x4830 2 → t.wr.guardShock = s.wr.guardShock) ∧
    (param s 0x4830 2 ≤ s.wr.guardLocked → inLock s = true → t.wr.guardClock = false) ∧
    ((s.wr.guardLocked < param s 0x4830 2 ∨ inLock s = false) → t.wr.guardClock = s.wr.guardClock) ∧ t.ev = s.ev ∧ t.out = s.out) ∧
  (∀ s : State, tceUnpowered s = false → s.tce.faults.getLsbD 7 = false → s.tce.state ≠ .off →
    ∃ t, exec (.tfaultLow true) s = .next t ∧ t.tce.faults.getLsbD 7 = true ∧ t.tce.state = .fault ∧ t.tce.stopFrames = 2 ∧
      t.tce.tfaultHigh = false ∧ (s.cart.state = .ready → t.cart.state = .faulted) ∧
      (s.cart.state = .empty → Tab.getD t.ev.counts 0x607 0 = sat32 (Tab.getD s.ev.counts 0x607 0 + 1))) ∧
  (∀ s : State, ∃ t, exec (.tfaultLow false) s = .next t ∧ t.tce = { s.tce with tfaultHigh := true } ∧ t.ev = s.ev) ∧
  (∀ (b : Bool) (s : State),
    (b = s.tce.cartHigh → exec (.cartPresentStable b) s = .next s) ∧
    (b = false → s.tce.cartHigh = true → ∃ t, exec (.cartPresentStable b) s = .next t ∧ t.tce.cartHigh = false ∧
      Tab.getD t.ev.counts 0x612 0 = sat32 (Tab.getD s.ev.counts 0x612 0 + 1) ∧
      (s.cart.state = .empty → t.cart.state = .present) ∧ (s.cart.state ≠ .empty → t.cart = s.cart)) ∧
    (b = true → s.tce.cartHigh = false → s.tce.state = .off → ∃ t, exec (.cartPresentStable b) s = .next t ∧
      t.tce.cartHigh = true ∧ (s.cart.state = .present → t.cart = { state := .empty }) ∧
      (s.cart.state ≠ .present → t.cart = s.cart) ∧
      Tab.getD t.ev.counts 0x613 0 = sat32 (Tab.getD s.ev.counts 0x613 0 + 1))) ∧
  ∀ (b : Bool) (s : State),
    (b = s.tce.wprotHigh → exec (.wprotStable b) s = .next s) ∧
    (b ≠ s.tce.wprotHigh → ∃ t, exec (.wprotStable b) s = .next t ∧ t.tce = { s.tce with wprotHigh := b } ∧
      (threaded s = true → Tab.getD t.ev.counts 0x614 0 = sat32 (Tab.getD s.ev.counts 0x614 0 + 1)) ∧
      (threaded s = false → t.ev = s.ev))

/-! ## Clock, channels, transport, links -/

/-- The clock synthesiser: a reader that fails a test of its signal is lost and reported, and without any the synthesiser goes from
LOCKED to FLYWHEEL; a reader that passes them all becomes valid and in phase brings LOCKED back, one out of phase, or the flywheel's
limit, means UNLOCK; lock needs a valid reader, the position and 256 steady periods; a boundary or a servo word that disagrees with
the count is a slip, and a word with a wrong sync or CRC is ignored; the position comes from a servo word, or after an unlock from a
boundary near enough, and counts on with the DCO; a hold of the tilt ends when both bands have passed one boundary in lock; the
unwrapped phase difference of the bands gives the tilt and the width (R369, R370, R372-R378). Completes: CLOCK_READER_LOSS,
CLOCK_READER_VALID, TLCS_LOCK_ACQUIRED, FLYWHEEL_LIMIT, SERVO_FRAME_BOUNDARY, SERVO_WORD, TILT_UPDATE. -/
def Obligations.ClockFollowsTheServo : Prop :=
  (∀ (r : Fin 4) (loss : ReaderLoss) (s : State),
    ((r.val ∉ s.tlcs.valid ∨ readerFails r.val loss s = false) → exec (.clockReaderLoss r loss) s = .next s) ∧
    (r.val ∈ s.tlcs.valid → readerFails r.val loss s = true → ∃ t, exec (.clockReaderLoss r loss) s = .next t ∧ t.tlcs.valid = s.tlcs.valid.erase r.val ∧
      Tab.getD t.ev.counts 0x643 0 = sat32 (Tab.getD s.ev.counts 0x643 0 + 1) ∧
      (s.tlcs.state = .locked → s.tlcs.valid = [r.val] → t.tlcs.state = .flywheel ∧ t.tlcs.hold = true ∧ t.tlcs.distance = 0 ∧
        t.tlcs.flyEntries = sat32 (s.tlcs.flyEntries + 1) ∧
        Tab.getD t.ev.counts 0x640 0 = sat32 (Tab.getD s.ev.counts 0x640 0 + 1)) ∧
      (s.tlcs.state ≠ .locked → t.tlcs.state = s.tlcs.state) ∧ t.wr = s.wr)) ∧
  (∀ (r : Fin 4) (x : ReaderSign) (s : State),
    ((r.val ∈ s.tlcs.valid ∨ readerPasses r.val x s = false) → exec (.clockReaderValid r x) s = .next s) ∧
    (r.val ∉ s.tlcs.valid → readerPasses r.val x s = true → ∃ t, exec (.clockReaderValid r x) s = .next t ∧
      t.tlcs.valid = insertUp r.val s.tlcs.valid ∧
      (s.tlcs.state ≠ .flywheel → t.tlcs.state = s.tlcs.state ∧ t.wr = s.wr) ∧
      (s.tlcs.state = .flywheel → (phaseOf x.crossing).natAbs ≤ 384 → pastLimit s = false →
        t.tlcs.state = .locked ∧ t.wr = s.wr) ∧
      (s.tlcs.state = .flywheel → (384 < (phaseOf x.crossing).natAbs ∨ pastLimit s = true) → t.tlcs.state = .acquire ∧
        t.tlcs.lpos = false ∧ t.tlcs.fromFly = true ∧ t.tlcs.unlocks = sat32 (s.tlcs.unlocks + 1) ∧ t.wr.guardLocked = 0))) ∧
  (∀ s : State,
    (s.tlcs.state = .acquire → s.tlcs.valid ≠ [] → s.tlcs.lpos = true → 256 ≤ s.tlcs.steady →
      ∃ t, exec .tlcsLockAcquired s = .next t ∧ t.tlcs.state = .locked ∧ t.tlcs.fromFly = false ∧
        t.tlcs.position = s.tlcs.position ∧ t.tlcs.valid = s.tlcs.valid ∧ t.wr = s.wr ∧ t.out = s.out) ∧
    ((s.tlcs.state ≠ .acquire ∨ s.tlcs.valid = [] ∨ s.tlcs.lpos = false ∨ s.tlcs.steady < 256) →
      exec .tlcsLockAcquired s = .next s) ∧
    ∀ since, let run := s.tlcs.distance + (since - s.tlcs.counted)
    let far := 64 * 44882 * param s 0x4860 1 ≤ 1000 * run
    (s.tlcs.state = .flywheel → far → ∃ t, exec (.flywheelLimit since) s = .next t ∧ t.tlcs.state = .acquire ∧ t.tlcs.lpos = false ∧
      t.tlcs.fromFly = true ∧ t.tlcs.unlocks = sat32 (s.tlcs.unlocks + 1) ∧ t.wr.guardLocked = 0) ∧
    (s.tlcs.state = .flywheel → ¬far → ∃ t, exec (.flywheelLimit since) s = .next t ∧ t.tlcs.state = .flywheel ∧
      t.tlcs.distance = run ∧ t.wr = s.wr ∧ t.out = s.out) ∧
    (s.tlcs.state ≠ .flywheel → exec (.flywheelLimit since) s = .next s)) ∧
  (∀ (upper : Bool) (f n : Nat) (x : Option (Nat × Nat)) (s : State),
    (s.tlcs.hold = false → s.tlcs.fixWhole = false →
      let k : Nat := n - s.tlcs.counted
      let p := if 0 ≤ s.tce.speed then s.tlcs.position + k else s.tlcs.position - k
      let err := ((if upper then p + s.tlcs.deltaL else p) - 64 * (9216 * f : Nat)).natAbs
      (s.tlcs.state = .locked → err ≤ 768 → ∃ t, exec (.servoFrameBoundary upper f n x) s = .next t ∧
        t.tlcs.state = .locked ∧ t.tlcs.position = p ∧ t.wr = s.wr ∧ t.out = s.out) ∧
      (s.tlcs.state = .locked → 768 < err → ∃ t, exec (.servoFrameBoundary upper f n x) s = .next t ∧ t.tlcs.state = .acquire ∧
        t.tlcs.lpos = false ∧ t.tlcs.fromFly = false ∧ t.tlcs.unlocks = sat32 (s.tlcs.unlocks + 1) ∧ t.wr.guardLocked = 0) ∧
      (s.tlcs.state = .acquire → s.tlcs.lpos = false → s.tlcs.fromFly = true → err ≤ 147456 → ∃ t,
        exec (.servoFrameBoundary upper f n x) s = .next t ∧ t.tlcs.state = .acquire ∧ t.tlcs.lpos = true ∧
        t.tlcs.position = (if upper then 64 * (9216 * f : Nat) - s.tlcs.deltaL else 64 * (9216 * f : Nat)) ∧ t.wr = s.wr) ∧
      (s.tlcs.state = .acquire → s.tlcs.lpos = false → s.tlcs.fromFly = true → 147456 < err → ∃ t,
        exec (.servoFrameBoundary upper f n x) s = .next t ∧ t.tlcs.state = .acquire ∧ t.tlcs.lpos = false ∧
        t.tlcs.fromFly = false ∧ t.tlcs.position = p ∧ t.wr = s.wr)) ∧
    (∀ p0, s.tlcs.passed = some (!upper, f, p0) → s.tlcs.state = .locked → bothBands s = true →
      ∃ t, exec (.servoFrameBoundary upper f n x) s = .next t ∧ t.tlcs.hold = false ∧ t.tlcs.valid = s.tlcs.valid)) ∧
  (∀ (upper : Bool) (s : State),
    (wordPayload (wordBits s upper) = none → exec (.servoWord upper) s = .next s) ∧
    ∀ v, wordPayload (wordBits s upper) = some v →
      let at' : Int := if 0 ≤ s.tce.speed then ((v % 2 ^ 24 : Nat) : Int) + 48 else ((v % 2 ^ 24 : Nat) : Int)
      let here := roundDiv (bandCount upper s) (64 * 9216)
      (2 ^ 31 ≤ v → ∃ t, exec (.servoWord upper) s = .next t ∧ t.tlcs = s.tlcs ∧ t.wr = s.wr ∧
        Tab.get? t.tce.made (v / 2 ^ 28 % 8) = some (v % 2 ^ 24)) ∧
      (v < 2 ^ 31 →
        (s.tlcs.state = .locked → here = at' → exec (.servoWord upper) s = .next s) ∧
        (s.tlcs.state = .locked → here ≠ at' → ∃ t, exec (.servoWord upper) s = .next t ∧ t.tlcs.state = .acquire ∧
          t.tlcs.lpos = false ∧ t.tlcs.fromFly = false) ∧
        (s.tlcs.state = .acquire → s.tlcs.lpos = false → s.tlcs.fromFly = false → ∃ t, exec (.servoWord upper) s = .next t ∧
          t.tlcs.lpos = true ∧ t.tlcs.state = .acquire ∧ bandCount upper t = 64 * (9216 * at') ∧ t.wr = s.wr))) ∧
  ∀ (l : List (Fin 4 × Int)) (s : State), ∃ t, exec (.tiltUpdate l) s = .next t ∧ t.tlcs.state = s.tlcs.state ∧
    t.tlcs.valid = s.tlcs.valid ∧ t.tlcs.hold = s.tlcs.hold ∧ t.tlcs.counted = 0 ∧
    t.tlcs.tiltCount = s.tlcs.tiltCount + 1 ∧ t.wr = s.wr ∧ t.tce = s.tce ∧ t.out = s.out ∧
    (s.tlcs.hold = true → t.tlcs.deltaL = s.tlcs.deltaL ∧ t.tlcs.tilt = s.tlcs.tilt ∧ t.tlcs.width = s.tlcs.width) ∧
    (s.tlcs.hold = false → s.tlcs.fixWhole = false → inLock s = true → bothBands s = true →
      let phase := bandPhase (l.foldl (fun s x => putPhase x.1.val x.2 s) s)
      let d := phase + wholePeriods (s.tlcs.deltaL - phase)
      t.tlcs.deltaL = d ∧ (d.natAbs * 10 ^ 6 ≤ 64 * 44882 * param s 0x4860 4 →
        t.tlcs.tilt = tiltOf d (param s 0x4860 4) ∧ t.tlcs.width = widthOf d (param s 0x4860 4)))

/-- A channel samples the lock at a sync window, predicts the end of the sync mark, and reports each slot with its outcome, counted as read or erased; out of lock
a slot is NOT_TIMED; a sector is accepted only at a position whose header CRC passes, whose header fits the slot and where C1
converges within its limit, and where the samples hold one position alone, the predicted one, that has these, it is accepted; a
channel reset, or ChCommand 1, makes an ACTIVE channel FAILED with its cause; ChCommand 2 makes it ACTIVE again, at the end of a
reset that runs; a replacement cause is acknowledged only when its condition is over (R373, R390, R392-R394, R398, R400, R402,
R405, R407, R409, R441). Completes: SYNC_WINDOW_OPEN, SECTOR_REPORT, CHANNEL_RESET, CH_COMMAND_FAIL, CH_COMMAND_RESTORE,
REPLACE_ACKNOWLEDGE. -/
def Obligations.ChannelsReportAndFail : Prop :=
  (∀ (p : Chan) (k : Fin 99) (g : Fin 65536) (r : Fin 384) (s : State), ∃ t w, exec (.syncWindowOpen p k g r) s = .next t ∧
    w.slot = k.val ∧ w.wrap = r.val ∧ w.lock = inLock s ∧ w.number = numberAt s.cart.wraps s.cart.grid r.val g.val ∧
    w.lead = leadingEdge s.cart.lposB s.cart.lposE r.val g.val k.val ∧
    (∀ x, tiltTerm (trackOffset p.val r.val) s.tlcs.deltaL (param s 0x4860 4) = some x →
      w.predicted = predictFlat s p.val r.val w.lead - x ∧ w.setting = w.predicted + (getChan s p.val).loops.phase) ∧
    w ∈ (getChan t p.val).windows ∧
    (s.cart.state ≠ .loading → getChan t p.val =
      { getChan s p.val with windows := (getChan s p.val).windows.filter (fun x => x.slot != k.val) ++ [w] }) ∧
    (∀ q, q ≠ p.val → getChan t q = getChan s q) ∧ t.out = s.out ∧ t.rd = s.rd ∧ t.wr = s.wr) ∧
  (∀ (p : Chan) (v : SectorRead) (w : SyncWindow) (s : State),
    (getChan s p.val).windows.find? (fun w => w.slot == v.slot) = some w →
    let f := sectorFound s p.val w v
    let o := f.outcome
    (w.lock = false → o = .notTimed) ∧
    let bits := detected s p.val v.samples
    let tries := triesOf w p.val (readReach (unlearnedOn s p.val w.wrap)) v bits
    (o = .accepted → ∃ y ∈ tries, ∃ b, f.search.accepted = some (y, b) ∧ headerFound w p.val y = true ∧
      c1Converges (param s 0x4850 1) y = true) ∧
    (∀ y, tries = [y] → y.pos = w.center → headerFound w p.val y = true → c1Converges (param s 0x4850 1) y = true →
      attemptCycles (param s 0x4850 1) ≤ 16384 → 0 < param s 0x4850 3 → flaggedAt w v bits y.pos ≤ param s 0x4850 7 →
      w.lock = true → (unlearnedOn s p.val w.wrap = false ∨ (s.cart.state = .loading ∧ w.wrap < 2)) → o = .accepted) ∧
    ∃ t, exec (.sectorReport p v) s = .next t ∧ (getChan t p.val).windows = (getChan s p.val).windows.erase w ∧
      (getChan t p.val).lastReport = reportBits w v f ∧
      (o = .accepted → (getChan t p.val).sectorsRead = (getChan s p.val).sectorsRead + 1 ∧
        (getChan t p.val).sectorsErased = (getChan s p.val).sectorsErased) ∧
      (o ≠ .accepted → (getChan t p.val).sectorsErased = (getChan s p.val).sectorsErased + 1 ∧
        (getChan t p.val).sectorsRead = (getChan s p.val).sectorsRead ∧ t.rd = s.rd) ∧
      (getChan t p.val).failed = (getChan s p.val).failed ∧ t.wr = s.wr) ∧
  (∀ (p : Chan) (s : State), (getChan s p.val).failed = false →
    ((getChan s p.val).fifo = [] → (∀ r ∈ s.resets, r.code ≠ 0x80 + p.val) → ∃ t, exec (.channelReset p) s = .next t ∧
      t.resets = s.resets ++ [{ code := 0x80 + p.val, cause := 5 }] ∧ (getChan t p.val).failed = true ∧
      (getChan t p.val).cause = 3 ∧ (getChan t p.val).failCount = sat32 ((getChan s p.val).failCount + 1) ∧
      (getChan t p.val).sectorsRead = 0 ∧ (getChan t p.val).sectorsErased = 0 ∧ (getChan t p.val).windows = [] ∧
      (getChan t p.val).filling = none ∧ (getChan t p.val).draining = none) ∧
    ∃ t, exec (.chCommandFail p) s = .next t ∧ (getChan t p.val).failed = true ∧ (getChan t p.val).cause = 4 ∧
      (getChan t p.val).failCount = sat32 ((getChan s p.val).failCount + 1) ∧ t.health.causes.getLsbD 0 = true ∧
      t.resets = s.resets) ∧
  (∀ (p : Chan) (s : State), (getChan s p.val).failed = true →
    exec (.chCommandFail p) s = .next s ∧
    ((getChan s p.val).cause = 2 → (getChan s p.val).headFault = true → exec (.chCommandRestore p) s = .next s) ∧
    (((getChan s p.val).cause ≠ 2 ∨ (getChan s p.val).headFault = false) →
      (resetting s (0x80 + p.val) = false → ∃ t, exec (.chCommandRestore p) s = .next t ∧ (getChan t p.val).failed = false ∧
        (getChan t p.val).bad = 0 ∧ (getChan t p.val).failCount = (getChan s p.val).failCount) ∧
      (resetting s (0x80 + p.val) = true → ∃ t, exec (.chCommandRestore p) s = .next t ∧
        getChan t p.val = { getChan s p.val with restorePending := true }))) ∧
  ∀ (bits : BitVec 32) (s : State), ∃ t, exec (.replaceAcknowledge bits) s = .next t ∧
    (∀ b, b < 4 → t.health.causes.getLsbD b = (s.health.causes.getLsbD b && (!bits.getLsbD b || causeHolds s b))) ∧
    (∀ b, 4 ≤ b → t.health.causes.getLsbD b = false) ∧ t.health.temp = s.health.temp ∧ t.chans = s.chans ∧ t.ev = s.ev

/-- The samples of the loops: LAT begins a frame and takes the mean of the readers of a band; REEL-S measures the tension
estimate, REEL-T the tape speed, SKEW the tilt with the width of the band sums; the background window sets the gain region and
ends a stop; an hour of motion is judged; unpowered or in reset the TCE does none of it (R444, R445, R449, R451, R452, R459, R467,
R470, R549). A servo reader's estimate is
valid or reported once; a tachometer edge gives its reel's rate and, in lock, the tape speed (R448, R450). Completes: LAT_SAMPLE,
REEL_S_SAMPLE, REEL_T_SAMPLE, SKEW_SAMPLE, TCE_BACKGROUND, SERVO_READER_POSITION, TACH_EDGE, SAT_HOUR_END. -/
def Obligations.LoopsTakeTheirSamples : Prop :=
  (∀ s : State, tceUnpowered s = true → ∀ i ∈ [Instr.latSample false, .reelSSample false, .reelTSample false, .skewSample false,
      .aslKeepalive, .tceBackground, .threadRequest, .stopRequest], exec i s = .next s) ∧
  (∀ (x : Bool) (s : State), tceUnpowered s = false → ∃ t, exec (.latSample x) s = .next t ∧ t.tce.frame = s.tce.frame + 1 ∧
    (s.tce.state = .off → t.wr.guardQuiet = (if s.wr.shockLow = 0 then s.wr.guardQuiet + 1 else 0) ∧
      t.wr.shockLow = s.wr.shockLow - 1 ∧ t.out = s.out ∧ t.ev = s.ev) ∧
    (s.tce.state ≠ .off → s.tce.seek = false → ∀ p2, (bandPes2 s 0).or (bandPes2 s 1) = some p2 →
      t.tce.pes = roundDiv p2 2 ∧ t.tce.lossCount = 0) ∧
    (s.tce.state ≠ .off → s.tce.seek = false → (bandPes2 s 0).or (bandPes2 s 1) = none →
      t.tce.pes = s.tce.pes ∧ t.tce.lossCount = s.tce.lossCount + 1)) ∧
  (∀ (b : Bool) (s : State), tceUnpowered s = false → s.tce.loops.length = 4 →
    (∃ t, exec (.reelSSample b) s = .next t ∧
      t.tce.tension = roundDiv ((param s 0x6000 17 : Int) * (loopOf s 3).aslValue * 1000000000 -
        32767 * (param s 0x6000 18 : Int) * s.tce.alphaT) (32767 * s.tce.rT.getD 28000) ∧
      (loopsRun s = true → (loopOf t 2).measured = t.tce.tension)) ∧
    (loopsRun s = true → ∃ t, exec (.reelTSample b) s = .next t ∧ (loopOf t 3).measured = s.tce.speed) ∧
    (loopsRun s = false → exec (.reelTSample b) s = .next s) ∧
    ∃ t, exec (.skewSample b) s = .next t ∧ t.tce.bandSum = 0 ∧ t.tce.bandCount = 0 ∧ t.tlcs.tiltCount = 0 ∧
      (loopsRun s = true → s.tlcs.hold = false → s.tce.bandCount ≠ 0 → s.tce.ctlStop = false → s.tlcs.tiltCount ≠ 0 →
        (loopOf t 1).measured = roundDiv (1000 * s.tlcs.tiltSum) s.tlcs.tiltCount ∧
        t.tce.width = roundDiv (1000 * s.tlcs.widthSum) s.tlcs.tiltCount -
          roundDiv (s.tce.bandSum * 1000000) (2 * s.tce.bandCount * 2737500))) ∧
  (∀ s : State, tceUnpowered s = false →
    (s.tce.state = .off → exec .tceBackground s = .next s) ∧
    (s.tce.state ≠ .off → ∃ t, exec .tceBackground s = .next t ∧ t.tce.region = regionOf s) ∧
    (s.tce.state = .stopping → s.tce.ctlStop = false → s.tce.speed.natAbs < 20000 → s.tce.speedCount < 4999 →
      s.tce.tensionCount < 1999 → s.tce.loops.length = 4 →
      ∃ t, exec .tceBackground s = .next t ∧ t.tce.state = .hold ∧ (loopOf t 3).setpoint = 0 ∧ (loopOf t 3).target = 0)) ∧
  (∀ (r : Fin 4) (ab ac : Nat) (b : Bool) (s : State), tceUnpowered s = false → s.tce.readers.length = 4 →
    s.tce.readerBad.length = 4 →
    ∃ t, exec (.servoReaderPosition r ab ac b) s = .next t ∧
      ((b = true ∧ 0 < ac ∧ (readerY ab ac).natAbs ≤ 60000000) →
        t.tce.readers.getD r.val none = some (readerY ab ac) ∧ t.tce.readerBad.getD r.val true = false ∧ t.ev = s.ev) ∧
      ((b = false ∨ ac = 0 ∨ 60000000 < (readerY ab ac).natAbs) →
        t.tce.readers.getD r.val none = none ∧ t.tce.readerBad.getD r.val false = true ∧
        (s.tce.readerBad.getD r.val false = false →
          Tab.getD t.ev.counts 0x615 0 = sat32 (Tab.getD s.ev.counts 0x615 0 + 1)) ∧
        (s.tce.readerBad.getD r.val false = true → t.ev = s.ev)) ∧ t.wr = s.wr ∧ t.cart = s.cart) ∧
  (∀ (up : Bool) (n : Nat) (back : Bool) (s : State), tceUnpowered s = false → 0 < n →
    let rate : Int := reelRate (param s 0x6000 (if up then 15 else 14)) n
    let w := if back then -rate else rate
    ∃ t, exec (.tachEdge up n back) s = .next t ∧
      (up = true → t.tce.omegaT = w ∧ t.tce.quietT = 0 ∧ t.tce.omegaS = s.tce.omegaS) ∧
      (up = false → t.tce.omegaS = w ∧ t.tce.quietS = 0 ∧ t.tce.omegaT = s.tce.omegaT) ∧
      (inLock s = true → t.tce.speed = if back then -(dcoSpeed s : Int) else (dcoSpeed s : Int)) ∧
      (inLock s = false → t.tce.speed =
        roundDiv ((if up then w else s.tce.omegaT) * ((s.tce.rT.getD 28000 : Nat) : Int)) 1000000)) ∧
  ∀ s : State, ∃ t, exec .satHourEnd s = .next t ∧ t.tce.hourSamples = [0, 0, 0, 0] ∧ t.tce.hourSat = [0, 0, 0, 0] ∧
    t.tce.hours.length = min 64 (s.tce.hours.length + 1) ∧
    (s.tce.hourSat = [0, 0, 0, 0] → ∃ l, t.tce.hours = false :: l) ∧ t.wr = s.wr ∧ t.cart = s.cart

/-- THREAD, motion and stop requests move the transport between OFF, HOLD, MOVING and STOPPING; a thread without valid tables
is a fault; clearing the faults that no longer hold brings HOLD back (R461, R467, R468, R469). A keep-alive goes to the next
stage and its status frame answers it, a bad one being counted; the head-front link polls its chips in turn, a register write
taking the place of a poll, and takes their fault maps; the temperature's maximum is kept (R463, R464, R465, R586, R587, R588,
R593). Completes: THREAD_REQUEST, MOTION_REQUEST, STOP_REQUEST, TCE_FAULT_CLEAR, ASL_KEEPALIVE, ASL_STATUS_FRAME,
HEAD_FRONT_POLL, HEAD_FRONT_STATUS, TEMPERATURE_SAMPLE. -/
def Obligations.TransportMovesAndLinksAnswer : Prop :=
  (∀ s : State, tceUnpowered s = false →
    (s.tce.state = .off → s.lc.state ≠ 4 → tablesValid s = true → ∃ t, exec .threadRequest s = .next t ∧ t.tce.state = .hold ∧
      t.tce.rT = none ∧ t.tce.rS = none ∧ (loopOf t 2).target = (param s 0x6000 4 * 1000000 : Nat) ∧
      ∃ a b c d, t.out = .asl d :: .asl c :: .asl b :: .asl a :: s.out) ∧
    (s.tce.state = .off → s.lc.state ≠ 4 → tablesValid s = false → s.tce.faults.getLsbD 9 = false → ∃ t, exec .threadRequest s = .next t ∧
      t.tce.state = .fault ∧ t.tce.faults.getLsbD 9 = true) ∧
    (∀ v, (s.tce.state = .hold ∨ s.tce.state = .moving) → s.tce.loops.length = 4 → ∃ t, exec (.motionRequest v) s = .next t ∧
      t.tce.state = .moving ∧ (loopOf t 3).target = 1000 * v ∧ (loopOf t 3).newTarget = true ∧ t.wr = s.wr ∧ t.out = s.out) ∧
    (∀ v, s.tce.state ≠ .hold → s.tce.state ≠ .moving → exec (.motionRequest v) s = .next s) ∧
    (s.tce.state = .moving → s.tce.loops.length = 4 → ∃ t, exec .stopRequest s = .next t ∧ t.tce.state = .stopping ∧
      (loopOf t 3).target = 0 ∧ (loopOf t 3).newTarget = true ∧ t.wr = s.wr ∧ t.out = s.out) ∧
    (s.tce.state ≠ .moving → exec .stopRequest s = .next s)) ∧
  (∀ (bits : BitVec 32) (s : State),
    ((s.tce.state ≠ .fault ∨ tapeStopped s = false) → exec (.tceFaultClear bits) s = .next s) ∧
    (s.tce.state = .fault → tapeStopped s = true → ∃ t, exec (.tceFaultClear bits) s = .next t ∧
      (∀ b, b < 11 → t.tce.faults.getLsbD b = (s.tce.faults.getLsbD b && (!bits.getLsbD b || faultHolds s b))) ∧
      (t.tce.faults = 0#32 → t.tce.state = .hold) ∧ (t.tce.faults ≠ 0#32 → t.tce.state = .fault) ∧ t.cart = s.cart)) ∧
  (∀ s : State, tceUnpowered s = false → s.tce.stopFrames = 0 → (∀ p ∈ s.tce.aslSilent, p.2 < 3) →
    let a := (s.tce.frame - 1) % 4
    ∃ t, exec .aslKeepalive s = .next t ∧
      t.out = .asl (commandFrame a 4 (if a = 0 ∧ s.tce.seek then 1 else 0) (Tab.getD s.tce.aslSeq a 0)) :: s.out ∧
      Tab.get? t.tce.aslSeq a = some ((Tab.getD s.tce.aslSeq a 0 + 1) % 16) ∧ t.tce.faults = s.tce.faults) ∧
  (∀ (f : StatusFrame) (s : State), tceUnpowered s = false →
    (statusCrc f = false → ∃ t, exec (.aslStatusFrame f) s = .next t ∧
      t.tce = { s.tce with aslErrors := sat32 (s.tce.aslErrors + 1) } ∧ t.out = s.out) ∧
    (statusCrc f = true → f.address ≤ 3 → Tab.getD s.tce.aslSilent f.address 0 ≠ 0 →
      f.echo = (Tab.getD s.tce.aslSeq f.address 0 + 15) % 16 → f.flags.toNat % 16 = 0 →
      ∃ t, exec (.aslStatusFrame f) s = .next t ∧ Tab.get? t.tce.aslSilent f.address = none ∧
        Tab.get? t.tce.stageFlags f.address = some f.flags.toNat ∧ t.tce.faults = s.tce.faults ∧
        t.tce.aslErrors = s.tce.aslErrors ∧ t.out = s.out)) ∧
  (∀ s : State, s.tce.hcfChip < 8 →
    let k := s.tce.hcfChip
    (s.tce.hcfWrites = [] → ∃ t, exec (.headFrontPoll false) s = .next t ∧ t.tce.hcfChip = (k + 1) % 8 ∧
      t.out = .hcf (commandFrame k 4 0 (Tab.getD s.tce.hcfSeq k 0)) :: s.out ∧ Tab.get? t.tce.hcfSilent k = some 0 ∧
      t.chans = s.chans) ∧
    (∀ r d l, s.tce.hcfWrites = (k, r, d) :: l → ∃ t, exec (.headFrontPoll false) s = .next t ∧ t.tce.hcfWrites = l ∧
      t.out = .hcf (commandFrame k 0 (256 * r + d) (Tab.getD s.tce.hcfSeq k 0)) :: s.out)) ∧
  (∀ (f : StatusFrame) (s : State),
    (statusCrc f = false → ∃ t, exec (.headFrontStatus f) s = .next t ∧
      t.tce = { s.tce with hcfErrors := sat32 (s.tce.hcfErrors + 1) } ∧ t.chans = s.chans) ∧
    (statusCrc f = true → f.address ≤ 7 → f.ftype = 2 → f.echo = (Tab.getD s.tce.hcfSeq f.address 0 + 15) % 16 →
      ∃ t, exec (.headFrontStatus f) s = .next t ∧ Tab.get? t.tce.hcfSilent f.address = some 0 ∧
        (∀ i, i < 16 → (getChan t (16 * f.address + i)).headFault = f.value.getLsbD i) ∧
        (∀ i, i < 16 → f.value.getLsbD i = true → (getChan s (16 * f.address + i)).headFault = false →
          (getChan t (16 * f.address + i)).failed = true))) ∧
  ∀ (x : BitVec 16) (s : State), ∃ t m, exec (.temperatureSample x) s = .next t ∧ t.health.temp = x ∧
    t.health.tempMax = some m ∧ (m = x ∨ s.health.tempMax = some m) ∧ x.sle m = true ∧
    (∀ k, s.health.tempMax = some k → k.sle m = true) ∧ t.health.causes = s.health.causes ∧ t.ev = s.ev

/-! ## Dictionary, Staxa, flash, firmware, events, resets, power, life cycle -/

/-- With nothing before it, an operation is served at once. A DICT_READ that passes the checks returns the entry's bytes, cut to
the buffer, and completes with their number; one that fails a check ends with that check's status and freezes its queue pair.
A DICT_WRITE of a kept RW value stores it and completes; that of an RWP value completes only when it is in flash, or ends with
INTERNAL_ERROR and stores nothing. The window returns its result in its own registers. The default values come back after the
two writes in turn, the second one within its time (R114, R476, R480-R483, R491, R492). Completes: DICT_READ, DICT_WRITE,
DICT_PERSIST_DONE, DICT_WINDOW_READ, DICT_WINDOW_WRITE, DICT_RESTORE_ARM, DICT_RESTORE_CONFIRM, DICT_RESTORE_TIMEOUT. -/
def Obligations.DictionaryAnswers : Prop :=
  (∀ (slot : SlotId) (c : Cmd) (e : Entry) (v : Qp) (s : State), Started s slot.val opDictRead c → Takes s c v →
    s.dict.queue = [] → s.dict.persisting = false → resetting s 5 = false →
    let op : DictOp := ⟨.cmd slot.val, false, eIndex c.entry, eSub c.entry, [], 0⟩
    let u := setStage slot.val .waiting s
    let bytes := readValue u (fnReader s c.fn) op.index op.sub e
    let room := eLen c.entry
    (checkOp s (fnReader s c.fn) op = none → findEntry op.index op.sub = some e → op.index ≠ 0x9010 → op.index ≠ 0x8020 →
      ∃ t, exec (.dictRead slot) s = .next t ∧
        Ends s t slot.val v { baseCpl c (if room < bytes.length then .lengthResidue else .success) with
          specific := BitVec.ofNat 96 bytes.length, residue := bytes.length - room } ∧
        (bytes.take room ≠ [] → .hostData slot.val false (layout c.sg (bytes.take room).length) (bytes.take room) ∈ t.out) ∧
        t.dict = s.dict ∧ t.streams = s.streams ∧ t.cart = s.cart) ∧
    (∀ st, checkOp s (fnReader s c.fn) op = some st → ∃ t w, exec (.dictRead slot) s = .next t ∧
      Ends s t slot.val v (baseCpl c st) ∧ getQp t c.fn c.qp = some w ∧ w.frozen = true ∧ t.dict = s.dict)) ∧
  (∀ (slot : SlotId) (bytes : List Byte) (c : Cmd) (v : Qp) (s : State), Started s slot.val opDictWrite c → Takes s c v →
    s.dict.queue = [] → s.dict.persisting = false → resetting s 5 = false → bytes.length = eLen c.entry → bytes.length ≤ 1024 →
    let op : DictOp := ⟨.cmd slot.val, true, eIndex c.entry, eSub c.entry, bytes, 0⟩
    let u := setStage slot.val .waiting s
    let r := fnReader s c.fn
    (checkOp u r op = none → persists op = false → familyOf op.index = 0x4000 → op.sub ≠ 5 →
      ∃ t, exec (.dictWrite slot bytes) s = .next t ∧
        Ends s t slot.val v { baseCpl c .success with specific := BitVec.ofNat 96 bytes.length } ∧
        t.dict = { s.dict with vals := Tab.put s.dict.vals (entryKey op.index op.sub) bytes }) ∧
    (checkOp u r op = none → persists op = true → op.index ≠ 0x1100 → ∃ t, exec (.dictWrite slot bytes) s = .next t ∧
      getCmd t slot.val = some { c with stage := .waiting } ∧ t.out = s.out ∧
      t.dict = { s.dict with queue := [{ op with source := r.eventSel }], persisting := true }) ∧
    (∀ st, checkOp u r op = some st → ∃ t w, exec (.dictWrite slot bytes) s = .next t ∧ Ends s t slot.val v (baseCpl c st) ∧
      getQp t c.fn c.qp = some w ∧ w.frozen = true ∧ t.dict = s.dict)) ∧
  (∀ (slot : Nat) (c : Cmd) (op : DictOp) (v : Qp) (s : State), s.dict.persisting = true → s.dict.queue = [op] →
    resetting s 5 = false → op.src = .cmd slot → getCmd s slot = some c → c.stage = .waiting → Takes s c v →
    op.index ∉ [0x1100, 0x2404, 0x4870, 0x5000, 0x6000, 0x7000, 0x8000] →
    (∃ t, exec (.dictPersistDone true) s = .next t ∧
      Ends s t slot v { baseCpl c .success with specific := BitVec.ofNat 96 op.value.length } ∧
      t.dict = { s.dict with
        queue := [], persisting := false, vals := Tab.put s.dict.vals (entryKey op.index op.sub) op.value }) ∧
    ∃ t w, exec (.dictPersistDone false) s = .next t ∧ Ends s t slot v (baseCpl c .internalError) ∧
      getQp t c.fn c.qp = some w ∧ w.frozen = true ∧ t.dict = { s.dict with queue := [], persisting := false }) ∧
  (∀ (fn : FnId) (n : BitVec 11) (e : Entry) (s : State), fnExists s fn.val = true →
    ((getFn s fn.val).win.busy = true → exec (.dictWindowRead fn) s = .next s ∧ exec (.dictWindowWrite fn n) s = .next s) ∧
    ((getFn s fn.val).win.busy = false → s.dict.queue = [] → s.dict.persisting = false → resetting s 5 = false →
      let w := (getFn s fn.val).win
      let u := updFn fn.val (fun x => { x with win := { x.win with busy := true } }) s
      let r := fnReader s fn.val
      let bytes := readValue u r w.index.toNat w.sub.toNat e
      let bs := (List.range n.toNat).map fun k => Tab.getD w.buf k 0#8
      (checkOp s r ⟨.window fn.val, false, w.index.toNat, w.sub.toNat, [], 0⟩ = none →
        findEntry w.index.toNat w.sub.toNat = some e → w.index.toNat ≠ 0x9010 → w.index.toNat ≠ 0x8020 →
        ∃ t, exec (.dictWindowRead fn) s = .next t ∧
          (getFn t fn.val).win = { w with
            busy := false, status := .success, length := bytes.length, buf := fillBuf w.buf bytes } ∧
          t.out = s.out ∧ t.dict = s.dict) ∧
      (checkOp u r ⟨.window fn.val, true, w.index.toNat, w.sub.toNat, bs, 0⟩ = none → activating s = false →
        persists ⟨.window fn.val, true, w.index.toNat, w.sub.toNat, bs, 0⟩ = true → w.index.toNat ≠ 0x1100 →
        ∃ t, exec (.dictWindowWrite fn n) s = .next t ∧ (getFn t fn.val).win = { w with busy := true } ∧
          t.dict = { s.dict with
            queue := [⟨.window fn.val, true, w.index.toNat, w.sub.toNat, bs, r.eventSel⟩], persisting := true }) ∧
      (checkOp u r ⟨.window fn.val, true, w.index.toNat, w.sub.toNat, bs, 0⟩ = none → activating s = false →
        persists ⟨.window fn.val, true, w.index.toNat, w.sub.toNat, bs, 0⟩ = false → familyOf w.index.toNat = 0x4000 →
        w.sub.toNat ≠ 5 → ∃ t, exec (.dictWindowWrite fn n) s = .next t ∧
          (getFn t fn.val).win = { w with busy := false, status := .success, length := n.toNat } ∧
          t.dict = { s.dict with vals := Tab.put s.dict.vals (entryKey w.index.toNat w.sub.toNat) bs }) ∧
      ∀ st, checkOp u r ⟨.window fn.val, true, w.index.toNat, w.sub.toNat, bs, 0⟩ = some st → activating s = false →
        ∃ t, exec (.dictWindowWrite fn n) s = .next t ∧
          (getFn t fn.val).win = { w with busy := false, status := st, length := n.toNat } ∧ t.dict = s.dict)) ∧
  ∀ s : State,
    (s.dict.queue = [] → s.dict.persisting = false → resetting s 5 = false → s.lc.state < 4 →
      (∃ t, exec .dictRestoreArm s = .next t ∧ t.dict = { s.dict with armed := true } ∧ t.out = s.out ∧ t.host = s.host) ∧
      (s.dict.armed = false → exec .dictRestoreConfirm s = .next s) ∧
      (s.dict.armed = true → ∃ t op, exec .dictRestoreConfirm s = .next t ∧ op.index = 0x1100 ∧ op.sub = 13 ∧
        leNat op.value = 0x5A5A0002 ∧ t.dict = { s.dict with queue := [op], persisting := true, armed := false })) ∧
    (∀ op : DictOp, s.dict.persisting = true → s.dict.queue = [op] → op.src = .row → op.index = 0x1100 → op.sub = 13 →
      ∃ t, exec (.dictPersistDone true) s = .next t ∧
        t.dict = { s.dict with queue := [], persisting := false, restore := true }) ∧
    exec .dictRestoreTimeout s = .next { s with dict := { s.dict with armed := false } }

/-- An OPEN under an admitted key with a right Tag opens a session of the granted timeout, under a SessionId not in use; a
repeated one is answered with the same OPEN_ACK. A REQUEST with the next Sequence is executed and its RESPONSE sent and kept,
the last Sequence brings that RESPONSE again, any other an ERROR; CLOSE and the idle timeout end the session. Datagrams that
are no Staxa messages, and wrong Tags, are only counted. The port answers for its own addresses (R488, R493-R498). Completes: STAXA_KEY_WRITE,
STAXA_OPEN, STAXA_REQUEST, STAXA_CLOSE, STAXA_SESSION_TIMEOUT, UNUSABLE_DATAGRAM, ARP_REQUEST, NEIGHBOR_DISCOVERY, ICMP_ECHO. -/
def Obligations.StaxaAndPortAnswer : Prop :=
  (∀ (k : Fin 8) (key : List Byte) (s : State), s.dict.queue = [] → s.dict.persisting = false → resetting s 5 = false →
    s.lc.state < 4 → key.length = 32 → ∃ t, exec (.staxaKeyWrite k key) s = .next t ∧ t.staxa.sessions = s.staxa.sessions ∧
      (key.all (· == 0#8) = true → t.staxa.keys = Tab.del s.staxa.keys k.val) ∧
      (key.all (· == 0#8) = false → t.staxa.keys = Tab.put s.staxa.keys k.val (BitVec.ofNat 256 (beNat key))) ∧
      t.dict = s.dict ∧ t.out = s.out) ∧
  (∀ (nonce : BitVec 128) (timeout : BitVec 16) (keyId : Byte) (tag : BitVec 128) (key : Option (BitVec 256)) (s : State),
    resetting s 5 = false → staxaOn s = true → staxaKey s keyId.toNat = some key →
    let good := tagOk 1 0 0 keyId.toNat (key.getD 0) (beBytes 16 nonce.toNat ++ beBytes 2 timeout.toNat ++ [0#8, 0#8]) tag
    (good = false → ∃ t, exec (.staxaOpen nonce timeout keyId tag) s = .next t ∧
      t.staxa = { s.staxa with authFailures := sat32 (s.staxa.authFailures + 1) } ∧ t.out = s.out) ∧
    (good = true → ∀ p, s.staxa.sessions.find? (fun p => p.2.clientNonce == nonce && p.2.keyId == keyId.toNat) = some p →
      exec (.staxaOpen nonce timeout keyId tag) s = .next (emit (.staxa p.2.ack) s)) ∧
    (good = true → (∀ p ∈ s.staxa.sessions, p.2.clientNonce ≠ nonce ∨ p.2.keyId ≠ keyId.toNat) →
      (16 ≤ s.staxa.sessions.length → ∃ t, exec (.staxaOpen nonce timeout keyId tag) s = .next t ∧
        t.staxa.sessions = s.staxa.sessions) ∧
      (s.staxa.sessions.length < 16 → ∃ t id x, exec (.staxaOpen nonce timeout keyId tag) s = .next t ∧ 1 ≤ id ∧
        Tab.get? s.staxa.sessions id = none ∧ t.staxa.sessions = Tab.put s.staxa.sessions id x ∧ x.keyId = keyId.toNat ∧
        x.clientNonce = nonce ∧ x.last = 0 ∧ x.running = none ∧ x.maker = decide (keyId = 0xFF#8) ∧
        x.timeout = max 5 (min (if timeout = 0#16 then param s 0x1100 9 else timeout.toNat) 3600) ∧
        t.out = .staxa x.ack :: s.out))) ∧
  (∀ (session seq : BitVec 32) (o : StaxaOp) (tag : BitVec 128) (x : Session) (s : State), resetting s 5 = false →
    staxaOn s = true → Tab.get? s.staxa.sessions session.toNat = some x → requestOk [o] = true → requestAllowed s [o] = true →
    tagOk 3 session.toNat seq.toNat x.keyId x.key (requestPayload [o]) tag = true →
    let op := opOfStaxa session.toNat o
    let u := updSession session.toNat (fun x => { x with running := some (seq.toNat, [o], [], 0) }) s
    let answer := fun (res : List Byte) => staxaMessage 4 session.toNat seq.toNat x.keyId x.key ([1#8, 0#8, 0#8, 0#8] ++ res)
    (x.last ≠ 0xFFFFFFFF → seq.toNat = x.last + 1 → x.running = none → x.closing = false → s.dict.queue = [] →
      s.dict.persisting = false → ∀ r, readerOf s (.staxa session.toNat) = some r →
      (∀ e, o.op = 1 → checkOp s r op = none → findEntry o.index o.sub = some e → o.index ≠ 0x9010 → o.index ≠ 0x8020 →
        (readValue u r o.index o.sub e).length ≤ 1024 →
        let m := answer (staxaResult o .success (readValue u r o.index o.sub e))
        ∃ t, exec (.staxaRequest session seq [o] tag) s = .next t ∧ t.out = .staxa m :: s.out ∧
          Tab.get? t.staxa.sessions session.toNat = some { x with last := seq.toNat, response := m, running := none }) ∧
      (∀ st, o.op = 1 → checkOp s r op = some st →
        let m := answer (staxaResult o st [])
        ∃ t, exec (.staxaRequest session seq [o] tag) s = .next t ∧ t.out = .staxa m :: s.out ∧
          Tab.get? t.staxa.sessions session.toNat = some { x with last := seq.toNat, response := m, running := none })) ∧
    (seq.toNat = x.last → x.last ≠ 0 → exec (.staxaRequest session seq [o] tag) s = .next (emit (.staxa x.response) s)) ∧
    (seq.toNat ≠ x.last → seq.toNat ≠ x.last + 1 →
      (s.staxa.errTimes.filter fun t => decide (s.time.toNat < t + 1000000000)).length < 100 →
      ∃ t, exec (.staxaRequest session seq [o] tag) s = .next t ∧ t.staxa.sessions = s.staxa.sessions ∧
        t.out = .staxa (staxaMessage 7 session.toNat seq.toNat 0 0 [5#8, 0#8, 0#8, 0#8]) :: s.out)) ∧
  (∀ (session seq : BitVec 32) (tag : BitVec 128) (x : Session) (s : State), resetting s 5 = false → staxaOn s = true →
    Tab.get? s.staxa.sessions session.toNat = some x → tagOk 5 session.toNat seq.toNat x.keyId x.key [] tag = true →
    seq.toNat = x.last + 1 → ∃ t, exec (.staxaClose session seq tag) s = .next t ∧
      t.staxa = { s.staxa with sessions := Tab.del s.staxa.sessions session.toNat } ∧
      t.out = .staxa (staxaMessage 6 session.toNat seq.toNat x.keyId x.key []) :: s.out) ∧
  (∀ (session : BitVec 32) (s : State), exec (.staxaSessionTimeout session) s =
    .next { s with staxa := { s.staxa with sessions := Tab.del s.staxa.sessions session.toNat } }) ∧
  (∀ s : State, resetting s 5 = false →
    (∀ d ∈ [BadDatagram.short, .badMagic], exec (.unusableDatagram d) s =
      .next { s with staxa := { s.staxa with dropped := sat32 (s.staxa.dropped + 1) } }) ∧
    (staxaOn s = true → exec (.unusableDatagram .tagFails) s =
      .next { s with staxa := { s.staxa with authFailures := sat32 (s.staxa.authFailures + 1) } }) ∧
    (∀ a b, staxaOn s = true → (s.staxa.errTimes.filter fun t => decide (s.time.toNat < t + 1000000000)).length < 100 →
      ∃ t, exec (.unusableDatagram (.badVersion a b)) s = .next t ∧ t.staxa.sessions = s.staxa.sessions ∧
        t.out = .staxa (staxaMessage 7 a b 0 0 [3#8, 0#8, 0#8, 0#8]) :: s.out)) ∧
  ∀ (v4 : BitVec 32) (v6 : BitVec 128) (b : Bool) (payload : List Byte) (s : State), resetting s 5 = false →
    (ownV4 s v4.toNat = true → exec (.arpRequest v4) s = .next (emit (.net (portMac ++ beBytes 4 v4.toNat)) s)) ∧
    (ownV4 s v4.toNat = false → exec (.arpRequest v4) s = .next s) ∧
    (ownV6 s v6.toNat = true → exec (.neighborDiscovery v6) s = .next (emit (.net (portMac ++ beBytes 16 v6.toNat)) s)) ∧
    (ownV6 s v6.toNat = false → exec (.neighborDiscovery v6) s = .next s) ∧
    ((if b then ownV6 s v6.toNat else ownV4 s v6.toNat) = true → exec (.icmpEcho b v6 payload) s = .next (emit (.net payload) s))

/-- A flash descriptor, under a tag of the core that submits it, starts at once when the controller is free and nothing refuses it: a
PROGRAM makes its block OPEN, an ERASE makes it ERASING and counts; one that is refused ends with its code and no effect; behind
another it waits, and with 64 waiting its submitter is held. READ_DONE corrects, counts and flags, or ends uncorrectable;
PROGRAM_DONE and ERASE_DONE move the block on or retire it, an erase at the limit of erases too; an erase is suspended for an Urgent
descriptor and resumed when none waits; a fetch miss stalls its core and reads its page; a brown-out interrupts what programs or
erases, seals the block of the program, and ends the PROGRAMs and ERASEs that wait; its release lets the controller go on
(R504-R510, R512, R514-R518, R520, R531). Completes: FLASH_READ, FLASH_PROGRAM, FLASH_ERASE, FLASH_DIAG_DESCRIPTOR, FLASH_READ_DONE,
FLASH_PROGRAM_DONE, FLASH_ERASE_DONE, ERASE_SUSPEND, ERASE_RESUME, FETCH_MISS, VFL_BROWNOUT, BROWNOUT_RELEASE. -/
def Obligations.FlashWorks : Prop :=
  (∀ (desc : BitVec 256) (i : Instr) (x0 x : FlashDesc) (s : State), (i, x0) ∈ [(Instr.flashRead desc, { d := desc }),
      (.flashProgram desc, { d := desc }), (.flashErase desc, { d := desc }),
      (.flashDiagDescriptor desc, { d := desc, diag := true })] → x = { x0 with tag := (agentTag agCore s).1 } →
    (x.diag = true → s.lc.state ≠ 1 → s.lc.state ≠ 3 → exec i s = .next s) ∧
    ((x.diag = false ∨ s.lc.state = 1 ∨ s.lc.state = 3) →
      (s.flash.op = none → s.flash.erase = none → s.flash.queue = [] → s.flash.held = [] → resetting s 4 = false →
        (flashRefusal s x = none → ∃ t, exec i s = .next t ∧ t.flash.queue = [] ∧ t.flash.held = [] ∧ t.out = s.out ∧
          (∀ b, b ≠ x.block → getBlock t b = getBlock s b) ∧ t.flash.pages = s.flash.pages ∧
          (x.op = 1 → t.flash.op = some x ∧ t.flash.erase = none ∧ getBlock t x.block = getBlock s x.block) ∧
          (x.op = 2 → t.flash.op = some x ∧ t.flash.erase = none ∧
            getBlock t x.block = { getBlock s x.block with state := .opened }) ∧
          (x.op = 3 → t.flash.op = none ∧ t.flash.erase = some x ∧ t.flash.suspended = false ∧
            getBlock t x.block = { getBlock s x.block with
              state := .erasing, eraseCount := (getBlock s x.block).eraseCount + 1 })) ∧
        ∀ st, flashRefusal s x = some st → ∃ t m, exec i s = .next t ∧ t.flash.blocks = s.flash.blocks ∧
          t.flash.op = none ∧ t.flash.erase = none ∧ t.flash.queue = [] ∧ t.flash.pages = s.flash.pages ∧
          t.out = .flash (flashRecord x.descId st 0 0 0 m) x.tag :: s.out) ∧
      (s.flash.op.isSome = true → s.flash.held = [] → s.flash.queue.length < 64 → ∃ t, exec i s = .next t ∧
        t.flash = { s.flash with queue := s.flash.queue ++ [x] } ∧ t.out = s.out) ∧
      (s.flash.op.isSome = true → 64 ≤ s.flash.queue.length → ∃ t, exec i s = .next t ∧
        t.flash = { s.flash with held := s.flash.held ++ [x] } ∧ t.out = s.out))) ∧
  (∀ (x : FlashDesc) (e : List Nat) (l : List (List Nat)) (m8 : List Byte) (s : State), s.flash.op = some x → x.op = 1 →
    x.raw = false → s.flash.erase = none → s.flash.queue = [] → s.flash.held = [] → e.length = 4 →
    ((∀ n ∈ e, n ≤ 40) →
      let top := e.foldl max 0
      ∃ t m o, exec (.flashReadDone (e :: l) m8) s = .next t ∧ t.flash.op = none ∧
        t.flash.correctedBits = s.flash.correctedBits + e.sum ∧ t.flash.uncorrectable = s.flash.uncorrectable ∧
        t.out = .flash (flashRecord x.descId (if param s 0x7000 1 ≤ top then 1 else 0) 0 top e.sum m) x.tag :: (o ++ s.out) ∧
        (∀ v, Tab.get? s.flash.pages (x.block * 64 + x.page) = some (some v) → m = v) ∧
        (param s 0x7000 1 ≤ top → (getBlock t x.block).refresh = true ∧
          Tab.getD t.ev.counts 0x700 0 = sat32 (Tab.getD s.ev.counts 0x700 0 + 1)) ∧
        (top < param s 0x7000 1 → getBlock t x.block = getBlock s x.block ∧ t.ev = s.ev)) ∧
    ((∃ n ∈ e, 40 < n) → x.noRetry = true → ∃ t a b m o, exec (.flashReadDone (e :: l) m8) s = .next t ∧ t.flash.op = none ∧
      t.flash.uncorrectable = sat32 (s.flash.uncorrectable + 1) ∧ t.flash.blocks = s.flash.blocks ∧
      t.out = .flash (flashRecord x.descId 4 0 a b m) x.tag :: (o ++ s.out) ∧
      Tab.getD t.ev.counts 0x701 0 = sat32 (Tab.getD s.ev.counts 0x701 0 + 1))) ∧
  (∀ (x : FlashDesc) (s : State), s.flash.op = some x → x.op = 2 → s.flash.erase = none → s.flash.queue = [] →
    s.flash.held = [] →
    (∃ t, exec (.flashProgramDone true) s = .next t ∧ t.flash.op = none ∧
      t.flash.pages = Tab.put s.flash.pages (x.block * 64 + x.page) (some x.meta8) ∧
      getBlock t x.block = { getBlock s x.block with
        nextPage := x.page + 1, state := (if x.page = 63 then .full else .opened) } ∧
      t.out = .flash (flashRecord x.descId 0 0 0 0 0) x.tag :: s.out ∧ t.ev = s.ev) ∧
    ∃ t o, exec (.flashProgramDone false) s = .next t ∧ t.flash.op = none ∧ (getBlock t x.block).state = .retired ∧
      t.flash.pages = Tab.put s.flash.pages (x.block * 64 + x.page) none ∧
      t.flash.retired = s.flash.retired + 1 ∧ t.out = .flash (flashRecord x.descId 5 0 0 0 0) x.tag :: (o ++ s.out) ∧
      Tab.getD t.ev.counts 0x702 0 = sat32 (Tab.getD s.ev.counts 0x702 0 + 1) ∧
      Tab.getD t.ev.counts 0x704 0 = sat32 (Tab.getD s.ev.counts 0x704 0 + 1)) ∧
  (∀ (x : FlashDesc) (s : State), s.flash.erase = some x → s.flash.suspended = false → s.flash.op = none →
    s.flash.queue = [] → s.flash.held = [] →
    ((getBlock s x.block).eraseCount < param s 0x7000 3 → ∃ t, exec (.flashEraseDone true) s = .next t ∧
      t.flash.erase = none ∧
      getBlock t x.block = { getBlock s x.block with state := .free, refresh := false, nextPage := 0, sealed := false } ∧
      (∀ k, k / 64 = x.block → Tab.get? t.flash.pages k = none) ∧
      t.out = .flash (flashRecord x.descId 0 0 0 0 0) x.tag :: s.out ∧ t.ev = s.ev) ∧
    (param s 0x7000 3 ≤ (getBlock s x.block).eraseCount → ∃ t o, exec (.flashEraseDone true) s = .next t ∧
      t.flash.erase = none ∧ (getBlock t x.block).state = .retired ∧ t.flash.retired = s.flash.retired + 1 ∧
      t.out = .flash (flashRecord x.descId 0 0 0 0 0) x.tag :: (o ++ s.out)) ∧
    ∃ t o, exec (.flashEraseDone false) s = .next t ∧ t.flash.erase = none ∧ (getBlock t x.block).state = .retired ∧
      t.flash.retired = s.flash.retired + 1 ∧ t.out = .flash (flashRecord x.descId 6 0 0 0 0) x.tag :: (o ++ s.out) ∧
      Tab.getD t.ev.counts 0x703 0 = sat32 (Tab.getD s.ev.counts 0x703 0 + 1)) ∧
  (∀ (x y : FlashDesc) (s : State), s.flash.erase = some x →
    (s.flash.suspended = false → s.flash.op = none → s.flash.queue = [y] → s.flash.held = [] →
      resetting s 4 = false → y.urgent = true → y.op = 1 → y.block ≠ x.block →
      flashRefusal s y = none → ∃ t, exec .eraseSuspend s = .next t ∧
        t.flash = { s.flash with suspended := true, queue := [], op := some y } ∧ t.out = s.out) ∧
    (urgentWaits s x.block = false → exec .eraseSuspend s = .next s) ∧
    (s.flash.suspended = true → s.flash.op = none → s.flash.brownout = false →
      (urgentWaits s x.block = false → exec .eraseResume s =
        .next { s with flash := { s.flash with suspended := false } }) ∧
      (urgentWaits s x.block = true → exec .eraseResume s = .next s))) ∧
  (∀ (core : Fin 4) (b : Fin 2048) (p : Fin 64) (s : State), core.val ∉ s.flash.stalled → s.flash.op = none →
    s.flash.erase = none → s.flash.queue = [] → s.flash.held = [] → resetting s 4 = false →
    (getBlock s b.val).state ≠ .retired → (getBlock s b.val).state ≠ .incomplete → (getBlock s b.val).state ≠ .erasing →
    ∃ t x, exec (.fetchMiss core b p) s = .next t ∧ t.flash.op = some x ∧ x.op = 1 ∧
      x.block = b.val ∧ x.page = p.val ∧ x.urgent = true ∧ x.core = some core.val ∧
      t.flash.stalled = insertUp core.val s.flash.stalled ∧ t.flash.blocks = s.flash.blocks ∧ t.out = s.out) ∧
  ∀ s : State,
    (s.flash.brownout = true → exec .vflBrownout s = .next s) ∧
    (s.flash.brownout = false → ∃ t o, exec .vflBrownout s = .next t ∧ t.flash.brownout = true ∧
      t.flash.brownouts = sat32 (s.flash.brownouts + 1) ∧ t.flash.erase = none ∧
      Tab.getD t.ev.counts 0x706 0 = sat32 (Tab.getD s.ev.counts 0x706 0 + 1) ∧
      (s.flash.op = none → s.flash.queue = [] → s.flash.held = [] → ∀ x, s.flash.erase = some x →
        t.flash.blocks = s.flash.blocks ∧ t.out = .flash (flashRecord x.descId 3 0 0 0 0) x.tag :: (o ++ s.out)) ∧
      (∀ x y, s.flash.op = some x → x.op = 2 → s.flash.erase = none → s.flash.queue = [y] → (y.op = 2 ∨ y.op = 3) →
        s.flash.held = [] → t.flash.op = none ∧ t.flash.queue = [] ∧
        t.flash.pages = Tab.put s.flash.pages (x.block * 64 + x.page) none ∧
        (getBlock t x.block).sealed = true ∧ (getBlock t x.block).refresh = true ∧
        t.out = .flash (flashRecord y.descId 3 0 0 0 0) y.tag :: .flash (flashRecord x.descId 3 0 0 0 0) x.tag :: (o ++ s.out))) ∧
    (s.flash.brownout = true → s.flash.op = none → s.flash.erase = none → s.flash.queue = [] → s.flash.held = [] →
      exec .brownoutRelease s = .next { s with flash := { s.flash with brownout := false } })

/-- A piece of an image that continues the one before is taken in a management buffer and staged, the last one completing the
image; its list is read first; without a buffer it ends with BUFFER_EXHAUSTED. FW_ACTIVATE of an image that fails a check ends
with FIRMWARE_REJECTED, otherwise the device drains; a second one ends with STATE_CONFLICT (the model's choice, assumption 103).
The Glove swap restarts the cores from the new image, after its image has been checked once more (the model's choice, assumption
101), or fails and leaves the old one; the image is in force when its start is confirmed, and a start that is not confirmed
resets the management domain (R63, R115, R142, R143, R194, R523-R529). Completes: FW_DOWNLOAD, FW_ACTIVATE, FW_ACTIVATE_SWAP,
FW_START_CONFIRMED, FW_START_TIMEOUT, WATCHDOG_EXPIRY. -/
def Obligations.FirmwareActivates : Prop :=
  (∀ (slot : SlotId) (piece : List Byte) (c : Cmd) (v : Qp) (s : State), Started s slot.val opFwDownload c → Takes s c v →
    (∀ b, eDataMode c.entry = 2 → c.sg = [] → ∃ t, exec (.fwDownload slot piece b) s = .next t ∧
      getCmd t slot.val = some { c with stage := .lists } ∧ t.fw = s.fw ∧ t.out = s.out) ∧
    ((eDataMode c.entry ≠ 2 ∨ c.sg ≠ []) → piece.length = (c.sg.map (·.2)).sum →
      eImageOffset c.entry + piece.length ≤ 2 ^ 25 → (eFinal c.entry = true ∨ piece.length % 4096 = 0) →
      (eImageOffset c.entry = 0 ∨ (eImageOffset c.entry = s.fw.staged.length ∧ s.fw.stagedState ≠ 0)) →
      (choosePool s 2 piece.length ≠ none →
        (∃ t, exec (.fwDownload slot piece true) s = .next t ∧ Ends s t slot.val v (baseCpl c .success) ∧
          t.fw.staged = (if eImageOffset c.entry = 0 then [] else s.fw.staged) ++ piece ∧
          t.fw.stagedState = (if eFinal c.entry then 2 else 1) ∧ t.fw.active = s.fw.active ∧ t.fw.gloveA = s.fw.gloveA ∧
          t.fw.gloveB = s.fw.gloveB ∧ t.cart = s.cart ∧ t.streams = s.streams ∧
          (eFinal c.entry = true → Tab.getD t.ev.counts 0x710 0 = sat32 (Tab.getD s.ev.counts 0x710 0 + 1))) ∧
        ∃ t, exec (.fwDownload slot piece false) s = .next t ∧ Ends s t slot.val v (baseCpl c .internalError) ∧
          t.fw.staged = [] ∧ t.fw.stagedState = 0) ∧
      (choosePool s 2 piece.length = none → ∀ b, ∃ t w, exec (.fwDownload slot piece b) s = .next t ∧
        Ends s t slot.val v (baseCpl c .bufferExhausted) ∧ getQp t c.fn c.qp = some w ∧ w.frozen = true ∧ t.fw = s.fw))) ∧
  (∀ (slot : SlotId) (c : Cmd) (v : Qp) (s : State), Started s slot.val opFwActivate c → Takes s c v →
    (∀ r, stagedFault s = some r → ∃ t w, exec (.fwActivate slot) s = .next t ∧
      Ends s t slot.val v (baseCpl c .firmwareRejected) ∧ getQp t c.fn c.qp = some w ∧ w.frozen = true ∧
      t.fw = { s.fw with lastResult := 2 } ∧ Tab.getD t.ev.counts 0x712 0 = sat32 (Tab.getD s.ev.counts 0x712 0 + 1)) ∧
    (stagedFault s = none → s.fw.activate = none → ∃ u, exec (.fwActivate slot) s = .next (settle u) ∧
      getCmd u slot.val = some { c with stage := .waiting } ∧ activating u = true ∧
      u.fw = { s.fw with activate := some { slot := slot.val, seq := c.seq, step := 3, image := otherSlot s } } ∧
      u.out = s.out) ∧
    (stagedFault s = none → s.fw.activate.isSome = true → ∃ t, exec (.fwActivate slot) s = .next t ∧
      Ends s t slot.val v (baseCpl c .stateConflict) ∧ t.fw = s.fw)) ∧
  (∀ (a : Activate) (s : State), s.fw.activate = some a →
    (a.step ≠ 4 → ∀ b, exec (.fwActivateSwap b) s = .next s) ∧
    (a.step = 4 → stagedFault s = none → s.dict.queue = [] → (∀ r ∈ s.resets, r.waits = []) →
      ∃ t, exec (.fwActivateSwap true) s = .next t ∧ t.fw.activate = some { a with step := 5 } ∧
      t.fw.active = some a.image ∧ t.fw.activeSeq = topSeq s + 1 ∧ t.fw.starting = true ∧ t.fw.starts = 0 ∧
      t.fw.stagedState = 0 ∧ t.staxa.sessions = [] ∧ t.fw.floor = s.fw.floor) ∧
    (a.step = 4 → ∀ c v, getCmd s a.slot = some c → c.stage = .waiting → Takes s c v →
      (stagedFault s = none → ∃ t, exec (.fwActivateSwap false) s = .next t ∧
        Ends s t a.slot v (baseCpl c .internalError) ∧ t.fw.activate = none ∧ t.fw.lastResult = 4 ∧
        t.fw.active = s.fw.active ∧ t.fw.activeSeq = s.fw.activeSeq ∧
        Tab.getD t.ev.counts 0x714 0 = sat32 (Tab.getD s.ev.counts 0x714 0 + 1)) ∧
      ∀ b r, stagedFault s = some r → ∃ t, exec (.fwActivateSwap b) s = .next t ∧
        Ends s t a.slot v (baseCpl c .firmwareRejected) ∧ t.fw.activate = none ∧ t.fw.lastResult = 2 ∧
        t.fw.active = s.fw.active ∧ t.fw.activeSeq = s.fw.activeSeq ∧
        Tab.getD t.ev.counts 0x712 0 = sat32 (Tab.getD s.ev.counts 0x712 0 + 1))) ∧
  (∀ s : State,
    (s.fw.starting = false → exec .fwStartConfirmed s = .next s ∧ exec .fwStartTimeout s = .next s) ∧
    (s.fw.starting = true → s.fw.fallbackBoot = false → s.fw.activate = none →
      exec .fwStartConfirmed s = .next { s with fw := { s.fw with starting := false, starts := 0 } }) ∧
    (s.fw.starting = true → s.fw.fallbackBoot = true → ∃ t, exec .fwStartConfirmed s = .next t ∧ t.fw.starting = false ∧
      t.fw.lastResult = 3 ∧ t.fw.fallbacks = sat32 (s.fw.fallbacks + 1) ∧
      Tab.getD t.ev.counts 0x713 0 = sat32 (Tab.getD s.ev.counts 0x713 0 + 1) ∧
      ∀ a c v, s.fw.activate = some a → a.step = 5 → getCmd s a.slot = some c → c.stage = .waiting → Takes s c v →
        t.fw.activate = none ∧
        Ends s t a.slot v { baseCpl c .firmwareRejected with specific := BitVec.ofNat 96 (s.fw.activeSeq % 2 ^ 32) }) ∧
    (∀ a c v, s.fw.starting = true → s.fw.fallbackBoot = false → s.fw.activate = some a → a.step = 5 →
      getCmd s a.slot = some c → c.stage = .waiting → Takes s c v → ∃ t, exec .fwStartConfirmed s = .next t ∧
        Ends s t a.slot v { baseCpl c .success with specific := BitVec.ofNat 96 (s.fw.activeSeq % 2 ^ 32) } ∧
        t.fw.activate = none ∧ t.fw.lastResult = 1 ∧ s.fw.floor ≤ t.fw.floor ∧ t.fw.active = s.fw.active ∧
        Tab.getD t.ev.counts 0x711 0 = sat32 (Tab.getD s.ev.counts 0x711 0 + 1)) ∧
    (s.fw.starting = true → (∀ r ∈ s.resets, r.code ≠ 5) → ∃ t, exec .fwStartTimeout s = .next t ∧
      (∃ r ∈ t.resets, r.code = 5 ∧ r.cause = 6) ∧ t.fw.failedSeq = s.fw.activeSeq ∧
      t.fw.starts = (if s.fw.failedSeq = s.fw.activeSeq then s.fw.starts + 1 else 1) ∧ t.fw.staged = [] ∧
      t.staxa.sessions = [] ∧ t.dict.queue = [])) ∧
  ∀ s : State, (∀ r ∈ s.resets, r.code ≠ 5) → ∃ t, exec .watchdogExpiry s = .next t ∧
    (∃ r ∈ t.resets, r.code = 5 ∧ r.cause = 7) ∧ t.fw.staged = [] ∧ t.fw.starts = s.fw.starts ∧ t.staxa.sessions = [] ∧
    t.dict.queue = [] ∧ t.dict.persisting = false ∧
    (s.dict.queue = [] → s.fw.activate = none → (∀ r ∈ s.resets, r.waits = []) → t.cart = s.cart ∧ t.streams = s.streams)

/-- The host pops the oldest entry of the highest priority of EVQ-H; EvqLost is cleared by a write; arming an empty queue
arms it, else the message goes out at once; the next entry written into an armed EVQ-H sends it and clears Armed. The management
cores copy an entry of EVQ-M into the log with TIME, under the next LogIndex; a word of an entry that fails its parity makes the
entry poisoned; a read of the log gives the entry at the reader's index and moves the index on (R29, R31, R537-R539, R541, R542).
Completes: EVQ_POP, EVQ_LOST_CLEAR, EVQ_ARM, EVENT_LOG_COPY, EVENT_LOG_READ. -/
def Obligations.EventsAreReadAndLogged : Prop :=
  (∀ (w : BitVec 4) (s : State),
    (s.ev.host = [] → exec (.evqPop w) s = .next { s with
      ev := { s.ev with entry := 0, entryValid := false, poison := false } }) ∧
    (s.ev.host ≠ [] → ∃ t e, exec (.evqPop w) s = .next t ∧ e ∈ s.ev.host ∧ (∀ x ∈ s.ev.host, e.prio ≤ x.prio) ∧
      s.ev.host.find? (fun x => x.prio == e.prio) = some e ∧ t.ev.host = s.ev.host.erase e ∧ t.ev.entry = e.bits ∧
      t.ev.entryValid = true ∧ t.ev.poison = (e.poison || !tagIntact e.bits w) ∧ t.ev.mgmt = s.ev.mgmt ∧ t.ev.lost = s.ev.lost ∧
      t.ev.hostPoisoned = (if e.poison || !tagIntact e.bits w then sat32 (s.ev.hostPoisoned + 1) else s.ev.hostPoisoned) ∧ t.out = s.out) ∧
    exec .evqLostClear s = .next { s with ev := { s.ev with lost := 0 } } ∧
    (s.ev.host = [] → exec .evqArm s = .next { s with ev := { s.ev with armed := true } }) ∧
    (s.ev.host ≠ [] → exec .evqArm s = .next (sendMsix 0 1 s)) ∧
    (∀ e, (toHost e s).ev.armed = false ∧ (s.ev.armed = false → (toHost e s).out = s.out) ∧
      (s.ev.armed = true → (Tab.getD (getFn s 0).msix 1 {}).masked = false → (toHost e s).out = .msix 0 1 :: s.out) ∧
      (s.ev.armed = true → (Tab.getD (getFn s 0).msix 1 {}).masked = true →
        (Tab.getD (getFn (toHost e s) 0).msix 1 {}).pend = true))) ∧
  (∀ (w : BitVec 4) (s : State),
    (s.ev.mgmt = [] → exec (.eventLogCopy w) s = .next s) ∧
    (s.ev.mgmt ≠ [] → ∃ t e, exec (.eventLogCopy w) s = .next t ∧ e ∈ s.ev.mgmt ∧ (∀ x ∈ s.ev.mgmt, e.prio ≤ x.prio) ∧
      t.ev.mgmt = s.ev.mgmt.erase e ∧ t.ev.log.getLast? = some (s.ev.nextLog, s.time, { e with poison := e.poison || !tagIntact e.bits w }) ∧
      t.ev.nextLog = (s.ev.nextLog + 1) % 0xFFFFFFFF ∧ (s.ev.log.length < 1024 →
        t.ev.log = s.ev.log ++ [(s.ev.nextLog, s.time, { e with poison := e.poison || !tagIntact e.bits w })]) ∧ t.ev.host = s.ev.host ∧ t.out = s.out)) ∧
  ∀ s : State,
    (s.ev.log = [] → ∃ t, exec (.eventLogRead 0) s = .next t ∧
      t.out = .dictValue (leBytes 4 0xFFFFFFFF ++ leBytes 28 0) :: s.out ∧ (getFn t 0).logIdx = (getFn s 0).logIdx ∧
      t.ev = s.ev) ∧
    (∀ x, s.ev.log = [x] → x.1 = (getFn s 0).logIdx → x.1 < 0xFFFFFFFF → ∃ t, exec (.eventLogRead 0) s = .next t ∧
      t.out = .dictValue (logBytes x) :: s.out ∧ (getFn t 0).logIdx = (x.1 + 1) % 0xFFFFFFFF ∧ t.ev = s.ev) ∧
    (∀ id, id ≠ 0 → Tab.get? s.staxa.sessions id = none → exec (.eventLogRead id) s = .next s)

/-- A domain reset is noted with its cause until DOMAIN_READY, which reports it, the cipher domain failing when its known-answer tests do; PERST# and a hot reset take the host interface
with its functions and EVQ-H; SYSRST# resets every domain and keeps TIME, PORST# and a supply out of range also restart TIME and
clear the keys (R269, R544-R548, R557, R583, R585). An idle device goes one power state down after the other, draining what is not
on tape before PS2; a wake takes it back to PS0, after the entry under way (R549-R556). Completes: DOMAIN_RESET_WRITE,
DOMAIN_READY, PERST, HOT_RESET, SYSRST, PORST, SUPPLY_MONITOR_TRIP, IDLE_TO_PS1, IDLE_TO_PS2, IDLE_TO_PS3,
POWER_STATE_REQUEST, WAKE, POWER_STATE_REACHED, D3HOT_ENTRY, D0_RETURN. -/
def Obligations.ResetsAndPower : Prop :=
  (∀ (mgmt : Bool) (code : Byte) (s : State), s.lc.state ≠ 4 → domainCode code.toNat = true →
    (mgmt = true ∨ hostDomain code.toNat = true) → (∀ r ∈ s.resets, r.code ≠ code.toNat) →
    (poweredDown s code.toNat = false → ∃ t, exec (.domainResetWrite mgmt code) s = .next t ∧
      ∃ r ∈ t.resets, r.code = code.toNat ∧ r.cause = 5 ∧ r.deferred = false) ∧
    (poweredDown s code.toNat = true → exec (.domainResetWrite mgmt code) s =
      .next { s with resets := s.resets ++ [{ code := code.toNat, cause := 5, deferred := true }] })) ∧
  (∀ (code : Byte) (b : Bool) (s : State), s.dict.queue = [] →
    ((∀ r ∈ s.resets, r.code ≠ code.toNat ∨ r.deferred = true) → exec (.domainReady code b) s = .next s) ∧
    (∀ r, r ∈ s.resets → (∀ x ∈ s.resets, x.code = code.toNat → x = r) → r.code = code.toNat → r.deferred = false →
      r.waits = [] → (code ≠ 5#8 ∨ s.fw.starting = false) → ∃ t, exec (.domainReady code b) s = .next t ∧
        (∀ x ∈ t.resets, x.code ≠ code.toNat) ∧ (code = 2#8 → t.cip.failed = !b) ∧
        Tab.getD t.ev.counts 0x7D0 0 = sat32 (Tab.getD s.ev.counts 0x7D0 0 + 1))) ∧
  (∀ (i : Instr) (cause : Nat) (s : State), (i, cause) ∈ [(Instr.perst, 3), (.hotReset, 4)] →
    (∀ r ∈ s.resets, r.code ≠ 0) → ∃ t, exec i s = .next t ∧ (∃ r ∈ t.resets, r.code = 0 ∧ r.cause = cause) ∧
      t.host.vfEnable = false ∧ t.host.numVfs = 0 ∧ (∀ f, f < 64 → fnExists s f = true → (getFn t f).qps = []) ∧
      t.ev.host = [] ∧ t.ev.lost = 0 ∧ t.time = s.time ∧ t.tce = s.tce ∧ t.flash = s.flash) ∧
  (∀ (n : Nat) (s : State),
    (n < 20 → exec (.sysrst n) s = .next s) ∧
    (20 ≤ n → n < 100 → exec (.sysrst n) s = .next (drew s) ∨ exec (.sysrst n) s = exec (.sysrst 100) (drew s)) ∧
    (100 ≤ n → ∃ t, exec (.sysrst n) s = .next t ∧ t.resets = domainCodes.map (fun c => { code := c, cause := 2 }) ∧
      t.time = s.time ∧ t.streams = [] ∧ t.staxa = { keys := s.staxa.keys } ∧ t.fw.staged = [] ∧ t.pwr.now = 0 ∧
      t.fw.floor = s.fw.floor ∧ t.lc.row.toNat ≥ s.lc.row.toNat) ∧
    (10000 ≤ n → ∃ t, exec (.porst n) s = .next t ∧ t.resets = domainCodes.map (fun c => { code := c, cause := 1 }) ∧
      t.time = 0#64 ∧ t.streams = [] ∧ t.staxa = {} ∧ t.cip.slots = [] ∧ t.cip.keks = [] ∧ t.fw.staged = [] ∧
      t.pwr.now = 0 ∧ t.fw.floor = s.fw.floor ∧ (t.cart.state = if s.tce.cartHigh then .empty else .present)) ∧
    (∀ r : Rail, r ≠ .vfl → exec (.supplyMonitorTrip r) s = exec (.porst 10000) s) ∧
    exec (.supplyMonitorTrip .vfl) s = .next s) ∧
  (∀ s : State, idle s = true → s.pwr.goal = none →
    (s.pwr.now = 0 → 1 ≤ powerMax s → timersOn s 1 = true →
      exec .idleToPs1 s = .next { s with pwr := { s.pwr with goal := some 1 } }) ∧
    (s.pwr.now = 1 → 2 ≤ powerMax s → timersOn s 2 = true →
      (bytesHeld s = false → exec .idleToPs2 s = .next { s with pwr := { s.pwr with goal := some 2 } }) ∧
      (bytesHeld s = true → exec .idleToPs2 s = .next (settle { s with
        pwr := { s.pwr with drain := some s.host.fetchSeq, goal := some 0, request := none } }))) ∧
    (s.pwr.now = 2 → 3 ≤ powerMax s → timersOn s 3 = true →
      exec .idleToPs3 s = .next { s with pwr := { s.pwr with goal := some 3 } }) ∧
    (s.pwr.request = none → (timersOn s 1 = false → exec .idleToPs1 s = .next s) ∧
      (timersOn s 2 = false → exec .idleToPs2 s = .next s) ∧ (timersOn s 3 = false → exec .idleToPs3 s = .next s)) ∧
    (s.pwr.now = 0 → 1 ≤ powerMax s → exec (.powerStateRequest 1#8) s =
      .next { s with pwr := { s.pwr with request := some 1, goal := some 1 } })) ∧
  (∀ s : State,
    (s.pwr.goal = none → s.pwr.now ≠ 0 →
      exec .wake s = .next { s with pwr := { s.pwr with goal := some 0, request := none } } ∧
      exec (.powerStateRequest 0#8) s = .next { s with pwr := { s.pwr with goal := some 0, request := none } }) ∧
    (∀ g, s.pwr.goal = some g → g ≠ 0 → exec .wake s = .next { s with
      pwr := { s.pwr with wake := true, request := none } }) ∧
    (s.pwr.goal = none → s.pwr.now = 0 → exec .wake s = .next s)) ∧
  (∀ (g : Nat) (s : State), s.pwr.goal = some g → s.pwr.wake = false → s.pwr.request = none → g ≠ 0 →
    ∃ t, exec .powerStateReached s = .next t ∧ t.pwr.now = g ∧ t.pwr.goal = none ∧
      Tab.getD t.ev.counts 0x7D1 0 = sat32 (Tab.getD s.ev.counts 0x7D1 0 + 1) ∧ t.streams = s.streams ∧ t.cart = s.cart) ∧
  ∀ s : State,
    (∃ t, exec .d3hotEntry s = .next t ∧ t.host.d3hot = true) ∧
    (powerMax s = 0 → exec .d3hotEntry s = .next { s with host := { s.host with d3hot := true } }) ∧
    (s.pwr.goal = none → s.pwr.now ≠ 0 → exec .d0Return s = .next { s with
      host := { s.host with d3hot := false }, pwr := { s.pwr with goal := some 0, request := none } }) ∧
    (s.pwr.goal = none → s.pwr.now = 0 → exec .d0Return s = .next { s with
      host := { s.host with d3hot := false }, pwr := { s.pwr with request := none } })

/-- A challenge is drawn by a read and ends with its time; a token that fails a check spends the challenge and blows nothing,
one that passes starts its transition; the fuse read back as blown ends the transition in the state that the row reads. JTAG
instructions that are closed decode as BYPASS, and the debug UART ignores bytes while debug is closed (R560, R562, R564,
R567-R571). Completes: LC_CHALLENGE_READ, LC_CHALLENGE_EXPIRY, LC_REQUEST, LC_FUSE_PROGRAMMED, JTAG_INSTRUCTION,
UART_RX_BYTE. -/
def Obligations.LifeCycleMovesByTokens : Prop :=
  (∀ s : State,
    (s.lc.state = 4 → exec .lcChallengeRead s = .next s) ∧
    (s.lc.state ≠ 4 → ∃ t c, exec .lcChallengeRead s = .next t ∧ t.lc = { s.lc with challenge := some c } ∧
      t.out = .dictValue (beBytes 32 c.toNat) :: s.out ∧ t.ev = s.ev) ∧
    exec .lcChallengeExpiry s = .next { s with lc := { s.lc with challenge := none } }) ∧
  (∀ (p : Fin 4) (token : List Byte) (s : State), s.lc.state ≠ 4 → token.length = 116 →
    (∀ f, tokenFault s (principalBits p) token = some f → ∃ t, exec (.lcRequest p token) s = .next t ∧
      t.lc = { s.lc with challenge := none } ∧
      Tab.getD t.ev.counts 0x781 0 = sat32 (Tab.getD s.ev.counts 0x781 0 + 1) ∧ t.cip = s.cip ∧ t.staxa = s.staxa) ∧
    (tokenFault s (principalBits p) token = none →
      let target := leNat (token.take 1)
      ∃ t j, exec (.lcRequest p token) s = .next t ∧ t.lc.job = some j ∧ t.lc.challenge = none ∧ t.lc.row = s.lc.row ∧
        t.lc.state = s.lc.state ∧ j.target = target ∧ j.tries = 0 ∧
        j.triple = (if target = 4 then none else some (lcCount s.lc.row)) ∧
        ((target = 4 ∨ s.lc.state = 2) → t.cip.slots = [] ∧ t.cip.keks = [] ∧ t.cip.transport = none ∧ t.staxa.keys = []) ∧
        (target ≠ 4 → s.lc.state ≠ 2 → t.cip = s.cip ∧ t.staxa = s.staxa))) ∧
  (∀ (j : LcJob) (s : State), s.lc.job = some j → j.src = .row → s.dict.queue = [] →
    (∃ t, exec (.lcFuseProgrammed true) s = .next t ∧ t.lc.row = blowTriple s.lc.row (j.triple.getD 12) ∧
      t.lc.state = rowState t.lc.row ∧ t.lc.job = none ∧ t.staxa.sessions = [] ∧
      Tab.getD t.ev.counts 0x780 0 = sat32 (Tab.getD s.ev.counts 0x780 0 + 1)) ∧
    (j.tries < 3 → exec (.lcFuseProgrammed false) s = .next { s with
      lc := { s.lc with job := some { j with tries := j.tries + 1 } } }) ∧
    (3 ≤ j.tries → exec (.lcFuseProgrammed false) s = .next { s with lc := { s.lc with job := none } })) ∧
  (∀ (i : JtagInstr) (s : State),
    (jtagOpen s i = true → ∃ t, exec (.jtagInstruction i) s = .next t ∧ t.lc.jtag = i ∧
      ((jtagPlovnor i = false ∨ s.lc.jtagUsed = true) → t.ev = s.ev) ∧
      (jtagPlovnor i = true → t.lc.jtagUsed = true ∧ (s.lc.jtagUsed = false →
        Tab.getD t.ev.counts 0x785 0 = sat32 (Tab.getD s.ev.counts 0x785 0 + 1)))) ∧
    (jtagOpen s i = false → exec (.jtagInstruction i) s = .next { s with lc := { s.lc with jtag := .bypass } })) ∧
  ∀ (b : Byte) (s : State),
    (debugOpen s = false → exec (.uartRxByte b) s = .next s) ∧
    (debugOpen s = true → ∃ t o, exec (.uartRxByte b) s = .next t ∧ t.lc.uartUsed = true ∧ t.out = o ++ .debug b.toNat :: s.out ∧
      (s.lc.uartUsed = false → Tab.getD t.ev.counts 0x785 0 = sat32 (Tab.getD s.ev.counts 0x785 0 + 1)) ∧
      (s.lc.uartUsed = true → t.ev = s.ev))

/-! ## Reset, and what is left alone -/

/-- The reset values that the manual gives: TIME 0, every function disabled, not ready, without a fatal error, no queue pairs,
commands or held completions, EVQ-H and EVQ-M empty with nothing lost and not armed, the cartridge EMPTY, no stream open, no
key slot in use, every channel ACTIVE, TlcsState IDLE, TceState OFF without faults, PS0, an unblown fuse row in BLANK; and the
bounds of the event queues hold (R31, R45, R46, R401, R404, R467, R468, R538, R549, R560). That no cartridge is in is the
model's choice of the pin's level at reset (assumption 10). -/
def Obligations.ResetValues : Prop :=
  let s := State.reset
  s.pending = [] ∧ s.time = 0#64 ∧ s.host.cmds = [] ∧ s.streams = [] ∧ s.cip.slots = [] ∧ s.cart.state = .empty ∧
  (∀ f, f < 64 → (getFn s f).enable = false ∧ (getFn s f).ready = false ∧ (getFn s f).fatal = false ∧
    (getFn s f).shutdown = false ∧ (getFn s f).shutdownDone = false ∧ (getFn s f).asqBase = 0#64 ∧
    (getFn s f).acqBase = 0#64 ∧ (getFn s f).qps = []) ∧
  s.ev.host = [] ∧ s.ev.mgmt = [] ∧ s.ev.lost = 0 ∧ s.ev.armed = false ∧ s.ev.entryValid = false ∧
  (∀ p, p < 128 → (getChan s p).failed = false) ∧ s.tlcs.state = .idle ∧ s.tlcs.valid = [] ∧ s.tce.state = .off ∧
  s.tce.faults = 0#32 ∧ s.pwr.now = 0 ∧ s.lc.row = 0#40 ∧ s.lc.state = 0 ∧ s.resets = [] ∧ EventsBounded s

/-- What rows leave alone. The host's data commands change nothing of the clock, the transport, the dictionary, Staxa, flash,
firmware, life cycle, domain resets and health, but that a command whose completion ends ACTIVATING ends it (R7, R94, R103). The rows of flash, of the event registers, of the port's own
addresses and of the debug ports change nothing of the cartridge, its streams and index, the data path, the security store,
the channels, the clock, the transport, the dictionary, the fuse row, the power state and TIME (R502, R536, R493, R562). -/
def Obligations.UnitsLeaveOthersAlone : Prop :=
  (∀ (slot : SlotId) (n : Nat) (words : List EccWord) (s t : State), ∀ i ∈ [Instr.write slot, .read slot words, .readRaw slot words, .flush slot,
      .streamCreate slot, .streamOpen slot words, .streamClose slot, .getLog slot, .intakeDataArrival slot n, .throttleRelease],
    exec i s = .next t → t.time = s.time ∧ t.tlcs = s.tlcs ∧ t.tce = s.tce ∧ t.dict = s.dict ∧ t.staxa = s.staxa ∧
      t.flash = s.flash ∧ (t.fw = s.fw ∨ t.fw = { s.fw with activate := none }) ∧ t.lc = s.lc ∧ t.resets = s.resets ∧ t.health = s.health) ∧
  ∀ (desc : BitVec 256) (w : BitVec 4) (b : Bool) (e : List (List Nat)) (m : List Byte) (core : Fin 4) (blk : Fin 2048) (pg : Fin 64)
    (v4 : BitVec 32) (v6 : BitVec 128) (j : JtagInstr) (x : Byte) (s t : State),
    ∀ i ∈ [Instr.flashRead desc, .flashProgram desc, .flashErase desc, .flashDiagDescriptor desc, .flashReadDone e m,
        .flashProgramDone b, .flashEraseDone b, .eraseSuspend, .eraseResume, .fetchMiss core blk pg, .vflBrownout,
        .brownoutRelease, .evqPop w, .evqLostClear, .evqArm, .eventLogCopy w, .eventLogRead 0, .arpRequest v4, .icmpEcho b v6 m,
        .neighborDiscovery v6, .jtagInstruction j, .uartRxByte x],
    exec i s = .next t → t.cart = s.cart ∧ t.streams = s.streams ∧ t.index = s.index ∧ t.pack = s.pack ∧ t.wr = s.wr ∧
      t.rd = s.rd ∧ t.bpm = s.bpm ∧ t.dram = s.dram ∧ t.cip = s.cip ∧ t.chans = s.chans ∧ t.tlcs = s.tlcs ∧ t.tce = s.tce ∧
      t.dict = s.dict ∧ t.host.cmds = s.host.cmds ∧ t.lc.row = s.lc.row ∧ t.lc.state = s.lc.state ∧ t.pwr = s.pwr ∧
      t.time = s.time ∧ t.fw = s.fw ∧ t.resets = s.resets
end

