-- ==== Sys2Proof/Laws/Calm.lean ====
section
/-! SUPPORT. What no operation of the block does, as one relation between the state before and after: touch the command
queue, un-blow a fuse, lower the firmware security floor, or grow an event queue or the event log beyond its depth. Each
shared operation has one lemma `<name>_calm`, and each command one, in the files beside this one. -/

namespace Sys2Proof.Machine

/-- `t` follows from `s` with the queue as it was, every blown fuse blown, the floor not lowered (R528, R560), and the
event queues and the log within their depths (R31, R541). -/
structure Calm (s t : State) : Prop where
  pending : t.pending = s.pending
  fuses : ∀ i, s.lc.row.getLsbD i = true → t.lc.row.getLsbD i = true
  floor : s.fw.floor ≤ t.fw.floor
  evHost : s.ev.host.length ≤ 2048 → t.ev.host.length ≤ 2048
  evMgmt : s.ev.mgmt.length ≤ 512 → t.ev.mgmt.length ≤ 512
  evLog : s.ev.log.length ≤ 1024 → t.ev.log.length ≤ 1024

theorem Calm.refl (s : State) : Calm s s := ⟨rfl, fun _ h => h, Nat.le_refl _, id, id, id⟩

/-- A change of none of the fields that `Calm` speaks of. -/
theorem Calm.upd {s0 s t : State} (h : Calm s0 s) (hp : t.pending = s.pending) (hr : t.lc.row = s.lc.row)
    (hf : t.fw.floor = s.fw.floor) (hh : t.ev.host = s.ev.host) (hm : t.ev.mgmt = s.ev.mgmt) (hl : t.ev.log = s.ev.log) :
    Calm s0 t :=
  ⟨hp.trans h.pending, hr ▸ h.fuses, hf ▸ h.floor, hh ▸ h.evHost, hm ▸ h.evMgmt, hl ▸ h.evLog⟩

/-- The same where the floor rises. -/
theorem Calm.raiseFloor {s0 s t : State} (h : Calm s0 s) (hp : t.pending = s.pending) (hr : t.lc.row = s.lc.row)
    (hf : s.fw.floor ≤ t.fw.floor) (hh : t.ev.host = s.ev.host) (hm : t.ev.mgmt = s.ev.mgmt) (hl : t.ev.log = s.ev.log) :
    Calm s0 t :=
  ⟨hp.trans h.pending, hr ▸ h.fuses, Nat.le_trans h.floor hf, hh ▸ h.evHost, hm ▸ h.evMgmt, hl ▸ h.evLog⟩

/-- The same where fuses are blown. -/
theorem Calm.blow {s0 s t : State} (h : Calm s0 s) (hp : t.pending = s.pending)
    (hr : ∀ i, s.lc.row.getLsbD i = true → t.lc.row.getLsbD i = true)
    (hf : t.fw.floor = s.fw.floor) (hh : t.ev.host = s.ev.host) (hm : t.ev.mgmt = s.ev.mgmt) (hl : t.ev.log = s.ev.log) :
    Calm s0 t :=
  ⟨hp.trans h.pending, fun i q => hr i (h.fuses i q), hf ▸ h.floor, hh ▸ h.evHost, hm ▸ h.evMgmt, hl ▸ h.evLog⟩

/-- The same where an event queue or the log does not grow. -/
theorem Calm.shrink {s0 s t : State} (h : Calm s0 s) (hp : t.pending = s.pending) (hr : t.lc.row = s.lc.row)
    (hf : t.fw.floor = s.fw.floor) (hh : t.ev.host.length ≤ s.ev.host.length) (hm : t.ev.mgmt.length ≤ s.ev.mgmt.length)
    (hl : t.ev.log.length ≤ s.ev.log.length) : Calm s0 t :=
  ⟨hp.trans h.pending, hr ▸ h.fuses, hf ▸ h.floor, fun q => Nat.le_trans hh (h.evHost q),
    fun q => Nat.le_trans hm (h.evMgmt q), fun q => Nat.le_trans hl (h.evLog q)⟩

theorem Calm.ite {s0 : State} {p : Prop} [Decidable p] {a b : State} (ha : Calm s0 a) (hb : Calm s0 b) :
    Calm s0 (if p then a else b) := by
  split
  · exact ha
  · exact hb

theorem Calm.ite_fst {α : Type} {s0 : State} {p : Prop} [Decidable p] {a b : State × α} (ha : Calm s0 a.1) (hb : Calm s0 b.1) :
    Calm s0 (if p then a else b).1 := by
  split
  · exact ha
  · exact hb

theorem Calm.ite_snd {α : Type} {s0 : State} {p : Prop} [Decidable p] {a b : α × State} (ha : Calm s0 a.2) (hb : Calm s0 b.2) :
    Calm s0 (if p then a else b).2 := by
  split
  · exact ha
  · exact hb

theorem Calm.foldl {α : Type} {s0 : State} {f : State → α → State} {l : List α} {s : State} (h : Calm s0 s)
    (hf : ∀ t a, Calm s0 t → Calm s0 (f t a)) : Calm s0 (l.foldl f s) := by
  induction l generalizing s with
  | nil => exact h
  | cons a l ih => exact ih (hf s a h)

/-- A fold that carries the state beside something else, the state first. -/
theorem Calm.foldl_fst {α β : Type} {s0 : State} {f : State × β → α → State × β} {l : List α} {p : State × β}
    (h : Calm s0 p.1) (hf : ∀ q a, Calm s0 q.1 → Calm s0 (f q a).1) : Calm s0 (l.foldl f p).1 := by
  induction l generalizing p with
  | nil => exact h
  | cons a l ih => exact ih (hf p a h)

/-- The same with the state second. -/
theorem Calm.foldl_snd {α β : Type} {s0 : State} {f : β × State → α → β × State} {l : List α} {p : β × State}
    (h : Calm s0 p.2) (hf : ∀ q a, Calm s0 q.2 → Calm s0 (f q a).2) : Calm s0 (l.foldl f p).2 := by
  induction l generalizing p with
  | nil => exact h
  | cons a l ih => exact ih (hf p a h)

end Sys2Proof.Machine
end

