-- ==== Sys2Proof/Laws/CalmOps.lean ====
section
/-! SUPPORT. The operations of Machine/Ops.lean keep what `Calm` says. -/

namespace Sys2Proof.Machine

theorem emit_calm {s0 s : State} (h : Calm s0 s) (a0) : Calm s0 (emit a0 s) := by
  unfold emit
  exact (Calm.upd h rfl rfl rfl rfl rfl rfl)

theorem emits_calm {s0 s : State} (h : Calm s0 s) (a0) : Calm s0 (emits a0 s) := by
  unfold emits
  exact (Calm.upd h rfl rfl rfl rfl rfl rfl)

theorem drew_calm {s0 s : State} (h : Calm s0 s) : Calm s0 (drew s) := by
  unfold drew
  exact (Calm.upd h rfl rfl rfl rfl rfl rfl)

theorem recordNumOf_calm {s0 s : State} (h : Calm s0 s) (a0) : Calm s0 (recordNumOf a0 s).2 := by
  unfold recordNumOf
  split
  · exact h
  · exact drew_calm h

theorem setFn_calm {s0 s : State} (h : Calm s0 s) (a0 a1) : Calm s0 (setFn a0 a1 s) := by
  unfold setFn
  extract_lets -underBinder -merge y0
  exact (Calm.upd h rfl rfl rfl rfl rfl rfl)

theorem updFn_calm {s0 s : State} (h : Calm s0 s) (a0 a1) : Calm s0 (updFn a0 a1 s) := by
  unfold updFn
  exact (setFn_calm h ..)

theorem setQp_calm {s0 s : State} (h : Calm s0 s) (a0 a1 a2) : Calm s0 (setQp a0 a1 a2 s) := by
  unfold setQp
  exact (updFn_calm h ..)

theorem updQp_calm {s0 s : State} (h : Calm s0 s) (a0 a1 a2) : Calm s0 (updQp a0 a1 a2 s) := by
  unfold updQp
  split
  · exact (setQp_calm h ..)
  · exact h

theorem sendMsix_calm {s0 s : State} (h : Calm s0 s) (a0 a1) : Calm s0 (sendMsix a0 a1 s) := by
  unfold sendMsix
  extract_lets -underBinder -merge y0
  refine Calm.ite ?_ ?_
  · exact (updFn_calm h ..)
  · exact (emit_calm h ..)

theorem evPush_length (d : Nat) (q : List EvEntry) (e : EvEntry) (hd : 0 < d) (h : q.length ≤ d) :
    (evPush d q e).1.length ≤ d := by
  unfold evPush
  split <;> simp <;> omega

@[simp] theorem lostHost_host (b : Bool) (v : Ev) : (lostHost b v).host = v.host := by unfold lostHost; split <;> rfl
@[simp] theorem lostHost_mgmt (b : Bool) (v : Ev) : (lostHost b v).mgmt = v.mgmt := by unfold lostHost; split <;> rfl
@[simp] theorem lostHost_log (b : Bool) (v : Ev) : (lostHost b v).log = v.log := by unfold lostHost; split <;> rfl
@[simp] theorem lostMgmt_host (b : Bool) (v : Ev) : (lostMgmt b v).host = v.host := by unfold lostMgmt; split <;> rfl
@[simp] theorem lostMgmt_mgmt (b : Bool) (v : Ev) : (lostMgmt b v).mgmt = v.mgmt := by unfold lostMgmt; split <;> rfl
@[simp] theorem lostMgmt_log (b : Bool) (v : Ev) : (lostMgmt b v).log = v.log := by unfold lostMgmt; split <;> rfl

theorem toHost_calm {s0 s : State} (h : Calm s0 s) (e) : Calm s0 (toHost e s) := by
  unfold toHost
  extract_lets -underBinder -merge p armed ev0 t
  have ht : Calm s0 t :=
    ⟨h.pending, h.fuses, h.floor,
      fun q => by
        show (lostHost _ _).host.length ≤ 2048
        rw [lostHost_host]
        exact evPush_length 2048 _ _ (by decide) (h.evHost q),
      fun q => by
        show (lostHost _ _).mgmt.length ≤ 512
        rw [lostHost_mgmt]
        exact h.evMgmt q,
      fun q => by
        show (lostHost _ _).log.length ≤ 1024
        rw [lostHost_log]
        exact h.evLog q⟩
  exact Calm.ite (sendMsix_calm ht ..) ht

theorem toMgmt_calm {s0 s : State} (h : Calm s0 s) (e) : Calm s0 (toMgmt e s) :=
  ⟨h.pending, h.fuses, h.floor,
    fun q => by
      show (lostMgmt _ _).host.length ≤ 2048
      rw [lostMgmt_host]
      exact h.evHost q,
    fun q => by
      show (lostMgmt _ _).mgmt.length ≤ 512
      rw [lostMgmt_mgmt]
      exact evPush_length 512 _ _ (by decide) (h.evMgmt q),
    fun q => by
      show (lostMgmt _ _).log.length ≤ 1024
      rw [lostMgmt_log]
      exact h.evLog q⟩

theorem raise_calm {s0 s : State} (h : Calm s0 s) (a0 a1) : Calm s0 (raise a0 a1 s) := by
  unfold raise
  extract_lets -underBinder -merge y0 y1 y2 y3 y4
  have hy3 : Calm s0 y3 := (Calm.upd h rfl rfl rfl rfl rfl rfl)
  have hy4 : Calm s0 y4 := by
    refine Calm.ite ?_ ?_
    · exact (toHost_calm hy3 ..)
    · exact hy3
  try clear_value y4
  try clear_value y3
  refine Calm.ite ?_ ?_
  · exact (toMgmt_calm hy4 ..)
  · exact hy4

theorem takeEqTarget_calm {s0 s : State} (h : Calm s0 s) : Calm s0 (takeEqTarget s) := by
  unfold takeEqTarget
  extract_lets -underBinder -merge y0
  exact (Calm.upd h rfl rfl rfl rfl rfl rfl)

theorem raiseIf_calm {s0 s : State} (h : Calm s0 s) (a0 a1 a2) : Calm s0 (raiseIf a0 a1 a2 s) := by
  unfold raiseIf
  refine Calm.ite ?_ ?_
  · exact (raise_calm h ..)
  · exact h

theorem setCmd_calm {s0 s : State} (h : Calm s0 s) (a0 a1) : Calm s0 (setCmd a0 a1 s) := by
  unfold setCmd
  extract_lets -underBinder -merge y0
  exact (Calm.upd h rfl rfl rfl rfl rfl rfl)

theorem updCmd_calm {s0 s : State} (h : Calm s0 s) (a0 a1) : Calm s0 (updCmd a0 a1 s) := by
  unfold updCmd
  split
  · exact (setCmd_calm h ..)
  · exact h

theorem setStage_calm {s0 s : State} (h : Calm s0 s) (a0 a1) : Calm s0 (setStage a0 a1 s) := by
  unfold setStage
  exact (updCmd_calm h ..)

theorem shutdownCheck_calm {s0 s : State} (h : Calm s0 s) (a0) : Calm s0 (shutdownCheck a0 s) := by
  unfold shutdownCheck
  extract_lets -underBinder -merge y0
  refine Calm.ite ?_ ?_
  · exact (updFn_calm h ..)
  · exact h

theorem updStream_calm {s0 s : State} (h : Calm s0 s) (a0 a1) : Calm s0 (updStream a0 a1 s) := by
  unfold updStream
  exact (Calm.upd h rfl rfl rfl rfl rfl rfl)

theorem updKey_calm {s0 s : State} (h : Calm s0 s) (a0 a1) : Calm s0 (updKey a0 a1 s) := by
  unfold updKey
  extract_lets -underBinder -merge y0
  exact (Calm.upd h rfl rfl rfl rfl rfl rfl)

theorem bindKey_calm {s0 s : State} (h : Calm s0 s) (a0) : Calm s0 (bindKey a0 s) := by
  unfold bindKey
  exact (updKey_calm h ..)

theorem unbindKey_calm {s0 s : State} (h : Calm s0 s) (a0) : Calm s0 (unbindKey a0 s) := by
  unfold unbindKey
  exact (updKey_calm h ..)

theorem enterCart_calm {s0 s : State} (h : Calm s0 s) (a0) : Calm s0 (enterCart a0 s) := by
  unfold enterCart
  extract_lets -underBinder -merge y0 y1 y2
  refine Calm.ite ?_ ?_
  · exact (Calm.upd h rfl rfl rfl rfl rfl rfl)
  · refine Calm.ite ?_ ?_
    · exact (Calm.upd h rfl rfl rfl rfl rfl rfl)
    · exact (Calm.upd h rfl rfl rfl rfl rfl rfl)

theorem endFormat_calm {s0 s : State} (h : Calm s0 s) (a0) : Calm s0 (endFormat a0 s) := by
  unfold endFormat
  extract_lets -underBinder -merge y0 y1 y2
  have hy2 : Calm s0 y2 := (Calm.upd h rfl rfl rfl rfl rfl rfl)
  try clear_value y2
  split
  · exact hy2
  · refine Calm.ite ?_ ?_
    · exact (enterCart_calm hy2 ..)
    · exact hy2
  · refine Calm.ite ?_ ?_
    · exact (enterCart_calm hy2 ..)
    · exact hy2

theorem PostAct.apply_calm {s0 s : State} (h : Calm s0 s) (a0) : Calm s0 (PostAct.apply a0 s) := by
  unfold PostAct.apply
  split
  · refine Calm.ite ?_ ?_
    · exact (enterCart_calm h ..)
    · exact h
  · exact (endFormat_calm h ..)
  · refine updStream_calm ?_ ..
    exact (Calm.upd h rfl rfl rfl rfl rfl rfl)
  · extract_lets -underBinder -merge y0
    exact (Calm.upd h rfl rfl rfl rfl rfl rfl)
  · exact (updQp_calm h ..)
  · exact (updStream_calm h ..)
  · extract_lets -underBinder -merge y1 y2
    have hy2 : Calm s0 y2 := (updStream_calm h ..)
    try clear_value y2
    split
    · refine Calm.ite ?_ ?_
      · exact (unbindKey_calm hy2 ..)
      · exact hy2
    · exact hy2

theorem onPost_calm {s0 s : State} (h : Calm s0 s) (a0 a1) : Calm s0 (onPost a0 a1 s) := by
  unfold onPost
  exact (updCmd_calm h ..)

theorem retireMarks_calm {s0 s : State} (h : Calm s0 s) (a0) : Calm s0 (retireMarks a0 s) := by
  unfold retireMarks
  extract_lets -underBinder -merge y0 y1 y2
  exact (Calm.upd h rfl rfl rfl rfl rfl rfl)

theorem retireOwn_calm {s0 s : State} (h : Calm s0 s) (a0) : Calm s0 (retireOwn a0 s) := by
  unfold retireOwn
  refine Calm.ite ?_ ?_
  · exact (updStream_calm h ..)
  · exact h

theorem dropCmd_calm {s0 s : State} (h : Calm s0 s) (a0) : Calm s0 (dropCmd a0 s) := by
  unfold dropCmd
  split
  · exact h
  · extract_lets -underBinder -merge y0 y1
    have hy1 : Calm s0 y1 := by
      refine Calm.foldl ?_ (fun y2 a hy2 => ?_)
      · exact (Calm.upd h rfl rfl rfl rfl rfl rfl)
      · beta_reduce
        exact (PostAct.apply_calm hy2 ..)
    try clear_value y1
    refine shutdownCheck_calm ?_ ..
    refine Calm.ite ?_ ?_
    · exact (retireOwn_calm hy1 ..)
    · exact hy1

theorem agentTag_calm {s0 s : State} (h : Calm s0 s) (a0) : Calm s0 (agentTag a0 s).2 := by
  unfold agentTag
  extract_lets -underBinder -merge y0
  exact (Calm.upd h rfl rfl rfl rfl rfl rfl)

theorem retag_calm {s0 s : State} (h : Calm s0 s) (a0 a1) : Calm s0 (retag a0 a1 s) := by
  unfold retag
  refine Calm.ite ?_ ?_
  · exact h
  · exact (updCmd_calm h ..)

theorem issueCpl_calm {s0 s : State} (h : Calm s0 s) (a0 a1 a2) : Calm s0 (issueCpl a0 a1 a2 s) := by
  unfold issueCpl
  split
  · exact h
  · extract_lets -underBinder -merge y0 y1
    split
    · extract_lets -underBinder -merge y2 y3
      have hy2 : Calm s0 y2 := (emit_calm (setQp_calm h ..) ..)
      have hy3 : Calm s0 y3 := by
        refine Calm.ite ?_ ?_
        · exact (sendMsix_calm hy2 ..)
        · exact hy2
      try clear_value y3
      try clear_value y2
      split
      · exact (dropCmd_calm hy3 ..)
      · exact hy3

theorem drainHeld_calm {s0 s : State} (h : Calm s0 s) (f q n) : Calm s0 (drainHeld f q n s) := by
  induction n generalizing s with
  | zero => exact h
  | succ n ih =>
    unfold drainHeld
    split
    · exact h
    · split
      · exact h
      · refine Calm.ite h ?_
        exact ih (issueCpl_calm (setQp_calm h ..) ..)

theorem postCpl_calm {s0 s : State} (h : Calm s0 s) (a0 a1 a2) : Calm s0 (postCpl a0 a1 a2 s) := by
  unfold postCpl
  split
  · exact h
  · extract_lets -underBinder -merge y0
    have hy0 : Calm s0 y0 := (setQp_calm h ..)
    try clear_value y0
    refine Calm.ite ?_ ?_
    · exact (issueCpl_calm h ..)
    · split
      · exact (setStage_calm hy0 ..)
      · exact hy0

theorem complete_calm {s0 s : State} (h : Calm s0 s) (a0 a1 a2) : Calm s0 (complete a0 a1 a2 s) := by
  unfold complete
  split
  · exact h
  · refine Calm.ite ?_ ?_
    · exact h
    · refine Calm.ite ?_ ?_
      · exact (dropCmd_calm h ..)
      · split
        · exact (dropCmd_calm h ..)
        · extract_lets -underBinder -merge y0 y1 y2
          refine Calm.ite ?_ ?_
          · exact (dropCmd_calm h ..)
          · exact (postCpl_calm (setQp_calm h ..) ..)

theorem toHostMem_calm {s0 s : State} (h : Calm s0 s) (a0 a1 a2) : Calm s0 (toHostMem a0 a1 a2 s) := by
  unfold toHostMem
  split
  · exact h
  · refine Calm.ite ?_ ?_
    · exact h
    · exact (emit_calm h ..)

theorem finish_calm {s0 s : State} (h : Calm s0 s) (a0 a1 a2) : Calm s0 (finish a0 a1 a2 s) := by
  unfold finish
  exact (complete_calm h ..)

theorem finishWith_calm {s0 s : State} (h : Calm s0 s) (a0 a1 a2 a3) : Calm s0 (finishWith a0 a1 a2 a3 s) := by
  unfold finishWith
  exact (complete_calm h ..)

theorem noteInfo_calm {s0 s : State} (h : Calm s0 s) (a0 a1) : Calm s0 (noteInfo a0 a1 s) := by
  unfold noteInfo
  exact (updCmd_calm h ..)

end Sys2Proof.Machine
end

