-- ==== Sys2Proof/Laws/CalmOperands.lean ====
section
/-! SUPPORT. The operations of Machine/Operands.lean keep what `Calm` says. -/

namespace Sys2Proof.Machine

theorem fetchMarks_calm {s0 s : State} (h : Calm s0 s) (a0 a1 a2) : Calm s0 (fetchMarks a0 a1 a2 s) := by
  unfold fetchMarks
  extract_lets -underBinder -merge y0 y1 y2 y3 y4 y5
  have hy5 : Calm s0 y5 := (updStream_calm h ..)
  try clear_value y5
  refine Calm.ite ?_ ?_
  · exact (updQp_calm h ..)
  · refine Calm.ite ?_ ?_
    · exact (updKey_calm h ..)
    · refine Calm.ite ?_ ?_
      · exact (Calm.upd h rfl rfl rfl rfl rfl rfl)
      · refine Calm.ite ?_ ?_
        · exact (Calm.upd h rfl rfl rfl rfl rfl rfl)
        · refine Calm.ite ?_ ?_
          · exact (Calm.upd h rfl rfl rfl rfl rfl rfl)
          · refine Calm.ite ?_ ?_
            · exact (Calm.upd h rfl rfl rfl rfl rfl rfl)
            · refine Calm.ite ?_ ?_
              · exact (Calm.upd h rfl rfl rfl rfl rfl rfl)
              · refine Calm.ite ?_ ?_
                · refine Calm.ite ?_ ?_
                  · exact (bindKey_calm hy5 ..)
                  · exact hy5
                · refine Calm.ite ?_ ?_
                  · exact (updStream_calm h ..)
                  · exact h

theorem fetchOne_calm {s0 s : State} (h : Calm s0 s) (a0 a1 a2 a3 a4) : Calm s0 (fetchOne a0 a1 a2 a3 a4 s) := by
  unfold fetchOne
  extract_lets -underBinder -merge y0 y1 y2
  have hy2 : Calm s0 y2 := by
    refine Calm.ite ?_ ?_
    · exact (fetchMarks_calm h ..)
    · exact h
  try clear_value y2
  exact (updQp_calm hy2 ..)

theorem setLoop_calm {s0 s : State} (h : Calm s0 s) (a0 a1) : Calm s0 (setLoop a0 a1 s) := by
  unfold setLoop
  extract_lets -underBinder -merge y0
  exact (Calm.upd h rfl rfl rfl rfl rfl rfl)

theorem retarget_calm {s0 s : State} (h : Calm s0 s) (a0 a1) : Calm s0 (retarget a0 a1 s) := by
  unfold retarget
  extract_lets -underBinder -merge y0
  exact (setLoop_calm h ..)

theorem runTape_calm {s0 s : State} (h : Calm s0 s) (a0 a1) : Calm s0 (runTape a0 a1 s) := by
  unfold runTape
  extract_lets -underBinder -merge y0
  refine Calm.ite ?_ ?_
  · exact h
  · refine retarget_calm ?_ ..
    exact (Calm.upd h rfl rfl rfl rfl rfl rfl)

theorem onCmd_calm {s0 s : State} (h : Calm s0 s) (slot ops) {f : Cmd → State → State}
    (hf : ∀ c t, Calm s0 t → Calm s0 (f c t)) : Calm s0 (onCmd slot ops f s) := by
  unfold onCmd
  split
  · exact h
  · refine Calm.ite ?_ h
    split
    · exact finish_calm h ..
    · exact Calm.ite h (hf _ _ h)

end Sys2Proof.Machine
end

