-- ==== Sys2Proof/Laws/CalmBpm.lean ====
section
/-! SUPPORT. The operations of Machine/Bpm.lean keep what `Calm` says. -/

namespace Sys2Proof.Machine

theorem updPool_calm {s0 s : State} (h : Calm s0 s) (a0 a1) : Calm s0 (updPool a0 a1 s) := by
  unfold updPool
  extract_lets -underBinder -merge y0
  exact (Calm.upd h rfl rfl rfl rfl rfl rfl)

theorem throttle_calm {s0 s : State} (h : Calm s0 s) : Calm s0 (throttle s) := by
  unfold throttle
  extract_lets -underBinder -merge y0
  exact (Calm.upd h rfl rfl rfl rfl rfl rfl)

theorem updAbove_calm {s0 s : State} (h : Calm s0 s) : Calm s0 (updAbove s) := by
  unfold updAbove
  extract_lets -underBinder -merge y0 y1
  refine Calm.ite ?_ ?_
  · refine Calm.ite ?_ ?_
    · exact h
    · refine throttle_calm ?_ ..
      exact (Calm.upd h rfl rfl rfl rfl rfl rfl)
  · refine Calm.ite ?_ ?_
    · exact (Calm.upd h rfl rfl rfl rfl rfl rfl)
    · exact h

theorem takeBuf_calm {s0 s : State} (h : Calm s0 s) (a0 a1) : Calm s0 (takeBuf a0 a1 s).1 := by
  unfold takeBuf
  extract_lets -underBinder -merge y0 y1 y2 y3 y4
  have hy3 : Calm s0 y3 := (Calm.upd h rfl rfl rfl rfl rfl rfl)
  have hy4 : Calm s0 y4 := (updPool_calm hy3 ..)
  try clear_value y4
  try clear_value y3
  exact (updAbove_calm hy4 ..)

theorem answer_calm {s0 s : State} (h : Calm s0 s) (a0 a1 a2 a3) : Calm s0 (answer a0 a1 a2 a3 s) := by
  unfold answer
  extract_lets -underBinder -merge y0
  exact (Calm.upd h rfl rfl rfl rfl rfl rfl)

theorem holdReq_calm {s0 s : State} (h : Calm s0 s) (a0 a1 a2 a3) : Calm s0 (holdReq a0 a1 a2 a3 s).1 := by
  unfold holdReq
  extract_lets -underBinder -merge y0 y1 y2 y3 y4
  have hy2 : Calm s0 y2 := (Calm.upd h rfl rfl rfl rfl rfl rfl)
  have hy3 : Calm s0 y3 := (answer_calm hy2 ..)
  try clear_value y3
  try clear_value y2
  refine Calm.ite_fst ?_ ?_
  · dsimp -zeta only
    refine raise_calm ?_ ..
    exact (Calm.upd hy3 rfl rfl rfl rfl rfl rfl)
  · exact hy3

theorem askBuf_calm {s0 s : State} (h : Calm s0 s) (a0 a1 a2) : Calm s0 (askBuf a0 a1 a2 s).1 := by
  unfold askBuf
  split
  · extract_lets -underBinder -merge y0
    have hy0 : Calm s0 y0.1 := (takeBuf_calm h ..)
    try clear_value y0
    exact (retag_calm (answer_calm hy0 ..) ..)
  · extract_lets -underBinder -merge y1
    have hy1 : Calm s0 y1.1 := (holdReq_calm h ..)
    try clear_value y1
    exact hy1

theorem quarantine_calm {s0 s : State} (h : Calm s0 s) (a0 a1) : Calm s0 (quarantine a0 a1 s) := by
  unfold quarantine
  extract_lets -underBinder -merge y0
  have hy0 : Calm s0 y0 := (updPool_calm h ..)
  try clear_value y0
  exact (raise_calm (updPool_calm hy0 ..) ..)

theorem returnBuf_calm {s0 s : State} (h : Calm s0 s) (a0) : Calm s0 (returnBuf a0 s) := by
  unfold returnBuf
  extract_lets -underBinder -merge y0 y1 y2
  have hy1 : Calm s0 y1 := (Calm.upd h rfl rfl rfl rfl rfl rfl)
  have hy2 : Calm s0 y2 := by
    refine Calm.ite ?_ ?_
    · exact (quarantine_calm hy1 ..)
    · exact hy1
  try clear_value y2
  try clear_value y1
  exact (updAbove_calm hy2 ..)

theorem dropRef_calm {s0 s : State} (h : Calm s0 s) (a0) : Calm s0 (dropRef a0 s) := by
  unfold dropRef
  split
  · exact h
  · extract_lets -underBinder -merge y0
    refine Calm.ite ?_ ?_
    · exact h
    · refine Calm.ite ?_ ?_
      · exact (returnBuf_calm h ..)
      · exact (Calm.upd h rfl rfl rfl rfl rfl rfl)

theorem misuse_calm {s0 s : State} (h : Calm s0 s) (a0 a1 a2 a3 a4) : Calm s0 (misuse a0 a1 a2 a3 a4 s) := by
  unfold misuse
  extract_lets -underBinder -merge y0
  exact (raise_calm (answer_calm h ..) ..)

theorem setCause_calm {s0 s : State} (h : Calm s0 s) (a0) : Calm s0 (setCause a0 s) := by
  unfold setCause
  extract_lets -underBinder -merge y0
  refine Calm.ite ?_ ?_
  · exact h
  · refine raise_calm ?_ ..
    exact (Calm.upd h rfl rfl rfl rfl rfl rfl)

theorem addRef_calm {s0 s : State} (h : Calm s0 s) (a0) : Calm s0 (addRef a0 s) := by
  unfold addRef
  split
  · exact h
  · extract_lets -underBinder -merge y0 y1
    refine Calm.ite ?_ ?_
    · refine raise_calm ?_ ..
      exact (Calm.upd h rfl rfl rfl rfl rfl rfl)
    · exact (Calm.upd h rfl rfl rfl rfl rfl rfl)

theorem freeReq_calm {s0 s : State} (h : Calm s0 s) (a0 a1 a2) : Calm s0 (freeReq a0 a1 a2 s) := by
  unfold freeReq
  split
  · exact (misuse_calm h ..)
  · refine Calm.ite ?_ ?_
    · exact (misuse_calm h ..)
    · exact (dropRef_calm (answer_calm h ..) ..)

theorem refReq_calm {s0 s : State} (h : Calm s0 s) (a0 a1 a2) : Calm s0 (refReq a0 a1 a2 s) := by
  unfold refReq
  split
  · exact (misuse_calm h ..)
  · refine Calm.ite ?_ ?_
    · exact (misuse_calm h ..)
    · exact (addRef_calm (answer_calm h ..) ..)

theorem giveReq_calm {s0 s : State} (h : Calm s0 s) (a0 a1 a2 a3) : Calm s0 (giveReq a0 a1 a2 a3 s) := by
  unfold giveReq
  split
  · exact (misuse_calm h ..)
  · extract_lets -underBinder -merge y0
    refine Calm.ite ?_ ?_
    · exact (misuse_calm h ..)
    · refine retag_calm ?_ ..
      refine answer_calm ?_ ..
      exact (Calm.upd h rfl rfl rfl rfl rfl rfl)

theorem freeOwn_calm {s0 s : State} (h : Calm s0 s) (a0 a1 a2) : Calm s0 (freeOwn a0 a1 a2 s) := by
  unfold freeOwn
  split
  · refine Calm.ite ?_ ?_
    · exact (freeReq_calm h ..)
    · exact h
  · exact h

theorem giveOwn_calm {s0 s : State} (h : Calm s0 s) (a0 a1 a2 a3) : Calm s0 (giveOwn a0 a1 a2 a3 s) := by
  unfold giveOwn
  split
  · refine Calm.ite ?_ ?_
    · exact (giveReq_calm h ..)
    · exact h
  · exact h

theorem refOwn_calm {s0 s : State} (h : Calm s0 s) (a0 a1 a2) : Calm s0 (refOwn a0 a1 a2 s) := by
  unfold refOwn
  split
  · refine Calm.ite ?_ ?_
    · exact (refReq_calm h ..)
    · exact h
  · exact h

theorem freeHeld_calm {s0 s : State} (h : Calm s0 s) (a0 a1) : Calm s0 (freeHeld a0 a1 s) := by
  unfold freeHeld
  split
  · exact (freeReq_calm h ..)
  · exact h

theorem freeOpt_calm {s0 s : State} (h : Calm s0 s) (a0 a1) : Calm s0 (freeOpt a0 a1 s) := by
  unfold freeOpt
  split
  · exact (freeHeld_calm h ..)
  · exact h

theorem BufReq.run_calm {s0 s : State} (h : Calm s0 s) (a0) : Calm s0 (BufReq.run a0 s) := by
  unfold BufReq.run
  split
  · exact (refReq_calm h ..)
  · exact (giveReq_calm h ..)
  · exact (freeReq_calm h ..)

theorem grantHeld_calm {s0 s : State} (h : Calm s0 s) : ∀ r, grantHeld s = some r → Calm s0 r.1 := by
  intro r e
  unfold grantHeld at e
  split at e
  · cases e
  · split at e
    rename_i t id heq
    have ht : Calm s0 (t, id).1 := by
      have q : ∀ a b, Calm s0 (takeBuf a b s).1 := takeBuf_calm h
      have q' := congrArg Prod.fst heq
      exact q' ▸ q _ _
    cases e
    refine retag_calm (answer_calm ?_ ..) ..
    exact Calm.upd ht rfl rfl rfl rfl rfl rfl

theorem quarantineFree_calm {s0 s : State} (h : Calm s0 s) (a0) : Calm s0 (quarantineFree a0 s) := by
  unfold quarantineFree
  refine Calm.foldl ?_ (fun y0 a hy0 => ?_)
  · exact h
  · beta_reduce
    refine Calm.ite ?_ ?_
    · exact (quarantine_calm hy0 ..)
    · exact hy0

theorem listRow_calm {s0 s : State} (h : Calm s0 s) (a0) : Calm s0 (listRow a0 s) := by
  unfold listRow
  extract_lets -underBinder -merge y0 y1
  have hy1 : Calm s0 y1 := (Calm.upd h rfl rfl rfl rfl rfl rfl)
  try clear_value y1
  refine Calm.ite ?_ ?_
  · exact h
  · exact (quarantineFree_calm hy1 ..)

theorem countCe_calm {s0 s : State} (h : Calm s0 s) : Calm s0 (countCe s) := by
  unfold countCe
  extract_lets -underBinder -merge y0 y1 y2 y3 y4
  have hy4 : Calm s0 y4 := (Calm.upd h rfl rfl rfl rfl rfl rfl)
  try clear_value y4
  exact (raiseIf_calm hy4 ..)

theorem corrected_calm {s0 s : State} (h : Calm s0 s) (a0) : Calm s0 (corrected a0 s) := by
  unfold corrected
  extract_lets -underBinder -merge y0 y1 y2 y3 y4
  have hy1 : Calm s0 y1 := (countCe_calm h ..)
  have hy4 : Calm s0 y4 := (Calm.upd hy1 rfl rfl rfl rfl rfl rfl)
  try clear_value y4
  try clear_value y1
  refine Calm.ite ?_ ?_
  · exact (listRow_calm hy4 ..)
  · exact hy4

theorem uncorrected_calm {s0 s : State} (h : Calm s0 s) (a0) : Calm s0 (uncorrected a0 s) := by
  unfold uncorrected
  extract_lets -underBinder -merge y0 y1
  have hy1 : Calm s0 y1 := (Calm.upd h rfl rfl rfl rfl rfl rfl)
  try clear_value y1
  exact (listRow_calm (raise_calm hy1 ..) ..)

theorem eccReads_calm {s0 s : State} (h : Calm s0 s) (a0) : Calm s0 (eccReads a0 s) := by
  unfold eccReads
  exact Calm.foldl h fun _ _ ht => Calm.ite (uncorrected_calm ht ..) (corrected_calm ht ..)

theorem dropOwners_calm {s0 s : State} (h : Calm s0 s) (a0) : Calm s0 (dropOwners a0 s) := by
  unfold dropOwners
  extract_lets -underBinder -merge y0 y1 y2
  have hy2 : Calm s0 y2 := (Calm.upd h rfl rfl rfl rfl rfl rfl)
  try clear_value y2
  refine Calm.foldl ?_ (fun y3 a hy3 => ?_)
  · exact hy2
  · beta_reduce
    refine Calm.foldl ?_ (fun y4 a hy4 => ?_)
    · exact hy3
    · beta_reduce
      exact (dropRef_calm hy4 ..)

end Sys2Proof.Machine
end

