-- ==== Sys2Proof/Laws/CalmPacker.lean ====
section
/-! SUPPORT. The operations of Machine/Packer.lean keep what `Calm` says. -/

namespace Sys2Proof.Machine

theorem setJob_calm {s0 s : State} (h : Calm s0 s) (a0 a1) : Calm s0 (setJob a0 a1 s) := by
  unfold setJob
  exact (setStage_calm h ..)

theorem setBlk_calm {s0 s : State} (h : Calm s0 s) (a0 a1) : Calm s0 (setBlk a0 a1 s) := by
  unfold setBlk
  extract_lets -underBinder -merge y0
  exact (Calm.upd h rfl rfl rfl rfl rfl rfl)

theorem updBlk_calm {s0 s : State} (h : Calm s0 s) (a0 a1) : Calm s0 (updBlk a0 a1 s) := by
  unfold updBlk
  extract_lets -underBinder -merge y0
  exact (Calm.upd h rfl rfl rfl rfl rfl rfl)

theorem setEngine_calm {s0 s : State} (h : Calm s0 s) (a0 a1) : Calm s0 (setEngine a0 a1 s) := by
  unfold setEngine
  extract_lets -underBinder -merge y0
  exact (Calm.upd h rfl rfl rfl rfl rfl rfl)

theorem saveLane_calm {s0 s : State} (h : Calm s0 s) (a0) : Calm s0 (saveLane a0 s) := by
  unfold saveLane
  extract_lets -underBinder -merge y0
  split
  · exact h
  · extract_lets -underBinder -merge y1
    refine setEngine_calm ?_ ..
    exact (Calm.upd h rfl rfl rfl rfl rfl rfl)

theorem putOnEngine_calm {s0 s : State} (h : Calm s0 s) (a0 a1) : Calm s0 (putOnEngine a0 a1 s) := by
  unfold putOnEngine
  extract_lets -underBinder -merge y0 y1 y2 y3
  have hy1 : Calm s0 y1 := (updStream_calm h ..)
  have hy3 : Calm s0 y3 := (setBlk_calm hy1 ..)
  try clear_value y3
  try clear_value y1
  exact (setEngine_calm hy3 ..)

theorem dispatch_calm {s0 s : State} (h : Calm s0 s) (a0) : Calm s0 (dispatch a0 s) := by
  unfold dispatch
  extract_lets -underBinder -merge y0
  split
  · exact h
  · refine Calm.ite ?_ ?_
    · exact h
    · refine Calm.ite ?_ ?_
      · exact (saveLane_calm h ..)
      · refine Calm.ite ?_ ?_
        · exact h
        · split
          · exact (putOnEngine_calm h ..)
          · exact h

theorem dispatchAll_calm {s0 s : State} (h : Calm s0 s) : Calm s0 (dispatchAll s) := by
  unfold dispatchAll
  refine Calm.foldl ?_ (fun y0 a hy0 => ?_)
  · exact h
  · beta_reduce
    exact (dispatch_calm hy0 ..)

theorem cutBlock_calm {s0 s : State} (h : Calm s0 s) (a0) : Calm s0 (cutBlock a0 s) := by
  unfold cutBlock
  split
  · exact h
  · split
    · exact h
    · extract_lets -underBinder -merge y0 y1 y2 y3 y4 y5
      have hy5 : Calm s0 y5 := (Calm.upd h rfl rfl rfl rfl rfl rfl)
      try clear_value y5
      refine Calm.ite ?_ ?_
      · exact h
      · refine dispatchAll_calm ?_ ..
        exact (Calm.upd hy5 rfl rfl rfl rfl rfl rfl)

theorem lessLeft_calm {s0 s : State} (h : Calm s0 s) (a0 a1) : Calm s0 (lessLeft a0 a1 s) := by
  unfold lessLeft
  extract_lets -underBinder -merge y0 y1 y2
  refine Calm.ite ?_ ?_
  · exact (Calm.upd h rfl rfl rfl rfl rfl rfl)
  · exact (Calm.upd h rfl rfl rfl rfl rfl rfl)

theorem freeIntake_calm {s0 s : State} (h : Calm s0 s) (a0 a1) : Calm s0 (freeIntake a0 a1 s) := by
  unfold freeIntake
  refine Calm.foldl ?_ (fun y0 a hy0 => ?_)
  · exact h
  · beta_reduce
    extract_lets -underBinder -merge y1
    have hy1 : Calm s0 y1 := (lessLeft_calm hy0 ..)
    try clear_value y1
    refine Calm.ite ?_ ?_
    · exact (freeHeld_calm hy1 ..)
    · exact hy1

theorem giveIntake_calm {s0 s : State} (h : Calm s0 s) (a0 a1) : Calm s0 (giveIntake a0 a1 s) := by
  unfold giveIntake
  refine Calm.foldl ?_ (fun y0 a hy0 => ?_)
  · exact h
  · beta_reduce
    exact (giveOwn_calm hy0 ..)

theorem closeRecords_calm {s0 s : State} (h : Calm s0 s) (a0 a1) : Calm s0 (closeRecords a0 a1 s) := by
  unfold closeRecords
  exact (updStream_calm h ..)

theorem runSettled_calm {s0 s : State} (h : Calm s0 s) (a0) : Calm s0 (runSettled a0 s) := by
  unfold runSettled
  exact (updStream_calm h ..)

theorem finishWrite_calm {s0 s : State} (h : Calm s0 s) (a0 a1 a2) : Calm s0 (finishWrite a0 a1 a2 s) := by
  unfold finishWrite
  split
  · exact h
  · split
    · extract_lets -underBinder -merge y0 y1 y2 y3 y4 y5 y6 y7 y8
      have hy4 : Calm s0 y4 := by
        refine Calm.ite ?_ ?_
        · exact (runSettled_calm h ..)
        · exact h
      have hy6 : Calm s0 y6 := by
        refine Calm.ite ?_ ?_
        · exact (noteInfo_calm hy4 ..)
        · exact hy4
      have hy7 : Calm s0 y7.2 := (recordNumOf_calm hy6 ..)
      have hy8 : Calm s0 y8.2 := by
        refine Calm.ite_snd ?_ ?_
        · exact hy7
        · clear_value y5
          split
          · exact hy7
          · exact (drew_calm hy7 ..)
      try clear_value y8
      try clear_value y7
      try clear_value y6
      try clear_value y4
      exact (complete_calm hy8 ..)
    · exact h

theorem dropRun_calm {s0 s : State} (h : Calm s0 s) (a0 a1) : Calm s0 (dropRun a0 a1 s) := by
  unfold dropRun
  exact (updStream_calm h ..)

theorem stopWrite_calm {s0 s : State} (h : Calm s0 s) (a0 a1 a2) : Calm s0 (stopWrite a0 a1 a2 s) := by
  unfold stopWrite
  split
  · exact h
  · split
    · extract_lets -underBinder -merge y0 y1 y2 y3
      have hy1 : Calm s0 y1 := by
        refine Calm.ite ?_ ?_
        · split
          · exact h
          · extract_lets -underBinder -merge y4 y5 y6 y7 y8
            exact (closeRecords_calm (updStream_calm h ..) ..)
        · exact h
      have hy2 : Calm s0 y2 := (freeIntake_calm (dropRun_calm hy1 ..) ..)
      have hy3 : Calm s0 y3 := (finishWrite_calm (setJob_calm hy2 ..) ..)
      try clear_value y3
      try clear_value y2
      try clear_value y1
      exact hy3
    · exact h

theorem checkWrite_calm {s0 s : State} (h : Calm s0 s) (a0) : Calm s0 (checkWrite a0 s) := by
  unfold checkWrite
  split
  · exact h
  · split
    · refine Calm.ite ?_ ?_
      · exact h
      · refine Calm.ite ?_ ?_
        · exact h
        · exact (finishWrite_calm h ..)
    · exact h

theorem checkWrites_calm {s0 s : State} (h : Calm s0 s) : Calm s0 (checkWrites s) := by
  unfold checkWrites
  refine Calm.foldl ?_ (fun y0 a hy0 => ?_)
  · exact h
  · beta_reduce
    exact (checkWrite_calm hy0 ..)

theorem endRun_calm {s0 s : State} (h : Calm s0 s) (a0 a1 a2 a3) : Calm s0 (endRun a0 a1 a2 a3 s) := by
  unfold endRun
  extract_lets -underBinder -merge y0
  have hy0 : Calm s0 y0 := (freeIntake_calm (dropRun_calm h ..) ..)
  try clear_value y0
  refine Calm.ite ?_ ?_
  · exact (dropCmd_calm hy0 ..)
  · exact (setJob_calm hy0 ..)

/-- `Calm` for an action of the packer. -/
def PackedCalm (s0 : State) : Packed → Prop
  | .idle => True
  | .again t => Calm s0 t

theorem PackedCalm.ite {s0 : State} {p : Prop} [Decidable p] {a b : Packed} (ha : PackedCalm s0 a) (hb : PackedCalm s0 b) :
    PackedCalm s0 (if p then a else b) := by
  split
  · exact ha
  · exact hb

theorem PackedCalm.again {s0 t : State} (h : Calm s0 t) : PackedCalm s0 (.again t) := h

theorem packAct_calm {s0 s : State} (h : Calm s0 s) (n : Nat) : PackedCalm s0 (packAct n s) := by
  unfold packAct
  split
  · trivial
  split
  · trivial
  split
  · exact PackedCalm.again (dropRun_calm h ..)
  refine PackedCalm.ite (PackedCalm.again (endRun_calm h ..)) ?_
  extract_lets -underBinder -merge
  refine PackedCalm.ite (PackedCalm.again (cutBlock_calm (updStream_calm h ..) ..)) ?_
  refine PackedCalm.ite (PackedCalm.again (cutBlock_calm h ..)) ?_
  refine PackedCalm.ite (PackedCalm.ite (PackedCalm.again (updStream_calm h ..))
    (PackedCalm.again (cutBlock_calm (updStream_calm h ..) ..))) ?_
  refine PackedCalm.ite trivial ?_
  refine PackedCalm.ite (PackedCalm.again (cutBlock_calm h ..)) ?_
  refine PackedCalm.ite (PackedCalm.again (cutBlock_calm h ..)) ?_
  refine PackedCalm.ite (PackedCalm.again (endRun_calm (closeRecords_calm (updStream_calm h ..) ..) ..)) ?_
  refine PackedCalm.ite (PackedCalm.again (raise_calm (stopWrite_calm h ..) ..)) ?_
  refine PackedCalm.ite (PackedCalm.again (Calm.ite ?_ (stopWrite_calm (setJob_calm h ..) ..)))
    (PackedCalm.again (setJob_calm (updStream_calm h ..) ..))
  exact Calm.upd (stopWrite_calm (setJob_calm h ..) ..) rfl rfl rfl rfl rfl rfl

theorem packLoop_calm {s0 s : State} (h : Calm s0 s) (n k) : Calm s0 (packLoop n k s) := by
  induction k generalizing s with
  | zero => exact h
  | succ k ih =>
    unfold packLoop
    have q := packAct_calm h n
    split
    · exact h
    · rename_i t e
      rw [e] at q
      exact ih q

theorem cutFull_calm {s0 s : State} (h : Calm s0 s) (a0) : Calm s0 (cutFull a0 s) := by
  unfold cutFull
  split
  · extract_lets -underBinder -merge y0 y1 y2
    refine Calm.ite ?_ ?_
    · exact (cutBlock_calm (updStream_calm h ..) ..)
    · refine Calm.ite ?_ ?_
      · exact (cutBlock_calm h ..)
      · exact h
  · exact h

theorem packStream_calm {s0 s : State} (h : Calm s0 s) (a0) : Calm s0 (packStream a0 s) := by
  unfold packStream
  exact (cutFull_calm (packLoop_calm h ..) ..)

theorem consumeSrc_calm {s0 s : State} (h : Calm s0 s) (a0 a1) : Calm s0 (consumeSrc a0 a1 s) := by
  unfold consumeSrc
  refine Calm.foldl ?_ (fun y0 a hy0 => ?_)
  · exact h
  · beta_reduce
    extract_lets -underBinder -merge y1
    have hy1 : Calm s0 y1 := (lessLeft_calm hy0 ..)
    try clear_value y1
    refine Calm.ite ?_ ?_
    · exact (freeOwn_calm hy1 ..)
    · exact hy1

theorem freeRefs_calm {s0 s : State} (h : Calm s0 s) (a0 a1) : Calm s0 (freeRefs a0 a1 s) := by
  unfold freeRefs
  refine Calm.foldl ?_ (fun y0 a hy0 => ?_)
  · exact h
  · beta_reduce
    exact (freeOwn_calm hy0 ..)

theorem windowRefs_calm {s0 s : State} (h : Calm s0 s) (a0 a1 a2) : Calm s0 (windowRefs a0 a1 a2 s).1 := by
  unfold windowRefs
  extract_lets -underBinder -merge y0 y1 y2 y3 y4
  have hy2 : Calm s0 y2 := by
    refine Calm.foldl ?_ (fun y5 a hy5 => ?_)
    · exact h
    · beta_reduce
      exact (refOwn_calm hy5 ..)
  try clear_value y2
  dsimp -zeta only
  refine Calm.foldl ?_ (fun y6 a hy6 => ?_)
  · exact hy2
  · beta_reduce
    exact (freeOwn_calm hy6 ..)

theorem copyWindow_calm {s0 s : State} (h : Calm s0 s) (a0 a1 a2) : Calm s0 (copyWindow a0 a1 a2 s) := by
  unfold copyWindow
  extract_lets -underBinder -merge y0 y1 y2 y3 y4
  have hy0 : Calm s0 y0 := (giveOwn_calm h ..)
  have hy4 : Calm s0 y4 := (setEngine_calm hy0 ..)
  try clear_value y4
  try clear_value y0
  exact (dispatch_calm (freeRefs_calm hy4 ..) ..)

theorem shortenRefs_calm {s0 s : State} (h : Calm s0 s) (a0 a1) : Calm s0 (shortenRefs a0 a1 s) := by
  unfold shortenRefs
  extract_lets -underBinder -merge y0 y1
  have hy1 : Calm s0 y1.1 := (askBuf_calm h ..)
  try clear_value y1
  refine Calm.ite ?_ ?_
  · exact h
  · split
    · exact (copyWindow_calm hy1 ..)
    · extract_lets -underBinder -merge y2
      exact (setEngine_calm hy1 ..)

theorem lanesMust_calm {s0 s : State} (h : Calm s0 s) (a0 a1) : Calm s0 (lanesMust a0 a1 s) := by
  unfold lanesMust
  exact (updStream_calm h ..)

theorem dropLanes_calm {s0 s : State} (h : Calm s0 s) (a0) : Calm s0 (dropLanes a0 s) := by
  unfold dropLanes
  extract_lets -underBinder -merge y0 y1 y2 y3
  have hy0 : Calm s0 y0.2 := (agentTag_calm h ..)
  have hy1 : Calm s0 y1 := by
    refine Calm.foldl ?_ (fun y4 a hy4 => ?_)
    · exact hy0
    · beta_reduce
      extract_lets -underBinder -merge y5
      exact (setEngine_calm (freeRefs_calm hy4 ..) ..)
  have hy2 : Calm s0 y2 := by
    refine Calm.foldl ?_ (fun y6 a hy6 => ?_)
    · exact hy1
    · beta_reduce
      exact (freeRefs_calm hy6 ..)
  try clear_value y2
  try clear_value y1
  try clear_value y0
  exact (Calm.upd hy2 rfl rfl rfl rfl rfl rfl)

end Sys2Proof.Machine
end

