-- ==== Sys2Proof/Laws/CalmReadJobs.lean ====
section
/-! SUPPORT. The operations of Machine/ReadJobs.lean keep what `Calm` says. -/

namespace Sys2Proof.Machine

theorem dropHeld_calm {s0 s : State} (h : Calm s0 s) (a0) : Calm s0 (dropHeld a0 s) := by
  unfold dropHeld
  split
  · exact h
  · extract_lets -underBinder -merge y0 y1
    exact (Calm.upd h rfl rfl rfl rfl rfl rfl)

theorem freeTape_calm {s0 s : State} (h : Calm s0 s) (a1) : Calm s0 (freeTape s a1) := by
  unfold freeTape
  exact (dropHeld_calm (dropHeld_calm (freeOpt_calm (freeOpt_calm h ..) ..) ..) ..)

theorem clearReads_calm {s0 s : State} (h : Calm s0 s) : Calm s0 (clearReads s) := by
  unfold clearReads
  extract_lets -underBinder -merge y0 y1 y2
  have hy0 : Calm s0 y0 := by
    refine Calm.foldl ?_ (fun y3 a hy3 => ?_)
    · exact h
    · beta_reduce
      exact (freeTape_calm hy3 ..)
  have hy1 : Calm s0 y1 := by
    subst y1
    split
    · exact (dropHeld_calm (freeOpt_calm hy0 ..) ..)
    · exact hy0
  try clear_value y1
  try clear_value y0
  exact (Calm.upd hy1 rfl rfl rfl rfl rfl rfl)

theorem addInfo_calm {s0 s : State} (h : Calm s0 s) (a0 a1) : Calm s0 (addInfo a0 a1 s) := by
  unfold addInfo
  exact (updCmd_calm h ..)

theorem giveLens_calm {s0 s : State} (h : Calm s0 s) (a0 a1 a2) : Calm s0 (giveLens a0 a1 a2 s) := by
  unfold giveLens
  refine Calm.ite ?_ ?_
  · exact (emit_calm h ..)
  · exact h

theorem endRead_calm {s0 s : State} (h : Calm s0 s) (a0 a1 a2 a3) : Calm s0 (endRead a0 a1 a2 a3 s) := by
  unfold endRead
  extract_lets -underBinder -merge y0 y1
  have hy0 : Calm s0 y0 := (giveLens_calm (toHostMem_calm h ..) ..)
  have hy1 : Calm s0 y1.2 := (recordNumOf_calm (addInfo_calm hy0 ..) ..)
  try clear_value y1
  try clear_value y0
  exact (complete_calm hy1 ..)

theorem knownOr_calm {s0 s : State} (h : Calm s0 s) (a0) : Calm s0 (knownOr a0 s).2 := by
  unfold knownOr
  split
  · exact h
  · exact (drew_calm h ..)

theorem knownAll_calm {s0 s : State} (h : Calm s0 s) (l) : Calm s0 (knownAll l s).2 := by
  induction l generalizing s with
  | nil => exact h
  | cons v l ih =>
    unfold knownAll
    exact ih (knownOr_calm h ..)

theorem endRaw_calm {s0 s : State} (h : Calm s0 s) (a0 a1 a2 a3) : Calm s0 (endRaw a0 a1 a2 a3 s) := by
  unfold endRaw
  extract_lets -underBinder -merge y0 y1 y2 y3 y4 y5
  have hy0 : Calm s0 y0.2 := (knownAll_calm (toHostMem_calm h ..) ..)
  have hy1 : Calm s0 y1 := (giveLens_calm hy0 ..)
  have hy3 : Calm s0 y3.2 := (recordNumOf_calm (addInfo_calm hy1 ..) ..)
  have hy5 : Calm s0 y5.2 := (knownOr_calm hy3 ..)
  try clear_value y5
  try clear_value y3
  try clear_value y1
  try clear_value y0
  exact (complete_calm hy5 ..)

theorem tryRead_calm {s0 s : State} (h : Calm s0 s) (a0) : Calm s0 (tryRead a0 s) := by
  unfold tryRead
  split
  · exact h
  · split
    · split
      · exact h
      · extract_lets -underBinder -merge y0
        refine Calm.ite ?_ ?_
        · exact h
        · refine Calm.ite ?_ ?_
          · split
            · exact (endRead_calm h ..)
            · exact h
          · split
            · exact (endRaw_calm h ..)
            · exact h
    · exact h

theorem endReadEarly_calm {s0 s : State} (h : Calm s0 s) (a0 a1 a2 a3 a4) : Calm s0 (endReadEarly a0 a1 a2 a3 a4 s) := by
  unfold endReadEarly
  extract_lets -underBinder -merge y0
  refine Calm.ite ?_ ?_
  · split
    · exact (endRead_calm h ..)
    · exact h
  · split
    · exact (endRaw_calm h ..)
    · exact h

theorem cutWanted_calm {s0 s : State} (h : Calm s0 s) : Calm s0 (cutWanted s) := by
  unfold cutWanted
  refine Calm.foldl ?_ (fun y0 a hy0 => ?_)
  · exact h
  · beta_reduce
    split
    · extract_lets -underBinder -merge y1 y2 y3
      split
      · refine Calm.ite ?_ ?_
        · exact (cutBlock_calm hy0 ..)
        · exact hy0
      · exact hy0
    · exact hy0

theorem endRebuild_calm {s0 s : State} (h : Calm s0 s) (a0 a1 a2 a3) : Calm s0 (endRebuild a0 a1 a2 a3 s) := by
  unfold endRebuild
  extract_lets -underBinder -merge y0 y1 y2
  have hy1 : Calm s0 y1 := (Calm.upd h rfl rfl rfl rfl rfl rfl)
  have hy2 : Calm s0 y2 := by
    refine Calm.ite ?_ ?_
    · exact (noteInfo_calm hy1 ..)
    · exact hy1
  try clear_value y2
  try clear_value y1
  exact (complete_calm hy2 ..)

theorem rebuildCheck_calm {s0 s : State} (h : Calm s0 s) : Calm s0 (rebuildCheck s) := by
  unfold rebuildCheck
  split
  · exact h
  · extract_lets -underBinder -merge y0 y1 y2 y3 y4 y5
    have hy2 : Calm s0 y2 := (setStage_calm h ..)
    try clear_value y2
    refine Calm.ite ?_ ?_
    · exact hy2
    · exact (endRebuild_calm hy2 ..)

theorem failReads_calm {s0 s : State} (h : Calm s0 s) : Calm s0 (failReads s) := by
  unfold failReads
  refine Calm.ite ?_ ?_
  · exact h
  · refine Calm.foldl ?_ (fun y0 a hy0 => ?_)
    · exact h
    · beta_reduce
      split
      · split
        · extract_lets -underBinder -merge y1 y2
          refine Calm.ite ?_ ?_
          · exact hy0
          · exact (endReadEarly_calm hy0 ..)
        · exact hy0
      · exact hy0

theorem readsAdvance_calm {s0 s : State} (h : Calm s0 s) : Calm s0 (readsAdvance s) := by
  unfold readsAdvance
  extract_lets -underBinder -merge y0 y1 y2 y3 y4 y5 y6 y7 y8
  have hy0 : Calm s0 y0 := (cutWanted_calm h ..)
  have hy1 : Calm s0 y1 := by
    refine failReads_calm ?_ ..
    refine Calm.foldl ?_ (fun y9 a hy9 => ?_)
    · exact hy0
    · beta_reduce
      exact (tryRead_calm hy9 ..)
  have hy2 : Calm s0 y2 := (rebuildCheck_calm hy1 ..)
  have hy8 : Calm s0 y8 := (Calm.upd hy2 rfl rfl rfl rfl rfl rfl)
  try clear_value y8
  try clear_value y2
  try clear_value y1
  try clear_value y0
  refine Calm.ite ?_ ?_
  · exact (clearReads_calm hy8 ..)
  · exact hy8

theorem startRead_calm {s0 s : State} (h : Calm s0 s) : Calm s0 (startRead s) := by
  unfold startRead
  refine Calm.ite ?_ ?_
  · exact h
  · split
    · exact h
    · extract_lets -underBinder -merge y0 y1 y2 y3 y4 y5
      have hy2 : Calm s0 y2.2 := (agentTag_calm h ..)
      have hy3 : Calm s0 y3.1 := (askBuf_calm hy2 ..)
      have hy4 : Calm s0 y4 := hy3
      try clear_value y3
      try clear_value y2
      refine takeEqTarget_calm ?_ ..
      exact (Calm.upd hy4 rfl rfl rfl rfl rfl rfl)

end Sys2Proof.Machine
end

