-- ==== Sys2Proof/Laws/CalmBuilder.lean ====
section
/-! SUPPORT. The operations of Machine/Builder.lean keep what `Calm` says. -/

namespace Sys2Proof.Machine

theorem closeDataset_calm {s0 s : State} (h : Calm s0 s) (a0) : Calm s0 (closeDataset a0 s) := by
  unfold closeDataset
  split
  · exact h
  · extract_lets -underBinder -merge y0 y1 y2 y3
    exact (Calm.upd h rfl rfl rfl rfl rfl rfl)

theorem openInBuf_calm {s0 s : State} (h : Calm s0 s) (a0 a1 a2) : Calm s0 (openInBuf a0 a1 a2 s) := by
  unfold openInBuf
  extract_lets -underBinder -merge y0
  exact (Calm.upd h rfl rfl rfl rfl rfl rfl)

theorem openDataset_calm {s0 s : State} (h : Calm s0 s) (a0 a1) : Calm s0 (openDataset a0 a1 s) := by
  unfold openDataset
  extract_lets -underBinder -merge y0
  have hy0 : Calm s0 y0.1 := (askBuf_calm h ..)
  try clear_value y0
  refine Calm.ite ?_ ?_
  · exact h
  · split
    · exact (openInBuf_calm hy0 ..)
    · extract_lets -underBinder -merge y1 y2
      have hy1 : Calm s0 y1 := hy0
      exact (Calm.upd hy1 rfl rfl rfl rfl rfl rfl)

theorem drainCuts_calm {s0 s : State} (h : Calm s0 s) (a0) : Calm s0 (drainCuts a0 s) := by
  unfold drainCuts
  refine Calm.foldl ?_ (fun y0 a hy0 => ?_)
  · exact h
  · beta_reduce
    extract_lets -underBinder -merge y1 y2
    refine Calm.ite ?_ ?_
    · exact (cutBlock_calm hy0 ..)
    · exact hy0

theorem drainClose_calm {s0 s : State} (h : Calm s0 s) (a0) : Calm s0 (drainClose a0 s) := by
  unfold drainClose
  extract_lets -underBinder -merge y0 y1 y2 y3
  have hy3 : Calm s0 y3 := (closeDataset_calm h ..)
  try clear_value y3
  refine Calm.ite ?_ ?_
  · split
    · exact (updCmd_calm hy3 ..)
    · exact hy3
  · exact h

theorem failStream_calm {s0 s : State} (h : Calm s0 s) (a0 a1 a2) : Calm s0 (failStream a0 a1 a2 s) := by
  unfold failStream
  split
  · exact h
  · extract_lets -underBinder -merge y0 y1
    have hy1 : Calm s0 y1 := (updStream_calm h ..)
    try clear_value y1
    exact (raise_calm (closeRecords_calm hy1 ..) ..)

theorem dropBlk_calm {s0 s : State} (h : Calm s0 s) (a1) : Calm s0 (dropBlk s a1) := by
  unfold dropBlk
  extract_lets -underBinder -merge y0 y1 y2 y3 y4 y5 y6
  have hy0 : Calm s0 y0 := by
    refine Calm.foldl ?_ (fun y7 a hy7 => ?_)
    · exact h
    · beta_reduce
      extract_lets -underBinder -merge y8
      exact (setEngine_calm hy7 ..)
  have hy2 : Calm s0 y2 := (Calm.upd hy0 rfl rfl rfl rfl rfl rfl)
  have hy3 : Calm s0 y3 := (freeOpt_calm (consumeSrc_calm hy2 ..) ..)
  have hy5 : Calm s0 y5 := (Calm.upd hy3 rfl rfl rfl rfl rfl rfl)
  try clear_value y5
  try clear_value y3
  try clear_value y2
  try clear_value y0
  refine Calm.ite ?_ ?_
  · exact (Calm.upd hy5 rfl rfl rfl rfl rfl rfl)
  · exact (setBlk_calm hy5 ..)

theorem stopLost_calm {s0 s : State} (h : Calm s0 s) (a0 a1 a2 a3) : Calm s0 (stopLost a0 a1 a2 a3 s) := by
  unfold stopLost
  split
  · split
    · extract_lets -underBinder -merge y0
      exact (stopWrite_calm (setJob_calm h ..) ..)
    · exact (stopWrite_calm h ..)
  · exact (stopWrite_calm h ..)

theorem loseFrom_calm {s0 s : State} (h : Calm s0 s) (a0 a1 a2) : Calm s0 (loseFrom a0 a1 a2 s) := by
  unfold loseFrom
  extract_lets -underBinder -merge y0 y1 y2 y3 y4 y5
  have hy4 : Calm s0 y4 := by
    refine Calm.foldl ?_ (fun y6 a hy6 => ?_)
    · exact h
    · beta_reduce
      split
      · refine Calm.ite ?_ ?_
        · exact hy6
        · exact (stopLost_calm hy6 ..)
      · exact hy6
  have hy5 : Calm s0 y5 := (failStream_calm hy4 ..)
  try clear_value y5
  try clear_value y4
  refine dispatchAll_calm ?_ ..
  refine Calm.foldl ?_ (fun y7 a hy7 => ?_)
  · exact hy5
  · beta_reduce
    split
    · exact (dropBlk_calm hy7 ..)
    · exact hy7

theorem loseAtEnd_calm {s0 s : State} (h : Calm s0 s) (a0) : Calm s0 (loseAtEnd a0 s) := by
  unfold loseAtEnd
  extract_lets -underBinder -merge y0 y1
  have hy0 : Calm s0 y0 := (loseFrom_calm h ..)
  try clear_value y0
  refine Calm.ite ?_ ?_
  · exact (Calm.upd hy0 rfl rfl rfl rfl rfl rfl)
  · exact hy0

theorem closeDrained_calm {s0 s : State} (h : Calm s0 s) : Calm s0 (closeDrained s) := by
  unfold closeDrained
  refine Calm.foldl ?_ (fun y0 a hy0 => ?_)
  · exact h
  · beta_reduce
    exact (drainClose_calm hy0 ..)

theorem placeLoop_calm {s0 s : State} (h : Calm s0 s) (n) : Calm s0 (placeLoop n s) := by
  induction n generalizing s with
  | zero => exact h
  | succ n ih =>
    unfold placeLoop
    split
    · exact h
    split
    · refine Calm.ite h (Calm.ite (ih (loseAtEnd_calm h ..)) ?_)
      extract_lets -underBinder -merge t
      have ht : Calm s0 t := openDataset_calm h ..
      clear_value t
      exact Calm.ite (ih ht) ht
    · extract_lets -underBinder -merge room streams size k d whole s1 s2 src s3
      refine Calm.ite (ih (closeDataset_calm h ..)) (Calm.ite (ih (closeDataset_calm h ..)) ?_)
      have h1 : Calm s0 s1 := Calm.ite (freeOpt_calm h ..) h
      clear_value s1
      have h2 : Calm s0 s2 := setBlk_calm h1 ..
      clear_value s2
      have h3 : Calm s0 s3 := Calm.upd h2 rfl rfl rfl rfl rfl rfl
      clear_value s3
      exact ih (Calm.ite (closeDataset_calm h3 ..) (Calm.ite (closeDrained_calm h3 ..) h3))

theorem placeAll_calm {s0 s : State} (h : Calm s0 s) : Calm s0 (placeAll s) := by
  unfold placeAll
  exact (placeLoop_calm h ..)

theorem closeStream_calm {s0 s : State} (h : Calm s0 s) (a0) : Calm s0 (closeStream a0 s) := by
  unfold closeStream
  split
  · exact h
  · extract_lets -underBinder -merge y0 y1
    have hy0 : Calm s0 y0 := (dropLanes_calm h ..)
    have hy1 : Calm s0 y1 := by
      refine Calm.ite ?_ ?_
      · exact (unbindKey_calm hy0 ..)
      · exact hy0
    try clear_value y1
    try clear_value y0
    exact (updStream_calm hy1 ..)

theorem closeEnded_calm {s0 s : State} (h : Calm s0 s) : Calm s0 (closeEnded s) := by
  unfold closeEnded
  refine Calm.foldl ?_ (fun y0 a hy0 => ?_)
  · exact h
  · beta_reduce
    extract_lets -underBinder -merge y1
    refine Calm.ite ?_ ?_
    · exact (closeStream_calm hy0 ..)
    · exact hy0

theorem endPowerDrain_calm {s0 s : State} (h : Calm s0 s) : Calm s0 (endPowerDrain s) := by
  unfold endPowerDrain
  split
  · exact h
  · extract_lets -underBinder -merge y0 y1
    refine Calm.ite ?_ ?_
    · exact h
    · exact (Calm.upd h rfl rfl rfl rfl rfl rfl)

theorem pushDrains_calm {s0 s : State} (h : Calm s0 s) : Calm s0 (pushDrains s) := by
  unfold pushDrains
  refine Calm.foldl ?_ (fun y0 a hy0 => ?_)
  · exact h
  · beta_reduce
    exact (drainClose_calm (drainCuts_calm hy0 ..) ..)

theorem settleN_calm {s0 s : State} (h : Calm s0 s) (n) : Calm s0 (settleN n s) := by
  induction n generalizing s with
  | zero => exact h
  | succ n ih =>
    unfold settleN
    exact (ih (pushDrains_calm (placeAll_calm h ..) ..))

theorem settle_calm {s0 s : State} (h : Calm s0 s) : Calm s0 (settle s) := by
  unfold settle
  exact (readsAdvance_calm (checkWrites_calm (endPowerDrain_calm (closeEnded_calm (settleN_calm h ..) ..) ..) ..) ..)

theorem offer_calm {s0 s : State} (h : Calm s0 s) (a0) : Calm s0 (offer a0 s) := by
  unfold offer
  extract_lets -underBinder -merge y0 y1
  have hy0 : Calm s0 y0 := (updBlk_calm h ..)
  try clear_value y0
  refine settle_calm ?_ ..
  exact (Calm.upd hy0 rfl rfl rfl rfl rfl rfl)

theorem packetDone_calm {s0 s : State} (h : Calm s0 s) (a0 a1 a2 a3) : Calm s0 (packetDone a0 a1 a2 a3 s) := by
  unfold packetDone
  extract_lets -underBinder -merge y0 y1 y2 y3 y4 y5 y6 y7 y8 y9 y10
  have hy1 : Calm s0 y1.1 := by
    refine Calm.ite_fst ?_ ?_
    · refine Calm.ite_fst ?_ ?_
      · exact (windowRefs_calm h ..)
      · exact (windowRefs_calm h ..)
    · exact h
  have hy2 : Calm s0 y2 := by
    refine Calm.ite ?_ ?_
    · exact (freeRefs_calm hy1 ..)
    · exact hy1
  have hy3 : Calm s0 y3 := (consumeSrc_calm hy2 ..)
  have hy4 : Calm s0 y4 := by
    refine Calm.ite ?_ ?_
    · exact (lanesMust_calm hy3 ..)
    · exact hy3
  have hy6 : Calm s0 y6 := (Calm.upd hy4 rfl rfl rfl rfl rfl rfl)
  have hy8 : Calm s0 y8 := (setEngine_calm hy6 ..)
  have hy9 : Calm s0 y9 := (setBlk_calm hy8 ..)
  have hy10 : Calm s0 y10 := (dispatch_calm (shortenRefs_calm hy9 ..) ..)
  try clear_value y10
  try clear_value y9
  try clear_value y8
  try clear_value y6
  try clear_value y4
  try clear_value y3
  try clear_value y2
  try clear_value y1
  refine Calm.ite ?_ ?_
  · exact hy10
  · exact (offer_calm hy10 ..)

theorem addEntry_calm {s0 s : State} (h : Calm s0 s) (a1) : Calm s0 (addEntry s a1) := by
  unfold addEntry
  split
  · extract_lets -underBinder -merge y0
    exact (Calm.upd h rfl rfl rfl rfl rfl rfl)
  · extract_lets -underBinder -merge y1
    exact (Calm.upd h rfl rfl rfl rfl rfl rfl)
  · extract_lets -underBinder -merge y2 y3
    exact (Calm.upd h rfl rfl rfl rfl rfl rfl)
  · split
    · exact (updStream_calm h ..)
    · extract_lets -underBinder -merge y4
      exact (Calm.upd h rfl rfl rfl rfl rfl rfl)
  · exact h

theorem endCreate_calm {s0 s : State} (h : Calm s0 s) (a0 a1) : Calm s0 (endCreate a0 a1 s) := by
  unfold endCreate
  split
  · extract_lets -underBinder -merge y0
    have hy0 : Calm s0 y0 := (onPost_calm h ..)
    try clear_value y0
    split
    · exact (complete_calm hy0 ..)
    · exact (finish_calm hy0 ..)
  · split
    · extract_lets -underBinder -merge y1
      exact (Calm.upd h rfl rfl rfl rfl rfl rfl)
    · exact h

theorem forgetDs_calm {s0 s : State} (h : Calm s0 s) (a0) : Calm s0 (forgetDs a0 s) := by
  unfold forgetDs
  extract_lets -underBinder -merge y0 y1 y2
  exact (Calm.upd h rfl rfl rfl rfl rfl rfl)

theorem leaveCocoon_calm {s0 s : State} (h : Calm s0 s) (a0) : Calm s0 (leaveCocoon a0 s) := by
  unfold leaveCocoon
  extract_lets -underBinder -merge y0
  exact (Calm.upd h rfl rfl rfl rfl rfl rfl)

theorem releaseDs_calm {s0 s : State} (h : Calm s0 s) (a0) : Calm s0 (releaseDs a0 s) := by
  unfold releaseDs
  extract_lets -underBinder -merge y0 y1 y2 y3 y4 y5 y6 y7 y8 y9 y10 y11
  have hy1 : Calm s0 y1 := by
    refine Calm.foldl ?_ (fun y12 a hy12 => ?_)
    · exact h
    · beta_reduce
      exact (addEntry_calm hy12 ..)
  have hy2 : Calm s0 y2 := by
    refine Calm.foldl ?_ (fun y13 a hy13 => ?_)
    · exact hy1
    · beta_reduce
      split
      · exact (endCreate_calm hy13 ..)
      · exact hy13
  have hy3 : Calm s0 y3 := by
    refine Calm.foldl ?_ (fun y14 a hy14 => ?_)
    · exact hy2
    · beta_reduce
      exact (updCmd_calm hy14 ..)
  have hy4 : Calm s0 y4 := (forgetDs_calm hy3 ..)
  have hy6 : Calm s0 y6 := by
    refine leaveCocoon_calm ?_ ..
    exact (Calm.upd hy4 rfl rfl rfl rfl rfl rfl)
  have hy9 : Calm s0 y9 := by
    refine Calm.ite ?_ ?_
    · exact (Calm.upd hy6 rfl rfl rfl rfl rfl rfl)
    · exact hy6
  have hy11 : Calm s0 y11 := by
    refine Calm.ite ?_ ?_
    · exact (Calm.upd hy9 rfl rfl rfl rfl rfl rfl)
    · exact hy9
  try clear_value y11
  try clear_value y9
  try clear_value y6
  try clear_value y4
  try clear_value y3
  try clear_value y2
  try clear_value y1
  refine Calm.ite ?_ ?_
  · exact (leaveCocoon_calm h ..)
  · exact (checkWrites_calm hy11 ..)

theorem failDs_calm {s0 s : State} (h : Calm s0 s) (a0 a1) : Calm s0 (failDs a0 a1 s) := by
  unfold failDs
  extract_lets -underBinder -merge y0 y1 y2 y3 y4 y5 y6 y7 y8 y9 y10 y11 y12 y13 y14 y15 y16 y17 y18 y19
  have hy2 : Calm s0 y2 := by
    refine Calm.foldl ?_ (fun y20 a hy20 => ?_)
    · exact h
    · beta_reduce
      exact (failStream_calm hy20 ..)
  have hy3 : Calm s0 y3 := (raise_calm hy2 ..)
  have hy4 : Calm s0 y4 := by
    refine Calm.foldl ?_ (fun y21 a hy21 => ?_)
    · exact hy3
    · beta_reduce
      split
      · refine Calm.ite ?_ ?_
        · exact (stopLost_calm (updCmd_calm hy21 ..) ..)
        · exact hy21
      · exact hy21
  have hy8 : Calm s0 y8 := (Calm.upd hy4 rfl rfl rfl rfl rfl rfl)
  have hy9 : Calm s0 y9 := by
    refine Calm.foldl ?_ (fun y22 a hy22 => ?_)
    · exact hy8
    · beta_reduce
      exact (endCreate_calm hy22 ..)
  have hy11 : Calm s0 y11 := by
    refine Calm.ite ?_ ?_
    · exact (Calm.upd hy9 rfl rfl rfl rfl rfl rfl)
    · exact hy9
  have hy12 : Calm s0 y12 := (forgetDs_calm hy11 ..)
  have hy16 : Calm s0 y16 := (Calm.upd hy12 rfl rfl rfl rfl rfl rfl)
  have hy17 : Calm s0 y17 := by
    subst y17
    split
    · extract_lets -underBinder -merge y23
      refine Calm.ite ?_ ?_
      · exact hy16
      · exact (Calm.upd hy16 rfl rfl rfl rfl rfl rfl)
    · exact hy16
  have hy19 : Calm s0 y19 := by
    refine Calm.ite ?_ ?_
    · exact (Calm.upd hy17 rfl rfl rfl rfl rfl rfl)
    · exact hy17
  try clear_value y19
  try clear_value y17
  try clear_value y16
  try clear_value y12
  try clear_value y11
  try clear_value y9
  try clear_value y8
  try clear_value y4
  try clear_value y3
  try clear_value y2
  refine settle_calm ?_ ..
  refine Calm.ite ?_ ?_
  · exact hy19
  · exact (freeOpt_calm hy19 ..)

theorem failHeld_calm {s0 s : State} (h : Calm s0 s) (a0) : Calm s0 (failHeld a0 s) := by
  unfold failHeld
  refine Calm.foldl ?_ (fun y0 a hy0 => ?_)
  · exact h
  · beta_reduce
    refine Calm.ite ?_ ?_
    · exact hy0
    · exact (failDs_calm hy0 ..)

theorem takeGrant_calm {s0 s : State} (h : Calm s0 s) (a0 a1 a2) : Calm s0 (takeGrant a0 a1 a2 s) := by
  unfold takeGrant
  split
  · exact (copyWindow_calm h ..)
  · extract_lets -underBinder -merge y0 y1 y2 y3 y4 y5 y6
    exact (Calm.upd h rfl rfl rfl rfl rfl rfl)

end Sys2Proof.Machine
end

