-- ==== Sys2Proof/Laws/CalmMembers.lean ====
section
/-! SUPPORT. The operations of Machine/Members.lean keep what `Calm` says. -/

namespace Sys2Proof.Machine

theorem setChan_calm {s0 s : State} (h : Calm s0 s) (a0 a1) : Calm s0 (setChan a0 a1 s) := by
  unfold setChan
  exact (Calm.upd h rfl rfl rfl rfl rfl rfl)

theorem updChan_calm {s0 s : State} (h : Calm s0 s) (a0 a1) : Calm s0 (updChan a0 a1 s) := by
  unfold updChan
  exact (setChan_calm h ..)

theorem failIfStopped_calm {s0 s : State} (h : Calm s0 s) (a0) : Calm s0 (failIfStopped a0 s) := by
  unfold failIfStopped
  refine Calm.ite ?_ ?_
  · refine Calm.foldl ?_ (fun y0 a hy0 => ?_)
    · exact h
    · beta_reduce
      exact (failDs_calm hy0 ..)
  · refine Calm.ite ?_ ?_
    · refine Calm.foldl ?_ (fun y1 a hy1 => ?_)
      · exact h
      · beta_reduce
        exact (failDs_calm hy1 ..)
    · exact h

theorem stopWriting_calm {s0 s : State} (h : Calm s0 s) : Calm s0 (stopWriting s) := by
  unfold stopWriting
  extract_lets -underBinder -merge y0 y1 y2 y3 y4 y5
  have hy2 : Calm s0 y2 := (Calm.upd h rfl rfl rfl rfl rfl rfl)
  have hy4 : Calm s0 y4 := by
    refine Calm.ite ?_ ?_
    · exact (Calm.upd hy2 rfl rfl rfl rfl rfl rfl)
    · exact hy2
  have hy5 : Calm s0 y5 := (raise_calm hy4 ..)
  try clear_value y5
  try clear_value y4
  try clear_value y2
  refine Calm.foldl ?_ (fun y6 a hy6 => ?_)
  · exact hy5
  · beta_reduce
    exact (failIfStopped_calm hy6 ..)

theorem resumeWriting_calm {s0 s : State} (h : Calm s0 s) : Calm s0 (resumeWriting s) := by
  unfold resumeWriting
  extract_lets -underBinder -merge y0 y1 y2
  have hy1 : Calm s0 y1 := (Calm.upd h rfl rfl rfl rfl rfl rfl)
  try clear_value y1
  refine Calm.ite ?_ ?_
  · refine raise_calm ?_ ..
    exact (Calm.upd hy1 rfl rfl rfl rfl rfl rfl)
  · exact hy1

theorem judgeMembers_calm {s0 s : State} (h : Calm s0 s) : Calm s0 (judgeMembers s) := by
  unfold judgeMembers
  refine Calm.ite ?_ ?_
  · refine Calm.ite ?_ ?_
    · exact (resumeWriting_calm h ..)
    · exact h
  · refine Calm.ite ?_ ?_
    · exact h
    · exact (stopWriting_calm h ..)

theorem declareFailed_calm {s0 s : State} (h : Calm s0 s) (a0 a1) : Calm s0 (declareFailed a0 a1 s) := by
  unfold declareFailed
  extract_lets -underBinder -merge y0 y1
  have hy1 : Calm s0 y1 := (updChan_calm h ..)
  try clear_value y1
  refine Calm.ite ?_ ?_
  · exact h
  · exact (judgeMembers_calm (setCause_calm (raise_calm hy1 ..) ..) ..)

theorem restoreMember_calm {s0 s : State} (h : Calm s0 s) (a0) : Calm s0 (restoreMember a0 s) := by
  unfold restoreMember
  refine Calm.ite ?_ ?_
  · exact (judgeMembers_calm (raise_calm (updChan_calm h ..) ..) ..)
  · exact h

end Sys2Proof.Machine
end

