-- ==== Sys2Proof/Laws/CalmEnding.lean ====
section
/-! SUPPORT. The operations of Machine/Ending.lean keep what `Calm` says. -/

namespace Sys2Proof.Machine

theorem fetchCreate_calm {s0 s : State} (h : Calm s0 s) (a0 a1) : Calm s0 (fetchCreate a0 a1 s) := by
  unfold fetchCreate
  extract_lets -underBinder -merge y0 y1 y2 y3 y4
  have hy4 : Calm s0 y4.2 := by
    refine agentTag_calm ?_ ..
    exact (Calm.upd h rfl rfl rfl rfl rfl rfl)
  try clear_value y4
  refine Calm.ite ?_ ?_
  · exact (Calm.upd h rfl rfl rfl rfl rfl rfl)
  · exact (openDataset_calm hy4 ..)

theorem fetchEntries_calm {s0 s : State} (h : Calm s0 s) (f q k l) : Calm s0 (fetchEntries f q k l s) := by
  induction l generalizing s k with
  | nil => exact h
  | cons e l ih =>
    unfold fetchEntries
    split
    · exact h
    · extract_lets -underBinder -merge y0 y1 y2
      have h2 : Calm s0 y2 := fetchOne_calm (setQp_calm h ..) ..
      clear_value y2
      exact ih (Calm.ite (fetchCreate_calm h2 ..) h2) _

theorem takeReturnsN_calm {s0 s : State} (h : Calm s0 s) (n) : Calm s0 (takeReturnsN n s) := by
  induction n generalizing s with
  | zero => exact h
  | succ n ih =>
    unfold takeReturnsN
    split
    · exact ih (fetchEntries_calm (updQp_calm h ..) ..)
    · exact h

theorem takeReturns_calm {s0 s : State} (h : Calm s0 s) : Calm s0 (takeReturns s) := by
  unfold takeReturns
  exact (takeReturnsN_calm h ..)

theorem rebuildEnded_calm {s0 s : State} (h : Calm s0 s) (a0) : Calm s0 (rebuildEnded a0 s) := by
  unfold rebuildEnded
  extract_lets -underBinder -merge y0
  refine raise_calm ?_ ..
  exact (Calm.upd h rfl rfl rfl rfl rfl rfl)

theorem noRun_calm {s0 s : State} (h : Calm s0 s) (a0) : Calm s0 (noRun a0 s) := by
  unfold noRun
  refine Calm.ite ?_ ?_
  · exact (runSettled_calm h ..)
  · exact h

theorem endCmd_calm {s0 s : State} (h : Calm s0 s) (a0) : Calm s0 (endCmd a0 s) := by
  unfold endCmd
  split
  · exact h
  · extract_lets -underBinder -merge y0 y1
    have hy1 : Calm s0 y1 := (updCmd_calm h ..)
    try clear_value y1
    split
    · refine Calm.ite ?_ ?_
      · exact (packStream_calm (updCmd_calm (giveIntake_calm h ..) ..) ..)
      · exact (dropCmd_calm (runSettled_calm (freeIntake_calm (dropRun_calm h ..) ..) ..) ..)
    · exact (dropCmd_calm h ..)
    · exact (dropCmd_calm (rebuildEnded_calm h ..) ..)
    · exact (dropCmd_calm h ..)
    · exact (updCmd_calm h ..)
    · exact hy1
    · refine Calm.ite ?_ ?_
      · exact (dropCmd_calm h ..)
      · exact hy1
    · refine Calm.ite ?_ ?_
      · exact (dropCmd_calm (noRun_calm h ..) ..)
      · refine Calm.ite ?_ ?_
        · exact (dropCmd_calm (rebuildEnded_calm h ..) ..)
        · exact hy1

theorem dropDictOp_calm {s0 s : State} (h : Calm s0 s) (a0) : Calm s0 (dropDictOp a0 s) := by
  unfold dropDictOp
  extract_lets -underBinder -merge y0
  exact (Calm.upd h rfl rfl rfl rfl rfl rfl)

theorem failCmd_calm {s0 s : State} (h : Calm s0 s) (a0 a1 a2) : Calm s0 (failCmd a0 a1 a2 s) := by
  unfold failCmd
  split
  · exact h
  · split
    · refine Calm.ite ?_ ?_
      · exact h
      · exact (settle_calm (stopWrite_calm h ..) ..)
    · exact (settle_calm (endReadEarly_calm h ..) ..)
    · exact (settle_calm (endRebuild_calm h ..) ..)
    · exact (settle_calm (complete_calm (dropDictOp_calm h ..) ..) ..)
    · exact (settle_calm (complete_calm h ..) ..)

theorem badTag_calm {s0 s : State} (h : Calm s0 s) (a0 a1 a2 a3) : Calm s0 (badTag a0 a1 a2 a3 s) := by
  unfold badTag
  extract_lets -underBinder -merge y0
  have hy0 : Calm s0 y0 := (answer_calm h ..)
  try clear_value y0
  refine Calm.ite ?_ ?_
  · exact hy0
  · exact (failCmd_calm hy0 ..)

theorem endCmds_calm {s0 s : State} (h : Calm s0 s) (a0) : Calm s0 (endCmds a0 s).1 := by
  unfold endCmds
  extract_lets -underBinder -merge y0 y1 y2 y3 y4
  have hy1 : Calm s0 y1 := Calm.foldl h fun _ _ ht => cutBlock_calm ht ..
  clear_value y1
  have hy4 : Calm s0 y4 := Calm.foldl hy1 fun _ _ ht => endCmd_calm ht ..
  clear_value y4
  dsimp only
  exact settle_calm hy4

theorem carryOn_calm {s0 s : State} (h : Calm s0 s) (a0 a1 a2) : Calm s0 (carryOn a0 a1 a2 s) := by
  unfold carryOn
  extract_lets -underBinder -merge y0
  refine Calm.ite ?_ ?_
  · exact (noRun_calm h ..)
  · refine Calm.ite ?_ ?_
    · exact (rebuildEnded_calm h ..)
    · split
      · exact h
      · exact (setCmd_calm h ..)

theorem resetStart_calm {s0 s : State} (h : Calm s0 s) (a0 a1 a2) : Calm s0 (resetStart a0 a1 a2 s) := by
  unfold resetStart
  split
  · exact h
  · extract_lets -underBinder -merge y0
    have hy0 : Calm s0 y0 := by
      refine Calm.foldl ?_ (fun y1 a hy1 => ?_)
      · exact h
      · beta_reduce
        exact (carryOn_calm hy1 ..)
    try clear_value y0
    exact (takeReturns_calm (updQp_calm hy0 ..) ..)

theorem resetCut_calm {s0 s : State} (h : Calm s0 s) (a0 a1) : Calm s0 (resetCut a0 a1 s) := by
  unfold resetCut
  split
  · exact h
  split
  · exact h
  extract_lets -underBinder -merge y0 y1 y2 y3 y4 y5
  have hy1 : Calm s0 y1 := updQp_calm h ..
  have hy2 : Calm s0 y2 := Calm.foldl hy1 fun _ _ ht => finish_calm ht ..
  have hy3 : Calm s0 y3.1 := endCmds_calm hy2 ..
  have hy4 : Calm s0 y4 := updQp_calm hy3 ..
  have hy5 : Calm s0 y5 := by
    subst y5
    clear_value y4
    split
    · exact finishWith_calm (onPost_calm hy4 ..) ..
    · exact hy4
  clear_value y5
  exact raiseIf_calm (shutdownCheck_calm hy5 ..) ..

theorem markEnded_calm {s0 s : State} (h : Calm s0 s) (a0) : Calm s0 (markEnded a0 s) := by
  unfold markEnded
  extract_lets -underBinder -merge y0
  exact (Calm.upd h rfl rfl rfl rfl rfl rfl)

theorem dropQpCmds_calm {s0 s : State} (h : Calm s0 s) (a0) : Calm s0 (dropQpCmds a0 s) := by
  unfold dropQpCmds
  refine Calm.foldl ?_ (fun y0 a hy0 => ?_)
  · exact h
  · beta_reduce
    exact (dropCmd_calm hy0 ..)

theorem endFunction_calm {s0 s : State} (h : Calm s0 s) (a0) : Calm s0 (endFunction a0 s) := by
  unfold endFunction
  extract_lets -underBinder -merge y0 y1 y2 y3
  have hy2 : Calm s0 y2 := (endCmds_calm h ..)
  have hy3 : Calm s0 y3 := by
    refine Calm.foldl ?_ (fun y4 a hy4 => ?_)
    · exact hy2
    · beta_reduce
      refine Calm.foldl ?_ (fun y5 a hy5 => ?_)
      · exact hy4
      · beta_reduce
        exact (carryOn_calm hy5 ..)
  try clear_value y3
  exact (takeReturns_calm (shutdownCheck_calm (updFn_calm (dropQpCmds_calm hy3 ..) ..) ..) ..)

theorem retiredCheck_calm {s0 s : State} (h : Calm s0 s) (a0) : Calm s0 (retiredCheck a0 s) := by
  unfold retiredCheck
  exact (raiseIf_calm h ..)

theorem retireKeys_calm {s0 s : State} (h : Calm s0 s) (a0) : Calm s0 (retireKeys a0 s) := by
  unfold retireKeys
  exact (settle_calm (retireMarks_calm (markEnded_calm h ..) ..) ..)

theorem resetFnRegs_calm {s0 s : State} (h : Calm s0 s) (a0) : Calm s0 (resetFnRegs a0 s) := by
  unfold resetFnRegs
  exact (updFn_calm h ..)

theorem dropWindow_calm {s0 s : State} (h : Calm s0 s) (a0) : Calm s0 (dropWindow a0 s) := by
  unfold dropWindow
  extract_lets -underBinder -merge y0 y1 y2 y3 y4
  exact (Calm.upd h rfl rfl rfl rfl rfl rfl)

theorem flrOne_calm {s0 s : State} (h : Calm s0 s) (a0) : Calm s0 (flrOne a0 s) := by
  unfold flrOne
  exact (setFn_calm (dropWindow_calm (retireKeys_calm (endFunction_calm h ..) ..) ..) ..)

theorem clearVfs_calm {s0 s : State} (h : Calm s0 s) (a0) : Calm s0 (clearVfs a0 s) := by
  unfold clearVfs
  extract_lets -underBinder -merge y0 y1
  have hy0 : Calm s0 y0 := by
    refine Calm.foldl ?_ (fun y2 a hy2 => ?_)
    · exact h
    · beta_reduce
      extract_lets -underBinder -merge y3 y4
      have hy4 : Calm s0 y4 := (flrOne_calm hy2 ..)
      try clear_value y4
      refine Calm.ite ?_ ?_
      · refine Calm.ite ?_ ?_
        · exact (updFn_calm hy4 ..)
        · exact hy4
      · exact hy2
  try clear_value y0
  exact (Calm.upd hy0 rfl rfl rfl rfl rfl rfl)

end Sys2Proof.Machine
end

