-- ==== Sys2Proof/Laws/CalmRegisters.lean ====
section
/-! SUPPORT. The operations of Machine/Registers.lean keep what `Calm` says. -/

namespace Sys2Proof.Machine

theorem msixWrite_calm {s0 s : State} (h : Calm s0 s) (a0 a1 a2 a3) : Calm s0 (msixWrite a0 a1 a2 a3 s) := by
  unfold msixWrite
  extract_lets -underBinder -merge y0 y1
  refine Calm.ite ?_ ?_
  · exact (updFn_calm h ..)
  · refine Calm.ite ?_ ?_
    · exact (updFn_calm h ..)
    · refine Calm.ite ?_ ?_
      · exact (updFn_calm h ..)
      · refine Calm.ite ?_ ?_
        · exact (updFn_calm h ..)
        · refine Calm.ite ?_ ?_
          · exact (emit_calm (updFn_calm h ..) ..)
          · exact (updFn_calm h ..)

theorem takeQpCount_calm {s0 s : State} (h : Calm s0 s) (a0) : Calm s0 (takeQpCount a0 s) := by
  unfold takeQpCount
  extract_lets -underBinder -merge y0
  exact (Calm.upd h rfl rfl rfl rfl rfl rfl)

theorem unfreeze_calm {s0 s : State} (h : Calm s0 s) (a0 a1) : Calm s0 (unfreeze a0 a1 s) := by
  unfold unfreeze
  split
  · exact h
  · exact (drainHeld_calm (setQp_calm h ..) ..)

end Sys2Proof.Machine
end

