-- ==== Sys2Proof/Laws/CalmQueues.lean ====
section
/-! SUPPORT. The operations of Machine/Queues.lean keep what `Calm` says. -/

namespace Sys2Proof.Machine

theorem badDoorbell_calm {s0 s : State} (h : Calm s0 s) (a0 a1 a2) : Calm s0 (badDoorbell a0 a1 a2 s) := by
  unfold badDoorbell
  exact (raise_calm h ..)

theorem grant_calm {s0 s : State} (h : Calm s0 s) (a0 a1 a2) : Calm s0 (grant a0 a1 a2 s) := by
  unfold grant
  split
  · exact h
  · extract_lets -underBinder -merge y0 y1
    have hy0 : Calm s0 y0 := (setQp_calm h ..)
    try clear_value y0
    refine emit_calm ?_ ..
    exact (Calm.upd hy0 rfl rfl rfl rfl rfl rfl)

theorem grantWithin_calm {s0 s : State} (h : Calm s0 s) (a0 a1 a2) : Calm s0 (grantWithin a0 a1 a2 s) := by
  unfold grantWithin
  extract_lets -underBinder -merge y0 y1 y2 y3 y4 y5 y6 y7 y8 y9
  have hy9 : Calm s0 y9 := (updFn_calm h ..)
  try clear_value y9
  exact (grant_calm hy9 ..)

theorem transferFailed_calm {s0 s : State} (h : Calm s0 s) (a0 a1 a2) : Calm s0 (transferFailed a0 a1 a2 s) := by
  unfold transferFailed
  split
  · exact h
  · refine Calm.ite ?_ ?_
    · exact h
    · exact (failCmd_calm h ..)

theorem takeBack_calm {s0 s : State} (h : Calm s0 s) (a0 a1) : Calm s0 (takeBack a0 a1 s) := by
  unfold takeBack
  split
  · exact h
  · split
    · exact h
    · extract_lets -underBinder -merge y0 y1
      have hy1 : Calm s0 y1 := by
        subst y1
        clear_value y0
        split
        · exact (setCmd_calm h ..)
        · exact h
      try clear_value y1
      exact (setQp_calm hy1 ..)

theorem takeBacks_calm {s0 s : State} (h : Calm s0 s) (f q n) : Calm s0 (takeBacks f q n s) := by
  induction n generalizing s with
  | zero => exact h
  | succ n ih => exact ih (takeBack_calm h ..)

theorem giveLog_calm {s0 s : State} (h : Calm s0 s) (a0 a1 a2) : Calm s0 (giveLog a0 a1 a2 s) := by
  unfold giveLog
  split
  · exact (finish_calm h ..)
  · extract_lets -underBinder -merge y0 y1
    exact (finishWith_calm (toHostMem_calm h ..) ..)

end Sys2Proof.Machine
end

