-- ==== Sys2Proof/Laws/CalmStreams.lean ====
section
/-! SUPPORT. The operations of Machine/Streams.lean keep what `Calm` says. -/

namespace Sys2Proof.Machine

theorem walkList_calm {s0 s : State} (h : Calm s0 s) (a0 a1 a2) {k : Nat → State → State}
    (hk : ∀ n t, Calm s0 t → Calm s0 (k n t)) : Calm s0 (walkList a0 a1 a2 s k) := by
  unfold walkList
  split
  · exact complete_calm (noRun_calm h ..) ..
  · exact hk _ _ (updCmd_calm h ..)

theorem writeReady_calm {s0 s : State} (h : Calm s0 s) (a0 a1 a2) : Calm s0 (writeReady a0 a1 a2 s) := by
  unfold writeReady
  split
  · exact (setJob_calm h ..)
  · refine Calm.ite ?_ ?_
    · exact (setJob_calm h ..)
    · refine Calm.ite ?_ ?_
      · exact (complete_calm (noRun_calm (setJob_calm h ..) ..) ..)
      · exact (setJob_calm h ..)

theorem dataRead_calm {s0 s : State} (h : Calm s0 s) (a0 a1 a2 a3 a4) : Calm s0 (dataRead a0 a1 a2 a3 a4 s) := by
  unfold dataRead
  extract_lets -underBinder -merge y0 y1 y2 y3 y4 y5
  have hy4 : Calm s0 y4 := (Calm.upd h rfl rfl rfl rfl rfl rfl)
  have hy5 : Calm s0 y5 := (setJob_calm hy4 ..)
  try clear_value y5
  try clear_value y4
  refine Calm.ite ?_ ?_
  · exact h
  · exact (updCmd_calm hy5 ..)

theorem listWalked_calm {s0 s : State} (h : Calm s0 s) (a0 a1 a2) : Calm s0 (listWalked a0 a1 a2 s) := by
  unfold listWalked
  refine Calm.ite ?_ ?_
  · refine Calm.ite ?_ ?_
    · exact (finish_calm h ..)
    · exact (giveLog_calm h ..)
  · refine Calm.ite ?_ ?_
    · refine Calm.ite ?_ ?_
      · exact (finish_calm h ..)
      · exact (setStage_calm h ..)
    · exact h

theorem renewLease_calm {s0 s : State} (h : Calm s0 s) (a0) : Calm s0 (renewLease a0 s) := by
  unfold renewLease
  split
  · exact h
  · extract_lets -underBinder -merge y0 y1 y2
    have hy1 : Calm s0 y1 := (updStream_calm h ..)
    try clear_value y1
    exact (Calm.upd hy1 rfl rfl rfl rfl rfl rfl)

theorem assignRun_calm {s0 s : State} (h : Calm s0 s) (a0 a1 a2) : Calm s0 (assignRun a0 a1 a2 s) := by
  unfold assignRun
  extract_lets -underBinder -merge y0
  split
  · exact h
  · extract_lets -underBinder -merge y1 y2 y3 y4 y5 y6
    have hy2 : Calm s0 y2 := by
      refine Calm.ite ?_ ?_
      · exact (renewLease_calm h ..)
      · exact h
    have hy3 : Calm s0 y3 := (updStream_calm hy2 ..)
    have hy4 : Calm s0 y4 := (runSettled_calm (updStream_calm h ..) ..)
    have hy5 : Calm s0 y5 := (updCmd_calm hy4 ..)
    have hy6 : Calm s0 y6 := by
      refine Calm.ite ?_ ?_
      · exact (renewLease_calm hy5 ..)
      · exact hy5
    try clear_value y6
    try clear_value y5
    try clear_value y4
    try clear_value y3
    try clear_value y2
    refine Calm.ite ?_ ?_
    · exact (settle_calm (stopWrite_calm h ..) ..)
    · refine Calm.ite ?_ ?_
      · exact (settle_calm (stopWrite_calm h ..) ..)
      · refine Calm.ite ?_ ?_
        · exact (settle_calm (raise_calm (stopWrite_calm h ..) ..) ..)
        · refine Calm.ite ?_ ?_
          · exact (setJob_calm hy3 ..)
          · exact (settle_calm (packStream_calm hy6 ..) ..)

theorem failOpen_calm {s0 s : State} (h : Calm s0 s) (a0 a1 a2 a3) : Calm s0 (failOpen a0 a1 a2 a3 s) := by
  unfold failOpen
  extract_lets -underBinder -merge y0 y1
  split
  · refine Calm.ite ?_ ?_
    · exact (complete_calm (onPost_calm h ..) ..)
    · exact (complete_calm h ..)
  · exact (complete_calm h ..)

theorem startDrain_calm {s0 s : State} (h : Calm s0 s) (a0 a1 a2) : Calm s0 (startDrain a0 a1 a2 s) := by
  unfold startDrain
  extract_lets -underBinder -merge y0 y1 y2
  have hy1 : Calm s0 y1 := (setStage_calm h ..)
  try clear_value y1
  refine failIfStopped_calm ?_ ..
  refine settle_calm ?_ ..
  refine Calm.foldl ?_ (fun y3 a hy3 => ?_)
  · exact hy1
  · beta_reduce
    exact (cutBlock_calm hy3 ..)

end Sys2Proof.Machine
end

