-- ==== Sys2Proof/Laws/CalmTransport.lean ====
section
/-! SUPPORT. The operations of Machine/Transport.lean keep what `Calm` says. -/

namespace Sys2Proof.Machine

theorem sendAsl_calm {s0 s : State} (h : Calm s0 s) (a0 a1 a2) : Calm s0 (sendAsl a0 a1 a2 s) := by
  unfold sendAsl
  extract_lets -underBinder -merge y0 y1
  refine emit_calm ?_ ..
  exact (Calm.upd h rfl rfl rfl rfl rfl rfl)

theorem sendAll_calm {s0 s : State} (h : Calm s0 s) (a0 a1) : Calm s0 (sendAll a0 a1 s) := by
  unfold sendAll
  refine Calm.foldl ?_ (fun y0 a hy0 => ?_)
  · exact h
  · beta_reduce
    exact (sendAsl_calm hy0 ..)

theorem enableStages_calm {s0 s : State} (h : Calm s0 s) : Calm s0 (enableStages s) := by
  unfold enableStages
  exact (retarget_calm (sendAll_calm h ..) ..)

theorem zeroOutputs_calm {s0 s : State} (h : Calm s0 s) : Calm s0 (zeroOutputs s) := by
  unfold zeroOutputs
  extract_lets -underBinder -merge y0
  exact (Calm.upd h rfl rfl rfl rfl rfl rfl)

theorem disableStages_calm {s0 s : State} (h : Calm s0 s) : Calm s0 (disableStages s) := by
  unfold disableStages
  exact (zeroOutputs_calm (sendAll_calm h ..) ..)

theorem tceClear_calm {s0 s : State} (h : Calm s0 s) (a0) : Calm s0 (tceClear a0 s) := by
  unfold tceClear
  extract_lets -underBinder -merge y0 y1 y2 y3 y4 y5
  have hy2 : Calm s0 y2 := (Calm.upd h rfl rfl rfl rfl rfl rfl)
  have hy4 : Calm s0 y4 := by
    refine enableStages_calm ?_ ..
    exact (Calm.upd hy2 rfl rfl rfl rfl rfl rfl)
  try clear_value y4
  try clear_value y2
  refine Calm.ite ?_ ?_
  · exact h
  · refine Calm.ite ?_ ?_
    · exact hy2
    · exact (setLoop_calm hy4 ..)

theorem transportOff_calm {s0 s : State} (h : Calm s0 s) : Calm s0 (transportOff s) := by
  unfold transportOff
  extract_lets -underBinder -merge y0
  refine Calm.ite ?_ ?_
  · refine disableStages_calm ?_ ..
    exact (Calm.upd h rfl rfl rfl rfl rfl rfl)
  · exact h

end Sys2Proof.Machine
end

