-- ==== Sys2Proof/Laws/CalmCartridge.lean ====
section
/-! SUPPORT. The operations of Machine/Cartridge.lean keep what `Calm` says. -/

namespace Sys2Proof.Machine

theorem clearStreams_calm {s0 s : State} (h : Calm s0 s) : Calm s0 (clearStreams s) := by
  unfold clearStreams
  extract_lets -underBinder -merge y0 y1
  have hy0 : Calm s0 y0 := by
    refine Calm.foldl ?_ (fun y2 a hy2 => ?_)
    · exact h
    · beta_reduce
      exact (closeStream_calm hy2 ..)
  try clear_value y0
  exact (Calm.upd hy0 rfl rfl rfl rfl rfl rfl)

theorem dropCkpt_calm {s0 s : State} (h : Calm s0 s) : Calm s0 (dropCkpt s) := by
  unfold dropCkpt
  split
  · extract_lets -underBinder -merge y0
    refine dropHeld_calm ?_ ..
    refine freeOpt_calm ?_ ..
    exact (Calm.upd h rfl rfl rfl rfl rfl rfl)
  · exact h

theorem clearCart_calm {s0 s : State} (h : Calm s0 s) (a0) : Calm s0 (clearCart a0 s) := by
  unfold clearCart
  extract_lets -underBinder -merge y0 y1 y2
  have hy0 : Calm s0 y0 := (dropCkpt_calm (clearStreams_calm h ..) ..)
  have hy1 : Calm s0 y1 := by
    subst y1
    split
    · exact (freeOpt_calm hy0 ..)
    · exact hy0
  try clear_value y1
  try clear_value y0
  refine clearReads_calm ?_ ..
  exact (Calm.upd hy1 rfl rfl rfl rfl rfl rfl)

theorem askCkpt_calm {s0 s : State} (h : Calm s0 s) (a0) : Calm s0 (askCkpt a0 s) := by
  unfold askCkpt
  extract_lets -underBinder -merge y0 y1 y2 y3 y4
  have hy0 : Calm s0 y0.2 := (agentTag_calm h ..)
  have hy1 : Calm s0 y1.1 := (askBuf_calm hy0 ..)
  have hy3 : Calm s0 y3 := hy1
  try clear_value y1
  try clear_value y0
  exact (Calm.upd hy3 rfl rfl rfl rfl rfl rfl)

theorem startCopy_calm {s0 s : State} (h : Calm s0 s) (a0) : Calm s0 (startCopy a0 s) := by
  unfold startCopy
  exact (askCkpt_calm h ..)

theorem endFlush_calm {s0 s : State} (h : Calm s0 s) (a0 a1 a2 a3) : Calm s0 (endFlush a0 a1 a2 a3 s) := by
  unfold endFlush
  extract_lets -underBinder -merge y0 y1 y2
  exact (complete_calm h ..)

theorem endSyncs_calm {s0 s : State} (h : Calm s0 s) (a0 a1) : Calm s0 (endSyncs a0 a1 s) := by
  unfold endSyncs
  refine Calm.foldl ?_ (fun y0 a hy0 => ?_)
  · exact h
  · beta_reduce
    split
    · split
      · refine Calm.ite ?_ ?_
        · exact (endFlush_calm hy0 ..)
        · exact hy0
      · exact hy0
    · exact hy0

theorem renewAll_calm {s0 s : State} (h : Calm s0 s) : Calm s0 (renewAll s) := by
  unfold renewAll
  refine Calm.foldl ?_ (fun y0 a hy0 => ?_)
  · exact h
  · beta_reduce
    refine Calm.ite ?_ ?_
    · exact (renewLease_calm hy0 ..)
    · exact hy0

theorem loadDone_calm {s0 s : State} (h : Calm s0 s) (a0) : Calm s0 (loadDone a0 s) := by
  unfold loadDone
  extract_lets -underBinder -merge y0 y1 y2 y3 y4 y5 y6
  have hy5 : Calm s0 y5 := (Calm.upd h rfl rfl rfl rfl rfl rfl)
  have hy6 : Calm s0 y6 := by
    refine Calm.ite ?_ ?_
    · exact (renewAll_calm hy5 ..)
    · exact hy5
  try clear_value y6
  try clear_value y5
  split
  · exact (finishWith_calm (onPost_calm hy6 ..) ..)
  · exact (raise_calm (enterCart_calm hy6 ..) ..)

theorem ckptFailed_calm {s0 s : State} (h : Calm s0 s) (a0) : Calm s0 (ckptFailed a0 s) := by
  unfold ckptFailed
  extract_lets -underBinder -merge y0 y1 y2 y3 y4
  have hy0 : Calm s0 y0 := (raise_calm (dropCkpt_calm h ..) ..)
  have hy1 : Calm s0 y1 := (endSyncs_calm hy0 ..)
  have hy2 : Calm s0 y2 := by
    subst y2
    split
    · extract_lets -underBinder -merge y5
      refine complete_calm ?_ ..
      refine onPost_calm ?_ ..
      exact (Calm.upd hy1 rfl rfl rfl rfl rfl rfl)
    · exact hy1
  have hy3 : Calm s0 y3 := by
    subst y3
    split
    · refine Calm.ite ?_ ?_
      · exact (loadDone_calm hy2 ..)
      · exact hy2
    · exact hy2
  try clear_value y3
  try clear_value y2
  try clear_value y1
  try clear_value y0
  refine Calm.ite ?_ ?_
  · exact (Calm.upd hy3 rfl rfl rfl rfl rfl rfl)
  · exact hy3

theorem beginCkpt_calm {s0 s : State} (h : Calm s0 s) (a0 a1 a2) : Calm s0 (beginCkpt a0 a1 a2 s) := by
  unfold beginCkpt
  extract_lets -underBinder -merge y0 y1 y2 y3 y4
  have hy4 : Calm s0 y4 := (Calm.upd h rfl rfl rfl rfl rfl rfl)
  try clear_value y4
  refine Calm.ite ?_ ?_
  · exact (ckptFailed_calm hy4 ..)
  · exact (startCopy_calm hy4 ..)

theorem tryCkpt_calm {s0 s : State} (h : Calm s0 s) : Calm s0 (tryCkpt s) := by
  unfold tryCkpt
  extract_lets -underBinder -merge y0 y1 y2
  refine Calm.ite ?_ ?_
  · exact h
  · refine Calm.ite ?_ ?_
    · exact (beginCkpt_calm h ..)
    · refine endSyncs_calm ?_ ..
      refine raiseIf_calm ?_ ..
      exact (Calm.upd h rfl rfl rfl rfl rfl rfl)

theorem refuseLoad_calm {s0 s : State} (h : Calm s0 s) (a0 a1) : Calm s0 (refuseLoad a0 a1 s) := by
  unfold refuseLoad
  extract_lets -underBinder -merge y0 y1
  have hy0 : Calm s0 y0 := (clearStreams_calm h ..)
  try clear_value y0
  exact (Calm.upd hy0 rfl rfl rfl rfl rfl rfl)

theorem loadEntries_calm {s0 s : State} (h : Calm s0 s) (a0 a1 a2) : Calm s0 (loadEntries a0 a1 a2 s).2 := by
  unfold loadEntries
  extract_lets -underBinder -merge y0
  exact (Calm.upd h rfl rfl rfl rfl rfl rfl)

theorem loadUnformatted_calm {s0 s : State} (h : Calm s0 s) (a0 a1) : Calm s0 (loadUnformatted a0 a1 s) := by
  unfold loadUnformatted
  extract_lets -underBinder -merge y0 y1
  have hy1 : Calm s0 y1 := (Calm.upd h rfl rfl rfl rfl rfl rfl)
  try clear_value y1
  split
  · exact (finishWith_calm (onPost_calm hy1 ..) ..)
  · exact (raise_calm (enterCart_calm hy1 ..) ..)

theorem loadTag_calm {s0 s : State} (h : Calm s0 s) (a0) : Calm s0 (loadTag a0 s).2 := by
  unfold loadTag
  extract_lets -underBinder -merge y0 y1 y2
  have hy0 : Calm s0 y0.2 := (agentTag_calm h ..)
  have hy1 : Calm s0 y1 := hy0
  try clear_value y0
  exact (Calm.upd hy1 rfl rfl rfl rfl rfl rfl)

theorem endLoad_calm {s0 s : State} (h : Calm s0 s) (a0) : Calm s0 (endLoad a0 s) := by
  unfold endLoad
  extract_lets -underBinder -merge y0 y1 y2
  have hy1 : Calm s0 y1 := (Calm.upd h rfl rfl rfl rfl rfl rfl)
  try clear_value y1
  refine Calm.ite ?_ ?_
  · refine beginCkpt_calm ?_ ..
    exact (Calm.upd hy1 rfl rfl rfl rfl rfl rfl)
  · exact (loadDone_calm hy1 ..)

theorem endScan_calm {s0 s : State} (h : Calm s0 s) (a0 a1) : Calm s0 (endScan a0 a1 s) := by
  unfold endScan
  extract_lets -underBinder -merge y0 y1 y2
  have hy1 : Calm s0 y1 := (Calm.upd h rfl rfl rfl rfl rfl rfl)
  try clear_value y1
  refine Calm.ite ?_ ?_
  · exact (refuseLoad_calm hy1 ..)
  · refine Calm.ite ?_ ?_
    · exact (endLoad_calm hy1 ..)
    · exact (Calm.upd hy1 rfl rfl rfl rfl rfl rfl)

theorem scanFound_calm {s0 s : State} (h : Calm s0 s) (a0 a1) : Calm s0 (scanFound a0 a1 s) := by
  unfold scanFound
  extract_lets -underBinder -merge y0 y1 y2 y3
  have hy0 : Calm s0 y0.2 := (loadEntries_calm h ..)
  have hy1 : Calm s0 y1 := hy0
  try clear_value y0
  exact (Calm.upd hy1 rfl rfl rfl rfl rfl rfl)

theorem scanDamaged_calm {s0 s : State} (h : Calm s0 s) (a0 a1) : Calm s0 (scanDamaged a0 a1 s) := by
  unfold scanDamaged
  split
  · exact (scanFound_calm h ..)
  · extract_lets -underBinder -merge y0
    refine scanFound_calm ?_ ..
    refine raise_calm ?_ ..
    exact (Calm.upd h rfl rfl rfl rfl rfl rfl)

theorem copyAVerified_calm {s0 s : State} (h : Calm s0 s) (a0) : Calm s0 (copyAVerified a0 s) := by
  unfold copyAVerified
  extract_lets -underBinder -merge y0 y1 y2 y3 y4 y5
  have hy2 : Calm s0 y2 := (Calm.upd h rfl rfl rfl rfl rfl rfl)
  have hy3 : Calm s0 y3 := (endSyncs_calm hy2 ..)
  have hy4 : Calm s0 y4 := by
    subst y4
    split
    · extract_lets -underBinder -merge y6
      refine finish_calm ?_ ..
      refine onPost_calm ?_ ..
      exact (Calm.upd hy3 rfl rfl rfl rfl rfl rfl)
    · exact hy3
  have hy5 : Calm s0 y5 := by
    subst y5
    split
    · refine Calm.ite ?_ ?_
      · exact (loadDone_calm hy4 ..)
      · exact hy4
    · exact hy4
  try clear_value y5
  try clear_value y4
  try clear_value y3
  try clear_value y2
  exact (startCopy_calm hy5 ..)

theorem afterCkpt_calm {s0 s : State} (h : Calm s0 s) : Calm s0 (afterCkpt s) := by
  unfold afterCkpt
  extract_lets -underBinder -merge y0 y1
  have hy0 : Calm s0 y0 := (dropCkpt_calm h ..)
  try clear_value y0
  refine Calm.ite ?_ ?_
  · exact (Calm.upd hy0 rfl rfl rfl rfl rfl rfl)
  · exact (startRead_calm (tryCkpt_calm hy0 ..) ..)

theorem flushDone_calm {s0 s : State} (h : Calm s0 s) (a0 a1 a2) : Calm s0 (flushDone a0 a1 a2 s) := by
  unfold flushDone
  extract_lets -underBinder -merge y0 y1
  have hy0 : Calm s0 y0 := (setStage_calm h ..)
  try clear_value y0
  refine Calm.ite ?_ ?_
  · exact (endFlush_calm h ..)
  · refine tryCkpt_calm ?_ ..
    exact (Calm.upd hy0 rfl rfl rfl rfl rfl rfl)

theorem closeDone_calm {s0 s : State} (h : Calm s0 s) (a0 a1 a2) : Calm s0 (closeDone a0 a1 a2 s) := by
  unfold closeDone
  extract_lets -underBinder -merge y0 y1 y2
  exact (complete_calm (closeStream_calm h ..) ..)

theorem unloadDrained_calm {s0 s : State} (h : Calm s0 s) (a0 a1) : Calm s0 (unloadDrained a0 a1 s) := by
  unfold unloadDrained
  extract_lets -underBinder -merge y0 y1 y2
  have hy0 : Calm s0 y0 := by
    refine Calm.foldl ?_ (fun y3 a hy3 => ?_)
    · exact h
    · beta_reduce
      exact (closeStream_calm hy3 ..)
  have hy1 : Calm s0 y1 := (setStage_calm hy0 ..)
  try clear_value y1
  try clear_value y0
  refine Calm.ite ?_ ?_
  · exact (beginCkpt_calm hy1 ..)
  · exact (Calm.upd hy1 rfl rfl rfl rfl rfl rfl)

theorem flushIfDone_calm {s0 s : State} (h : Calm s0 s) (a1) : Calm s0 (flushIfDone s a1) := by
  unfold flushIfDone
  split
  · exact h
  · split
    · extract_lets -underBinder -merge y0
      refine Calm.ite ?_ ?_
      · exact h
      · exact (flushDone_calm h ..)
    · exact h

theorem flushesDone_calm {s0 s : State} (h : Calm s0 s) : Calm s0 (flushesDone s) := by
  unfold flushesDone
  refine Calm.foldl ?_ (fun y0 a hy0 => ?_)
  · exact h
  · beta_reduce
    exact (flushIfDone_calm hy0 ..)

end Sys2Proof.Machine
end

