-- ==== Sys2Proof/Laws/CalmWritePath.lean ====
section
/-! SUPPORT. The operations of Machine/WritePath.lean keep what `Calm` says. -/

namespace Sys2Proof.Machine

theorem updDs_calm {s0 s : State} (h : Calm s0 s) (a0 a1) : Calm s0 (updDs a0 a1 s) := by
  unfold updDs
  extract_lets -underBinder -merge y0
  exact (Calm.upd h rfl rfl rfl rfl rfl rfl)

theorem sweep_calm {s0 s : State} (h : Calm s0 s) : Calm s0 (sweep s) := by
  unfold sweep
  extract_lets -underBinder -merge y0 y1 y2
  refine Calm.foldl ?_ (fun y3 a hy3 => ?_)
  · exact (Calm.upd h rfl rfl rfl rfl rfl rfl)
  · beta_reduce
    exact (freeOpt_calm hy3 ..)

theorem loseSectors_calm {s0 s : State} (h : Calm s0 s) (a0 a1) : Calm s0 (loseSectors a0 a1 s) := by
  unfold loseSectors
  extract_lets -underBinder -merge y0 y1
  have hy0 : Calm s0 y0 := by
    refine Calm.foldl ?_ (fun y2 a hy2 => ?_)
    · exact h
    · beta_reduce
      exact (raise_calm (updDs_calm hy2 ..) ..)
  try clear_value y0
  refine Calm.ite ?_ ?_
  · exact h
  · refine failDs_calm ?_ ..
    exact (Calm.upd hy0 rfl rfl rfl rfl rfl rfl)

theorem setGates_calm {s0 s : State} (h : Calm s0 s) (a0) : Calm s0 (setGates a0 s) := by
  unfold setGates
  extract_lets -underBinder -merge y0
  refine Calm.ite ?_ ?_
  · exact h
  · refine emit_calm ?_ ..
    exact (Calm.upd h rfl rfl rfl rfl rfl rfl)

theorem setSpeed_calm {s0 s : State} (h : Calm s0 s) (a0) : Calm s0 (setSpeed a0 s) := by
  unfold setSpeed
  extract_lets -underBinder -merge y0
  refine Calm.ite ?_ ?_
  · exact h
  · refine raise_calm ?_ ..
    exact (Calm.upd h rfl rfl rfl rfl rfl rfl)

theorem chooseSpeed_calm {s0 s : State} (h : Calm s0 s) (a0) : Calm s0 (chooseSpeed a0 s) := by
  unfold chooseSpeed
  extract_lets -underBinder -merge y0 y1 y2 y3 y4
  have hy2 : Calm s0 y2 := (Calm.upd h rfl rfl rfl rfl rfl rfl)
  try clear_value y2
  refine Calm.ite ?_ ?_
  · exact (setSpeed_calm hy2 ..)
  · refine Calm.ite ?_ ?_
    · exact (setSpeed_calm hy2 ..)
    · refine Calm.ite ?_ ?_
      · exact (setSpeed_calm hy2 ..)
      · refine Calm.ite ?_ ?_
        · exact (setSpeed_calm hy2 ..)
        · refine Calm.ite ?_ ?_
          · exact (setSpeed_calm hy2 ..)
          · refine Calm.ite ?_ ?_
            · exact (setSpeed_calm hy2 ..)
            · exact hy2

theorem encodeAs_calm {s0 s : State} (h : Calm s0 s) (a0 a1 a2) : Calm s0 (encodeAs a0 a1 a2 s) := by
  unfold encodeAs
  extract_lets -underBinder -merge y0 y1 y2 y3 y4 y5 y6 y7 y8 y9 y10
  have hy4 : Calm s0 y4.2 := (agentTag_calm h ..)
  have hy7 : Calm s0 y7 := by
    subst y7
    split
    · exact (giveOwn_calm hy4 ..)
    · exact hy4
  have hy9 : Calm s0 y9 := (Calm.upd hy7 rfl rfl rfl rfl rfl rfl)
  have hy10 : Calm s0 y10 := (raiseIf_calm hy9 ..)
  try clear_value y10
  try clear_value y9
  try clear_value y7
  try clear_value y4
  refine Calm.ite ?_ ?_
  · exact (failDs_calm (raise_calm hy10 ..) ..)
  · exact hy10

theorem encodeCkpt_calm {s0 s : State} (h : Calm s0 s) (a0) : Calm s0 (encodeCkpt a0 s) := by
  unfold encodeCkpt
  extract_lets -underBinder -merge y0 y1 y2 y3 y4 y5
  have hy4 : Calm s0 y4 := (Calm.upd h rfl rfl rfl rfl rfl rfl)
  have hy5 : Calm s0 y5 := by
    refine Calm.ite ?_ ?_
    · exact (askCkpt_calm hy4 ..)
    · exact hy4
  try clear_value y5
  try clear_value y4
  refine Calm.ite ?_ ?_
  · exact (Calm.upd h rfl rfl rfl rfl rfl rfl)
  · refine Calm.ite ?_ ?_
    · exact h
    · exact (encodeAs_calm hy5 ..)

theorem encodeStart_calm {s0 s : State} (h : Calm s0 s) : Calm s0 (encodeStart s) := by
  unfold encodeStart
  extract_lets -underBinder -merge y0
  have hy0 : Calm s0 y0 := (sweep_calm (judgeMembers_calm h ..) ..)
  try clear_value y0
  split
  · exact (encodeCkpt_calm hy0 ..)
  · exact hy0
  · extract_lets -underBinder -merge y1 y2 y3 y4
    refine Calm.ite ?_ ?_
    · exact (Calm.upd hy0 rfl rfl rfl rfl rfl rfl)
    · refine encodeAs_calm ?_ ..
      exact (Calm.upd hy0 rfl rfl rfl rfl rfl rfl)

theorem lateFills_calm {s0 s : State} (h : Calm s0 s) : Calm s0 (lateFills s) := by
  unfold lateFills
  extract_lets -underBinder -merge y0 y1
  exact (Calm.upd h rfl rfl rfl rfl rfl rfl)

theorem emptyBanks_calm {s0 s : State} (h : Calm s0 s) : Calm s0 (emptyBanks s) := by
  unfold emptyBanks
  exact (Calm.upd h rfl rfl rfl rfl rfl rfl)

theorem dsTagBad_calm {s0 s : State} (h : Calm s0 s) : Calm s0 (dsTagBad s) := by
  unfold dsTagBad
  split
  · exact h
  · exact (settle_calm (badTag_calm h ..) ..)

theorem dsUnreadable_calm {s0 s : State} (h : Calm s0 s) (a0) : Calm s0 (dsUnreadable a0 s) := by
  unfold dsUnreadable
  exact (failDs_calm (answer_calm h ..) ..)

theorem fillBanks_calm {s0 s : State} (h : Calm s0 s) (a0 a1) : Calm s0 (fillBanks a0 a1 s) := by
  unfold fillBanks
  extract_lets -underBinder -merge y0 y1
  have hy1 : Calm s0 y1.2 := by
    refine Calm.ite_snd ?_ ?_
    · exact h
    · exact (agentTag_calm h ..)
  try clear_value y1
  refine Calm.foldl ?_ (fun y2 a hy2 => ?_)
  · exact hy1
  · beta_reduce
    exact (updChan_calm hy2 ..)

theorem drainBank_calm {s0 s : State} (h : Calm s0 s) (a0 a1 a2) : Calm s0 (drainBank a0 a1 a2 s) := by
  unfold drainBank
  extract_lets -underBinder -merge y0
  exact (emit_calm (updChan_calm h ..) ..)

theorem countJudged_calm {s0 s : State} (h : Calm s0 s) (a0 a1) : Calm s0 (countJudged a0 a1 s) := by
  unfold countJudged
  exact (updChan_calm h ..)

theorem countFail_calm {s0 s : State} (h : Calm s0 s) (a0 a1) : Calm s0 (countFail a0 a1 s) := by
  unfold countFail
  extract_lets -underBinder -merge y0
  exact (raiseIf_calm (updChan_calm h ..) ..)

theorem cutHome_calm {s0 s : State} (h : Calm s0 s) (a0 a1 a2) : Calm s0 (cutHome a0 a1 a2 s) := by
  unfold cutHome
  exact (updDs_calm h ..)

theorem cutCopy_calm {s0 s : State} (h : Calm s0 s) (a0 a1 a2) : Calm s0 (cutCopy a0 a1 a2 s) := by
  unfold cutCopy
  split
  · exact h
  · extract_lets -underBinder -merge y0 y1
    have hy1 : Calm s0 y1 := (updDs_calm h ..)
    try clear_value y1
    refine Calm.ite ?_ ?_
    · exact h
    · refine Calm.ite ?_ ?_
      · exact hy1
      · exact (loseSectors_calm hy1 ..)

theorem cutImage_calm {s0 s : State} (h : Calm s0 s) (a0 a1) : Calm s0 (cutImage a0 a1 s) := by
  unfold cutImage
  refine Calm.ite ?_ ?_
  · exact (cutHome_calm h ..)
  · refine Calm.ite ?_ ?_
    · exact h
    · exact (cutCopy_calm h ..)

theorem countCopy_calm {s0 s : State} (h : Calm s0 s) (a0) : Calm s0 (countCopy a0 s) := by
  unfold countCopy
  extract_lets -underBinder -merge y0 y1
  have hy1 : Calm s0 y1 := (Calm.upd h rfl rfl rfl rfl rfl rfl)
  try clear_value y1
  split
  · exact (updDs_calm hy1 ..)
  · exact hy1

theorem writeSlot_calm {s0 s : State} (h : Calm s0 s) (a0 a1 a3) : Calm s0 (writeSlot a0 a1 s a3) := by
  unfold writeSlot
  split
  · exact h
  · extract_lets -underBinder -merge y0 y1 y2 y3 y4
    have hy1 : Calm s0 y1 := (drainBank_calm h ..)
    have hy2 : Calm s0 y2 := by
      refine Calm.ite ?_ ?_
      · exact (countCopy_calm hy1 ..)
      · exact hy1
    have hy3 : Calm s0 y3 := (cutImage_calm (raise_calm hy2 ..) ..)
    have hy4 : Calm s0 y4 := by
      refine Calm.ite ?_ ?_
      · exact (countJudged_calm hy3 ..)
      · exact hy3
    try clear_value y4
    try clear_value y3
    try clear_value y2
    try clear_value y1
    refine Calm.ite ?_ ?_
    · exact hy2
    · refine Calm.ite ?_ ?_
      · exact hy4
      · exact (countFail_calm hy4 ..)

theorem skipSlot_calm {s0 s : State} (h : Calm s0 s) (a0 a2) : Calm s0 (skipSlot a0 s a2) := by
  unfold skipSlot
  split
  · exact h
  · exact (cutImage_calm (updChan_calm h ..) ..)

theorem placeCopy_calm {s0 : State} {a : List (Nat × Nat) × List Placement × State} (h : Calm s0 a.2.2) (x) :
    Calm s0 (placeCopy a x).2.2 := by
  unfold placeCopy
  split
  split
  · exact h
  · split
    · exact h
    · split
      · exact h
      · exact updDs_calm (agentTag_calm h ..) ..

theorem placeCopies_calm {s0 : State} (l : List (Nat × Nat × Nat × Bool)) :
    ∀ a : List (Nat × Nat) × List Placement × State, Calm s0 a.2.2 → Calm s0 (l.foldl placeCopy a).2.2 := by
  induction l with
  | nil => exact fun _ h => h
  | cons x l ih => exact fun a h => ih _ (placeCopy_calm h x)

theorem commitDs_calm {s0 s : State} (h : Calm s0 s) (a0) : Calm s0 (commitDs a0 s) := by
  unfold commitDs
  extract_lets -underBinder -merge y0 y1 y2 y3 y4 y5
  have hy3 : Calm s0 y3 := updDs_calm (placeCopies_calm _ _ h) ..
  have hy5 : Calm s0 y5 := (Calm.upd hy3 rfl rfl rfl rfl rfl rfl)
  try clear_value y5
  try clear_value y3
  split
  · refine Calm.ite ?_ ?_
    · exact (loseSectors_calm hy5 ..)
    · exact hy5
  · exact hy5

theorem commitHead_calm {s0 s : State} (h : Calm s0 s) : Calm s0 (commitHead s) := by
  unfold commitHead
  split
  · exact h
  · refine Calm.ite ?_ ?_
    · exact h
    · exact (commitDs_calm h ..)

theorem endSegment_calm {s0 s : State} (h : Calm s0 s) : Calm s0 (endSegment s) := by
  unfold endSegment
  split
  · refine Calm.ite ?_ ?_
    · refine updDs_calm ?_ ..
      refine Calm.foldl ?_ (fun y0 a hy0 => ?_)
      · exact h
      · beta_reduce
        exact (updChan_calm hy0 ..)
    · exact h
  · exact h

theorem prepareNext_calm {s0 s : State} (h : Calm s0 s) (a0) : Calm s0 (prepareNext a0 s) := by
  unfold prepareNext
  split
  · exact h
  · refine Calm.ite ?_ ?_
    · exact (fillBanks_calm h ..)
    · split
      · exact (fillBanks_calm h ..)
      · exact h

theorem runSlot_calm {s0 s : State} (h : Calm s0 s) (a0 a1) : Calm s0 (runSlot a0 a1 s) := by
  unfold runSlot
  extract_lets -underBinder -merge y0
  have hy0 : Calm s0 y0 := by
    subst y0
    split
    · refine Calm.ite ?_ ?_
      · exact (commitHead_calm h ..)
      · exact h
    · exact h
  try clear_value y0
  split
  · exact hy0
  · extract_lets -underBinder -merge y1 y2 y3 y4 y5 y6 y7 y8 y9
    have hy2 : Calm s0 y2 := (fillBanks_calm hy0 ..)
    have hy4 : Calm s0 y4 := (updDs_calm (eccReads_calm hy2 ..) ..)
    have hy5 : Calm s0 y5 := by
      refine Calm.ite ?_ ?_
      · exact (dsUnreadable_calm hy4 ..)
      · exact hy4
    have hy8 : Calm s0 y8 := by
      refine setGates_calm ?_ ..
      refine Calm.foldl ?_ (fun y10 a hy10 => ?_)
      · exact hy5
      · beta_reduce
        exact (skipSlot_calm hy10 ..)
    have hy9 : Calm s0 y9 := by
      refine Calm.ite ?_ ?_
      · refine Calm.foldl ?_ (fun y11 a hy11 => ?_)
        · exact hy5
        · beta_reduce
          exact (skipSlot_calm hy11 ..)
      · refine Calm.foldl ?_ (fun y12 a hy12 => ?_)
        · exact hy8
        · beta_reduce
          exact (writeSlot_calm hy12 ..)
    try clear_value y9
    try clear_value y8
    try clear_value y5
    try clear_value y4
    try clear_value y2
    exact (prepareNext_calm hy9 ..)

theorem beginDs_calm {s0 s : State} (h : Calm s0 s) (a0) : Calm s0 (beginDs a0 s) := by
  unfold beginDs
  extract_lets -underBinder -merge y0
  refine updDs_calm ?_ ..
  refine sweep_calm ?_ ..
  exact (Calm.upd h rfl rfl rfl rfl rfl rfl)

theorem storeOffset_calm {s0 s : State} (h : Calm s0 s) (a0 a1 a2) : Calm s0 (storeOffset a0 a1 a2 s) := by
  unfold storeOffset
  extract_lets -underBinder -merge y0
  exact (Calm.upd h rfl rfl rfl rfl rfl rfl)

theorem homeFailed_calm {s0 s : State} (h : Calm s0 s) (a0 a1) : Calm s0 (homeFailed a0 a1 s) := by
  unfold homeFailed
  extract_lets -underBinder -merge y0
  have hy0 : Calm s0 y0 := (updChan_calm h ..)
  try clear_value y0
  refine Calm.ite ?_ ?_
  · exact hy0
  · exact (countJudged_calm hy0 ..)

theorem judgeChannel_calm {s0 s : State} (h : Calm s0 s) (a0 a1) : Calm s0 (judgeChannel a0 a1 s) := by
  unfold judgeChannel
  extract_lets -underBinder -merge y0 y1 y2 y3 y4
  have hy3 : Calm s0 y3 := (setChan_calm h ..)
  try clear_value y3
  refine Calm.ite ?_ ?_
  · exact (declareFailed_calm hy3 ..)
  · exact hy3

theorem copyFailed_calm {s0 s : State} (h : Calm s0 s) (a0 a1) : Calm s0 (copyFailed a0 a1 s) := by
  unfold copyFailed
  extract_lets -underBinder -merge y0 y1
  have hy1 : Calm s0 y1 := (updDs_calm h ..)
  try clear_value y1
  refine Calm.ite ?_ ?_
  · exact (loseSectors_calm hy1 ..)
  · exact hy1

theorem moveSector_calm {s0 s : State} (h : Calm s0 s) (a0 a1) : Calm s0 (moveSector a0 a1 s) := by
  unfold moveSector
  split
  · exact h
  · extract_lets -underBinder -merge y0
    refine Calm.ite ?_ ?_
    · exact h
    · refine Calm.ite ?_ ?_
      · refine Calm.ite ?_ ?_
        · exact h
        · exact (updDs_calm h ..)
      · refine Calm.ite ?_ ?_
        · exact h
        · refine Calm.ite ?_ ?_
          · exact (updDs_calm h ..)
          · exact (copyFailed_calm h ..)

theorem postVerdict_calm {s0 s : State} (h : Calm s0 s) (a0 a1 a2) : Calm s0 (postVerdict a0 a1 a2 s) := by
  unfold postVerdict
  extract_lets -underBinder -merge y0 y1 y2 y3 y4 y5 y6 y7 y8 y9
  have hy1 : Calm s0 y1 := (updChan_calm h ..)
  have hy4 : Calm s0 y4 := (Calm.upd hy1 rfl rfl rfl rfl rfl rfl)
  have hy6 : Calm s0 y6 := (Calm.upd hy4 rfl rfl rfl rfl rfl rfl)
  have hy7 : Calm s0 y7 := (moveSector_calm hy6 ..)
  have hy8 : Calm s0 y8 := by
    refine Calm.ite ?_ ?_
    · exact (countFail_calm hy7 ..)
    · exact hy7
  have hy9 : Calm s0 y9 := by
    refine Calm.ite ?_ ?_
    · exact (homeFailed_calm hy8 ..)
    · exact hy8
  try clear_value y9
  try clear_value y8
  try clear_value y7
  try clear_value y6
  try clear_value y4
  try clear_value y1
  refine Calm.ite ?_ ?_
  · exact hy4
  · refine Calm.ite ?_ ?_
    · exact (judgeChannel_calm hy9 ..)
    · exact hy9

theorem closeWindows_calm {s0 s : State} (h : Calm s0 s) : Calm s0 (closeWindows s) := by
  unfold closeWindows
  refine Calm.foldl ?_ (fun y0 a hy0 => ?_)
  · exact h
  · beta_reduce
    exact (loseSectors_calm hy0 ..)

theorem burstSlot_calm {s0 s : State} (h : Calm s0 s) (a0 a1 a2 a4) : Calm s0 (burstSlot a0 a1 a2 s a4) := by
  unfold burstSlot
  extract_lets -underBinder -merge y0
  have hy0 : Calm s0 y0.2 := (agentTag_calm h ..)
  try clear_value y0
  refine Calm.foldl ?_ (fun y1 a hy1 => ?_)
  · exact hy0
  · beta_reduce
    exact (drainBank_calm hy1 ..)

theorem endPass_calm {s0 s : State} (h : Calm s0 s) : Calm s0 (endPass s) := by
  unfold endPass
  extract_lets -underBinder -merge y0 y1 y2
  have hy2 : Calm s0 y2 := by
    refine emptyBanks_calm ?_ ..
    refine sweep_calm ?_ ..
    exact (Calm.upd h rfl rfl rfl rfl rfl rfl)
  try clear_value y2
  exact (startRead_calm (tryCkpt_calm hy2 ..) ..)

theorem cutSlot_calm {s0 s : State} (h : Calm s0 s) (a0) : Calm s0 (cutSlot a0 s) := by
  unfold cutSlot
  extract_lets -underBinder -merge y0 y1
  refine Calm.foldl ?_ (fun y2 a hy2 => ?_)
  · exact h
  · beta_reduce
    split
    · exact hy2
    · extract_lets -underBinder -merge y3 y4
      have hy3 : Calm s0 y3 := (updChan_calm hy2 ..)
      have hy4 : Calm s0 y4 := (cutImage_calm hy3 ..)
      try clear_value y4
      try clear_value y3
      refine Calm.ite ?_ ?_
      · exact hy4
      · exact (countFail_calm hy4 ..)

theorem countInhibit_calm {s0 s : State} (h : Calm s0 s) (a0) : Calm s0 (countInhibit a0 s) := by
  unfold countInhibit
  extract_lets -underBinder -merge y0 y1
  have hy1 : Calm s0 y1 := (updDs_calm h ..)
  try clear_value y1
  refine Calm.ite ?_ ?_
  · exact (failDs_calm hy1 ..)
  · exact hy1

theorem guardOnset_calm {s0 s : State} (h : Calm s0 s) (a0) : Calm s0 (guardOnset a0 s) := by
  unfold guardOnset
  extract_lets -underBinder -merge y0 y1 y2 y3 y4
  have hy2 : Calm s0 y2 := (Calm.upd h rfl rfl rfl rfl rfl rfl)
  have hy4 : Calm s0 y4 := (Calm.upd hy2 rfl rfl rfl rfl rfl rfl)
  try clear_value y4
  try clear_value y2
  refine Calm.ite ?_ ?_
  · exact hy2
  · split
    · extract_lets -underBinder -merge y5 y6
      have hy5 : Calm s0 y5 := (raise_calm hy4 ..)
      have hy6 : Calm s0 y6 := by
        refine Calm.ite ?_ ?_
        · exact (cutSlot_calm (setGates_calm hy5 ..) ..)
        · exact hy5
      try clear_value y6
      try clear_value y5
      exact (countInhibit_calm hy6 ..)
    · extract_lets -underBinder -merge y7
      have hy7 : Calm s0 y7 := (raise_calm hy4 ..)
      try clear_value y7
      exact (Calm.upd hy7 rfl rfl rfl rfl rfl rfl)

theorem guardTick_calm {s0 s : State} (h : Calm s0 s) : Calm s0 (guardTick s) := by
  unfold guardTick
  extract_lets -underBinder -merge y0
  exact (Calm.upd h rfl rfl rfl rfl rfl rfl)

end Sys2Proof.Machine
end

