-- ==== Sys2Proof/Laws/CalmRecovery.lean ====
section
/-! SUPPORT. The operations of Machine/Recovery.lean keep what `Calm` says. -/

namespace Sys2Proof.Machine

theorem takeSector_calm {s0 s : State} (h : Calm s0 s) (a0 a1 a2 a3) : Calm s0 (takeSector a0 a1 a2 a3 s) := by
  unfold takeSector
  split
  · exact h
  · split
    · exact h
    · extract_lets -underBinder -merge y0 y1
      exact (Calm.upd h rfl rfl rfl rfl rfl rfl)

theorem joinTails_calm {s0 s : State} (h : Calm s0 s) : Calm s0 (joinTails s) := by
  unfold joinTails
  extract_lets -underBinder -merge y0
  exact (Calm.upd h rfl rfl rfl rfl rfl rfl)

theorem addBlks_calm {s0 s : State} (h : Calm s0 s) (a0 a1 a2 a3 a4) : Calm s0 (addBlks a0 a1 a2 a3 a4 s) := by
  unfold addBlks
  extract_lets -underBinder -merge y0 y1 y2 y3
  refine joinTails_calm ?_ ..
  exact (Calm.upd h rfl rfl rfl rfl rfl rfl)

theorem addHeadless_calm {s0 s : State} (h : Calm s0 s) (a0) : Calm s0 (addHeadless a0 s) := by
  unfold addHeadless
  split
  · exact h
  · extract_lets -underBinder -merge drop
    have hd : ∀ t, Calm s0 t → Calm s0 (drop t) := fun t ht => Calm.upd ht rfl rfl rfl rfl rfl rfl
    clear_value drop
    split
    · exact hd _ (addBlks_calm h ..)
    · extract_lets -underBinder -merge y1
      refine Calm.ite ?_ h
      refine hd _ ?_
      exact Calm.upd h rfl rfl rfl rfl rfl rfl

theorem countRead_calm {s0 s : State} (h : Calm s0 s) (a0) : Calm s0 (countRead a0 s) := by
  unfold countRead
  extract_lets -underBinder -merge y0 y1 y2 y3 y4
  have hy1 : Calm s0 y1 := by
    refine Calm.foldl ?_ (fun y5 a hy5 => ?_)
    · exact h
    · beta_reduce
      exact (updChan_calm hy5 ..)
  have hy4 : Calm s0 y4 := (Calm.upd hy1 rfl rfl rfl rfl rfl rfl)
  try clear_value y4
  try clear_value y1
  refine Calm.foldl ?_ (fun y6 a hy6 => ?_)
  · exact hy4
  · beta_reduce
    exact (raise_calm hy6 ..)

theorem buildCopy_calm {s0 s : State} (h : Calm s0 s) (a0 a1 a2 a3 a4 a5 a6) : Calm s0 (buildCopy a0 a1 a2 a3 a4 a5 a6 s) := by
  unfold buildCopy
  extract_lets -underBinder -merge y0 y1 y2 y3 y4 y5 y6 y7 y8 y9 y10
  have hy5 : Calm s0 y5.2 := (agentTag_calm h ..)
  have hy6 : Calm s0 y6 := hy5
  have hy8 : Calm s0 y8 := by
    refine Calm.foldl ?_ (fun y11 a hy11 => ?_)
    · exact hy6
    · beta_reduce
      exact (raise_calm hy11 ..)
  have hy10 : Calm s0 y10 := (Calm.upd hy8 rfl rfl rfl rfl rfl rfl)
  try clear_value y10
  try clear_value y8
  try clear_value y5
  exact (setStage_calm hy10 ..)

theorem rebuildTake_calm {s0 s : State} (h : Calm s0 s) (a0 a1 a2 a3 a4) : Calm s0 (rebuildTake a0 a1 a2 a3 a4 s) := by
  unfold rebuildTake
  split
  · exact h
  · extract_lets -underBinder -merge y0
    refine Calm.ite ?_ ?_
    · exact h
    · refine Calm.ite ?_ ?_
      · exact (setStage_calm h ..)
      · refine Calm.ite ?_ ?_
        · exact (setStage_calm h ..)
        · exact (buildCopy_calm h ..)

theorem endDsRead_calm {s0 s : State} (h : Calm s0 s) (a0) : Calm s0 (endDsRead a0 s) := by
  unfold endDsRead
  extract_lets -underBinder -merge y0 y1 y2 y3 y4 y5 y6 y7 y8 y9 y10 y11
  have hy0 : Calm s0 y0 := (countRead_calm h ..)
  have hy4 : Calm s0 y4 := by
    refine freeOpt_calm ?_ ..
    exact (Calm.upd hy0 rfl rfl rfl rfl rfl rfl)
  have hy8 : Calm s0 y8 := (rebuildTake_calm hy4 ..)
  have hy10 : Calm s0 y10 := by
    refine Calm.ite ?_ ?_
    · exact (Calm.upd hy8 rfl rfl rfl rfl rfl rfl)
    · clear_value y1
      split
      · exact (addBlks_calm hy8 ..)
      · extract_lets -underBinder -merge y12
        refine addHeadless_calm ?_ ..
        exact (Calm.upd hy8 rfl rfl rfl rfl rfl rfl)
  have hy11 : Calm s0 y11 := (addHeadless_calm hy10 ..)
  try clear_value y11
  try clear_value y10
  try clear_value y8
  try clear_value y4
  try clear_value y0
  exact (startRead_calm (tryCkpt_calm (settle_calm hy11 ..) ..) ..)

theorem nextRetry_calm {s0 s : State} (h : Calm s0 s) (a0 a1) : Calm s0 (nextRetry a0 a1 s) := by
  unfold nextRetry
  extract_lets -underBinder -merge y0 y1
  refine Calm.ite ?_ ?_
  · exact (endDsRead_calm h ..)
  · exact (Calm.upd h rfl rfl rfl rfl rfl rfl)

theorem dsPoisoned_calm {s0 s : State} (h : Calm s0 s) (a0) : Calm s0 (dsPoisoned a0 s) := by
  unfold dsPoisoned
  extract_lets -underBinder -merge y0 y1 y2 y3
  have hy1 : Calm s0 y1 := (answer_calm h ..)
  have hy3 : Calm s0 y3 := by
    refine freeOpt_calm ?_ ..
    exact (Calm.upd hy1 rfl rfl rfl rfl rfl rfl)
  try clear_value y3
  try clear_value y1
  refine startRead_calm ?_ ..
  refine tryCkpt_calm ?_ ..
  refine Calm.foldl ?_ (fun y4 a hy4 => ?_)
  · exact hy3
  · beta_reduce
    exact (failCmd_calm hy4 ..)

end Sys2Proof.Machine
end

