-- ==== Sys2Proof/Laws/CalmTlcs.lean ====
section
/-! SUPPORT. The operations of Machine/Tlcs.lean keep what `Calm` says. -/

namespace Sys2Proof.Machine

theorem setDco_calm {s0 s : State} (h : Calm s0 s) (a0) : Calm s0 (setDco a0 s) := by
  unfold setDco
  extract_lets -underBinder -merge y0
  exact (Calm.upd h rfl rfl rfl rfl rfl rfl)

theorem putPhase_calm {s0 s : State} (h : Calm s0 s) (a0 a1) : Calm s0 (putPhase a0 a1 s) := by
  unfold putPhase
  extract_lets -underBinder -merge y0
  exact (Calm.upd h rfl rfl rfl rfl rfl rfl)

theorem countTo_calm {s0 s : State} (h : Calm s0 s) (a0) : Calm s0 (countTo a0 s) := by
  unfold countTo
  extract_lets -underBinder -merge y0 y1
  refine Calm.ite ?_ ?_
  · exact h
  · exact (Calm.upd h rfl rfl rfl rfl rfl rfl)

theorem loseLock_calm {s0 s : State} (h : Calm s0 s) (a0) : Calm s0 (loseLock a0 s) := by
  unfold loseLock
  extract_lets -underBinder -merge y0 y1 y2
  have hy0 : Calm s0 y0 := (guardOnset_calm h ..)
  try clear_value y0
  exact (Calm.upd hy0 rfl rfl rfl rfl rfl rfl)

theorem enterLock_calm {s0 s : State} (h : Calm s0 s) : Calm s0 (enterLock s) := by
  unfold enterLock
  extract_lets -underBinder -merge y0
  exact (Calm.upd h rfl rfl rfl rfl rfl rfl)

theorem unlockTlcs_calm {s0 s : State} (h : Calm s0 s) : Calm s0 (unlockTlcs s) := by
  unfold unlockTlcs
  exact (loseLock_calm (raise_calm h ..) ..)

theorem slipTlcs_calm {s0 s : State} (h : Calm s0 s) : Calm s0 (slipTlcs s) := by
  unfold slipTlcs
  exact (loseLock_calm (raise_calm h ..) ..)

theorem tlcsSpeed_calm {s0 s : State} (h : Calm s0 s) (a0) : Calm s0 (tlcsSpeed a0 s) := by
  unfold tlcsSpeed
  extract_lets -underBinder -merge y0 y1 y2 y3 y4
  have hy2 : Calm s0 y2 := by
    refine Calm.ite ?_ ?_
    · exact (guardOnset_calm h ..)
    · exact h
  try clear_value y2
  refine Calm.ite ?_ ?_
  · refine Calm.ite ?_ ?_
    · refine setDco_calm ?_ ..
      exact (Calm.upd h rfl rfl rfl rfl rfl rfl)
    · exact h
  · refine Calm.ite ?_ ?_
    · exact (Calm.upd hy2 rfl rfl rfl rfl rfl rfl)
    · exact h

theorem tlcsReset_calm {s0 s : State} (h : Calm s0 s) : Calm s0 (tlcsReset s) := by
  unfold tlcsReset
  extract_lets -underBinder -merge y0 y1
  have hy0 : Calm s0 y0 := by
    refine Calm.ite ?_ ?_
    · exact (guardOnset_calm h ..)
    · exact h
  try clear_value y0
  exact (Calm.upd hy0 rfl rfl rfl rfl rfl rfl)

theorem holdTilt_calm {s0 s : State} (h : Calm s0 s) : Calm s0 (holdTilt s) := by
  unfold holdTilt
  extract_lets -underBinder -merge y0
  refine Calm.ite ?_ ?_
  · exact h
  · refine raise_calm ?_ ..
    exact (Calm.upd h rfl rfl rfl rfl rfl rfl)

theorem setPosition_calm {s0 s : State} (h : Calm s0 s) (a0 a1) : Calm s0 (setPosition a0 a1 s) := by
  unfold setPosition
  extract_lets -underBinder -merge y0
  exact (Calm.upd h rfl rfl rfl rfl rfl rfl)

theorem noteBit_calm {s0 s : State} (h : Calm s0 s) (a0 a1) : Calm s0 (noteBit a0 a1 s) := by
  unfold noteBit
  extract_lets -underBinder -merge y0 y1 y2
  exact (Calm.upd h rfl rfl rfl rfl rfl rfl)

theorem passBoundary_calm {s0 s : State} (h : Calm s0 s) (a0 a1) : Calm s0 (passBoundary a0 a1 s) := by
  unfold passBoundary
  extract_lets -underBinder -merge y0 y1 y2
  have hy1 : Calm s0 y1 := by
    subst y1
    split
    · extract_lets -underBinder -merge y3 y4
      refine Calm.ite ?_ ?_
      · exact h
      · exact (Calm.upd h rfl rfl rfl rfl rfl rfl)
    · exact h
  try clear_value y1
  exact (Calm.upd hy1 rfl rfl rfl rfl rfl rfl)

theorem learnBand_calm {s0 s : State} (h : Calm s0 s) (a1) : Calm s0 (learnBand s a1) := by
  unfold learnBand
  extract_lets -underBinder -merge y0 y1 y2
  refine Calm.ite ?_ ?_
  · exact h
  · refine Calm.ite ?_ ?_
    · exact (Calm.upd h rfl rfl rfl rfl rfl rfl)
    · exact (Calm.upd h rfl rfl rfl rfl rfl rfl)

theorem followPhase_calm {s0 s : State} (h : Calm s0 s) : Calm s0 (followPhase s) := by
  unfold followPhase
  extract_lets -underBinder -merge y0 y1 y2 y3 y4
  refine Calm.ite ?_ ?_
  · exact (Calm.upd h rfl rfl rfl rfl rfl rfl)
  · refine Calm.ite ?_ ?_
    · refine setDco_calm ?_ ..
      exact (Calm.upd h rfl rfl rfl rfl rfl rfl)
    · refine Calm.ite ?_ ?_
      · exact (Calm.upd h rfl rfl rfl rfl rfl rfl)
      · exact h

theorem followTilt_calm {s0 s : State} (h : Calm s0 s) : Calm s0 (followTilt s) := by
  unfold followTilt
  extract_lets -underBinder -merge y0 y1 y2 y3 y4 y5 y6
  have hy3 : Calm s0 y3 := (Calm.upd h rfl rfl rfl rfl rfl rfl)
  try clear_value y3
  refine Calm.ite ?_ ?_
  · exact h
  · refine Calm.ite ?_ ?_
    · exact (Calm.upd hy3 rfl rfl rfl rfl rfl rfl)
    · exact (Calm.upd hy3 rfl rfl rfl rfl rfl rfl)

end Sys2Proof.Machine
end

