-- ==== Sys2Proof/Laws/CalmChannels.lean ====
section
/-! SUPPORT. The operations of Machine/Channels.lean keep what `Calm` says. -/

namespace Sys2Proof.Machine

theorem learnOffset_calm {s0 s : State} (h : Calm s0 s) (a0 a1 a2 a3) : Calm s0 (learnOffset a0 a1 a2 a3 s) := by
  unfold learnOffset
  extract_lets -underBinder -merge y0 y1 y2
  refine Calm.ite ?_ ?_
  · exact h
  · refine Calm.ite ?_ ?_
    · exact (storeOffset_calm h ..)
    · refine Calm.ite ?_ ?_
      · exact h
      · exact (storeOffset_calm (drew_calm h ..) ..)

theorem keepLoops_calm {s0 s : State} (h : Calm s0 s) (a0) : Calm s0 (keepLoops a0 s) := by
  unfold keepLoops
  extract_lets -underBinder -merge y0
  exact (setChan_calm h ..)

theorem slotEvents_calm {s0 s : State} (h : Calm s0 s) (a0 a1 a2 a3 a4) : Calm s0 (slotEvents a0 a1 a2 a3 a4 s) := by
  unfold slotEvents
  extract_lets -underBinder -merge y0 y1 y2 y3 y4 y5 y6 y7
  have hy4 : Calm s0 y4 := (setChan_calm h ..)
  have hy5 : Calm s0 y5 := (raiseIf_calm hy4 ..)
  have hy6 : Calm s0 y6 := (raiseIf_calm hy5 ..)
  have hy7 : Calm s0 y7 := by
    refine Calm.foldl ?_ (fun y8 a hy8 => ?_)
    · exact hy6
    · beta_reduce
      exact (raise_calm hy8 ..)
  try clear_value y7
  try clear_value y6
  try clear_value y5
  try clear_value y4
  refine Calm.foldl ?_ (fun y9 a hy9 => ?_)
  · exact hy7
  · beta_reduce
    exact (raise_calm hy9 ..)

theorem endSlot_calm {s0 s : State} (h : Calm s0 s) (a0 a1 a2 a3) : Calm s0 (endSlot a0 a1 a2 a3 s) := by
  unfold endSlot
  extract_lets -underBinder -merge y0 y1 y2 y3 y4 y5
  have hy3 : Calm s0 y3 := (drew_calm (updChan_calm h ..) ..)
  have hy4 : Calm s0 y4 := (learnOffset_calm hy3 ..)
  have hy5 : Calm s0 y5 := by
    refine Calm.ite ?_ ?_
    · exact (keepLoops_calm hy4 ..)
    · exact hy4
  try clear_value y5
  try clear_value y4
  try clear_value y3
  exact (slotEvents_calm hy5 ..)

theorem deliverSector_calm {s0 s : State} (h : Calm s0 s) (a0 a1 a2) : Calm s0 (deliverSector a0 a1 a2 s) := by
  unfold deliverSector
  split
  · exact (takeSector_calm h ..)
  · exact h

theorem channelDown_calm {s0 s : State} (h : Calm s0 s) (a0 a1) : Calm s0 (channelDown a0 a1 s) := by
  unfold channelDown
  extract_lets -underBinder -merge y0 y1 y2 y3 y4 y5
  have hy0 : Calm s0 y0 := by
    refine Calm.foldl ?_ (fun y6 a hy6 => ?_)
    · exact h
    · beta_reduce
      exact (postVerdict_calm hy6 ..)
  have hy4 : Calm s0 y4 := (setChan_calm hy0 ..)
  have hy5 : Calm s0 y5 := by
    subst y5
    split
    · extract_lets -underBinder -merge y7
      exact (Calm.upd hy4 rfl rfl rfl rfl rfl rfl)
    · exact hy4
  try clear_value y5
  try clear_value y4
  try clear_value y0
  exact (declareFailed_calm hy5 ..)

theorem resetChannel_calm {s0 s : State} (h : Calm s0 s) (a0 a1 a2) : Calm s0 (resetChannel a0 a1 a2 s) := by
  unfold resetChannel
  extract_lets -underBinder -merge y0
  refine Calm.ite ?_ ?_
  · exact (declareFailed_calm h ..)
  · refine channelDown_calm ?_ ..
    exact (Calm.upd h rfl rfl rfl rfl rfl rfl)

theorem restoreCommand_calm {s0 s : State} (h : Calm s0 s) (a0) : Calm s0 (restoreCommand a0 s) := by
  unfold restoreCommand
  refine Calm.ite ?_ ?_
  · exact (updChan_calm h ..)
  · exact (restoreMember_calm h ..)

end Sys2Proof.Machine
end

