-- ==== Sys2Proof/Laws/CalmTce.lean ====
section
/-! SUPPORT. The operations of Machine/Tce.lean keep what `Calm` says. -/

namespace Sys2Proof.Machine

theorem faultLoad_calm {s0 s : State} (h : Calm s0 s) : Calm s0 (faultLoad s) := by
  unfold faultLoad
  split
  · exact h
  · extract_lets -underBinder -merge y0 y1
    have hy1 : Calm s0 y1 := (Calm.upd h rfl rfl rfl rfl rfl rfl)
    try clear_value y1
    split
    · exact (finish_calm hy1 ..)
    · exact (raise_calm hy1 ..)

theorem faultFormat_calm {s0 s : State} (h : Calm s0 s) : Calm s0 (faultFormat s) := by
  unfold faultFormat
  split
  · extract_lets -underBinder -merge y0
    refine finish_calm ?_ ..
    refine onPost_calm ?_ ..
    exact (Calm.upd h rfl rfl rfl rfl rfl rfl)
  · exact h

theorem faultWaits_calm {s0 s : State} (h : Calm s0 s) : Calm s0 (faultWaits s) := by
  unfold faultWaits
  extract_lets -underBinder -merge y0 y1 y2 y3
  have hy0 : Calm s0 y0 := by
    refine Calm.foldl ?_ (fun y4 a hy4 => ?_)
    · exact h
    · beta_reduce
      split
      · split
        · refine Calm.ite ?_ ?_
          · exact (finish_calm hy4 ..)
          · exact hy4
        · exact hy4
      · exact hy4
  try clear_value y0
  refine Calm.foldl ?_ (fun y5 a hy5 => ?_)
  · exact (Calm.upd hy0 rfl rfl rfl rfl rfl rfl)
  · beta_reduce
    exact (endCreate_calm hy5 ..)

theorem faultRebuild_calm {s0 s : State} (h : Calm s0 s) : Calm s0 (faultRebuild s) := by
  unfold faultRebuild
  split
  · exact (setStage_calm h ..)
  · exact h

theorem cartFault_calm {s0 s : State} (h : Calm s0 s) : Calm s0 (cartFault s) := by
  unfold cartFault
  extract_lets -underBinder -merge y0 y1 y2 y3 y4 y5 y6 y7 y8 y9 y10 y11
  have hy2 : Calm s0 y2 := (Calm.upd h rfl rfl rfl rfl rfl rfl)
  have hy3 : Calm s0 y3 := (dropCkpt_calm (raiseIf_calm hy2 ..) ..)
  have hy5 : Calm s0 y5 := by
    refine emptyBanks_calm ?_ ..
    refine setGates_calm ?_ ..
    exact (Calm.upd hy3 rfl rfl rfl rfl rfl rfl)
  have hy6 : Calm s0 y6 := by
    subst y6
    split
    · exact (dropHeld_calm (freeOpt_calm hy5 ..) ..)
    · exact hy5
  have hy8 : Calm s0 y8 := (Calm.upd hy6 rfl rfl rfl rfl rfl rfl)
  have hy9 : Calm s0 y9 := (faultRebuild_calm hy8 ..)
  have hy10 : Calm s0 y10 := by
    refine Calm.foldl ?_ (fun y12 a hy12 => ?_)
    · exact hy9
    · beta_reduce
      refine Calm.ite ?_ ?_
      · exact hy12
      · exact (failDs_calm hy12 ..)
  have hy11 : Calm s0 y11 := (sweep_calm (failHeld_calm hy10 ..) ..)
  try clear_value y11
  try clear_value y10
  try clear_value y9
  try clear_value y8
  try clear_value y6
  try clear_value y5
  try clear_value y3
  try clear_value y2
  refine Calm.ite ?_ ?_
  · exact h
  · exact (settle_calm (faultWaits_calm (faultFormat_calm (faultLoad_calm hy11 ..) ..) ..) ..)

theorem stopFor_calm {s0 s : State} (h : Calm s0 s) (a0) : Calm s0 (stopFor a0 s) := by
  unfold stopFor
  extract_lets -underBinder -merge y0 y1
  refine Calm.ite ?_ ?_
  · refine Calm.ite ?_ ?_
    · exact h
    · refine retarget_calm ?_ ..
      exact (Calm.upd h rfl rfl rfl rfl rfl rfl)
  · refine Calm.ite ?_ ?_
    · exact (Calm.upd h rfl rfl rfl rfl rfl rfl)
    · exact h

theorem tceFault_calm {s0 s : State} (h : Calm s0 s) (a0) : Calm s0 (tceFault a0 s) := by
  unfold tceFault
  extract_lets -underBinder -merge y0 y1 y2 y3 y4
  have hy1 : Calm s0 y1 := by
    refine raise_calm ?_ ..
    exact (Calm.upd h rfl rfl rfl rfl rfl rfl)
  have hy2 : Calm s0 y2 := by
    refine Calm.ite ?_ ?_
    · exact hy1
    · exact (stopFor_calm hy1 ..)
  have hy4 : Calm s0 y4 := by
    refine Calm.ite ?_ ?_
    · exact (Calm.upd hy2 rfl rfl rfl rfl rfl rfl)
    · exact hy2
  try clear_value y4
  try clear_value y2
  try clear_value y1
  refine Calm.ite ?_ ?_
  · exact h
  · exact (cartFault_calm hy4 ..)

theorem faultIf_calm {s0 s : State} (h : Calm s0 s) (a0 a1) : Calm s0 (faultIf a0 a1 s) := by
  unfold faultIf
  refine Calm.ite ?_ ?_
  · exact (tceFault_calm h ..)
  · exact h

theorem aslCheck_calm {s0 s : State} (h : Calm s0 s) : Calm s0 (aslCheck s) := by
  unfold aslCheck
  exact (faultIf_calm h ..)

theorem setFlags_calm {s0 s : State} (h : Calm s0 s) (a0 a1) : Calm s0 (setFlags a0 a1 s) := by
  unfold setFlags
  extract_lets -underBinder -merge y0 y1 y2
  have hy2 : Calm s0 y2 := (Calm.upd h rfl rfl rfl rfl rfl rfl)
  try clear_value y2
  exact (raiseIf_calm hy2 ..)

theorem countHour_calm {s0 s : State} (h : Calm s0 s) (a0 a1) : Calm s0 (countHour a0 a1 s) := by
  unfold countHour
  extract_lets -underBinder -merge y0 y1
  refine Calm.ite ?_ ?_
  · exact h
  · exact (Calm.upd h rfl rfl rfl rfl rfl rfl)

theorem sendOutput_calm {s0 s : State} (h : Calm s0 s) (a0) : Calm s0 (sendOutput a0 s) := by
  unfold sendOutput
  refine Calm.ite ?_ ?_
  · exact h
  · exact (aslCheck_calm (sendAsl_calm h ..) ..)

theorem sampleLoop_calm {s0 s : State} (h : Calm s0 s) (a0 a1 a2 a3 a4 a5) : Calm s0 (sampleLoop a0 a1 a2 a3 a4 a5 s) := by
  unfold sampleLoop
  extract_lets -underBinder -merge y0 y1 y2 y3 y4
  have hy4 : Calm s0 y4 := (countHour_calm (setFlags_calm (setLoop_calm h ..) ..) ..)
  try clear_value y4
  refine Calm.ite ?_ ?_
  · exact (tceFault_calm hy4 ..)
  · exact (sendOutput_calm hy4 ..)

theorem stopFramesStep_calm {s0 s : State} (h : Calm s0 s) : Calm s0 (stopFramesStep s) := by
  unfold stopFramesStep
  extract_lets -underBinder -merge y0 y1
  refine Calm.ite ?_ ?_
  · refine zeroOutputs_calm ?_ ..
    refine sendAll_calm ?_ ..
    exact (Calm.upd h rfl rfl rfl rfl rfl rfl)
  · refine Calm.ite ?_ ?_
    · refine sendAll_calm ?_ ..
      exact (Calm.upd h rfl rfl rfl rfl rfl rfl)
    · exact h

theorem guardSample_calm {s0 s : State} (h : Calm s0 s) (a0) : Calm s0 (guardSample a0 s) := by
  unfold guardSample
  extract_lets -underBinder -merge y0 y1
  have hy1 : Calm s0 y1 := (Calm.upd h rfl rfl rfl rfl rfl rfl)
  try clear_value y1
  refine Calm.ite ?_ ?_
  · exact (guardOnset_calm hy1 ..)
  · exact hy1

theorem sumBands_calm {s0 s : State} (h : Calm s0 s) : Calm s0 (sumBands s) := by
  unfold sumBands
  split
  · extract_lets -underBinder -merge y0
    exact (Calm.upd h rfl rfl rfl rfl rfl rfl)
  · exact h

theorem latRun_calm {s0 s : State} (h : Calm s0 s) (a0) : Calm s0 (latRun a0 s) := by
  unfold latRun
  extract_lets -underBinder -merge y0 y1 y2 y3 y4 y5 y6 y7 y8 y9 y10 y11 y12 y13
  have hy1 : Calm s0 y1 := by
    refine Calm.ite ?_ ?_
    · exact (Calm.upd h rfl rfl rfl rfl rfl rfl)
    · exact h
  have hy2 : Calm s0 y2 := (sumBands_calm hy1 ..)
  have hy6 : Calm s0 y6 := (guardSample_calm hy2 ..)
  have hy10 : Calm s0 y10 := (Calm.upd hy6 rfl rfl rfl rfl rfl rfl)
  have hy12 : Calm s0 y12 := by
    refine Calm.ite ?_ ?_
    · refine Calm.ite ?_ ?_
      · exact (sendOutput_calm hy10 ..)
      · exact hy10
    · exact (sampleLoop_calm hy10 ..)
  have hy13 : Calm s0 y13 := by
    refine Calm.ite ?_ ?_
    · exact (tceFault_calm hy12 ..)
    · exact hy12
  try clear_value y13
  try clear_value y12
  try clear_value y10
  try clear_value y6
  try clear_value y2
  try clear_value y1
  exact (faultIf_calm (faultIf_calm hy13 ..) ..)

theorem takeTargets_calm {s0 s : State} (h : Calm s0 s) : Calm s0 (takeTargets s) := by
  unfold takeTargets
  extract_lets -underBinder -merge y0 y1
  have hy1 : Calm s0 y1 := by
    refine Calm.ite ?_ ?_
    · exact h
    · exact (retarget_calm h ..)
  try clear_value y1
  split
  · exact hy1
  · extract_lets -underBinder -merge y2 y3 y4 y5
    have hy3 : Calm s0 y3 := by
      refine Calm.ite ?_ ?_
      · exact hy1
      · refine retarget_calm ?_ ..
        exact (Calm.upd hy1 rfl rfl rfl rfl rfl rfl)
    try clear_value y3
    refine Calm.ite ?_ ?_
    · exact hy3
    · exact (retarget_calm hy3 ..)

theorem runTimers_calm {s0 s : State} (h : Calm s0 s) : Calm s0 (runTimers s) := by
  unfold runTimers
  extract_lets -underBinder -merge y0 y1 y2 y3 y4 y5 y6 y7 y8 y9
  have hy7 : Calm s0 y7 := (Calm.upd h rfl rfl rfl rfl rfl rfl)
  have hy8 : Calm s0 y8 := (faultIf_calm hy7 ..)
  have hy9 : Calm s0 y9 := (faultIf_calm hy8 ..)
  try clear_value y9
  try clear_value y8
  try clear_value y7
  exact (faultIf_calm hy9 ..)

theorem endMotion_calm {s0 s : State} (h : Calm s0 s) : Calm s0 (endMotion s) := by
  unfold endMotion
  extract_lets -underBinder -merge y0 y1 y2
  refine Calm.ite ?_ ?_
  · exact h
  · refine Calm.ite ?_ ?_
    · refine zeroOutputs_calm ?_ ..
      refine sendAll_calm ?_ ..
      refine sendAll_calm ?_ ..
      exact (Calm.upd h rfl rfl rfl rfl rfl rfl)
    · refine Calm.ite ?_ ?_
      · refine setLoop_calm ?_ ..
        exact (Calm.upd h rfl rfl rfl rfl rfl rfl)
      · exact h

theorem satCheck_calm {s0 s : State} (h : Calm s0 s) (a0) : Calm s0 (satCheck a0 s) := by
  unfold satCheck
  refine Calm.ite ?_ ?_
  · exact (setCause_calm (raise_calm h ..) ..)
  · exact h

end Sys2Proof.Machine
end

