-- ==== Sys2Proof/Laws/CalmHeadFront.lean ====
section
/-! SUPPORT. The operations of Machine/HeadFront.lean keep what `Calm` says. -/

namespace Sys2Proof.Machine

theorem headFrontInit_calm {s0 s : State} (h : Calm s0 s) (a0) : Calm s0 (headFrontInit a0 s) := by
  unfold headFrontInit
  extract_lets -underBinder -merge y0 y1
  exact (Calm.upd h rfl rfl rfl rfl rfl rfl)

theorem takeFaults_calm {s0 s : State} (h : Calm s0 s) (a0 a1) : Calm s0 (takeFaults a0 a1 s) := by
  unfold takeFaults
  refine Calm.foldl ?_ (fun y0 a hy0 => ?_)
  · exact h
  · beta_reduce
    extract_lets -underBinder -merge y1 y2 y3 y4
    have hy4 : Calm s0 y4 := (updChan_calm hy0 ..)
    try clear_value y4
    refine Calm.ite ?_ ?_
    · exact hy0
    · refine Calm.ite ?_ ?_
      · exact (resetChannel_calm hy4 ..)
      · exact hy4

end Sys2Proof.Machine
end

