-- ==== Sys2Proof/Laws/CalmFlashCtl.lean ====
section
/-! SUPPORT. The operations of Machine/FlashCtl.lean keep what `Calm` says. -/

namespace Sys2Proof.Machine

theorem setBlock_calm {s0 s : State} (h : Calm s0 s) (a0 a1) : Calm s0 (setBlock a0 a1 s) := by
  unfold setBlock
  extract_lets -underBinder -merge y0
  exact (Calm.upd h rfl rfl rfl rfl rfl rfl)

theorem updBlock_calm {s0 s : State} (h : Calm s0 s) (a0 a1) : Calm s0 (updBlock a0 a1 s) := by
  unfold updBlock
  exact (setBlock_calm h ..)

theorem wornCheck_calm {s0 s : State} (h : Calm s0 s) (a0) : Calm s0 (wornCheck a0 s) := by
  unfold wornCheck
  refine Calm.ite ?_ ?_
  · exact (setCause_calm (raise_calm h ..) ..)
  · exact h

theorem retireBlock_calm {s0 s : State} (h : Calm s0 s) (a0) : Calm s0 (retireBlock a0 s) := by
  unfold retireBlock
  extract_lets -underBinder -merge y0 y1 y2 y3 y4 y5
  have hy2 : Calm s0 y2 := (setBlock_calm h ..)
  have hy4 : Calm s0 y4 := by
    refine raise_calm ?_ ..
    exact (Calm.upd hy2 rfl rfl rfl rfl rfl rfl)
  have hy5 : Calm s0 y5 := by
    refine Calm.ite ?_ ?_
    · exact hy4
    · split
      · extract_lets -underBinder -merge y6
        refine updBlock_calm ?_ ..
        exact (Calm.upd hy4 rfl rfl rfl rfl rfl rfl)
      · extract_lets -underBinder -merge y7
        refine Calm.ite ?_ ?_
        · exact hy4
        · refine raise_calm ?_ ..
          exact (Calm.upd hy4 rfl rfl rfl rfl rfl rfl)
  try clear_value y5
  try clear_value y4
  try clear_value y2
  exact (wornCheck_calm hy5 ..)

theorem postFlash_calm {s0 s : State} (h : Calm s0 s) (a0 a1 a2 a3 a4 a5) : Calm s0 (postFlash a0 a1 a2 a3 a4 a5 s) := by
  unfold postFlash
  extract_lets -underBinder -merge y0 y1 y2 y3
  have hy1 : Calm s0 y1 := (emit_calm h ..)
  have hy3 : Calm s0 y3 := by
    refine Calm.ite ?_ ?_
    · exact (Calm.upd hy1 rfl rfl rfl rfl rfl rfl)
    · exact hy1
  try clear_value y3
  try clear_value y1
  split
  · extract_lets -underBinder -merge y4
    exact (Calm.upd hy3 rfl rfl rfl rfl rfl rfl)
  · exact hy3

theorem refuseFlash_calm {s0 s : State} (h : Calm s0 s) (a0 a1) : Calm s0 (refuseFlash a0 a1 s) := by
  unfold refuseFlash
  refine Calm.ite ?_ ?_
  · exact (postFlash_calm (drew_calm h ..) ..)
  · exact (postFlash_calm h ..)

theorem beginFlash_calm {s0 s : State} (h : Calm s0 s) (a0) : Calm s0 (beginFlash a0 s) := by
  unfold beginFlash
  extract_lets -underBinder -merge y0 y1 y2 y3 y4
  have hy0 : Calm s0 y0 := (updBlock_calm h ..)
  have hy3 : Calm s0 y3 := by
    refine Calm.ite ?_ ?_
    · exact (updBlock_calm h ..)
    · exact h
  try clear_value y3
  try clear_value y0
  refine Calm.ite ?_ ?_
  · refine Calm.ite ?_ ?_
    · exact (Calm.upd hy0 rfl rfl rfl rfl rfl rfl)
    · exact (Calm.upd hy0 rfl rfl rfl rfl rfl rfl)
  · exact (Calm.upd hy3 rfl rfl rfl rfl rfl rfl)

theorem refillFlash_calm {s0 s : State} (h : Calm s0 s) : Calm s0 (refillFlash s) := by
  unfold refillFlash
  extract_lets -underBinder -merge y0 y1
  exact (Calm.upd h rfl rfl rfl rfl rfl rfl)

theorem flashRun_calm {s0 s : State} (h : Calm s0 s) (n) : Calm s0 (flashRun n s) := by
  induction n generalizing s with
  | zero => exact h
  | succ n ih =>
    unfold flashRun
    split
    · exact h
    · extract_lets -underBinder -merge y0 y1
      have hy1 : Calm s0 y1 := (Calm.upd h rfl rfl rfl rfl rfl rfl)
      clear_value y1
      split
      · exact (ih (refuseFlash_calm hy1 ..))
      · exact (ih (beginFlash_calm hy1 ..))

theorem flashGo_calm {s0 s : State} (h : Calm s0 s) : Calm s0 (flashGo s) := by
  unfold flashGo
  extract_lets -underBinder -merge y0
  have hy0 : Calm s0 y0 := (refillFlash_calm h ..)
  try clear_value y0
  exact (flashRun_calm hy0 ..)

theorem submitFlash_calm {s0 s : State} (h : Calm s0 s) (a0) : Calm s0 (submitFlash a0 s) := by
  unfold submitFlash
  extract_lets -underBinder -merge y0
  refine flashGo_calm ?_ ..
  exact (Calm.upd h rfl rfl rfl rfl rfl rfl)

theorem pageUsed_calm {s0 s : State} (h : Calm s0 s) (a0 a1) : Calm s0 (pageUsed a0 a1 s) := by
  unfold pageUsed
  extract_lets -underBinder -merge y0 y1
  have hy1 : Calm s0 y1 := (Calm.upd h rfl rfl rfl rfl rfl rfl)
  try clear_value y1
  exact (updBlock_calm hy1 ..)

theorem eraseOver_calm {s0 s : State} (h : Calm s0 s) : Calm s0 (eraseOver s) := by
  unfold eraseOver
  extract_lets -underBinder -merge y0 y1
  refine Calm.ite ?_ ?_
  · exact (Calm.upd h rfl rfl rfl rfl rfl rfl)
  · exact (Calm.upd h rfl rfl rfl rfl rfl rfl)

theorem interruptFlash_calm {s0 s : State} (h : Calm s0 s) : Calm s0 (interruptFlash s) := by
  unfold interruptFlash
  extract_lets -underBinder -merge y0
  have hy0 : Calm s0 y0 := by
    subst y0
    split
    · extract_lets -underBinder -merge y1 y2 y3
      have hy2 : Calm s0 y2 := by
        refine pageUsed_calm ?_ ..
        exact (Calm.upd h rfl rfl rfl rfl rfl rfl)
      try clear_value y2
      refine Calm.ite ?_ ?_
      · exact (postFlash_calm (updBlock_calm hy2 ..) ..)
      · refine Calm.ite ?_ ?_
        · refine postFlash_calm ?_ ..
          exact (Calm.upd h rfl rfl rfl rfl rfl rfl)
        · exact h
    · exact h
  try clear_value y0
  split
  · extract_lets -underBinder -merge y4
    refine postFlash_calm ?_ ..
    exact (Calm.upd hy0 rfl rfl rfl rfl rfl rfl)
  · exact hy0

theorem flashInit_calm {s0 s : State} (h : Calm s0 s) : Calm s0 (flashInit s) := by
  unfold flashInit
  refine Calm.foldl ?_ (fun y0 a hy0 => ?_)
  · exact h
  · beta_reduce
    exact (raise_calm (updBlock_calm hy0 ..) ..)

theorem stopFlash_calm {s0 s : State} (h : Calm s0 s) : Calm s0 (stopFlash s) := by
  unfold stopFlash
  extract_lets -underBinder -merge y0 y1
  have hy0 : Calm s0 y0 := by
    subst y0
    split
    · refine Calm.ite ?_ ?_
      · exact (pageUsed_calm h ..)
      · exact h
    · exact h
  try clear_value y0
  exact (Calm.upd hy0 rfl rfl rfl rfl rfl rfl)

theorem flashReset_calm {s0 s : State} (h : Calm s0 s) : Calm s0 (flashReset s) := by
  unfold flashReset
  extract_lets -underBinder -merge y0 y1 y2
  have hy1 : Calm s0 y1 := by
    refine dropOwners_calm ?_ ..
    refine Calm.foldl ?_ (fun y3 a hy3 => ?_)
    · exact (stopFlash_calm h ..)
    · beta_reduce
      exact (refuseFlash_calm hy3 ..)
  try clear_value y1
  exact (Calm.upd hy1 rfl rfl rfl rfl rfl rfl)

end Sys2Proof.Machine
end

