-- ==== Sys2Proof/Laws/CalmDictStore.lean ====
section
/-! SUPPORT. The operations of Machine/DictStore.lean keep what `Calm` says. -/

namespace Sys2Proof.Machine

theorem endSessions_calm {s0 s : State} (h : Calm s0 s) : Calm s0 (endSessions s) := by
  unfold endSessions
  extract_lets -underBinder -merge y0
  exact (Calm.upd h rfl rfl rfl rfl rfl rfl)

theorem rwpEffect_calm {s0 s : State} (h : Calm s0 s) (a0 a1 a2 a3) : Calm s0 (rwpEffect a0 a1 a2 a3 s) := by
  unfold rwpEffect
  refine Calm.ite ?_ ?_
  · exact (judgeMembers_calm h ..)
  · refine Calm.ite ?_ ?_
    · exact (updAbove_calm h ..)
    · refine Calm.ite ?_ ?_
      · exact (dispatchAll_calm h ..)
      · refine Calm.ite ?_ ?_
        · exact (satCheck_calm h ..)
        · refine Calm.ite ?_ ?_
          · exact (wornCheck_calm h ..)
          · exact h

theorem storeRwp_calm {s0 s : State} (h : Calm s0 s) (a0) : Calm s0 (storeRwp a0 s) := by
  unfold storeRwp
  extract_lets -underBinder -merge y0 y1 y2
  refine Calm.ite ?_ ?_
  · exact (Calm.upd h rfl rfl rfl rfl rfl rfl)
  · refine Calm.ite ?_ ?_
    · exact (Calm.upd h rfl rfl rfl rfl rfl rfl)
    · refine rwpEffect_calm ?_ ..
      exact (Calm.upd h rfl rfl rfl rfl rfl rfl)

theorem dropVolatile_calm {s0 s : State} (h : Calm s0 s) : Calm s0 (dropVolatile s) := by
  unfold dropVolatile
  extract_lets -underBinder -merge y0
  exact (Calm.upd h rfl rfl rfl rfl rfl rfl)

theorem restoreDefaults_calm {s0 s : State} (h : Calm s0 s) : Calm s0 (restoreDefaults s) := by
  unfold restoreDefaults
  extract_lets -underBinder -merge y0
  exact (Calm.upd h rfl rfl rfl rfl rfl rfl)

theorem dropCopies_calm {s0 s : State} (h : Calm s0 s) : Calm s0 (dropCopies s) := by
  unfold dropCopies
  extract_lets -underBinder -merge y0
  exact (Calm.upd h rfl rfl rfl rfl rfl rfl)

theorem cutPersist_calm {s0 s : State} (h : Calm s0 s) : Calm s0 (cutPersist s) := by
  unfold cutPersist
  extract_lets -underBinder -merge y0 y1
  have hy1 : Calm s0 y1 := (drew_calm h ..)
  try clear_value y1
  refine Calm.ite ?_ ?_
  · exact h
  · refine Calm.ite ?_ ?_
    · split
      · exact (storeRwp_calm hy1 ..)
      · exact hy1
    · exact hy1

theorem endDictOps_calm {s0 s : State} (h : Calm s0 s) : Calm s0 (endDictOps s) := by
  unfold endDictOps
  extract_lets -underBinder -merge y0 y1 y2 y3
  have hy1 : Calm s0 y1 := (cutPersist_calm h ..)
  have hy3 : Calm s0 y3 := (Calm.upd hy1 rfl rfl rfl rfl rfl rfl)
  try clear_value y3
  try clear_value y1
  refine Calm.foldl ?_ (fun y4 a hy4 => ?_)
  · exact hy3
  · beta_reduce
    split
    · exact (finish_calm hy4 ..)
    · exact (updFn_calm hy4 ..)
    · exact hy4
    · exact hy4

end Sys2Proof.Machine
end

