-- ==== Sys2Proof/Laws/CalmFirmware.lean ====
section
/-! SUPPORT. The operations of Machine/Firmware.lean keep what `Calm` says. -/

namespace Sys2Proof.Machine

theorem setImage_calm {s0 s : State} (h : Calm s0 s) (a0 a1) : Calm s0 (setImage a0 a1 s) := by
  unfold setImage
  extract_lets -underBinder -merge y0 y1
  refine Calm.ite ?_ ?_
  · exact (Calm.upd h rfl rfl rfl rfl rfl rfl)
  · exact (Calm.upd h rfl rfl rfl rfl rfl rfl)

theorem putGlove_calm {s0 s : State} (h : Calm s0 s) (a0) : Calm s0 (putGlove a0 s) := by
  unfold putGlove
  extract_lets -underBinder -merge y0 y1 y2 y3
  refine Calm.ite ?_ ?_
  · exact (Calm.upd h rfl rfl rfl rfl rfl rfl)
  · exact (Calm.upd h rfl rfl rfl rfl rfl rfl)

theorem spoilGlove_calm {s0 s : State} (h : Calm s0 s) : Calm s0 (spoilGlove s) := by
  unfold spoilGlove
  extract_lets -underBinder -merge y0 y1 y2 y3
  refine Calm.ite ?_ ?_
  · exact (Calm.upd h rfl rfl rfl rfl rfl rfl)
  · exact (Calm.upd h rfl rfl rfl rfl rfl rfl)

theorem boot_calm {s0 s : State} (h : Calm s0 s) : Calm s0 (boot s) := by
  unfold boot
  extract_lets -underBinder -merge y0
  split
  · extract_lets -underBinder -merge y1 y2
    exact (Calm.upd h rfl rfl rfl rfl rfl rfl)
  · extract_lets -underBinder -merge y3
    exact (Calm.upd h rfl rfl rfl rfl rfl rfl)

theorem mgmtLoss_calm {s0 s : State} (h : Calm s0 s) : Calm s0 (mgmtLoss s) := by
  unfold mgmtLoss
  extract_lets -underBinder -merge y0 y1 y2 y3 y4 y5
  have hy0 : Calm s0 y0 := (dropCopies_calm (dropVolatile_calm (endSessions_calm (endDictOps_calm (dropOwners_calm h ..) ..) ..) ..) ..)
  have hy1 : Calm s0 y1 := by
    refine Calm.ite ?_ ?_
    · exact (restoreDefaults_calm hy0 ..)
    · exact hy0
  try clear_value y1
  try clear_value y0
  exact (Calm.upd hy1 rfl rfl rfl rfl rfl rfl)

theorem endActivateWith_calm {s0 s : State} (h : Calm s0 s) (a0 a1 a2 a3) : Calm s0 (endActivateWith a0 a1 a2 a3 s) := by
  unfold endActivateWith
  extract_lets -underBinder -merge y0 y1
  refine complete_calm ?_ ..
  refine onPost_calm ?_ ..
  exact (Calm.upd h rfl rfl rfl rfl rfl rfl)

theorem endActivate_calm {s0 s : State} (h : Calm s0 s) (a0 a1 a2 a3) : Calm s0 (endActivate a0 a1 a2 a3 s) := by
  unfold endActivate
  exact (endActivateWith_calm h ..)

theorem mgmtDown_calm {s0 s : State} (h : Calm s0 s) : Calm s0 (mgmtDown s) := by
  unfold mgmtDown
  extract_lets -underBinder -merge y0 y1 y2 y3 y4
  have hy0 : Calm s0 y0 := by
    subst y0
    split
    · exact Calm.ite (endActivateWith_calm h ..) h
    · exact h
  have hy3 : Calm s0 y3 :=
    mgmtLoss_calm (Calm.shrink hy0 rfl rfl rfl (Nat.le_refl _) (Nat.zero_le _) (Nat.le_refl _)) ..
  clear_value y3
  exact boot_calm (Calm.upd hy3 rfl rfl rfl rfl rfl rfl) ..

theorem askRefused_calm {s0 s : State} (h : Calm s0 s) (a0 a1 a2) : Calm s0 (askRefused a0 a1 a2 s).1 := by
  unfold askRefused
  split
  · extract_lets -underBinder -merge y0
    have hy0 : Calm s0 y0.1 := (takeBuf_calm h ..)
    try clear_value y0
    exact (answer_calm hy0 ..)
  · extract_lets -underBinder -merge y1 y2
    have hy2 : Calm s0 y2 := by
      refine Calm.ite ?_ ?_
      · exact (updPool_calm h ..)
      · exact h
    try clear_value y2
    exact (answer_calm hy2 ..)

theorem stagePiece_calm {s0 s : State} (h : Calm s0 s) (a0 a1 a2 a3 a4) : Calm s0 (stagePiece a0 a1 a2 a3 a4 s) := by
  unfold stagePiece
  extract_lets -underBinder -merge y0 y1
  have hy0 : Calm s0 y0.2 := (agentTag_calm h ..)
  have hy1 : Calm s0 y1.1 := (askRefused_calm hy0 ..)
  try clear_value y1
  try clear_value y0
  split
  · exact (complete_calm hy1 ..)
  · extract_lets -underBinder -merge y2 y3 y4 y5 y6
    have hy2 : Calm s0 y2 := (setImage_calm (freeOwn_calm hy1 ..) ..)
    have hy6 : Calm s0 y6 := (Calm.upd hy2 rfl rfl rfl rfl rfl rfl)
    try clear_value y6
    try clear_value y2
    refine Calm.ite ?_ ?_
    · refine finish_calm ?_ ..
      exact (Calm.upd hy2 rfl rfl rfl rfl rfl rfl)
    · exact (finish_calm (raiseIf_calm hy6 ..) ..)

theorem fallbackStarted_calm {s0 s : State} (h : Calm s0 s) : Calm s0 (fallbackStarted s) := by
  unfold fallbackStarted
  extract_lets -underBinder -merge y0 y1 y2 y3 y4
  have hy2 : Calm s0 y2 := (putGlove_calm h ..)
  have hy4 : Calm s0 y4 := by
    refine raise_calm ?_ ..
    exact (Calm.upd hy2 rfl rfl rfl rfl rfl rfl)
  try clear_value y4
  try clear_value y2
  split
  · refine Calm.ite ?_ ?_
    · exact (endActivate_calm hy4 ..)
    · exact hy4
  · exact hy4

theorem activated_calm {s0 s : State} (h : Calm s0 s) (a0) : Calm s0 (activated a0 s) := by
  unfold activated
  extract_lets -underBinder -merge y0 y1 y2 y3
  have hy : s.fw.floor ≤ y1 := by
    show s.fw.floor ≤ if _ then _ else _
    split
    · exact Nat.le_max_left ..
    · exact Nat.le_refl _
  have hy3 : Calm s0 y3 := by
    refine raise_calm ?_ ..
    exact Calm.raiseFloor h rfl rfl hy rfl rfl rfl
  exact endActivate_calm hy3 ..

theorem noteReset_calm {s0 s : State} (h : Calm s0 s) (a0 a1 a2) : Calm s0 (noteReset a0 a1 a2 s) := by
  unfold noteReset
  refine Calm.ite ?_ ?_
  · exact (Calm.upd h rfl rfl rfl rfl rfl rfl)
  · exact (Calm.upd h rfl rfl rfl rfl rfl rfl)

end Sys2Proof.Machine
end

