-- ==== Sys2Proof/Laws/CalmAnswer.lean ====
section
/-! SUPPORT. The operations of Machine/Answer.lean keep what `Calm` says. -/

namespace Sys2Proof.Machine

theorem updSession_calm {s0 s : State} (h : Calm s0 s) (a0 a1) : Calm s0 (updSession a0 a1 s) := by
  unfold updSession
  extract_lets -underBinder -merge y0
  exact (Calm.upd h rfl rfl rfl rfl rfl rfl)

theorem staxaRespond_calm {s0 s : State} (h : Calm s0 s) (a0) : Calm s0 (staxaRespond a0 s) := by
  unfold staxaRespond
  split
  · exact h
  · split
    · exact h
    · extract_lets -underBinder -merge y0 y1 y2
      have hy1 : Calm s0 y1 := (emit_calm (updSession_calm h ..) ..)
      try clear_value y1
      refine Calm.ite ?_ ?_
      · exact (Calm.upd hy1 rfl rfl rfl rfl rfl rfl)
      · exact hy1

theorem queueOp_calm {s0 s : State} (h : Calm s0 s) (a0) : Calm s0 (queueOp a0 s) := by
  unfold queueOp
  extract_lets -underBinder -merge y0
  exact (Calm.upd h rfl rfl rfl rfl rfl rfl)

theorem answerStaxa_calm {s0 s : State} (h : Calm s0 s) (a0 a1) : Calm s0 (answerStaxa a0 a1 s) := by
  unfold answerStaxa
  split
  · exact h
  · split
    · extract_lets -underBinder -merge y0 y1
      have hy1 : Calm s0 y1 := (updSession_calm h ..)
      try clear_value y1
      split
      · exact (staxaRespond_calm hy1 ..)
      · refine Calm.ite ?_ ?_
        · exact (staxaRespond_calm hy1 ..)
        · exact (queueOp_calm hy1 ..)
    · exact h

theorem lapseSessions_calm {s0 s : State} (h : Calm s0 s) (a0) : Calm s0 (lapseSessions a0 s) := by
  unfold lapseSessions
  extract_lets -underBinder -merge y0 y1
  exact (Calm.upd h rfl rfl rfl rfl rfl rfl)

theorem answerCmd_calm {s0 s : State} (h : Calm s0 s) (a0 a1 a2 a3) : Calm s0 (answerCmd a0 a1 a2 a3 s) := by
  unfold answerCmd
  extract_lets -underBinder -merge y0
  refine Calm.ite ?_ ?_
  · exact (complete_calm h ..)
  · refine Calm.ite ?_ ?_
    · exact (complete_calm h ..)
    · split
      · exact h
      · extract_lets -underBinder -merge y1 y2 y3
        exact (complete_calm (toHostMem_calm h ..) ..)

theorem answerWindow_calm {s0 s : State} (h : Calm s0 s) (a0 a1 a2 a3) : Calm s0 (answerWindow a0 a1 a2 a3 s) := by
  unfold answerWindow
  extract_lets -underBinder -merge y0 y1
  have hy1 : Calm s0 y1 := by
    refine Calm.ite ?_ ?_
    · exact (drew_calm h ..)
    · exact h
  try clear_value y1
  exact (updFn_calm hy1 ..)

theorem answerDict_calm {s0 s : State} (h : Calm s0 s) (a0 a1 a2 a3) : Calm s0 (answerDict a0 a1 a2 a3 s) := by
  unfold answerDict
  split
  · exact (answerCmd_calm h ..)
  · exact (answerWindow_calm h ..)
  · exact (answerStaxa_calm h ..)
  · exact h

end Sys2Proof.Machine
end

