-- ==== Sys2Proof/Laws/CalmBuffers.lean ====
section
/-! SUPPORT. The operations of Machine/Buffers.lean keep what `Calm` says. -/

namespace Sys2Proof.Machine

theorem poisonedTag_calm {s0 s : State} (h : Calm s0 s) (a0 a1) : Calm s0 (poisonedTag a0 a1 s) := by
  unfold poisonedTag
  exact (badTag_calm h ..)

theorem refuse_calm {s0 s : State} (h : Calm s0 s) (a0) : Calm s0 (refuse a0 s) := by
  unfold refuse
  extract_lets -underBinder -merge y0 y1 y2
  refine Calm.ite ?_ ?_
  · exact (answer_calm (updPool_calm h ..) ..)
  · exact (holdReq_calm h ..)

theorem grantReq_calm {s0 s : State} (h : Calm s0 s) (a0 a1) : Calm s0 (grantReq a0 a1 s) := by
  unfold grantReq
  extract_lets -underBinder -merge y0
  have hy0 : Calm s0 y0.1 := (takeBuf_calm h ..)
  try clear_value y0
  exact (retag_calm (answer_calm hy0 ..) ..)

theorem decideReq_calm {s0 : State} {r : State × List AllocReq} (h : Calm s0 r.1) (x a) : Calm s0 (decideReq x r a).1 := by
  obtain ⟨s, again⟩ := r
  replace h : Calm s0 s := h
  unfold decideReq
  dsimp only
  refine Calm.ite_fst (poisonedTag_calm h ..) (Calm.ite_fst (answer_calm h ..) ?_)
  split
  · exact grantReq_calm h ..
  split
  · exact answer_calm (updPool_calm h ..) ..
  · exact refuse_calm h ..

theorem retryReq_calm {s0 s : State} (h : Calm s0 s) (a1) : Calm s0 (retryReq s a1) := by
  unfold retryReq
  split
  · exact (grantReq_calm h ..)
  · exact (refuse_calm h ..)

theorem bufRequest_calm {s0 s : State} (h : Calm s0 s) (a0 a1) : Calm s0 (bufRequest a0 a1 s) := by
  unfold bufRequest
  extract_lets -underBinder -merge y0
  refine Calm.ite ?_ ?_
  · exact (poisonedTag_calm h ..)
  · refine Calm.ite ?_ ?_
    · refine answer_calm ?_ ..
      exact (Calm.upd h rfl rfl rfl rfl rfl rfl)
    · exact (BufReq.run_calm h ..)

end Sys2Proof.Machine
end

