-- ==== Sys2Proof/Laws/CalmEngines.lean ====
section
/-! SUPPORT. The operations of Machine/Engines.lean keep what `Calm` says. -/

namespace Sys2Proof.Machine

theorem restoreLane_calm {s0 s : State} (h : Calm s0 s) (a0 a1 a2 a3 a4) : Calm s0 (restoreLane a0 a1 a2 a3 a4 s) := by
  unfold restoreLane
  extract_lets -underBinder -merge y0 y1 y2 y3 y4 y5
  have hy4 : Calm s0 y4 := by
    refine eccReads_calm ?_ ..
    exact (Calm.upd h rfl rfl rfl rfl rfl rfl)
  have hy5 : Calm s0 y5 := (setEngine_calm (freeRefs_calm hy4 ..) ..)
  try clear_value y5
  try clear_value y4
  refine Calm.ite ?_ ?_
  · exact (raise_calm (lanesMust_calm (answer_calm hy5 ..) ..) ..)
  · exact (setEngine_calm hy4 ..)

theorem shrinkAfter_calm {s0 s : State} (h : Calm s0 s) (a0 a1) : Calm s0 (shrinkAfter a0 a1 s) := by
  unfold shrinkAfter
  extract_lets -underBinder -merge y0 y1 y2
  have hy2 : Calm s0 y2 := by
    refine Calm.foldl ?_ (fun y3 a hy3 => ?_)
    · exact h
    · beta_reduce
      refine Calm.ite ?_ ?_
      · exact (updBlk_calm hy3 ..)
      · exact hy3
  try clear_value y2
  refine Calm.ite ?_ ?_
  · exact (updStream_calm hy2 ..)
  · exact hy2

theorem rebuildBlk_calm {s0 s : State} (h : Calm s0 s) (a0 a1 a2 a3 a4) : Calm s0 (rebuildBlk a0 a1 a2 a3 a4 s) := by
  unfold rebuildBlk
  extract_lets -underBinder -merge y0
  have hy0 : Calm s0 y0 := by
    refine Calm.foldl ?_ (fun y1 a hy1 => ?_)
    · exact (consumeSrc_calm h ..)
    · beta_reduce
      extract_lets -underBinder -merge y2
      exact (setEngine_calm hy1 ..)
  try clear_value y0
  exact (shrinkAfter_calm (setBlk_calm hy0 ..) ..)

theorem thinBlk_calm {s0 s : State} (h : Calm s0 s) (a0 a2) : Calm s0 (thinBlk a0 s a2) := by
  unfold thinBlk
  extract_lets -underBinder -merge y0
  refine Calm.ite ?_ ?_
  · exact h
  · exact (rebuildBlk_calm h ..)

theorem thinLater_calm {s0 s : State} (h : Calm s0 s) (a0 a1) : Calm s0 (thinLater a0 a1 s) := by
  unfold thinLater
  extract_lets -underBinder -merge y0 y1
  have hy1 : Calm s0 y1 := by
    refine Calm.foldl ?_ (fun y2 a hy2 => ?_)
    · exact h
    · beta_reduce
      split
      · exact (thinBlk_calm hy2 ..)
      · exact hy2
  try clear_value y1
  split
  · exact hy1
  · extract_lets -underBinder -merge y3
    exact (consumeSrc_calm (updStream_calm hy1 ..) ..)

theorem skipRest_calm {s0 s : State} (h : Calm s0 s) (a0 a1 a2) : Calm s0 (skipRest a0 a1 a2 s) := by
  unfold skipRest
  extract_lets -underBinder -merge y0 y1
  exact (setJob_calm (consumeSrc_calm h ..) ..)

theorem poisonWriter_calm {s0 s : State} (h : Calm s0 s) (a0 a2) : Calm s0 (poisonWriter a0 s a2) := by
  unfold poisonWriter
  split
  · exact h
  · extract_lets -underBinder -merge y0
    refine Calm.ite ?_ ?_
    · refine Calm.ite ?_ ?_
      · exact (skipRest_calm h ..)
      · exact h
    · refine stopLost_calm ?_ ..
      refine Calm.ite ?_ ?_
      · exact (setJob_calm h ..)
      · exact h

theorem blockPoisoned_calm {s0 s : State} (h : Calm s0 s) (a0 a1 a2) : Calm s0 (blockPoisoned a0 a1 a2 s) := by
  unfold blockPoisoned
  extract_lets -underBinder -merge y0 y1 y2 y3 y4
  have hy1 : Calm s0 y1 := (raise_calm (answer_calm (eccReads_calm h ..) ..) ..)
  have hy3 : Calm s0 y3 := (thinLater_calm (closeRecords_calm (rebuildBlk_calm hy1 ..) ..) ..)
  have hy4 : Calm s0 y4 := by
    refine Calm.foldl ?_ (fun y5 a hy5 => ?_)
    · exact hy3
    · beta_reduce
      exact (poisonWriter_calm hy5 ..)
  try clear_value y4
  try clear_value y3
  try clear_value y1
  exact (settle_calm (dispatchAll_calm hy4 ..) ..)

theorem engineTagBad_calm {s0 s : State} (h : Calm s0 s) (a0 a1) : Calm s0 (engineTagBad a0 a1 s) := by
  unfold engineTagBad
  extract_lets -underBinder -merge y0 y1
  have hy1 : Calm s0 y1 := (setEngine_calm (updBlk_calm h ..) ..)
  try clear_value y1
  exact (settle_calm (dispatchAll_calm (badTag_calm hy1 ..) ..) ..)

theorem verifyMismatch_calm {s0 s : State} (h : Calm s0 s) (a0 a1) : Calm s0 (verifyMismatch a0 a1 s) := by
  unfold verifyMismatch
  extract_lets -underBinder -merge y0 y1
  have hy1 : Calm s0 y1 := (Calm.upd h rfl rfl rfl rfl rfl rfl)
  try clear_value y1
  exact (raise_calm (setBlk_calm hy1 ..) ..)

theorem noShrink_calm {s0 s : State} (h : Calm s0 s) (a0 a1) : Calm s0 (noShrink a0 a1 s) := by
  unfold noShrink
  exact (answer_calm (setBlk_calm h ..) ..)

theorem encodingDone_calm {s0 s : State} (h : Calm s0 s) (a0 a1 a2) : Calm s0 (encodingDone a0 a1 a2 s) := by
  unfold encodingDone
  extract_lets -underBinder -merge y0 y1
  split
  · exact (verifyMismatch_calm h ..)
  · refine Calm.ite ?_ ?_
    · exact (verifyMismatch_calm h ..)
    · split
      · exact h
      · refine Calm.ite ?_ ?_
        · exact (noShrink_calm h ..)
        · refine Calm.ite ?_ ?_
          · exact h
          · exact (packetDone_calm h ..)

theorem copyDone_calm {s0 s : State} (h : Calm s0 s) (a0 a1 a2) : Calm s0 (copyDone a0 a1 a2 s) := by
  unfold copyDone
  extract_lets -underBinder -merge y0 y1 y2
  refine Calm.ite ?_ ?_
  · exact (verifyMismatch_calm h ..)
  · refine Calm.ite ?_ ?_
    · exact h
    · exact (packetDone_calm h ..)

end Sys2Proof.Machine
end

