-- ==== Sys2Proof/Laws/CalmCipher.lean ====
section
/-! SUPPORT. The operations of Machine/Cipher.lean keep what `Calm` says. -/

namespace Sys2Proof.Machine

theorem keyLoaded_calm {s0 s : State} (h : Calm s0 s) (a0 a1 a2) : Calm s0 (keyLoaded a0 a1 a2 s) := by
  unfold keyLoaded
  exact (finishWith_calm h ..)

theorem installKek_calm {s0 s : State} (h : Calm s0 s) (a0 a1 a2 a3) : Calm s0 (installKek a0 a1 a2 a3 s) := by
  unfold installKek
  extract_lets -underBinder -merge y0 y1
  have hy1 : Calm s0 y1 := (Calm.upd h rfl rfl rfl rfl rfl rfl)
  try clear_value y1
  exact (keyLoaded_calm hy1 ..)

theorem unwrapFail_calm {s0 s : State} (h : Calm s0 s) (a0) : Calm s0 (unwrapFail a0 s) := by
  unfold unwrapFail
  exact (complete_calm (raise_calm h ..) ..)

theorem loadData_calm {s0 s : State} (h : Calm s0 s) (a0 a1 a2) : Calm s0 (loadData a0 a1 a2 s) := by
  unfold loadData
  extract_lets -underBinder -merge y0 y1 y2 y3 y4
  refine Calm.ite ?_ ?_
  · exact h
  · refine Calm.ite ?_ ?_
    · exact (finish_calm h ..)
    · refine Calm.ite ?_ ?_
      · exact (complete_calm (raise_calm h ..) ..)
      · refine Calm.ite ?_ ?_
        · exact (complete_calm (raise_calm h ..) ..)
        · split
          · exact (finish_calm h ..)
          · extract_lets -underBinder -merge y5 y6
            refine Calm.ite ?_ ?_
            · exact (finish_calm h ..)
            · refine setStage_calm ?_ ..
              exact (Calm.upd h rfl rfl rfl rfl rfl rfl)

theorem recordHigh_calm {s0 s : State} (h : Calm s0 s) (a0) : Calm s0 (recordHigh a0 s) := by
  unfold recordHigh
  extract_lets -underBinder -merge y0 y1
  exact (Calm.upd h rfl rfl rfl rfl rfl rfl)

theorem loadPersisted_calm {s0 s : State} (h : Calm s0 s) (a0 a1 a2) : Calm s0 (loadPersisted a0 a1 a2 s) := by
  unfold loadPersisted
  extract_lets -underBinder -merge y0
  have hy0 : Calm s0 y0 := (recordHigh_calm h ..)
  try clear_value y0
  refine Calm.ite ?_ ?_
  · split
    · extract_lets -underBinder -merge y1 y2 y3 y4
      refine Calm.ite ?_ ?_
      · exact (dropCmd_calm hy0 ..)
      · refine keyLoaded_calm ?_ ..
        refine raiseIf_calm ?_ ..
        exact (Calm.upd hy0 rfl rfl rfl rfl rfl rfl)
    · exact hy0
  · exact (complete_calm (raise_calm h ..) ..)

theorem loseBlocks_calm {s0 s : State} (h : Calm s0 s) (a0 a1) : Calm s0 (loseBlocks a0 a1 s) := by
  unfold loseBlocks
  exact (settle_calm (loseFrom_calm h ..) ..)

theorem prePersisted_calm {s0 s : State} (h : Calm s0 s) (a0 a1) : Calm s0 (prePersisted a0 a1 s) := by
  unfold prePersisted
  extract_lets -underBinder -merge y0 y1
  have hy0 : Calm s0 y0 := (updKey_calm h ..)
  have hy1 : Calm s0 y1 := (raise_calm hy0 ..)
  try clear_value y1
  try clear_value y0
  refine Calm.ite ?_ ?_
  · exact (updKey_calm (recordHigh_calm hy0 ..) ..)
  · split
    · refine Calm.ite ?_ ?_
      · refine Calm.foldl ?_ (fun y2 a hy2 => ?_)
        · exact hy1
        · beta_reduce
          exact (loseBlocks_calm hy2 ..)
      · exact hy1
    · exact hy1

theorem reserveMore_calm {s0 s : State} (h : Calm s0 s) (a0 a1) : Calm s0 (reserveMore a0 a1 s) := by
  unfold reserveMore
  extract_lets -underBinder -merge y0 y1 y2 y3 y4
  have hy3 : Calm s0 y3 := (Calm.upd h rfl rfl rfl rfl rfl rfl)
  try clear_value y3
  exact (Calm.upd hy3 rfl rfl rfl rfl rfl rfl)

theorem takeValue_calm {s0 s : State} (h : Calm s0 s) (a0 a1 a2 a3 a4) : Calm s0 (takeValue a0 a1 a2 a3 a4 s) := by
  unfold takeValue
  extract_lets -underBinder -merge y0 y1 y2 y3 y4 y5 y6 y7
  have hy0 : Calm s0 y0 := (setBlk_calm h ..)
  have hy6 : Calm s0 y6 := (Calm.upd hy0 rfl rfl rfl rfl rfl rfl)
  have hy7 : Calm s0 y7 := (raiseIf_calm hy6 ..)
  try clear_value y7
  try clear_value y6
  try clear_value y0
  refine Calm.ite ?_ ?_
  · exact (reserveMore_calm hy7 ..)
  · exact hy7

theorem cipherBuf_calm {s0 s : State} (h : Calm s0 s) (a0 a1) : Calm s0 (cipherBuf a0 a1 s).1 := by
  have ha : ∀ t, Calm s0 t → Calm s0 (askBuf (0x70 + a0) a1.storedSize a1.flow t).1 := fun _ ht => askBuf_calm ht ..
  unfold cipherBuf
  dsimp only
  split
  · exact Calm.ite_fst h (Calm.upd (ha _ (freeOwn_calm h ..)) rfl rfl rfl rfl rfl rfl)
  · exact Calm.ite_fst h (Calm.upd (ha _ h) rfl rfl rfl rfl rfl rfl)

theorem packetPoisoned_calm {s0 s : State} (h : Calm s0 s) (a0 a1) : Calm s0 (packetPoisoned a0 a1 s) := by
  unfold packetPoisoned
  exact (settle_calm (loseFrom_calm (answer_calm h ..) ..) ..)

theorem countDraws_calm {s0 s : State} (h : Calm s0 s) : Calm s0 (countDraws s) := by
  unfold countDraws
  extract_lets -underBinder -merge y0
  refine Calm.ite ?_ ?_
  · exact h
  · exact (Calm.upd h rfl rfl rfl rfl rfl rfl)

theorem drawRandom_calm {s0 s : State} (h : Calm s0 s) : Calm s0 (drawRandom s).2 := by
  unfold drawRandom
  extract_lets -underBinder -merge y0
  exact (Calm.upd h rfl rfl rfl rfl rfl rfl)

end Sys2Proof.Machine
end

