-- ==== Sys2Proof/Laws/CalmLifeCycle.lean ====
section
/-! SUPPORT. The operations of Machine/LifeCycle.lean keep what `Calm` says. -/

namespace Sys2Proof.Machine

theorem blowTriple_keeps (row : BitVec 40) (k i : Nat) (h : row.getLsbD i = true) : (blowTriple row k).getLsbD i = true := by
  simp [blowTriple, h]

theorem repairTriple_calm {s0 s : State} (h : Calm s0 s) (k) : Calm s0 (repairTriple s k) := by
  unfold repairTriple
  refine Calm.ite ?_ h
  refine raise_calm ?_ ..
  exact Calm.blow h rfl (fun i q => blowTriple_keeps _ _ i q) rfl rfl rfl rfl

theorem readFuses_calm {s0 s : State} (h : Calm s0 s) : Calm s0 (readFuses s) := by
  unfold readFuses
  extract_lets -underBinder -merge y0 y1 y2
  have hy1 : Calm s0 y1 := by
    refine Calm.foldl ?_ (fun y3 a hy3 => ?_)
    · exact h
    · beta_reduce
      exact (repairTriple_calm hy3 ..)
  try clear_value y1
  refine Calm.ite ?_ ?_
  · refine raise_calm ?_ ..
    exact (Calm.upd h rfl rfl rfl rfl rfl rfl)
  · exact (Calm.upd hy1 rfl rfl rfl rfl rfl rfl)

theorem drawScalar_calm {s0 s : State} (h : Calm s0 s) : Calm s0 (drawScalar s).2 := by
  unfold drawScalar
  extract_lets -underBinder -merge y0
  have hy0 : Calm s0 y0.2 := (drawRandom_calm h ..)
  try clear_value y0
  exact hy0

theorem fieldKey_calm {s0 s : State} (h : Calm s0 s) : Calm s0 (fieldKey s) := by
  unfold fieldKey
  extract_lets -underBinder -merge y0 y1 y2
  have hy0 : Calm s0 y0.2 := (drawScalar_calm h ..)
  have hy1 : Calm s0 y1 := hy0
  try clear_value y0
  refine Calm.ite ?_ ?_
  · refine raise_calm ?_ ..
    exact (Calm.upd hy1 rfl rfl rfl rfl rfl rfl)
  · exact h

theorem closeDebug_calm {s0 s : State} (h : Calm s0 s) : Calm s0 (closeDebug s) := by
  unfold closeDebug
  extract_lets -underBinder -merge y0
  refine Calm.ite ?_ ?_
  · exact h
  · exact (Calm.upd h rfl rfl rfl rfl rfl rfl)

theorem endLoads_calm {s0 s : State} (h : Calm s0 s) : Calm s0 (endLoads s) := by
  unfold endLoads
  extract_lets -underBinder -merge y0 y1
  refine Calm.foldl ?_ (fun y2 a hy2 => ?_)
  · exact (Calm.upd h rfl rfl rfl rfl rfl rfl)
  · beta_reduce
    exact (finish_calm hy2 ..)

theorem zeroise_calm {s0 s : State} (h : Calm s0 s) : Calm s0 (zeroise s) := by
  unfold zeroise
  extract_lets -underBinder -merge y0 y1 y2
  have hy0 : Calm s0 y0 := (endLoads_calm h ..)
  try clear_value y0
  refine raise_calm ?_ ..
  exact (Calm.upd hy0 rfl rfl rfl rfl rfl rfl)

theorem beforeFuses_calm {s0 s : State} (h : Calm s0 s) (a0 a1) : Calm s0 (beforeFuses a0 a1 s) := by
  unfold beforeFuses
  extract_lets -underBinder -merge y0
  refine Calm.ite ?_ ?_
  · exact (zeroise_calm h ..)
  · refine Calm.ite ?_ ?_
    · exact (Calm.upd h rfl rfl rfl rfl rfl rfl)
    · exact h

theorem lcRequest_calm {s0 s : State} (h : Calm s0 s) (a0 a1 a2) : Calm s0 (lcRequest a0 a1 a2 s).2 := by
  unfold lcRequest
  split
  · extract_lets -underBinder -merge y0
    dsimp -zeta only
    refine raise_calm ?_ ..
    exact (Calm.upd h rfl rfl rfl rfl rfl rfl)
  · extract_lets -underBinder -merge y1 y2 y3 y4
    dsimp -zeta only
    refine beforeFuses_calm ?_ ..
    refine closeDebug_calm ?_ ..
    exact (Calm.upd h rfl rfl rfl rfl rfl rfl)

theorem lcChallenge_calm {s0 s : State} (h : Calm s0 s) : Calm s0 (lcChallenge s).2 := by
  unfold lcChallenge
  extract_lets -underBinder -merge y0 y1 y2
  have hy0 : Calm s0 y0.2 := (drawRandom_calm h ..)
  have hy1 : Calm s0 y1 := hy0
  try clear_value y0
  exact (Calm.upd hy1 rfl rfl rfl rfl rfl rfl)

theorem lcFuse_calm {s0 s : State} (h : Calm s0 s) (a0) : Calm s0 (lcFuse a0 s) := by
  unfold lcFuse
  split
  · exact h
  · refine Calm.ite (Calm.ite ?_ ?_) ?_
    · exact Calm.upd h rfl rfl rfl rfl rfl rfl
    · refine answerDict_calm ?_ ..
      exact Calm.upd h rfl rfl rfl rfl rfl rfl
    · refine lapseSessions_calm (raise_calm (answerDict_calm (fieldKey_calm (closeDebug_calm ?_ ..) ..) ..) ..) ..
      exact Calm.blow h rfl (fun i q => blowTriple_keeps _ _ i q) rfl rfl rfl rfl

end Sys2Proof.Machine
end

