-- ==== Sys2Proof/Laws/CalmResets.lean ====
section
/-! SUPPORT. The operations of Machine/Resets.lean keep what `Calm` says. -/

namespace Sys2Proof.Machine

theorem hostReset_calm {s0 s : State} (h : Calm s0 s) : Calm s0 (hostReset s) := by
  unfold hostReset
  extract_lets -underBinder -merge y0 y1 y2
  have hy1 : Calm s0 y1 :=
    Calm.foldl h fun _ _ ht => resetFnRegs_calm (dropWindow_calm (retireKeys_calm (endFunction_calm ht ..) ..) ..) ..
  clear_value y1
  have hy2 : Calm s0 y2 := dropOwners_calm hy1 ..
  clear_value y2
  exact Calm.shrink hy2 rfl rfl rfl (Nat.zero_le _) (Nat.le_refl _) (Nat.le_refl _)

theorem resetCmd_calm {s0 s : State} (h : Calm s0 s) (a0) : Calm s0 (resetCmd a0 s) := by
  unfold resetCmd
  split
  · exact h
  · extract_lets -underBinder -merge y0
    refine Calm.ite ?_ ?_
    · exact h
    · refine Calm.ite ?_ ?_
      · exact (dropCmd_calm h ..)
      · split
        · exact h
        · exact (finishWrite_calm h ..)
        · exact (endReadEarly_calm h ..)
        · exact (endRebuild_calm h ..)
        · refine Calm.ite ?_ ?_
          · exact (complete_calm h ..)
          · exact (complete_calm h ..)
        · extract_lets -underBinder -merge y1
          have hy1 : Calm s0 y1.2 := (recordNumOf_calm h ..)
          try clear_value y1
          refine Calm.ite ?_ ?_
          · exact (complete_calm hy1 ..)
          · exact (complete_calm h ..)

theorem repairRow_calm {s0 s : State} (h : Calm s0 s) (a1) : Calm s0 (repairRow s a1) := by
  unfold repairRow
  extract_lets -underBinder -merge y0 y1 y2 y3
  refine Calm.ite ?_ ?_
  · exact (Calm.upd h rfl rfl rfl rfl rfl rfl)
  · refine Calm.ite ?_ ?_
    · exact h
    · refine setCause_calm ?_ ..
      refine raise_calm ?_ ..
      exact (Calm.upd h rfl rfl rfl rfl rfl rfl)

theorem fillPools_calm {s0 s : State} (h : Calm s0 s) : Calm s0 (fillPools s) := by
  unfold fillPools
  extract_lets -underBinder -merge y0 y1 y2 y3 y4
  have hy0 : Calm s0 y0 := by
    refine Calm.foldl ?_ (fun y5 a hy5 => ?_)
    · exact h
    · beta_reduce
      exact (repairRow_calm hy5 ..)
  have hy2 : Calm s0 y2 := (Calm.upd hy0 rfl rfl rfl rfl rfl rfl)
  have hy4 : Calm s0 y4 := (Calm.upd hy2 rfl rfl rfl rfl rfl rfl)
  try clear_value y4
  try clear_value y2
  try clear_value y0
  refine Calm.foldl ?_ (fun y6 a hy6 => ?_)
  · exact hy4
  · beta_reduce
    extract_lets -underBinder -merge y7
    exact (updPool_calm hy6 ..)

theorem poolsReady_calm {s0 s : State} (h : Calm s0 s) : Calm s0 (poolsReady s) := by
  unfold poolsReady
  extract_lets -underBinder -merge y0 y1
  have hy0 : Calm s0 y0 := by
    refine Calm.foldl ?_ (fun y2 a hy2 => ?_)
    · exact h
    · beta_reduce
      exact (updPool_calm hy2 ..)
  try clear_value y0
  refine Calm.foldl ?_ (fun y3 a hy3 => ?_)
  · exact (Calm.upd hy0 rfl rfl rfl rfl rfl rfl)
  · beta_reduce
    exact (BufReq.run_calm hy3 ..)

theorem cartAtReset_calm {s0 s : State} (h : Calm s0 s) (a0) : Calm s0 (cartAtReset a0 s) := by
  unfold cartAtReset
  extract_lets -underBinder -merge y0 y1 y2 y3 y4 y5
  have hy4 : Calm s0 y4 := (Calm.upd h rfl rfl rfl rfl rfl rfl)
  have hy5 : Calm s0 y5 := by
    subst y5
    split
    · split
      · exact (finish_calm hy4 ..)
      · exact (raise_calm hy4 ..)
    · exact hy4
  try clear_value y5
  try clear_value y4
  refine Calm.ite ?_ ?_
  · exact (Calm.upd h rfl rfl rfl rfl rfl rfl)
  · refine Calm.ite ?_ ?_
    · split
      · exact (finish_calm hy5 ..)
      · exact hy5
    · split
      · exact (Calm.upd h rfl rfl rfl rfl rfl rfl)
      · exact (Calm.upd h rfl rfl rfl rfl rfl rfl)
      · exact (Calm.upd h rfl rfl rfl rfl rfl rfl)
      · exact (Calm.upd h rfl rfl rfl rfl rfl rfl)
      · extract_lets -underBinder -merge y6
        have hy6 : Calm s0 y6 := (Calm.upd h rfl rfl rfl rfl rfl rfl)
        try clear_value y6
        split
        · exact (setStage_calm hy6 ..)
        · exact hy6
      · exact (Calm.upd h rfl rfl rfl rfl rfl rfl)

theorem dataReset_calm {s0 s : State} (h : Calm s0 s) (a0) : Calm s0 (dataReset a0 s) := by
  unfold dataReset
  extract_lets -underBinder -merge y0 y1 y2 y3 y4 y5 y6 y7
  have hy0 : Calm s0 y0 := (setGates_calm h ..)
  have hy1 : Calm s0 y1 := by
    refine Calm.foldl ?_ (fun y8 a hy8 => ?_)
    · exact hy0
    · beta_reduce
      exact (resetCmd_calm hy8 ..)
  have hy2 : Calm s0 y2 := by
    refine Calm.foldl ?_ (fun y9 a hy9 => ?_)
    · exact hy1
    · beta_reduce
      exact (answer_calm hy9 ..)
  have hy3 : Calm s0 y3 := by
    refine Calm.foldl ?_ (fun y10 a hy10 => ?_)
    · exact hy2
    · beta_reduce
      exact (closeStream_calm hy10 ..)
  have hy7 : Calm s0 y7 := (Calm.upd hy3 rfl rfl rfl rfl rfl rfl)
  try clear_value y7
  try clear_value y3
  try clear_value y2
  try clear_value y1
  try clear_value y0
  exact (cartAtReset_calm (fillPools_calm hy7 ..) ..)

theorem cipherReset_calm {s0 s : State} (h : Calm s0 s) : Calm s0 (cipherReset s) := by
  unfold cipherReset
  extract_lets -underBinder -merge y0 y1 y2 y3 y4 y5 y6 y7 y8
  have hy1 : Calm s0 y1 := by
    refine Calm.foldl ?_ (fun y9 a hy9 => ?_)
    · exact h
    · beta_reduce
      split
      · exact (settle_calm (loseFrom_calm hy9 ..) ..)
      · exact hy9
  have hy3 : Calm s0 y3 := by
    refine Calm.foldl ?_ (fun y10 a hy10 => ?_)
    · exact hy1
    · beta_reduce
      exact (failCmd_calm hy10 ..)
  have hy7 : Calm s0 y7 := by
    refine dropOwners_calm ?_ ..
    exact (Calm.upd hy3 rfl rfl rfl rfl rfl rfl)
  try clear_value y7
  try clear_value y3
  try clear_value y1
  exact (Calm.upd hy7 rfl rfl rfl rfl rfl rfl)

theorem endThread_calm {s0 s : State} (h : Calm s0 s) : Calm s0 (endThread s) := by
  unfold endThread
  split
  · exact h
  · extract_lets -underBinder -merge y0 y1 y2
    have hy2 : Calm s0 y2 := (Calm.upd h rfl rfl rfl rfl rfl rfl)
    try clear_value y2
    split
    · exact (complete_calm hy2 ..)
    · exact hy2

theorem endUnthread_calm {s0 s : State} (h : Calm s0 s) : Calm s0 (endUnthread s) := by
  unfold endUnthread
  split
  · extract_lets -underBinder -merge y0
    refine Calm.ite ?_ ?_
    · refine complete_calm ?_ ..
      exact (Calm.upd h rfl rfl rfl rfl rfl rfl)
    · exact h
  · exact h

theorem transportReset_calm {s0 s : State} (h : Calm s0 s) : Calm s0 (transportReset s) := by
  unfold transportReset
  extract_lets -underBinder -merge y0
  have hy0 : Calm s0 y0 := (tlcsReset_calm (endUnthread_calm (endThread_calm h ..) ..) ..)
  try clear_value y0
  exact (Calm.upd hy0 rfl rfl rfl rfl rfl rfl)

theorem domainDown_calm {s0 s : State} (h : Calm s0 s) (a0) : Calm s0 (domainDown a0 s) := by
  unfold domainDown
  split
  · exact (hostReset_calm h ..)
  · exact (dataReset_calm h ..)
  · exact (cipherReset_calm h ..)
  · exact (transportReset_calm h ..)
  · exact (flashReset_calm h ..)
  · exact (mgmtDown_calm h ..)
  · exact (channelDown_calm h ..)

theorem startReset_calm {s0 s : State} (h : Calm s0 s) (a0 a1 a2) : Calm s0 (startReset a0 a1 a2 s) := by
  unfold startReset
  refine Calm.ite ?_ ?_
  · exact (noteReset_calm h ..)
  · refine Calm.ite ?_ ?_
    · exact (Calm.upd h rfl rfl rfl rfl rfl rfl)
    · exact (noteReset_calm (domainDown_calm h ..) ..)

theorem domainUp_calm {s0 s : State} (h : Calm s0 s) (a0 a1) : Calm s0 (domainUp a0 a1 s) := by
  unfold domainUp
  extract_lets -underBinder -merge y0 y1 y2 y3 y4
  have hy2 : Calm s0 y2 := by
    refine Calm.ite ?_ ?_
    · refine tceFault_calm ?_ ..
      exact (Calm.upd h rfl rfl rfl rfl rfl rfl)
    · exact h
  have hy4 : Calm s0 y4 := (headFrontInit_calm h ..)
  try clear_value y4
  try clear_value y2
  refine Calm.ite ?_ ?_
  · exact (poolsReady_calm h ..)
  · refine Calm.ite ?_ ?_
    · refine raiseIf_calm ?_ ..
      exact (Calm.upd h rfl rfl rfl rfl rfl rfl)
    · refine Calm.ite ?_ ?_
      · exact (faultIf_calm hy2 ..)
      · refine Calm.ite ?_ ?_
        · exact (flashGo_calm (flashInit_calm h ..) ..)
        · refine Calm.ite ?_ ?_
          · refine Calm.ite ?_ ?_
            · exact (restoreMember_calm (updChan_calm hy4 ..) ..)
            · exact hy4
          · exact h

theorem restart_calm {s0 s : State} (h : Calm s0 s) (a0 a1) : Calm s0 (restart a0 a1 s) := by
  unfold restart
  extract_lets -underBinder -merge y0 y1 y2 y3 y4 y5 y6 y7
  have hy0 : Calm s0 y0 := stopFlash_calm (cutPersist_calm (setGates_calm h ..) ..) ..
  clear_value y0
  have hy3 : Calm s0 y3 := Calm.shrink hy0 rfl rfl rfl (Nat.zero_le _) (Nat.zero_le _) (Nat.zero_le _)
  have hy4 : Calm s0 y4 := dropVolatile_calm hy3 ..
  clear_value y4
  have hy5 : Calm s0 y5 := Calm.ite (restoreDefaults_calm hy4 ..) hy4
  clear_value y5
  have hy7 : Calm s0 y7 := by
    refine fillPools_calm ?_ ..
    exact Calm.upd hy5 rfl rfl rfl rfl rfl rfl
  clear_value y7
  exact headFrontInit_calm (fieldKey_calm (boot_calm (readFuses_calm hy7 ..) ..) ..) ..

theorem accrue_calm {s0 s : State} (h : Calm s0 s) : Calm s0 (accrue s) := by
  unfold accrue
  extract_lets -underBinder -merge y0 y1 y2 y3
  exact (Calm.upd h rfl rfl rfl rfl rfl rfl)

end Sys2Proof.Machine
end

