-- ==== Sys2Proof/Laws/CalmPower.lean ====
section
/-! SUPPORT. The operations of Machine/Power.lean keep what `Calm` says. -/

namespace Sys2Proof.Machine

theorem enterPower_calm {s0 s : State} (h : Calm s0 s) (a0) : Calm s0 (enterPower a0 s) := by
  unfold enterPower
  extract_lets -underBinder -merge y0 y1
  refine Calm.ite ?_ ?_
  · exact h
  · refine Calm.ite ?_ ?_
    · refine settle_calm ?_ ..
      exact (Calm.upd h rfl rfl rfl rfl rfl rfl)
    · exact (Calm.upd h rfl rfl rfl rfl rfl rfl)

theorem followRequest_calm {s0 s : State} (h : Calm s0 s) : Calm s0 (followRequest s) := by
  unfold followRequest
  extract_lets -underBinder -merge y0
  refine Calm.ite ?_ ?_
  · exact (enterPower_calm h ..)
  · refine Calm.ite ?_ ?_
    · exact (Calm.upd h rfl rfl rfl rfl rfl rfl)
    · exact h

theorem wakeUp_calm {s0 s : State} (h : Calm s0 s) : Calm s0 (wakeUp s) := by
  unfold wakeUp
  split
  · exact h
  · extract_lets -underBinder -merge y0
    exact (Calm.upd h rfl rfl rfl rfl rfl rfl)
  · extract_lets -underBinder -merge y1
    refine Calm.ite ?_ ?_
    · exact h
    · exact (Calm.upd h rfl rfl rfl rfl rfl rfl)

theorem powerOff_calm {s0 s : State} (h : Calm s0 s) : Calm s0 (powerOff s) := by
  unfold powerOff
  refine Calm.ite ?_ ?_
  · exact (sendAll_calm (disableStages_calm h ..) ..)
  · exact h

theorem powerOn_calm {s0 s : State} (h : Calm s0 s) : Calm s0 (powerOn s) := by
  unfold powerOn
  extract_lets -underBinder -merge y0 y1 y2 y3 y4 y5
  have hy1 : Calm s0 y1 := (Calm.upd h rfl rfl rfl rfl rfl rfl)
  have hy2 : Calm s0 y2 := by
    refine Calm.foldl ?_ (fun y6 a hy6 => ?_)
    · exact hy1
    · beta_reduce
      exact (noteReset_calm (domainDown_calm hy6 ..) ..)
  have hy3 : Calm s0 y3 := (Calm.upd hy2 rfl rfl rfl rfl rfl rfl)
  have hy4 : Calm s0 y4 := (headFrontInit_calm hy3 ..)
  have hy5 : Calm s0 y5 := by
    refine Calm.ite ?_ ?_
    · exact (enableStages_calm hy4 ..)
    · exact hy4
  try clear_value y5
  try clear_value y4
  try clear_value y3
  try clear_value y2
  try clear_value y1
  exact (faultIf_calm hy5 ..)

theorem idleTo_calm {s0 s : State} (h : Calm s0 s) (a0) : Calm s0 (idleTo a0 s) := by
  unfold idleTo
  refine Calm.ite ?_ ?_
  · exact (enterPower_calm h ..)
  · exact h

theorem powerRequest_calm {s0 s : State} (h : Calm s0 s) (a0) : Calm s0 (powerRequest a0 s) := by
  unfold powerRequest
  extract_lets -underBinder -merge y0 y1
  refine Calm.ite ?_ ?_
  · refine wakeUp_calm ?_ ..
    exact (Calm.upd h rfl rfl rfl rfl rfl rfl)
  · refine followRequest_calm ?_ ..
    exact (Calm.upd h rfl rfl rfl rfl rfl rfl)

end Sys2Proof.Machine
end

