-- ==== Sys2Proof/Laws/CalmDictionary.lean ====
section
/-! SUPPORT. The operations of Machine/Dictionary.lean keep what `Calm` says. -/

namespace Sys2Proof.Machine

theorem withVal_calm {s0 s : State} (h : Calm s0 s) (a1 a2 a3) : Calm s0 (withVal s a1 a2 a3) := by
  unfold withVal
  extract_lets -underBinder -merge y0
  exact (Calm.upd h rfl rfl rfl rfl rfl rfl)

theorem keepCopies_calm {s0 s : State} (h : Calm s0 s) (a0 a1) : Calm s0 (keepCopies a0 a1 s) := by
  unfold keepCopies
  extract_lets -underBinder -merge y0
  split
  · exact (updFn_calm h ..)
  · exact (updFn_calm h ..)
  · exact (updSession_calm h ..)
  · exact h

theorem clearFlags_calm {s0 s : State} (h : Calm s0 s) (a0 a1) : Calm s0 (clearFlags a0 a1 s) := by
  unfold clearFlags
  refine Calm.ite ?_ ?_
  · exact (updStream_calm h ..)
  · exact h

theorem putStaxaKey_calm {s0 s : State} (h : Calm s0 s) (a0 a1) : Calm s0 (putStaxaKey a0 a1 s) := by
  unfold putStaxaKey
  extract_lets -underBinder -merge y0 y1
  exact (Calm.upd h rfl rfl rfl rfl rfl rfl)

theorem ackCauses_calm {s0 s : State} (h : Calm s0 s) (a0) : Calm s0 (ackCauses a0 s) := by
  unfold ackCauses
  extract_lets -underBinder -merge y0 y1
  exact (Calm.upd h rfl rfl rfl rfl rfl rfl)

theorem clearSat_calm {s0 s : State} (h : Calm s0 s) (a0) : Calm s0 (clearSat a0 s) := by
  unfold clearSat
  extract_lets -underBinder -merge y0
  exact (Calm.upd h rfl rfl rfl rfl rfl rfl)

theorem writeReset_calm {s0 s : State} (h : Calm s0 s) (a0 a1) : Calm s0 (writeReset a0 a1 s).2 := by
  unfold writeReset
  refine Calm.ite_snd ?_ ?_
  · exact (startReset_calm h ..)
  · exact (startReset_calm h ..)

theorem writeNow_calm {s0 s : State} (h : Calm s0 s) (a0 a1 a2) : Calm s0 (writeNow a0 a1 a2 s).2 := by
  unfold writeNow
  extract_lets -underBinder -merge y0 y1 y2 y3 y4 y5 y6
  refine Calm.ite_snd ?_ ?_
  · exact (Calm.upd h rfl rfl rfl rfl rfl rfl)
  · refine Calm.ite_snd ?_ ?_
    · exact (putStaxaKey_calm h ..)
    · refine Calm.ite_snd ?_ ?_
      · refine Calm.ite_snd ?_ ?_
        · exact (keepCopies_calm h ..)
        · exact (clearFlags_calm h ..)
      · refine Calm.ite_snd ?_ ?_
        · refine Calm.ite ?_ ?_
          · exact (declareFailed_calm h ..)
          · exact (restoreCommand_calm h ..)
        · refine Calm.ite_snd ?_ ?_
          · exact (keepCopies_calm h ..)
          · refine Calm.ite_snd ?_ ?_
            · exact (Calm.upd h rfl rfl rfl rfl rfl rfl)
            · refine Calm.ite_snd ?_ ?_
              · refine Calm.ite ?_ ?_
                · exact (tceClear_calm h ..)
                · exact (clearSat_calm h ..)
              · refine Calm.ite_snd ?_ ?_
                · exact (keepCopies_calm h ..)
                · refine Calm.ite_snd ?_ ?_
                  · exact (submitFlash_calm h ..)
                  · refine Calm.ite_snd ?_ ?_
                    · exact (keepCopies_calm h ..)
                    · refine Calm.ite_snd ?_ ?_
                      · exact (keepCopies_calm h ..)
                      · refine Calm.ite_snd ?_ ?_
                        · exact (writeReset_calm h ..)
                        · refine Calm.ite_snd ?_ ?_
                          · exact (powerRequest_calm h ..)
                          · refine Calm.ite_snd ?_ ?_
                            · exact (lcRequest_calm h ..)
                            · refine Calm.ite_snd ?_ ?_
                              · exact (ackCauses_calm h ..)
                              · exact (withVal_calm h ..)

theorem readNow_calm {s0 s : State} (h : Calm s0 s) (a0 a1 a2) : Calm s0 (readNow a0 a1 a2 s).2 := by
  unfold readNow
  extract_lets -underBinder -merge y0
  refine Calm.ite_snd ?_ ?_
  · exact (lcChallenge_calm h ..)
  · refine Calm.ite_snd ?_ ?_
    · exact (keepCopies_calm h ..)
    · split
      · exact (drew_calm h ..)
      · exact h

theorem serveOp_calm {s0 s : State} (h : Calm s0 s) (a0) : Calm s0 (serveOp a0 s) := by
  unfold serveOp
  split
  · exact h
  · split
    · exact (staxaRespond_calm h ..)
    · extract_lets -underBinder -merge y0
      refine Calm.ite ?_ ?_
      · exact (answerDict_calm h ..)
      · split
        · exact (answerDict_calm h ..)
        · extract_lets -underBinder -merge y1 y2 y3
          have hy1 : Calm s0 y1.2 := (readNow_calm h ..)
          have hy3 : Calm s0 y3.2 := (writeNow_calm h ..)
          try clear_value y3
          try clear_value y1
          refine Calm.ite ?_ ?_
          · exact (answerDict_calm hy1 ..)
          · refine Calm.ite ?_ ?_
            · exact (Calm.upd h rfl rfl rfl rfl rfl rfl)
            · split
              · exact (answerDict_calm hy3 ..)
              · exact hy3

theorem serveLoop_calm {s0 s : State} (h : Calm s0 s) (n) : Calm s0 (serveLoop n s) := by
  induction n generalizing s with
  | zero => exact h
  | succ n ih =>
    unfold serveLoop
    refine Calm.ite ?_ ?_
    · exact h
    · split
      · exact h
      · extract_lets -underBinder -merge y0
        refine ih ?_
        refine serveOp_calm ?_ ..
        exact (Calm.upd h rfl rfl rfl rfl rfl rfl)

theorem serve_calm {s0 s : State} (h : Calm s0 s) : Calm s0 (serve s) := by
  unfold serve
  exact (serveLoop_calm h ..)

theorem startWindow_calm {s0 s : State} (h : Calm s0 s) (a0 a1) : Calm s0 (startWindow a0 a1 s) := by
  unfold startWindow
  refine Calm.ite ?_ ?_
  · exact h
  · exact (serve_calm (queueOp_calm (updFn_calm h ..) ..) ..)

theorem rowWrite_calm {s0 s : State} (h : Calm s0 s) (a0 a1 a2) : Calm s0 (rowWrite a0 a1 a2 s) := by
  unfold rowWrite
  exact (serve_calm (queueOp_calm h ..) ..)

end Sys2Proof.Machine
end

