-- ==== Sys2Proof/Laws/CalmReads.lean ====
section
/-! SUPPORT. The operations of Machine/Reads.lean keep what `Calm` says. -/

namespace Sys2Proof.Machine

theorem beginRead_calm {s0 s : State} (h : Calm s0 s) (a0 a1 a2) : Calm s0 (beginRead a0 a1 a2 s) := by
  unfold beginRead
  extract_lets -underBinder -merge y0 y1
  have hy1 : Calm s0 y1 := (eccReads_calm h ..)
  try clear_value y1
  refine Calm.ite ?_ ?_
  · exact (failCmd_calm (answer_calm hy1 ..) ..)
  · split
    · exact (settle_calm (setStage_calm hy1 ..) ..)
    · exact (finish_calm hy1 ..)

theorem setTape_calm {s0 s : State} (h : Calm s0 s) (a0) : Calm s0 (setTape a0 s) := by
  unfold setTape
  extract_lets -underBinder -merge y0
  exact (Calm.upd h rfl rfl rfl rfl rfl rfl)

theorem retagReaders_calm {s0 s : State} (h : Calm s0 s) (a0 a1) : Calm s0 (retagReaders a0 a1 s) := by
  unfold retagReaders
  refine Calm.foldl ?_ (fun y0 a hy0 => ?_)
  · exact h
  · beta_reduce
    exact (retag_calm hy0 ..)

theorem blkPoisoned_calm {s0 s : State} (h : Calm s0 s) (a0 a1 a2 a3) : Calm s0 (blkPoisoned a0 a1 a2 a3 s) := by
  unfold blkPoisoned
  extract_lets -underBinder -merge y0 y1
  have hy1 : Calm s0 y1 := (answer_calm h ..)
  try clear_value y1
  refine settle_calm ?_ ..
  refine Calm.foldl ?_ (fun y2 a hy2 => ?_)
  · exact hy1
  · beta_reduce
    exact (failCmd_calm hy2 ..)

theorem blkTagBad_calm {s0 s : State} (h : Calm s0 s) (a0 a1 a2) : Calm s0 (blkTagBad a0 a1 a2 s) := by
  unfold blkTagBad
  exact (settle_calm (badTag_calm h ..) ..)

theorem decrypted_calm {s0 s : State} (h : Calm s0 s) (a0 a1 a2 a3) : Calm s0 (decrypted a0 a1 a2 a3 s) := by
  unfold decrypted
  extract_lets -underBinder -merge y0
  have hy0 : Calm s0 y0 := (countDraws_calm h ..)
  try clear_value y0
  split
  · extract_lets -underBinder -merge y1 y2
    have hy2 : Calm s0 y2 := (Calm.upd hy0 rfl rfl rfl rfl rfl rfl)
    try clear_value y2
    exact (settle_calm (setTape_calm (giveOwn_calm hy2 ..) ..) ..)
  · extract_lets -underBinder -merge y3 y4
    have hy4 : Calm s0 y4 := (Calm.upd hy0 rfl rfl rfl rfl rfl rfl)
    try clear_value y4
    exact (settle_calm (raise_calm (setTape_calm (freeOwn_calm hy4 ..) ..) ..) ..)

theorem freeDecoded_calm {s0 s : State} (h : Calm s0 s) (a1) : Calm s0 (freeDecoded s a1) := by
  unfold freeDecoded
  split
  · exact (setTape_calm (freeOpt_calm (freeOpt_calm h ..) ..) ..)
  · exact h

theorem markFault_calm {s0 s : State} (h : Calm s0 s) (a0) : Calm s0 (markFault a0 s) := by
  unfold markFault
  extract_lets -underBinder -merge y0 y1
  have hy1 : Calm s0 y1 := (Calm.upd h rfl rfl rfl rfl rfl rfl)
  try clear_value y1
  exact (raise_calm (setTape_calm hy1 ..) ..)

theorem decodeChain_calm {s0 s : State} (h : Calm s0 s) (a0 a1) : Calm s0 (decodeChain a0 a1 s) := by
  unfold decodeChain
  extract_lets -underBinder -merge y0 y1 y2 y3 y4
  have hy2 : Calm s0 y2 := by
    refine Calm.foldl ?_ (fun y5 a hy5 => ?_)
    · exact h
    · beta_reduce
      exact (setTape_calm hy5 ..)
  have hy4 : Calm s0 y4 := by
    subst y4
    split
    · exact hy2
    · exact (markFault_calm hy2 ..)
  try clear_value y4
  try clear_value y2
  refine settle_calm ?_ ..
  refine freeDecoded_calm ?_ ..
  refine Calm.foldl ?_ (fun y7 a hy7 => ?_)
  · refine Calm.foldl ?_ (fun y6 a hy6 => ?_)
    · exact hy4
    · beta_reduce
      exact (markFault_calm hy6 ..)
  · beta_reduce
    exact (freeDecoded_calm hy7 ..)

end Sys2Proof.Machine
end

