-- ==== Sys2Proof/Laws/CalmStaxa.lean ====
section
/-! SUPPORT. The operations of Machine/Staxa.lean keep what `Calm` says. -/

namespace Sys2Proof.Machine

theorem dropDatagram_calm {s0 s : State} (h : Calm s0 s) : Calm s0 (dropDatagram s) := by
  unfold dropDatagram
  extract_lets -underBinder -merge y0
  exact (Calm.upd h rfl rfl rfl rfl rfl rfl)

theorem tagFailed_calm {s0 s : State} (h : Calm s0 s) : Calm s0 (tagFailed s) := by
  unfold tagFailed
  extract_lets -underBinder -merge y0
  exact (Calm.upd h rfl rfl rfl rfl rfl rfl)

theorem staxaError_calm {s0 s : State} (h : Calm s0 s) (a0 a1 a2) : Calm s0 (staxaError a0 a1 a2 s) := by
  unfold staxaError
  extract_lets -underBinder -merge y0 y1 y2
  refine Calm.ite ?_ ?_
  · exact h
  · refine emit_calm ?_ ..
    exact (Calm.upd h rfl rfl rfl rfl rfl rfl)

theorem openSession_calm {s0 s : State} (h : Calm s0 s) (a0 a1 a2 a3) : Calm s0 (openSession a0 a1 a2 a3 s) := by
  unfold openSession
  extract_lets -underBinder -merge y0 y1 y2 y3 y4 y5 y6 y7 y8 y9 y10 y11
  have hy0 : Calm s0 y0.2 := (drawRandom_calm h ..)
  have hy1 : Calm s0 y1.2 := (drawRandom_calm hy0 ..)
  have hy2 : Calm s0 y2 := hy1
  try clear_value y1
  try clear_value y0
  refine emit_calm ?_ ..
  exact (Calm.upd hy2 rfl rfl rfl rfl rfl rfl)

theorem takeRequest_calm {s0 s : State} (h : Calm s0 s) (a0 a1 a2 a3) : Calm s0 (takeRequest a0 a1 a2 a3 s) := by
  unfold takeRequest
  refine Calm.ite ?_ ?_
  · refine Calm.ite ?_ ?_
    · exact h
    · split
      · exact (serve_calm (queueOp_calm (updSession_calm h ..) ..) ..)
      · exact h
  · refine Calm.ite ?_ ?_
    · exact (emit_calm h ..)
    · exact (staxaError_calm h ..)

theorem endSession_calm {s0 s : State} (h : Calm s0 s) (a0) : Calm s0 (endSession a0 s) := by
  unfold endSession
  extract_lets -underBinder -merge y0
  exact (Calm.upd h rfl rfl rfl rfl rfl rfl)

end Sys2Proof.Machine
end

