-- ==== Sys2Proof/Laws/Tab.lean ====
section
/-! SUPPORT. Laws of tables: a read after a write, a removal or a change, and that each keeps the keys rising. -/

namespace Sys2Proof.Machine

variable {α : Type}

@[simp] theorem Tab.get?_nil (i : Nat) : Tab.get? ([] : Tab α) i = none := rfl

@[simp] theorem Tab.get?_put_self (t : Tab α) (i : Nat) (v : α) : Tab.get? (Tab.put t i v) i = some v := by
  induction t with
  | nil => simp [Tab.put, Tab.get?]
  | cons p t ih =>
    obtain ⟨k, w⟩ := p
    simp only [Tab.put]
    split
    · simp [Tab.get?]
    · split
      · simp [Tab.get?]
      · rename_i h1 h2
        simp [Tab.get?, h2, ih]

theorem Tab.get?_put_ne (t : Tab α) {i j : Nat} (v : α) (h : j ≠ i) : Tab.get? (Tab.put t i v) j = Tab.get? t j := by
  induction t with
  | nil => simp [Tab.put, Tab.get?, h]
  | cons p t ih =>
    obtain ⟨k, w⟩ := p
    simp only [Tab.put]
    split
    · simp [Tab.get?, h]
    · split
      · rename_i h1 h2
        subst h2
        simp [Tab.get?, h]
      · simp only [Tab.get?, ih]

@[simp] theorem Tab.getD_put_self (t : Tab α) (i : Nat) (v d : α) : Tab.getD (Tab.put t i v) i d = v := by
  simp [Tab.getD]

theorem Tab.getD_put_ne (t : Tab α) {i j : Nat} (v d : α) (h : j ≠ i) : Tab.getD (Tab.put t i v) j d = Tab.getD t j d := by
  simp [Tab.getD, Tab.get?_put_ne t v h]

theorem Tab.get?_del_ne (t : Tab α) {i j : Nat} (h : j ≠ i) : Tab.get? (Tab.del t i) j = Tab.get? t j := by
  induction t with
  | nil => rfl
  | cons p t ih =>
    obtain ⟨k, w⟩ := p
    simp only [Tab.del]
    split
    · rename_i h1
      subst h1
      simp only [Tab.get?, if_neg h, ih]
    · simp only [Tab.get?, ih]

@[simp] theorem Tab.get?_upd_self (t : Tab α) (i : Nat) (f : α → α) :
    Tab.get? (Tab.upd t i f) i = (Tab.get? t i).map f := by
  induction t with
  | nil => rfl
  | cons p t ih =>
    obtain ⟨k, w⟩ := p
    simp only [Tab.upd]
    split
    · rename_i h1
      simp [Tab.get?, h1]
    · rename_i h1
      simp [Tab.get?, h1, ih]

theorem Tab.get?_upd_ne (t : Tab α) {i j : Nat} (f : α → α) (h : j ≠ i) : Tab.get? (Tab.upd t i f) j = Tab.get? t j := by
  induction t with
  | nil => rfl
  | cons p t ih =>
    obtain ⟨k, w⟩ := p
    simp only [Tab.upd]
    split
    · rename_i h1
      subst h1
      simp [Tab.get?, h]
    · simp only [Tab.get?, ih]

theorem Tab.wf_tail {p : Nat × α} {t : Tab α} (h : Tab.wf (p :: t) = true) : Tab.wf t = true := by
  cases t with
  | nil => rfl
  | cons q t =>
    obtain ⟨a, x⟩ := p
    obtain ⟨b, y⟩ := q
    simp [Tab.wf] at h
    exact h.2

theorem Tab.wf_cons_iff {a : Nat} {x : α} {t : Tab α} :
    Tab.wf ((a, x) :: t) = true ↔ Tab.wf t = true ∧ ∀ p ∈ t.head?, a < p.1 := by
  cases t with
  | nil => simp [Tab.wf]
  | cons q t =>
    obtain ⟨b, y⟩ := q
    simp [Tab.wf, and_comm]

/-- Writing a key keeps the keys rising. -/
theorem Tab.wf_put (t : Tab α) (i : Nat) (v : α) (h : Tab.wf t = true) : Tab.wf (Tab.put t i v) = true := by
  induction t with
  | nil => rfl
  | cons p t ih =>
    obtain ⟨k, w⟩ := p
    simp only [Tab.put]
    split
    · rename_i h1
      exact Tab.wf_cons_iff.2 ⟨h, by simp [h1]⟩
    · split
      · rename_i h1 h2
        subst h2
        exact Tab.wf_cons_iff.2 (Tab.wf_cons_iff.1 h)
      · rename_i h1 h2
        refine Tab.wf_cons_iff.2 ⟨ih (Tab.wf_tail h), ?_⟩
        have hk := (Tab.wf_cons_iff.1 h).2
        cases t with
        | nil =>
          simp only [Tab.put, List.head?_cons, Option.mem_def, Option.some.injEq]
          rintro p rfl
          simp only
          omega
        | cons q t =>
          obtain ⟨b, y⟩ := q
          have hb : k < b := hk _ rfl
          simp only [Tab.put]
          split
          · simp
            omega
          · split
            · simp
              omega
            · simpa using hb

/-- Changing a value keeps the keys rising. -/
theorem Tab.wf_upd (t : Tab α) (i : Nat) (f : α → α) (h : Tab.wf t = true) : Tab.wf (Tab.upd t i f) = true := by
  induction t with
  | nil => rfl
  | cons p t ih =>
    obtain ⟨k, w⟩ := p
    have hk := Tab.wf_cons_iff.1 h
    simp only [Tab.upd]
    split
    · exact Tab.wf_cons_iff.2 hk
    · refine Tab.wf_cons_iff.2 ⟨ih hk.1, ?_⟩
      cases t with
      | nil => simp [Tab.upd]
      | cons q t =>
        obtain ⟨b, y⟩ := q
        have hb : k < b := hk.2 _ rfl
        simp only [Tab.upd]
        split <;> simpa using hb

theorem Tab.get?_above (t : Tab α) (i : Nat) (h : Tab.wf t = true) (hi : ∀ p ∈ t.head?, i < p.1) : Tab.get? t i = none := by
  induction t with
  | nil => rfl
  | cons p t ih =>
    obtain ⟨k, w⟩ := p
    have hk := Tab.wf_cons_iff.1 h
    have h1 : i < k := hi _ rfl
    have h2 : i ≠ k := by omega
    simp only [Tab.get?, if_neg h2]
    exact ih hk.1 fun p hp => Nat.lt_trans h1 (hk.2 p hp)

/-- A removed key is gone. -/
@[simp] theorem Tab.get?_del_self (t : Tab α) (i : Nat) : Tab.get? (Tab.del t i) i = none := by
  induction t with
  | nil => rfl
  | cons p t ih =>
    obtain ⟨k, w⟩ := p
    simp only [Tab.del]
    split
    · exact ih
    · rename_i h1
      simp only [Tab.get?, if_neg h1]
      exact ih

theorem Tab.head_del (t : Tab α) (i b : Nat) (h : Tab.wf t = true) (hb : ∀ p ∈ t.head?, b < p.1) :
    ∀ p ∈ (Tab.del t i).head?, b < p.1 := by
  induction t with
  | nil => simp [Tab.del]
  | cons p t ih =>
    obtain ⟨k, w⟩ := p
    have hk := Tab.wf_cons_iff.1 h
    have h1 : b < k := hb _ rfl
    simp only [Tab.del]
    split
    · exact ih hk.1 fun q hq => Nat.lt_trans h1 (hk.2 q hq)
    · simpa using h1

/-- Removing a key keeps the keys rising. -/
theorem Tab.wf_del (t : Tab α) (i : Nat) (h : Tab.wf t = true) : Tab.wf (Tab.del t i) = true := by
  induction t with
  | nil => rfl
  | cons p t ih =>
    obtain ⟨k, w⟩ := p
    have hk := Tab.wf_cons_iff.1 h
    simp only [Tab.del]
    split
    · exact ih hk.1
    · exact Tab.wf_cons_iff.2 ⟨ih hk.1, Tab.head_del t i k hk.1 hk.2⟩

end Sys2Proof.Machine
end

