-- ==== Sys2Proof/Laws/State.lean ====
section
/-! SUPPORT. One lemma per field per basic update of the state, and reads after writes of functions, queue pairs, commands,
streams. -/

namespace Sys2Proof.Machine

@[simp] theorem emit_pending (o : Out) (s : State) : (emit o s).pending = s.pending := rfl
@[simp] theorem emit_time (o : Out) (s : State) : (emit o s).time = s.time := rfl
@[simp] theorem emit_drawn (o : Out) (s : State) : (emit o s).drawn = s.drawn := rfl
@[simp] theorem emit_out (o : Out) (s : State) : (emit o s).out = o :: s.out := rfl
@[simp] theorem emit_host (o : Out) (s : State) : (emit o s).host = s.host := rfl
@[simp] theorem emit_cart (o : Out) (s : State) : (emit o s).cart = s.cart := rfl
@[simp] theorem emit_streams (o : Out) (s : State) : (emit o s).streams = s.streams := rfl
@[simp] theorem emit_reserved (o : Out) (s : State) : (emit o s).reserved = s.reserved := rfl
@[simp] theorem emit_agentSeq (o : Out) (s : State) : (emit o s).agentSeq = s.agentSeq := rfl
@[simp] theorem emit_index (o : Out) (s : State) : (emit o s).index = s.index := rfl
@[simp] theorem emit_pack (o : Out) (s : State) : (emit o s).pack = s.pack := rfl
@[simp] theorem emit_wr (o : Out) (s : State) : (emit o s).wr = s.wr := rfl
@[simp] theorem emit_rd (o : Out) (s : State) : (emit o s).rd = s.rd := rfl
@[simp] theorem emit_bpm (o : Out) (s : State) : (emit o s).bpm = s.bpm := rfl
@[simp] theorem emit_dram (o : Out) (s : State) : (emit o s).dram = s.dram := rfl
@[simp] theorem emit_cip (o : Out) (s : State) : (emit o s).cip = s.cip := rfl
@[simp] theorem emit_chans (o : Out) (s : State) : (emit o s).chans = s.chans := rfl
@[simp] theorem emit_tlcs (o : Out) (s : State) : (emit o s).tlcs = s.tlcs := rfl
@[simp] theorem emit_tce (o : Out) (s : State) : (emit o s).tce = s.tce := rfl
@[simp] theorem emit_dict (o : Out) (s : State) : (emit o s).dict = s.dict := rfl
@[simp] theorem emit_staxa (o : Out) (s : State) : (emit o s).staxa = s.staxa := rfl
@[simp] theorem emit_flash (o : Out) (s : State) : (emit o s).flash = s.flash := rfl
@[simp] theorem emit_fw (o : Out) (s : State) : (emit o s).fw = s.fw := rfl
@[simp] theorem emit_ev (o : Out) (s : State) : (emit o s).ev = s.ev := rfl
@[simp] theorem emit_resets (o : Out) (s : State) : (emit o s).resets = s.resets := rfl
@[simp] theorem emit_pwr (o : Out) (s : State) : (emit o s).pwr = s.pwr := rfl
@[simp] theorem emit_lc (o : Out) (s : State) : (emit o s).lc = s.lc := rfl
@[simp] theorem emit_health (o : Out) (s : State) : (emit o s).health = s.health := rfl

@[simp] theorem emits_pending (os : List Out) (s : State) : (emits os s).pending = s.pending := rfl
@[simp] theorem emits_time (os : List Out) (s : State) : (emits os s).time = s.time := rfl
@[simp] theorem emits_drawn (os : List Out) (s : State) : (emits os s).drawn = s.drawn := rfl
@[simp] theorem emits_out (os : List Out) (s : State) : (emits os s).out = os.reverse ++ s.out := rfl
@[simp] theorem emits_host (os : List Out) (s : State) : (emits os s).host = s.host := rfl
@[simp] theorem emits_cart (os : List Out) (s : State) : (emits os s).cart = s.cart := rfl
@[simp] theorem emits_streams (os : List Out) (s : State) : (emits os s).streams = s.streams := rfl
@[simp] theorem emits_reserved (os : List Out) (s : State) : (emits os s).reserved = s.reserved := rfl
@[simp] theorem emits_agentSeq (os : List Out) (s : State) : (emits os s).agentSeq = s.agentSeq := rfl
@[simp] theorem emits_index (os : List Out) (s : State) : (emits os s).index = s.index := rfl
@[simp] theorem emits_pack (os : List Out) (s : State) : (emits os s).pack = s.pack := rfl
@[simp] theorem emits_wr (os : List Out) (s : State) : (emits os s).wr = s.wr := rfl
@[simp] theorem emits_rd (os : List Out) (s : State) : (emits os s).rd = s.rd := rfl
@[simp] theorem emits_bpm (os : List Out) (s : State) : (emits os s).bpm = s.bpm := rfl
@[simp] theorem emits_dram (os : List Out) (s : State) : (emits os s).dram = s.dram := rfl
@[simp] theorem emits_cip (os : List Out) (s : State) : (emits os s).cip = s.cip := rfl
@[simp] theorem emits_chans (os : List Out) (s : State) : (emits os s).chans = s.chans := rfl
@[simp] theorem emits_tlcs (os : List Out) (s : State) : (emits os s).tlcs = s.tlcs := rfl
@[simp] theorem emits_tce (os : List Out) (s : State) : (emits os s).tce = s.tce := rfl
@[simp] theorem emits_dict (os : List Out) (s : State) : (emits os s).dict = s.dict := rfl
@[simp] theorem emits_staxa (os : List Out) (s : State) : (emits os s).staxa = s.staxa := rfl
@[simp] theorem emits_flash (os : List Out) (s : State) : (emits os s).flash = s.flash := rfl
@[simp] theorem emits_fw (os : List Out) (s : State) : (emits os s).fw = s.fw := rfl
@[simp] theorem emits_ev (os : List Out) (s : State) : (emits os s).ev = s.ev := rfl
@[simp] theorem emits_resets (os : List Out) (s : State) : (emits os s).resets = s.resets := rfl
@[simp] theorem emits_pwr (os : List Out) (s : State) : (emits os s).pwr = s.pwr := rfl
@[simp] theorem emits_lc (os : List Out) (s : State) : (emits os s).lc = s.lc := rfl
@[simp] theorem emits_health (os : List Out) (s : State) : (emits os s).health = s.health := rfl

@[simp] theorem drew_pending (s : State) : (drew s).pending = s.pending := rfl
@[simp] theorem drew_time (s : State) : (drew s).time = s.time := rfl
@[simp] theorem drew_drawn (s : State) : (drew s).drawn = s.drawn + 1 := rfl
@[simp] theorem drew_out (s : State) : (drew s).out = s.out := rfl
@[simp] theorem drew_host (s : State) : (drew s).host = s.host := rfl
@[simp] theorem drew_cart (s : State) : (drew s).cart = s.cart := rfl
@[simp] theorem drew_streams (s : State) : (drew s).streams = s.streams := rfl
@[simp] theorem drew_reserved (s : State) : (drew s).reserved = s.reserved := rfl
@[simp] theorem drew_agentSeq (s : State) : (drew s).agentSeq = s.agentSeq := rfl
@[simp] theorem drew_index (s : State) : (drew s).index = s.index := rfl
@[simp] theorem drew_pack (s : State) : (drew s).pack = s.pack := rfl
@[simp] theorem drew_wr (s : State) : (drew s).wr = s.wr := rfl
@[simp] theorem drew_rd (s : State) : (drew s).rd = s.rd := rfl
@[simp] theorem drew_bpm (s : State) : (drew s).bpm = s.bpm := rfl
@[simp] theorem drew_dram (s : State) : (drew s).dram = s.dram := rfl
@[simp] theorem drew_cip (s : State) : (drew s).cip = s.cip := rfl
@[simp] theorem drew_chans (s : State) : (drew s).chans = s.chans := rfl
@[simp] theorem drew_tlcs (s : State) : (drew s).tlcs = s.tlcs := rfl
@[simp] theorem drew_tce (s : State) : (drew s).tce = s.tce := rfl
@[simp] theorem drew_dict (s : State) : (drew s).dict = s.dict := rfl
@[simp] theorem drew_staxa (s : State) : (drew s).staxa = s.staxa := rfl
@[simp] theorem drew_flash (s : State) : (drew s).flash = s.flash := rfl
@[simp] theorem drew_fw (s : State) : (drew s).fw = s.fw := rfl
@[simp] theorem drew_ev (s : State) : (drew s).ev = s.ev := rfl
@[simp] theorem drew_resets (s : State) : (drew s).resets = s.resets := rfl
@[simp] theorem drew_pwr (s : State) : (drew s).pwr = s.pwr := rfl
@[simp] theorem drew_lc (s : State) : (drew s).lc = s.lc := rfl
@[simp] theorem drew_health (s : State) : (drew s).health = s.health := rfl

@[simp] theorem setFn_pending (f : Nat) (v : Fn) (s : State) : (setFn f v s).pending = s.pending := rfl
@[simp] theorem setFn_time (f : Nat) (v : Fn) (s : State) : (setFn f v s).time = s.time := rfl
@[simp] theorem setFn_drawn (f : Nat) (v : Fn) (s : State) : (setFn f v s).drawn = s.drawn := rfl
@[simp] theorem setFn_out (f : Nat) (v : Fn) (s : State) : (setFn f v s).out = s.out := rfl
@[simp] theorem setFn_cart (f : Nat) (v : Fn) (s : State) : (setFn f v s).cart = s.cart := rfl
@[simp] theorem setFn_streams (f : Nat) (v : Fn) (s : State) : (setFn f v s).streams = s.streams := rfl
@[simp] theorem setFn_reserved (f : Nat) (v : Fn) (s : State) : (setFn f v s).reserved = s.reserved := rfl
@[simp] theorem setFn_agentSeq (f : Nat) (v : Fn) (s : State) : (setFn f v s).agentSeq = s.agentSeq := rfl
@[simp] theorem setFn_index (f : Nat) (v : Fn) (s : State) : (setFn f v s).index = s.index := rfl
@[simp] theorem setFn_pack (f : Nat) (v : Fn) (s : State) : (setFn f v s).pack = s.pack := rfl
@[simp] theorem setFn_wr (f : Nat) (v : Fn) (s : State) : (setFn f v s).wr = s.wr := rfl
@[simp] theorem setFn_rd (f : Nat) (v : Fn) (s : State) : (setFn f v s).rd = s.rd := rfl
@[simp] theorem setFn_bpm (f : Nat) (v : Fn) (s : State) : (setFn f v s).bpm = s.bpm := rfl
@[simp] theorem setFn_dram (f : Nat) (v : Fn) (s : State) : (setFn f v s).dram = s.dram := rfl
@[simp] theorem setFn_cip (f : Nat) (v : Fn) (s : State) : (setFn f v s).cip = s.cip := rfl
@[simp] theorem setFn_chans (f : Nat) (v : Fn) (s : State) : (setFn f v s).chans = s.chans := rfl
@[simp] theorem setFn_tlcs (f : Nat) (v : Fn) (s : State) : (setFn f v s).tlcs = s.tlcs := rfl
@[simp] theorem setFn_tce (f : Nat) (v : Fn) (s : State) : (setFn f v s).tce = s.tce := rfl
@[simp] theorem setFn_dict (f : Nat) (v : Fn) (s : State) : (setFn f v s).dict = s.dict := rfl
@[simp] theorem setFn_staxa (f : Nat) (v : Fn) (s : State) : (setFn f v s).staxa = s.staxa := rfl
@[simp] theorem setFn_flash (f : Nat) (v : Fn) (s : State) : (setFn f v s).flash = s.flash := rfl
@[simp] theorem setFn_fw (f : Nat) (v : Fn) (s : State) : (setFn f v s).fw = s.fw := rfl
@[simp] theorem setFn_ev (f : Nat) (v : Fn) (s : State) : (setFn f v s).ev = s.ev := rfl
@[simp] theorem setFn_resets (f : Nat) (v : Fn) (s : State) : (setFn f v s).resets = s.resets := rfl
@[simp] theorem setFn_pwr (f : Nat) (v : Fn) (s : State) : (setFn f v s).pwr = s.pwr := rfl
@[simp] theorem setFn_lc (f : Nat) (v : Fn) (s : State) : (setFn f v s).lc = s.lc := rfl
@[simp] theorem setFn_health (f : Nat) (v : Fn) (s : State) : (setFn f v s).health = s.health := rfl

@[simp] theorem updFn_pending (f : Nat) (g : Fn → Fn) (s : State) : (updFn f g s).pending = s.pending := rfl
@[simp] theorem updFn_time (f : Nat) (g : Fn → Fn) (s : State) : (updFn f g s).time = s.time := rfl
@[simp] theorem updFn_drawn (f : Nat) (g : Fn → Fn) (s : State) : (updFn f g s).drawn = s.drawn := rfl
@[simp] theorem updFn_out (f : Nat) (g : Fn → Fn) (s : State) : (updFn f g s).out = s.out := rfl
@[simp] theorem updFn_cart (f : Nat) (g : Fn → Fn) (s : State) : (updFn f g s).cart = s.cart := rfl
@[simp] theorem updFn_streams (f : Nat) (g : Fn → Fn) (s : State) : (updFn f g s).streams = s.streams := rfl
@[simp] theorem updFn_reserved (f : Nat) (g : Fn → Fn) (s : State) : (updFn f g s).reserved = s.reserved := rfl
@[simp] theorem updFn_agentSeq (f : Nat) (g : Fn → Fn) (s : State) : (updFn f g s).agentSeq = s.agentSeq := rfl
@[simp] theorem updFn_index (f : Nat) (g : Fn → Fn) (s : State) : (updFn f g s).index = s.index := rfl
@[simp] theorem updFn_pack (f : Nat) (g : Fn → Fn) (s : State) : (updFn f g s).pack = s.pack := rfl
@[simp] theorem updFn_wr (f : Nat) (g : Fn → Fn) (s : State) : (updFn f g s).wr = s.wr := rfl
@[simp] theorem updFn_rd (f : Nat) (g : Fn → Fn) (s : State) : (updFn f g s).rd = s.rd := rfl
@[simp] theorem updFn_bpm (f : Nat) (g : Fn → Fn) (s : State) : (updFn f g s).bpm = s.bpm := rfl
@[simp] theorem updFn_dram (f : Nat) (g : Fn → Fn) (s : State) : (updFn f g s).dram = s.dram := rfl
@[simp] theorem updFn_cip (f : Nat) (g : Fn → Fn) (s : State) : (updFn f g s).cip = s.cip := rfl
@[simp] theorem updFn_chans (f : Nat) (g : Fn → Fn) (s : State) : (updFn f g s).chans = s.chans := rfl
@[simp] theorem updFn_tlcs (f : Nat) (g : Fn → Fn) (s : State) : (updFn f g s).tlcs = s.tlcs := rfl
@[simp] theorem updFn_tce (f : Nat) (g : Fn → Fn) (s : State) : (updFn f g s).tce = s.tce := rfl
@[simp] theorem updFn_dict (f : Nat) (g : Fn → Fn) (s : State) : (updFn f g s).dict = s.dict := rfl
@[simp] theorem updFn_staxa (f : Nat) (g : Fn → Fn) (s : State) : (updFn f g s).staxa = s.staxa := rfl
@[simp] theorem updFn_flash (f : Nat) (g : Fn → Fn) (s : State) : (updFn f g s).flash = s.flash := rfl
@[simp] theorem updFn_fw (f : Nat) (g : Fn → Fn) (s : State) : (updFn f g s).fw = s.fw := rfl
@[simp] theorem updFn_ev (f : Nat) (g : Fn → Fn) (s : State) : (updFn f g s).ev = s.ev := rfl
@[simp] theorem updFn_resets (f : Nat) (g : Fn → Fn) (s : State) : (updFn f g s).resets = s.resets := rfl
@[simp] theorem updFn_pwr (f : Nat) (g : Fn → Fn) (s : State) : (updFn f g s).pwr = s.pwr := rfl
@[simp] theorem updFn_lc (f : Nat) (g : Fn → Fn) (s : State) : (updFn f g s).lc = s.lc := rfl
@[simp] theorem updFn_health (f : Nat) (g : Fn → Fn) (s : State) : (updFn f g s).health = s.health := rfl

@[simp] theorem setQp_pending (f q : Nat) (v : Qp) (s : State) : (setQp f q v s).pending = s.pending := rfl
@[simp] theorem setQp_time (f q : Nat) (v : Qp) (s : State) : (setQp f q v s).time = s.time := rfl
@[simp] theorem setQp_drawn (f q : Nat) (v : Qp) (s : State) : (setQp f q v s).drawn = s.drawn := rfl
@[simp] theorem setQp_out (f q : Nat) (v : Qp) (s : State) : (setQp f q v s).out = s.out := rfl
@[simp] theorem setQp_cart (f q : Nat) (v : Qp) (s : State) : (setQp f q v s).cart = s.cart := rfl
@[simp] theorem setQp_streams (f q : Nat) (v : Qp) (s : State) : (setQp f q v s).streams = s.streams := rfl
@[simp] theorem setQp_reserved (f q : Nat) (v : Qp) (s : State) : (setQp f q v s).reserved = s.reserved := rfl
@[simp] theorem setQp_agentSeq (f q : Nat) (v : Qp) (s : State) : (setQp f q v s).agentSeq = s.agentSeq := rfl
@[simp] theorem setQp_index (f q : Nat) (v : Qp) (s : State) : (setQp f q v s).index = s.index := rfl
@[simp] theorem setQp_pack (f q : Nat) (v : Qp) (s : State) : (setQp f q v s).pack = s.pack := rfl
@[simp] theorem setQp_wr (f q : Nat) (v : Qp) (s : State) : (setQp f q v s).wr = s.wr := rfl
@[simp] theorem setQp_rd (f q : Nat) (v : Qp) (s : State) : (setQp f q v s).rd = s.rd := rfl
@[simp] theorem setQp_bpm (f q : Nat) (v : Qp) (s : State) : (setQp f q v s).bpm = s.bpm := rfl
@[simp] theorem setQp_dram (f q : Nat) (v : Qp) (s : State) : (setQp f q v s).dram = s.dram := rfl
@[simp] theorem setQp_cip (f q : Nat) (v : Qp) (s : State) : (setQp f q v s).cip = s.cip := rfl
@[simp] theorem setQp_chans (f q : Nat) (v : Qp) (s : State) : (setQp f q v s).chans = s.chans := rfl
@[simp] theorem setQp_tlcs (f q : Nat) (v : Qp) (s : State) : (setQp f q v s).tlcs = s.tlcs := rfl
@[simp] theorem setQp_tce (f q : Nat) (v : Qp) (s : State) : (setQp f q v s).tce = s.tce := rfl
@[simp] theorem setQp_dict (f q : Nat) (v : Qp) (s : State) : (setQp f q v s).dict = s.dict := rfl
@[simp] theorem setQp_staxa (f q : Nat) (v : Qp) (s : State) : (setQp f q v s).staxa = s.staxa := rfl
@[simp] theorem setQp_flash (f q : Nat) (v : Qp) (s : State) : (setQp f q v s).flash = s.flash := rfl
@[simp] theorem setQp_fw (f q : Nat) (v : Qp) (s : State) : (setQp f q v s).fw = s.fw := rfl
@[simp] theorem setQp_ev (f q : Nat) (v : Qp) (s : State) : (setQp f q v s).ev = s.ev := rfl
@[simp] theorem setQp_resets (f q : Nat) (v : Qp) (s : State) : (setQp f q v s).resets = s.resets := rfl
@[simp] theorem setQp_pwr (f q : Nat) (v : Qp) (s : State) : (setQp f q v s).pwr = s.pwr := rfl
@[simp] theorem setQp_lc (f q : Nat) (v : Qp) (s : State) : (setQp f q v s).lc = s.lc := rfl
@[simp] theorem setQp_health (f q : Nat) (v : Qp) (s : State) : (setQp f q v s).health = s.health := rfl

@[simp] theorem setCmd_pending (n : Nat) (c : Cmd) (s : State) : (setCmd n c s).pending = s.pending := rfl
@[simp] theorem setCmd_time (n : Nat) (c : Cmd) (s : State) : (setCmd n c s).time = s.time := rfl
@[simp] theorem setCmd_drawn (n : Nat) (c : Cmd) (s : State) : (setCmd n c s).drawn = s.drawn := rfl
@[simp] theorem setCmd_out (n : Nat) (c : Cmd) (s : State) : (setCmd n c s).out = s.out := rfl
@[simp] theorem setCmd_cart (n : Nat) (c : Cmd) (s : State) : (setCmd n c s).cart = s.cart := rfl
@[simp] theorem setCmd_streams (n : Nat) (c : Cmd) (s : State) : (setCmd n c s).streams = s.streams := rfl
@[simp] theorem setCmd_reserved (n : Nat) (c : Cmd) (s : State) : (setCmd n c s).reserved = s.reserved := rfl
@[simp] theorem setCmd_agentSeq (n : Nat) (c : Cmd) (s : State) : (setCmd n c s).agentSeq = s.agentSeq := rfl
@[simp] theorem setCmd_index (n : Nat) (c : Cmd) (s : State) : (setCmd n c s).index = s.index := rfl
@[simp] theorem setCmd_pack (n : Nat) (c : Cmd) (s : State) : (setCmd n c s).pack = s.pack := rfl
@[simp] theorem setCmd_wr (n : Nat) (c : Cmd) (s : State) : (setCmd n c s).wr = s.wr := rfl
@[simp] theorem setCmd_rd (n : Nat) (c : Cmd) (s : State) : (setCmd n c s).rd = s.rd := rfl
@[simp] theorem setCmd_bpm (n : Nat) (c : Cmd) (s : State) : (setCmd n c s).bpm = s.bpm := rfl
@[simp] theorem setCmd_dram (n : Nat) (c : Cmd) (s : State) : (setCmd n c s).dram = s.dram := rfl
@[simp] theorem setCmd_cip (n : Nat) (c : Cmd) (s : State) : (setCmd n c s).cip = s.cip := rfl
@[simp] theorem setCmd_chans (n : Nat) (c : Cmd) (s : State) : (setCmd n c s).chans = s.chans := rfl
@[simp] theorem setCmd_tlcs (n : Nat) (c : Cmd) (s : State) : (setCmd n c s).tlcs = s.tlcs := rfl
@[simp] theorem setCmd_tce (n : Nat) (c : Cmd) (s : State) : (setCmd n c s).tce = s.tce := rfl
@[simp] theorem setCmd_dict (n : Nat) (c : Cmd) (s : State) : (setCmd n c s).dict = s.dict := rfl
@[simp] theorem setCmd_staxa (n : Nat) (c : Cmd) (s : State) : (setCmd n c s).staxa = s.staxa := rfl
@[simp] theorem setCmd_flash (n : Nat) (c : Cmd) (s : State) : (setCmd n c s).flash = s.flash := rfl
@[simp] theorem setCmd_fw (n : Nat) (c : Cmd) (s : State) : (setCmd n c s).fw = s.fw := rfl
@[simp] theorem setCmd_ev (n : Nat) (c : Cmd) (s : State) : (setCmd n c s).ev = s.ev := rfl
@[simp] theorem setCmd_resets (n : Nat) (c : Cmd) (s : State) : (setCmd n c s).resets = s.resets := rfl
@[simp] theorem setCmd_pwr (n : Nat) (c : Cmd) (s : State) : (setCmd n c s).pwr = s.pwr := rfl
@[simp] theorem setCmd_lc (n : Nat) (c : Cmd) (s : State) : (setCmd n c s).lc = s.lc := rfl
@[simp] theorem setCmd_health (n : Nat) (c : Cmd) (s : State) : (setCmd n c s).health = s.health := rfl

@[simp] theorem updStream_pending (n : Nat) (g : Stream → Stream) (s : State) : (updStream n g s).pending = s.pending := rfl
@[simp] theorem updStream_time (n : Nat) (g : Stream → Stream) (s : State) : (updStream n g s).time = s.time := rfl
@[simp] theorem updStream_drawn (n : Nat) (g : Stream → Stream) (s : State) : (updStream n g s).drawn = s.drawn := rfl
@[simp] theorem updStream_out (n : Nat) (g : Stream → Stream) (s : State) : (updStream n g s).out = s.out := rfl
@[simp] theorem updStream_host (n : Nat) (g : Stream → Stream) (s : State) : (updStream n g s).host = s.host := rfl
@[simp] theorem updStream_cart (n : Nat) (g : Stream → Stream) (s : State) : (updStream n g s).cart = s.cart := rfl
@[simp] theorem updStream_streams (n : Nat) (g : Stream → Stream) (s : State) : (updStream n g s).streams = Tab.upd s.streams n g := rfl
@[simp] theorem updStream_reserved (n : Nat) (g : Stream → Stream) (s : State) : (updStream n g s).reserved = s.reserved := rfl
@[simp] theorem updStream_agentSeq (n : Nat) (g : Stream → Stream) (s : State) : (updStream n g s).agentSeq = s.agentSeq := rfl
@[simp] theorem updStream_index (n : Nat) (g : Stream → Stream) (s : State) : (updStream n g s).index = s.index := rfl
@[simp] theorem updStream_pack (n : Nat) (g : Stream → Stream) (s : State) : (updStream n g s).pack = s.pack := rfl
@[simp] theorem updStream_wr (n : Nat) (g : Stream → Stream) (s : State) : (updStream n g s).wr = s.wr := rfl
@[simp] theorem updStream_rd (n : Nat) (g : Stream → Stream) (s : State) : (updStream n g s).rd = s.rd := rfl
@[simp] theorem updStream_bpm (n : Nat) (g : Stream → Stream) (s : State) : (updStream n g s).bpm = s.bpm := rfl
@[simp] theorem updStream_dram (n : Nat) (g : Stream → Stream) (s : State) : (updStream n g s).dram = s.dram := rfl
@[simp] theorem updStream_cip (n : Nat) (g : Stream → Stream) (s : State) : (updStream n g s).cip = s.cip := rfl
@[simp] theorem updStream_chans (n : Nat) (g : Stream → Stream) (s : State) : (updStream n g s).chans = s.chans := rfl
@[simp] theorem updStream_tlcs (n : Nat) (g : Stream → Stream) (s : State) : (updStream n g s).tlcs = s.tlcs := rfl
@[simp] theorem updStream_tce (n : Nat) (g : Stream → Stream) (s : State) : (updStream n g s).tce = s.tce := rfl
@[simp] theorem updStream_dict (n : Nat) (g : Stream → Stream) (s : State) : (updStream n g s).dict = s.dict := rfl
@[simp] theorem updStream_staxa (n : Nat) (g : Stream → Stream) (s : State) : (updStream n g s).staxa = s.staxa := rfl
@[simp] theorem updStream_flash (n : Nat) (g : Stream → Stream) (s : State) : (updStream n g s).flash = s.flash := rfl
@[simp] theorem updStream_fw (n : Nat) (g : Stream → Stream) (s : State) : (updStream n g s).fw = s.fw := rfl
@[simp] theorem updStream_ev (n : Nat) (g : Stream → Stream) (s : State) : (updStream n g s).ev = s.ev := rfl
@[simp] theorem updStream_resets (n : Nat) (g : Stream → Stream) (s : State) : (updStream n g s).resets = s.resets := rfl
@[simp] theorem updStream_pwr (n : Nat) (g : Stream → Stream) (s : State) : (updStream n g s).pwr = s.pwr := rfl
@[simp] theorem updStream_lc (n : Nat) (g : Stream → Stream) (s : State) : (updStream n g s).lc = s.lc := rfl
@[simp] theorem updStream_health (n : Nat) (g : Stream → Stream) (s : State) : (updStream n g s).health = s.health := rfl

@[simp] theorem updKey_pending (n : Nat) (g : KeySlot → KeySlot) (s : State) : (updKey n g s).pending = s.pending := rfl
@[simp] theorem updKey_time (n : Nat) (g : KeySlot → KeySlot) (s : State) : (updKey n g s).time = s.time := rfl
@[simp] theorem updKey_drawn (n : Nat) (g : KeySlot → KeySlot) (s : State) : (updKey n g s).drawn = s.drawn := rfl
@[simp] theorem updKey_out (n : Nat) (g : KeySlot → KeySlot) (s : State) : (updKey n g s).out = s.out := rfl
@[simp] theorem updKey_host (n : Nat) (g : KeySlot → KeySlot) (s : State) : (updKey n g s).host = s.host := rfl
@[simp] theorem updKey_cart (n : Nat) (g : KeySlot → KeySlot) (s : State) : (updKey n g s).cart = s.cart := rfl
@[simp] theorem updKey_streams (n : Nat) (g : KeySlot → KeySlot) (s : State) : (updKey n g s).streams = s.streams := rfl
@[simp] theorem updKey_reserved (n : Nat) (g : KeySlot → KeySlot) (s : State) : (updKey n g s).reserved = s.reserved := rfl
@[simp] theorem updKey_agentSeq (n : Nat) (g : KeySlot → KeySlot) (s : State) : (updKey n g s).agentSeq = s.agentSeq := rfl
@[simp] theorem updKey_index (n : Nat) (g : KeySlot → KeySlot) (s : State) : (updKey n g s).index = s.index := rfl
@[simp] theorem updKey_pack (n : Nat) (g : KeySlot → KeySlot) (s : State) : (updKey n g s).pack = s.pack := rfl
@[simp] theorem updKey_wr (n : Nat) (g : KeySlot → KeySlot) (s : State) : (updKey n g s).wr = s.wr := rfl
@[simp] theorem updKey_rd (n : Nat) (g : KeySlot → KeySlot) (s : State) : (updKey n g s).rd = s.rd := rfl
@[simp] theorem updKey_bpm (n : Nat) (g : KeySlot → KeySlot) (s : State) : (updKey n g s).bpm = s.bpm := rfl
@[simp] theorem updKey_dram (n : Nat) (g : KeySlot → KeySlot) (s : State) : (updKey n g s).dram = s.dram := rfl
@[simp] theorem updKey_chans (n : Nat) (g : KeySlot → KeySlot) (s : State) : (updKey n g s).chans = s.chans := rfl
@[simp] theorem updKey_tlcs (n : Nat) (g : KeySlot → KeySlot) (s : State) : (updKey n g s).tlcs = s.tlcs := rfl
@[simp] theorem updKey_tce (n : Nat) (g : KeySlot → KeySlot) (s : State) : (updKey n g s).tce = s.tce := rfl
@[simp] theorem updKey_dict (n : Nat) (g : KeySlot → KeySlot) (s : State) : (updKey n g s).dict = s.dict := rfl
@[simp] theorem updKey_staxa (n : Nat) (g : KeySlot → KeySlot) (s : State) : (updKey n g s).staxa = s.staxa := rfl
@[simp] theorem updKey_flash (n : Nat) (g : KeySlot → KeySlot) (s : State) : (updKey n g s).flash = s.flash := rfl
@[simp] theorem updKey_fw (n : Nat) (g : KeySlot → KeySlot) (s : State) : (updKey n g s).fw = s.fw := rfl
@[simp] theorem updKey_ev (n : Nat) (g : KeySlot → KeySlot) (s : State) : (updKey n g s).ev = s.ev := rfl
@[simp] theorem updKey_resets (n : Nat) (g : KeySlot → KeySlot) (s : State) : (updKey n g s).resets = s.resets := rfl
@[simp] theorem updKey_pwr (n : Nat) (g : KeySlot → KeySlot) (s : State) : (updKey n g s).pwr = s.pwr := rfl
@[simp] theorem updKey_lc (n : Nat) (g : KeySlot → KeySlot) (s : State) : (updKey n g s).lc = s.lc := rfl
@[simp] theorem updKey_health (n : Nat) (g : KeySlot → KeySlot) (s : State) : (updKey n g s).health = s.health := rfl

@[simp] theorem getFn_setFn_self (f : Nat) (v : Fn) (s : State) : getFn (setFn f v s) f = v := by
  simp [getFn, setFn]

theorem getFn_setFn_ne {f g : Nat} (v : Fn) (s : State) (h : g ≠ f) : getFn (setFn f v s) g = getFn s g := by
  simp [getFn, setFn, Tab.getD_put_ne _ _ _ h]

@[simp] theorem getFn_updFn_self (f : Nat) (k : Fn → Fn) (s : State) : getFn (updFn f k s) f = k (getFn s f) := by
  simp [updFn]

theorem getFn_updFn_ne {f g : Nat} (k : Fn → Fn) (s : State) (h : g ≠ f) : getFn (updFn f k s) g = getFn s g := by
  simp [updFn, getFn_setFn_ne _ _ h]

@[simp] theorem getQp_setQp_self (f q : Nat) (v : Qp) (s : State) : getQp (setQp f q v s) f q = some v := by
  simp [getQp, setQp]

theorem getQp_setQp_ne {f q g r : Nat} (v : Qp) (s : State) (h : g ≠ f ∨ r ≠ q) :
    getQp (setQp f q v s) g r = getQp s g r := by
  by_cases hg : g = f
  · subst hg
    have hr : r ≠ q := by
      rcases h with h | h
      · exact absurd rfl h
      · exact h
    simp [getQp, setQp, Tab.get?_put_ne _ _ hr]
  · simp [getQp, setQp, getFn_updFn_ne _ _ hg]

@[simp] theorem getCmd_setCmd_self (n : Nat) (c : Cmd) (s : State) : getCmd (setCmd n c s) n = some c := by
  simp [getCmd, setCmd]

theorem getCmd_setCmd_ne {n m : Nat} (c : Cmd) (s : State) (h : m ≠ n) : getCmd (setCmd n c s) m = getCmd s m := by
  simp [getCmd, setCmd, Tab.get?_put_ne _ _ h]

@[simp] theorem getCmd_setQp (f q n : Nat) (v : Qp) (s : State) : getCmd (setQp f q v s) n = getCmd s n := rfl
@[simp] theorem getCmd_setFn (f n : Nat) (v : Fn) (s : State) : getCmd (setFn f v s) n = getCmd s n := rfl
@[simp] theorem getFn_setCmd (f n : Nat) (c : Cmd) (s : State) : getFn (setCmd n c s) f = getFn s f := rfl
@[simp] theorem getQp_setCmd (f q n : Nat) (c : Cmd) (s : State) : getQp (setCmd n c s) f q = getQp s f q := rfl
@[simp] theorem getFn_emit (f : Nat) (o : Out) (s : State) : getFn (emit o s) f = getFn s f := rfl
@[simp] theorem getQp_emit (f q : Nat) (o : Out) (s : State) : getQp (emit o s) f q = getQp s f q := rfl
@[simp] theorem getCmd_emit (n : Nat) (o : Out) (s : State) : getCmd (emit o s) n = getCmd s n := rfl

end Sys2Proof.Machine
end

