-- ==== Sys2Proof/Laws/Events.lean ====
section
/-! SUPPORT. What raising a vector, raising an event and ending a command can do: the frame of each, what an event counts,
and the completion that a command's end writes. -/

namespace Sys2Proof.Machine

@[simp] theorem sendMsix_pending (f v : Nat) (s : State) : (sendMsix f v s).pending = s.pending := by
  unfold sendMsix; extract_lets; split <;> rfl
@[simp] theorem sendMsix_time (f v : Nat) (s : State) : (sendMsix f v s).time = s.time := by
  unfold sendMsix; extract_lets; split <;> rfl
@[simp] theorem sendMsix_drawn (f v : Nat) (s : State) : (sendMsix f v s).drawn = s.drawn := by
  unfold sendMsix; extract_lets; split <;> rfl
@[simp] theorem sendMsix_cart (f v : Nat) (s : State) : (sendMsix f v s).cart = s.cart := by
  unfold sendMsix; extract_lets; split <;> rfl
@[simp] theorem sendMsix_streams (f v : Nat) (s : State) : (sendMsix f v s).streams = s.streams := by
  unfold sendMsix; extract_lets; split <;> rfl
@[simp] theorem sendMsix_reserved (f v : Nat) (s : State) : (sendMsix f v s).reserved = s.reserved := by
  unfold sendMsix; extract_lets; split <;> rfl
@[simp] theorem sendMsix_agentSeq (f v : Nat) (s : State) : (sendMsix f v s).agentSeq = s.agentSeq := by
  unfold sendMsix; extract_lets; split <;> rfl
@[simp] theorem sendMsix_index (f v : Nat) (s : State) : (sendMsix f v s).index = s.index := by
  unfold sendMsix; extract_lets; split <;> rfl
@[simp] theorem sendMsix_pack (f v : Nat) (s : State) : (sendMsix f v s).pack = s.pack := by
  unfold sendMsix; extract_lets; split <;> rfl
@[simp] theorem sendMsix_wr (f v : Nat) (s : State) : (sendMsix f v s).wr = s.wr := by
  unfold sendMsix; extract_lets; split <;> rfl
@[simp] theorem sendMsix_rd (f v : Nat) (s : State) : (sendMsix f v s).rd = s.rd := by
  unfold sendMsix; extract_lets; split <;> rfl
@[simp] theorem sendMsix_bpm (f v : Nat) (s : State) : (sendMsix f v s).bpm = s.bpm := by
  unfold sendMsix; extract_lets; split <;> rfl
@[simp] theorem sendMsix_dram (f v : Nat) (s : State) : (sendMsix f v s).dram = s.dram := by
  unfold sendMsix; extract_lets; split <;> rfl
@[simp] theorem sendMsix_cip (f v : Nat) (s : State) : (sendMsix f v s).cip = s.cip := by
  unfold sendMsix; extract_lets; split <;> rfl
@[simp] theorem sendMsix_chans (f v : Nat) (s : State) : (sendMsix f v s).chans = s.chans := by
  unfold sendMsix; extract_lets; split <;> rfl
@[simp] theorem sendMsix_tlcs (f v : Nat) (s : State) : (sendMsix f v s).tlcs = s.tlcs := by
  unfold sendMsix; extract_lets; split <;> rfl
@[simp] theorem sendMsix_tce (f v : Nat) (s : State) : (sendMsix f v s).tce = s.tce := by
  unfold sendMsix; extract_lets; split <;> rfl
@[simp] theorem sendMsix_dict (f v : Nat) (s : State) : (sendMsix f v s).dict = s.dict := by
  unfold sendMsix; extract_lets; split <;> rfl
@[simp] theorem sendMsix_staxa (f v : Nat) (s : State) : (sendMsix f v s).staxa = s.staxa := by
  unfold sendMsix; extract_lets; split <;> rfl
@[simp] theorem sendMsix_flash (f v : Nat) (s : State) : (sendMsix f v s).flash = s.flash := by
  unfold sendMsix; extract_lets; split <;> rfl
@[simp] theorem sendMsix_fw (f v : Nat) (s : State) : (sendMsix f v s).fw = s.fw := by
  unfold sendMsix; extract_lets; split <;> rfl
@[simp] theorem sendMsix_ev (f v : Nat) (s : State) : (sendMsix f v s).ev = s.ev := by
  unfold sendMsix; extract_lets; split <;> rfl
@[simp] theorem sendMsix_resets (f v : Nat) (s : State) : (sendMsix f v s).resets = s.resets := by
  unfold sendMsix; extract_lets; split <;> rfl
@[simp] theorem sendMsix_pwr (f v : Nat) (s : State) : (sendMsix f v s).pwr = s.pwr := by
  unfold sendMsix; extract_lets; split <;> rfl
@[simp] theorem sendMsix_lc (f v : Nat) (s : State) : (sendMsix f v s).lc = s.lc := by
  unfold sendMsix; extract_lets; split <;> rfl
@[simp] theorem sendMsix_health (f v : Nat) (s : State) : (sendMsix f v s).health = s.health := by
  unfold sendMsix; extract_lets; split <;> rfl

/-- A vector raised changes no queue pair and no command. -/
@[simp] theorem getQp_sendMsix (f v g q : Nat) (s : State) : getQp (sendMsix f v s) g q = getQp s g q := by
  unfold sendMsix
  extract_lets
  split
  · by_cases h : g = f
    · subst h; simp [getQp]
    · simp [getQp, getFn_updFn_ne _ _ h]
  · rfl

@[simp] theorem getCmd_sendMsix (f v n : Nat) (s : State) : getCmd (sendMsix f v s) n = getCmd s n := by
  unfold sendMsix
  extract_lets
  split <;> rfl

@[simp] theorem sendMsix_cmds (f v : Nat) (s : State) : (sendMsix f v s).host.cmds = s.host.cmds := by
  unfold sendMsix
  extract_lets
  split <;> rfl

/-- A vector raised sends its message at most. -/
theorem sendMsix_out (f v : Nat) (s : State) : ∃ l, (sendMsix f v s).out = l ++ s.out ∧ l.length ≤ 1 := by
  unfold sendMsix
  extract_lets
  split
  · exact ⟨[], rfl, by simp⟩
  · exact ⟨[.msix f v], rfl, by simp⟩

/-- The state that an event leaves apart from its queues: outputs and a vector's pending bit. -/
theorem toHost_eq (e : EvEntry) (s : State) :
    ∃ v, toHost e s = { s with ev := v } ∨ toHost e s = sendMsix 0 1 { s with ev := v } := by
  unfold toHost
  extract_lets _ armed _ t
  by_cases h : armed = true
  · exact ⟨_, Or.inr (if_pos h)⟩
  · exact ⟨_, Or.inl (if_neg h)⟩

theorem toMgmt_eq (e : EvEntry) (s : State) : ∃ v, toMgmt e s = { s with ev := v } := ⟨_, rfl⟩

/-- Raising an event changes the Event Unit, and may send the vector of EVQ-H. -/
theorem raise_eq (n : Nat) (l : List (Nat × Nat)) (s : State) :
    ∃ v, raise n l s = { s with ev := v } ∨ ∃ u, raise n l s = { sendMsix 0 1 { s with ev := u } with ev := v } := by
  have hm : ∀ (e : EvEntry) (b : Bool) (t : State), ∃ v, (if b then toMgmt e t else t) = { t with ev := v } := by
    intro e b t
    cases b
    · exact ⟨t.ev, rfl⟩
    · exact toMgmt_eq e t
  unfold raise
  extract_lets r e s0 s1 s2
  have hs : ∃ v, s2 = { s with ev := v } ∨ s2 = sendMsix 0 1 { s with ev := v } := by
    show ∃ v, (if r.testBit 0 then toHost e s1 else s1) = _ ∨ (if r.testBit 0 then toHost e s1 else s1) = _
    split
    · obtain ⟨v, h | h⟩ := toHost_eq e s1
      · exact ⟨v, Or.inl h⟩
      · exact ⟨v, Or.inr h⟩
    · exact ⟨_, Or.inl rfl⟩
  obtain ⟨u, hu⟩ := hs
  obtain ⟨v, hv⟩ := hm e (r.testBit 1) s2
  refine ⟨v, ?_⟩
  rcases hu with hu | hu
  · left
    rw [hv, hu]
  · right
    exact ⟨u, by rw [hv, hu]⟩

@[simp] theorem raise_pending (n : Nat) (l : List (Nat × Nat)) (s : State) : (raise n l s).pending = s.pending := by
  obtain ⟨v, h | ⟨u, h⟩⟩ := raise_eq n l s <;> rw [h]
  exact sendMsix_pending ..
@[simp] theorem raise_time (n : Nat) (l : List (Nat × Nat)) (s : State) : (raise n l s).time = s.time := by
  obtain ⟨v, h | ⟨u, h⟩⟩ := raise_eq n l s <;> rw [h]
  exact sendMsix_time ..
@[simp] theorem raise_drawn (n : Nat) (l : List (Nat × Nat)) (s : State) : (raise n l s).drawn = s.drawn := by
  obtain ⟨v, h | ⟨u, h⟩⟩ := raise_eq n l s <;> rw [h]
  exact sendMsix_drawn ..
@[simp] theorem raise_cart (n : Nat) (l : List (Nat × Nat)) (s : State) : (raise n l s).cart = s.cart := by
  obtain ⟨v, h | ⟨u, h⟩⟩ := raise_eq n l s <;> rw [h]
  exact sendMsix_cart ..
@[simp] theorem raise_streams (n : Nat) (l : List (Nat × Nat)) (s : State) : (raise n l s).streams = s.streams := by
  obtain ⟨v, h | ⟨u, h⟩⟩ := raise_eq n l s <;> rw [h]
  exact sendMsix_streams ..
@[simp] theorem raise_reserved (n : Nat) (l : List (Nat × Nat)) (s : State) : (raise n l s).reserved = s.reserved := by
  obtain ⟨v, h | ⟨u, h⟩⟩ := raise_eq n l s <;> rw [h]
  exact sendMsix_reserved ..
@[simp] theorem raise_agentSeq (n : Nat) (l : List (Nat × Nat)) (s : State) : (raise n l s).agentSeq = s.agentSeq := by
  obtain ⟨v, h | ⟨u, h⟩⟩ := raise_eq n l s <;> rw [h]
  exact sendMsix_agentSeq ..
@[simp] theorem raise_index (n : Nat) (l : List (Nat × Nat)) (s : State) : (raise n l s).index = s.index := by
  obtain ⟨v, h | ⟨u, h⟩⟩ := raise_eq n l s <;> rw [h]
  exact sendMsix_index ..
@[simp] theorem raise_pack (n : Nat) (l : List (Nat × Nat)) (s : State) : (raise n l s).pack = s.pack := by
  obtain ⟨v, h | ⟨u, h⟩⟩ := raise_eq n l s <;> rw [h]
  exact sendMsix_pack ..
@[simp] theorem raise_wr (n : Nat) (l : List (Nat × Nat)) (s : State) : (raise n l s).wr = s.wr := by
  obtain ⟨v, h | ⟨u, h⟩⟩ := raise_eq n l s <;> rw [h]
  exact sendMsix_wr ..
@[simp] theorem raise_rd (n : Nat) (l : List (Nat × Nat)) (s : State) : (raise n l s).rd = s.rd := by
  obtain ⟨v, h | ⟨u, h⟩⟩ := raise_eq n l s <;> rw [h]
  exact sendMsix_rd ..
@[simp] theorem raise_bpm (n : Nat) (l : List (Nat × Nat)) (s : State) : (raise n l s).bpm = s.bpm := by
  obtain ⟨v, h | ⟨u, h⟩⟩ := raise_eq n l s <;> rw [h]
  exact sendMsix_bpm ..
@[simp] theorem raise_dram (n : Nat) (l : List (Nat × Nat)) (s : State) : (raise n l s).dram = s.dram := by
  obtain ⟨v, h | ⟨u, h⟩⟩ := raise_eq n l s <;> rw [h]
  exact sendMsix_dram ..
@[simp] theorem raise_cip (n : Nat) (l : List (Nat × Nat)) (s : State) : (raise n l s).cip = s.cip := by
  obtain ⟨v, h | ⟨u, h⟩⟩ := raise_eq n l s <;> rw [h]
  exact sendMsix_cip ..
@[simp] theorem raise_chans (n : Nat) (l : List (Nat × Nat)) (s : State) : (raise n l s).chans = s.chans := by
  obtain ⟨v, h | ⟨u, h⟩⟩ := raise_eq n l s <;> rw [h]
  exact sendMsix_chans ..
@[simp] theorem raise_tlcs (n : Nat) (l : List (Nat × Nat)) (s : State) : (raise n l s).tlcs = s.tlcs := by
  obtain ⟨v, h | ⟨u, h⟩⟩ := raise_eq n l s <;> rw [h]
  exact sendMsix_tlcs ..
@[simp] theorem raise_tce (n : Nat) (l : List (Nat × Nat)) (s : State) : (raise n l s).tce = s.tce := by
  obtain ⟨v, h | ⟨u, h⟩⟩ := raise_eq n l s <;> rw [h]
  exact sendMsix_tce ..
@[simp] theorem raise_dict (n : Nat) (l : List (Nat × Nat)) (s : State) : (raise n l s).dict = s.dict := by
  obtain ⟨v, h | ⟨u, h⟩⟩ := raise_eq n l s <;> rw [h]
  exact sendMsix_dict ..
@[simp] theorem raise_staxa (n : Nat) (l : List (Nat × Nat)) (s : State) : (raise n l s).staxa = s.staxa := by
  obtain ⟨v, h | ⟨u, h⟩⟩ := raise_eq n l s <;> rw [h]
  exact sendMsix_staxa ..
@[simp] theorem raise_flash (n : Nat) (l : List (Nat × Nat)) (s : State) : (raise n l s).flash = s.flash := by
  obtain ⟨v, h | ⟨u, h⟩⟩ := raise_eq n l s <;> rw [h]
  exact sendMsix_flash ..
@[simp] theorem raise_fw (n : Nat) (l : List (Nat × Nat)) (s : State) : (raise n l s).fw = s.fw := by
  obtain ⟨v, h | ⟨u, h⟩⟩ := raise_eq n l s <;> rw [h]
  exact sendMsix_fw ..
@[simp] theorem raise_resets (n : Nat) (l : List (Nat × Nat)) (s : State) : (raise n l s).resets = s.resets := by
  obtain ⟨v, h | ⟨u, h⟩⟩ := raise_eq n l s <;> rw [h]
  exact sendMsix_resets ..
@[simp] theorem raise_pwr (n : Nat) (l : List (Nat × Nat)) (s : State) : (raise n l s).pwr = s.pwr := by
  obtain ⟨v, h | ⟨u, h⟩⟩ := raise_eq n l s <;> rw [h]
  exact sendMsix_pwr ..
@[simp] theorem raise_lc (n : Nat) (l : List (Nat × Nat)) (s : State) : (raise n l s).lc = s.lc := by
  obtain ⟨v, h | ⟨u, h⟩⟩ := raise_eq n l s <;> rw [h]
  exact sendMsix_lc ..
@[simp] theorem raise_health (n : Nat) (l : List (Nat × Nat)) (s : State) : (raise n l s).health = s.health := by
  obtain ⟨v, h | ⟨u, h⟩⟩ := raise_eq n l s <;> rw [h]
  exact sendMsix_health ..

@[simp] theorem getQp_raise (n : Nat) (l : List (Nat × Nat)) (s : State) (f q : Nat) :
    getQp (raise n l s) f q = getQp s f q := by
  obtain ⟨v, h | ⟨u, h⟩⟩ := raise_eq n l s <;> rw [h]
  · rfl
  · exact getQp_sendMsix 0 1 f q { s with ev := u }

@[simp] theorem getCmd_raise (n : Nat) (l : List (Nat × Nat)) (s : State) (k : Nat) :
    getCmd (raise n l s) k = getCmd s k := by
  obtain ⟨v, h | ⟨u, h⟩⟩ := raise_eq n l s <;> rw [h]
  · rfl
  · exact getCmd_sendMsix 0 1 k { s with ev := u }

@[simp] theorem raise_cmds (n : Nat) (l : List (Nat × Nat)) (s : State) : (raise n l s).host.cmds = s.host.cmds := by
  obtain ⟨v, h | ⟨u, h⟩⟩ := raise_eq n l s <;> rw [h]
  exact sendMsix_cmds 0 1 { s with ev := u }

theorem raise_out (n : Nat) (l : List (Nat × Nat)) (s : State) : ∃ k, (raise n l s).out = k ++ s.out ∧ k.length ≤ 1 := by
  obtain ⟨v, h | ⟨u, h⟩⟩ := raise_eq n l s <;> rw [h]
  · exact ⟨[], rfl, by simp⟩
  · exact sendMsix_out 0 1 { s with ev := u }

@[simp] theorem lostHost_counts (b : Bool) (v : Ev) : (lostHost b v).counts = v.counts := by unfold lostHost; split <;> rfl
@[simp] theorem lostMgmt_counts (b : Bool) (v : Ev) : (lostMgmt b v).counts = v.counts := by unfold lostMgmt; split <;> rfl

@[simp] theorem toHost_counts (e : EvEntry) (s : State) : (toHost e s).ev.counts = s.ev.counts := by
  unfold toHost
  extract_lets _ armed _ t
  have ht : t.ev.counts = s.ev.counts := lostHost_counts ..
  split
  · exact (congrArg Ev.counts (sendMsix_ev 0 1 t)).trans ht
  · exact ht

@[simp] theorem toMgmt_counts (e : EvEntry) (s : State) : (toMgmt e s).ev.counts = s.ev.counts := lostMgmt_counts ..

/-- An event counts its source once, and no other (R536, R557). -/
theorem raise_counts (n : Nat) (l : List (Nat × Nat)) (s : State) :
    (raise n l s).ev.counts = Tab.put s.ev.counts n (sat32 (Tab.getD s.ev.counts n 0 + 1)) := by
  unfold raise
  extract_lets r e s0 s1 s2
  have hs : s2.ev.counts = s1.ev.counts := by
    show (if r.testBit 0 then toHost e s1 else s1).ev.counts = _
    split
    · exact toHost_counts ..
    · rfl
  split
  · exact (toMgmt_counts ..).trans hs
  · exact hs

@[simp] theorem shutdownCheck_pending (f : Nat) (s : State) : (shutdownCheck f s).pending = s.pending := by
  unfold shutdownCheck; extract_lets; split <;> rfl
@[simp] theorem shutdownCheck_time (f : Nat) (s : State) : (shutdownCheck f s).time = s.time := by
  unfold shutdownCheck; extract_lets; split <;> rfl
@[simp] theorem shutdownCheck_drawn (f : Nat) (s : State) : (shutdownCheck f s).drawn = s.drawn := by
  unfold shutdownCheck; extract_lets; split <;> rfl
@[simp] theorem shutdownCheck_cart (f : Nat) (s : State) : (shutdownCheck f s).cart = s.cart := by
  unfold shutdownCheck; extract_lets; split <;> rfl
@[simp] theorem shutdownCheck_streams (f : Nat) (s : State) : (shutdownCheck f s).streams = s.streams := by
  unfold shutdownCheck; extract_lets; split <;> rfl
@[simp] theorem shutdownCheck_reserved (f : Nat) (s : State) : (shutdownCheck f s).reserved = s.reserved := by
  unfold shutdownCheck; extract_lets; split <;> rfl
@[simp] theorem shutdownCheck_agentSeq (f : Nat) (s : State) : (shutdownCheck f s).agentSeq = s.agentSeq := by
  unfold shutdownCheck; extract_lets; split <;> rfl
@[simp] theorem shutdownCheck_index (f : Nat) (s : State) : (shutdownCheck f s).index = s.index := by
  unfold shutdownCheck; extract_lets; split <;> rfl
@[simp] theorem shutdownCheck_pack (f : Nat) (s : State) : (shutdownCheck f s).pack = s.pack := by
  unfold shutdownCheck; extract_lets; split <;> rfl
@[simp] theorem shutdownCheck_wr (f : Nat) (s : State) : (shutdownCheck f s).wr = s.wr := by
  unfold shutdownCheck; extract_lets; split <;> rfl
@[simp] theorem shutdownCheck_rd (f : Nat) (s : State) : (shutdownCheck f s).rd = s.rd := by
  unfold shutdownCheck; extract_lets; split <;> rfl
@[simp] theorem shutdownCheck_bpm (f : Nat) (s : State) : (shutdownCheck f s).bpm = s.bpm := by
  unfold shutdownCheck; extract_lets; split <;> rfl
@[simp] theorem shutdownCheck_dram (f : Nat) (s : State) : (shutdownCheck f s).dram = s.dram := by
  unfold shutdownCheck; extract_lets; split <;> rfl
@[simp] theorem shutdownCheck_cip (f : Nat) (s : State) : (shutdownCheck f s).cip = s.cip := by
  unfold shutdownCheck; extract_lets; split <;> rfl
@[simp] theorem shutdownCheck_chans (f : Nat) (s : State) : (shutdownCheck f s).chans = s.chans := by
  unfold shutdownCheck; extract_lets; split <;> rfl
@[simp] theorem shutdownCheck_tlcs (f : Nat) (s : State) : (shutdownCheck f s).tlcs = s.tlcs := by
  unfold shutdownCheck; extract_lets; split <;> rfl
@[simp] theorem shutdownCheck_tce (f : Nat) (s : State) : (shutdownCheck f s).tce = s.tce := by
  unfold shutdownCheck; extract_lets; split <;> rfl
@[simp] theorem shutdownCheck_dict (f : Nat) (s : State) : (shutdownCheck f s).dict = s.dict := by
  unfold shutdownCheck; extract_lets; split <;> rfl
@[simp] theorem shutdownCheck_staxa (f : Nat) (s : State) : (shutdownCheck f s).staxa = s.staxa := by
  unfold shutdownCheck; extract_lets; split <;> rfl
@[simp] theorem shutdownCheck_flash (f : Nat) (s : State) : (shutdownCheck f s).flash = s.flash := by
  unfold shutdownCheck; extract_lets; split <;> rfl
@[simp] theorem shutdownCheck_fw (f : Nat) (s : State) : (shutdownCheck f s).fw = s.fw := by
  unfold shutdownCheck; extract_lets; split <;> rfl
@[simp] theorem shutdownCheck_ev (f : Nat) (s : State) : (shutdownCheck f s).ev = s.ev := by
  unfold shutdownCheck; extract_lets; split <;> rfl
@[simp] theorem shutdownCheck_resets (f : Nat) (s : State) : (shutdownCheck f s).resets = s.resets := by
  unfold shutdownCheck; extract_lets; split <;> rfl
@[simp] theorem shutdownCheck_pwr (f : Nat) (s : State) : (shutdownCheck f s).pwr = s.pwr := by
  unfold shutdownCheck; extract_lets; split <;> rfl
@[simp] theorem shutdownCheck_lc (f : Nat) (s : State) : (shutdownCheck f s).lc = s.lc := by
  unfold shutdownCheck; extract_lets; split <;> rfl
@[simp] theorem shutdownCheck_health (f : Nat) (s : State) : (shutdownCheck f s).health = s.health := by
  unfold shutdownCheck; extract_lets; split <;> rfl

@[simp] theorem shutdownCheck_out (f : Nat) (s : State) : (shutdownCheck f s).out = s.out := by
  unfold shutdownCheck; extract_lets; split <;> rfl

/-- What the end of a command may touch beside the queues: the cartridge state, streams and their reservations, the keys of an
ended function and the firmware activation. -/
def Posted (s t : State) : Prop :=
  ∃ H C S R K W, t = { s with host := H, cart := C, streams := S, reserved := R, cip := K, fw := W }

theorem Posted.upd {s0 s t : State} (h : Posted s0 s)
    (e : t = { s with host := t.host, cart := t.cart, streams := t.streams, reserved := t.reserved, cip := t.cip, fw := t.fw }) :
    Posted s0 t := by
  obtain ⟨H, C, S, R, K, W, rfl⟩ := h
  exact ⟨_, _, _, _, _, _, e⟩

theorem Posted.ite {s0 : State} {p : Prop} [Decidable p] {a b : State} (ha : Posted s0 a) (hb : Posted s0 b) :
    Posted s0 (if p then a else b) := by
  split
  · exact ha
  · exact hb

theorem enterCart_posted {s0 s : State} (h : Posted s0 s) (now : CartState) : Posted s0 (enterCart now s) := by
  unfold enterCart
  exact Posted.ite (h.upd rfl) (Posted.ite (h.upd rfl) (h.upd rfl))

theorem PostAct.apply_posted {s0 s : State} (h : Posted s0 s) (a : PostAct) : Posted s0 (a.apply s) := by
  have hs : ∀ n g, Posted s0 (updStream n g s) := fun _ _ => h.upd rfl
  cases a with
  | cart was now => exact Posted.ite (enterCart_posted h now) h
  | formatEnds ok =>
    have hf : Posted s0 { s with cart := { s.cart with formatting := none } } := h.upd rfl
    rcases ok with _ | _ | _
    · exact hf
    · exact Posted.ite (enterCart_posted hf _) hf
    · exact Posted.ite (enterCart_posted hf _) hf
  | unreserve n => exact h.upd rfl
  | activated => exact h.upd rfl
  | resetPosted f q =>
    show Posted s0 (updQp f q _ s)
    unfold updQp
    split
    · exact h.upd rfl
    · exact h
  | opened n => exact hs ..
  | openFailed n key =>
    have hu : Posted s0 (updStream n (fun x => { x with opening := none }) s) := hs ..
    cases key with
    | none => exact hu
    | some k => exact Posted.ite (hu.upd rfl) hu

theorem postActs_posted (l : List PostAct) : ∀ {s0 s : State}, Posted s0 s → Posted s0 (l.foldl (fun s a => a.apply s) s) := by
  induction l with
  | nil => exact fun h => h
  | cons a l ih => exact fun h => ih (PostAct.apply_posted h a)

theorem dropCmd_posted (n : Nat) (s : State) : Posted s (dropCmd n s) := by
  unfold dropCmd
  split
  · exact ⟨_, _, _, _, _, _, rfl⟩
  · rename_i c _
    extract_lets h0 t
    have ht : Posted s t := postActs_posted c.post ⟨_, _, _, _, _, _, rfl⟩
    clear_value t
    have hr : Posted s (if c.fnEnded then retireOwn c t else t) := Posted.ite (Posted.ite (ht.upd rfl) ht) ht
    generalize (if c.fnEnded then retireOwn c t else t) = u at hr
    unfold shutdownCheck
    extract_lets
    exact Posted.ite (hr.upd rfl) hr

@[simp] theorem dropCmd_pending (n : Nat) (s : State) : (dropCmd n s).pending = s.pending := by
  obtain ⟨_, _, _, _, _, _, h⟩ := dropCmd_posted n s; rw [h]
@[simp] theorem dropCmd_time (n : Nat) (s : State) : (dropCmd n s).time = s.time := by
  obtain ⟨_, _, _, _, _, _, h⟩ := dropCmd_posted n s; rw [h]
@[simp] theorem dropCmd_drawn (n : Nat) (s : State) : (dropCmd n s).drawn = s.drawn := by
  obtain ⟨_, _, _, _, _, _, h⟩ := dropCmd_posted n s; rw [h]
@[simp] theorem dropCmd_agentSeq (n : Nat) (s : State) : (dropCmd n s).agentSeq = s.agentSeq := by
  obtain ⟨_, _, _, _, _, _, h⟩ := dropCmd_posted n s; rw [h]
@[simp] theorem dropCmd_index (n : Nat) (s : State) : (dropCmd n s).index = s.index := by
  obtain ⟨_, _, _, _, _, _, h⟩ := dropCmd_posted n s; rw [h]
@[simp] theorem dropCmd_pack (n : Nat) (s : State) : (dropCmd n s).pack = s.pack := by
  obtain ⟨_, _, _, _, _, _, h⟩ := dropCmd_posted n s; rw [h]
@[simp] theorem dropCmd_wr (n : Nat) (s : State) : (dropCmd n s).wr = s.wr := by
  obtain ⟨_, _, _, _, _, _, h⟩ := dropCmd_posted n s; rw [h]
@[simp] theorem dropCmd_rd (n : Nat) (s : State) : (dropCmd n s).rd = s.rd := by
  obtain ⟨_, _, _, _, _, _, h⟩ := dropCmd_posted n s; rw [h]
@[simp] theorem dropCmd_bpm (n : Nat) (s : State) : (dropCmd n s).bpm = s.bpm := by
  obtain ⟨_, _, _, _, _, _, h⟩ := dropCmd_posted n s; rw [h]
@[simp] theorem dropCmd_dram (n : Nat) (s : State) : (dropCmd n s).dram = s.dram := by
  obtain ⟨_, _, _, _, _, _, h⟩ := dropCmd_posted n s; rw [h]
@[simp] theorem dropCmd_chans (n : Nat) (s : State) : (dropCmd n s).chans = s.chans := by
  obtain ⟨_, _, _, _, _, _, h⟩ := dropCmd_posted n s; rw [h]
@[simp] theorem dropCmd_tlcs (n : Nat) (s : State) : (dropCmd n s).tlcs = s.tlcs := by
  obtain ⟨_, _, _, _, _, _, h⟩ := dropCmd_posted n s; rw [h]
@[simp] theorem dropCmd_tce (n : Nat) (s : State) : (dropCmd n s).tce = s.tce := by
  obtain ⟨_, _, _, _, _, _, h⟩ := dropCmd_posted n s; rw [h]
@[simp] theorem dropCmd_dict (n : Nat) (s : State) : (dropCmd n s).dict = s.dict := by
  obtain ⟨_, _, _, _, _, _, h⟩ := dropCmd_posted n s; rw [h]
@[simp] theorem dropCmd_staxa (n : Nat) (s : State) : (dropCmd n s).staxa = s.staxa := by
  obtain ⟨_, _, _, _, _, _, h⟩ := dropCmd_posted n s; rw [h]
@[simp] theorem dropCmd_flash (n : Nat) (s : State) : (dropCmd n s).flash = s.flash := by
  obtain ⟨_, _, _, _, _, _, h⟩ := dropCmd_posted n s; rw [h]
@[simp] theorem dropCmd_ev (n : Nat) (s : State) : (dropCmd n s).ev = s.ev := by
  obtain ⟨_, _, _, _, _, _, h⟩ := dropCmd_posted n s; rw [h]
@[simp] theorem dropCmd_resets (n : Nat) (s : State) : (dropCmd n s).resets = s.resets := by
  obtain ⟨_, _, _, _, _, _, h⟩ := dropCmd_posted n s; rw [h]
@[simp] theorem dropCmd_pwr (n : Nat) (s : State) : (dropCmd n s).pwr = s.pwr := by
  obtain ⟨_, _, _, _, _, _, h⟩ := dropCmd_posted n s; rw [h]
@[simp] theorem dropCmd_lc (n : Nat) (s : State) : (dropCmd n s).lc = s.lc := by
  obtain ⟨_, _, _, _, _, _, h⟩ := dropCmd_posted n s; rw [h]
@[simp] theorem dropCmd_health (n : Nat) (s : State) : (dropCmd n s).health = s.health := by
  obtain ⟨_, _, _, _, _, _, h⟩ := dropCmd_posted n s; rw [h]
@[simp] theorem dropCmd_out (n : Nat) (s : State) : (dropCmd n s).out = s.out := by
  obtain ⟨_, _, _, _, _, _, h⟩ := dropCmd_posted n s; rw [h]

/-- A command that leaves nothing to its posting, of a function that goes on, ends with nothing else touched. -/
theorem dropCmd_plain {n : Nat} {s : State} {c : Cmd} (hc : getCmd s n = some c) (hp : c.post = []) (hf : c.fnEnded = false) :
    dropCmd n s = shutdownCheck c.fn { s with host := { s.host with cmds := Tab.del s.host.cmds n } } := by
  unfold dropCmd
  rw [hc]
  simp [hp, hf]

@[simp] theorem updCmd_pending (n : Nat) (g : Cmd → Cmd) (s : State) : (updCmd n g s).pending = s.pending := by
  unfold updCmd; split <;> rfl
@[simp] theorem updCmd_time (n : Nat) (g : Cmd → Cmd) (s : State) : (updCmd n g s).time = s.time := by
  unfold updCmd; split <;> rfl
@[simp] theorem updCmd_drawn (n : Nat) (g : Cmd → Cmd) (s : State) : (updCmd n g s).drawn = s.drawn := by
  unfold updCmd; split <;> rfl
@[simp] theorem updCmd_cart (n : Nat) (g : Cmd → Cmd) (s : State) : (updCmd n g s).cart = s.cart := by
  unfold updCmd; split <;> rfl
@[simp] theorem updCmd_streams (n : Nat) (g : Cmd → Cmd) (s : State) : (updCmd n g s).streams = s.streams := by
  unfold updCmd; split <;> rfl
@[simp] theorem updCmd_reserved (n : Nat) (g : Cmd → Cmd) (s : State) : (updCmd n g s).reserved = s.reserved := by
  unfold updCmd; split <;> rfl
@[simp] theorem updCmd_agentSeq (n : Nat) (g : Cmd → Cmd) (s : State) : (updCmd n g s).agentSeq = s.agentSeq := by
  unfold updCmd; split <;> rfl
@[simp] theorem updCmd_index (n : Nat) (g : Cmd → Cmd) (s : State) : (updCmd n g s).index = s.index := by
  unfold updCmd; split <;> rfl
@[simp] theorem updCmd_pack (n : Nat) (g : Cmd → Cmd) (s : State) : (updCmd n g s).pack = s.pack := by
  unfold updCmd; split <;> rfl
@[simp] theorem updCmd_wr (n : Nat) (g : Cmd → Cmd) (s : State) : (updCmd n g s).wr = s.wr := by
  unfold updCmd; split <;> rfl
@[simp] theorem updCmd_rd (n : Nat) (g : Cmd → Cmd) (s : State) : (updCmd n g s).rd = s.rd := by
  unfold updCmd; split <;> rfl
@[simp] theorem updCmd_bpm (n : Nat) (g : Cmd → Cmd) (s : State) : (updCmd n g s).bpm = s.bpm := by
  unfold updCmd; split <;> rfl
@[simp] theorem updCmd_dram (n : Nat) (g : Cmd → Cmd) (s : State) : (updCmd n g s).dram = s.dram := by
  unfold updCmd; split <;> rfl
@[simp] theorem updCmd_cip (n : Nat) (g : Cmd → Cmd) (s : State) : (updCmd n g s).cip = s.cip := by
  unfold updCmd; split <;> rfl
@[simp] theorem updCmd_chans (n : Nat) (g : Cmd → Cmd) (s : State) : (updCmd n g s).chans = s.chans := by
  unfold updCmd; split <;> rfl
@[simp] theorem updCmd_tlcs (n : Nat) (g : Cmd → Cmd) (s : State) : (updCmd n g s).tlcs = s.tlcs := by
  unfold updCmd; split <;> rfl
@[simp] theorem updCmd_tce (n : Nat) (g : Cmd → Cmd) (s : State) : (updCmd n g s).tce = s.tce := by
  unfold updCmd; split <;> rfl
@[simp] theorem updCmd_dict (n : Nat) (g : Cmd → Cmd) (s : State) : (updCmd n g s).dict = s.dict := by
  unfold updCmd; split <;> rfl
@[simp] theorem updCmd_staxa (n : Nat) (g : Cmd → Cmd) (s : State) : (updCmd n g s).staxa = s.staxa := by
  unfold updCmd; split <;> rfl
@[simp] theorem updCmd_flash (n : Nat) (g : Cmd → Cmd) (s : State) : (updCmd n g s).flash = s.flash := by
  unfold updCmd; split <;> rfl
@[simp] theorem updCmd_fw (n : Nat) (g : Cmd → Cmd) (s : State) : (updCmd n g s).fw = s.fw := by
  unfold updCmd; split <;> rfl
@[simp] theorem updCmd_ev (n : Nat) (g : Cmd → Cmd) (s : State) : (updCmd n g s).ev = s.ev := by
  unfold updCmd; split <;> rfl
@[simp] theorem updCmd_resets (n : Nat) (g : Cmd → Cmd) (s : State) : (updCmd n g s).resets = s.resets := by
  unfold updCmd; split <;> rfl
@[simp] theorem updCmd_pwr (n : Nat) (g : Cmd → Cmd) (s : State) : (updCmd n g s).pwr = s.pwr := by
  unfold updCmd; split <;> rfl
@[simp] theorem updCmd_lc (n : Nat) (g : Cmd → Cmd) (s : State) : (updCmd n g s).lc = s.lc := by
  unfold updCmd; split <;> rfl
@[simp] theorem updCmd_health (n : Nat) (g : Cmd → Cmd) (s : State) : (updCmd n g s).health = s.health := by
  unfold updCmd; split <;> rfl

end Sys2Proof.Machine
end

