-- ==== Sys2Proof/Laws/HostOut.lean ====
section
/-! SUPPORT. What ending a command can touch: the Host Queue Engine, what the device issues, and what the posting of a
completion settles (the cartridge state, streams and reservations, keys, the activation); nothing else. -/

namespace Sys2Proof.Machine

/-- `t` differs from `s` at most in the queues and functions, the outputs and what the posting of a completion settles. -/
def HostOut (s t : State) : Prop :=
  ∃ H O C S R K W, t = { s with host := H, out := O, cart := C, streams := S, reserved := R, cip := K, fw := W }

theorem HostOut.refl (s : State) : HostOut s s := ⟨_, _, _, _, _, _, _, rfl⟩

theorem HostOut.upd {s0 s t : State} (h : HostOut s0 s)
    (e : t = { s with host := t.host, out := t.out, cart := t.cart, streams := t.streams, reserved := t.reserved, cip := t.cip,
                      fw := t.fw }) : HostOut s0 t := by
  obtain ⟨H, O, C, S, R, K, W, rfl⟩ := h
  exact ⟨_, _, _, _, _, _, _, e⟩

theorem HostOut.ite {s0 : State} {p : Prop} [Decidable p] {a b : State} (ha : HostOut s0 a) (hb : HostOut s0 b) :
    HostOut s0 (if p then a else b) := by
  split
  · exact ha
  · exact hb

theorem emit_hostOut {s0 s : State} (h : HostOut s0 s) (a0) : HostOut s0 (emit a0 s) := by
  unfold emit
  exact (HostOut.upd h rfl)

theorem emits_hostOut {s0 s : State} (h : HostOut s0 s) (a0) : HostOut s0 (emits a0 s) := by
  unfold emits
  exact (HostOut.upd h rfl)

theorem setFn_hostOut {s0 s : State} (h : HostOut s0 s) (a0 a1) : HostOut s0 (setFn a0 a1 s) := by
  unfold setFn
  extract_lets -underBinder -merge y0
  exact (HostOut.upd h rfl)

theorem updFn_hostOut {s0 s : State} (h : HostOut s0 s) (a0 a1) : HostOut s0 (updFn a0 a1 s) := by
  unfold updFn
  exact (setFn_hostOut h ..)

theorem setQp_hostOut {s0 s : State} (h : HostOut s0 s) (a0 a1 a2) : HostOut s0 (setQp a0 a1 a2 s) := by
  unfold setQp
  exact (updFn_hostOut h ..)

theorem updQp_hostOut {s0 s : State} (h : HostOut s0 s) (a0 a1 a2) : HostOut s0 (updQp a0 a1 a2 s) := by
  unfold updQp
  split
  · exact (setQp_hostOut h ..)
  · exact h

theorem sendMsix_hostOut {s0 s : State} (h : HostOut s0 s) (a0 a1) : HostOut s0 (sendMsix a0 a1 s) := by
  unfold sendMsix
  extract_lets -underBinder -merge y0
  refine HostOut.ite ?_ ?_
  · exact (updFn_hostOut h ..)
  · exact (emit_hostOut h ..)

theorem setCmd_hostOut {s0 s : State} (h : HostOut s0 s) (a0 a1) : HostOut s0 (setCmd a0 a1 s) := by
  unfold setCmd
  extract_lets -underBinder -merge y0
  exact (HostOut.upd h rfl)

theorem updCmd_hostOut {s0 s : State} (h : HostOut s0 s) (a0 a1) : HostOut s0 (updCmd a0 a1 s) := by
  unfold updCmd
  split
  · exact (setCmd_hostOut h ..)
  · exact h

theorem setStage_hostOut {s0 s : State} (h : HostOut s0 s) (a0 a1) : HostOut s0 (setStage a0 a1 s) := by
  unfold setStage
  exact (updCmd_hostOut h ..)

theorem shutdownCheck_hostOut {s0 s : State} (h : HostOut s0 s) (a0) : HostOut s0 (shutdownCheck a0 s) := by
  unfold shutdownCheck
  extract_lets -underBinder -merge y0
  refine HostOut.ite ?_ ?_
  · exact (updFn_hostOut h ..)
  · exact h

theorem dropCmd_hostOut {s0 s : State} (h : HostOut s0 s) (a0) : HostOut s0 (dropCmd a0 s) := by
  obtain ⟨H, C, S, R, K, W, e⟩ := dropCmd_posted a0 s
  rw [e]
  exact h.upd rfl

theorem issueCpl_hostOut {s0 s : State} (h : HostOut s0 s) (a0 a1 a2) : HostOut s0 (issueCpl a0 a1 a2 s) := by
  unfold issueCpl
  split
  · exact h
  · extract_lets -underBinder -merge y0 y1
    split
    · extract_lets -underBinder -merge y2 y3
      have hy2 : HostOut s0 y2 := (emit_hostOut (setQp_hostOut h ..) ..)
      have hy3 : HostOut s0 y3 := by
        refine HostOut.ite ?_ ?_
        · exact (sendMsix_hostOut hy2 ..)
        · exact hy2
      clear_value y3
      clear_value y2
      split
      · exact (dropCmd_hostOut hy3 ..)
      · exact hy3

theorem drainHeld_hostOut {s0 s : State} (h : HostOut s0 s) (f q n) : HostOut s0 (drainHeld f q n s) := by
  induction n generalizing s with
  | zero => exact h
  | succ n ih =>
    unfold drainHeld
    split
    · exact h
    · split
      · exact h
      · refine HostOut.ite h ?_
        exact ih (issueCpl_hostOut (setQp_hostOut h ..) ..)

theorem postCpl_hostOut {s0 s : State} (h : HostOut s0 s) (a0 a1 a2) : HostOut s0 (postCpl a0 a1 a2 s) := by
  unfold postCpl
  split
  · exact h
  · extract_lets -underBinder -merge y0
    have hy0 : HostOut s0 y0 := (setQp_hostOut h ..)
    clear_value y0
    refine HostOut.ite ?_ ?_
    · exact (issueCpl_hostOut h ..)
    · split
      · exact (setStage_hostOut hy0 ..)
      · exact hy0

theorem complete_hostOut {s0 s : State} (h : HostOut s0 s) (a0 a1 a2) : HostOut s0 (complete a0 a1 a2 s) := by
  unfold complete
  split
  · exact h
  · refine HostOut.ite ?_ ?_
    · exact h
    · refine HostOut.ite ?_ ?_
      · exact (dropCmd_hostOut h ..)
      · split
        · exact (dropCmd_hostOut h ..)
        · extract_lets -underBinder -merge y0 y1 y2
          refine HostOut.ite ?_ ?_
          · exact (dropCmd_hostOut h ..)
          · exact (postCpl_hostOut (setQp_hostOut h ..) ..)

theorem finish_hostOut {s0 s : State} (h : HostOut s0 s) (a0 a1 a2) : HostOut s0 (finish a0 a1 a2 s) := by
  unfold finish
  exact (complete_hostOut h ..)

theorem finishWith_hostOut {s0 s : State} (h : HostOut s0 s) (a0 a1 a2 a3) : HostOut s0 (finishWith a0 a1 a2 a3 s) := by
  unfold finishWith
  exact (complete_hostOut h ..)

theorem noteInfo_hostOut {s0 s : State} (h : HostOut s0 s) (a0 a1) : HostOut s0 (noteInfo a0 a1 s) := by
  unfold noteInfo
  exact (updCmd_hostOut h ..)

/-- The frame of an operation that touches queues and outputs only: every other field, by name. -/
theorem HostOut.pending {s t : State} (h : HostOut s t) : t.pending = s.pending := by
  obtain ⟨_, _, _, _, _, _, _, rfl⟩ := h
  rfl
theorem HostOut.time {s t : State} (h : HostOut s t) : t.time = s.time := by
  obtain ⟨_, _, _, _, _, _, _, rfl⟩ := h
  rfl
theorem HostOut.drawn {s t : State} (h : HostOut s t) : t.drawn = s.drawn := by
  obtain ⟨_, _, _, _, _, _, _, rfl⟩ := h
  rfl
theorem HostOut.agentSeq {s t : State} (h : HostOut s t) : t.agentSeq = s.agentSeq := by
  obtain ⟨_, _, _, _, _, _, _, rfl⟩ := h
  rfl
theorem HostOut.index {s t : State} (h : HostOut s t) : t.index = s.index := by
  obtain ⟨_, _, _, _, _, _, _, rfl⟩ := h
  rfl
theorem HostOut.pack {s t : State} (h : HostOut s t) : t.pack = s.pack := by
  obtain ⟨_, _, _, _, _, _, _, rfl⟩ := h
  rfl
theorem HostOut.wr {s t : State} (h : HostOut s t) : t.wr = s.wr := by
  obtain ⟨_, _, _, _, _, _, _, rfl⟩ := h
  rfl
theorem HostOut.rd {s t : State} (h : HostOut s t) : t.rd = s.rd := by
  obtain ⟨_, _, _, _, _, _, _, rfl⟩ := h
  rfl
theorem HostOut.bpm {s t : State} (h : HostOut s t) : t.bpm = s.bpm := by
  obtain ⟨_, _, _, _, _, _, _, rfl⟩ := h
  rfl
theorem HostOut.dram {s t : State} (h : HostOut s t) : t.dram = s.dram := by
  obtain ⟨_, _, _, _, _, _, _, rfl⟩ := h
  rfl
theorem HostOut.chans {s t : State} (h : HostOut s t) : t.chans = s.chans := by
  obtain ⟨_, _, _, _, _, _, _, rfl⟩ := h
  rfl
theorem HostOut.tlcs {s t : State} (h : HostOut s t) : t.tlcs = s.tlcs := by
  obtain ⟨_, _, _, _, _, _, _, rfl⟩ := h
  rfl
theorem HostOut.tce {s t : State} (h : HostOut s t) : t.tce = s.tce := by
  obtain ⟨_, _, _, _, _, _, _, rfl⟩ := h
  rfl
theorem HostOut.dict {s t : State} (h : HostOut s t) : t.dict = s.dict := by
  obtain ⟨_, _, _, _, _, _, _, rfl⟩ := h
  rfl
theorem HostOut.staxa {s t : State} (h : HostOut s t) : t.staxa = s.staxa := by
  obtain ⟨_, _, _, _, _, _, _, rfl⟩ := h
  rfl
theorem HostOut.flash {s t : State} (h : HostOut s t) : t.flash = s.flash := by
  obtain ⟨_, _, _, _, _, _, _, rfl⟩ := h
  rfl
theorem HostOut.ev {s t : State} (h : HostOut s t) : t.ev = s.ev := by
  obtain ⟨_, _, _, _, _, _, _, rfl⟩ := h
  rfl
theorem HostOut.resets {s t : State} (h : HostOut s t) : t.resets = s.resets := by
  obtain ⟨_, _, _, _, _, _, _, rfl⟩ := h
  rfl
theorem HostOut.pwr {s t : State} (h : HostOut s t) : t.pwr = s.pwr := by
  obtain ⟨_, _, _, _, _, _, _, rfl⟩ := h
  rfl
theorem HostOut.lc {s t : State} (h : HostOut s t) : t.lc = s.lc := by
  obtain ⟨_, _, _, _, _, _, _, rfl⟩ := h
  rfl
theorem HostOut.health {s t : State} (h : HostOut s t) : t.health = s.health := by
  obtain ⟨_, _, _, _, _, _, _, rfl⟩ := h
  rfl

end Sys2Proof.Machine
end

