-- ==== Sys2Proof/Laws/Complete.lean ====
section
/-! SUPPORT. What the end of a command does when its queue pair can take the completion. -/

namespace Sys2Proof.Machine

theorem coalesce_keeps (b : Bool) (q : Qp) :
    ∃ n t, (coalesce b q).1 = { q with unannounced := n, timer := t } := by
  unfold coalesce
  split
  · exact ⟨q.unannounced, q.timer, rfl⟩
  · extract_lets n
    split <;> exact ⟨_, _, rfl⟩

theorem logError_keeps (e : ErrEntry) (q : Qp) :
    ∃ n l k, logError e q = { q with errSeq := n, log := l, lost := k } := by
  unfold logError
  extract_lets n r
  split
  · exact ⟨n, _, q.lost, rfl⟩
  · exact ⟨n, q.log, _, rfl⟩

theorem getQp_shutdownCheck (g f q : Nat) (s : State) : getQp (shutdownCheck g s) f q = getQp s f q := by
  unfold shutdownCheck
  extract_lets x
  split
  · by_cases h : f = g
    · subst h
      simp [getQp]
    · simp [getQp, getFn_updFn_ne _ _ h]
  · rfl

/-- What is left to the posting of a completion touches of the queue pairs at most the mark that a reset has still to end. -/
theorem getQp_postAct (a : PostAct) (s : State) (f q : Nat) :
    ∃ g : Qp → Bool, getQp (a.apply s) f q = (getQp s f q).map fun v => { v with resetEnds := g v } := by
  have same : ∀ t : State, t.host.fns = s.host.fns → ∃ g : Qp → Bool, getQp t f q = (getQp s f q).map fun v => { v with resetEnds := g v } := by
    intro t h
    refine ⟨fun v => v.resetEnds, ?_⟩
    unfold getQp getFn
    rw [h]
    simp
  have ent : ∀ now (t : State), (enterCart now t).host = t.host := by
    intro now t
    unfold enterCart
    split
    · rfl
    · split <;> rfl
  cases a with
  | resetPosted f' q' =>
    show ∃ g : Qp → Bool, getQp (updQp f' q' _ s) f q = _
    unfold updQp
    split
    · rename_i v hv
      by_cases h : f' = f ∧ q' = q
      · obtain ⟨rfl, rfl⟩ := h
        exact ⟨fun _ => false, by rw [getQp_setQp_self, hv]; rfl⟩
      · refine ⟨fun v => v.resetEnds, ?_⟩
        rw [getQp_setQp_ne _ _ (by tauto)]
        simp
    · exact same _ rfl
  | openFailed n key =>
    cases key with
    | none => exact same _ rfl
    | some k =>
      refine same _ (congrArg HostIf.fns ?_)
      show (if _ then _ else _ : State).host = s.host
      split <;> rfl
  | formatEnds ok =>
    refine same _ (congrArg HostIf.fns ?_)
    show (endFormat ok s).host = s.host
    unfold endFormat
    extract_lets was c t
    rcases ok with _ | _ | _
    · rfl
    · show (if _ then enterCart _ t else t).host = s.host
      split
      · exact ent ..
      · rfl
    · show (if _ then enterCart _ t else t).host = s.host
      split
      · exact ent ..
      · rfl
  | cart was now =>
    refine same _ (congrArg HostIf.fns ?_)
    show (if _ then enterCart now s else s).host = s.host
    split
    · exact ent ..
    · rfl
  | unreserve n => exact same _ rfl
  | activated => exact same _ rfl
  | opened n => exact same _ rfl

theorem cmds_postAct (a : PostAct) (s : State) : (a.apply s).host.cmds = s.host.cmds := by
  have ent : ∀ now (t : State), (enterCart now t).host.cmds = t.host.cmds := by
    intro now t
    unfold enterCart
    split
    · rfl
    · split <;> rfl
  cases a with
  | resetPosted f' q' =>
    show (updQp f' q' _ s).host.cmds = _
    unfold updQp
    split <;> rfl
  | openFailed n key =>
    cases key with
    | none => rfl
    | some k =>
      show (if _ then _ else _ : State).host.cmds = s.host.cmds
      split <;> rfl
  | formatEnds ok =>
    show (endFormat ok s).host.cmds = s.host.cmds
    unfold endFormat
    extract_lets was c t
    rcases ok with _ | _ | _
    · rfl
    · show (if _ then enterCart _ t else t).host.cmds = s.host.cmds
      split
      · exact ent ..
      · rfl
    · show (if _ then enterCart _ t else t).host.cmds = s.host.cmds
      split
      · exact ent ..
      · rfl
  | cart was now =>
    show (if _ then enterCart now s else s).host.cmds = s.host.cmds
    split
    · exact ent ..
    · rfl
  | unreserve n => rfl
  | activated => rfl
  | opened n => rfl

theorem getQp_postActs (l : List PostAct) (f q : Nat) : ∀ s : State,
    ∃ g : Qp → Bool, getQp (l.foldl (fun s a => a.apply s) s) f q = (getQp s f q).map fun v => { v with resetEnds := g v } := by
  induction l with
  | nil => exact fun s => ⟨fun v => v.resetEnds, by simp⟩
  | cons a l ih =>
    intro s
    obtain ⟨g, hg⟩ := getQp_postAct a s f q
    obtain ⟨k, hk⟩ := ih (a.apply s)
    refine ⟨fun v => k { v with resetEnds := g v }, ?_⟩
    show getQp (l.foldl _ (a.apply s)) f q = _
    rw [hk, hg, Option.map_map]
    rfl

theorem cmds_postActs (l : List PostAct) : ∀ s : State, (l.foldl (fun s a => a.apply s) s).host.cmds = s.host.cmds := by
  induction l with
  | nil => exact fun s => rfl
  | cons a l ih => exact fun s => (ih (a.apply s)).trans (cmds_postAct a s)

theorem getQp_dropCmd (n f q : Nat) (s : State) :
    ∃ g : Qp → Bool, getQp (dropCmd n s) f q = (getQp s f q).map fun v => { v with resetEnds := g v } := by
  unfold dropCmd
  split
  · exact ⟨fun v => v.resetEnds, by simp⟩
  · rename_i c _
    extract_lets h0 t
    obtain ⟨g, hg⟩ := getQp_postActs c.post f q { s with host := { s.host with cmds := Tab.del s.host.cmds n } }
    refine ⟨g, ?_⟩
    rw [getQp_shutdownCheck]
    refine Eq.trans ?_ hg
    unfold retireOwn
    split
    · split <;> rfl
    · rfl

theorem getCmd_dropCmd_self (n : Nat) (s : State) : getCmd (dropCmd n s) n = none := by
  unfold dropCmd
  split
  · assumption
  · rename_i c _
    extract_lets h0 t
    have ht : t.host.cmds = Tab.del s.host.cmds n := cmds_postActs c.post _
    have hd : Tab.get? (Tab.del s.host.cmds n) n = none := Tab.get?_del_self _ _
    have hr : (if c.fnEnded then retireOwn c t else t).host.cmds = Tab.del s.host.cmds n := by
      unfold retireOwn
      split
      · split <;> exact ht
      · exact ht
    have hs : ∀ g u, getCmd (shutdownCheck g u) n = Tab.get? u.host.cmds n := by
      intro g u
      unfold shutdownCheck
      extract_lets x
      split <;> rfl
    rw [hs, hr]
    exact hd

/-- One completion written: what the host sees, and the queue pair after it (R65, R71, R77). -/
theorem issueCpl_posts {s : State} {f q n : Nat} {v : Qp} {c : Option Cmd} {p : Cpl} (hq : getQp s f q = some v) :
    let t := issueCpl f q ⟨some n, c, p⟩ s
    (∃ l, l.length ≤ 1 ∧
      t.out = l ++ .completion (v.cqBase + BitVec.ofNat 64 (32 * v.cqTail)) (p.entry v.phase) :: s.out) ∧
    getCmd t n = none ∧
    ∃ k b r, getQp t f q = some { cqAdvance ⟨some n, c, p⟩ v with unannounced := k, timer := b, resetEnds := r } := by
  intro t
  obtain ⟨k, b, hk⟩ := coalesce_keeps p.status.isError (cqAdvance ⟨some n, c, p⟩ v)
  have ht : t = issueCpl f q ⟨some n, c, p⟩ s := rfl
  unfold issueCpl at ht
  rw [hq] at ht
  simp only at ht
  generalize hr : coalesce p.status.isError (cqAdvance ⟨some n, c, p⟩ v) = r at ht hk
  obtain ⟨v2, irq⟩ := r
  simp only at ht hk
  subst hk
  have hd : ∀ u : State, getQp u f q = some { cqAdvance ⟨some n, c, p⟩ v with unannounced := k, timer := b } →
      ∃ k b r, getQp (dropCmd n u) f q = some { cqAdvance ⟨some n, c, p⟩ v with unannounced := k, timer := b, resetEnds := r } := by
    intro u hu
    obtain ⟨g, hg⟩ := getQp_dropCmd n f q u
    exact ⟨k, b, g _, by rw [hg, hu]; rfl⟩
  cases irq with
  | false =>
    simp only [Bool.false_eq_true, if_false] at ht
    clear_value t
    subst ht
    exact ⟨⟨[], by simp, by simp⟩, getCmd_dropCmd_self .., hd _ (by simp)⟩
  | true =>
    simp only [if_true] at ht
    clear_value t
    subst ht
    refine ⟨?_, getCmd_dropCmd_self .., hd _ (by simp)⟩
    obtain ⟨l, hl, hn⟩ := sendMsix_out f v.vector
      (emit (.completion (v.cqBase + BitVec.ofNat 64 (32 * v.cqTail)) (p.entry v.phase)) (setQp f q _ s))
    exact ⟨l, hn, by rw [dropCmd_out, hl]; rfl⟩

/-- A command ends: its completion is written, its slot is free, its queue pair has moved on by one entry and is frozen if
the status is an ERROR (R65, R71, R77). -/
theorem complete_posts {s : State} {slot : Nat} {c : Cmd} {v : Qp} {p : Cmd → Cpl} {e : ErrInfo}
    (hc : getCmd s slot = some c) (hs : c.stage ≠ .held) (ht : Takes s c v) :
    let t := complete slot p e s
    (∃ l, l.length ≤ 1 ∧
      t.out = l ++ .completion (v.cqBase + BitVec.ofNat 64 (32 * v.cqTail)) ((p c).entry v.phase) :: s.out) ∧
    getCmd t slot = none ∧
    ∃ v', getQp t c.fn c.qp = some v' ∧ v'.frozen = (v.frozen || (p c).status.isError) ∧
      v'.cqTail = (v.cqTail + 1) % v.cqDepth ∧ v'.epoch = v.epoch ∧ v'.sqTail = v.sqTail ∧ v'.sqHead = v.sqHead ∧
      v'.fetchQ = v.fetchQ ∧ v'.reset = v.reset ∧ v'.cqHead = v.cqHead ∧ v'.held = [] := by
  intro t
  obtain ⟨w, hwv, h1, h2, h3, h4, h5, h6, h7, h8, h9, h10, h11, h12, hfr⟩ : ∃ w : Qp,
      t = postCpl c.fn c.qp ⟨some slot, some c, p c⟩ (setQp c.fn c.qp w s) ∧ w.held = v.held ∧ w.writeFailed = v.writeFailed ∧
      w.cqTail = v.cqTail ∧ w.cqDepth = v.cqDepth ∧ w.cqHead = v.cqHead ∧ w.cqBase = v.cqBase ∧ w.phase = v.phase ∧
      w.epoch = v.epoch ∧ w.sqTail = v.sqTail ∧ w.sqHead = v.sqHead ∧ w.fetchQ = v.fetchQ ∧ w.reset = v.reset ∧
      (w.frozen || (p c).status.isError) = (v.frozen || (p c).status.isError) := by
    have ht' : t = complete slot p e s := rfl
    unfold complete at ht'
    rw [hc] at ht'
    simp only [if_neg hs, ht.live, ht.qp, ht.epoch, Bool.false_eq_true, if_false, ne_eq, not_true_eq_false] at ht'
    by_cases he : (p c).status.isError = true
    · rw [if_pos he] at ht'
      have hl : ∀ x : ErrEntry, ∃ n l k, logError x v = { v with errSeq := n, log := l, lost := k } := fun x => logError_keeps x v
      obtain ⟨x, hx⟩ : ∃ x : ErrEntry, t = postCpl c.fn c.qp ⟨some slot, some c, p c⟩
          (setQp c.fn c.qp { logError x v with frozen := true } s) := ⟨_, ht'⟩
      obtain ⟨n, l, k, hl⟩ := hl x
      rw [hl] at hx
      exact ⟨_, hx, rfl, rfl, rfl, rfl, rfl, rfl, rfl, rfl, rfl, rfl, rfl, rfl, by simp [he]⟩
    · rw [if_neg he] at ht'
      exact ⟨_, ht', rfl, rfl, rfl, rfl, rfl, rfl, rfl, rfl, rfl, rfl, rfl, rfl, rfl⟩
  have hq : getQp (setQp c.fn c.qp w s) c.fn c.qp = some w := getQp_setQp_self ..
  have hfull : cqFull w = false := by
    have := ht.room
    unfold cqFull at this ⊢
    rw [h3, h4, h5]
    exact this
  have hp : t = issueCpl c.fn c.qp ⟨some slot, some c, p c⟩ (setQp c.fn c.qp w s) := by
    rw [hwv]
    unfold postCpl
    rw [hq]
    simp [h1, h2, ht.held, ht.writes, hfull]
  obtain ⟨⟨l, hl, ho⟩, hg, k, b, r, hv⟩ := issueCpl_posts (n := slot) (c := some c) (p := p c) hq
  rw [← hp] at ho hg hv
  refine ⟨⟨l, hl, by rw [ho, h6, h3, h7]; rfl⟩, hg, _, hv, ?_⟩
  simp only [cqAdvance, hfr, h3, h4, h5, h8, h9, h10, h11, h12, h1, ht.held, and_self]

end Sys2Proof.Machine
end

