-- ==== Sys2Proof/Laws/CtlKept.lean ====
section
/-! SUPPORT. What the data path leaves alone: TIME, the clock synthesiser, the transport, the dictionary, Staxa, flash,
the life cycle, domain resets and health. -/

namespace Sys2Proof.Machine

/-- The control side of `t` is that of `s`. -/
structure CtlKept (s t : State) : Prop where
  time : t.time = s.time
  tlcs : t.tlcs = s.tlcs
  tce : t.tce = s.tce
  dict : t.dict = s.dict
  staxa : t.staxa = s.staxa
  flash : t.flash = s.flash
  lc : t.lc = s.lc
  resets : t.resets = s.resets
  health : t.health = s.health

theorem CtlKept.refl (s : State) : CtlKept s s := ⟨rfl, rfl, rfl, rfl, rfl, rfl, rfl, rfl, rfl⟩

/-- A change of none of these fields. -/
theorem CtlKept.upd {s0 s t : State} (h : CtlKept s0 s) (h1 : t.time = s.time) (h2 : t.tlcs = s.tlcs) (h3 : t.tce = s.tce)
    (h4 : t.dict = s.dict) (h5 : t.staxa = s.staxa) (h6 : t.flash = s.flash) (h7 : t.lc = s.lc)
    (h8 : t.resets = s.resets) (h9 : t.health = s.health) : CtlKept s0 t :=
  ⟨h1.trans h.1, h2.trans h.2, h3.trans h.3, h4.trans h.4, h5.trans h.5, h6.trans h.6, h7.trans h.7, h8.trans h.8,
    h9.trans h.9⟩

theorem CtlKept.ite {s0 : State} {p : Prop} [Decidable p] {a b : State} (ha : CtlKept s0 a) (hb : CtlKept s0 b) :
    CtlKept s0 (if p then a else b) := by
  split
  · exact ha
  · exact hb

theorem CtlKept.ite_fst {α : Type} {s0 : State} {p : Prop} [Decidable p] {a b : State × α} (ha : CtlKept s0 a.1)
    (hb : CtlKept s0 b.1) : CtlKept s0 (if p then a else b).1 := by
  split
  · exact ha
  · exact hb

theorem CtlKept.ite_snd {α : Type} {s0 : State} {p : Prop} [Decidable p] {a b : α × State} (ha : CtlKept s0 a.2)
    (hb : CtlKept s0 b.2) : CtlKept s0 (if p then a else b).2 := by
  split
  · exact ha
  · exact hb

theorem CtlKept.foldl {α : Type} {s0 : State} {f : State → α → State} {l : List α} {s : State} (h : CtlKept s0 s)
    (hf : ∀ t a, CtlKept s0 t → CtlKept s0 (f t a)) : CtlKept s0 (l.foldl f s) := by
  induction l generalizing s with
  | nil => exact h
  | cons a l ih => exact ih (hf s a h)

theorem CtlKept.foldl_fst {α β : Type} {s0 : State} {f : State × β → α → State × β} {l : List α} {p : State × β}
    (h : CtlKept s0 p.1) (hf : ∀ q a, CtlKept s0 q.1 → CtlKept s0 (f q a).1) : CtlKept s0 (l.foldl f p).1 := by
  induction l generalizing p with
  | nil => exact h
  | cons a l ih => exact ih (hf p a h)

theorem CtlKept.foldl_snd {α β : Type} {s0 : State} {f : β × State → α → β × State} {l : List α} {p : β × State}
    (h : CtlKept s0 p.2) (hf : ∀ q a, CtlKept s0 q.2 → CtlKept s0 (f q a).2) : CtlKept s0 (l.foldl f p).2 := by
  induction l generalizing p with
  | nil => exact h
  | cons a l ih => exact ih (hf p a h)

end Sys2Proof.Machine
end

