-- ==== Sys2Proof/Laws/CtlKeptQueues.lean ====
section
/-! SUPPORT. Queues, events and operands leave the control side alone. -/

namespace Sys2Proof.Machine

theorem emit_ctlKept {s0 s : State} (h : CtlKept s0 s) (a0) : CtlKept s0 (emit a0 s) := by
  unfold emit
  exact (CtlKept.upd h rfl rfl rfl rfl rfl rfl rfl rfl rfl)

theorem emits_ctlKept {s0 s : State} (h : CtlKept s0 s) (a0) : CtlKept s0 (emits a0 s) := by
  unfold emits
  exact (CtlKept.upd h rfl rfl rfl rfl rfl rfl rfl rfl rfl)

theorem drew_ctlKept {s0 s : State} (h : CtlKept s0 s) : CtlKept s0 (drew s) := by
  unfold drew
  exact (CtlKept.upd h rfl rfl rfl rfl rfl rfl rfl rfl rfl)

theorem recordNumOf_ctlKept {s0 s : State} (h : CtlKept s0 s) (a0) : CtlKept s0 (recordNumOf a0 s).2 := by
  unfold recordNumOf
  split
  · exact h
  · exact drew_ctlKept h

theorem setFn_ctlKept {s0 s : State} (h : CtlKept s0 s) (a0 a1) : CtlKept s0 (setFn a0 a1 s) := by
  unfold setFn
  extract_lets -underBinder -merge y0
  exact (CtlKept.upd h rfl rfl rfl rfl rfl rfl rfl rfl rfl)

theorem updFn_ctlKept {s0 s : State} (h : CtlKept s0 s) (a0 a1) : CtlKept s0 (updFn a0 a1 s) := by
  unfold updFn
  exact (setFn_ctlKept h ..)

theorem setQp_ctlKept {s0 s : State} (h : CtlKept s0 s) (a0 a1 a2) : CtlKept s0 (setQp a0 a1 a2 s) := by
  unfold setQp
  exact (updFn_ctlKept h ..)

theorem updQp_ctlKept {s0 s : State} (h : CtlKept s0 s) (a0 a1 a2) : CtlKept s0 (updQp a0 a1 a2 s) := by
  unfold updQp
  split
  · exact (setQp_ctlKept h ..)
  · exact h

theorem sendMsix_ctlKept {s0 s : State} (h : CtlKept s0 s) (a0 a1) : CtlKept s0 (sendMsix a0 a1 s) := by
  unfold sendMsix
  extract_lets -underBinder -merge y0
  refine CtlKept.ite ?_ ?_
  · exact (updFn_ctlKept h ..)
  · exact (emit_ctlKept h ..)

theorem toHost_ctlKept {s0 s : State} (h : CtlKept s0 s) (e) : CtlKept s0 (toHost e s) := by
  unfold toHost
  extract_lets p armed ev0 t
  have ht : CtlKept s0 t := h.upd rfl rfl rfl rfl rfl rfl rfl rfl rfl
  exact CtlKept.ite (sendMsix_ctlKept ht ..) ht

theorem toMgmt_ctlKept {s0 s : State} (h : CtlKept s0 s) (e) : CtlKept s0 (toMgmt e s) :=
  h.upd rfl rfl rfl rfl rfl rfl rfl rfl rfl

theorem raise_ctlKept {s0 s : State} (h : CtlKept s0 s) (a0 a1) : CtlKept s0 (raise a0 a1 s) := by
  unfold raise
  extract_lets -underBinder -merge y0 y1 y2 y3 y4
  have hy3 : CtlKept s0 y3 := (CtlKept.upd h rfl rfl rfl rfl rfl rfl rfl rfl rfl)
  have hy4 : CtlKept s0 y4 := by
    refine CtlKept.ite ?_ ?_
    · exact (toHost_ctlKept hy3 ..)
    · exact hy3
  try clear_value y4
  try clear_value y3
  refine CtlKept.ite ?_ ?_
  · exact (toMgmt_ctlKept hy4 ..)
  · exact hy4

theorem takeEqTarget_ctlKept {s0 s : State} (h : CtlKept s0 s) : CtlKept s0 (takeEqTarget s) := by
  unfold takeEqTarget
  extract_lets -underBinder -merge y0
  exact (CtlKept.upd h rfl rfl rfl rfl rfl rfl rfl rfl rfl)

theorem raiseIf_ctlKept {s0 s : State} (h : CtlKept s0 s) (a0 a1 a2) : CtlKept s0 (raiseIf a0 a1 a2 s) := by
  unfold raiseIf
  refine CtlKept.ite ?_ ?_
  · exact (raise_ctlKept h ..)
  · exact h

theorem setCmd_ctlKept {s0 s : State} (h : CtlKept s0 s) (a0 a1) : CtlKept s0 (setCmd a0 a1 s) := by
  unfold setCmd
  extract_lets -underBinder -merge y0
  exact (CtlKept.upd h rfl rfl rfl rfl rfl rfl rfl rfl rfl)

theorem updCmd_ctlKept {s0 s : State} (h : CtlKept s0 s) (a0 a1) : CtlKept s0 (updCmd a0 a1 s) := by
  unfold updCmd
  split
  · exact (setCmd_ctlKept h ..)
  · exact h

theorem setStage_ctlKept {s0 s : State} (h : CtlKept s0 s) (a0 a1) : CtlKept s0 (setStage a0 a1 s) := by
  unfold setStage
  exact (updCmd_ctlKept h ..)

theorem shutdownCheck_ctlKept {s0 s : State} (h : CtlKept s0 s) (a0) : CtlKept s0 (shutdownCheck a0 s) := by
  unfold shutdownCheck
  extract_lets -underBinder -merge y0
  refine CtlKept.ite ?_ ?_
  · exact (updFn_ctlKept h ..)
  · exact h

theorem updStream_ctlKept {s0 s : State} (h : CtlKept s0 s) (a0 a1) : CtlKept s0 (updStream a0 a1 s) := by
  unfold updStream
  exact (CtlKept.upd h rfl rfl rfl rfl rfl rfl rfl rfl rfl)

theorem updKey_ctlKept {s0 s : State} (h : CtlKept s0 s) (a0 a1) : CtlKept s0 (updKey a0 a1 s) := by
  unfold updKey
  extract_lets -underBinder -merge y0
  exact (CtlKept.upd h rfl rfl rfl rfl rfl rfl rfl rfl rfl)

theorem bindKey_ctlKept {s0 s : State} (h : CtlKept s0 s) (a0) : CtlKept s0 (bindKey a0 s) := by
  unfold bindKey
  exact (updKey_ctlKept h ..)

theorem unbindKey_ctlKept {s0 s : State} (h : CtlKept s0 s) (a0) : CtlKept s0 (unbindKey a0 s) := by
  unfold unbindKey
  exact (updKey_ctlKept h ..)

theorem enterCart_ctlKept {s0 s : State} (h : CtlKept s0 s) (a0) : CtlKept s0 (enterCart a0 s) := by
  unfold enterCart
  extract_lets -underBinder -merge y0 y1 y2
  refine CtlKept.ite ?_ ?_
  · exact (CtlKept.upd h rfl rfl rfl rfl rfl rfl rfl rfl rfl)
  · refine CtlKept.ite ?_ ?_
    · exact (CtlKept.upd h rfl rfl rfl rfl rfl rfl rfl rfl rfl)
    · exact (CtlKept.upd h rfl rfl rfl rfl rfl rfl rfl rfl rfl)

theorem endFormat_ctlKept {s0 s : State} (h : CtlKept s0 s) (a0) : CtlKept s0 (endFormat a0 s) := by
  unfold endFormat
  extract_lets -underBinder -merge y0 y1 y2
  have hy2 : CtlKept s0 y2 := (CtlKept.upd h rfl rfl rfl rfl rfl rfl rfl rfl rfl)
  try clear_value y2
  split
  · exact hy2
  · refine CtlKept.ite ?_ ?_
    · exact (enterCart_ctlKept hy2 ..)
    · exact hy2
  · refine CtlKept.ite ?_ ?_
    · exact (enterCart_ctlKept hy2 ..)
    · exact hy2

theorem PostAct.apply_ctlKept {s0 s : State} (h : CtlKept s0 s) (a0) : CtlKept s0 (PostAct.apply a0 s) := by
  unfold PostAct.apply
  split
  · refine CtlKept.ite ?_ ?_
    · exact (enterCart_ctlKept h ..)
    · exact h
  · exact (endFormat_ctlKept h ..)
  · refine updStream_ctlKept ?_ ..
    exact (CtlKept.upd h rfl rfl rfl rfl rfl rfl rfl rfl rfl)
  · extract_lets -underBinder -merge y0
    exact (CtlKept.upd h rfl rfl rfl rfl rfl rfl rfl rfl rfl)
  · exact (updQp_ctlKept h ..)
  · exact (updStream_ctlKept h ..)
  · extract_lets -underBinder -merge y1 y2
    have hy2 : CtlKept s0 y2 := (updStream_ctlKept h ..)
    try clear_value y2
    split
    · refine CtlKept.ite ?_ ?_
      · exact (unbindKey_ctlKept hy2 ..)
      · exact hy2
    · exact hy2

theorem onPost_ctlKept {s0 s : State} (h : CtlKept s0 s) (a0 a1) : CtlKept s0 (onPost a0 a1 s) := by
  unfold onPost
  exact (updCmd_ctlKept h ..)

theorem retireMarks_ctlKept {s0 s : State} (h : CtlKept s0 s) (a0) : CtlKept s0 (retireMarks a0 s) := by
  unfold retireMarks
  extract_lets -underBinder -merge y0 y1 y2
  exact (CtlKept.upd h rfl rfl rfl rfl rfl rfl rfl rfl rfl)

theorem retireOwn_ctlKept {s0 s : State} (h : CtlKept s0 s) (a0) : CtlKept s0 (retireOwn a0 s) := by
  unfold retireOwn
  refine CtlKept.ite ?_ ?_
  · exact (updStream_ctlKept h ..)
  · exact h

theorem dropCmd_ctlKept {s0 s : State} (h : CtlKept s0 s) (a0) : CtlKept s0 (dropCmd a0 s) := by
  unfold dropCmd
  split
  · exact h
  · extract_lets -underBinder -merge y0 y1
    have hy1 : CtlKept s0 y1 := by
      refine CtlKept.foldl ?_ (fun y2 a hy2 => ?_)
      · exact (CtlKept.upd h rfl rfl rfl rfl rfl rfl rfl rfl rfl)
      · beta_reduce
        exact (PostAct.apply_ctlKept hy2 ..)
    try clear_value y1
    refine shutdownCheck_ctlKept ?_ ..
    refine CtlKept.ite ?_ ?_
    · exact (retireOwn_ctlKept hy1 ..)
    · exact hy1

theorem agentTag_ctlKept {s0 s : State} (h : CtlKept s0 s) (a0) : CtlKept s0 (agentTag a0 s).2 := by
  unfold agentTag
  extract_lets -underBinder -merge y0
  exact (CtlKept.upd h rfl rfl rfl rfl rfl rfl rfl rfl rfl)

theorem retag_ctlKept {s0 s : State} (h : CtlKept s0 s) (a0 a1) : CtlKept s0 (retag a0 a1 s) := by
  unfold retag
  refine CtlKept.ite ?_ ?_
  · exact h
  · exact (updCmd_ctlKept h ..)

theorem issueCpl_ctlKept {s0 s : State} (h : CtlKept s0 s) (a0 a1 a2) : CtlKept s0 (issueCpl a0 a1 a2 s) := by
  unfold issueCpl
  split
  · exact h
  · extract_lets -underBinder -merge y0 y1
    split
    · extract_lets -underBinder -merge y2 y3
      have hy2 : CtlKept s0 y2 := (emit_ctlKept (setQp_ctlKept h ..) ..)
      have hy3 : CtlKept s0 y3 := by
        refine CtlKept.ite ?_ ?_
        · exact (sendMsix_ctlKept hy2 ..)
        · exact hy2
      try clear_value y3
      try clear_value y2
      split
      · exact (dropCmd_ctlKept hy3 ..)
      · exact hy3

theorem drainHeld_ctlKept {s0 s : State} (h : CtlKept s0 s) (f q n) : CtlKept s0 (drainHeld f q n s) := by
  induction n generalizing s with
  | zero => exact h
  | succ n ih =>
    unfold drainHeld
    split
    · exact h
    · split
      · exact h
      · refine CtlKept.ite h ?_
        exact ih (issueCpl_ctlKept (setQp_ctlKept h ..) ..)

theorem postCpl_ctlKept {s0 s : State} (h : CtlKept s0 s) (a0 a1 a2) : CtlKept s0 (postCpl a0 a1 a2 s) := by
  unfold postCpl
  split
  · exact h
  · extract_lets -underBinder -merge y0
    have hy0 : CtlKept s0 y0 := (setQp_ctlKept h ..)
    try clear_value y0
    refine CtlKept.ite ?_ ?_
    · exact (issueCpl_ctlKept h ..)
    · split
      · exact (setStage_ctlKept hy0 ..)
      · exact hy0

theorem complete_ctlKept {s0 s : State} (h : CtlKept s0 s) (a0 a1 a2) : CtlKept s0 (complete a0 a1 a2 s) := by
  unfold complete
  split
  · exact h
  · refine CtlKept.ite ?_ ?_
    · exact h
    · refine CtlKept.ite ?_ ?_
      · exact (dropCmd_ctlKept h ..)
      · split
        · exact (dropCmd_ctlKept h ..)
        · extract_lets -underBinder -merge y0 y1 y2
          refine CtlKept.ite ?_ ?_
          · exact (dropCmd_ctlKept h ..)
          · exact (postCpl_ctlKept (setQp_ctlKept h ..) ..)

theorem toHostMem_ctlKept {s0 s : State} (h : CtlKept s0 s) (a0 a1 a2) : CtlKept s0 (toHostMem a0 a1 a2 s) := by
  unfold toHostMem
  split
  · exact h
  · refine CtlKept.ite ?_ ?_
    · exact h
    · exact (emit_ctlKept h ..)

theorem finish_ctlKept {s0 s : State} (h : CtlKept s0 s) (a0 a1 a2) : CtlKept s0 (finish a0 a1 a2 s) := by
  unfold finish
  exact (complete_ctlKept h ..)

theorem finishWith_ctlKept {s0 s : State} (h : CtlKept s0 s) (a0 a1 a2 a3) : CtlKept s0 (finishWith a0 a1 a2 a3 s) := by
  unfold finishWith
  exact (complete_ctlKept h ..)

theorem noteInfo_ctlKept {s0 s : State} (h : CtlKept s0 s) (a0 a1) : CtlKept s0 (noteInfo a0 a1 s) := by
  unfold noteInfo
  exact (updCmd_ctlKept h ..)

theorem fetchMarks_ctlKept {s0 s : State} (h : CtlKept s0 s) (a0 a1 a2) : CtlKept s0 (fetchMarks a0 a1 a2 s) := by
  unfold fetchMarks
  extract_lets -underBinder -merge y0 y1 y2 y3 y4 y5
  have hy5 : CtlKept s0 y5 := (updStream_ctlKept h ..)
  try clear_value y5
  refine CtlKept.ite ?_ ?_
  · exact (updQp_ctlKept h ..)
  · refine CtlKept.ite ?_ ?_
    · exact (updKey_ctlKept h ..)
    · refine CtlKept.ite ?_ ?_
      · exact (CtlKept.upd h rfl rfl rfl rfl rfl rfl rfl rfl rfl)
      · refine CtlKept.ite ?_ ?_
        · exact (CtlKept.upd h rfl rfl rfl rfl rfl rfl rfl rfl rfl)
        · refine CtlKept.ite ?_ ?_
          · exact (CtlKept.upd h rfl rfl rfl rfl rfl rfl rfl rfl rfl)
          · refine CtlKept.ite ?_ ?_
            · exact (CtlKept.upd h rfl rfl rfl rfl rfl rfl rfl rfl rfl)
            · refine CtlKept.ite ?_ ?_
              · exact (CtlKept.upd h rfl rfl rfl rfl rfl rfl rfl rfl rfl)
              · refine CtlKept.ite ?_ ?_
                · refine CtlKept.ite ?_ ?_
                  · exact (bindKey_ctlKept hy5 ..)
                  · exact hy5
                · refine CtlKept.ite ?_ ?_
                  · exact (updStream_ctlKept h ..)
                  · exact h

theorem fetchOne_ctlKept {s0 s : State} (h : CtlKept s0 s) (a0 a1 a2 a3 a4) : CtlKept s0 (fetchOne a0 a1 a2 a3 a4 s) := by
  unfold fetchOne
  extract_lets -underBinder -merge y0 y1 y2
  have hy2 : CtlKept s0 y2 := by
    refine CtlKept.ite ?_ ?_
    · exact (fetchMarks_ctlKept h ..)
    · exact h
  try clear_value y2
  exact (updQp_ctlKept hy2 ..)

theorem onCmd_ctlKept {s0 s : State} (h : CtlKept s0 s) (slot ops) {f : Cmd → State → State}
    (hf : ∀ c t, CtlKept s0 t → CtlKept s0 (f c t)) : CtlKept s0 (onCmd slot ops f s) := by
  unfold onCmd
  split
  · exact h
  · refine CtlKept.ite ?_ h
    split
    · exact finish_ctlKept h ..
    · exact CtlKept.ite h (hf _ _ h)

end Sys2Proof.Machine
end

