-- ==== Sys2Proof/Laws/CtlKeptData.lean ====
section
/-! SUPPORT. The data path leaves the control side alone. -/

namespace Sys2Proof.Machine

theorem updPool_ctlKept {s0 s : State} (h : CtlKept s0 s) (a0 a1) : CtlKept s0 (updPool a0 a1 s) := by
  unfold updPool
  extract_lets -underBinder -merge y0
  exact (CtlKept.upd h rfl rfl rfl rfl rfl rfl rfl rfl rfl)

theorem throttle_ctlKept {s0 s : State} (h : CtlKept s0 s) : CtlKept s0 (throttle s) := by
  unfold throttle
  extract_lets -underBinder -merge y0
  exact (CtlKept.upd h rfl rfl rfl rfl rfl rfl rfl rfl rfl)

theorem updAbove_ctlKept {s0 s : State} (h : CtlKept s0 s) : CtlKept s0 (updAbove s) := by
  unfold updAbove
  extract_lets -underBinder -merge y0 y1
  refine CtlKept.ite ?_ ?_
  · refine CtlKept.ite ?_ ?_
    · exact h
    · refine throttle_ctlKept ?_ ..
      exact (CtlKept.upd h rfl rfl rfl rfl rfl rfl rfl rfl rfl)
  · refine CtlKept.ite ?_ ?_
    · exact (CtlKept.upd h rfl rfl rfl rfl rfl rfl rfl rfl rfl)
    · exact h

theorem takeBuf_ctlKept {s0 s : State} (h : CtlKept s0 s) (a0 a1) : CtlKept s0 (takeBuf a0 a1 s).1 := by
  unfold takeBuf
  extract_lets -underBinder -merge y0 y1 y2 y3 y4
  have hy3 : CtlKept s0 y3 := (CtlKept.upd h rfl rfl rfl rfl rfl rfl rfl rfl rfl)
  have hy4 : CtlKept s0 y4 := (updPool_ctlKept hy3 ..)
  try clear_value y4
  try clear_value y3
  exact (updAbove_ctlKept hy4 ..)

theorem answer_ctlKept {s0 s : State} (h : CtlKept s0 s) (a0 a1 a2 a3) : CtlKept s0 (answer a0 a1 a2 a3 s) := by
  unfold answer
  extract_lets -underBinder -merge y0
  exact (CtlKept.upd h rfl rfl rfl rfl rfl rfl rfl rfl rfl)

theorem holdReq_ctlKept {s0 s : State} (h : CtlKept s0 s) (a0 a1 a2 a3) : CtlKept s0 (holdReq a0 a1 a2 a3 s).1 := by
  unfold holdReq
  extract_lets -underBinder -merge y0 y1 y2 y3 y4
  have hy2 : CtlKept s0 y2 := (CtlKept.upd h rfl rfl rfl rfl rfl rfl rfl rfl rfl)
  have hy3 : CtlKept s0 y3 := (answer_ctlKept hy2 ..)
  try clear_value y3
  try clear_value y2
  refine CtlKept.ite_fst ?_ ?_
  · dsimp -zeta only
    refine raise_ctlKept ?_ ..
    exact (CtlKept.upd hy3 rfl rfl rfl rfl rfl rfl rfl rfl rfl)
  · exact hy3

theorem askBuf_ctlKept {s0 s : State} (h : CtlKept s0 s) (a0 a1 a2) : CtlKept s0 (askBuf a0 a1 a2 s).1 := by
  unfold askBuf
  split
  · extract_lets -underBinder -merge y0
    have hy0 : CtlKept s0 y0.1 := (takeBuf_ctlKept h ..)
    try clear_value y0
    exact (retag_ctlKept (answer_ctlKept hy0 ..) ..)
  · extract_lets -underBinder -merge y1
    have hy1 : CtlKept s0 y1.1 := (holdReq_ctlKept h ..)
    try clear_value y1
    exact hy1

theorem quarantine_ctlKept {s0 s : State} (h : CtlKept s0 s) (a0 a1) : CtlKept s0 (quarantine a0 a1 s) := by
  unfold quarantine
  extract_lets -underBinder -merge y0
  have hy0 : CtlKept s0 y0 := (updPool_ctlKept h ..)
  try clear_value y0
  exact (raise_ctlKept (updPool_ctlKept hy0 ..) ..)

theorem returnBuf_ctlKept {s0 s : State} (h : CtlKept s0 s) (a0) : CtlKept s0 (returnBuf a0 s) := by
  unfold returnBuf
  extract_lets -underBinder -merge y0 y1 y2
  have hy1 : CtlKept s0 y1 := (CtlKept.upd h rfl rfl rfl rfl rfl rfl rfl rfl rfl)
  have hy2 : CtlKept s0 y2 := by
    refine CtlKept.ite ?_ ?_
    · exact (quarantine_ctlKept hy1 ..)
    · exact hy1
  try clear_value y2
  try clear_value y1
  exact (updAbove_ctlKept hy2 ..)

theorem dropRef_ctlKept {s0 s : State} (h : CtlKept s0 s) (a0) : CtlKept s0 (dropRef a0 s) := by
  unfold dropRef
  split
  · exact h
  · extract_lets -underBinder -merge y0
    refine CtlKept.ite ?_ ?_
    · exact h
    · refine CtlKept.ite ?_ ?_
      · exact (returnBuf_ctlKept h ..)
      · exact (CtlKept.upd h rfl rfl rfl rfl rfl rfl rfl rfl rfl)

theorem misuse_ctlKept {s0 s : State} (h : CtlKept s0 s) (a0 a1 a2 a3 a4) : CtlKept s0 (misuse a0 a1 a2 a3 a4 s) := by
  unfold misuse
  extract_lets -underBinder -merge y0
  exact (raise_ctlKept (answer_ctlKept h ..) ..)

theorem addRef_ctlKept {s0 s : State} (h : CtlKept s0 s) (a0) : CtlKept s0 (addRef a0 s) := by
  unfold addRef
  split
  · exact h
  · extract_lets -underBinder -merge y0 y1
    refine CtlKept.ite ?_ ?_
    · refine raise_ctlKept ?_ ..
      exact (CtlKept.upd h rfl rfl rfl rfl rfl rfl rfl rfl rfl)
    · exact (CtlKept.upd h rfl rfl rfl rfl rfl rfl rfl rfl rfl)

theorem freeReq_ctlKept {s0 s : State} (h : CtlKept s0 s) (a0 a1 a2) : CtlKept s0 (freeReq a0 a1 a2 s) := by
  unfold freeReq
  split
  · exact (misuse_ctlKept h ..)
  · refine CtlKept.ite ?_ ?_
    · exact (misuse_ctlKept h ..)
    · exact (dropRef_ctlKept (answer_ctlKept h ..) ..)

theorem refReq_ctlKept {s0 s : State} (h : CtlKept s0 s) (a0 a1 a2) : CtlKept s0 (refReq a0 a1 a2 s) := by
  unfold refReq
  split
  · exact (misuse_ctlKept h ..)
  · refine CtlKept.ite ?_ ?_
    · exact (misuse_ctlKept h ..)
    · exact (addRef_ctlKept (answer_ctlKept h ..) ..)

theorem giveReq_ctlKept {s0 s : State} (h : CtlKept s0 s) (a0 a1 a2 a3) : CtlKept s0 (giveReq a0 a1 a2 a3 s) := by
  unfold giveReq
  split
  · exact (misuse_ctlKept h ..)
  · extract_lets -underBinder -merge y0
    refine CtlKept.ite ?_ ?_
    · exact (misuse_ctlKept h ..)
    · refine retag_ctlKept ?_ ..
      refine answer_ctlKept ?_ ..
      exact (CtlKept.upd h rfl rfl rfl rfl rfl rfl rfl rfl rfl)

theorem freeOwn_ctlKept {s0 s : State} (h : CtlKept s0 s) (a0 a1 a2) : CtlKept s0 (freeOwn a0 a1 a2 s) := by
  unfold freeOwn
  split
  · refine CtlKept.ite ?_ ?_
    · exact (freeReq_ctlKept h ..)
    · exact h
  · exact h

theorem giveOwn_ctlKept {s0 s : State} (h : CtlKept s0 s) (a0 a1 a2 a3) : CtlKept s0 (giveOwn a0 a1 a2 a3 s) := by
  unfold giveOwn
  split
  · refine CtlKept.ite ?_ ?_
    · exact (giveReq_ctlKept h ..)
    · exact h
  · exact h

theorem refOwn_ctlKept {s0 s : State} (h : CtlKept s0 s) (a0 a1 a2) : CtlKept s0 (refOwn a0 a1 a2 s) := by
  unfold refOwn
  split
  · refine CtlKept.ite ?_ ?_
    · exact (refReq_ctlKept h ..)
    · exact h
  · exact h

theorem freeHeld_ctlKept {s0 s : State} (h : CtlKept s0 s) (a0 a1) : CtlKept s0 (freeHeld a0 a1 s) := by
  unfold freeHeld
  split
  · exact (freeReq_ctlKept h ..)
  · exact h

theorem freeOpt_ctlKept {s0 s : State} (h : CtlKept s0 s) (a0 a1) : CtlKept s0 (freeOpt a0 a1 s) := by
  unfold freeOpt
  split
  · exact (freeHeld_ctlKept h ..)
  · exact h

theorem BufReq.run_ctlKept {s0 s : State} (h : CtlKept s0 s) (a0) : CtlKept s0 (BufReq.run a0 s) := by
  unfold BufReq.run
  split
  · exact (refReq_ctlKept h ..)
  · exact (giveReq_ctlKept h ..)
  · exact (freeReq_ctlKept h ..)

theorem grantHeld_ctlKept {s0 s : State} (h : CtlKept s0 s) : ∀ r, grantHeld s = some r → CtlKept s0 r.1 := by
  intro r e
  unfold grantHeld at e
  split at e
  · cases e
  · split at e
    rename_i t id heq
    have ht : CtlKept s0 (t, id).1 := by
      have q : ∀ a b, CtlKept s0 (takeBuf a b s).1 := takeBuf_ctlKept h
      have q' := congrArg Prod.fst heq
      exact q' ▸ q _ _
    cases e
    refine retag_ctlKept (answer_ctlKept ?_ ..) ..
    exact CtlKept.upd ht rfl rfl rfl rfl rfl rfl rfl rfl rfl

theorem quarantineFree_ctlKept {s0 s : State} (h : CtlKept s0 s) (a0) : CtlKept s0 (quarantineFree a0 s) := by
  unfold quarantineFree
  refine CtlKept.foldl ?_ (fun y0 a hy0 => ?_)
  · exact h
  · beta_reduce
    refine CtlKept.ite ?_ ?_
    · exact (quarantine_ctlKept hy0 ..)
    · exact hy0

theorem listRow_ctlKept {s0 s : State} (h : CtlKept s0 s) (a0) : CtlKept s0 (listRow a0 s) := by
  unfold listRow
  extract_lets -underBinder -merge y0 y1
  have hy1 : CtlKept s0 y1 := (CtlKept.upd h rfl rfl rfl rfl rfl rfl rfl rfl rfl)
  try clear_value y1
  refine CtlKept.ite ?_ ?_
  · exact h
  · exact (quarantineFree_ctlKept hy1 ..)

theorem countCe_ctlKept {s0 s : State} (h : CtlKept s0 s) : CtlKept s0 (countCe s) := by
  unfold countCe
  extract_lets -underBinder -merge y0 y1 y2 y3 y4
  have hy4 : CtlKept s0 y4 := (CtlKept.upd h rfl rfl rfl rfl rfl rfl rfl rfl rfl)
  try clear_value y4
  exact (raiseIf_ctlKept hy4 ..)

theorem corrected_ctlKept {s0 s : State} (h : CtlKept s0 s) (a0) : CtlKept s0 (corrected a0 s) := by
  unfold corrected
  extract_lets -underBinder -merge y0 y1 y2 y3 y4
  have hy1 : CtlKept s0 y1 := (countCe_ctlKept h ..)
  have hy4 : CtlKept s0 y4 := (CtlKept.upd hy1 rfl rfl rfl rfl rfl rfl rfl rfl rfl)
  try clear_value y4
  try clear_value y1
  refine CtlKept.ite ?_ ?_
  · exact (listRow_ctlKept hy4 ..)
  · exact hy4

theorem uncorrected_ctlKept {s0 s : State} (h : CtlKept s0 s) (a0) : CtlKept s0 (uncorrected a0 s) := by
  unfold uncorrected
  extract_lets -underBinder -merge y0 y1
  have hy1 : CtlKept s0 y1 := (CtlKept.upd h rfl rfl rfl rfl rfl rfl rfl rfl rfl)
  try clear_value y1
  exact (listRow_ctlKept (raise_ctlKept hy1 ..) ..)

theorem eccReads_ctlKept {s0 s : State} (h : CtlKept s0 s) (a0) : CtlKept s0 (eccReads a0 s) := by
  unfold eccReads
  exact CtlKept.foldl h fun _ _ ht => CtlKept.ite (uncorrected_ctlKept ht ..) (corrected_ctlKept ht ..)

theorem dropOwners_ctlKept {s0 s : State} (h : CtlKept s0 s) (a0) : CtlKept s0 (dropOwners a0 s) := by
  unfold dropOwners
  extract_lets -underBinder -merge y0 y1 y2
  have hy2 : CtlKept s0 y2 := (CtlKept.upd h rfl rfl rfl rfl rfl rfl rfl rfl rfl)
  try clear_value y2
  refine CtlKept.foldl ?_ (fun y3 a hy3 => ?_)
  · exact hy2
  · beta_reduce
    refine CtlKept.foldl ?_ (fun y4 a hy4 => ?_)
    · exact hy3
    · beta_reduce
      exact (dropRef_ctlKept hy4 ..)

theorem setJob_ctlKept {s0 s : State} (h : CtlKept s0 s) (a0 a1) : CtlKept s0 (setJob a0 a1 s) := by
  unfold setJob
  exact (setStage_ctlKept h ..)

theorem setBlk_ctlKept {s0 s : State} (h : CtlKept s0 s) (a0 a1) : CtlKept s0 (setBlk a0 a1 s) := by
  unfold setBlk
  extract_lets -underBinder -merge y0
  exact (CtlKept.upd h rfl rfl rfl rfl rfl rfl rfl rfl rfl)

theorem updBlk_ctlKept {s0 s : State} (h : CtlKept s0 s) (a0 a1) : CtlKept s0 (updBlk a0 a1 s) := by
  unfold updBlk
  extract_lets -underBinder -merge y0
  exact (CtlKept.upd h rfl rfl rfl rfl rfl rfl rfl rfl rfl)

theorem setEngine_ctlKept {s0 s : State} (h : CtlKept s0 s) (a0 a1) : CtlKept s0 (setEngine a0 a1 s) := by
  unfold setEngine
  extract_lets -underBinder -merge y0
  exact (CtlKept.upd h rfl rfl rfl rfl rfl rfl rfl rfl rfl)

theorem saveLane_ctlKept {s0 s : State} (h : CtlKept s0 s) (a0) : CtlKept s0 (saveLane a0 s) := by
  unfold saveLane
  extract_lets -underBinder -merge y0
  split
  · exact h
  · extract_lets -underBinder -merge y1
    refine setEngine_ctlKept ?_ ..
    exact (CtlKept.upd h rfl rfl rfl rfl rfl rfl rfl rfl rfl)

theorem putOnEngine_ctlKept {s0 s : State} (h : CtlKept s0 s) (a0 a1) : CtlKept s0 (putOnEngine a0 a1 s) := by
  unfold putOnEngine
  extract_lets -underBinder -merge y0 y1 y2 y3
  have hy1 : CtlKept s0 y1 := (updStream_ctlKept h ..)
  have hy3 : CtlKept s0 y3 := (setBlk_ctlKept hy1 ..)
  try clear_value y3
  try clear_value y1
  exact (setEngine_ctlKept hy3 ..)

theorem dispatch_ctlKept {s0 s : State} (h : CtlKept s0 s) (a0) : CtlKept s0 (dispatch a0 s) := by
  unfold dispatch
  extract_lets -underBinder -merge y0
  split
  · exact h
  · refine CtlKept.ite ?_ ?_
    · exact h
    · refine CtlKept.ite ?_ ?_
      · exact (saveLane_ctlKept h ..)
      · refine CtlKept.ite ?_ ?_
        · exact h
        · split
          · exact (putOnEngine_ctlKept h ..)
          · exact h

theorem dispatchAll_ctlKept {s0 s : State} (h : CtlKept s0 s) : CtlKept s0 (dispatchAll s) := by
  unfold dispatchAll
  refine CtlKept.foldl ?_ (fun y0 a hy0 => ?_)
  · exact h
  · beta_reduce
    exact (dispatch_ctlKept hy0 ..)

theorem cutBlock_ctlKept {s0 s : State} (h : CtlKept s0 s) (a0) : CtlKept s0 (cutBlock a0 s) := by
  unfold cutBlock
  split
  · exact h
  · split
    · exact h
    · extract_lets -underBinder -merge y0 y1 y2 y3 y4 y5
      have hy5 : CtlKept s0 y5 := (CtlKept.upd h rfl rfl rfl rfl rfl rfl rfl rfl rfl)
      try clear_value y5
      refine CtlKept.ite ?_ ?_
      · exact h
      · refine dispatchAll_ctlKept ?_ ..
        exact (CtlKept.upd hy5 rfl rfl rfl rfl rfl rfl rfl rfl rfl)

theorem lessLeft_ctlKept {s0 s : State} (h : CtlKept s0 s) (a0 a1) : CtlKept s0 (lessLeft a0 a1 s) := by
  unfold lessLeft
  extract_lets -underBinder -merge y0 y1 y2
  refine CtlKept.ite ?_ ?_
  · exact (CtlKept.upd h rfl rfl rfl rfl rfl rfl rfl rfl rfl)
  · exact (CtlKept.upd h rfl rfl rfl rfl rfl rfl rfl rfl rfl)

theorem freeIntake_ctlKept {s0 s : State} (h : CtlKept s0 s) (a0 a1) : CtlKept s0 (freeIntake a0 a1 s) := by
  unfold freeIntake
  refine CtlKept.foldl ?_ (fun y0 a hy0 => ?_)
  · exact h
  · beta_reduce
    extract_lets -underBinder -merge y1
    have hy1 : CtlKept s0 y1 := (lessLeft_ctlKept hy0 ..)
    try clear_value y1
    refine CtlKept.ite ?_ ?_
    · exact (freeHeld_ctlKept hy1 ..)
    · exact hy1

theorem giveIntake_ctlKept {s0 s : State} (h : CtlKept s0 s) (a0 a1) : CtlKept s0 (giveIntake a0 a1 s) := by
  unfold giveIntake
  refine CtlKept.foldl ?_ (fun y0 a hy0 => ?_)
  · exact h
  · beta_reduce
    exact (giveOwn_ctlKept hy0 ..)

theorem closeRecords_ctlKept {s0 s : State} (h : CtlKept s0 s) (a0 a1) : CtlKept s0 (closeRecords a0 a1 s) := by
  unfold closeRecords
  exact (updStream_ctlKept h ..)

theorem runSettled_ctlKept {s0 s : State} (h : CtlKept s0 s) (a0) : CtlKept s0 (runSettled a0 s) := by
  unfold runSettled
  exact (updStream_ctlKept h ..)

theorem finishWrite_ctlKept {s0 s : State} (h : CtlKept s0 s) (a0 a1 a2) : CtlKept s0 (finishWrite a0 a1 a2 s) := by
  unfold finishWrite
  split
  · exact h
  · split
    · extract_lets -underBinder -merge y0 y1 y2 y3 y4 y5 y6 y7 y8
      have hy4 : CtlKept s0 y4 := by
        refine CtlKept.ite ?_ ?_
        · exact (runSettled_ctlKept h ..)
        · exact h
      have hy6 : CtlKept s0 y6 := by
        refine CtlKept.ite ?_ ?_
        · exact (noteInfo_ctlKept hy4 ..)
        · exact hy4
      have hy7 : CtlKept s0 y7.2 := (recordNumOf_ctlKept hy6 ..)
      have hy8 : CtlKept s0 y8.2 := by
        refine CtlKept.ite_snd ?_ ?_
        · exact hy7
        · clear_value y5
          split
          · exact hy7
          · exact (drew_ctlKept hy7 ..)
      try clear_value y8
      try clear_value y7
      try clear_value y6
      try clear_value y4
      exact (complete_ctlKept hy8 ..)
    · exact h

theorem dropRun_ctlKept {s0 s : State} (h : CtlKept s0 s) (a0 a1) : CtlKept s0 (dropRun a0 a1 s) := by
  unfold dropRun
  exact (updStream_ctlKept h ..)

theorem stopWrite_ctlKept {s0 s : State} (h : CtlKept s0 s) (a0 a1 a2) : CtlKept s0 (stopWrite a0 a1 a2 s) := by
  unfold stopWrite
  split
  · exact h
  · split
    · extract_lets -underBinder -merge y0 y1 y2 y3
      have hy1 : CtlKept s0 y1 := by
        refine CtlKept.ite ?_ ?_
        · split
          · exact h
          · extract_lets -underBinder -merge y4 y5 y6 y7 y8
            exact (closeRecords_ctlKept (updStream_ctlKept h ..) ..)
        · exact h
      have hy2 : CtlKept s0 y2 := (freeIntake_ctlKept (dropRun_ctlKept hy1 ..) ..)
      have hy3 : CtlKept s0 y3 := (finishWrite_ctlKept (setJob_ctlKept hy2 ..) ..)
      try clear_value y3
      try clear_value y2
      try clear_value y1
      exact hy3
    · exact h

theorem checkWrite_ctlKept {s0 s : State} (h : CtlKept s0 s) (a0) : CtlKept s0 (checkWrite a0 s) := by
  unfold checkWrite
  split
  · exact h
  · split
    · refine CtlKept.ite ?_ ?_
      · exact h
      · refine CtlKept.ite ?_ ?_
        · exact h
        · exact (finishWrite_ctlKept h ..)
    · exact h

theorem checkWrites_ctlKept {s0 s : State} (h : CtlKept s0 s) : CtlKept s0 (checkWrites s) := by
  unfold checkWrites
  refine CtlKept.foldl ?_ (fun y0 a hy0 => ?_)
  · exact h
  · beta_reduce
    exact (checkWrite_ctlKept hy0 ..)

theorem endRun_ctlKept {s0 s : State} (h : CtlKept s0 s) (a0 a1 a2 a3) : CtlKept s0 (endRun a0 a1 a2 a3 s) := by
  unfold endRun
  extract_lets -underBinder -merge y0
  have hy0 : CtlKept s0 y0 := (freeIntake_ctlKept (dropRun_ctlKept h ..) ..)
  try clear_value y0
  refine CtlKept.ite ?_ ?_
  · exact (dropCmd_ctlKept hy0 ..)
  · exact (setJob_ctlKept hy0 ..)

/-- `CtlKept` for an action of the packer. -/
def PackedCtlKept (s0 : State) : Packed → Prop
  | .idle => True
  | .again t => CtlKept s0 t

theorem PackedCtlKept.ite {s0 : State} {p : Prop} [Decidable p] {a b : Packed} (ha : PackedCtlKept s0 a) (hb : PackedCtlKept s0 b) :
    PackedCtlKept s0 (if p then a else b) := by
  split
  · exact ha
  · exact hb

theorem PackedCtlKept.again {s0 t : State} (h : CtlKept s0 t) : PackedCtlKept s0 (.again t) := h

theorem packAct_ctlKept {s0 s : State} (h : CtlKept s0 s) (n : Nat) : PackedCtlKept s0 (packAct n s) := by
  unfold packAct
  split
  · trivial
  split
  · trivial
  split
  · exact PackedCtlKept.again (dropRun_ctlKept h ..)
  refine PackedCtlKept.ite (PackedCtlKept.again (endRun_ctlKept h ..)) ?_
  extract_lets -underBinder -merge
  refine PackedCtlKept.ite (PackedCtlKept.again (cutBlock_ctlKept (updStream_ctlKept h ..) ..)) ?_
  refine PackedCtlKept.ite (PackedCtlKept.again (cutBlock_ctlKept h ..)) ?_
  refine PackedCtlKept.ite (PackedCtlKept.ite (PackedCtlKept.again (updStream_ctlKept h ..))
    (PackedCtlKept.again (cutBlock_ctlKept (updStream_ctlKept h ..) ..))) ?_
  refine PackedCtlKept.ite trivial ?_
  refine PackedCtlKept.ite (PackedCtlKept.again (cutBlock_ctlKept h ..)) ?_
  refine PackedCtlKept.ite (PackedCtlKept.again (cutBlock_ctlKept h ..)) ?_
  refine PackedCtlKept.ite (PackedCtlKept.again (endRun_ctlKept (closeRecords_ctlKept (updStream_ctlKept h ..) ..) ..)) ?_
  refine PackedCtlKept.ite (PackedCtlKept.again (raise_ctlKept (stopWrite_ctlKept h ..) ..)) ?_
  refine PackedCtlKept.ite (PackedCtlKept.again (CtlKept.ite ?_ (stopWrite_ctlKept (setJob_ctlKept h ..) ..)))
    (PackedCtlKept.again (setJob_ctlKept (updStream_ctlKept h ..) ..))
  exact CtlKept.upd (stopWrite_ctlKept (setJob_ctlKept h ..) ..) rfl rfl rfl rfl rfl rfl rfl rfl rfl

theorem packLoop_ctlKept {s0 s : State} (h : CtlKept s0 s) (n k) : CtlKept s0 (packLoop n k s) := by
  induction k generalizing s with
  | zero => exact h
  | succ k ih =>
    unfold packLoop
    have q := packAct_ctlKept h n
    split
    · exact h
    · rename_i t e
      rw [e] at q
      exact ih q

theorem cutFull_ctlKept {s0 s : State} (h : CtlKept s0 s) (a0) : CtlKept s0 (cutFull a0 s) := by
  unfold cutFull
  split
  · extract_lets -underBinder -merge y0 y1 y2
    refine CtlKept.ite ?_ ?_
    · exact (cutBlock_ctlKept (updStream_ctlKept h ..) ..)
    · refine CtlKept.ite ?_ ?_
      · exact (cutBlock_ctlKept h ..)
      · exact h
  · exact h

theorem packStream_ctlKept {s0 s : State} (h : CtlKept s0 s) (a0) : CtlKept s0 (packStream a0 s) := by
  unfold packStream
  exact (cutFull_ctlKept (packLoop_ctlKept h ..) ..)

theorem consumeSrc_ctlKept {s0 s : State} (h : CtlKept s0 s) (a0 a1) : CtlKept s0 (consumeSrc a0 a1 s) := by
  unfold consumeSrc
  refine CtlKept.foldl ?_ (fun y0 a hy0 => ?_)
  · exact h
  · beta_reduce
    extract_lets -underBinder -merge y1
    have hy1 : CtlKept s0 y1 := (lessLeft_ctlKept hy0 ..)
    try clear_value y1
    refine CtlKept.ite ?_ ?_
    · exact (freeOwn_ctlKept hy1 ..)
    · exact hy1

theorem freeRefs_ctlKept {s0 s : State} (h : CtlKept s0 s) (a0 a1) : CtlKept s0 (freeRefs a0 a1 s) := by
  unfold freeRefs
  refine CtlKept.foldl ?_ (fun y0 a hy0 => ?_)
  · exact h
  · beta_reduce
    exact (freeOwn_ctlKept hy0 ..)

theorem windowRefs_ctlKept {s0 s : State} (h : CtlKept s0 s) (a0 a1 a2) : CtlKept s0 (windowRefs a0 a1 a2 s).1 := by
  unfold windowRefs
  extract_lets -underBinder -merge y0 y1 y2 y3 y4
  have hy2 : CtlKept s0 y2 := by
    refine CtlKept.foldl ?_ (fun y5 a hy5 => ?_)
    · exact h
    · beta_reduce
      exact (refOwn_ctlKept hy5 ..)
  try clear_value y2
  dsimp -zeta only
  refine CtlKept.foldl ?_ (fun y6 a hy6 => ?_)
  · exact hy2
  · beta_reduce
    exact (freeOwn_ctlKept hy6 ..)

theorem copyWindow_ctlKept {s0 s : State} (h : CtlKept s0 s) (a0 a1 a2) : CtlKept s0 (copyWindow a0 a1 a2 s) := by
  unfold copyWindow
  extract_lets -underBinder -merge y0 y1 y2 y3 y4
  have hy0 : CtlKept s0 y0 := (giveOwn_ctlKept h ..)
  have hy4 : CtlKept s0 y4 := (setEngine_ctlKept hy0 ..)
  try clear_value y4
  try clear_value y0
  exact (dispatch_ctlKept (freeRefs_ctlKept hy4 ..) ..)

theorem shortenRefs_ctlKept {s0 s : State} (h : CtlKept s0 s) (a0 a1) : CtlKept s0 (shortenRefs a0 a1 s) := by
  unfold shortenRefs
  extract_lets -underBinder -merge y0 y1
  have hy1 : CtlKept s0 y1.1 := (askBuf_ctlKept h ..)
  try clear_value y1
  refine CtlKept.ite ?_ ?_
  · exact h
  · split
    · exact (copyWindow_ctlKept hy1 ..)
    · extract_lets -underBinder -merge y2
      exact (setEngine_ctlKept hy1 ..)

theorem lanesMust_ctlKept {s0 s : State} (h : CtlKept s0 s) (a0 a1) : CtlKept s0 (lanesMust a0 a1 s) := by
  unfold lanesMust
  exact (updStream_ctlKept h ..)

theorem dropLanes_ctlKept {s0 s : State} (h : CtlKept s0 s) (a0) : CtlKept s0 (dropLanes a0 s) := by
  unfold dropLanes
  extract_lets -underBinder -merge y0 y1 y2 y3
  have hy0 : CtlKept s0 y0.2 := (agentTag_ctlKept h ..)
  have hy1 : CtlKept s0 y1 := by
    refine CtlKept.foldl ?_ (fun y4 a hy4 => ?_)
    · exact hy0
    · beta_reduce
      extract_lets -underBinder -merge y5
      exact (setEngine_ctlKept (freeRefs_ctlKept hy4 ..) ..)
  have hy2 : CtlKept s0 y2 := by
    refine CtlKept.foldl ?_ (fun y6 a hy6 => ?_)
    · exact hy1
    · beta_reduce
      exact (freeRefs_ctlKept hy6 ..)
  try clear_value y2
  try clear_value y1
  try clear_value y0
  exact (CtlKept.upd hy2 rfl rfl rfl rfl rfl rfl rfl rfl rfl)

theorem dropHeld_ctlKept {s0 s : State} (h : CtlKept s0 s) (a0) : CtlKept s0 (dropHeld a0 s) := by
  unfold dropHeld
  split
  · exact h
  · extract_lets -underBinder -merge y0 y1
    exact (CtlKept.upd h rfl rfl rfl rfl rfl rfl rfl rfl rfl)

theorem freeTape_ctlKept {s0 s : State} (h : CtlKept s0 s) (a1) : CtlKept s0 (freeTape s a1) := by
  unfold freeTape
  exact (dropHeld_ctlKept (dropHeld_ctlKept (freeOpt_ctlKept (freeOpt_ctlKept h ..) ..) ..) ..)

theorem clearReads_ctlKept {s0 s : State} (h : CtlKept s0 s) : CtlKept s0 (clearReads s) := by
  unfold clearReads
  extract_lets -underBinder -merge y0 y1 y2
  have hy0 : CtlKept s0 y0 := by
    refine CtlKept.foldl ?_ (fun y3 a hy3 => ?_)
    · exact h
    · beta_reduce
      exact (freeTape_ctlKept hy3 ..)
  have hy1 : CtlKept s0 y1 := by
    subst y1
    split
    · exact (dropHeld_ctlKept (freeOpt_ctlKept hy0 ..) ..)
    · exact hy0
  try clear_value y1
  try clear_value y0
  exact (CtlKept.upd hy1 rfl rfl rfl rfl rfl rfl rfl rfl rfl)

theorem addInfo_ctlKept {s0 s : State} (h : CtlKept s0 s) (a0 a1) : CtlKept s0 (addInfo a0 a1 s) := by
  unfold addInfo
  exact (updCmd_ctlKept h ..)

theorem giveLens_ctlKept {s0 s : State} (h : CtlKept s0 s) (a0 a1 a2) : CtlKept s0 (giveLens a0 a1 a2 s) := by
  unfold giveLens
  refine CtlKept.ite ?_ ?_
  · exact (emit_ctlKept h ..)
  · exact h

theorem endRead_ctlKept {s0 s : State} (h : CtlKept s0 s) (a0 a1 a2 a3) : CtlKept s0 (endRead a0 a1 a2 a3 s) := by
  unfold endRead
  extract_lets -underBinder -merge y0 y1
  have hy0 : CtlKept s0 y0 := (giveLens_ctlKept (toHostMem_ctlKept h ..) ..)
  have hy1 : CtlKept s0 y1.2 := (recordNumOf_ctlKept (addInfo_ctlKept hy0 ..) ..)
  try clear_value y1
  try clear_value y0
  exact (complete_ctlKept hy1 ..)

theorem knownOr_ctlKept {s0 s : State} (h : CtlKept s0 s) (a0) : CtlKept s0 (knownOr a0 s).2 := by
  unfold knownOr
  split
  · exact h
  · exact (drew_ctlKept h ..)

theorem knownAll_ctlKept {s0 s : State} (h : CtlKept s0 s) (l) : CtlKept s0 (knownAll l s).2 := by
  induction l generalizing s with
  | nil => exact h
  | cons v l ih =>
    unfold knownAll
    exact ih (knownOr_ctlKept h ..)

theorem endRaw_ctlKept {s0 s : State} (h : CtlKept s0 s) (a0 a1 a2 a3) : CtlKept s0 (endRaw a0 a1 a2 a3 s) := by
  unfold endRaw
  extract_lets -underBinder -merge y0 y1 y2 y3 y4 y5
  have hy0 : CtlKept s0 y0.2 := (knownAll_ctlKept (toHostMem_ctlKept h ..) ..)
  have hy1 : CtlKept s0 y1 := (giveLens_ctlKept hy0 ..)
  have hy3 : CtlKept s0 y3.2 := (recordNumOf_ctlKept (addInfo_ctlKept hy1 ..) ..)
  have hy5 : CtlKept s0 y5.2 := (knownOr_ctlKept hy3 ..)
  try clear_value y5
  try clear_value y3
  try clear_value y1
  try clear_value y0
  exact (complete_ctlKept hy5 ..)

theorem tryRead_ctlKept {s0 s : State} (h : CtlKept s0 s) (a0) : CtlKept s0 (tryRead a0 s) := by
  unfold tryRead
  split
  · exact h
  · split
    · split
      · exact h
      · extract_lets -underBinder -merge y0
        refine CtlKept.ite ?_ ?_
        · exact h
        · refine CtlKept.ite ?_ ?_
          · split
            · exact (endRead_ctlKept h ..)
            · exact h
          · split
            · exact (endRaw_ctlKept h ..)
            · exact h
    · exact h

theorem endReadEarly_ctlKept {s0 s : State} (h : CtlKept s0 s) (a0 a1 a2 a3 a4) : CtlKept s0 (endReadEarly a0 a1 a2 a3 a4 s) := by
  unfold endReadEarly
  extract_lets -underBinder -merge y0
  refine CtlKept.ite ?_ ?_
  · split
    · exact (endRead_ctlKept h ..)
    · exact h
  · split
    · exact (endRaw_ctlKept h ..)
    · exact h

theorem cutWanted_ctlKept {s0 s : State} (h : CtlKept s0 s) : CtlKept s0 (cutWanted s) := by
  unfold cutWanted
  refine CtlKept.foldl ?_ (fun y0 a hy0 => ?_)
  · exact h
  · beta_reduce
    split
    · extract_lets -underBinder -merge y1 y2 y3
      split
      · refine CtlKept.ite ?_ ?_
        · exact (cutBlock_ctlKept hy0 ..)
        · exact hy0
      · exact hy0
    · exact hy0

theorem endRebuild_ctlKept {s0 s : State} (h : CtlKept s0 s) (a0 a1 a2 a3) : CtlKept s0 (endRebuild a0 a1 a2 a3 s) := by
  unfold endRebuild
  extract_lets -underBinder -merge y0 y1 y2
  have hy1 : CtlKept s0 y1 := (CtlKept.upd h rfl rfl rfl rfl rfl rfl rfl rfl rfl)
  have hy2 : CtlKept s0 y2 := by
    refine CtlKept.ite ?_ ?_
    · exact (noteInfo_ctlKept hy1 ..)
    · exact hy1
  try clear_value y2
  try clear_value y1
  exact (complete_ctlKept hy2 ..)

theorem rebuildCheck_ctlKept {s0 s : State} (h : CtlKept s0 s) : CtlKept s0 (rebuildCheck s) := by
  unfold rebuildCheck
  split
  · exact h
  · extract_lets -underBinder -merge y0 y1 y2 y3 y4 y5
    have hy2 : CtlKept s0 y2 := (setStage_ctlKept h ..)
    try clear_value y2
    refine CtlKept.ite ?_ ?_
    · exact hy2
    · exact (endRebuild_ctlKept hy2 ..)

theorem failReads_ctlKept {s0 s : State} (h : CtlKept s0 s) : CtlKept s0 (failReads s) := by
  unfold failReads
  refine CtlKept.ite ?_ ?_
  · exact h
  · refine CtlKept.foldl ?_ (fun y0 a hy0 => ?_)
    · exact h
    · beta_reduce
      split
      · split
        · extract_lets -underBinder -merge y1 y2
          refine CtlKept.ite ?_ ?_
          · exact hy0
          · exact (endReadEarly_ctlKept hy0 ..)
        · exact hy0
      · exact hy0

theorem readsAdvance_ctlKept {s0 s : State} (h : CtlKept s0 s) : CtlKept s0 (readsAdvance s) := by
  unfold readsAdvance
  extract_lets -underBinder -merge y0 y1 y2 y3 y4 y5 y6 y7 y8
  have hy0 : CtlKept s0 y0 := (cutWanted_ctlKept h ..)
  have hy1 : CtlKept s0 y1 := by
    refine failReads_ctlKept ?_ ..
    refine CtlKept.foldl ?_ (fun y9 a hy9 => ?_)
    · exact hy0
    · beta_reduce
      exact (tryRead_ctlKept hy9 ..)
  have hy2 : CtlKept s0 y2 := (rebuildCheck_ctlKept hy1 ..)
  have hy8 : CtlKept s0 y8 := (CtlKept.upd hy2 rfl rfl rfl rfl rfl rfl rfl rfl rfl)
  try clear_value y8
  try clear_value y2
  try clear_value y1
  try clear_value y0
  refine CtlKept.ite ?_ ?_
  · exact (clearReads_ctlKept hy8 ..)
  · exact hy8

theorem startRead_ctlKept {s0 s : State} (h : CtlKept s0 s) : CtlKept s0 (startRead s) := by
  unfold startRead
  refine CtlKept.ite ?_ ?_
  · exact h
  · split
    · exact h
    · extract_lets -underBinder -merge y0 y1 y2 y3 y4 y5
      have hy2 : CtlKept s0 y2.2 := (agentTag_ctlKept h ..)
      have hy3 : CtlKept s0 y3.1 := (askBuf_ctlKept hy2 ..)
      have hy4 : CtlKept s0 y4 := hy3
      try clear_value y3
      try clear_value y2
      refine takeEqTarget_ctlKept ?_ ..
      exact (CtlKept.upd hy4 rfl rfl rfl rfl rfl rfl rfl rfl rfl)

theorem closeDataset_ctlKept {s0 s : State} (h : CtlKept s0 s) (a0) : CtlKept s0 (closeDataset a0 s) := by
  unfold closeDataset
  split
  · exact h
  · extract_lets -underBinder -merge y0 y1 y2 y3
    exact (CtlKept.upd h rfl rfl rfl rfl rfl rfl rfl rfl rfl)

theorem openInBuf_ctlKept {s0 s : State} (h : CtlKept s0 s) (a0 a1 a2) : CtlKept s0 (openInBuf a0 a1 a2 s) := by
  unfold openInBuf
  extract_lets -underBinder -merge y0
  exact (CtlKept.upd h rfl rfl rfl rfl rfl rfl rfl rfl rfl)

theorem openDataset_ctlKept {s0 s : State} (h : CtlKept s0 s) (a0 a1) : CtlKept s0 (openDataset a0 a1 s) := by
  unfold openDataset
  extract_lets -underBinder -merge y0
  have hy0 : CtlKept s0 y0.1 := (askBuf_ctlKept h ..)
  try clear_value y0
  refine CtlKept.ite ?_ ?_
  · exact h
  · split
    · exact (openInBuf_ctlKept hy0 ..)
    · extract_lets -underBinder -merge y1 y2
      have hy1 : CtlKept s0 y1 := hy0
      exact (CtlKept.upd hy1 rfl rfl rfl rfl rfl rfl rfl rfl rfl)

theorem drainCuts_ctlKept {s0 s : State} (h : CtlKept s0 s) (a0) : CtlKept s0 (drainCuts a0 s) := by
  unfold drainCuts
  refine CtlKept.foldl ?_ (fun y0 a hy0 => ?_)
  · exact h
  · beta_reduce
    extract_lets -underBinder -merge y1 y2
    refine CtlKept.ite ?_ ?_
    · exact (cutBlock_ctlKept hy0 ..)
    · exact hy0

theorem drainClose_ctlKept {s0 s : State} (h : CtlKept s0 s) (a0) : CtlKept s0 (drainClose a0 s) := by
  unfold drainClose
  extract_lets -underBinder -merge y0 y1 y2 y3
  have hy3 : CtlKept s0 y3 := (closeDataset_ctlKept h ..)
  try clear_value y3
  refine CtlKept.ite ?_ ?_
  · split
    · exact (updCmd_ctlKept hy3 ..)
    · exact hy3
  · exact h

theorem failStream_ctlKept {s0 s : State} (h : CtlKept s0 s) (a0 a1 a2) : CtlKept s0 (failStream a0 a1 a2 s) := by
  unfold failStream
  split
  · exact h
  · extract_lets -underBinder -merge y0 y1
    have hy1 : CtlKept s0 y1 := (updStream_ctlKept h ..)
    try clear_value y1
    exact (raise_ctlKept (closeRecords_ctlKept hy1 ..) ..)

theorem dropBlk_ctlKept {s0 s : State} (h : CtlKept s0 s) (a1) : CtlKept s0 (dropBlk s a1) := by
  unfold dropBlk
  extract_lets -underBinder -merge y0 y1 y2 y3 y4 y5 y6
  have hy0 : CtlKept s0 y0 := by
    refine CtlKept.foldl ?_ (fun y7 a hy7 => ?_)
    · exact h
    · beta_reduce
      extract_lets -underBinder -merge y8
      exact (setEngine_ctlKept hy7 ..)
  have hy2 : CtlKept s0 y2 := (CtlKept.upd hy0 rfl rfl rfl rfl rfl rfl rfl rfl rfl)
  have hy3 : CtlKept s0 y3 := (freeOpt_ctlKept (consumeSrc_ctlKept hy2 ..) ..)
  have hy5 : CtlKept s0 y5 := (CtlKept.upd hy3 rfl rfl rfl rfl rfl rfl rfl rfl rfl)
  try clear_value y5
  try clear_value y3
  try clear_value y2
  try clear_value y0
  refine CtlKept.ite ?_ ?_
  · exact (CtlKept.upd hy5 rfl rfl rfl rfl rfl rfl rfl rfl rfl)
  · exact (setBlk_ctlKept hy5 ..)

theorem stopLost_ctlKept {s0 s : State} (h : CtlKept s0 s) (a0 a1 a2 a3) : CtlKept s0 (stopLost a0 a1 a2 a3 s) := by
  unfold stopLost
  split
  · split
    · extract_lets -underBinder -merge y0
      exact (stopWrite_ctlKept (setJob_ctlKept h ..) ..)
    · exact (stopWrite_ctlKept h ..)
  · exact (stopWrite_ctlKept h ..)

theorem loseFrom_ctlKept {s0 s : State} (h : CtlKept s0 s) (a0 a1 a2) : CtlKept s0 (loseFrom a0 a1 a2 s) := by
  unfold loseFrom
  extract_lets -underBinder -merge y0 y1 y2 y3 y4 y5
  have hy4 : CtlKept s0 y4 := by
    refine CtlKept.foldl ?_ (fun y6 a hy6 => ?_)
    · exact h
    · beta_reduce
      split
      · refine CtlKept.ite ?_ ?_
        · exact hy6
        · exact (stopLost_ctlKept hy6 ..)
      · exact hy6
  have hy5 : CtlKept s0 y5 := (failStream_ctlKept hy4 ..)
  try clear_value y5
  try clear_value y4
  refine dispatchAll_ctlKept ?_ ..
  refine CtlKept.foldl ?_ (fun y7 a hy7 => ?_)
  · exact hy5
  · beta_reduce
    split
    · exact (dropBlk_ctlKept hy7 ..)
    · exact hy7

theorem loseAtEnd_ctlKept {s0 s : State} (h : CtlKept s0 s) (a0) : CtlKept s0 (loseAtEnd a0 s) := by
  unfold loseAtEnd
  extract_lets -underBinder -merge y0 y1
  have hy0 : CtlKept s0 y0 := (loseFrom_ctlKept h ..)
  try clear_value y0
  refine CtlKept.ite ?_ ?_
  · exact (CtlKept.upd hy0 rfl rfl rfl rfl rfl rfl rfl rfl rfl)
  · exact hy0

theorem closeDrained_ctlKept {s0 s : State} (h : CtlKept s0 s) : CtlKept s0 (closeDrained s) := by
  unfold closeDrained
  refine CtlKept.foldl ?_ (fun y0 a hy0 => ?_)
  · exact h
  · beta_reduce
    exact (drainClose_ctlKept hy0 ..)

theorem placeLoop_ctlKept {s0 s : State} (h : CtlKept s0 s) (n) : CtlKept s0 (placeLoop n s) := by
  induction n generalizing s with
  | zero => exact h
  | succ n ih =>
    unfold placeLoop
    split
    · exact h
    split
    · refine CtlKept.ite h (CtlKept.ite (ih (loseAtEnd_ctlKept h ..)) ?_)
      extract_lets -underBinder -merge t
      have ht : CtlKept s0 t := openDataset_ctlKept h ..
      clear_value t
      exact CtlKept.ite (ih ht) ht
    · extract_lets -underBinder -merge room streams size k d whole s1 s2 src s3
      refine CtlKept.ite (ih (closeDataset_ctlKept h ..)) (CtlKept.ite (ih (closeDataset_ctlKept h ..)) ?_)
      have h1 : CtlKept s0 s1 := CtlKept.ite (freeOpt_ctlKept h ..) h
      clear_value s1
      have h2 : CtlKept s0 s2 := setBlk_ctlKept h1 ..
      clear_value s2
      have h3 : CtlKept s0 s3 := CtlKept.upd h2 rfl rfl rfl rfl rfl rfl rfl rfl rfl
      clear_value s3
      exact ih (CtlKept.ite (closeDataset_ctlKept h3 ..) (CtlKept.ite (closeDrained_ctlKept h3 ..) h3))

theorem placeAll_ctlKept {s0 s : State} (h : CtlKept s0 s) : CtlKept s0 (placeAll s) := by
  unfold placeAll
  exact (placeLoop_ctlKept h ..)

theorem closeStream_ctlKept {s0 s : State} (h : CtlKept s0 s) (a0) : CtlKept s0 (closeStream a0 s) := by
  unfold closeStream
  split
  · exact h
  · extract_lets -underBinder -merge y0 y1
    have hy0 : CtlKept s0 y0 := (dropLanes_ctlKept h ..)
    have hy1 : CtlKept s0 y1 := by
      refine CtlKept.ite ?_ ?_
      · exact (unbindKey_ctlKept hy0 ..)
      · exact hy0
    try clear_value y1
    try clear_value y0
    exact (updStream_ctlKept hy1 ..)

theorem closeEnded_ctlKept {s0 s : State} (h : CtlKept s0 s) : CtlKept s0 (closeEnded s) := by
  unfold closeEnded
  refine CtlKept.foldl ?_ (fun y0 a hy0 => ?_)
  · exact h
  · beta_reduce
    extract_lets -underBinder -merge y1
    refine CtlKept.ite ?_ ?_
    · exact (closeStream_ctlKept hy0 ..)
    · exact hy0

theorem endPowerDrain_ctlKept {s0 s : State} (h : CtlKept s0 s) : CtlKept s0 (endPowerDrain s) := by
  unfold endPowerDrain
  split
  · exact h
  · extract_lets -underBinder -merge y0 y1
    refine CtlKept.ite ?_ ?_
    · exact h
    · exact (CtlKept.upd h rfl rfl rfl rfl rfl rfl rfl rfl rfl)

theorem pushDrains_ctlKept {s0 s : State} (h : CtlKept s0 s) : CtlKept s0 (pushDrains s) := by
  unfold pushDrains
  refine CtlKept.foldl ?_ (fun y0 a hy0 => ?_)
  · exact h
  · beta_reduce
    exact (drainClose_ctlKept (drainCuts_ctlKept hy0 ..) ..)

theorem settleN_ctlKept {s0 s : State} (h : CtlKept s0 s) (n) : CtlKept s0 (settleN n s) := by
  induction n generalizing s with
  | zero => exact h
  | succ n ih =>
    unfold settleN
    exact (ih (pushDrains_ctlKept (placeAll_ctlKept h ..) ..))

theorem settle_ctlKept {s0 s : State} (h : CtlKept s0 s) : CtlKept s0 (settle s) := by
  unfold settle
  exact (readsAdvance_ctlKept (checkWrites_ctlKept (endPowerDrain_ctlKept (closeEnded_ctlKept (settleN_ctlKept h ..) ..) ..) ..) ..)

theorem offer_ctlKept {s0 s : State} (h : CtlKept s0 s) (a0) : CtlKept s0 (offer a0 s) := by
  unfold offer
  extract_lets -underBinder -merge y0 y1
  have hy0 : CtlKept s0 y0 := (updBlk_ctlKept h ..)
  try clear_value y0
  refine settle_ctlKept ?_ ..
  exact (CtlKept.upd hy0 rfl rfl rfl rfl rfl rfl rfl rfl rfl)

theorem packetDone_ctlKept {s0 s : State} (h : CtlKept s0 s) (a0 a1 a2 a3) : CtlKept s0 (packetDone a0 a1 a2 a3 s) := by
  unfold packetDone
  extract_lets -underBinder -merge y0 y1 y2 y3 y4 y5 y6 y7 y8 y9 y10
  have hy1 : CtlKept s0 y1.1 := by
    refine CtlKept.ite_fst ?_ ?_
    · refine CtlKept.ite_fst ?_ ?_
      · exact (windowRefs_ctlKept h ..)
      · exact (windowRefs_ctlKept h ..)
    · exact h
  have hy2 : CtlKept s0 y2 := by
    refine CtlKept.ite ?_ ?_
    · exact (freeRefs_ctlKept hy1 ..)
    · exact hy1
  have hy3 : CtlKept s0 y3 := (consumeSrc_ctlKept hy2 ..)
  have hy4 : CtlKept s0 y4 := by
    refine CtlKept.ite ?_ ?_
    · exact (lanesMust_ctlKept hy3 ..)
    · exact hy3
  have hy6 : CtlKept s0 y6 := (CtlKept.upd hy4 rfl rfl rfl rfl rfl rfl rfl rfl rfl)
  have hy8 : CtlKept s0 y8 := (setEngine_ctlKept hy6 ..)
  have hy9 : CtlKept s0 y9 := (setBlk_ctlKept hy8 ..)
  have hy10 : CtlKept s0 y10 := (dispatch_ctlKept (shortenRefs_ctlKept hy9 ..) ..)
  try clear_value y10
  try clear_value y9
  try clear_value y8
  try clear_value y6
  try clear_value y4
  try clear_value y3
  try clear_value y2
  try clear_value y1
  refine CtlKept.ite ?_ ?_
  · exact hy10
  · exact (offer_ctlKept hy10 ..)

theorem addEntry_ctlKept {s0 s : State} (h : CtlKept s0 s) (a1) : CtlKept s0 (addEntry s a1) := by
  unfold addEntry
  split
  · extract_lets -underBinder -merge y0
    exact (CtlKept.upd h rfl rfl rfl rfl rfl rfl rfl rfl rfl)
  · extract_lets -underBinder -merge y1
    exact (CtlKept.upd h rfl rfl rfl rfl rfl rfl rfl rfl rfl)
  · extract_lets -underBinder -merge y2 y3
    exact (CtlKept.upd h rfl rfl rfl rfl rfl rfl rfl rfl rfl)
  · split
    · exact (updStream_ctlKept h ..)
    · extract_lets -underBinder -merge y4
      exact (CtlKept.upd h rfl rfl rfl rfl rfl rfl rfl rfl rfl)
  · exact h

theorem endCreate_ctlKept {s0 s : State} (h : CtlKept s0 s) (a0 a1) : CtlKept s0 (endCreate a0 a1 s) := by
  unfold endCreate
  split
  · extract_lets -underBinder -merge y0
    have hy0 : CtlKept s0 y0 := (onPost_ctlKept h ..)
    try clear_value y0
    split
    · exact (complete_ctlKept hy0 ..)
    · exact (finish_ctlKept hy0 ..)
  · split
    · extract_lets -underBinder -merge y1
      exact (CtlKept.upd h rfl rfl rfl rfl rfl rfl rfl rfl rfl)
    · exact h

theorem forgetDs_ctlKept {s0 s : State} (h : CtlKept s0 s) (a0) : CtlKept s0 (forgetDs a0 s) := by
  unfold forgetDs
  extract_lets -underBinder -merge y0 y1 y2
  exact (CtlKept.upd h rfl rfl rfl rfl rfl rfl rfl rfl rfl)

theorem leaveCocoon_ctlKept {s0 s : State} (h : CtlKept s0 s) (a0) : CtlKept s0 (leaveCocoon a0 s) := by
  unfold leaveCocoon
  extract_lets -underBinder -merge y0
  exact (CtlKept.upd h rfl rfl rfl rfl rfl rfl rfl rfl rfl)

theorem releaseDs_ctlKept {s0 s : State} (h : CtlKept s0 s) (a0) : CtlKept s0 (releaseDs a0 s) := by
  unfold releaseDs
  extract_lets -underBinder -merge y0 y1 y2 y3 y4 y5 y6 y7 y8 y9 y10 y11
  have hy1 : CtlKept s0 y1 := by
    refine CtlKept.foldl ?_ (fun y12 a hy12 => ?_)
    · exact h
    · beta_reduce
      exact (addEntry_ctlKept hy12 ..)
  have hy2 : CtlKept s0 y2 := by
    refine CtlKept.foldl ?_ (fun y13 a hy13 => ?_)
    · exact hy1
    · beta_reduce
      split
      · exact (endCreate_ctlKept hy13 ..)
      · exact hy13
  have hy3 : CtlKept s0 y3 := by
    refine CtlKept.foldl ?_ (fun y14 a hy14 => ?_)
    · exact hy2
    · beta_reduce
      exact (updCmd_ctlKept hy14 ..)
  have hy4 : CtlKept s0 y4 := (forgetDs_ctlKept hy3 ..)
  have hy6 : CtlKept s0 y6 := by
    refine leaveCocoon_ctlKept ?_ ..
    exact (CtlKept.upd hy4 rfl rfl rfl rfl rfl rfl rfl rfl rfl)
  have hy9 : CtlKept s0 y9 := by
    refine CtlKept.ite ?_ ?_
    · exact (CtlKept.upd hy6 rfl rfl rfl rfl rfl rfl rfl rfl rfl)
    · exact hy6
  have hy11 : CtlKept s0 y11 := by
    refine CtlKept.ite ?_ ?_
    · exact (CtlKept.upd hy9 rfl rfl rfl rfl rfl rfl rfl rfl rfl)
    · exact hy9
  try clear_value y11
  try clear_value y9
  try clear_value y6
  try clear_value y4
  try clear_value y3
  try clear_value y2
  try clear_value y1
  refine CtlKept.ite ?_ ?_
  · exact (leaveCocoon_ctlKept h ..)
  · exact (checkWrites_ctlKept hy11 ..)

theorem failDs_ctlKept {s0 s : State} (h : CtlKept s0 s) (a0 a1) : CtlKept s0 (failDs a0 a1 s) := by
  unfold failDs
  extract_lets -underBinder -merge y0 y1 y2 y3 y4 y5 y6 y7 y8 y9 y10 y11 y12 y13 y14 y15 y16 y17 y18 y19
  have hy2 : CtlKept s0 y2 := by
    refine CtlKept.foldl ?_ (fun y20 a hy20 => ?_)
    · exact h
    · beta_reduce
      exact (failStream_ctlKept hy20 ..)
  have hy3 : CtlKept s0 y3 := (raise_ctlKept hy2 ..)
  have hy4 : CtlKept s0 y4 := by
    refine CtlKept.foldl ?_ (fun y21 a hy21 => ?_)
    · exact hy3
    · beta_reduce
      split
      · refine CtlKept.ite ?_ ?_
        · exact (stopLost_ctlKept (updCmd_ctlKept hy21 ..) ..)
        · exact hy21
      · exact hy21
  have hy8 : CtlKept s0 y8 := (CtlKept.upd hy4 rfl rfl rfl rfl rfl rfl rfl rfl rfl)
  have hy9 : CtlKept s0 y9 := by
    refine CtlKept.foldl ?_ (fun y22 a hy22 => ?_)
    · exact hy8
    · beta_reduce
      exact (endCreate_ctlKept hy22 ..)
  have hy11 : CtlKept s0 y11 := by
    refine CtlKept.ite ?_ ?_
    · exact (CtlKept.upd hy9 rfl rfl rfl rfl rfl rfl rfl rfl rfl)
    · exact hy9
  have hy12 : CtlKept s0 y12 := (forgetDs_ctlKept hy11 ..)
  have hy16 : CtlKept s0 y16 := (CtlKept.upd hy12 rfl rfl rfl rfl rfl rfl rfl rfl rfl)
  have hy17 : CtlKept s0 y17 := by
    subst y17
    split
    · extract_lets -underBinder -merge y23
      refine CtlKept.ite ?_ ?_
      · exact hy16
      · exact (CtlKept.upd hy16 rfl rfl rfl rfl rfl rfl rfl rfl rfl)
    · exact hy16
  have hy19 : CtlKept s0 y19 := by
    refine CtlKept.ite ?_ ?_
    · exact (CtlKept.upd hy17 rfl rfl rfl rfl rfl rfl rfl rfl rfl)
    · exact hy17
  try clear_value y19
  try clear_value y17
  try clear_value y16
  try clear_value y12
  try clear_value y11
  try clear_value y9
  try clear_value y8
  try clear_value y4
  try clear_value y3
  try clear_value y2
  refine settle_ctlKept ?_ ..
  refine CtlKept.ite ?_ ?_
  · exact hy19
  · exact (freeOpt_ctlKept hy19 ..)

theorem failHeld_ctlKept {s0 s : State} (h : CtlKept s0 s) (a0) : CtlKept s0 (failHeld a0 s) := by
  unfold failHeld
  refine CtlKept.foldl ?_ (fun y0 a hy0 => ?_)
  · exact h
  · beta_reduce
    refine CtlKept.ite ?_ ?_
    · exact hy0
    · exact (failDs_ctlKept hy0 ..)

theorem takeGrant_ctlKept {s0 s : State} (h : CtlKept s0 s) (a0 a1 a2) : CtlKept s0 (takeGrant a0 a1 a2 s) := by
  unfold takeGrant
  split
  · exact (copyWindow_ctlKept h ..)
  · extract_lets -underBinder -merge y0 y1 y2 y3 y4 y5 y6
    exact (CtlKept.upd h rfl rfl rfl rfl rfl rfl rfl rfl rfl)

theorem setChan_ctlKept {s0 s : State} (h : CtlKept s0 s) (a0 a1) : CtlKept s0 (setChan a0 a1 s) := by
  unfold setChan
  exact (CtlKept.upd h rfl rfl rfl rfl rfl rfl rfl rfl rfl)

theorem updChan_ctlKept {s0 s : State} (h : CtlKept s0 s) (a0 a1) : CtlKept s0 (updChan a0 a1 s) := by
  unfold updChan
  exact (setChan_ctlKept h ..)

theorem failIfStopped_ctlKept {s0 s : State} (h : CtlKept s0 s) (a0) : CtlKept s0 (failIfStopped a0 s) := by
  unfold failIfStopped
  refine CtlKept.ite ?_ ?_
  · refine CtlKept.foldl ?_ (fun y0 a hy0 => ?_)
    · exact h
    · beta_reduce
      exact (failDs_ctlKept hy0 ..)
  · refine CtlKept.ite ?_ ?_
    · refine CtlKept.foldl ?_ (fun y1 a hy1 => ?_)
      · exact h
      · beta_reduce
        exact (failDs_ctlKept hy1 ..)
    · exact h

theorem stopWriting_ctlKept {s0 s : State} (h : CtlKept s0 s) : CtlKept s0 (stopWriting s) := by
  unfold stopWriting
  extract_lets -underBinder -merge y0 y1 y2 y3 y4 y5
  have hy2 : CtlKept s0 y2 := (CtlKept.upd h rfl rfl rfl rfl rfl rfl rfl rfl rfl)
  have hy4 : CtlKept s0 y4 := by
    refine CtlKept.ite ?_ ?_
    · exact (CtlKept.upd hy2 rfl rfl rfl rfl rfl rfl rfl rfl rfl)
    · exact hy2
  have hy5 : CtlKept s0 y5 := (raise_ctlKept hy4 ..)
  try clear_value y5
  try clear_value y4
  try clear_value y2
  refine CtlKept.foldl ?_ (fun y6 a hy6 => ?_)
  · exact hy5
  · beta_reduce
    exact (failIfStopped_ctlKept hy6 ..)

theorem resumeWriting_ctlKept {s0 s : State} (h : CtlKept s0 s) : CtlKept s0 (resumeWriting s) := by
  unfold resumeWriting
  extract_lets -underBinder -merge y0 y1 y2
  have hy1 : CtlKept s0 y1 := (CtlKept.upd h rfl rfl rfl rfl rfl rfl rfl rfl rfl)
  try clear_value y1
  refine CtlKept.ite ?_ ?_
  · refine raise_ctlKept ?_ ..
    exact (CtlKept.upd hy1 rfl rfl rfl rfl rfl rfl rfl rfl rfl)
  · exact hy1

theorem judgeMembers_ctlKept {s0 s : State} (h : CtlKept s0 s) : CtlKept s0 (judgeMembers s) := by
  unfold judgeMembers
  refine CtlKept.ite ?_ ?_
  · refine CtlKept.ite ?_ ?_
    · exact (resumeWriting_ctlKept h ..)
    · exact h
  · refine CtlKept.ite ?_ ?_
    · exact h
    · exact (stopWriting_ctlKept h ..)

theorem restoreMember_ctlKept {s0 s : State} (h : CtlKept s0 s) (a0) : CtlKept s0 (restoreMember a0 s) := by
  unfold restoreMember
  refine CtlKept.ite ?_ ?_
  · exact (judgeMembers_ctlKept (raise_ctlKept (updChan_ctlKept h ..) ..) ..)
  · exact h

theorem fetchCreate_ctlKept {s0 s : State} (h : CtlKept s0 s) (a0 a1) : CtlKept s0 (fetchCreate a0 a1 s) := by
  unfold fetchCreate
  extract_lets -underBinder -merge y0 y1 y2 y3 y4
  have hy4 : CtlKept s0 y4.2 := by
    refine agentTag_ctlKept ?_ ..
    exact (CtlKept.upd h rfl rfl rfl rfl rfl rfl rfl rfl rfl)
  try clear_value y4
  refine CtlKept.ite ?_ ?_
  · exact (CtlKept.upd h rfl rfl rfl rfl rfl rfl rfl rfl rfl)
  · exact (openDataset_ctlKept hy4 ..)

theorem fetchEntries_ctlKept {s0 s : State} (h : CtlKept s0 s) (f q k l) : CtlKept s0 (fetchEntries f q k l s) := by
  induction l generalizing s k with
  | nil => exact h
  | cons e l ih =>
    unfold fetchEntries
    split
    · exact h
    · extract_lets -underBinder -merge y0 y1 y2
      have h2 : CtlKept s0 y2 := fetchOne_ctlKept (setQp_ctlKept h ..) ..
      clear_value y2
      exact ih (CtlKept.ite (fetchCreate_ctlKept h2 ..) h2) _

theorem takeReturnsN_ctlKept {s0 s : State} (h : CtlKept s0 s) (n) : CtlKept s0 (takeReturnsN n s) := by
  induction n generalizing s with
  | zero => exact h
  | succ n ih =>
    unfold takeReturnsN
    split
    · exact ih (fetchEntries_ctlKept (updQp_ctlKept h ..) ..)
    · exact h

theorem takeReturns_ctlKept {s0 s : State} (h : CtlKept s0 s) : CtlKept s0 (takeReturns s) := by
  unfold takeReturns
  exact (takeReturnsN_ctlKept h ..)

theorem rebuildEnded_ctlKept {s0 s : State} (h : CtlKept s0 s) (a0) : CtlKept s0 (rebuildEnded a0 s) := by
  unfold rebuildEnded
  extract_lets -underBinder -merge y0
  refine raise_ctlKept ?_ ..
  exact (CtlKept.upd h rfl rfl rfl rfl rfl rfl rfl rfl rfl)

theorem noRun_ctlKept {s0 s : State} (h : CtlKept s0 s) (a0) : CtlKept s0 (noRun a0 s) := by
  unfold noRun
  refine CtlKept.ite ?_ ?_
  · exact (runSettled_ctlKept h ..)
  · exact h

theorem endCmd_ctlKept {s0 s : State} (h : CtlKept s0 s) (a0) : CtlKept s0 (endCmd a0 s) := by
  unfold endCmd
  split
  · exact h
  · extract_lets -underBinder -merge y0 y1
    have hy1 : CtlKept s0 y1 := (updCmd_ctlKept h ..)
    try clear_value y1
    split
    · refine CtlKept.ite ?_ ?_
      · exact (packStream_ctlKept (updCmd_ctlKept (giveIntake_ctlKept h ..) ..) ..)
      · exact (dropCmd_ctlKept (runSettled_ctlKept (freeIntake_ctlKept (dropRun_ctlKept h ..) ..) ..) ..)
    · exact (dropCmd_ctlKept h ..)
    · exact (dropCmd_ctlKept (rebuildEnded_ctlKept h ..) ..)
    · exact (dropCmd_ctlKept h ..)
    · exact (updCmd_ctlKept h ..)
    · exact hy1
    · refine CtlKept.ite ?_ ?_
      · exact (dropCmd_ctlKept h ..)
      · exact hy1
    · refine CtlKept.ite ?_ ?_
      · exact (dropCmd_ctlKept (noRun_ctlKept h ..) ..)
      · refine CtlKept.ite ?_ ?_
        · exact (dropCmd_ctlKept (rebuildEnded_ctlKept h ..) ..)
        · exact hy1

theorem endCmds_ctlKept {s0 s : State} (h : CtlKept s0 s) (a0) : CtlKept s0 (endCmds a0 s).1 := by
  unfold endCmds
  extract_lets -underBinder -merge y0 y1 y2 y3 y4
  have hy1 : CtlKept s0 y1 := CtlKept.foldl h fun _ _ ht => cutBlock_ctlKept ht ..
  clear_value y1
  have hy4 : CtlKept s0 y4 := CtlKept.foldl hy1 fun _ _ ht => endCmd_ctlKept ht ..
  clear_value y4
  dsimp only
  exact settle_ctlKept hy4

theorem carryOn_ctlKept {s0 s : State} (h : CtlKept s0 s) (a0 a1 a2) : CtlKept s0 (carryOn a0 a1 a2 s) := by
  unfold carryOn
  extract_lets -underBinder -merge y0
  refine CtlKept.ite ?_ ?_
  · exact (noRun_ctlKept h ..)
  · refine CtlKept.ite ?_ ?_
    · exact (rebuildEnded_ctlKept h ..)
    · split
      · exact h
      · exact (setCmd_ctlKept h ..)

theorem resetStart_ctlKept {s0 s : State} (h : CtlKept s0 s) (a0 a1 a2) : CtlKept s0 (resetStart a0 a1 a2 s) := by
  unfold resetStart
  split
  · exact h
  · extract_lets -underBinder -merge y0
    have hy0 : CtlKept s0 y0 := by
      refine CtlKept.foldl ?_ (fun y1 a hy1 => ?_)
      · exact h
      · beta_reduce
        exact (carryOn_ctlKept hy1 ..)
    try clear_value y0
    exact (takeReturns_ctlKept (updQp_ctlKept hy0 ..) ..)

theorem resetCut_ctlKept {s0 s : State} (h : CtlKept s0 s) (a0 a1) : CtlKept s0 (resetCut a0 a1 s) := by
  unfold resetCut
  split
  · exact h
  split
  · exact h
  extract_lets -underBinder -merge y0 y1 y2 y3 y4 y5
  have hy1 : CtlKept s0 y1 := updQp_ctlKept h ..
  have hy2 : CtlKept s0 y2 := CtlKept.foldl hy1 fun _ _ ht => finish_ctlKept ht ..
  have hy3 : CtlKept s0 y3.1 := endCmds_ctlKept hy2 ..
  have hy4 : CtlKept s0 y4 := updQp_ctlKept hy3 ..
  have hy5 : CtlKept s0 y5 := by
    subst y5
    clear_value y4
    split
    · exact finishWith_ctlKept (onPost_ctlKept hy4 ..) ..
    · exact hy4
  clear_value y5
  exact raiseIf_ctlKept (shutdownCheck_ctlKept hy5 ..) ..

theorem markEnded_ctlKept {s0 s : State} (h : CtlKept s0 s) (a0) : CtlKept s0 (markEnded a0 s) := by
  unfold markEnded
  extract_lets -underBinder -merge y0
  exact (CtlKept.upd h rfl rfl rfl rfl rfl rfl rfl rfl rfl)

theorem dropQpCmds_ctlKept {s0 s : State} (h : CtlKept s0 s) (a0) : CtlKept s0 (dropQpCmds a0 s) := by
  unfold dropQpCmds
  refine CtlKept.foldl ?_ (fun y0 a hy0 => ?_)
  · exact h
  · beta_reduce
    exact (dropCmd_ctlKept hy0 ..)

theorem endFunction_ctlKept {s0 s : State} (h : CtlKept s0 s) (a0) : CtlKept s0 (endFunction a0 s) := by
  unfold endFunction
  extract_lets -underBinder -merge y0 y1 y2 y3
  have hy2 : CtlKept s0 y2 := (endCmds_ctlKept h ..)
  have hy3 : CtlKept s0 y3 := by
    refine CtlKept.foldl ?_ (fun y4 a hy4 => ?_)
    · exact hy2
    · beta_reduce
      refine CtlKept.foldl ?_ (fun y5 a hy5 => ?_)
      · exact hy4
      · beta_reduce
        exact (carryOn_ctlKept hy5 ..)
  try clear_value y3
  exact (takeReturns_ctlKept (shutdownCheck_ctlKept (updFn_ctlKept (dropQpCmds_ctlKept hy3 ..) ..) ..) ..)

theorem retiredCheck_ctlKept {s0 s : State} (h : CtlKept s0 s) (a0) : CtlKept s0 (retiredCheck a0 s) := by
  unfold retiredCheck
  exact (raiseIf_ctlKept h ..)

theorem retireKeys_ctlKept {s0 s : State} (h : CtlKept s0 s) (a0) : CtlKept s0 (retireKeys a0 s) := by
  unfold retireKeys
  exact (settle_ctlKept (retireMarks_ctlKept (markEnded_ctlKept h ..) ..) ..)

theorem resetFnRegs_ctlKept {s0 s : State} (h : CtlKept s0 s) (a0) : CtlKept s0 (resetFnRegs a0 s) := by
  unfold resetFnRegs
  exact (updFn_ctlKept h ..)

end Sys2Proof.Machine
end

