-- ==== Sys2Proof/Laws/Exec.lean ====
section
/-! SUPPORT. The dispatch of each command, as an equation: what `exec` does with a constructor is its one meaning. -/

namespace Sys2Proof.Machine

@[simp] theorem exec_registerWrite (fn offset wide value) (s : State) :
    exec (.registerWrite fn offset wide value) s = execRegisterWrite fn offset wide value s := rfl
@[simp] theorem exec_registerLowWordRead (fn offset wide) (s : State) :
    exec (.registerLowWordRead fn offset wide) s = execRegisterLowWordRead fn offset wide s := rfl
@[simp] theorem exec_enable (fn) (s : State) :
    exec (.enable fn) s = execEnable fn s := rfl
@[simp] theorem exec_disable (fn) (s : State) :
    exec (.disable fn) s = execDisable fn s := rfl
@[simp] theorem exec_shutdown (fn) (s : State) :
    exec (.shutdown fn) s = execShutdown fn s := rfl
@[simp] theorem exec_shutdownResume (fn) (s : State) :
    exec (.shutdownResume fn) s = execShutdownResume fn s := rfl
@[simp] theorem exec_aqReset (fn withRestart) (s : State) :
    exec (.aqReset fn withRestart) s = execAqReset fn withRestart s := rfl
@[simp] theorem exec_aqRestart (fn) (s : State) :
    exec (.aqRestart fn) s = execAqRestart fn s := rfl
@[simp] theorem exec_sqTailDoorbell (fn qp value) (s : State) :
    exec (.sqTailDoorbell fn qp value) s = execSqTailDoorbell fn qp value s := rfl
@[simp] theorem exec_cqHeadDoorbell (fn qp value) (s : State) :
    exec (.cqHeadDoorbell fn qp value) s = execCqHeadDoorbell fn qp value s := rfl
@[simp] theorem exec_heldCompletionPost (fn qp) (s : State) :
    exec (.heldCompletionPost fn qp) s = execHeldCompletionPost fn qp s := rfl
@[simp] theorem exec_fetchGrant (s : State) :
    exec (.fetchGrant) s = execFetchGrant s := rfl
@[simp] theorem exec_commandSlotAllocate (fn qp) (s : State) :
    exec (.commandSlotAllocate fn qp) s = execCommandSlotAllocate fn qp s := rfl
@[simp] theorem exec_sqEntryReadFailure (fn qp access) (s : State) :
    exec (.sqEntryReadFailure fn qp access) s = execSqEntryReadFailure fn qp access s := rfl
@[simp] theorem exec_dataTransferFailure (slot access offset) (s : State) :
    exec (.dataTransferFailure slot access offset) s = execDataTransferFailure slot access offset s := rfl
@[simp] theorem exec_completionWriteFailure (fn qp access later) (s : State) :
    exec (.completionWriteFailure fn qp access later) s = execCompletionWriteFailure fn qp access later s := rfl
@[simp] theorem exec_hostReadTimeout (slot offset) (s : State) :
    exec (.hostReadTimeout slot offset) s = execHostReadTimeout slot offset s := rfl
@[simp] theorem exec_hostDataReadDone (slot kind buf bytes words) (s : State) :
    exec (.hostDataReadDone slot kind buf bytes words) s = execHostDataReadDone slot kind buf bytes words s := rfl
@[simp] theorem exec_intTimeExpiry (fn qp) (s : State) :
    exec (.intTimeExpiry fn qp) s = execIntTimeExpiry fn qp s := rfl
@[simp] theorem exec_msixUnmask (fn vector) (s : State) :
    exec (.msixUnmask fn vector) s = execMsixUnmask fn vector s := rfl
@[simp] theorem exec_fetchQueueMismatch (fn qp write read) (s : State) :
    exec (.fetchQueueMismatch fn qp write read) s = execFetchQueueMismatch fn qp write read s := rfl
@[simp] theorem exec_flr (fn) (s : State) :
    exec (.flr fn) s = execFlr fn s := rfl
@[simp] theorem exec_vfEnableSet (numVfs) (s : State) :
    exec (.vfEnableSet numVfs) s = execVfEnableSet numVfs s := rfl
@[simp] theorem exec_vfEnableClear (s : State) :
    exec (.vfEnableClear) s = execVfEnableClear s := rfl
@[simp] theorem exec_unknownOpcode (slot) (s : State) :
    exec (.unknownOpcode slot) s = execUnknownOpcode slot s := rfl
@[simp] theorem exec_createQp (slot) (s : State) :
    exec (.createQp slot) s = execCreateQp slot s := rfl
@[simp] theorem exec_deleteQp (slot) (s : State) :
    exec (.deleteQp slot) s = execDeleteQp slot s := rfl
@[simp] theorem exec_queueRestart (slot) (s : State) :
    exec (.queueRestart slot) s = execQueueRestart slot s := rfl
@[simp] theorem exec_queueReset (slot) (s : State) :
    exec (.queueReset slot) s = execQueueReset slot s := rfl
@[simp] theorem exec_queueResetCut (fn qp) (s : State) :
    exec (.queueResetCut fn qp) s = execQueueResetCut fn qp s := rfl
@[simp] theorem exec_getLog (slot) (s : State) :
    exec (.getLog slot) s = execGetLog slot s := rfl
@[simp] theorem exec_dictRead (slot) (s : State) :
    exec (.dictRead slot) s = execDictRead slot s := rfl
@[simp] theorem exec_dictWrite (slot value) (s : State) :
    exec (.dictWrite slot value) s = execDictWrite slot value s := rfl
@[simp] theorem exec_dictPersistDone (ok) (s : State) :
    exec (.dictPersistDone ok) s = execDictPersistDone ok s := rfl
@[simp] theorem exec_keyLoad (slot data) (s : State) :
    exec (.keyLoad slot data) s = execKeyLoad slot data s := rfl
@[simp] theorem exec_keyUnload (slot) (s : State) :
    exec (.keyUnload slot) s = execKeyUnload slot s := rfl
@[simp] theorem exec_fwDownload (slot piece flashOk) (s : State) :
    exec (.fwDownload slot piece flashOk) s = execFwDownload slot piece flashOk s := rfl
@[simp] theorem exec_fwActivate (slot) (s : State) :
    exec (.fwActivate slot) s = execFwActivate slot s := rfl
@[simp] theorem exec_fwActivateSwap (gloveOk) (s : State) :
    exec (.fwActivateSwap gloveOk) s = execFwActivateSwap gloveOk s := rfl
@[simp] theorem exec_fwStartConfirmed (s : State) :
    exec (.fwStartConfirmed) s = execFwStartConfirmed s := rfl
@[simp] theorem exec_fwStartTimeout (s : State) :
    exec (.fwStartTimeout) s = execFwStartTimeout s := rfl
@[simp] theorem exec_cartridgeLoad (slot) (s : State) :
    exec (.cartridgeLoad slot) s = execCartridgeLoad slot s := rfl
@[simp] theorem exec_loadIndexRead (region head0 head1 copies) (s : State) :
    exec (.loadIndexRead region head0 head1 copies) s = execLoadIndexRead region head0 head1 copies s := rfl
@[simp] theorem exec_loadScan (find) (s : State) :
    exec (.loadScan find) s = execLoadScan find s := rfl
@[simp] theorem exec_journalCheck (tail) (s : State) :
    exec (.journalCheck tail) s = execJournalCheck tail s := rfl
@[simp] theorem exec_cartridgeUnload (slot) (s : State) :
    exec (.cartridgeUnload slot) s = execCartridgeUnload slot s := rfl
@[simp] theorem exec_unthreadDone (ok) (s : State) :
    exec (.unthreadDone ok) s = execUnthreadDone ok s := rfl
@[simp] theorem exec_cartridgeFormat (slot) (s : State) :
    exec (.cartridgeFormat slot) s = execCartridgeFormat slot s := rfl
@[simp] theorem exec_rebuildRange (slot ecc) (s : State) :
    exec (.rebuildRange slot ecc) s = execRebuildRange slot ecc s := rfl
@[simp] theorem exec_streamCreate (slot) (s : State) :
    exec (.streamCreate slot) s = execStreamCreate slot s := rfl
@[simp] theorem exec_streamOpen (slot ecc) (s : State) :
    exec (.streamOpen slot ecc) s = execStreamOpen slot ecc s := rfl
@[simp] theorem exec_streamClose (slot) (s : State) :
    exec (.streamClose slot) s = execStreamClose slot s := rfl
@[simp] theorem exec_write (slot) (s : State) :
    exec (.write slot) s = execWrite slot s := rfl
@[simp] theorem exec_read (slot ecc) (s : State) :
    exec (.read slot ecc) s = execRead slot ecc s := rfl
@[simp] theorem exec_readRaw (slot ecc) (s : State) :
    exec (.readRaw slot ecc) s = execReadRaw slot ecc s := rfl
@[simp] theorem exec_flush (slot) (s : State) :
    exec (.flush slot) s = execFlush slot s := rfl
@[simp] theorem exec_drainComplete (slot) (s : State) :
    exec (.drainComplete slot) s = execDrainComplete slot s := rfl
@[simp] theorem exec_runAssign (slot ecc tagOk) (s : State) :
    exec (.runAssign slot ecc tagOk) s = execRunAssign slot ecc tagOk s := rfl
@[simp] theorem exec_orderedRunRelease (slot) (s : State) :
    exec (.orderedRunRelease slot) s = execOrderedRunRelease slot s := rfl
@[simp] theorem exec_leaseWaitRelease (slot) (s : State) :
    exec (.leaseWaitRelease slot) s = execLeaseWaitRelease slot s := rfl
@[simp] theorem exec_throttleRelease (s : State) :
    exec (.throttleRelease) s = execThrottleRelease s := rfl
@[simp] theorem exec_intakeDataArrival (slot bytes) (s : State) :
    exec (.intakeDataArrival slot bytes) s = execIntakeDataArrival slot bytes s := rfl
@[simp] theorem exec_packerIdleClose (stream) (s : State) :
    exec (.packerIdleClose stream) s = execPackerIdleClose stream s := rfl
@[simp] theorem exec_mediumCloseDelay (s : State) :
    exec (.mediumCloseDelay) s = execMediumCloseDelay s := rfl
@[simp] theorem exec_laneSwitch (engine stream lane ecc) (s : State) :
    exec (.laneSwitch engine stream lane ecc) s = execLaneSwitch engine stream lane ecc s := rfl
@[simp] theorem exec_blockEncoded (engine payload ecc tagOk) (s : State) :
    exec (.blockEncoded engine payload ecc tagOk) s = execBlockEncoded engine payload ecc tagOk s := rfl
@[simp] theorem exec_rawCopyDone (engine crcOk ecc) (s : State) :
    exec (.rawCopyDone engine crcOk ecc) s = execRawCopyDone engine crcOk ecc s := rfl
@[simp] theorem exec_cipherTakePacket (pair engine ecc tagOk) (s : State) :
    exec (.cipherTakePacket pair engine ecc tagOk) s = execCipherTakePacket pair engine ecc tagOk s := rfl
@[simp] theorem exec_blockEncrypted (pair ecc tagOk) (s : State) :
    exec (.blockEncrypted pair ecc tagOk) s = execBlockEncrypted pair ecc tagOk s := rfl
@[simp] theorem exec_ivReservePersistDone (ok) (s : State) :
    exec (.ivReservePersistDone ok) s = execIvReservePersistDone ok s := rfl
@[simp] theorem exec_blockDecrypted (pair block ecc tagOk) (s : State) :
    exec (.blockDecrypted pair block ecc tagOk) s = execBlockDecrypted pair block ecc tagOk s := rfl
@[simp] theorem exec_blockDecode (engine block ecc tagOk) (s : State) :
    exec (.blockDecode engine block ecc tagOk) s = execBlockDecode engine block ecc tagOk s := rfl
@[simp] theorem exec_slotRetireComplete (key) (s : State) :
    exec (.slotRetireComplete key) s = execSlotRetireComplete key s := rfl
@[simp] theorem exec_entropyHealthFail (s : State) :
    exec (.entropyHealthFail) s = execEntropyHealthFail s := rfl
@[simp] theorem exec_drbgReseed (s : State) :
    exec (.drbgReseed) s = execDrbgReseed s := rfl
@[simp] theorem exec_counterRetire (blob) (s : State) :
    exec (.counterRetire blob) s = execCounterRetire blob s := rfl
@[simp] theorem exec_alloc (reqs) (s : State) :
    exec (.alloc reqs) s = execAlloc reqs s := rfl
@[simp] theorem exec_ref (owner pool index tag parity) (s : State) :
    exec (.ref owner pool index tag parity) s = execRef owner pool index tag parity s := rfl
@[simp] theorem exec_give (owner pool index newOwner tag parity) (s : State) :
    exec (.give owner pool index newOwner tag parity) s = execGive owner pool index newOwner tag parity s := rfl
@[simp] theorem exec_free (owner pool index tag parity) (s : State) :
    exec (.free owner pool index tag parity) s = execFree owner pool index tag parity s := rfl
@[simp] theorem exec_heldRequestGrant (s : State) :
    exec (.heldRequestGrant) s = execHeldRequestGrant s := rfl
@[simp] theorem exec_poolStallLimit (request) (s : State) :
    exec (.poolStallLimit request) s = execPoolStallLimit request s := rfl
@[simp] theorem exec_patrolScrub (addr single double) (s : State) :
    exec (.patrolScrub addr single double) s = execPatrolScrub addr single double s := rfl
@[simp] theorem exec_checkpointTimer (s : State) :
    exec (.checkpointTimer) s = execCheckpointTimer s := rfl
@[simp] theorem exec_checkpointCopyVerified (s : State) :
    exec (.checkpointCopyVerified) s = execCheckpointCopyVerified s := rfl
@[simp] theorem exec_readBatchWindow (s : State) :
    exec (.readBatchWindow) s = execReadBatchWindow s := rfl
@[simp] theorem exec_readAgeLimit (dataset) (s : State) :
    exec (.readAgeLimit dataset) s = execReadAgeLimit dataset s := rfl
@[simp] theorem exec_writePassStart (s : State) :
    exec (.writePassStart) s = execWritePassStart s := rfl
@[simp] theorem exec_datasetEncodeStart (tagOk) (s : State) :
    exec (.datasetEncodeStart tagOk) s = execDatasetEncodeStart tagOk s := rfl
@[simp] theorem exec_datasetEncodeComplete (badOnce badTwice ecc) (s : State) :
    exec (.datasetEncodeComplete badOnce badTwice ecc) s = execDatasetEncodeComplete badOnce badTwice ecc s := rfl
@[simp] theorem exec_slotStart (underruns ecc) (s : State) :
    exec (.slotStart underruns ecc) s = execSlotStart underruns ecc s := rfl
@[simp] theorem exec_sectorVerdict (dataset chan row rd) (s : State) :
    exec (.sectorVerdict dataset chan row rd) s = execSectorVerdict dataset chan row rd s := rfl
@[simp] theorem exec_verifyLate (dataset chan row) (s : State) :
    exec (.verifyLate dataset chan row) s = execVerifyLate dataset chan row s := rfl
@[simp] theorem exec_datasetCommit (s : State) :
    exec (.datasetCommit) s = execDatasetCommit s := rfl
@[simp] theorem exec_datasetRelease (s : State) :
    exec (.datasetRelease) s = execDatasetRelease s := rfl
@[simp] theorem exec_writePassEnd (readsNeedTape) (s : State) :
    exec (.writePassEnd readsNeedTape) s = execWritePassEnd readsNeedTape s := rfl
@[simp] theorem exec_writeTailDataset (s : State) :
    exec (.writeTailDataset) s = execWriteTailDataset s := rfl
@[simp] theorem exec_eodBurstWrite (s : State) :
    exec (.eodBurstWrite) s = execEodBurstWrite s := rfl
@[simp] theorem exec_shockFall (lowNs) (s : State) :
    exec (.shockFall lowNs) s = execShockFall lowNs s := rfl
@[simp] theorem exec_writeGuardClear (s : State) :
    exec (.writeGuardClear) s = execWriteGuardClear s := rfl
@[simp] theorem exec_tfaultLow (low) (s : State) :
    exec (.tfaultLow low) s = execTfaultLow low s := rfl
@[simp] theorem exec_cartPresentStable (level) (s : State) :
    exec (.cartPresentStable level) s = execCartPresentStable level s := rfl
@[simp] theorem exec_wprotStable (level) (s : State) :
    exec (.wprotStable level) s = execWprotStable level s := rfl
@[simp] theorem exec_clockReaderLoss (reader loss) (s : State) :
    exec (.clockReaderLoss reader loss) s = execClockReaderLoss reader loss s := rfl
@[simp] theorem exec_clockReaderValid (reader sign) (s : State) :
    exec (.clockReaderValid reader sign) s = execClockReaderValid reader sign s := rfl
@[simp] theorem exec_tlcsLockAcquired (s : State) :
    exec (.tlcsLockAcquired) s = execTlcsLockAcquired s := rfl
@[simp] theorem exec_flywheelLimit (since) (s : State) :
    exec (.flywheelLimit since) s = execFlywheelLimit since s := rfl
@[simp] theorem exec_servoFrameBoundary (upper frame since intervals) (s : State) :
    exec (.servoFrameBoundary upper frame since intervals) s = execServoFrameBoundary upper frame since intervals s := rfl
@[simp] theorem exec_servoWord (upper) (s : State) :
    exec (.servoWord upper) s = execServoWord upper s := rfl
@[simp] theorem exec_tiltUpdate (crossings) (s : State) :
    exec (.tiltUpdate crossings) s = execTiltUpdate crossings s := rfl
@[simp] theorem exec_syncWindowOpen (chan slot grid wrap) (s : State) :
    exec (.syncWindowOpen chan slot grid wrap) s = execSyncWindowOpen chan slot grid wrap s := rfl
@[simp] theorem exec_sectorReport (chan rd) (s : State) :
    exec (.sectorReport chan rd) s = execSectorReport chan rd s := rfl
@[simp] theorem exec_channelReset (chan) (s : State) :
    exec (.channelReset chan) s = execChannelReset chan s := rfl
@[simp] theorem exec_datasetDecode (ecc) (s : State) :
    exec (.datasetDecode ecc) s = execDatasetDecode ecc s := rfl
@[simp] theorem exec_harvestRead (ecc) (s : State) :
    exec (.harvestRead ecc) s = execHarvestRead ecc s := rfl
@[simp] theorem exec_readRetry (ecc) (s : State) :
    exec (.readRetry ecc) s = execReadRetry ecc s := rfl
@[simp] theorem exec_chCommandFail (chan) (s : State) :
    exec (.chCommandFail chan) s = execChCommandFail chan s := rfl
@[simp] theorem exec_chCommandRestore (chan) (s : State) :
    exec (.chCommandRestore chan) s = execChCommandRestore chan s := rfl
@[simp] theorem exec_replaceAcknowledge (bits) (s : State) :
    exec (.replaceAcknowledge bits) s = execReplaceAcknowledge bits s := rfl
@[simp] theorem exec_latSample (overrun) (s : State) :
    exec (.latSample overrun) s = execLatSample overrun s := rfl
@[simp] theorem exec_reelSSample (overrun) (s : State) :
    exec (.reelSSample overrun) s = execReelSSample overrun s := rfl
@[simp] theorem exec_reelTSample (overrun) (s : State) :
    exec (.reelTSample overrun) s = execReelTSample overrun s := rfl
@[simp] theorem exec_skewSample (overrun) (s : State) :
    exec (.skewSample overrun) s = execSkewSample overrun s := rfl
@[simp] theorem exec_aslKeepalive (s : State) :
    exec (.aslKeepalive) s = execAslKeepalive s := rfl
@[simp] theorem exec_aslStatusFrame (frame) (s : State) :
    exec (.aslStatusFrame frame) s = execAslStatusFrame frame s := rfl
@[simp] theorem exec_tceBackground (s : State) :
    exec (.tceBackground) s = execTceBackground s := rfl
@[simp] theorem exec_servoReaderPosition (reader dAB dAC stripes) (s : State) :
    exec (.servoReaderPosition reader dAB dAC stripes) s = execServoReaderPosition reader dAB dAC stripes s := rfl
@[simp] theorem exec_tachEdge (takeUp cycles reverse) (s : State) :
    exec (.tachEdge takeUp cycles reverse) s = execTachEdge takeUp cycles reverse s := rfl
@[simp] theorem exec_threadRequest (s : State) :
    exec (.threadRequest) s = execThreadRequest s := rfl
@[simp] theorem exec_motionRequest (speedMms) (s : State) :
    exec (.motionRequest speedMms) s = execMotionRequest speedMms s := rfl
@[simp] theorem exec_stopRequest (s : State) :
    exec (.stopRequest) s = execStopRequest s := rfl
@[simp] theorem exec_tceFaultClear (bits) (s : State) :
    exec (.tceFaultClear bits) s = execTceFaultClear bits s := rfl
@[simp] theorem exec_satHourEnd (s : State) :
    exec (.satHourEnd) s = execSatHourEnd s := rfl
@[simp] theorem exec_headFrontPoll (silent) (s : State) :
    exec (.headFrontPoll silent) s = execHeadFrontPoll silent s := rfl
@[simp] theorem exec_headFrontStatus (frame) (s : State) :
    exec (.headFrontStatus frame) s = execHeadFrontStatus frame s := rfl
@[simp] theorem exec_dictWindowRead (fn) (s : State) :
    exec (.dictWindowRead fn) s = execDictWindowRead fn s := rfl
@[simp] theorem exec_dictWindowWrite (fn length) (s : State) :
    exec (.dictWindowWrite fn length) s = execDictWindowWrite fn length s := rfl
@[simp] theorem exec_dictRestoreArm (s : State) :
    exec (.dictRestoreArm) s = execDictRestoreArm s := rfl
@[simp] theorem exec_dictRestoreConfirm (s : State) :
    exec (.dictRestoreConfirm) s = execDictRestoreConfirm s := rfl
@[simp] theorem exec_dictRestoreTimeout (s : State) :
    exec (.dictRestoreTimeout) s = execDictRestoreTimeout s := rfl
@[simp] theorem exec_staxaKeyWrite (k key) (s : State) :
    exec (.staxaKeyWrite k key) s = execStaxaKeyWrite k key s := rfl
@[simp] theorem exec_staxaOpen (nonce timeout keyId tag) (s : State) :
    exec (.staxaOpen nonce timeout keyId tag) s = execStaxaOpen nonce timeout keyId tag s := rfl
@[simp] theorem exec_staxaRequest (session seq ops tag) (s : State) :
    exec (.staxaRequest session seq ops tag) s = execStaxaRequest session seq ops tag s := rfl
@[simp] theorem exec_staxaClose (session seq tag) (s : State) :
    exec (.staxaClose session seq tag) s = execStaxaClose session seq tag s := rfl
@[simp] theorem exec_unusableDatagram (d) (s : State) :
    exec (.unusableDatagram d) s = execUnusableDatagram d s := rfl
@[simp] theorem exec_staxaSessionTimeout (session) (s : State) :
    exec (.staxaSessionTimeout session) s = execStaxaSessionTimeout session s := rfl
@[simp] theorem exec_arpRequest (target) (s : State) :
    exec (.arpRequest target) s = execArpRequest target s := rfl
@[simp] theorem exec_icmpEcho (v6 target payload) (s : State) :
    exec (.icmpEcho v6 target payload) s = execIcmpEcho v6 target payload s := rfl
@[simp] theorem exec_neighborDiscovery (target) (s : State) :
    exec (.neighborDiscovery target) s = execNeighborDiscovery target s := rfl
@[simp] theorem exec_flashRead (desc) (s : State) :
    exec (.flashRead desc) s = execFlashRead desc s := rfl
@[simp] theorem exec_flashReadDone (errors meta8) (s : State) :
    exec (.flashReadDone errors meta8) s = execFlashReadDone errors meta8 s := rfl
@[simp] theorem exec_flashProgram (desc) (s : State) :
    exec (.flashProgram desc) s = execFlashProgram desc s := rfl
@[simp] theorem exec_flashProgramDone (ok) (s : State) :
    exec (.flashProgramDone ok) s = execFlashProgramDone ok s := rfl
@[simp] theorem exec_flashErase (desc) (s : State) :
    exec (.flashErase desc) s = execFlashErase desc s := rfl
@[simp] theorem exec_flashEraseDone (ok) (s : State) :
    exec (.flashEraseDone ok) s = execFlashEraseDone ok s := rfl
@[simp] theorem exec_eraseSuspend (s : State) :
    exec (.eraseSuspend) s = execEraseSuspend s := rfl
@[simp] theorem exec_eraseResume (s : State) :
    exec (.eraseResume) s = execEraseResume s := rfl
@[simp] theorem exec_fetchMiss (core block page) (s : State) :
    exec (.fetchMiss core block page) s = execFetchMiss core block page s := rfl
@[simp] theorem exec_vflBrownout (s : State) :
    exec (.vflBrownout) s = execVflBrownout s := rfl
@[simp] theorem exec_brownoutRelease (s : State) :
    exec (.brownoutRelease) s = execBrownoutRelease s := rfl
@[simp] theorem exec_flashDiagDescriptor (desc) (s : State) :
    exec (.flashDiagDescriptor desc) s = execFlashDiagDescriptor desc s := rfl
@[simp] theorem exec_evqPop (parity) (s : State) :
    exec (.evqPop parity) s = execEvqPop parity s := rfl
@[simp] theorem exec_evqLostClear (s : State) :
    exec (.evqLostClear) s = execEvqLostClear s := rfl
@[simp] theorem exec_evqArm (s : State) :
    exec (.evqArm) s = execEvqArm s := rfl
@[simp] theorem exec_eventLogCopy (parity) (s : State) :
    exec (.eventLogCopy parity) s = execEventLogCopy parity s := rfl
@[simp] theorem exec_eventLogRead (reader) (s : State) :
    exec (.eventLogRead reader) s = execEventLogRead reader s := rfl
@[simp] theorem exec_domainResetWrite (mgmt code) (s : State) :
    exec (.domainResetWrite mgmt code) s = execDomainResetWrite mgmt code s := rfl
@[simp] theorem exec_domainReady (code testsPass) (s : State) :
    exec (.domainReady code testsPass) s = execDomainReady code testsPass s := rfl
@[simp] theorem exec_perst (s : State) :
    exec (.perst) s = execPerst s := rfl
@[simp] theorem exec_hotReset (s : State) :
    exec (.hotReset) s = execHotReset s := rfl
@[simp] theorem exec_sysrst (lowNs) (s : State) :
    exec (.sysrst lowNs) s = execSysrst lowNs s := rfl
@[simp] theorem exec_porst (lowNs) (s : State) :
    exec (.porst lowNs) s = execPorst lowNs s := rfl
@[simp] theorem exec_supplyMonitorTrip (rail) (s : State) :
    exec (.supplyMonitorTrip rail) s = execSupplyMonitorTrip rail s := rfl
@[simp] theorem exec_watchdogExpiry (s : State) :
    exec (.watchdogExpiry) s = execWatchdogExpiry s := rfl
@[simp] theorem exec_idleToPs1 (s : State) :
    exec (.idleToPs1) s = execIdleToPs1 s := rfl
@[simp] theorem exec_idleToPs2 (s : State) :
    exec (.idleToPs2) s = execIdleToPs2 s := rfl
@[simp] theorem exec_idleToPs3 (s : State) :
    exec (.idleToPs3) s = execIdleToPs3 s := rfl
@[simp] theorem exec_powerStateRequest (n) (s : State) :
    exec (.powerStateRequest n) s = execPowerStateRequest n s := rfl
@[simp] theorem exec_wake (s : State) :
    exec (.wake) s = execWake s := rfl
@[simp] theorem exec_powerStateReached (s : State) :
    exec (.powerStateReached) s = execPowerStateReached s := rfl
@[simp] theorem exec_d3hotEntry (s : State) :
    exec (.d3hotEntry) s = execD3hotEntry s := rfl
@[simp] theorem exec_d0Return (s : State) :
    exec (.d0Return) s = execD0Return s := rfl
@[simp] theorem exec_lcChallengeRead (s : State) :
    exec (.lcChallengeRead) s = execLcChallengeRead s := rfl
@[simp] theorem exec_lcChallengeExpiry (s : State) :
    exec (.lcChallengeExpiry) s = execLcChallengeExpiry s := rfl
@[simp] theorem exec_lcRequest (principal token) (s : State) :
    exec (.lcRequest principal token) s = execLcRequest principal token s := rfl
@[simp] theorem exec_lcFuseProgrammed (ok) (s : State) :
    exec (.lcFuseProgrammed ok) s = execLcFuseProgrammed ok s := rfl
@[simp] theorem exec_jtagInstruction (ji) (s : State) :
    exec (.jtagInstruction ji) s = execJtagInstruction ji s := rfl
@[simp] theorem exec_uartRxByte (b) (s : State) :
    exec (.uartRxByte b) s = execUartRxByte b s := rfl
@[simp] theorem exec_temperatureSample (eighths) (s : State) :
    exec (.temperatureSample eighths) s = execTemperatureSample eighths s := rfl
@[simp] theorem exec_fetchReadReturn (fn qp entries) (s : State) :
    exec (.fetchReadReturn fn qp entries) s = execFetchReadReturn fn qp entries s := rfl

end Sys2Proof.Machine
end

