-- ==== Sys2Proof/Laws/Goes.lean ====
section
/-! SUPPORT. A command that goes on: it answers a next state, and that state follows calmly. Each command has one lemma
`exec<Name>_goes` in the files beside this one. -/

namespace Sys2Proof.Machine

/-- The outcome is a next state that `Calm` relates to the state before. -/
def Goes (s : State) (r : Result) : Prop := ∃ t, r = .next t ∧ Calm s t

theorem Goes.next {s t : State} (h : Calm s t) : Goes s (.next t) := ⟨t, rfl, h⟩

theorem Goes.ite {s : State} {p : Prop} [Decidable p] {a b : Result} (ha : Goes s a) (hb : Goes s b) :
    Goes s (if p then a else b) := by
  split
  · exact ha
  · exact hb

/-- What `Goes` says of a next state. -/
theorem Goes.calm {s t : State} {r : Result} (h : Goes s r) (e : r = .next t) : Calm s t := by
  obtain ⟨u, hu, hc⟩ := h
  cases hu.symm.trans e
  exact hc

end Sys2Proof.Machine
end

