-- ==== Sys2Proof/Laws/GoesBpm.lean ====
section
/-! SUPPORT. The commands of Machine/Bpm.lean go on, and keep what `Calm` says. -/

namespace Sys2Proof.Machine

theorem execPoolStallLimit_goes {s0 s : State} (h : Calm s0 s) (a0) : Goes s0 (execPoolStallLimit a0 s) := by
  unfold execPoolStallLimit
  split
  · exact Goes.next h
  · exact Goes.next (raise_calm h ..)

theorem execPatrolScrub_goes {s0 s : State} (h : Calm s0 s) (a0 a1 a2) : Goes s0 (execPatrolScrub a0 a1 a2 s) := by
  unfold execPatrolScrub
  extract_lets -underBinder -merge y0 y1 y2
  have hy2 : Calm s0 y2 := by
    refine Calm.ite ?_ ?_
    · exact (Calm.upd h rfl rfl rfl rfl rfl rfl)
    · exact h
  try clear_value y2
  refine Goes.ite ?_ ?_
  · exact Goes.next h
  · refine Goes.ite ?_ ?_
    · exact Goes.next (uncorrected_calm hy2 ..)
    · refine Goes.ite ?_ ?_
      · exact Goes.next (corrected_calm hy2 ..)
      · exact Goes.next hy2

end Sys2Proof.Machine
end

