-- ==== Sys2Proof/Laws/GoesBuffers.lean ====
section
/-! SUPPORT. The commands of Machine/Buffers.lean go on, and keep what `Calm` says. -/

namespace Sys2Proof.Machine

theorem execAlloc_goes {s0 s : State} (h : Calm s0 s) (a0) : Goes s0 (execAlloc a0 s) := by
  unfold execAlloc
  refine Goes.next (Calm.foldl ?_ fun _ _ ht => retryReq_calm ht ..)
  exact Calm.foldl_fst h fun _ _ ht => decideReq_calm ht ..

theorem execRef_goes {s0 s : State} (h : Calm s0 s) (a0 a1 a2 a3 a4) : Goes s0 (execRef a0 a1 a2 a3 a4 s) := by
  unfold execRef
  exact Goes.next (bufRequest_calm h ..)

theorem execGive_goes {s0 s : State} (h : Calm s0 s) (a0 a1 a2 a3 a4 a5) : Goes s0 (execGive a0 a1 a2 a3 a4 a5 s) := by
  unfold execGive
  exact Goes.next (bufRequest_calm h ..)

theorem execFree_goes {s0 s : State} (h : Calm s0 s) (a0 a1 a2 a3 a4) : Goes s0 (execFree a0 a1 a2 a3 a4 s) := by
  unfold execFree
  exact Goes.next (bufRequest_calm h ..)

end Sys2Proof.Machine
end

