-- ==== Sys2Proof/Laws/GoesBuilder.lean ====
section
/-! SUPPORT. The commands of Machine/Builder.lean go on, and keep what `Calm` says. -/

namespace Sys2Proof.Machine

theorem execHeldRequestGrant_goes {s0 s : State} (h : Calm s0 s) : Goes s0 (execHeldRequestGrant s) := by
  unfold execHeldRequestGrant
  split
  · exact Goes.next h
  · rename_i t x id e
    have ht : Calm s0 t := grantHeld_calm h _ e
    extract_lets -underBinder -merge y0
    exact Goes.ite (Goes.next (settle_calm (openInBuf_calm ht ..) ..)) (Goes.next (takeGrant_calm ht ..))

end Sys2Proof.Machine
end

