-- ==== Sys2Proof/Laws/GoesCartridge.lean ====
section
/-! SUPPORT. The commands of Machine/Cartridge.lean go on, and keep what `Calm` says. -/

namespace Sys2Proof.Machine

theorem execCartridgeLoad_goes {s0 s : State} (h : Calm s0 s) (a0) : Goes s0 (execCartridgeLoad a0 s) := by
  unfold execCartridgeLoad
  refine Goes.next ?_
  refine onCmd_calm ?_ _ _ (fun c y0 hy0 => ?_)
  · exact h
  · beta_reduce
    extract_lets -underBinder -merge y1
    refine Calm.ite ?_ ?_
    · exact (finish_calm hy0 ..)
    · refine Calm.ite ?_ ?_
      · exact (finish_calm hy0 ..)
      · refine setStage_calm ?_ ..
        exact (Calm.upd hy0 rfl rfl rfl rfl rfl rfl)

theorem execLoadIndexRead_goes {s0 s : State} (h : Calm s0 s) (a0 a1 a2 a3) : Goes s0 (execLoadIndexRead a0 a1 a2 a3 s) := by
  unfold execLoadIndexRead
  split
  · exact Goes.next h
  · exact Goes.next h
  · extract_lets -underBinder -merge y0 y1 y2 y3 y4 y5 y6 y7 y8 y9 y10
    have hy0 : Calm s0 y0.2 := (loadTag_calm h ..)
    have hy2 : Calm s0 y2 := hy0
    have hy5 : Calm s0 y5 := (takeEqTarget_calm hy2 ..)
    have hy9 : Calm s0 y9 := (Calm.upd hy5 rfl rfl rfl rfl rfl rfl)
    try clear_value y9
    try clear_value y5
    try clear_value y0
    refine Goes.ite ?_ ?_
    · exact Goes.next h
    · refine Goes.ite ?_ ?_
      · exact Goes.next (refuseLoad_calm hy2 ..)
      · refine Goes.ite ?_ ?_
        · exact Goes.next (loadUnformatted_calm hy9 ..)
        · split
          · exact Goes.next (refuseLoad_calm hy9 ..)
          · extract_lets -underBinder -merge y11 y12 y13 y14 y15 y16
            have hy13 : Calm s0 y13 := (Calm.upd hy9 rfl rfl rfl rfl rfl rfl)
            have hy14 : Calm s0 y14.2 := (loadEntries_calm hy13 ..)
            have hy15 : Calm s0 y15 := hy14
            try clear_value y14
            try clear_value y13
            refine Goes.ite ?_ ?_
            · exact Goes.next (Calm.upd hy15 rfl rfl rfl rfl rfl rfl)
            · exact Goes.next (refuseLoad_calm hy14 ..)

theorem execLoadScan_goes {s0 s : State} (h : Calm s0 s) (a0) : Goes s0 (execLoadScan a0 s) := by
  unfold execLoadScan
  split
  · exact Goes.next h
  · extract_lets -underBinder -merge y0 y1 y2
    have hy0 : Calm s0 y0.2 := (loadTag_calm h ..)
    have hy2 : Calm s0 y2 := hy0
    try clear_value y0
    refine Goes.ite ?_ ?_
    · exact Goes.next h
    · refine Goes.ite ?_ ?_
      · exact Goes.next (endScan_calm hy2 ..)
      · split
        · split
          · refine Goes.next ?_
            refine Calm.ite ?_ ?_
            · exact (scanFound_calm hy2 ..)
            · exact (endScan_calm hy2 ..)
          · exact Goes.next (scanDamaged_calm hy2 ..)
        · exact Goes.next (scanDamaged_calm hy2 ..)
        · exact Goes.next (endScan_calm hy2 ..)
        · exact Goes.next (endScan_calm hy2 ..)

theorem execJournalCheck_goes {s0 s : State} (h : Calm s0 s) (a0) : Goes s0 (execJournalCheck a0 s) := by
  unfold execJournalCheck
  split
  · exact Goes.next h
  · extract_lets -underBinder -merge y0 y1 y2 y3 y4 y5 y6
    have hy0 : Calm s0 y0.2 := (loadTag_calm h ..)
    have hy2 : Calm s0 y2 := hy0
    have hy5 : Calm s0 y5 := by
      refine Calm.foldl ?_ (fun y7 a hy7 => ?_)
      · exact hy2
      · beta_reduce
        extract_lets -underBinder -merge y8
        refine Calm.ite ?_ ?_
        · refine raise_calm ?_ ..
          exact (Calm.upd hy7 rfl rfl rfl rfl rfl rfl)
        · exact hy7
    have hy6 : Calm s0 y6 := by
      refine Calm.foldl ?_ (fun y9 a hy9 => ?_)
      · exact hy5
      · beta_reduce
        extract_lets -underBinder -merge y10 y11
        refine Calm.ite ?_ ?_
        · refine raise_calm ?_ ..
          exact (Calm.upd hy9 rfl rfl rfl rfl rfl rfl)
        · exact hy9
    try clear_value y6
    try clear_value y5
    try clear_value y0
    refine Goes.ite ?_ ?_
    · exact Goes.next h
    · exact Goes.next (endLoad_calm hy6 ..)

theorem execCartridgeUnload_goes {s0 s : State} (h : Calm s0 s) (a0) : Goes s0 (execCartridgeUnload a0 s) := by
  unfold execCartridgeUnload
  refine Goes.next ?_
  refine onCmd_calm ?_ _ _ (fun c y0 hy0 => ?_)
  · exact h
  · beta_reduce
    extract_lets -underBinder -merge y1 y2
    have hy1 : Calm s0 y1 := by
      refine Calm.ite ?_ ?_
      · exact (tceClear_calm hy0 ..)
      · exact hy0
    try clear_value y1
    refine Calm.ite ?_ ?_
    · exact (finish_calm hy0 ..)
    · refine Calm.ite ?_ ?_
      · exact (finish_calm hy0 ..)
      · refine startDrain_calm ?_ ..
        exact (Calm.upd hy1 rfl rfl rfl rfl rfl rfl)

theorem execUnthreadDone_goes {s0 s : State} (h : Calm s0 s) (a0) : Goes s0 (execUnthreadDone a0 s) := by
  unfold execUnthreadDone
  extract_lets -underBinder -merge y0 y1 y2 y3 y4 y5 y6
  have hy6 : Calm s0 y6 := by
    refine Calm.ite ?_ ?_
    · exact (clearCart_calm (transportOff_calm h ..) ..)
    · exact (Calm.upd h rfl rfl rfl rfl rfl rfl)
  try clear_value y6
  refine Goes.ite ?_ ?_
  · exact Goes.next h
  · clear_value y2
    split
    · extract_lets -underBinder -merge y7
      exact Goes.next (finish_calm (onPost_calm hy6 ..) ..)
    · exact Goes.next (finish_calm (onPost_calm hy6 ..) ..)
    · exact Goes.next (raiseIf_calm (enterCart_calm hy6 ..) ..)

theorem execCartridgeFormat_goes {s0 s : State} (h : Calm s0 s) (a0) : Goes s0 (execCartridgeFormat a0 s) := by
  unfold execCartridgeFormat
  refine Goes.next ?_
  refine onCmd_calm ?_ _ _ (fun c y0 hy0 => ?_)
  · exact h
  · beta_reduce
    extract_lets -underBinder -merge y1 y2 y3 y4
    have hy1 : Calm s0 y1 := (clearStreams_calm hy0 ..)
    have hy4 : Calm s0 y4 := (Calm.upd hy1 rfl rfl rfl rfl rfl rfl)
    try clear_value y4
    try clear_value y1
    refine Calm.ite ?_ ?_
    · exact (finish_calm (onPost_calm hy0 ..) ..)
    · refine Calm.ite ?_ ?_
      · exact hy0
      · exact (beginCkpt_calm (setStage_calm hy4 ..) ..)

theorem execCheckpointTimer_goes {s0 s : State} (h : Calm s0 s) : Goes s0 (execCheckpointTimer s) := by
  unfold execCheckpointTimer
  extract_lets -underBinder -merge y0
  refine Goes.ite ?_ ?_
  · exact Goes.next h
  · refine Goes.next ?_
    refine tryCkpt_calm ?_ ..
    exact (Calm.upd h rfl rfl rfl rfl rfl rfl)

theorem execCheckpointCopyVerified_goes {s0 s : State} (h : Calm s0 s) : Goes s0 (execCheckpointCopyVerified s) := by
  unfold execCheckpointCopyVerified
  split
  · exact Goes.next h
  · extract_lets -underBinder -merge y0
    refine Goes.ite ?_ ?_
    · exact Goes.next h
    · refine Goes.ite ?_ ?_
      · refine Goes.next ?_
        refine Calm.ite ?_ ?_
        · exact (startRead_calm (tryCkpt_calm (ckptFailed_calm h ..) ..) ..)
        · exact (copyAVerified_calm h ..)
      · refine Goes.ite ?_ ?_
        · exact Goes.next (afterCkpt_calm (raise_calm h ..) ..)
        · refine Goes.next ?_
          refine afterCkpt_calm ?_ ..
          exact (Calm.upd h rfl rfl rfl rfl rfl rfl)

theorem execDrainComplete_goes {s0 s : State} (h : Calm s0 s) (a0) : Goes s0 (execDrainComplete a0 s) := by
  unfold execDrainComplete
  split
  · exact Goes.next h
  · extract_lets -underBinder -merge y0
    split
    · extract_lets -underBinder -merge y1 y2
      have hy2 : Calm s0 y2 := (failIfStopped_calm h ..)
      try clear_value y2
      refine Goes.ite ?_ ?_
      · exact Goes.next hy2
      · refine Goes.ite ?_ ?_
        · exact Goes.next (flushDone_calm hy2 ..)
        · refine Goes.ite ?_ ?_
          · exact Goes.next (closeDone_calm hy2 ..)
          · refine Goes.ite ?_ ?_
            · exact Goes.next (unloadDrained_calm hy2 ..)
            · exact Goes.next hy2
    · split
      · extract_lets -underBinder -merge y3 y4 y5
        have hy4 : Calm s0 y4 := (failIfStopped_calm h ..)
        try clear_value y4
        refine Goes.ite ?_ ?_
        · exact Goes.next hy4
        · exact Goes.next (Calm.upd hy4 rfl rfl rfl rfl rfl rfl)
      · exact Goes.next h
    · exact Goes.next h

end Sys2Proof.Machine
end

