-- ==== Sys2Proof/Laws/GoesChannels.lean ====
section
/-! SUPPORT. The commands of Machine/Channels.lean go on, and keep what `Calm` says. -/

namespace Sys2Proof.Machine

theorem execSyncWindowOpen_goes {s0 s : State} (h : Calm s0 s) (a0 a1 a2 a3) : Goes s0 (execSyncWindowOpen a0 a1 a2 a3 s) := by
  unfold execSyncWindowOpen
  extract_lets -underBinder -merge y0
  exact Goes.next (drew_calm (updChan_calm h ..) ..)

theorem execSectorReport_goes {s0 s : State} (h : Calm s0 s) (a0 a1) : Goes s0 (execSectorReport a0 a1 s) := by
  unfold execSectorReport
  extract_lets -underBinder -merge y0
  split
  · exact Goes.next h
  · extract_lets -underBinder -merge y1
    exact Goes.next (deliverSector_calm (endSlot_calm h ..) ..)

theorem execSectorVerdict_goes {s0 s : State} (h : Calm s0 s) (a0 a1 a2 a3) : Goes s0 (execSectorVerdict a0 a1 a2 a3 s) := by
  unfold execSectorVerdict
  split
  · exact Goes.next h
  · extract_lets -underBinder -merge y0
    exact Goes.next (endSlot_calm (postVerdict_calm h ..) ..)

theorem execChannelReset_goes {s0 s : State} (h : Calm s0 s) (a0) : Goes s0 (execChannelReset a0 s) := by
  unfold execChannelReset
  exact Goes.next (resetChannel_calm h ..)

theorem execChCommandFail_goes {s0 s : State} (h : Calm s0 s) (a0) : Goes s0 (execChCommandFail a0 s) := by
  unfold execChCommandFail
  exact Goes.next (declareFailed_calm h ..)

theorem execChCommandRestore_goes {s0 s : State} (h : Calm s0 s) (a0) : Goes s0 (execChCommandRestore a0 s) := by
  unfold execChCommandRestore
  refine Goes.ite ?_ ?_
  · exact Goes.next h
  · exact Goes.next (restoreCommand_calm h ..)

end Sys2Proof.Machine
end

