-- ==== Sys2Proof/Laws/GoesCipher.lean ====
section
/-! SUPPORT. The commands of Machine/Cipher.lean go on, and keep what `Calm` says. -/

namespace Sys2Proof.Machine

theorem execKeyLoad_goes {s0 s : State} (h : Calm s0 s) (a0 a1) : Goes s0 (execKeyLoad a0 a1 s) := by
  unfold execKeyLoad
  refine Goes.next ?_
  refine onCmd_calm ?_ _ _ (fun c y0 hy0 => ?_)
  · exact h
  · beta_reduce
    extract_lets -underBinder -merge y1 y2 y3 y4 y5
    refine Calm.ite ?_ ?_
    · exact (finish_calm hy0 ..)
    · refine Calm.ite ?_ ?_
      · exact (finish_calm hy0 ..)
      · refine Calm.ite ?_ ?_
        · exact (finish_calm hy0 ..)
        · refine Calm.ite ?_ ?_
          · exact hy0
          · refine Calm.ite ?_ ?_
            · exact (installKek_calm hy0 ..)
            · refine Calm.ite ?_ ?_
              · split
                · exact (unwrapFail_calm hy0 ..)
                · refine Calm.ite ?_ ?_
                  · exact (installKek_calm hy0 ..)
                  · exact (unwrapFail_calm hy0 ..)
              · clear_value y3
                split
                · exact (finish_calm hy0 ..)
                · split
                  · exact (unwrapFail_calm hy0 ..)
                  · refine Calm.ite ?_ ?_
                    · exact (installKek_calm hy0 ..)
                    · exact (loadData_calm hy0 ..)

theorem execKeyUnload_goes {s0 s : State} (h : Calm s0 s) (a0) : Goes s0 (execKeyUnload a0 s) := by
  unfold execKeyUnload
  refine Goes.next ?_
  refine onCmd_calm ?_ _ _ (fun c y0 hy0 => ?_)
  · exact h
  · beta_reduce
    extract_lets -underBinder -merge y1
    split
    · exact (finish_calm hy0 ..)
    · extract_lets -underBinder -merge y2
      refine Calm.ite ?_ ?_
      · exact (finish_calm hy0 ..)
      · refine finish_calm ?_ ..
        exact (Calm.upd hy0 rfl rfl rfl rfl rfl rfl)

theorem execIvReservePersistDone_goes {s0 s : State} (h : Calm s0 s) (a0) : Goes s0 (execIvReservePersistDone a0 s) := by
  unfold execIvReservePersistDone
  split
  · exact Goes.next h
  · extract_lets -underBinder -merge y0 y1
    have hy1 : Calm s0 y1 := (Calm.upd h rfl rfl rfl rfl rfl rfl)
    try clear_value y1
    split
    · exact Goes.next (loadPersisted_calm hy1 ..)
    · exact Goes.next (prePersisted_calm hy1 ..)

theorem execCipherTakePacket_goes {s0 s : State} (h : Calm s0 s) (a0 a1 a2 a3) : Goes s0 (execCipherTakePacket a0 a1 a2 a3 s) := by
  unfold execCipherTakePacket
  split
  · exact Goes.next h
  · extract_lets -underBinder -merge y0
    refine Goes.ite ?_ ?_
    · exact Goes.next h
    · refine Goes.ite ?_ ?_
      · exact Goes.next (loseBlocks_calm h ..)
      · refine Goes.ite ?_ ?_
        · exact Goes.next (settle_calm (badTag_calm h ..) ..)
        · refine Goes.ite ?_ ?_
          · exact Goes.next (packetPoisoned_calm (eccReads_calm h ..) ..)
          · split
            · exact Goes.next (loseBlocks_calm h ..)
            · extract_lets -underBinder -merge y1
              have hy1 : Calm s0 y1.1 := (cipherBuf_calm h ..)
              try clear_value y1
              refine Goes.ite ?_ ?_
              · exact Goes.next (loseBlocks_calm h ..)
              · refine Goes.ite ?_ ?_
                · exact Goes.next (reserveMore_calm h ..)
                · split
                  · exact Goes.next hy1
                  · exact Goes.next (takeValue_calm (eccReads_calm hy1 ..) ..)

theorem execBlockEncrypted_goes {s0 s : State} (h : Calm s0 s) (a0 a1 a2) : Goes s0 (execBlockEncrypted a0 a1 a2 s) := by
  unfold execBlockEncrypted
  extract_lets -underBinder -merge y0
  split
  · extract_lets -underBinder -merge y1
    exact Goes.next (Calm.upd h rfl rfl rfl rfl rfl rfl)
  · extract_lets -underBinder -merge y2 y3 y4
    have hy4 : Calm s0 y4 := by
      refine eccReads_calm ?_ ..
      exact (Calm.upd h rfl rfl rfl rfl rfl rfl)
    try clear_value y4
    refine Goes.ite ?_ ?_
    · exact Goes.next (settle_calm (badTag_calm h ..) ..)
    · refine Goes.ite ?_ ?_
      · exact Goes.next (packetPoisoned_calm hy4 ..)
      · split
        · extract_lets -underBinder -merge y5 y6 y7 y8
          have hy7 : Calm s0 y7 := by
            refine countDraws_calm ?_ ..
            exact (Calm.upd hy4 rfl rfl rfl rfl rfl rfl)
          have hy8 : Calm s0 y8 := by
            subst y8
            split
            · exact (giveOwn_calm hy7 ..)
            · exact hy7
          try clear_value y8
          try clear_value y7
          exact Goes.next (offer_calm (setBlk_calm hy8 ..) ..)
        · exact Goes.next (loseBlocks_calm hy4 ..)

theorem execSlotRetireComplete_goes {s0 s : State} (h : Calm s0 s) (a0) : Goes s0 (execSlotRetireComplete a0 s) := by
  unfold execSlotRetireComplete
  split
  · exact Goes.next h
  · extract_lets -underBinder -merge y0 y1 y2
    refine Goes.ite ?_ ?_
    · exact Goes.next h
    · refine Goes.next ?_
      refine retiredCheck_calm ?_ ..
      exact (Calm.upd h rfl rfl rfl rfl rfl rfl)

theorem execEntropyHealthFail_goes {s0 s : State} (h : Calm s0 s) : Goes s0 (execEntropyHealthFail s) := by
  unfold execEntropyHealthFail
  extract_lets -underBinder -merge y0
  refine Goes.next ?_
  refine raise_calm ?_ ..
  exact (Calm.upd h rfl rfl rfl rfl rfl rfl)

theorem execDrbgReseed_goes {s0 s : State} (h : Calm s0 s) : Goes s0 (execDrbgReseed s) := by
  unfold execDrbgReseed
  extract_lets -underBinder -merge y0
  refine Goes.ite ?_ ?_
  · exact Goes.next h
  · exact Goes.next (Calm.upd h rfl rfl rfl rfl rfl rfl)

theorem execCounterRetire_goes {s0 s : State} (h : Calm s0 s) (a0) : Goes s0 (execCounterRetire a0 s) := by
  unfold execCounterRetire
  extract_lets -underBinder -merge y0
  refine Goes.ite ?_ ?_
  · exact Goes.next (Calm.upd h rfl rfl rfl rfl rfl rfl)
  · exact Goes.next h

end Sys2Proof.Machine
end

