-- ==== Sys2Proof/Laws/GoesDictionary.lean ====
section
/-! SUPPORT. The commands of Machine/Dictionary.lean go on, and keep what `Calm` says. -/

namespace Sys2Proof.Machine

theorem execDictRead_goes {s0 s : State} (h : Calm s0 s) (a0) : Goes s0 (execDictRead a0 s) := by
  unfold execDictRead
  refine Goes.next ?_
  refine onCmd_calm ?_ _ _ (fun c y0 hy0 => ?_)
  · exact h
  · beta_reduce
    exact (serve_calm (queueOp_calm (setStage_calm hy0 ..) ..) ..)

theorem execDictWrite_goes {s0 s : State} (h : Calm s0 s) (a0 a1) : Goes s0 (execDictWrite a0 a1 s) := by
  unfold execDictWrite
  refine Goes.next ?_
  refine onCmd_calm ?_ _ _ (fun c y0 hy0 => ?_)
  · exact h
  · beta_reduce
    extract_lets -underBinder -merge y1 y2
    refine Calm.ite ?_ ?_
    · exact hy0
    · exact (serve_calm (queueOp_calm (setStage_calm hy0 ..) ..) ..)

theorem execDictPersistDone_goes {s0 s : State} (h : Calm s0 s) (a0) : Goes s0 (execDictPersistDone a0 s) := by
  unfold execDictPersistDone
  refine Goes.ite ?_ ?_
  · exact Goes.next h
  · split
    · extract_lets -underBinder -merge y0
      exact Goes.next (Calm.upd h rfl rfl rfl rfl rfl rfl)
    · extract_lets -underBinder -merge y1 y2 y3 y4 y5
      have hy3 : Calm s0 y3 := (Calm.upd h rfl rfl rfl rfl rfl rfl)
      have hy4 : Calm s0 y4 := by
        refine Calm.ite ?_ ?_
        · exact (storeRwp_calm hy3 ..)
        · exact hy3
      have hy5 : Calm s0 y5 := (answerDict_calm hy4 ..)
      try clear_value y5
      try clear_value y4
      try clear_value y3
      refine Goes.next ?_
      refine serve_calm ?_ ..
      refine Calm.ite ?_ ?_
      · exact (lapseSessions_calm hy5 ..)
      · exact hy5

theorem execDictWindowRead_goes {s0 s : State} (h : Calm s0 s) (a0) : Goes s0 (execDictWindowRead a0 s) := by
  unfold execDictWindowRead
  extract_lets -underBinder -merge y0
  exact Goes.next (startWindow_calm h ..)

theorem execDictWindowWrite_goes {s0 s : State} (h : Calm s0 s) (a0 a1) : Goes s0 (execDictWindowWrite a0 a1 s) := by
  unfold execDictWindowWrite
  extract_lets -underBinder -merge y0 y1
  exact Goes.next (startWindow_calm h ..)

theorem execDictRestoreArm_goes {s0 s : State} (h : Calm s0 s) : Goes s0 (execDictRestoreArm s) := by
  unfold execDictRestoreArm
  exact Goes.next (rowWrite_calm h ..)

theorem execDictRestoreConfirm_goes {s0 s : State} (h : Calm s0 s) : Goes s0 (execDictRestoreConfirm s) := by
  unfold execDictRestoreConfirm
  exact Goes.next (rowWrite_calm h ..)

theorem execDictRestoreTimeout_goes {s0 s : State} (h : Calm s0 s) : Goes s0 (execDictRestoreTimeout s) := by
  unfold execDictRestoreTimeout
  extract_lets -underBinder -merge y0
  exact Goes.next (Calm.upd h rfl rfl rfl rfl rfl rfl)

theorem execStaxaKeyWrite_goes {s0 s : State} (h : Calm s0 s) (a0 a1) : Goes s0 (execStaxaKeyWrite a0 a1 s) := by
  unfold execStaxaKeyWrite
  exact Goes.next (rowWrite_calm h ..)

theorem execLcFuseProgrammed_goes {s0 s : State} (h : Calm s0 s) (a0) : Goes s0 (execLcFuseProgrammed a0 s) := by
  unfold execLcFuseProgrammed
  exact Goes.next (serve_calm (lcFuse_calm h ..) ..)

theorem execDomainResetWrite_goes {s0 s : State} (h : Calm s0 s) (a0 a1) : Goes s0 (execDomainResetWrite a0 a1 s) := by
  unfold execDomainResetWrite
  extract_lets -underBinder -merge y0
  refine Goes.ite ?_ ?_
  · exact Goes.next h
  · exact Goes.next (startReset_calm h ..)

theorem execDomainReady_goes {s0 s : State} (h : Calm s0 s) (a0 a1) : Goes s0 (execDomainReady a0 a1 s) := by
  unfold execDomainReady
  extract_lets -underBinder -merge y0
  split
  · exact Goes.next h
  · extract_lets -underBinder -merge y1 y2
    have hy1 : Calm s0 y1 := by
      refine domainUp_calm ?_ ..
      exact (Calm.upd h rfl rfl rfl rfl rfl rfl)
    have hy2 : Calm s0 y2 := (raise_calm hy1 ..)
    try clear_value y2
    try clear_value y1
    refine Goes.ite ?_ ?_
    · exact Goes.next h
    · refine Goes.next ?_
      refine serve_calm ?_ ..
      refine Calm.foldl ?_ (fun y3 a hy3 => ?_)
      · exact hy2
      · beta_reduce
        exact (answerDict_calm hy3 ..)

end Sys2Proof.Machine
end

