-- ==== Sys2Proof/Laws/GoesEngines.lean ====
section
/-! SUPPORT. The commands of Machine/Engines.lean go on, and keep what `Calm` says. -/

namespace Sys2Proof.Machine

theorem execLaneSwitch_goes {s0 s : State} (h : Calm s0 s) (a0 a1 a2 a3) : Goes s0 (execLaneSwitch a0 a1 a2 a3 s) := by
  unfold execLaneSwitch
  extract_lets -underBinder -merge y0 y1 y2
  split
  · exact Goes.next h
  · extract_lets -underBinder -merge y3 y4 y5
    have hy3 : Calm s0 y3 := (restoreLane_calm (saveLane_calm h ..) ..)
    have hy5 : Calm s0 y5 := (Calm.upd hy3 rfl rfl rfl rfl rfl rfl)
    try clear_value y5
    try clear_value y3
    refine Goes.ite ?_ ?_
    · exact Goes.next h
    · exact Goes.next (dispatchAll_calm (putOnEngine_calm hy5 ..) ..)

theorem execBlockEncoded_goes {s0 s : State} (h : Calm s0 s) (a0 a1 a2 a3) : Goes s0 (execBlockEncoded a0 a1 a2 a3 s) := by
  unfold execBlockEncoded
  extract_lets -underBinder -merge y0
  split
  · exact Goes.next h
  · split
    · refine Goes.ite ?_ ?_
      · exact Goes.next (engineTagBad_calm h ..)
      · refine Goes.ite ?_ ?_
        · exact Goes.next (encodingDone_calm (eccReads_calm h ..) ..)
        · exact Goes.next (blockPoisoned_calm h ..)
    · exact Goes.next h

theorem execRawCopyDone_goes {s0 s : State} (h : Calm s0 s) (a0 a1 a2) : Goes s0 (execRawCopyDone a0 a1 a2 s) := by
  unfold execRawCopyDone
  extract_lets -underBinder -merge y0
  split
  · exact Goes.next h
  · split
    · refine Goes.ite ?_ ?_
      · exact Goes.next (copyDone_calm (eccReads_calm h ..) ..)
      · exact Goes.next (blockPoisoned_calm h ..)
    · exact Goes.next h

end Sys2Proof.Machine
end

