-- ==== Sys2Proof/Laws/GoesEvents.lean ====
section
/-! SUPPORT. The commands of Machine/Events.lean go on, and keep what `Calm` says. -/

namespace Sys2Proof.Machine

theorem popEv_length {q r : List EvEntry} {e : EvEntry} (h : popEv q = some (e, r)) : r.length ≤ q.length := by
  unfold popEv at h
  split at h
  · cases h
  · split at h
    · cases h
      exact (List.erase_sublist ..).length_le
    · cases h

theorem execEvqPop_goes {s0 s : State} (h : Calm s0 s) (a0) : Goes s0 (execEvqPop a0 s) := by
  unfold execEvqPop
  split
  · exact Goes.next (Calm.upd h rfl rfl rfl rfl rfl rfl)
  · rename_i e q hq
    extract_lets
    exact Goes.next (Calm.shrink h rfl rfl rfl (popEv_length hq) (Nat.le_refl _) (Nat.le_refl _))

theorem execEvqLostClear_goes {s0 s : State} (h : Calm s0 s) : Goes s0 (execEvqLostClear s) := by
  unfold execEvqLostClear
  extract_lets -underBinder -merge y0
  exact Goes.next (Calm.upd h rfl rfl rfl rfl rfl rfl)

theorem execEvqArm_goes {s0 s : State} (h : Calm s0 s) : Goes s0 (execEvqArm s) := by
  unfold execEvqArm
  extract_lets -underBinder -merge y0
  refine Goes.ite ?_ ?_
  · exact Goes.next (Calm.upd h rfl rfl rfl rfl rfl rfl)
  · exact Goes.next (sendMsix_calm h ..)

theorem execEventLogCopy_goes {s0 s : State} (h : Calm s0 s) (a0) : Goes s0 (execEventLogCopy a0 s) := by
  unfold execEventLogCopy
  split
  · exact Goes.next h
  · rename_i e q hq
    refine Goes.next ⟨h.pending, h.fuses, h.floor, h.evHost, fun k => Nat.le_trans (popEv_length hq) (h.evMgmt k), fun _ => ?_⟩
    simp only [List.length_drop, List.length_append, List.length_singleton]
    omega

theorem execEventLogRead_goes {s0 s : State} (h : Calm s0 s) (a0) : Goes s0 (execEventLogRead a0 s) := by
  unfold execEventLogRead
  extract_lets -underBinder -merge y0
  refine Goes.ite ?_ ?_
  · exact Goes.next (emit_calm (updFn_calm h ..) ..)
  · split
    · exact Goes.next h
    · extract_lets -underBinder -merge y1 y2
      refine Goes.next ?_
      refine emit_calm ?_ ..
      exact (Calm.upd h rfl rfl rfl rfl rfl rfl)

end Sys2Proof.Machine
end

