-- ==== Sys2Proof/Laws/GoesFirmware.lean ====
section
/-! SUPPORT. The commands of Machine/Firmware.lean go on, and keep what `Calm` says. -/

namespace Sys2Proof.Machine

theorem execFwDownload_goes {s0 s : State} (h : Calm s0 s) (a0 a1 a2) : Goes s0 (execFwDownload a0 a1 a2 s) := by
  unfold execFwDownload
  refine Goes.next ?_
  refine onCmd_calm ?_ _ _ (fun c y0 hy0 => ?_)
  · exact h
  · beta_reduce
    extract_lets -underBinder -merge y1 y2 y3
    refine Calm.ite ?_ ?_
    · exact (setStage_calm hy0 ..)
    · refine Calm.ite ?_ ?_
      · exact hy0
      · refine Calm.ite ?_ ?_
        · exact (finish_calm hy0 ..)
        · exact (stagePiece_calm hy0 ..)

theorem execFwActivate_goes {s0 s : State} (h : Calm s0 s) (a0) : Goes s0 (execFwActivate a0 s) := by
  unfold execFwActivate
  refine Goes.next ?_
  refine onCmd_calm ?_ _ _ (fun c y0 hy0 => ?_)
  · exact h
  · beta_reduce
    split
    · extract_lets -underBinder -merge y1 y2
      have hy2 : Calm s0 y2 := by
        refine raise_calm ?_ ..
        exact (Calm.upd hy0 rfl rfl rfl rfl rfl rfl)
      try clear_value y2
      exact (complete_calm hy2 ..)
    · extract_lets -underBinder -merge y3 y4
      have hy4 : Calm s0 y4 := (Calm.upd hy0 rfl rfl rfl rfl rfl rfl)
      try clear_value y4
      refine Calm.ite ?_ ?_
      · exact (finish_calm hy0 ..)
      · exact (settle_calm (setStage_calm hy4 ..) ..)

theorem execFwActivateSwap_goes {s0 s : State} (h : Calm s0 s) (a0) : Goes s0 (execFwActivateSwap a0 s) := by
  unfold execFwActivateSwap
  split
  · exact Goes.next h
  · extract_lets -underBinder -merge y0 y1 y2 y3 y4 y5 y6
    have hy3 : Calm s0 y3 := (setImage_calm (putGlove_calm h ..) ..)
    have hy5 : Calm s0 y5 := by
      refine mgmtLoss_calm ?_ ..
      exact (Calm.upd hy3 rfl rfl rfl rfl rfl rfl)
    try clear_value y5
    try clear_value y3
    refine Goes.ite ?_ ?_
    · exact Goes.next h
    · refine Goes.ite ?_ ?_
      · refine Goes.next ?_
        refine endActivate_calm ?_ ..
        refine raise_calm ?_ ..
        exact (Calm.upd h rfl rfl rfl rfl rfl rfl)
      · refine Goes.ite ?_ ?_
        · refine Goes.next ?_
          refine endActivate_calm ?_ ..
          refine raise_calm ?_ ..
          refine spoilGlove_calm ?_ ..
          exact (Calm.upd h rfl rfl rfl rfl rfl rfl)
        · exact Goes.next (Calm.upd hy5 rfl rfl rfl rfl rfl rfl)

theorem execFwStartConfirmed_goes {s0 s : State} (h : Calm s0 s) : Goes s0 (execFwStartConfirmed s) := by
  unfold execFwStartConfirmed
  extract_lets -underBinder -merge y0 y1
  have hy1 : Calm s0 y1 := (Calm.upd h rfl rfl rfl rfl rfl rfl)
  try clear_value y1
  refine Goes.ite ?_ ?_
  · exact Goes.next h
  · refine Goes.ite ?_ ?_
    · exact Goes.next (fallbackStarted_calm hy1 ..)
    · split
      · refine Goes.next ?_
        refine Calm.ite ?_ ?_
        · exact (activated_calm hy1 ..)
        · exact hy1
      · exact Goes.next hy1

theorem execFwStartTimeout_goes {s0 s : State} (h : Calm s0 s) : Goes s0 (execFwStartTimeout s) := by
  unfold execFwStartTimeout
  extract_lets -underBinder -merge y0 y1 y2 y3
  have hy2 : Calm s0 y2 := (Calm.upd h rfl rfl rfl rfl rfl rfl)
  have hy3 : Calm s0 y3 := (mgmtDown_calm (noteReset_calm hy2 ..) ..)
  try clear_value y3
  try clear_value y2
  refine Goes.ite ?_ ?_
  · exact Goes.next h
  · split
    · refine Goes.next ?_
      refine Calm.ite ?_ ?_
      · exact (endActivate_calm hy3 ..)
      · exact hy3
    · exact Goes.next hy3

theorem execWatchdogExpiry_goes {s0 s : State} (h : Calm s0 s) : Goes s0 (execWatchdogExpiry s) := by
  unfold execWatchdogExpiry
  exact Goes.next (mgmtDown_calm (noteReset_calm h ..) ..)

end Sys2Proof.Machine
end

