-- ==== Sys2Proof/Laws/GoesFlashCtl.lean ====
section
/-! SUPPORT. The commands of Machine/FlashCtl.lean go on, and keep what `Calm` says. -/

namespace Sys2Proof.Machine

theorem execFlashRead_goes {s0 s : State} (h : Calm s0 s) (a0) : Goes s0 (execFlashRead a0 s) := by
  unfold execFlashRead
  exact Goes.next (submitFlash_calm h ..)

theorem execFlashProgram_goes {s0 s : State} (h : Calm s0 s) (a0) : Goes s0 (execFlashProgram a0 s) := by
  unfold execFlashProgram
  exact Goes.next (submitFlash_calm h ..)

theorem execFlashErase_goes {s0 s : State} (h : Calm s0 s) (a0) : Goes s0 (execFlashErase a0 s) := by
  unfold execFlashErase
  exact Goes.next (submitFlash_calm h ..)

theorem execFlashDiagDescriptor_goes {s0 s : State} (h : Calm s0 s) (a0) : Goes s0 (execFlashDiagDescriptor a0 s) := by
  unfold execFlashDiagDescriptor
  refine Goes.ite ?_ ?_
  · exact Goes.next (submitFlash_calm h ..)
  · exact Goes.next h

theorem execFlashReadDone_goes {s0 s : State} (h : Calm s0 s) (a0 a1) : Goes s0 (execFlashReadDone a0 a1 s) := by
  unfold execFlashReadDone
  split
  · exact Goes.next h
  · extract_lets -underBinder -merge y0 y1 y2 y3
    have hy1 : Calm s0 y1 := (Calm.upd h rfl rfl rfl rfl rfl rfl)
    try clear_value y1
    refine Goes.ite ?_ ?_
    · exact Goes.next h
    · refine Goes.ite ?_ ?_
      · exact Goes.next (flashGo_calm (postFlash_calm hy1 ..) ..)
      · split
        · extract_lets -underBinder -merge y4 y5 y6 y7 y8
          have hy7 : Calm s0 y7 := (Calm.upd hy1 rfl rfl rfl rfl rfl rfl)
          have hy8 : Calm s0 y8 := (updBlock_calm (raise_calm hy7 ..) ..)
          try clear_value y8
          try clear_value y7
          refine Goes.ite ?_ ?_
          · exact Goes.next (flashGo_calm (postFlash_calm hy8 ..) ..)
          · exact Goes.next (flashGo_calm (postFlash_calm hy7 ..) ..)
        · extract_lets -underBinder -merge y9 y10 y11
          have hy11 : Calm s0 y11 := by
            refine raise_calm ?_ ..
            exact (Calm.upd hy1 rfl rfl rfl rfl rfl rfl)
          try clear_value y11
          exact Goes.next (flashGo_calm (postFlash_calm (drew_calm hy11 ..) ..) ..)

theorem execFlashProgramDone_goes {s0 s : State} (h : Calm s0 s) (a0) : Goes s0 (execFlashProgramDone a0 s) := by
  unfold execFlashProgramDone
  split
  · exact Goes.next h
  · extract_lets -underBinder -merge y0 y1
    have hy1 : Calm s0 y1 := (Calm.upd h rfl rfl rfl rfl rfl rfl)
    try clear_value y1
    refine Goes.ite ?_ ?_
    · exact Goes.next h
    · refine Goes.ite ?_ ?_
      · exact Goes.next (flashGo_calm (postFlash_calm (pageUsed_calm hy1 ..) ..) ..)
      · exact Goes.next (flashGo_calm (postFlash_calm (retireBlock_calm (raise_calm (pageUsed_calm hy1 ..) ..) ..) ..) ..)

theorem execFlashEraseDone_goes {s0 s : State} (h : Calm s0 s) (a0) : Goes s0 (execFlashEraseDone a0 s) := by
  unfold execFlashEraseDone
  split
  · exact Goes.next h
  · extract_lets -underBinder -merge y0 y1 y2 y3 y4 y5 y6
    have hy1 : Calm s0 y1 := (eraseOver_calm h ..)
    have hy4 : Calm s0 y4 := (Calm.upd hy1 rfl rfl rfl rfl rfl rfl)
    have hy5 : Calm s0 y5 := (setBlock_calm hy4 ..)
    have hy6 : Calm s0 y6 := by
      refine Calm.ite ?_ ?_
      · exact (retireBlock_calm hy5 ..)
      · exact hy5
    try clear_value y6
    try clear_value y5
    try clear_value y4
    try clear_value y1
    refine Goes.ite ?_ ?_
    · exact Goes.next (flashGo_calm (postFlash_calm hy6 ..) ..)
    · exact Goes.next (flashGo_calm (postFlash_calm (retireBlock_calm (raise_calm hy1 ..) ..) ..) ..)

theorem execEraseSuspend_goes {s0 s : State} (h : Calm s0 s) : Goes s0 (execEraseSuspend s) := by
  unfold execEraseSuspend
  split
  · exact Goes.next h
  · extract_lets -underBinder -merge y0
    refine Goes.ite ?_ ?_
    · exact Goes.next h
    · refine Goes.next ?_
      refine flashGo_calm ?_ ..
      exact (Calm.upd h rfl rfl rfl rfl rfl rfl)

theorem execEraseResume_goes {s0 s : State} (h : Calm s0 s) : Goes s0 (execEraseResume s) := by
  unfold execEraseResume
  split
  · exact Goes.next h
  · extract_lets -underBinder -merge y0
    refine Goes.ite ?_ ?_
    · exact Goes.next h
    · exact Goes.next (Calm.upd h rfl rfl rfl rfl rfl rfl)

theorem execFetchMiss_goes {s0 s : State} (h : Calm s0 s) (a0 a1 a2) : Goes s0 (execFetchMiss a0 a1 a2 s) := by
  unfold execFetchMiss
  extract_lets -underBinder -merge y0 y1
  have hy1 : Calm s0 y1 := (Calm.upd h rfl rfl rfl rfl rfl rfl)
  try clear_value y1
  refine Goes.ite ?_ ?_
  · exact Goes.next h
  · exact Goes.next (submitFlash_calm hy1 ..)

theorem execVflBrownout_goes {s0 s : State} (h : Calm s0 s) : Goes s0 (execVflBrownout s) := by
  unfold execVflBrownout
  extract_lets -underBinder -merge y0 y1 y2 y3 y4 y5
  have hy1 : Calm s0 y1 := by
    refine raise_calm ?_ ..
    exact (Calm.upd h rfl rfl rfl rfl rfl rfl)
  have hy2 : Calm s0 y2 := (interruptFlash_calm hy1 ..)
  have hy5 : Calm s0 y5 := (Calm.upd hy2 rfl rfl rfl rfl rfl rfl)
  try clear_value y5
  try clear_value y2
  try clear_value y1
  refine Goes.ite ?_ ?_
  · exact Goes.next h
  · refine Goes.next ?_
    refine flashGo_calm ?_ ..
    refine Calm.foldl ?_ (fun y6 a hy6 => ?_)
    · exact hy5
    · beta_reduce
      exact (refuseFlash_calm hy6 ..)

theorem execBrownoutRelease_goes {s0 s : State} (h : Calm s0 s) : Goes s0 (execBrownoutRelease s) := by
  unfold execBrownoutRelease
  extract_lets -underBinder -merge y0
  refine Goes.ite ?_ ?_
  · refine Goes.next ?_
    refine flashGo_calm ?_ ..
    exact (Calm.upd h rfl rfl rfl rfl rfl rfl)
  · exact Goes.next h

end Sys2Proof.Machine
end

