-- ==== Sys2Proof/Laws/GoesHeadFront.lean ====
section
/-! SUPPORT. The commands of Machine/HeadFront.lean go on, and keep what `Calm` says. -/

namespace Sys2Proof.Machine

theorem execHeadFrontPoll_goes {s0 s : State} (h : Calm s0 s) (a0) : Goes s0 (execHeadFrontPoll a0 s) := by
  unfold execHeadFrontPoll
  extract_lets -underBinder -merge y0 y1 y2 y3 y4 y5 y6
  have hy6 : Calm s0 y6 := by
    refine emit_calm ?_ ..
    exact (Calm.upd h rfl rfl rfl rfl rfl rfl)
  try clear_value y6
  refine Goes.next ?_
  refine Calm.ite ?_ ?_
  · exact (takeFaults_calm hy6 ..)
  · exact hy6

theorem execHeadFrontStatus_goes {s0 s : State} (h : Calm s0 s) (a0) : Goes s0 (execHeadFrontStatus a0 s) := by
  unfold execHeadFrontStatus
  extract_lets -underBinder -merge y0 y1 y2 y3
  refine Goes.ite ?_ ?_
  · exact Goes.next (Calm.upd h rfl rfl rfl rfl rfl rfl)
  · refine Goes.next ?_
    refine takeFaults_calm ?_ ..
    exact (Calm.upd h rfl rfl rfl rfl rfl rfl)

theorem execTemperatureSample_goes {s0 s : State} (h : Calm s0 s) (a0) : Goes s0 (execTemperatureSample a0 s) := by
  unfold execTemperatureSample
  extract_lets -underBinder -merge y0 y1
  exact Goes.next (Calm.upd h rfl rfl rfl rfl rfl rfl)

end Sys2Proof.Machine
end

