-- ==== Sys2Proof/Laws/GoesLifeCycle.lean ====
section
/-! SUPPORT. The commands of Machine/LifeCycle.lean go on, and keep what `Calm` says. -/

namespace Sys2Proof.Machine

theorem execLcChallengeRead_goes {s0 s : State} (h : Calm s0 s) : Goes s0 (execLcChallengeRead s) := by
  unfold execLcChallengeRead
  extract_lets -underBinder -merge y0
  have hy0 : Calm s0 y0.2 := (lcChallenge_calm h ..)
  try clear_value y0
  refine Goes.ite ?_ ?_
  · exact Goes.next h
  · exact Goes.next (emit_calm hy0 ..)

theorem execLcChallengeExpiry_goes {s0 s : State} (h : Calm s0 s) : Goes s0 (execLcChallengeExpiry s) := by
  unfold execLcChallengeExpiry
  extract_lets -underBinder -merge y0
  exact Goes.next (Calm.upd h rfl rfl rfl rfl rfl rfl)

theorem execLcRequest_goes {s0 s : State} (h : Calm s0 s) (a0 a1) : Goes s0 (execLcRequest a0 a1 s) := by
  unfold execLcRequest
  refine Goes.ite ?_ ?_
  · exact Goes.next h
  · exact Goes.next (lcRequest_calm h ..)

theorem execJtagInstruction_goes {s0 s : State} (h : Calm s0 s) (a0) : Goes s0 (execJtagInstruction a0 s) := by
  unfold execJtagInstruction
  extract_lets -underBinder -merge y0 y1 y2 y3
  have hy1 : Calm s0 y1 := (Calm.upd h rfl rfl rfl rfl rfl rfl)
  try clear_value y1
  refine Goes.ite ?_ ?_
  · refine Goes.ite ?_ ?_
    · refine Goes.next ?_
      refine raise_calm ?_ ..
      exact (Calm.upd hy1 rfl rfl rfl rfl rfl rfl)
    · exact Goes.next hy1
  · exact Goes.next (Calm.upd h rfl rfl rfl rfl rfl rfl)

theorem execUartRxByte_goes {s0 s : State} (h : Calm s0 s) (a0) : Goes s0 (execUartRxByte a0 s) := by
  unfold execUartRxByte
  extract_lets -underBinder -merge y0 y1
  have hy0 : Calm s0 y0 := (emit_calm h ..)
  try clear_value y0
  refine Goes.ite ?_ ?_
  · exact Goes.next h
  · refine Goes.ite ?_ ?_
    · exact Goes.next hy0
    · refine Goes.next ?_
      refine raise_calm ?_ ..
      exact (Calm.upd hy0 rfl rfl rfl rfl rfl rfl)

end Sys2Proof.Machine
end

