-- ==== Sys2Proof/Laws/GoesPower.lean ====
section
/-! SUPPORT. The commands of Machine/Power.lean go on, and keep what `Calm` says. -/

namespace Sys2Proof.Machine

theorem execIdleToPs1_goes {s0 s : State} (h : Calm s0 s) : Goes s0 (execIdleToPs1 s) := by
  unfold execIdleToPs1
  exact Goes.next (idleTo_calm h ..)

theorem execIdleToPs2_goes {s0 s : State} (h : Calm s0 s) : Goes s0 (execIdleToPs2 s) := by
  unfold execIdleToPs2
  exact Goes.next (idleTo_calm h ..)

theorem execIdleToPs3_goes {s0 s : State} (h : Calm s0 s) : Goes s0 (execIdleToPs3 s) := by
  unfold execIdleToPs3
  exact Goes.next (idleTo_calm h ..)

theorem execPowerStateRequest_goes {s0 s : State} (h : Calm s0 s) (a0) : Goes s0 (execPowerStateRequest a0 s) := by
  unfold execPowerStateRequest
  refine Goes.ite ?_ ?_
  · exact Goes.next h
  · exact Goes.next (powerRequest_calm h ..)

theorem execWake_goes {s0 s : State} (h : Calm s0 s) : Goes s0 (execWake s) := by
  unfold execWake
  exact Goes.next (wakeUp_calm h ..)

theorem execPowerStateReached_goes {s0 s : State} (h : Calm s0 s) : Goes s0 (execPowerStateReached s) := by
  unfold execPowerStateReached
  split
  · exact Goes.next h
  · extract_lets -underBinder -merge y0 y1 y2 y3 y4 y5
    have hy0 : Calm s0 y0 := (accrue_calm h ..)
    have hy4 : Calm s0 y4 := by
      refine raise_calm ?_ ..
      exact (Calm.upd hy0 rfl rfl rfl rfl rfl rfl)
    have hy5 : Calm s0 y5 := by
      refine Calm.ite ?_ ?_
      · exact (powerOff_calm hy4 ..)
      · refine Calm.ite ?_ ?_
        · exact (powerOn_calm hy4 ..)
        · exact hy4
    try clear_value y5
    try clear_value y4
    try clear_value y0
    refine Goes.next ?_
    refine Calm.ite ?_ ?_
    · exact (wakeUp_calm hy5 ..)
    · exact (followRequest_calm hy5 ..)

theorem execD3hotEntry_goes {s0 s : State} (h : Calm s0 s) : Goes s0 (execD3hotEntry s) := by
  unfold execD3hotEntry
  extract_lets -underBinder -merge y0 y1 y2
  have hy1 : Calm s0 y1 := (Calm.upd h rfl rfl rfl rfl rfl rfl)
  try clear_value y1
  refine Goes.ite ?_ ?_
  · exact Goes.next hy1
  · refine Goes.next ?_
    refine followRequest_calm ?_ ..
    exact (Calm.upd hy1 rfl rfl rfl rfl rfl rfl)

theorem execD0Return_goes {s0 s : State} (h : Calm s0 s) : Goes s0 (execD0Return s) := by
  unfold execD0Return
  extract_lets -underBinder -merge y0 y1
  refine Goes.next ?_
  refine wakeUp_calm ?_ ..
  exact (Calm.upd h rfl rfl rfl rfl rfl rfl)

end Sys2Proof.Machine
end

