-- ==== Sys2Proof/Laws/GoesQueues.lean ====
section
/-! SUPPORT. The commands of Machine/Queues.lean go on, and keep what `Calm` says. -/

namespace Sys2Proof.Machine

theorem execSqTailDoorbell_goes {s0 s : State} (h : Calm s0 s) (a0 a1 a2) : Goes s0 (execSqTailDoorbell a0 a1 a2 s) := by
  unfold execSqTailDoorbell
  extract_lets -underBinder -merge y0
  refine Goes.ite ?_ ?_
  · exact Goes.next h
  · split
    · exact Goes.next (badDoorbell_calm h ..)
    · refine Goes.ite ?_ ?_
      · exact Goes.next (setQp_calm h ..)
      · exact Goes.next (badDoorbell_calm h ..)

theorem execCqHeadDoorbell_goes {s0 s : State} (h : Calm s0 s) (a0 a1 a2) : Goes s0 (execCqHeadDoorbell a0 a1 a2 s) := by
  unfold execCqHeadDoorbell
  extract_lets -underBinder -merge y0
  refine Goes.ite ?_ ?_
  · exact Goes.next h
  · split
    · exact Goes.next (badDoorbell_calm h ..)
    · extract_lets -underBinder -merge y1
      refine Goes.ite ?_ ?_
      · exact Goes.next (setQp_calm h ..)
      · exact Goes.next (badDoorbell_calm h ..)

theorem execHeldCompletionPost_goes {s0 s : State} (h : Calm s0 s) (a0 a1) : Goes s0 (execHeldCompletionPost a0 a1 s) := by
  unfold execHeldCompletionPost
  exact Goes.next (drainHeld_calm h ..)

theorem execIntTimeExpiry_goes {s0 s : State} (h : Calm s0 s) (a0 a1) : Goes s0 (execIntTimeExpiry a0 a1 s) := by
  unfold execIntTimeExpiry
  extract_lets -underBinder -merge y0
  split
  · exact Goes.next h
  · refine Goes.ite ?_ ?_
    · exact Goes.next (sendMsix_calm (setQp_calm h ..) ..)
    · exact Goes.next h

theorem execFetchGrant_goes {s0 s : State} (h : Calm s0 s) : Goes s0 (execFetchGrant s) := by
  unfold execFetchGrant
  extract_lets -underBinder -merge y0 y1 y2 y3 y4 y5 y6 y7 y8 y9 y10
  have hy6 : Calm s0 y6 := by
    refine Calm.foldl ?_ (fun y11 a hy11 => ?_)
    · exact h
    · beta_reduce
      exact (updFn_calm hy11 ..)
  have hy10 : Calm s0 y10 := by
    refine updFn_calm ?_ ..
    exact (Calm.upd hy6 rfl rfl rfl rfl rfl rfl)
  try clear_value y10
  try clear_value y6
  refine Goes.ite ?_ ?_
  · refine Goes.next ?_
    refine grant_calm ?_ ..
    exact (Calm.upd h rfl rfl rfl rfl rfl rfl)
  · refine Goes.ite ?_ ?_
    · exact Goes.next h
    · refine Goes.ite ?_ ?_
      · exact Goes.next (grantWithin_calm hy6 ..)
      · exact Goes.next (grantWithin_calm hy10 ..)

theorem execFetchReadReturn_goes {s0 s : State} (h : Calm s0 s) (a0 a1 a2) : Goes s0 (execFetchReadReturn a0 a1 a2 s) := by
  unfold execFetchReadReturn
  extract_lets -underBinder -merge y0
  exact Goes.next (takeReturns_calm (updQp_calm h ..) ..)

theorem execCommandSlotAllocate_goes {s0 s : State} (h : Calm s0 s) (a0 a1) : Goes s0 (execCommandSlotAllocate a0 a1 s) := by
  unfold execCommandSlotAllocate
  extract_lets -underBinder -merge y0
  split
  · exact Goes.next h
  · split
    · exact Goes.next h
    · refine Goes.ite ?_ ?_
      · exact Goes.next h
      · split
        · exact Goes.next h
        · extract_lets -underBinder -merge y1 y2
          refine Goes.ite ?_ ?_
          · exact Goes.next h
          · exact Goes.next (setCmd_calm (setQp_calm h ..) ..)

theorem execSqEntryReadFailure_goes {s0 s : State} (h : Calm s0 s) (a0 a1 a2) : Goes s0 (execSqEntryReadFailure a0 a1 a2 s) := by
  unfold execSqEntryReadFailure
  extract_lets -underBinder -merge y0
  split
  · exact Goes.next h
  · extract_lets -underBinder -merge y1 y2 y3 y4
    refine Goes.ite ?_ ?_
    · exact Goes.next h
    · exact Goes.next (takeReturns_calm (postCpl_calm (setQp_calm h ..) ..) ..)

theorem execDataTransferFailure_goes {s0 s : State} (h : Calm s0 s) (a0 a1 a2) : Goes s0 (execDataTransferFailure a0 a1 a2 s) := by
  unfold execDataTransferFailure
  exact Goes.next (transferFailed_calm h ..)

theorem execHostReadTimeout_goes {s0 s : State} (h : Calm s0 s) (a0 a1) : Goes s0 (execHostReadTimeout a0 a1 s) := by
  unfold execHostReadTimeout
  exact Goes.next (transferFailed_calm h ..)

theorem execCompletionWriteFailure_goes {s0 s : State} (h : Calm s0 s) (a0 a1 a2 a3) : Goes s0 (execCompletionWriteFailure a0 a1 a2 a3 s) := by
  unfold execCompletionWriteFailure
  extract_lets -underBinder -merge y0
  split
  · exact Goes.next h
  · extract_lets -underBinder -merge y1
    have hy1 : Calm s0 y1 := (updQp_calm (takeBacks_calm h ..) ..)
    try clear_value y1
    refine Goes.ite ?_ ?_
    · exact Goes.next h
    · exact Goes.next (raise_calm hy1 ..)

theorem execFetchQueueMismatch_goes {s0 s : State} (h : Calm s0 s) (a0 a1 a2 a3) : Goes s0 (execFetchQueueMismatch a0 a1 a2 a3 s) := by
  unfold execFetchQueueMismatch
  extract_lets -underBinder -merge y0
  split
  · exact Goes.next h
  · refine Goes.ite ?_ ?_
    · exact Goes.next h
    · exact Goes.next (resetStart_calm h ..)

theorem execUnknownOpcode_goes {s0 s : State} (h : Calm s0 s) (a0) : Goes s0 (execUnknownOpcode a0 s) := by
  unfold execUnknownOpcode
  split
  · exact Goes.next h
  · refine Goes.ite ?_ ?_
    · exact Goes.next (finish_calm h ..)
    · exact Goes.next h

theorem execCreateQp_goes {s0 s : State} (h : Calm s0 s) (a0) : Goes s0 (execCreateQp a0 s) := by
  unfold execCreateQp
  refine Goes.next ?_
  refine onCmd_calm ?_ _ _ (fun c y0 hy0 => ?_)
  · exact h
  · beta_reduce
    extract_lets -underBinder -merge y1 y2
    have hy2 : Calm s0 y2 := (setQp_calm hy0 ..)
    try clear_value y2
    refine Calm.ite ?_ ?_
    · exact (finish_calm hy0 ..)
    · exact (finishWith_calm hy2 ..)

theorem execDeleteQp_goes {s0 s : State} (h : Calm s0 s) (a0) : Goes s0 (execDeleteQp a0 s) := by
  unfold execDeleteQp
  refine Goes.next ?_
  refine onCmd_calm ?_ _ _ (fun c y0 hy0 => ?_)
  · exact h
  · beta_reduce
    extract_lets -underBinder -merge y1
    split
    · exact (finish_calm hy0 ..)
    · refine Calm.ite ?_ ?_
      · exact (finish_calm hy0 ..)
      · exact (finish_calm (takeReturns_calm (updFn_calm hy0 ..) ..) ..)

theorem execQueueRestart_goes {s0 s : State} (h : Calm s0 s) (a0) : Goes s0 (execQueueRestart a0 s) := by
  unfold execQueueRestart
  refine Goes.next ?_
  refine onCmd_calm ?_ _ _ (fun c y0 hy0 => ?_)
  · exact h
  · beta_reduce
    extract_lets -underBinder -merge y1
    split
    · exact (finish_calm hy0 ..)
    · exact (finish_calm (unfreeze_calm hy0 ..) ..)

theorem execQueueReset_goes {s0 s : State} (h : Calm s0 s) (a0) : Goes s0 (execQueueReset a0 s) := by
  unfold execQueueReset
  refine Goes.next ?_
  refine onCmd_calm ?_ _ _ (fun c y0 hy0 => ?_)
  · exact h
  · beta_reduce
    extract_lets -underBinder -merge y1
    split
    · exact (finish_calm hy0 ..)
    · refine Calm.ite ?_ ?_
      · exact hy0
      · exact (resetStart_calm (setStage_calm hy0 ..) ..)

theorem execQueueResetCut_goes {s0 s : State} (h : Calm s0 s) (a0 a1) : Goes s0 (execQueueResetCut a0 a1 s) := by
  unfold execQueueResetCut
  exact Goes.next (resetCut_calm h ..)

theorem execGetLog_goes {s0 s : State} (h : Calm s0 s) (a0) : Goes s0 (execGetLog a0 s) := by
  unfold execGetLog
  refine Goes.next ?_
  refine onCmd_calm ?_ _ _ (fun c y0 hy0 => ?_)
  · exact h
  · beta_reduce
    refine Calm.ite ?_ ?_
    · exact (giveLog_calm hy0 ..)
    · exact (setStage_calm hy0 ..)

end Sys2Proof.Machine
end

