-- ==== Sys2Proof/Laws/GoesReads.lean ====
section
/-! SUPPORT. The commands of Machine/Reads.lean go on, and keep what `Calm` says. -/

namespace Sys2Proof.Machine

theorem execRead_goes {s0 s : State} (h : Calm s0 s) (a0 a1) : Goes s0 (execRead a0 a1 s) := by
  unfold execRead
  refine Goes.next ?_
  refine onCmd_calm ?_ _ _ (fun c y0 hy0 => ?_)
  · exact h
  · beta_reduce
    exact (beginRead_calm hy0 ..)

theorem execReadRaw_goes {s0 s : State} (h : Calm s0 s) (a0 a1) : Goes s0 (execReadRaw a0 a1 s) := by
  unfold execReadRaw
  refine Goes.next ?_
  refine onCmd_calm ?_ _ _ (fun c y0 hy0 => ?_)
  · exact h
  · beta_reduce
    exact (beginRead_calm hy0 ..)

theorem execRebuildRange_goes {s0 s : State} (h : Calm s0 s) (a0 a1) : Goes s0 (execRebuildRange a0 a1 s) := by
  unfold execRebuildRange
  refine Goes.next ?_
  refine onCmd_calm ?_ _ _ (fun c y0 hy0 => ?_)
  · exact h
  · beta_reduce
    extract_lets -underBinder -merge y1 y2 y3 y4
    have hy2 : Calm s0 y2 := (eccReads_calm hy0 ..)
    try clear_value y2
    refine Calm.ite ?_ ?_
    · refine finish_calm ?_ ..
      exact (Calm.upd hy2 rfl rfl rfl rfl rfl rfl)
    · refine Calm.ite ?_ ?_
      · refine complete_calm ?_ ..
        refine answer_calm ?_ ..
        exact (Calm.upd hy2 rfl rfl rfl rfl rfl rfl)
      · exact (settle_calm (setStage_calm hy2 ..) ..)

theorem execReadBatchWindow_goes {s0 s : State} (h : Calm s0 s) : Goes s0 (execReadBatchWindow s) := by
  unfold execReadBatchWindow
  extract_lets -underBinder -merge y0
  refine Goes.ite ?_ ?_
  · refine Goes.next ?_
    refine startRead_calm ?_ ..
    exact (Calm.upd h rfl rfl rfl rfl rfl rfl)
  · exact Goes.next h

theorem execReadAgeLimit_goes {s0 s : State} (h : Calm s0 s) (a0) : Goes s0 (execReadAgeLimit a0 s) := by
  unfold execReadAgeLimit
  extract_lets -underBinder -merge y0
  refine Goes.ite ?_ ?_
  · exact Goes.next (Calm.upd h rfl rfl rfl rfl rfl rfl)
  · exact Goes.next h

theorem execBlockDecrypted_goes {s0 s : State} (h : Calm s0 s) (a0 a1 a2 a3) : Goes s0 (execBlockDecrypted a0 a1 a2 a3 s) := by
  unfold execBlockDecrypted
  split
  · exact Goes.next h
  · split
    · exact Goes.next h
    · extract_lets -underBinder -merge y0
      have hy0 : Calm s0 y0.1 := by
        subst y0
        split
        · exact h
        · exact (askBuf_calm h ..)
      try clear_value y0
      refine Goes.ite ?_ ?_
      · exact Goes.next h
      · refine Goes.ite ?_ ?_
        · exact Goes.next (blkTagBad_calm h ..)
        · split
          · exact Goes.next (setTape_calm hy0 ..)
          · extract_lets -underBinder -merge y1 y2 y3 y4
            have hy1 : Calm s0 y1 := (retagReaders_calm hy0 ..)
            have hy3 : Calm s0 y3 := (eccReads_calm hy1 ..)
            try clear_value y3
            try clear_value y1
            refine Goes.ite ?_ ?_
            · exact Goes.next (blkPoisoned_calm (setTape_calm hy3 ..) ..)
            · exact Goes.next (decrypted_calm hy3 ..)

theorem execBlockDecode_goes {s0 s : State} (h : Calm s0 s) (a0 a1 a2 a3) : Goes s0 (execBlockDecode a0 a1 a2 a3 s) := by
  unfold execBlockDecode
  extract_lets -underBinder -merge y0
  split
  · exact Goes.next h
  · split
    · extract_lets -underBinder -merge y1
      have hy1 : Calm s0 y1.1 := by
        subst y1
        split
        · exact h
        · exact (askBuf_calm h ..)
      try clear_value y1
      refine Goes.ite ?_ ?_
      · exact Goes.next h
      · refine Goes.ite ?_ ?_
        · exact Goes.next (blkTagBad_calm h ..)
        · split
          · exact Goes.next (setTape_calm hy1 ..)
          · extract_lets -underBinder -merge y2 y3 y4 y5 y6
            have hy2 : Calm s0 y2 := (retagReaders_calm hy1 ..)
            have hy4 : Calm s0 y4 := (eccReads_calm hy2 ..)
            have hy6 : Calm s0 y6 := (setTape_calm hy4 ..)
            try clear_value y6
            try clear_value y4
            try clear_value y2
            refine Goes.ite ?_ ?_
            · exact Goes.next (blkPoisoned_calm hy6 ..)
            · exact Goes.next (decodeChain_calm hy6 ..)
    · exact Goes.next h

end Sys2Proof.Machine
end

