-- ==== Sys2Proof/Laws/GoesRecovery.lean ====
section
/-! SUPPORT. The commands of Machine/Recovery.lean go on, and keep what `Calm` says. -/

namespace Sys2Proof.Machine

theorem decodePass_goes {s0 s : State} (h : Calm s0 s) (n ecc) {miss : ReadDs → State → State}
    (hm : ∀ d t, Calm s0 t → Calm s0 (miss d t)) : Goes s0 (decodePass n ecc miss s) := by
  unfold decodePass
  split
  · exact Goes.next h
  split
  · exact Goes.next h
  refine Goes.ite (Goes.next h) ?_
  extract_lets -underBinder bad t d
  have ht : Calm s0 t := eccReads_calm h ..
  clear_value t
  exact Goes.ite (Goes.next (dsPoisoned_calm ht ..)) (Goes.ite (Goes.next (endDsRead_calm ht ..)) (Goes.next (hm _ _ ht)))

theorem execDatasetDecode_goes {s0 s : State} (h : Calm s0 s) (a0) : Goes s0 (execDatasetDecode a0 s) :=
  decodePass_goes h _ _ fun _ _ ht => Calm.upd ht rfl rfl rfl rfl rfl rfl

theorem execHarvestRead_goes {s0 s : State} (h : Calm s0 s) (a0) : Goes s0 (execHarvestRead a0 s) :=
  decodePass_goes h _ _ fun _ _ ht => nextRetry_calm ht ..

theorem execReadRetry_goes {s0 s : State} (h : Calm s0 s) (a0) : Goes s0 (execReadRetry a0 s) := by
  unfold execReadRetry
  extract_lets -underBinder -merge y0 y1 y2
  have hy2 : Calm s0 y2 := Calm.ite (Calm.upd h rfl rfl rfl rfl rfl rfl) h
  clear_value y2
  exact decodePass_goes hy2 _ _ fun _ _ ht => nextRetry_calm ht ..

end Sys2Proof.Machine
end

