-- ==== Sys2Proof/Laws/GoesRegisters.lean ====
section
/-! SUPPORT. The commands of Machine/Registers.lean go on, and keep what `Calm` says. -/

namespace Sys2Proof.Machine

theorem execRegisterLowWordRead_goes {s0 s : State} (h : Calm s0 s) (a0 a1 a2) : Goes s0 (execRegisterLowWordRead a0 a1 a2 s) := by
  unfold execRegisterLowWordRead
  extract_lets -underBinder -merge y0 y1 y2
  have hy2 : Calm s0 y2 := by
    refine Calm.ite ?_ ?_
    · exact (drew_calm h ..)
    · exact h
  try clear_value y2
  refine Goes.ite ?_ ?_
  · exact Goes.next h
  · refine Goes.ite ?_ ?_
    · exact Goes.next (emit_calm hy2 ..)
    · refine Goes.ite ?_ ?_
      · exact Goes.next (emit_calm (updFn_calm h ..) ..)
      · split
        · exact Goes.next (emit_calm (updFn_calm h ..) ..)
        · exact Goes.next (emit_calm hy2 ..)

theorem execRegisterWrite_goes {s0 s : State} (h : Calm s0 s) (a0 a1 a2 a3) : Goes s0 (execRegisterWrite a0 a1 a2 a3 s) := by
  unfold execRegisterWrite
  extract_lets -underBinder -merge y0 y1 y2 y3 y4 y5 y6 y7 y8 y9 y10
  have hy10 : Calm s0 y10 := (msixWrite_calm h ..)
  try clear_value y10
  refine Goes.ite ?_ ?_
  · exact Goes.next h
  · refine Goes.ite ?_ ?_
    · refine Goes.ite ?_ ?_
      · exact Goes.next h
      · refine Goes.ite ?_ ?_
        · exact Goes.next (updFn_calm h ..)
        · exact Goes.next (updFn_calm h ..)
    · refine Goes.ite ?_ ?_
      · refine Goes.ite ?_ ?_
        · exact Goes.next h
        · exact Goes.next (updFn_calm h ..)
      · refine Goes.ite ?_ ?_
        · refine Goes.ite ?_ ?_
          · exact Goes.next h
          · exact Goes.next (updFn_calm h ..)
        · refine Goes.ite ?_ ?_
          · refine Goes.ite ?_ ?_
            · exact Goes.next h
            · exact Goes.next (updFn_calm h ..)
          · refine Goes.ite ?_ ?_
            · refine Goes.ite ?_ ?_
              · exact Goes.next h
              · exact Goes.next (updFn_calm h ..)
            · refine Goes.ite ?_ ?_
              · refine Goes.next ?_
                refine Calm.ite ?_ ?_
                · exact (msixWrite_calm hy10 ..)
                · exact hy10
              · exact Goes.next h

theorem execEnable_goes {s0 s : State} (h : Calm s0 s) (a0) : Goes s0 (execEnable a0 s) := by
  unfold execEnable
  extract_lets -underBinder -merge y0 y1 y2 y3 y4 y5
  have hy2 : Calm s0 y2 := by
    refine Calm.ite ?_ ?_
    · exact (takeQpCount_calm h ..)
    · exact h
  have hy3 : Calm s0 y3 := (updFn_calm hy2 ..)
  try clear_value y3
  try clear_value y2
  refine Goes.ite ?_ ?_
  · exact Goes.next h
  · refine Goes.ite ?_ ?_
    · exact Goes.next hy3
    · refine Goes.ite ?_ ?_
      · exact Goes.next (updFn_calm hy3 ..)
      · exact Goes.next (shutdownCheck_calm (updFn_calm hy3 ..) ..)

theorem execDisable_goes {s0 s : State} (h : Calm s0 s) (a0) : Goes s0 (execDisable a0 s) := by
  unfold execDisable
  extract_lets -underBinder -merge y0
  refine Goes.ite ?_ ?_
  · exact Goes.next h
  · exact Goes.next (shutdownCheck_calm (updFn_calm (endFunction_calm h ..) ..) ..)

theorem execShutdown_goes {s0 s : State} (h : Calm s0 s) (a0) : Goes s0 (execShutdown a0 s) := by
  unfold execShutdown
  extract_lets -underBinder -merge y0
  refine Goes.ite ?_ ?_
  · exact Goes.next h
  · exact Goes.next (shutdownCheck_calm (updFn_calm h ..) ..)

theorem execShutdownResume_goes {s0 s : State} (h : Calm s0 s) (a0) : Goes s0 (execShutdownResume a0 s) := by
  unfold execShutdownResume
  extract_lets -underBinder -merge y0
  refine Goes.ite ?_ ?_
  · exact Goes.next h
  · exact Goes.next (updFn_calm h ..)

theorem execAqReset_goes {s0 s : State} (h : Calm s0 s) (a0 a1) : Goes s0 (execAqReset a0 a1 s) := by
  unfold execAqReset
  extract_lets -underBinder -merge y0
  split
  · exact Goes.next h
  · refine Goes.ite ?_ ?_
    · exact Goes.next h
    · exact Goes.next (resetStart_calm h ..)

theorem execAqRestart_goes {s0 s : State} (h : Calm s0 s) (a0) : Goes s0 (execAqRestart a0 s) := by
  unfold execAqRestart
  extract_lets -underBinder -merge y0
  split
  · exact Goes.next h
  · refine Goes.ite ?_ ?_
    · exact Goes.next (unfreeze_calm h ..)
    · exact Goes.next h

theorem execMsixUnmask_goes {s0 s : State} (h : Calm s0 s) (a0 a1) : Goes s0 (execMsixUnmask a0 a1 s) := by
  unfold execMsixUnmask
  extract_lets -underBinder -merge y0
  refine Goes.ite ?_ ?_
  · exact Goes.next h
  · exact Goes.next (msixWrite_calm h ..)

theorem execFlr_goes {s0 s : State} (h : Calm s0 s) (a0) : Goes s0 (execFlr a0 s) := by
  unfold execFlr
  extract_lets -underBinder -merge y0 y1 y2
  have hy1 : Calm s0 y1 := (flrOne_calm (clearVfs_calm h ..) ..)
  try clear_value y1
  refine Goes.ite ?_ ?_
  · exact Goes.next h
  · refine Goes.ite ?_ ?_
    · exact Goes.next (Calm.upd hy1 rfl rfl rfl rfl rfl rfl)
    · exact Goes.next (flrOne_calm h ..)

theorem execVfEnableSet_goes {s0 s : State} (h : Calm s0 s) (a0) : Goes s0 (execVfEnableSet a0 s) := by
  unfold execVfEnableSet
  extract_lets -underBinder -merge y0 y1 y2
  have hy1 : Calm s0 y1 := (Calm.upd h rfl rfl rfl rfl rfl rfl)
  have hy2 : Calm s0 y2 := by
    refine Calm.foldl ?_ (fun y3 a hy3 => ?_)
    · exact hy1
    · beta_reduce
      extract_lets -underBinder -merge y4 y5
      have hy4 : Calm s0 y4 := (takeQpCount_calm hy3 ..)
      try clear_value y4
      exact (Calm.upd hy4 rfl rfl rfl rfl rfl rfl)
  try clear_value y2
  try clear_value y1
  refine Goes.ite ?_ ?_
  · exact Goes.next h
  · refine Goes.next ?_
    refine Calm.ite ?_ ?_
    · exact hy2
    · exact (takeQpCount_calm hy2 ..)

theorem execVfEnableClear_goes {s0 s : State} (h : Calm s0 s) : Goes s0 (execVfEnableClear s) := by
  unfold execVfEnableClear
  refine Goes.ite ?_ ?_
  · exact Goes.next (clearVfs_calm h ..)
  · exact Goes.next h

end Sys2Proof.Machine
end

