-- ==== Sys2Proof/Laws/GoesResets.lean ====
section
/-! SUPPORT. The commands of Machine/Resets.lean go on, and keep what `Calm` says. -/

namespace Sys2Proof.Machine

theorem execPerst_goes {s0 s : State} (h : Calm s0 s) : Goes s0 (execPerst s) := by
  unfold execPerst
  exact Goes.next (startReset_calm h ..)

theorem execHotReset_goes {s0 s : State} (h : Calm s0 s) : Goes s0 (execHotReset s) := by
  unfold execHotReset
  exact Goes.next (startReset_calm h ..)

theorem execSysrst_goes {s0 s : State} (h : Calm s0 s) (a0) : Goes s0 (execSysrst a0 s) := by
  unfold execSysrst
  refine Goes.ite ?_ ?_
  · exact Goes.next h
  · refine Goes.ite ?_ ?_
    · refine Goes.ite ?_ ?_
      · exact Goes.next (restart_calm (accrue_calm (drew_calm h ..) ..) ..)
      · exact Goes.next (drew_calm h ..)
    · exact Goes.next (restart_calm (accrue_calm h ..) ..)

theorem execPorst_goes {s0 s : State} (h : Calm s0 s) (n : Nat) (hn : 10000 ≤ n) : Goes s0 (execPorst n s) := by
  unfold execPorst
  rw [if_neg (by omega)]
  exact Goes.next (restart_calm h ..)

theorem execSupplyMonitorTrip_goes {s0 s : State} (h : Calm s0 s) (a0) : Goes s0 (execSupplyMonitorTrip a0 s) := by
  unfold execSupplyMonitorTrip
  split
  · exact Goes.next h
  · exact Goes.next (restart_calm h ..)
  · exact Goes.next (restart_calm h ..)
  · exact Goes.next (restart_calm h ..)
  · exact Goes.next (restart_calm h ..)

end Sys2Proof.Machine
end

