-- ==== Sys2Proof/Laws/GoesStaxa.lean ====
section
/-! SUPPORT. The commands of Machine/Staxa.lean go on, and keep what `Calm` says. -/

namespace Sys2Proof.Machine

theorem execStaxaOpen_goes {s0 s : State} (h : Calm s0 s) (a0 a1 a2 a3) : Goes s0 (execStaxaOpen a0 a1 a2 a3 s) := by
  unfold execStaxaOpen
  extract_lets -underBinder -merge y0 y1
  refine Goes.ite ?_ ?_
  · exact Goes.next h
  · refine Goes.ite ?_ ?_
    · exact Goes.next (dropDatagram_calm h ..)
    · split
      · exact Goes.next (staxaError_calm h ..)
      · refine Goes.ite ?_ ?_
        · exact Goes.next (tagFailed_calm h ..)
        · split
          · exact Goes.next (emit_calm h ..)
          · refine Goes.ite ?_ ?_
            · exact Goes.next (staxaError_calm h ..)
            · exact Goes.next (openSession_calm h ..)

theorem execStaxaRequest_goes {s0 s : State} (h : Calm s0 s) (a0 a1 a2 a3) : Goes s0 (execStaxaRequest a0 a1 a2 a3 s) := by
  unfold execStaxaRequest
  extract_lets -underBinder -merge y0
  refine Goes.ite ?_ ?_
  · exact Goes.next h
  · refine Goes.ite ?_ ?_
    · exact Goes.next (dropDatagram_calm h ..)
    · split
      · exact Goes.next (staxaError_calm h ..)
      · refine Goes.ite ?_ ?_
        · exact Goes.next (tagFailed_calm h ..)
        · refine Goes.ite ?_ ?_
          · exact Goes.next (staxaError_calm h ..)
          · refine Goes.ite ?_ ?_
            · exact Goes.next (staxaError_calm h ..)
            · exact Goes.next (takeRequest_calm h ..)

theorem execStaxaClose_goes {s0 s : State} (h : Calm s0 s) (a0 a1 a2) : Goes s0 (execStaxaClose a0 a1 a2 s) := by
  unfold execStaxaClose
  extract_lets -underBinder -merge y0
  refine Goes.ite ?_ ?_
  · exact Goes.next h
  · refine Goes.ite ?_ ?_
    · exact Goes.next (dropDatagram_calm h ..)
    · split
      · exact Goes.next (staxaError_calm h ..)
      · refine Goes.ite ?_ ?_
        · exact Goes.next (tagFailed_calm h ..)
        · refine Goes.ite ?_ ?_
          · exact Goes.next (staxaError_calm h ..)
          · exact Goes.next (emit_calm (endSession_calm h ..) ..)

theorem execUnusableDatagram_goes {s0 s : State} (h : Calm s0 s) (a0) : Goes s0 (execUnusableDatagram a0 s) := by
  unfold execUnusableDatagram
  refine Goes.ite ?_ ?_
  · exact Goes.next h
  · split
    · exact Goes.next (dropDatagram_calm h ..)
    · exact Goes.next (dropDatagram_calm h ..)
    · refine Goes.ite ?_ ?_
      · exact Goes.next h
      · exact Goes.next (dropDatagram_calm h ..)
    · exact Goes.next h
    · refine Goes.next ?_
      refine Calm.ite ?_ ?_
      · exact (staxaError_calm h ..)
      · exact (dropDatagram_calm h ..)
    · refine Goes.next ?_
      refine Calm.ite ?_ ?_
      · exact (staxaError_calm h ..)
      · exact (dropDatagram_calm h ..)
    · refine Goes.next ?_
      refine Calm.ite ?_ ?_
      · exact (staxaError_calm h ..)
      · exact (dropDatagram_calm h ..)
    · refine Goes.next ?_
      refine Calm.ite ?_ ?_
      · exact (staxaError_calm h ..)
      · exact (dropDatagram_calm h ..)
    · refine Goes.next ?_
      refine Calm.ite ?_ ?_
      · exact (tagFailed_calm h ..)
      · exact (dropDatagram_calm h ..)
    · refine Goes.next ?_
      refine Calm.ite ?_ ?_
      · exact (staxaError_calm h ..)
      · exact (dropDatagram_calm h ..)

theorem execStaxaSessionTimeout_goes {s0 s : State} (h : Calm s0 s) (a0) : Goes s0 (execStaxaSessionTimeout a0 s) := by
  unfold execStaxaSessionTimeout
  exact Goes.next (endSession_calm h ..)

theorem execArpRequest_goes {s0 s : State} (h : Calm s0 s) (a0) : Goes s0 (execArpRequest a0 s) := by
  unfold execArpRequest
  refine Goes.ite ?_ ?_
  · exact Goes.next h
  · exact Goes.next (emit_calm h ..)

theorem execIcmpEcho_goes {s0 s : State} (h : Calm s0 s) (a0 a1 a2) : Goes s0 (execIcmpEcho a0 a1 a2 s) := by
  unfold execIcmpEcho
  extract_lets -underBinder -merge y0
  refine Goes.ite ?_ ?_
  · exact Goes.next h
  · exact Goes.next (emit_calm h ..)

theorem execNeighborDiscovery_goes {s0 s : State} (h : Calm s0 s) (a0) : Goes s0 (execNeighborDiscovery a0 s) := by
  unfold execNeighborDiscovery
  refine Goes.ite ?_ ?_
  · exact Goes.next h
  · exact Goes.next (emit_calm h ..)

end Sys2Proof.Machine
end

