-- ==== Sys2Proof/Laws/GoesStreams.lean ====
section
/-! SUPPORT. The commands of Machine/Streams.lean go on, and keep what `Calm` says. -/

namespace Sys2Proof.Machine

theorem execWrite_goes {s0 s : State} (h : Calm s0 s) (a0) : Goes s0 (execWrite a0 s) := by
  unfold execWrite
  refine Goes.next ?_
  refine onCmd_calm ?_ _ _ (fun c y0 hy0 => ?_)
  · exact h
  · beta_reduce
    extract_lets -underBinder -merge y1 y2
    split
    · exact (finish_calm hy0 ..)
    · exact (writeReady_calm hy0 ..)

theorem execHostDataReadDone_goes {s0 s : State} (h : Calm s0 s) (a0 a1 a2 a3 a4) :
    Goes s0 (execHostDataReadDone a0 a1 a2 a3 a4 s) := by
  unfold execHostDataReadDone
  split
  · exact Goes.next h
  · refine Goes.ite (Goes.next h) ?_
    split
    · split
      · exact Goes.next (dataRead_calm h ..)
      · exact Goes.ite (Goes.next h) (Goes.next (writeReady_calm h ..))
      · exact Goes.ite (Goes.next h) (Goes.next (walkList_calm h _ _ _ fun _ _ ht => writeReady_calm ht ..))
    · exact Goes.ite (Goes.next h) (Goes.next (walkList_calm h _ _ _ fun _ _ ht => listWalked_calm ht ..))
    · exact Goes.ite (Goes.next (walkList_calm h _ _ _ fun _ _ ht => settle_calm (setStage_calm ht ..))) (Goes.next h)
    · exact Goes.next h

theorem execThrottleRelease_goes {s0 s : State} (h : Calm s0 s) : Goes s0 (execThrottleRelease s) := by
  unfold execThrottleRelease
  extract_lets -underBinder -merge y0
  refine Goes.ite ?_ ?_
  · exact Goes.next h
  · exact Goes.next (Calm.upd h rfl rfl rfl rfl rfl rfl)

theorem execRunAssign_goes {s0 s : State} (h : Calm s0 s) (a0 a1 a2) : Goes s0 (execRunAssign a0 a1 a2 s) := by
  unfold execRunAssign
  split
  · exact Goes.next h
  · split
    · refine Goes.ite ?_ ?_
      · exact Goes.next h
      · refine Goes.ite ?_ ?_
        · exact Goes.next (settle_calm (stopWrite_calm (answer_calm (eccReads_calm h ..) ..) ..) ..)
        · refine Goes.ite ?_ ?_
          · exact Goes.next (setJob_calm h ..)
          · refine Goes.ite ?_ ?_
            · exact Goes.next h
            · exact Goes.next (assignRun_calm h ..)
    · exact Goes.next h

theorem execOrderedRunRelease_goes {s0 s : State} (h : Calm s0 s) (a0) : Goes s0 (execOrderedRunRelease a0 s) := by
  unfold execOrderedRunRelease
  split
  · exact Goes.next h
  · split
    · refine Goes.ite ?_ ?_
      · exact Goes.next h
      · exact Goes.next (assignRun_calm h ..)
    · exact Goes.next h

theorem execLeaseWaitRelease_goes {s0 s : State} (h : Calm s0 s) (a0) : Goes s0 (execLeaseWaitRelease a0 s) := by
  unfold execLeaseWaitRelease
  split
  · exact Goes.next h
  · split
    · refine Goes.ite ?_ ?_
      · exact Goes.next h
      · split
        · refine Goes.ite ?_ ?_
          · refine Goes.next ?_
            refine Calm.ite ?_ ?_
            · exact (renewLease_calm h ..)
            · exact h
          · exact Goes.next (assignRun_calm h ..)
        · exact Goes.next h
    · exact Goes.next h

theorem execIntakeDataArrival_goes {s0 s : State} (h : Calm s0 s) (a0 a1) : Goes s0 (execIntakeDataArrival a0 a1 s) := by
  unfold execIntakeDataArrival
  split
  · exact Goes.next h
  · split
    · extract_lets -underBinder -merge y0 y1
      have hy0 : Calm s0 y0 := (giveIntake_calm h ..)
      have hy1 : Calm s0 y1 := (setJob_calm hy0 ..)
      try clear_value y1
      try clear_value y0
      exact Goes.next (settle_calm (packStream_calm hy1 ..) ..)
    · exact Goes.next h

theorem execStreamCreate_goes {s0 s : State} (h : Calm s0 s) (a0) : Goes s0 (execStreamCreate a0 s) := by
  unfold execStreamCreate
  refine Goes.next ?_
  refine onCmd_calm ?_ _ _ (fun c y0 hy0 => ?_)
  · exact h
  · beta_reduce
    extract_lets -underBinder -merge y1
    split
    · extract_lets -underBinder -merge y2
      refine complete_calm ?_ ..
      refine onPost_calm ?_ ..
      exact (Calm.upd hy0 rfl rfl rfl rfl rfl rfl)
    · refine Calm.ite ?_ ?_
      · exact (finish_calm hy0 ..)
      · refine Calm.ite ?_ ?_
        · exact (finish_calm (onPost_calm hy0 ..) ..)
        · exact (setStage_calm hy0 ..)

theorem execStreamOpen_goes {s0 s : State} (h : Calm s0 s) (a0 a1) : Goes s0 (execStreamOpen a0 a1 s) := by
  unfold execStreamOpen
  refine Goes.next ?_
  refine onCmd_calm ?_ _ _ (fun c y0 hy0 => ?_)
  · exact h
  · beta_reduce
    extract_lets -underBinder -merge y1 y2 y3 y4
    have hy4 : Calm s0 y4 := (eccReads_calm hy0 ..)
    try clear_value y4
    split
    · exact (finish_calm hy4 ..)
    · extract_lets -underBinder -merge y5
      have hy5 : Calm s0 y5 := (updStream_calm hy4 ..)
      try clear_value y5
      refine Calm.ite ?_ ?_
      · exact (finish_calm hy4 ..)
      · refine Calm.ite ?_ ?_
        · exact (failOpen_calm (answer_calm hy4 ..) ..)
        · refine Calm.ite ?_ ?_
          · exact (failOpen_calm hy4 ..)
          · exact (finishWith_calm (onPost_calm hy5 ..) ..)

theorem execStreamClose_goes {s0 s : State} (h : Calm s0 s) (a0) : Goes s0 (execStreamClose a0 s) := by
  unfold execStreamClose
  refine Goes.next ?_
  refine onCmd_calm ?_ _ _ (fun c y0 hy0 => ?_)
  · exact h
  · beta_reduce
    split
    · refine Calm.ite ?_ ?_
      · exact (startDrain_calm hy0 ..)
      · exact (finish_calm hy0 ..)
    · exact (finish_calm hy0 ..)

theorem execFlush_goes {s0 s : State} (h : Calm s0 s) (a0) : Goes s0 (execFlush a0 s) := by
  unfold execFlush
  refine Goes.next ?_
  refine onCmd_calm ?_ _ _ (fun c y0 hy0 => ?_)
  · exact h
  · beta_reduce
    exact (startDrain_calm hy0 ..)

theorem execPackerIdleClose_goes {s0 s : State} (h : Calm s0 s) (a0) : Goes s0 (execPackerIdleClose a0 s) := by
  unfold execPackerIdleClose
  exact Goes.next (settle_calm (cutBlock_calm h ..) ..)

theorem execMediumCloseDelay_goes {s0 s : State} (h : Calm s0 s) : Goes s0 (execMediumCloseDelay s) := by
  unfold execMediumCloseDelay
  split
  · exact Goes.next h
  · extract_lets -underBinder -merge y0
    refine Goes.ite ?_ ?_
    · exact Goes.next h
    · refine Goes.ite ?_ ?_
      · exact Goes.next (failDs_calm h ..)
      · refine Goes.next ?_
        refine settle_calm ?_ ..
        refine closeDataset_calm ?_ ..
        refine Calm.foldl ?_ (fun y1 a hy1 => ?_)
        · exact h
        · beta_reduce
          exact (cutBlock_calm hy1 ..)

end Sys2Proof.Machine
end

