-- ==== Sys2Proof/Laws/GoesTce.lean ====
section
/-! SUPPORT. The commands of Machine/Tce.lean go on, and keep what `Calm` says. -/

namespace Sys2Proof.Machine

theorem execLatSample_goes {s0 s : State} (h : Calm s0 s) (a0) : Goes s0 (execLatSample a0 s) := by
  unfold execLatSample
  extract_lets -underBinder -merge y0 y1 y2
  have hy1 : Calm s0 y1 := (Calm.upd h rfl rfl rfl rfl rfl rfl)
  try clear_value y1
  refine Goes.ite ?_ ?_
  · exact Goes.next h
  · refine Goes.ite ?_ ?_
    · exact Goes.next (Calm.upd hy1 rfl rfl rfl rfl rfl rfl)
    · exact Goes.next (latRun_calm (stopFramesStep_calm hy1 ..) ..)

theorem execReelSSample_goes {s0 s : State} (h : Calm s0 s) (a0) : Goes s0 (execReelSSample a0 s) := by
  unfold execReelSSample
  extract_lets -underBinder -merge y0 y1 y2 y3 y4
  have hy4 : Calm s0 y4 := (Calm.upd h rfl rfl rfl rfl rfl rfl)
  try clear_value y4
  refine Goes.ite ?_ ?_
  · exact Goes.next h
  · refine Goes.ite ?_ ?_
    · exact Goes.next hy4
    · exact Goes.next (sampleLoop_calm hy4 ..)

theorem execReelTSample_goes {s0 s : State} (h : Calm s0 s) (a0) : Goes s0 (execReelTSample a0 s) := by
  unfold execReelTSample
  extract_lets -underBinder -merge y0
  refine Goes.ite ?_ ?_
  · exact Goes.next h
  · refine Goes.ite ?_ ?_
    · exact Goes.next h
    · exact Goes.next (sampleLoop_calm h ..)

theorem execSkewSample_goes {s0 s : State} (h : Calm s0 s) (a0) : Goes s0 (execSkewSample a0 s) := by
  unfold execSkewSample
  extract_lets -underBinder -merge y0 y1 y2 y3 y4 y5 y6 y7 y8 y9 y10 y11 y12 y13 y14 y15
  have hy3 : Calm s0 y3 := (Calm.upd h rfl rfl rfl rfl rfl rfl)
  have hy8 : Calm s0 y8 := (Calm.upd hy3 rfl rfl rfl rfl rfl rfl)
  have hy10 : Calm s0 y10.2 := by
    subst y10
    split
    · exact hy8
    · exact (drew_calm hy8 ..)
  have hy11 : Calm s0 y11 := hy10
  have hy13 : Calm s0 y13 := (Calm.upd hy11 rfl rfl rfl rfl rfl rfl)
  have hy15 : Calm s0 y15 := (setLoop_calm hy13 ..)
  try clear_value y15
  try clear_value y13
  try clear_value y10
  try clear_value y8
  try clear_value y3
  refine Goes.ite ?_ ?_
  · exact Goes.next h
  · refine Goes.ite ?_ ?_
    · exact Goes.next hy8
    · refine Goes.ite ?_ ?_
      · refine Goes.next ?_
        refine Calm.ite ?_ ?_
        · exact (tceFault_calm hy8 ..)
        · exact (sendOutput_calm hy8 ..)
      · exact Goes.next (sampleLoop_calm hy15 ..)

theorem execAslKeepalive_goes {s0 s : State} (h : Calm s0 s) : Goes s0 (execAslKeepalive s) := by
  unfold execAslKeepalive
  extract_lets -underBinder -merge y0
  refine Goes.ite ?_ ?_
  · exact Goes.next h
  · refine Goes.ite ?_ ?_
    · exact Goes.next h
    · exact Goes.next (aslCheck_calm (sendAsl_calm h ..) ..)

theorem execAslStatusFrame_goes {s0 s : State} (h : Calm s0 s) (a0) : Goes s0 (execAslStatusFrame a0 s) := by
  unfold execAslStatusFrame
  extract_lets -underBinder -merge y0 y1 y2 y3 y4
  have hy4 : Calm s0 y4 := (Calm.upd h rfl rfl rfl rfl rfl rfl)
  try clear_value y4
  refine Goes.ite ?_ ?_
  · exact Goes.next h
  · refine Goes.ite ?_ ?_
    · exact Goes.next (Calm.upd h rfl rfl rfl rfl rfl rfl)
    · exact Goes.next (faultIf_calm hy4 ..)

theorem execTceBackground_goes {s0 s : State} (h : Calm s0 s) : Goes s0 (execTceBackground s) := by
  unfold execTceBackground
  extract_lets -underBinder -merge y0 y1
  have hy1 : Calm s0 y1 := (Calm.upd h rfl rfl rfl rfl rfl rfl)
  try clear_value y1
  refine Goes.ite ?_ ?_
  · exact Goes.next h
  · refine Goes.ite ?_ ?_
    · exact Goes.next h
    · refine Goes.next ?_
      refine endMotion_calm ?_ ..
      refine runTimers_calm ?_ ..
      refine Calm.ite ?_ ?_
      · exact hy1
      · exact (takeTargets_calm hy1 ..)

theorem execServoReaderPosition_goes {s0 s : State} (h : Calm s0 s) (a0 a1 a2 a3) : Goes s0 (execServoReaderPosition a0 a1 a2 a3 s) := by
  unfold execServoReaderPosition
  extract_lets -underBinder -merge y0 y1 y2 y3 y4
  have hy4 : Calm s0 y4 := (Calm.upd h rfl rfl rfl rfl rfl rfl)
  try clear_value y4
  refine Goes.ite ?_ ?_
  · exact Goes.next h
  · refine Goes.ite ?_ ?_
    · exact Goes.next (Calm.upd h rfl rfl rfl rfl rfl rfl)
    · exact Goes.next (raiseIf_calm hy4 ..)

theorem execTachEdge_goes {s0 s : State} (h : Calm s0 s) (a0 a1 a2) : Goes s0 (execTachEdge a0 a1 a2 s) := by
  unfold execTachEdge
  extract_lets -underBinder -merge y0 y1 y2 y3 y4 y5 y6 y7 y8 y9 y10 y11
  have hy11 : Calm s0 y11 := by
    refine Calm.ite ?_ ?_
    · exact (Calm.upd h rfl rfl rfl rfl rfl rfl)
    · exact (Calm.upd h rfl rfl rfl rfl rfl rfl)
  try clear_value y11
  refine Goes.ite ?_ ?_
  · exact Goes.next h
  · refine Goes.ite ?_ ?_
    · exact Goes.next h
    · exact Goes.next (tlcsSpeed_calm hy11 ..)

theorem execThreadRequest_goes {s0 s : State} (h : Calm s0 s) : Goes s0 (execThreadRequest s) := by
  unfold execThreadRequest
  extract_lets -underBinder -merge y0 y1 y2 y3
  have hy0 : Calm s0 y0 := (tceFault_calm h ..)
  try clear_value y0
  refine Goes.ite ?_ ?_
  · exact Goes.next h
  · refine Goes.ite ?_ ?_
    · exact Goes.next h
    · refine Goes.ite ?_ ?_
      · exact Goes.next (Calm.upd hy0 rfl rfl rfl rfl rfl rfl)
      · refine Goes.next ?_
        refine enableStages_calm ?_ ..
        exact (Calm.upd h rfl rfl rfl rfl rfl rfl)

theorem execMotionRequest_goes {s0 s : State} (h : Calm s0 s) (a0) : Goes s0 (execMotionRequest a0 s) := by
  unfold execMotionRequest
  extract_lets -underBinder -merge y0
  refine Goes.ite ?_ ?_
  · exact Goes.next h
  · refine Goes.ite ?_ ?_
    · refine Goes.next ?_
      refine retarget_calm ?_ ..
      exact (Calm.upd h rfl rfl rfl rfl rfl rfl)
    · exact Goes.next h

theorem execStopRequest_goes {s0 s : State} (h : Calm s0 s) : Goes s0 (execStopRequest s) := by
  unfold execStopRequest
  extract_lets -underBinder -merge y0
  refine Goes.ite ?_ ?_
  · exact Goes.next h
  · refine Goes.ite ?_ ?_
    · refine Goes.next ?_
      refine retarget_calm ?_ ..
      exact (Calm.upd h rfl rfl rfl rfl rfl rfl)
    · exact Goes.next h

theorem execTceFaultClear_goes {s0 s : State} (h : Calm s0 s) (a0) : Goes s0 (execTceFaultClear a0 s) := by
  unfold execTceFaultClear
  exact Goes.next (tceClear_calm h ..)

theorem execSatHourEnd_goes {s0 s : State} (h : Calm s0 s) : Goes s0 (execSatHourEnd s) := by
  unfold execSatHourEnd
  extract_lets -underBinder -merge y0 y1 y2
  have hy2 : Calm s0 y2 := (Calm.upd h rfl rfl rfl rfl rfl rfl)
  try clear_value y2
  exact Goes.next (satCheck_calm hy2 ..)

theorem execTfaultLow_goes {s0 s : State} (h : Calm s0 s) (a0) : Goes s0 (execTfaultLow a0 s) := by
  unfold execTfaultLow
  extract_lets -underBinder -merge y0 y1
  have hy1 : Calm s0 y1 := (Calm.upd h rfl rfl rfl rfl rfl rfl)
  try clear_value y1
  exact Goes.next (faultIf_calm hy1 ..)

theorem execCartPresentStable_goes {s0 s : State} (h : Calm s0 s) (a0) : Goes s0 (execCartPresentStable a0 s) := by
  unfold execCartPresentStable
  extract_lets -underBinder -merge y0 y1 y2 y3 y4 y5
  have hy1 : Calm s0 y1 := (Calm.upd h rfl rfl rfl rfl rfl rfl)
  have hy2 : Calm s0 y2 := (raise_calm hy1 ..)
  have hy4 : Calm s0 y4 := (raise_calm hy1 ..)
  have hy5 : Calm s0 y5 := by
    refine Calm.ite ?_ ?_
    · exact (clearCart_calm hy4 ..)
    · exact hy4
  try clear_value y5
  try clear_value y4
  try clear_value y2
  try clear_value y1
  refine Goes.ite ?_ ?_
  · exact Goes.next h
  · refine Goes.ite ?_ ?_
    · refine Goes.next ?_
      refine Calm.ite ?_ ?_
      · exact (Calm.upd hy2 rfl rfl rfl rfl rfl rfl)
      · exact hy2
    · exact Goes.next (faultIf_calm hy5 ..)

theorem execWprotStable_goes {s0 s : State} (h : Calm s0 s) (a0) : Goes s0 (execWprotStable a0 s) := by
  unfold execWprotStable
  extract_lets -underBinder -merge y0
  refine Goes.ite ?_ ?_
  · exact Goes.next h
  · refine Goes.next ?_
    refine raiseIf_calm ?_ ..
    exact (Calm.upd h rfl rfl rfl rfl rfl rfl)

theorem execReplaceAcknowledge_goes {s0 s : State} (h : Calm s0 s) (a0) : Goes s0 (execReplaceAcknowledge a0 s) := by
  unfold execReplaceAcknowledge
  extract_lets -underBinder -merge y0 y1
  exact Goes.next (Calm.upd h rfl rfl rfl rfl rfl rfl)

end Sys2Proof.Machine
end

