-- ==== Sys2Proof/Laws/GoesTlcs.lean ====
section
/-! SUPPORT. The commands of Machine/Tlcs.lean go on, and keep what `Calm` says. -/

namespace Sys2Proof.Machine

theorem execClockReaderLoss_goes {s0 s : State} (h : Calm s0 s) (a0 a1) : Goes s0 (execClockReaderLoss a0 a1 s) := by
  unfold execClockReaderLoss
  extract_lets -underBinder -merge y0 y1 y2 y3 y4
  have hy1 : Calm s0 y1 := by
    refine raise_calm ?_ ..
    exact (Calm.upd h rfl rfl rfl rfl rfl rfl)
  have hy3 : Calm s0 y3 := by
    refine Calm.ite ?_ ?_
    · refine raise_calm ?_ ..
      exact (Calm.upd hy1 rfl rfl rfl rfl rfl rfl)
    · exact hy1
  try clear_value y3
  try clear_value y1
  refine Goes.ite ?_ ?_
  · exact Goes.next h
  · refine Goes.ite ?_ ?_
    · refine Goes.next ?_
      refine raise_calm ?_ ..
      exact (Calm.upd hy3 rfl rfl rfl rfl rfl rfl)
    · exact Goes.next hy3

theorem execClockReaderValid_goes {s0 s : State} (h : Calm s0 s) (a0 a1) : Goes s0 (execClockReaderValid a0 a1 s) := by
  unfold execClockReaderValid
  extract_lets -underBinder -merge y0 y1 y2 y3
  have hy1 : Calm s0 y1 := by
    refine putPhase_calm ?_ ..
    exact (Calm.upd h rfl rfl rfl rfl rfl rfl)
  have hy2 : Calm s0 y2 := (holdTilt_calm hy1 ..)
  have hy3 : Calm s0 y3 := (setDco_calm hy2 ..)
  try clear_value y3
  try clear_value y2
  try clear_value y1
  refine Goes.ite ?_ ?_
  · exact Goes.next h
  · refine Goes.ite ?_ ?_
    · refine Goes.ite ?_ ?_
      · exact Goes.next (enterLock_calm hy3 ..)
      · exact Goes.next (unlockTlcs_calm hy3 ..)
    · exact Goes.next hy2

theorem execTlcsLockAcquired_goes {s0 s : State} (h : Calm s0 s) : Goes s0 (execTlcsLockAcquired s) := by
  unfold execTlcsLockAcquired
  refine Goes.ite ?_ ?_
  · exact Goes.next (enterLock_calm h ..)
  · exact Goes.next h

theorem execFlywheelLimit_goes {s0 s : State} (h : Calm s0 s) (a0) : Goes s0 (execFlywheelLimit a0 s) := by
  unfold execFlywheelLimit
  extract_lets -underBinder -merge y0
  have hy0 : Calm s0 y0 := (countTo_calm h ..)
  try clear_value y0
  refine Goes.ite ?_ ?_
  · refine Goes.ite ?_ ?_
    · exact Goes.next (unlockTlcs_calm (setDco_calm hy0 ..) ..)
    · exact Goes.next hy0
  · exact Goes.next h

theorem execServoFrameBoundary_goes {s0 s : State} (h : Calm s0 s) (a0 a1 a2 a3) : Goes s0 (execServoFrameBoundary a0 a1 a2 a3 s) := by
  unfold execServoFrameBoundary
  extract_lets -underBinder -merge y0 y1 y2 y3
  have hy0 : Calm s0 y0 := (passBoundary_calm (noteBit_calm (countTo_calm h ..) ..) ..)
  try clear_value y0
  refine Goes.ite ?_ ?_
  · refine Goes.ite ?_ ?_
    · exact Goes.next (slipTlcs_calm hy0 ..)
    · exact Goes.next hy0
  · refine Goes.ite ?_ ?_
    · refine Goes.ite ?_ ?_
      · exact Goes.next (setPosition_calm hy0 ..)
      · exact Goes.next (Calm.upd hy0 rfl rfl rfl rfl rfl rfl)
    · exact Goes.next hy0

theorem execServoWord_goes {s0 s : State} (h : Calm s0 s) (a0) : Goes s0 (execServoWord a0 s) := by
  unfold execServoWord
  split
  · exact Goes.next h
  · extract_lets -underBinder -merge y0 y1 y2
    refine Goes.ite ?_ ?_
    · exact Goes.next (Calm.upd h rfl rfl rfl rfl rfl rfl)
    · refine Goes.ite ?_ ?_
      · refine Goes.ite ?_ ?_
        · exact Goes.next (slipTlcs_calm h ..)
        · exact Goes.next h
      · refine Goes.ite ?_ ?_
        · exact Goes.next (setPosition_calm h ..)
        · exact Goes.next h

theorem execTiltUpdate_goes {s0 s : State} (h : Calm s0 s) (a0) : Goes s0 (execTiltUpdate a0 s) := by
  unfold execTiltUpdate
  extract_lets -underBinder -merge y0 y1 y2 y3 y4
  have hy0 : Calm s0 y0 := (countTo_calm h ..)
  have hy2 : Calm s0 y2 := by
    refine Calm.foldl ?_ (fun y5 a hy5 => ?_)
    · exact (Calm.upd hy0 rfl rfl rfl rfl rfl rfl)
    · beta_reduce
      exact (putPhase_calm hy5 ..)
  have hy3 : Calm s0 y3 := (followTilt_calm (followPhase_calm (learnBand_calm (learnBand_calm hy2 ..) ..) ..) ..)
  try clear_value y3
  try clear_value y2
  try clear_value y0
  exact Goes.next (Calm.upd hy3 rfl rfl rfl rfl rfl rfl)

end Sys2Proof.Machine
end

