-- ==== Sys2Proof/Laws/GoesWritePath.lean ====
section
/-! SUPPORT. The commands of Machine/WritePath.lean go on, and keep what `Calm` says. -/

namespace Sys2Proof.Machine

theorem execWritePassStart_goes {s0 s : State} (h : Calm s0 s) : Goes s0 (execWritePassStart s) := by
  unfold execWritePassStart
  extract_lets -underBinder -merge y0 y1
  have hy1 : Calm s0 y1 := by
    refine takeEqTarget_calm ?_ ..
    exact (Calm.upd h rfl rfl rfl rfl rfl rfl)
  try clear_value y1
  refine Goes.ite ?_ ?_
  · exact Goes.next h
  · exact Goes.next (encodeStart_calm (chooseSpeed_calm (emptyBanks_calm (lateFills_calm hy1 ..) ..) ..) ..)

theorem execDatasetEncodeStart_goes {s0 s : State} (h : Calm s0 s) (a0) : Goes s0 (execDatasetEncodeStart a0 s) := by
  unfold execDatasetEncodeStart
  extract_lets -underBinder -merge y0 y1 y2
  refine Goes.ite ?_ ?_
  · exact Goes.next h
  · refine Goes.ite ?_ ?_
    · exact Goes.next (encodeStart_calm h ..)
    · refine Goes.ite ?_ ?_
      · refine Goes.next ?_
        refine raiseIf_calm ?_ ..
        exact (Calm.upd h rfl rfl rfl rfl rfl rfl)
      · refine Goes.ite ?_ ?_
        · exact Goes.next (Calm.upd h rfl rfl rfl rfl rfl rfl)
        · refine Goes.ite ?_ ?_
          · exact Goes.next (dsTagBad_calm h ..)
          · exact Goes.next (encodeStart_calm h ..)

theorem execDatasetEncodeComplete_goes {s0 s : State} (h : Calm s0 s) (a0 a1 a2) : Goes s0 (execDatasetEncodeComplete a0 a1 a2 s) := by
  unfold execDatasetEncodeComplete
  split
  · exact Goes.next h
  · extract_lets -underBinder -merge y0 y1 y2 y3
    have hy3 : Calm s0 y3 := by
      refine eccReads_calm ?_ ..
      exact (Calm.upd h rfl rfl rfl rfl rfl rfl)
    try clear_value y3
    refine Goes.ite ?_ ?_
    · exact Goes.next (dsUnreadable_calm hy3 ..)
    · split
      · exact Goes.next (failDs_calm (raise_calm hy3 ..) ..)
      · extract_lets -underBinder -merge y4
        have hy4 : Calm s0 y4 := (updDs_calm hy3 ..)
        try clear_value y4
        refine Goes.next ?_
        refine Calm.ite ?_ ?_
        · exact (runTape_calm hy4 ..)
        · exact hy4

theorem execDatasetCommit_goes {s0 s : State} (h : Calm s0 s) : Goes s0 (execDatasetCommit s) := by
  unfold execDatasetCommit
  exact Goes.next (commitHead_calm h ..)

theorem execSlotStart_goes {s0 s : State} (h : Calm s0 s) (a0 a1) : Goes s0 (execSlotStart a0 a1 s) := by
  unfold execSlotStart
  extract_lets -underBinder -merge y0
  refine Goes.ite ?_ ?_
  · exact Goes.next h
  · split
    · extract_lets -underBinder -merge y1
      have hy1 : Calm s0 y1 := (endSegment_calm h ..)
      try clear_value y1
      refine Goes.ite ?_ ?_
      · exact Goes.next (runSlot_calm h ..)
      · split
        · exact Goes.next (setGates_calm hy1 ..)
        · refine Goes.ite ?_ ?_
          · exact Goes.next hy1
          · exact Goes.next (runSlot_calm (chooseSpeed_calm (beginDs_calm hy1 ..) ..) ..)
    · split
      · exact Goes.next h
      · exact Goes.next (runSlot_calm (chooseSpeed_calm (beginDs_calm h ..) ..) ..)

theorem execVerifyLate_goes {s0 s : State} (h : Calm s0 s) (a0 a1 a2) : Goes s0 (execVerifyLate a0 a1 a2 s) := by
  unfold execVerifyLate
  split
  · exact Goes.next h
  · exact Goes.next (postVerdict_calm h ..)

theorem execDatasetRelease_goes {s0 s : State} (h : Calm s0 s) : Goes s0 (execDatasetRelease s) := by
  unfold execDatasetRelease
  split
  · exact Goes.next h
  · refine Goes.ite ?_ ?_
    · exact Goes.next (settle_calm (freeOpt_calm (flushesDone_calm (releaseDs_calm h ..) ..) ..) ..)
    · exact Goes.next h

theorem execWritePassEnd_goes {s0 s : State} (h : Calm s0 s) (a0) : Goes s0 (execWritePassEnd a0 s) := by
  unfold execWritePassEnd
  extract_lets -underBinder -merge y0 y1 y2
  have hy0 : Calm s0 y0 := (setGates_calm (endSegment_calm h ..) ..)
  have hy2 : Calm s0 y2 := by
    refine sweep_calm ?_ ..
    exact (Calm.upd hy0 rfl rfl rfl rfl rfl rfl)
  try clear_value y2
  try clear_value y0
  refine Goes.ite ?_ ?_
  · exact Goes.next h
  · refine Goes.next ?_
    refine Calm.ite ?_ ?_
    · exact hy2
    · exact (closeWindows_calm hy2 ..)

theorem execWriteTailDataset_goes {s0 s : State} (h : Calm s0 s) : Goes s0 (execWriteTailDataset s) := by
  unfold execWriteTailDataset
  extract_lets -underBinder -merge y0 y1 y2 y3 y4
  have hy0 : Calm s0 y0.2 := (agentTag_calm h ..)
  have hy1 : Calm s0 y1 := by
    refine Calm.ite ?_ ?_
    · exact (closeDataset_calm (openDataset_calm hy0 ..) ..)
    · exact h
  have hy4 : Calm s0 y4 := (Calm.upd hy1 rfl rfl rfl rfl rfl rfl)
  try clear_value y4
  try clear_value y1
  try clear_value y0
  refine Goes.ite ?_ ?_
  · exact Goes.next h
  · refine Goes.ite ?_ ?_
    · exact Goes.next hy1
    · exact Goes.next (encodeStart_calm (raise_calm hy4 ..) ..)

theorem execEodBurstWrite_goes {s0 s : State} (h : Calm s0 s) : Goes s0 (execEodBurstWrite s) := by
  unfold execEodBurstWrite
  extract_lets -underBinder -merge y0 y1 y2
  have hy1 : Calm s0 y1 := by
    refine sweep_calm ?_ ..
    refine closeWindows_calm ?_ ..
    exact (Calm.upd h rfl rfl rfl rfl rfl rfl)
  have hy2 : Calm s0 y2 := by
    subst y2
    split
    · refine setGates_calm ?_ ..
      refine Calm.foldl ?_ (fun y3 a hy3 => ?_)
      · exact (setGates_calm (lateFills_calm hy1 ..) ..)
      · beta_reduce
        exact (burstSlot_calm hy3 ..)
    · exact (setGates_calm hy1 ..)
  try clear_value y2
  try clear_value y1
  refine Goes.ite ?_ ?_
  · exact Goes.next h
  · refine Goes.ite ?_ ?_
    · exact Goes.next hy1
    · exact Goes.next (endPass_calm hy2 ..)

theorem execShockFall_goes {s0 s : State} (h : Calm s0 s) (a0) : Goes s0 (execShockFall a0 s) := by
  unfold execShockFall
  extract_lets -underBinder -merge y0 y1 y2 y3 y4 y5
  have hy2 : Calm s0 y2 := by
    refine Calm.ite ?_ ?_
    · exact (drew_calm h ..)
    · exact h
  have hy5 : Calm s0 y5 := (Calm.upd hy2 rfl rfl rfl rfl rfl rfl)
  try clear_value y5
  try clear_value y2
  refine Goes.ite ?_ ?_
  · exact Goes.next hy2
  · exact Goes.next (guardOnset_calm (drew_calm hy5 ..) ..)

theorem execWriteGuardClear_goes {s0 s : State} (h : Calm s0 s) : Goes s0 (execWriteGuardClear s) := by
  unfold execWriteGuardClear
  extract_lets -underBinder -merge y0 y1
  exact Goes.next (Calm.upd h rfl rfl rfl rfl rfl rfl)

end Sys2Proof.Machine
end

