-- ==== Sys2Proof/Laws/QpKept.lean ====
section
/-! SUPPORT. What the data path cannot change of the queues: no queue pair disappears, and its epoch, its submission side
and a reset that runs on it stay as they are; the VFs that exist stay. -/

namespace Sys2Proof.Machine

/-- The part of a queue pair that completions leave alone. -/
structure SameSq (v w : Qp) : Prop where
  epoch : w.epoch = v.epoch
  sqTail : w.sqTail = v.sqTail
  sqHead : w.sqHead = v.sqHead
  sqReq : w.sqReq = v.sqReq
  sqDepth : w.sqDepth = v.sqDepth
  reads : w.reads = v.reads
  fetchQ : w.fetchQ = v.fetchQ
  reset : w.reset = v.reset

theorem SameSq.refl (v : Qp) : SameSq v v := ⟨rfl, rfl, rfl, rfl, rfl, rfl, rfl, rfl⟩

theorem SameSq.trans {u v w : Qp} (h : SameSq u v) (k : SameSq v w) : SameSq u w :=
  ⟨k.1.trans h.1, k.2.trans h.2, k.3.trans h.3, k.4.trans h.4, k.5.trans h.5, k.6.trans h.6, k.7.trans h.7, k.8.trans h.8⟩

/-- Every queue pair of `s` is a queue pair of `t` with the same submission side, and the VFs are the same. -/
structure QpKept (s t : State) : Prop where
  qps : ∀ f q v, getQp s f q = some v → ∃ w, getQp t f q = some w ∧ SameSq v w
  vfEnable : t.host.vfEnable = s.host.vfEnable
  numVfs : t.host.numVfs = s.host.numVfs

theorem QpKept.refl (s : State) : QpKept s s := ⟨fun _ _ v h => ⟨v, h, .refl v⟩, rfl, rfl⟩

theorem QpKept.trans {s t u : State} (h : QpKept s t) (k : QpKept t u) : QpKept s u :=
  ⟨fun f q v e => by
    obtain ⟨w, hw, h1⟩ := h.qps f q v e
    obtain ⟨x, hx, h2⟩ := k.qps f q w hw
    exact ⟨x, hx, h1.trans h2⟩, k.vfEnable.trans h.vfEnable, k.numVfs.trans h.numVfs⟩

/-- A change that leaves the functions and the VFs alone. -/
theorem QpKept.upd {s0 s t : State} (h : QpKept s0 s) (hf : t.host.fns = s.host.fns)
    (hv : t.host.vfEnable = s.host.vfEnable) (hn : t.host.numVfs = s.host.numVfs) : QpKept s0 t :=
  ⟨fun f q v e => by
    obtain ⟨w, hw, h1⟩ := h.qps f q v e
    refine ⟨w, ?_, h1⟩
    unfold getQp getFn
    rw [hf]
    exact hw, hv.trans h.vfEnable, hn.trans h.numVfs⟩

theorem QpKept.ite {s0 : State} {p : Prop} [Decidable p] {a b : State} (ha : QpKept s0 a) (hb : QpKept s0 b) :
    QpKept s0 (if p then a else b) := by
  split
  · exact ha
  · exact hb

theorem QpKept.ite_fst {α : Type} {s0 : State} {p : Prop} [Decidable p] {a b : State × α} (ha : QpKept s0 a.1)
    (hb : QpKept s0 b.1) : QpKept s0 (if p then a else b).1 := by
  split
  · exact ha
  · exact hb

theorem QpKept.ite_snd {α : Type} {s0 : State} {p : Prop} [Decidable p] {a b : α × State} (ha : QpKept s0 a.2)
    (hb : QpKept s0 b.2) : QpKept s0 (if p then a else b).2 := by
  split
  · exact ha
  · exact hb

theorem QpKept.foldl {α : Type} {s0 : State} {f : State → α → State} {l : List α} {s : State} (h : QpKept s0 s)
    (hf : ∀ t a, QpKept s0 t → QpKept s0 (f t a)) : QpKept s0 (l.foldl f s) := by
  induction l generalizing s with
  | nil => exact h
  | cons a l ih => exact ih (hf s a h)

theorem QpKept.foldl_fst {α β : Type} {s0 : State} {f : State × β → α → State × β} {l : List α} {p : State × β}
    (h : QpKept s0 p.1) (hf : ∀ q a, QpKept s0 q.1 → QpKept s0 (f q a).1) : QpKept s0 (l.foldl f p).1 := by
  induction l generalizing p with
  | nil => exact h
  | cons a l ih => exact ih (hf p a h)

theorem QpKept.foldl_snd {α β : Type} {s0 : State} {f : β × State → α → β × State} {l : List α} {p : β × State}
    (h : QpKept s0 p.2) (hf : ∀ q a, QpKept s0 q.2 → QpKept s0 (f q a).2) : QpKept s0 (l.foldl f p).2 := by
  induction l generalizing p with
  | nil => exact h
  | cons a l ih => exact ih (hf p a h)

/-- A change of one function that keeps its queue pairs. -/
theorem updFn_qpKept' {s0 s : State} (h : QpKept s0 s) (f : Nat) (g : Fn → Fn) (hg : ∀ x, (g x).qps = x.qps) :
    QpKept s0 (updFn f g s) :=
  h.trans ⟨fun k q v e => ⟨v, by
    by_cases hk : k = f
    · subst hk
      simpa [getQp, hg] using e
    · simpa [getQp, getFn_updFn_ne _ _ hk] using e, .refl v⟩, rfl, rfl⟩

/-- A queue pair replaced by one with the same submission side. -/
theorem setQp_qpKept' {s0 s : State} (h : QpKept s0 s) (f q : Nat) (v w : Qp) (hv : getQp s f q = some v) (hw : SameSq v w) :
    QpKept s0 (setQp f q w s) :=
  h.trans ⟨fun g r x e => by
    by_cases hk : g ≠ f ∨ r ≠ q
    · exact ⟨x, by rw [getQp_setQp_ne _ _ hk]; exact e, .refl x⟩
    · have h1 : g = f := Classical.not_not.1 fun n => hk (Or.inl n)
      have h2 : r = q := Classical.not_not.1 fun n => hk (Or.inr n)
      subst h1 h2
      rw [hv] at e
      cases e
      exact ⟨w, getQp_setQp_self .., hw⟩, rfl, rfl⟩

theorem sendMsix_qpKept {s0 s : State} (h : QpKept s0 s) (f v) : QpKept s0 (sendMsix f v s) := by
  unfold sendMsix
  extract_lets m
  refine QpKept.ite (updFn_qpKept' h _ _ fun _ => rfl) ?_
  exact h.upd rfl rfl rfl

theorem toHost_qpKept {s0 s : State} (h : QpKept s0 s) (e) : QpKept s0 (toHost e s) := by
  unfold toHost
  extract_lets p armed ev0 t
  have ht : QpKept s0 t := h.upd rfl rfl rfl
  exact QpKept.ite (sendMsix_qpKept ht ..) ht

theorem toMgmt_qpKept {s0 s : State} (h : QpKept s0 s) (e) : QpKept s0 (toMgmt e s) := h.upd rfl rfl rfl

theorem shutdownCheck_qpKept {s0 s : State} (h : QpKept s0 s) (f) : QpKept s0 (shutdownCheck f s) := by
  unfold shutdownCheck
  extract_lets x
  exact QpKept.ite (updFn_qpKept' h _ _ fun _ => rfl) h

theorem coalesce_sameSq {v w : Qp} (b : Bool) (h : SameSq v w) : SameSq v (coalesce b w).1 := by
  unfold coalesce
  extract_lets n
  split
  · exact h
  · split
    · exact ⟨h.1, h.2, h.3, h.4, h.5, h.6, h.7, h.8⟩
    · exact ⟨h.1, h.2, h.3, h.4, h.5, h.6, h.7, h.8⟩

theorem logError_sameSq {v w : Qp} (e : ErrEntry) (h : SameSq v w) : SameSq v (logError e w) := by
  unfold logError
  extract_lets n q
  split
  · exact ⟨h.1, h.2, h.3, h.4, h.5, h.6, h.7, h.8⟩
  · exact ⟨h.1, h.2, h.3, h.4, h.5, h.6, h.7, h.8⟩

theorem emit_qpKept {s0 s : State} (h : QpKept s0 s) (o) : QpKept s0 (emit o s) := h.upd rfl rfl rfl

theorem emits_qpKept {s0 s : State} (h : QpKept s0 s) (a0) : QpKept s0 (emits a0 s) := by
  unfold emits
  exact (QpKept.upd h rfl rfl rfl)

theorem drew_qpKept {s0 s : State} (h : QpKept s0 s) : QpKept s0 (drew s) := by
  unfold drew
  exact (QpKept.upd h rfl rfl rfl)

theorem recordNumOf_qpKept {s0 s : State} (h : QpKept s0 s) (a0) : QpKept s0 (recordNumOf a0 s).2 := by
  unfold recordNumOf
  split
  · exact h
  · exact drew_qpKept h

theorem raise_qpKept {s0 s : State} (h : QpKept s0 s) (a0 a1) : QpKept s0 (raise a0 a1 s) := by
  unfold raise
  extract_lets -underBinder -merge y0 y1 y2 y3 y4
  have hy3 : QpKept s0 y3 := (QpKept.upd h rfl rfl rfl)
  have hy4 : QpKept s0 y4 := by
    refine QpKept.ite ?_ ?_
    · exact (toHost_qpKept hy3 ..)
    · exact hy3
  try clear_value y4
  try clear_value y3
  refine QpKept.ite ?_ ?_
  · exact (toMgmt_qpKept hy4 ..)
  · exact hy4

theorem takeEqTarget_qpKept {s0 s : State} (h : QpKept s0 s) : QpKept s0 (takeEqTarget s) := by
  unfold takeEqTarget
  extract_lets -underBinder -merge y0
  exact (QpKept.upd h rfl rfl rfl)

theorem raiseIf_qpKept {s0 s : State} (h : QpKept s0 s) (a0 a1 a2) : QpKept s0 (raiseIf a0 a1 a2 s) := by
  unfold raiseIf
  refine QpKept.ite ?_ ?_
  · exact (raise_qpKept h ..)
  · exact h

theorem setCmd_qpKept {s0 s : State} (h : QpKept s0 s) (a0 a1) : QpKept s0 (setCmd a0 a1 s) := by
  unfold setCmd
  extract_lets -underBinder -merge y0
  exact (QpKept.upd h rfl rfl rfl)

theorem updCmd_qpKept {s0 s : State} (h : QpKept s0 s) (a0 a1) : QpKept s0 (updCmd a0 a1 s) := by
  unfold updCmd
  split
  · exact (setCmd_qpKept h ..)
  · exact h

theorem setStage_qpKept {s0 s : State} (h : QpKept s0 s) (a0 a1) : QpKept s0 (setStage a0 a1 s) := by
  unfold setStage
  exact (updCmd_qpKept h ..)

theorem updStream_qpKept {s0 s : State} (h : QpKept s0 s) (a0 a1) : QpKept s0 (updStream a0 a1 s) := by
  unfold updStream
  exact (QpKept.upd h rfl rfl rfl)

theorem updKey_qpKept {s0 s : State} (h : QpKept s0 s) (a0 a1) : QpKept s0 (updKey a0 a1 s) := by
  unfold updKey
  extract_lets -underBinder -merge y0
  exact (QpKept.upd h rfl rfl rfl)

theorem bindKey_qpKept {s0 s : State} (h : QpKept s0 s) (a0) : QpKept s0 (bindKey a0 s) := by
  unfold bindKey
  exact (updKey_qpKept h ..)

theorem unbindKey_qpKept {s0 s : State} (h : QpKept s0 s) (a0) : QpKept s0 (unbindKey a0 s) := by
  unfold unbindKey
  exact (updKey_qpKept h ..)

theorem enterCart_qpKept {s0 s : State} (h : QpKept s0 s) (a0) : QpKept s0 (enterCart a0 s) := by
  unfold enterCart
  extract_lets -underBinder -merge y0 y1 y2
  refine QpKept.ite ?_ ?_
  · exact (QpKept.upd h rfl rfl rfl)
  · refine QpKept.ite ?_ ?_
    · exact (QpKept.upd h rfl rfl rfl)
    · exact (QpKept.upd h rfl rfl rfl)

theorem endFormat_qpKept {s0 s : State} (h : QpKept s0 s) (a0) : QpKept s0 (endFormat a0 s) := by
  unfold endFormat
  extract_lets -underBinder -merge y0 y1 y2
  have hy2 : QpKept s0 y2 := (QpKept.upd h rfl rfl rfl)
  try clear_value y2
  split
  · exact hy2
  · refine QpKept.ite ?_ ?_
    · exact (enterCart_qpKept hy2 ..)
    · exact hy2
  · refine QpKept.ite ?_ ?_
    · exact (enterCart_qpKept hy2 ..)
    · exact hy2

theorem PostAct.apply_qpKept {s0 s : State} (h : QpKept s0 s) (a) : QpKept s0 (PostAct.apply a s) := by
  unfold PostAct.apply
  split
  · exact QpKept.ite (enterCart_qpKept h ..) h
  · exact endFormat_qpKept h ..
  · exact QpKept.upd h rfl rfl rfl
  · exact QpKept.upd h rfl rfl rfl
  · unfold updQp
    split
    · rename_i v hv
      exact setQp_qpKept' h _ _ v _ hv ⟨rfl, rfl, rfl, rfl, rfl, rfl, rfl, rfl⟩
    · exact h
  · exact QpKept.upd h rfl rfl rfl
  · extract_lets m t
    have ht : QpKept s0 t := QpKept.upd h rfl rfl rfl
    clear_value t
    split
    · exact QpKept.ite (QpKept.upd ht rfl rfl rfl) ht
    · exact ht

theorem retag_qpKept {s0 s : State} (h : QpKept s0 s) (a0 a1) : QpKept s0 (retag a0 a1 s) := by
  unfold retag
  refine QpKept.ite ?_ ?_
  · exact h
  · exact (updCmd_qpKept h ..)

theorem onPost_qpKept {s0 s : State} (h : QpKept s0 s) (a0 a1) : QpKept s0 (onPost a0 a1 s) := by
  unfold onPost
  exact (updCmd_qpKept h ..)

theorem retireMarks_qpKept {s0 s : State} (h : QpKept s0 s) (a0) : QpKept s0 (retireMarks a0 s) := by
  unfold retireMarks
  extract_lets -underBinder -merge y0 y1 y2
  exact (QpKept.upd h rfl rfl rfl)

theorem retireOwn_qpKept {s0 s : State} (h : QpKept s0 s) (a0) : QpKept s0 (retireOwn a0 s) :=
  QpKept.ite (QpKept.upd h rfl rfl rfl) h

theorem dropCmd_qpKept {s0 s : State} (h : QpKept s0 s) (a0) : QpKept s0 (dropCmd a0 s) := by
  unfold dropCmd
  split
  · exact h
  · extract_lets -underBinder -merge y0 y1
    have hy1 : QpKept s0 y1 := by
      refine QpKept.foldl ?_ (fun y2 a hy2 => ?_)
      · exact (QpKept.upd h rfl rfl rfl)
      · beta_reduce
        exact (PostAct.apply_qpKept hy2 ..)
    try clear_value y1
    refine shutdownCheck_qpKept ?_ ..
    refine QpKept.ite ?_ ?_
    · exact (retireOwn_qpKept hy1 ..)
    · exact hy1

theorem agentTag_qpKept {s0 s : State} (h : QpKept s0 s) (a0) : QpKept s0 (agentTag a0 s).2 := by
  unfold agentTag
  extract_lets -underBinder -merge y0
  exact (QpKept.upd h rfl rfl rfl)

theorem issueCpl_qpKept {s0 s : State} (h : QpKept s0 s) (f q k) : QpKept s0 (issueCpl f q k s) := by
  unfold issueCpl
  split
  · exact h
  · rename_i v hv
    extract_lets addr v1
    have h1 : SameSq v (coalesce k.cpl.status.isError v1).1 := coalesce_sameSq _ ⟨rfl, rfl, rfl, rfl, rfl, rfl, rfl, rfl⟩
    generalize coalesce k.cpl.status.isError v1 = r at h1
    obtain ⟨v2, irq⟩ := r
    dsimp -zeta only
    extract_lets t u
    have ht : QpKept s0 t := emit_qpKept (setQp_qpKept' h f q v v2 hv h1) ..
    clear_value t
    have hu : QpKept s0 u := QpKept.ite (sendMsix_qpKept ht ..) ht
    clear_value u
    split
    · exact dropCmd_qpKept hu ..
    · exact hu

theorem drainHeld_qpKept {s0 s : State} (h : QpKept s0 s) (f q n) : QpKept s0 (drainHeld f q n s) := by
  induction n generalizing s with
  | zero => exact h
  | succ n ih =>
    unfold drainHeld
    split
    · exact h
    · rename_i v hv
      split
      · exact h
      · refine QpKept.ite h ?_
        refine ih (issueCpl_qpKept ?_ ..)
        refine setQp_qpKept' h f q v _ hv ?_
        exact ⟨rfl, rfl, rfl, rfl, rfl, rfl, rfl, rfl⟩

theorem postCpl_qpKept {s0 s : State} (h : QpKept s0 s) (f q k) : QpKept s0 (postCpl f q k s) := by
  unfold postCpl
  split
  · exact h
  · rename_i v hv
    extract_lets t
    refine QpKept.ite (issueCpl_qpKept h ..) ?_
    have ht : QpKept s0 t := by
      refine setQp_qpKept' h f q v _ hv ?_
      exact ⟨rfl, rfl, rfl, rfl, rfl, rfl, rfl, rfl⟩
    clear_value t
    split
    · exact setStage_qpKept ht ..
    · exact ht

theorem complete_qpKept {s0 s : State} (h : QpKept s0 s) (slot p e) : QpKept s0 (complete slot p e s) := by
  unfold complete
  split
  · exact h
  · refine QpKept.ite h (QpKept.ite (dropCmd_qpKept h ..) ?_)
    split
    · exact dropCmd_qpKept h ..
    · rename_i v hv
      refine QpKept.ite (dropCmd_qpKept h ..) ?_
      extract_lets
      refine postCpl_qpKept ?_ ..
      refine setQp_qpKept' h _ _ v _ hv ?_
      show SameSq v (if _ then _ else _)
      split
      · have hl : ∀ x, SameSq v (logError x v) := fun x => logError_sameSq x (SameSq.refl v)
        exact ⟨(hl _).1, (hl _).2, (hl _).3, (hl _).4, (hl _).5, (hl _).6, (hl _).7, (hl _).8⟩
      · exact SameSq.refl v

theorem toHostMem_qpKept {s0 s : State} (h : QpKept s0 s) (a0 a1 a2) : QpKept s0 (toHostMem a0 a1 a2 s) := by
  unfold toHostMem
  split
  · exact h
  · refine QpKept.ite ?_ ?_
    · exact h
    · exact (emit_qpKept h ..)

theorem finish_qpKept {s0 s : State} (h : QpKept s0 s) (a0 a1 a2) : QpKept s0 (finish a0 a1 a2 s) := by
  unfold finish
  exact (complete_qpKept h ..)

theorem finishWith_qpKept {s0 s : State} (h : QpKept s0 s) (a0 a1 a2 a3) : QpKept s0 (finishWith a0 a1 a2 a3 s) := by
  unfold finishWith
  exact (complete_qpKept h ..)

theorem noteInfo_qpKept {s0 s : State} (h : QpKept s0 s) (a0 a1) : QpKept s0 (noteInfo a0 a1 s) := by
  unfold noteInfo
  exact (updCmd_qpKept h ..)

end Sys2Proof.Machine
end

