-- ==== Sys2Proof/Laws/QpKeptData.lean ====
section
/-! SUPPORT. The operations of the data path keep what `QpKept` says. -/

namespace Sys2Proof.Machine

theorem updPool_qpKept {s0 s : State} (h : QpKept s0 s) (a0 a1) : QpKept s0 (updPool a0 a1 s) := by
  unfold updPool
  extract_lets -underBinder -merge y0
  exact (QpKept.upd h rfl rfl rfl)

theorem throttle_qpKept {s0 s : State} (h : QpKept s0 s) : QpKept s0 (throttle s) := by
  unfold throttle
  extract_lets -underBinder -merge y0
  exact (QpKept.upd h rfl rfl rfl)

theorem updAbove_qpKept {s0 s : State} (h : QpKept s0 s) : QpKept s0 (updAbove s) := by
  unfold updAbove
  extract_lets -underBinder -merge y0 y1
  refine QpKept.ite ?_ ?_
  · refine QpKept.ite ?_ ?_
    · exact h
    · refine throttle_qpKept ?_ ..
      exact (QpKept.upd h rfl rfl rfl)
  · refine QpKept.ite ?_ ?_
    · exact (QpKept.upd h rfl rfl rfl)
    · exact h

theorem takeBuf_qpKept {s0 s : State} (h : QpKept s0 s) (a0 a1) : QpKept s0 (takeBuf a0 a1 s).1 := by
  unfold takeBuf
  extract_lets -underBinder -merge y0 y1 y2 y3 y4
  have hy3 : QpKept s0 y3 := (QpKept.upd h rfl rfl rfl)
  have hy4 : QpKept s0 y4 := (updPool_qpKept hy3 ..)
  try clear_value y4
  try clear_value y3
  exact (updAbove_qpKept hy4 ..)

theorem answer_qpKept {s0 s : State} (h : QpKept s0 s) (a0 a1 a2 a3) : QpKept s0 (answer a0 a1 a2 a3 s) := by
  unfold answer
  extract_lets -underBinder -merge y0
  exact (QpKept.upd h rfl rfl rfl)

theorem holdReq_qpKept {s0 s : State} (h : QpKept s0 s) (a0 a1 a2 a3) : QpKept s0 (holdReq a0 a1 a2 a3 s).1 := by
  unfold holdReq
  extract_lets -underBinder -merge y0 y1 y2 y3 y4
  have hy2 : QpKept s0 y2 := (QpKept.upd h rfl rfl rfl)
  have hy3 : QpKept s0 y3 := (answer_qpKept hy2 ..)
  try clear_value y3
  try clear_value y2
  refine QpKept.ite_fst ?_ ?_
  · dsimp -zeta only
    refine raise_qpKept ?_ ..
    exact (QpKept.upd hy3 rfl rfl rfl)
  · exact hy3

theorem askBuf_qpKept {s0 s : State} (h : QpKept s0 s) (a0 a1 a2) : QpKept s0 (askBuf a0 a1 a2 s).1 := by
  unfold askBuf
  split
  · extract_lets -underBinder -merge y0
    have hy0 : QpKept s0 y0.1 := (takeBuf_qpKept h ..)
    try clear_value y0
    exact (retag_qpKept (answer_qpKept hy0 ..) ..)
  · extract_lets -underBinder -merge y1
    have hy1 : QpKept s0 y1.1 := (holdReq_qpKept h ..)
    try clear_value y1
    exact hy1

theorem quarantine_qpKept {s0 s : State} (h : QpKept s0 s) (a0 a1) : QpKept s0 (quarantine a0 a1 s) := by
  unfold quarantine
  extract_lets -underBinder -merge y0
  have hy0 : QpKept s0 y0 := (updPool_qpKept h ..)
  try clear_value y0
  exact (raise_qpKept (updPool_qpKept hy0 ..) ..)

theorem returnBuf_qpKept {s0 s : State} (h : QpKept s0 s) (a0) : QpKept s0 (returnBuf a0 s) := by
  unfold returnBuf
  extract_lets -underBinder -merge y0 y1 y2
  have hy1 : QpKept s0 y1 := (QpKept.upd h rfl rfl rfl)
  have hy2 : QpKept s0 y2 := by
    refine QpKept.ite ?_ ?_
    · exact (quarantine_qpKept hy1 ..)
    · exact hy1
  try clear_value y2
  try clear_value y1
  exact (updAbove_qpKept hy2 ..)

theorem dropRef_qpKept {s0 s : State} (h : QpKept s0 s) (a0) : QpKept s0 (dropRef a0 s) := by
  unfold dropRef
  split
  · exact h
  · extract_lets -underBinder -merge y0
    refine QpKept.ite ?_ ?_
    · exact h
    · refine QpKept.ite ?_ ?_
      · exact (returnBuf_qpKept h ..)
      · exact (QpKept.upd h rfl rfl rfl)

theorem misuse_qpKept {s0 s : State} (h : QpKept s0 s) (a0 a1 a2 a3 a4) : QpKept s0 (misuse a0 a1 a2 a3 a4 s) := by
  unfold misuse
  extract_lets -underBinder -merge y0
  exact (raise_qpKept (answer_qpKept h ..) ..)

theorem setCause_qpKept {s0 s : State} (h : QpKept s0 s) (a0) : QpKept s0 (setCause a0 s) := by
  unfold setCause
  extract_lets -underBinder -merge y0
  refine QpKept.ite ?_ ?_
  · exact h
  · refine raise_qpKept ?_ ..
    exact (QpKept.upd h rfl rfl rfl)

theorem addRef_qpKept {s0 s : State} (h : QpKept s0 s) (a0) : QpKept s0 (addRef a0 s) := by
  unfold addRef
  split
  · exact h
  · extract_lets -underBinder -merge y0 y1
    refine QpKept.ite ?_ ?_
    · refine raise_qpKept ?_ ..
      exact (QpKept.upd h rfl rfl rfl)
    · exact (QpKept.upd h rfl rfl rfl)

theorem freeReq_qpKept {s0 s : State} (h : QpKept s0 s) (a0 a1 a2) : QpKept s0 (freeReq a0 a1 a2 s) := by
  unfold freeReq
  split
  · exact (misuse_qpKept h ..)
  · refine QpKept.ite ?_ ?_
    · exact (misuse_qpKept h ..)
    · exact (dropRef_qpKept (answer_qpKept h ..) ..)

theorem refReq_qpKept {s0 s : State} (h : QpKept s0 s) (a0 a1 a2) : QpKept s0 (refReq a0 a1 a2 s) := by
  unfold refReq
  split
  · exact (misuse_qpKept h ..)
  · refine QpKept.ite ?_ ?_
    · exact (misuse_qpKept h ..)
    · exact (addRef_qpKept (answer_qpKept h ..) ..)

theorem giveReq_qpKept {s0 s : State} (h : QpKept s0 s) (a0 a1 a2 a3) : QpKept s0 (giveReq a0 a1 a2 a3 s) := by
  unfold giveReq
  split
  · exact (misuse_qpKept h ..)
  · extract_lets -underBinder -merge y0
    refine QpKept.ite ?_ ?_
    · exact (misuse_qpKept h ..)
    · refine retag_qpKept ?_ ..
      refine answer_qpKept ?_ ..
      exact (QpKept.upd h rfl rfl rfl)

theorem freeOwn_qpKept {s0 s : State} (h : QpKept s0 s) (a0 a1 a2) : QpKept s0 (freeOwn a0 a1 a2 s) := by
  unfold freeOwn
  split
  · refine QpKept.ite ?_ ?_
    · exact (freeReq_qpKept h ..)
    · exact h
  · exact h

theorem giveOwn_qpKept {s0 s : State} (h : QpKept s0 s) (a0 a1 a2 a3) : QpKept s0 (giveOwn a0 a1 a2 a3 s) := by
  unfold giveOwn
  split
  · refine QpKept.ite ?_ ?_
    · exact (giveReq_qpKept h ..)
    · exact h
  · exact h

theorem refOwn_qpKept {s0 s : State} (h : QpKept s0 s) (a0 a1 a2) : QpKept s0 (refOwn a0 a1 a2 s) := by
  unfold refOwn
  split
  · refine QpKept.ite ?_ ?_
    · exact (refReq_qpKept h ..)
    · exact h
  · exact h

theorem freeHeld_qpKept {s0 s : State} (h : QpKept s0 s) (a0 a1) : QpKept s0 (freeHeld a0 a1 s) := by
  unfold freeHeld
  split
  · exact (freeReq_qpKept h ..)
  · exact h

theorem freeOpt_qpKept {s0 s : State} (h : QpKept s0 s) (a0 a1) : QpKept s0 (freeOpt a0 a1 s) := by
  unfold freeOpt
  split
  · exact (freeHeld_qpKept h ..)
  · exact h

theorem BufReq.run_qpKept {s0 s : State} (h : QpKept s0 s) (a0) : QpKept s0 (BufReq.run a0 s) := by
  unfold BufReq.run
  split
  · exact (refReq_qpKept h ..)
  · exact (giveReq_qpKept h ..)
  · exact (freeReq_qpKept h ..)

theorem grantHeld_qpKept {s0 s : State} (h : QpKept s0 s) : ∀ r, grantHeld s = some r → QpKept s0 r.1 := by
  intro r e
  unfold grantHeld at e
  split at e
  · cases e
  · split at e
    rename_i t id heq
    have ht : QpKept s0 (t, id).1 := by
      have q : ∀ a b, QpKept s0 (takeBuf a b s).1 := takeBuf_qpKept h
      have q' := congrArg Prod.fst heq
      exact q' ▸ q _ _
    cases e
    refine retag_qpKept (answer_qpKept ?_ ..) ..
    exact QpKept.upd ht rfl rfl rfl

theorem quarantineFree_qpKept {s0 s : State} (h : QpKept s0 s) (a0) : QpKept s0 (quarantineFree a0 s) := by
  unfold quarantineFree
  refine QpKept.foldl ?_ (fun y0 a hy0 => ?_)
  · exact h
  · beta_reduce
    refine QpKept.ite ?_ ?_
    · exact (quarantine_qpKept hy0 ..)
    · exact hy0

theorem listRow_qpKept {s0 s : State} (h : QpKept s0 s) (a0) : QpKept s0 (listRow a0 s) := by
  unfold listRow
  extract_lets -underBinder -merge y0 y1
  have hy1 : QpKept s0 y1 := (QpKept.upd h rfl rfl rfl)
  try clear_value y1
  refine QpKept.ite ?_ ?_
  · exact h
  · exact (quarantineFree_qpKept hy1 ..)

theorem countCe_qpKept {s0 s : State} (h : QpKept s0 s) : QpKept s0 (countCe s) := by
  unfold countCe
  extract_lets -underBinder -merge y0 y1 y2 y3 y4
  have hy4 : QpKept s0 y4 := (QpKept.upd h rfl rfl rfl)
  try clear_value y4
  exact (raiseIf_qpKept hy4 ..)

theorem corrected_qpKept {s0 s : State} (h : QpKept s0 s) (a0) : QpKept s0 (corrected a0 s) := by
  unfold corrected
  extract_lets -underBinder -merge y0 y1 y2 y3 y4
  have hy1 : QpKept s0 y1 := (countCe_qpKept h ..)
  have hy4 : QpKept s0 y4 := (QpKept.upd hy1 rfl rfl rfl)
  try clear_value y4
  try clear_value y1
  refine QpKept.ite ?_ ?_
  · exact (listRow_qpKept hy4 ..)
  · exact hy4

theorem uncorrected_qpKept {s0 s : State} (h : QpKept s0 s) (a0) : QpKept s0 (uncorrected a0 s) := by
  unfold uncorrected
  extract_lets -underBinder -merge y0 y1
  have hy1 : QpKept s0 y1 := (QpKept.upd h rfl rfl rfl)
  try clear_value y1
  exact (listRow_qpKept (raise_qpKept hy1 ..) ..)

theorem eccReads_qpKept {s0 s : State} (h : QpKept s0 s) (a0) : QpKept s0 (eccReads a0 s) := by
  unfold eccReads
  exact QpKept.foldl h fun _ _ ht => QpKept.ite (uncorrected_qpKept ht ..) (corrected_qpKept ht ..)

theorem dropOwners_qpKept {s0 s : State} (h : QpKept s0 s) (a0) : QpKept s0 (dropOwners a0 s) := by
  unfold dropOwners
  extract_lets -underBinder -merge y0 y1 y2
  have hy2 : QpKept s0 y2 := (QpKept.upd h rfl rfl rfl)
  try clear_value y2
  refine QpKept.foldl ?_ (fun y3 a hy3 => ?_)
  · exact hy2
  · beta_reduce
    refine QpKept.foldl ?_ (fun y4 a hy4 => ?_)
    · exact hy3
    · beta_reduce
      exact (dropRef_qpKept hy4 ..)

theorem setJob_qpKept {s0 s : State} (h : QpKept s0 s) (a0 a1) : QpKept s0 (setJob a0 a1 s) := by
  unfold setJob
  exact (setStage_qpKept h ..)

theorem setBlk_qpKept {s0 s : State} (h : QpKept s0 s) (a0 a1) : QpKept s0 (setBlk a0 a1 s) := by
  unfold setBlk
  extract_lets -underBinder -merge y0
  exact (QpKept.upd h rfl rfl rfl)

theorem updBlk_qpKept {s0 s : State} (h : QpKept s0 s) (a0 a1) : QpKept s0 (updBlk a0 a1 s) := by
  unfold updBlk
  extract_lets -underBinder -merge y0
  exact (QpKept.upd h rfl rfl rfl)

theorem setEngine_qpKept {s0 s : State} (h : QpKept s0 s) (a0 a1) : QpKept s0 (setEngine a0 a1 s) := by
  unfold setEngine
  extract_lets -underBinder -merge y0
  exact (QpKept.upd h rfl rfl rfl)

theorem saveLane_qpKept {s0 s : State} (h : QpKept s0 s) (a0) : QpKept s0 (saveLane a0 s) := by
  unfold saveLane
  extract_lets -underBinder -merge y0
  split
  · exact h
  · extract_lets -underBinder -merge y1
    refine setEngine_qpKept ?_ ..
    exact (QpKept.upd h rfl rfl rfl)

theorem putOnEngine_qpKept {s0 s : State} (h : QpKept s0 s) (a0 a1) : QpKept s0 (putOnEngine a0 a1 s) := by
  unfold putOnEngine
  extract_lets -underBinder -merge y0 y1 y2 y3
  have hy1 : QpKept s0 y1 := (updStream_qpKept h ..)
  have hy3 : QpKept s0 y3 := (setBlk_qpKept hy1 ..)
  try clear_value y3
  try clear_value y1
  exact (setEngine_qpKept hy3 ..)

theorem dispatch_qpKept {s0 s : State} (h : QpKept s0 s) (a0) : QpKept s0 (dispatch a0 s) := by
  unfold dispatch
  extract_lets -underBinder -merge y0
  split
  · exact h
  · refine QpKept.ite ?_ ?_
    · exact h
    · refine QpKept.ite ?_ ?_
      · exact (saveLane_qpKept h ..)
      · refine QpKept.ite ?_ ?_
        · exact h
        · split
          · exact (putOnEngine_qpKept h ..)
          · exact h

theorem dispatchAll_qpKept {s0 s : State} (h : QpKept s0 s) : QpKept s0 (dispatchAll s) := by
  unfold dispatchAll
  refine QpKept.foldl ?_ (fun y0 a hy0 => ?_)
  · exact h
  · beta_reduce
    exact (dispatch_qpKept hy0 ..)

theorem cutBlock_qpKept {s0 s : State} (h : QpKept s0 s) (a0) : QpKept s0 (cutBlock a0 s) := by
  unfold cutBlock
  split
  · exact h
  · split
    · exact h
    · extract_lets -underBinder -merge y0 y1 y2 y3 y4 y5
      have hy5 : QpKept s0 y5 := (QpKept.upd h rfl rfl rfl)
      try clear_value y5
      refine QpKept.ite ?_ ?_
      · exact h
      · refine dispatchAll_qpKept ?_ ..
        exact (QpKept.upd hy5 rfl rfl rfl)

theorem lessLeft_qpKept {s0 s : State} (h : QpKept s0 s) (a0 a1) : QpKept s0 (lessLeft a0 a1 s) := by
  unfold lessLeft
  extract_lets -underBinder -merge y0 y1 y2
  refine QpKept.ite ?_ ?_
  · exact (QpKept.upd h rfl rfl rfl)
  · exact (QpKept.upd h rfl rfl rfl)

theorem freeIntake_qpKept {s0 s : State} (h : QpKept s0 s) (a0 a1) : QpKept s0 (freeIntake a0 a1 s) := by
  unfold freeIntake
  refine QpKept.foldl ?_ (fun y0 a hy0 => ?_)
  · exact h
  · beta_reduce
    extract_lets -underBinder -merge y1
    have hy1 : QpKept s0 y1 := (lessLeft_qpKept hy0 ..)
    try clear_value y1
    refine QpKept.ite ?_ ?_
    · exact (freeHeld_qpKept hy1 ..)
    · exact hy1

theorem giveIntake_qpKept {s0 s : State} (h : QpKept s0 s) (a0 a1) : QpKept s0 (giveIntake a0 a1 s) := by
  unfold giveIntake
  refine QpKept.foldl ?_ (fun y0 a hy0 => ?_)
  · exact h
  · beta_reduce
    exact (giveOwn_qpKept hy0 ..)

theorem closeRecords_qpKept {s0 s : State} (h : QpKept s0 s) (a0 a1) : QpKept s0 (closeRecords a0 a1 s) := by
  unfold closeRecords
  exact (updStream_qpKept h ..)

theorem runSettled_qpKept {s0 s : State} (h : QpKept s0 s) (a0) : QpKept s0 (runSettled a0 s) := by
  unfold runSettled
  exact (updStream_qpKept h ..)

theorem finishWrite_qpKept {s0 s : State} (h : QpKept s0 s) (a0 a1 a2) : QpKept s0 (finishWrite a0 a1 a2 s) := by
  unfold finishWrite
  split
  · exact h
  · split
    · extract_lets -underBinder -merge y0 y1 y2 y3 y4 y5 y6 y7 y8
      have hy4 : QpKept s0 y4 := by
        refine QpKept.ite ?_ ?_
        · exact (runSettled_qpKept h ..)
        · exact h
      have hy6 : QpKept s0 y6 := by
        refine QpKept.ite ?_ ?_
        · exact (noteInfo_qpKept hy4 ..)
        · exact hy4
      have hy7 : QpKept s0 y7.2 := (recordNumOf_qpKept hy6 ..)
      have hy8 : QpKept s0 y8.2 := by
        refine QpKept.ite_snd ?_ ?_
        · exact hy7
        · clear_value y5
          split
          · exact hy7
          · exact (drew_qpKept hy7 ..)
      try clear_value y8
      try clear_value y7
      try clear_value y6
      try clear_value y4
      exact (complete_qpKept hy8 ..)
    · exact h

theorem dropRun_qpKept {s0 s : State} (h : QpKept s0 s) (a0 a1) : QpKept s0 (dropRun a0 a1 s) := by
  unfold dropRun
  exact (updStream_qpKept h ..)

theorem stopWrite_qpKept {s0 s : State} (h : QpKept s0 s) (a0 a1 a2) : QpKept s0 (stopWrite a0 a1 a2 s) := by
  unfold stopWrite
  split
  · exact h
  · split
    · extract_lets -underBinder -merge y0 y1 y2 y3
      have hy1 : QpKept s0 y1 := by
        refine QpKept.ite ?_ ?_
        · split
          · exact h
          · extract_lets -underBinder -merge y4 y5 y6 y7 y8
            exact (closeRecords_qpKept (updStream_qpKept h ..) ..)
        · exact h
      have hy2 : QpKept s0 y2 := (freeIntake_qpKept (dropRun_qpKept hy1 ..) ..)
      have hy3 : QpKept s0 y3 := (finishWrite_qpKept (setJob_qpKept hy2 ..) ..)
      try clear_value y3
      try clear_value y2
      try clear_value y1
      exact hy3
    · exact h

theorem checkWrite_qpKept {s0 s : State} (h : QpKept s0 s) (a0) : QpKept s0 (checkWrite a0 s) := by
  unfold checkWrite
  split
  · exact h
  · split
    · refine QpKept.ite ?_ ?_
      · exact h
      · refine QpKept.ite ?_ ?_
        · exact h
        · exact (finishWrite_qpKept h ..)
    · exact h

theorem checkWrites_qpKept {s0 s : State} (h : QpKept s0 s) : QpKept s0 (checkWrites s) := by
  unfold checkWrites
  refine QpKept.foldl ?_ (fun y0 a hy0 => ?_)
  · exact h
  · beta_reduce
    exact (checkWrite_qpKept hy0 ..)

theorem endRun_qpKept {s0 s : State} (h : QpKept s0 s) (a0 a1 a2 a3) : QpKept s0 (endRun a0 a1 a2 a3 s) := by
  unfold endRun
  extract_lets -underBinder -merge y0
  have hy0 : QpKept s0 y0 := (freeIntake_qpKept (dropRun_qpKept h ..) ..)
  try clear_value y0
  refine QpKept.ite ?_ ?_
  · exact (dropCmd_qpKept hy0 ..)
  · exact (setJob_qpKept hy0 ..)

/-- `QpKept` for an action of the packer. -/
def PackedQpKept (s0 : State) : Packed → Prop
  | .idle => True
  | .again t => QpKept s0 t

theorem PackedQpKept.ite {s0 : State} {p : Prop} [Decidable p] {a b : Packed} (ha : PackedQpKept s0 a) (hb : PackedQpKept s0 b) :
    PackedQpKept s0 (if p then a else b) := by
  split
  · exact ha
  · exact hb

theorem PackedQpKept.again {s0 t : State} (h : QpKept s0 t) : PackedQpKept s0 (.again t) := h

theorem packAct_qpKept {s0 s : State} (h : QpKept s0 s) (n : Nat) : PackedQpKept s0 (packAct n s) := by
  unfold packAct
  split
  · trivial
  split
  · trivial
  split
  · exact PackedQpKept.again (dropRun_qpKept h ..)
  refine PackedQpKept.ite (PackedQpKept.again (endRun_qpKept h ..)) ?_
  extract_lets -underBinder -merge
  refine PackedQpKept.ite (PackedQpKept.again (cutBlock_qpKept (updStream_qpKept h ..) ..)) ?_
  refine PackedQpKept.ite (PackedQpKept.again (cutBlock_qpKept h ..)) ?_
  refine PackedQpKept.ite (PackedQpKept.ite (PackedQpKept.again (updStream_qpKept h ..))
    (PackedQpKept.again (cutBlock_qpKept (updStream_qpKept h ..) ..))) ?_
  refine PackedQpKept.ite trivial ?_
  refine PackedQpKept.ite (PackedQpKept.again (cutBlock_qpKept h ..)) ?_
  refine PackedQpKept.ite (PackedQpKept.again (cutBlock_qpKept h ..)) ?_
  refine PackedQpKept.ite (PackedQpKept.again (endRun_qpKept (closeRecords_qpKept (updStream_qpKept h ..) ..) ..)) ?_
  refine PackedQpKept.ite (PackedQpKept.again (raise_qpKept (stopWrite_qpKept h ..) ..)) ?_
  refine PackedQpKept.ite (PackedQpKept.again (QpKept.ite ?_ (stopWrite_qpKept (setJob_qpKept h ..) ..)))
    (PackedQpKept.again (setJob_qpKept (updStream_qpKept h ..) ..))
  exact QpKept.upd (stopWrite_qpKept (setJob_qpKept h ..) ..) rfl rfl rfl

theorem packLoop_qpKept {s0 s : State} (h : QpKept s0 s) (n k) : QpKept s0 (packLoop n k s) := by
  induction k generalizing s with
  | zero => exact h
  | succ k ih =>
    unfold packLoop
    have q := packAct_qpKept h n
    split
    · exact h
    · rename_i t e
      rw [e] at q
      exact ih q

theorem cutFull_qpKept {s0 s : State} (h : QpKept s0 s) (a0) : QpKept s0 (cutFull a0 s) := by
  unfold cutFull
  split
  · extract_lets -underBinder -merge y0 y1 y2
    refine QpKept.ite ?_ ?_
    · exact (cutBlock_qpKept (updStream_qpKept h ..) ..)
    · refine QpKept.ite ?_ ?_
      · exact (cutBlock_qpKept h ..)
      · exact h
  · exact h

theorem packStream_qpKept {s0 s : State} (h : QpKept s0 s) (a0) : QpKept s0 (packStream a0 s) := by
  unfold packStream
  exact (cutFull_qpKept (packLoop_qpKept h ..) ..)

theorem consumeSrc_qpKept {s0 s : State} (h : QpKept s0 s) (a0 a1) : QpKept s0 (consumeSrc a0 a1 s) := by
  unfold consumeSrc
  refine QpKept.foldl ?_ (fun y0 a hy0 => ?_)
  · exact h
  · beta_reduce
    extract_lets -underBinder -merge y1
    have hy1 : QpKept s0 y1 := (lessLeft_qpKept hy0 ..)
    try clear_value y1
    refine QpKept.ite ?_ ?_
    · exact (freeOwn_qpKept hy1 ..)
    · exact hy1

theorem freeRefs_qpKept {s0 s : State} (h : QpKept s0 s) (a0 a1) : QpKept s0 (freeRefs a0 a1 s) := by
  unfold freeRefs
  refine QpKept.foldl ?_ (fun y0 a hy0 => ?_)
  · exact h
  · beta_reduce
    exact (freeOwn_qpKept hy0 ..)

theorem windowRefs_qpKept {s0 s : State} (h : QpKept s0 s) (a0 a1 a2) : QpKept s0 (windowRefs a0 a1 a2 s).1 := by
  unfold windowRefs
  extract_lets -underBinder -merge y0 y1 y2 y3 y4
  have hy2 : QpKept s0 y2 := by
    refine QpKept.foldl ?_ (fun y5 a hy5 => ?_)
    · exact h
    · beta_reduce
      exact (refOwn_qpKept hy5 ..)
  try clear_value y2
  dsimp -zeta only
  refine QpKept.foldl ?_ (fun y6 a hy6 => ?_)
  · exact hy2
  · beta_reduce
    exact (freeOwn_qpKept hy6 ..)

theorem copyWindow_qpKept {s0 s : State} (h : QpKept s0 s) (a0 a1 a2) : QpKept s0 (copyWindow a0 a1 a2 s) := by
  unfold copyWindow
  extract_lets -underBinder -merge y0 y1 y2 y3 y4
  have hy0 : QpKept s0 y0 := (giveOwn_qpKept h ..)
  have hy4 : QpKept s0 y4 := (setEngine_qpKept hy0 ..)
  try clear_value y4
  try clear_value y0
  exact (dispatch_qpKept (freeRefs_qpKept hy4 ..) ..)

theorem shortenRefs_qpKept {s0 s : State} (h : QpKept s0 s) (a0 a1) : QpKept s0 (shortenRefs a0 a1 s) := by
  unfold shortenRefs
  extract_lets -underBinder -merge y0 y1
  have hy1 : QpKept s0 y1.1 := (askBuf_qpKept h ..)
  try clear_value y1
  refine QpKept.ite ?_ ?_
  · exact h
  · split
    · exact (copyWindow_qpKept hy1 ..)
    · extract_lets -underBinder -merge y2
      exact (setEngine_qpKept hy1 ..)

theorem lanesMust_qpKept {s0 s : State} (h : QpKept s0 s) (a0 a1) : QpKept s0 (lanesMust a0 a1 s) := by
  unfold lanesMust
  exact (updStream_qpKept h ..)

theorem dropLanes_qpKept {s0 s : State} (h : QpKept s0 s) (a0) : QpKept s0 (dropLanes a0 s) := by
  unfold dropLanes
  extract_lets -underBinder -merge y0 y1 y2 y3
  have hy0 : QpKept s0 y0.2 := (agentTag_qpKept h ..)
  have hy1 : QpKept s0 y1 := by
    refine QpKept.foldl ?_ (fun y4 a hy4 => ?_)
    · exact hy0
    · beta_reduce
      extract_lets -underBinder -merge y5
      exact (setEngine_qpKept (freeRefs_qpKept hy4 ..) ..)
  have hy2 : QpKept s0 y2 := by
    refine QpKept.foldl ?_ (fun y6 a hy6 => ?_)
    · exact hy1
    · beta_reduce
      exact (freeRefs_qpKept hy6 ..)
  try clear_value y2
  try clear_value y1
  try clear_value y0
  exact (QpKept.upd hy2 rfl rfl rfl)

theorem dropHeld_qpKept {s0 s : State} (h : QpKept s0 s) (a0) : QpKept s0 (dropHeld a0 s) := by
  unfold dropHeld
  split
  · exact h
  · extract_lets -underBinder -merge y0 y1
    exact (QpKept.upd h rfl rfl rfl)

theorem freeTape_qpKept {s0 s : State} (h : QpKept s0 s) (a1) : QpKept s0 (freeTape s a1) := by
  unfold freeTape
  exact (dropHeld_qpKept (dropHeld_qpKept (freeOpt_qpKept (freeOpt_qpKept h ..) ..) ..) ..)

theorem clearReads_qpKept {s0 s : State} (h : QpKept s0 s) : QpKept s0 (clearReads s) := by
  unfold clearReads
  extract_lets -underBinder -merge y0 y1 y2
  have hy0 : QpKept s0 y0 := by
    refine QpKept.foldl ?_ (fun y3 a hy3 => ?_)
    · exact h
    · beta_reduce
      exact (freeTape_qpKept hy3 ..)
  have hy1 : QpKept s0 y1 := by
    subst y1
    split
    · exact (dropHeld_qpKept (freeOpt_qpKept hy0 ..) ..)
    · exact hy0
  try clear_value y1
  try clear_value y0
  exact (QpKept.upd hy1 rfl rfl rfl)

theorem addInfo_qpKept {s0 s : State} (h : QpKept s0 s) (a0 a1) : QpKept s0 (addInfo a0 a1 s) := by
  unfold addInfo
  exact (updCmd_qpKept h ..)

theorem giveLens_qpKept {s0 s : State} (h : QpKept s0 s) (a0 a1 a2) : QpKept s0 (giveLens a0 a1 a2 s) := by
  unfold giveLens
  refine QpKept.ite ?_ ?_
  · exact (emit_qpKept h ..)
  · exact h

theorem endRead_qpKept {s0 s : State} (h : QpKept s0 s) (a0 a1 a2 a3) : QpKept s0 (endRead a0 a1 a2 a3 s) := by
  unfold endRead
  extract_lets -underBinder -merge y0 y1
  have hy0 : QpKept s0 y0 := (giveLens_qpKept (toHostMem_qpKept h ..) ..)
  have hy1 : QpKept s0 y1.2 := (recordNumOf_qpKept (addInfo_qpKept hy0 ..) ..)
  try clear_value y1
  try clear_value y0
  exact (complete_qpKept hy1 ..)

theorem knownOr_qpKept {s0 s : State} (h : QpKept s0 s) (a0) : QpKept s0 (knownOr a0 s).2 := by
  unfold knownOr
  split
  · exact h
  · exact (drew_qpKept h ..)

theorem knownAll_qpKept {s0 s : State} (h : QpKept s0 s) (l) : QpKept s0 (knownAll l s).2 := by
  induction l generalizing s with
  | nil => exact h
  | cons v l ih =>
    unfold knownAll
    exact ih (knownOr_qpKept h ..)

theorem endRaw_qpKept {s0 s : State} (h : QpKept s0 s) (a0 a1 a2 a3) : QpKept s0 (endRaw a0 a1 a2 a3 s) := by
  unfold endRaw
  extract_lets -underBinder -merge y0 y1 y2 y3 y4 y5
  have hy0 : QpKept s0 y0.2 := (knownAll_qpKept (toHostMem_qpKept h ..) ..)
  have hy1 : QpKept s0 y1 := (giveLens_qpKept hy0 ..)
  have hy3 : QpKept s0 y3.2 := (recordNumOf_qpKept (addInfo_qpKept hy1 ..) ..)
  have hy5 : QpKept s0 y5.2 := (knownOr_qpKept hy3 ..)
  try clear_value y5
  try clear_value y3
  try clear_value y1
  try clear_value y0
  exact (complete_qpKept hy5 ..)

theorem tryRead_qpKept {s0 s : State} (h : QpKept s0 s) (a0) : QpKept s0 (tryRead a0 s) := by
  unfold tryRead
  split
  · exact h
  · split
    · split
      · exact h
      · extract_lets -underBinder -merge y0
        refine QpKept.ite ?_ ?_
        · exact h
        · refine QpKept.ite ?_ ?_
          · split
            · exact (endRead_qpKept h ..)
            · exact h
          · split
            · exact (endRaw_qpKept h ..)
            · exact h
    · exact h

theorem endReadEarly_qpKept {s0 s : State} (h : QpKept s0 s) (a0 a1 a2 a3 a4) : QpKept s0 (endReadEarly a0 a1 a2 a3 a4 s) := by
  unfold endReadEarly
  extract_lets -underBinder -merge y0
  refine QpKept.ite ?_ ?_
  · split
    · exact (endRead_qpKept h ..)
    · exact h
  · split
    · exact (endRaw_qpKept h ..)
    · exact h

theorem cutWanted_qpKept {s0 s : State} (h : QpKept s0 s) : QpKept s0 (cutWanted s) := by
  unfold cutWanted
  refine QpKept.foldl ?_ (fun y0 a hy0 => ?_)
  · exact h
  · beta_reduce
    split
    · extract_lets -underBinder -merge y1 y2 y3
      split
      · refine QpKept.ite ?_ ?_
        · exact (cutBlock_qpKept hy0 ..)
        · exact hy0
      · exact hy0
    · exact hy0

theorem endRebuild_qpKept {s0 s : State} (h : QpKept s0 s) (a0 a1 a2 a3) : QpKept s0 (endRebuild a0 a1 a2 a3 s) := by
  unfold endRebuild
  extract_lets -underBinder -merge y0 y1 y2
  have hy1 : QpKept s0 y1 := (QpKept.upd h rfl rfl rfl)
  have hy2 : QpKept s0 y2 := by
    refine QpKept.ite ?_ ?_
    · exact (noteInfo_qpKept hy1 ..)
    · exact hy1
  try clear_value y2
  try clear_value y1
  exact (complete_qpKept hy2 ..)

theorem rebuildCheck_qpKept {s0 s : State} (h : QpKept s0 s) : QpKept s0 (rebuildCheck s) := by
  unfold rebuildCheck
  split
  · exact h
  · extract_lets -underBinder -merge y0 y1 y2 y3 y4 y5
    have hy2 : QpKept s0 y2 := (setStage_qpKept h ..)
    try clear_value y2
    refine QpKept.ite ?_ ?_
    · exact hy2
    · exact (endRebuild_qpKept hy2 ..)

theorem failReads_qpKept {s0 s : State} (h : QpKept s0 s) : QpKept s0 (failReads s) := by
  unfold failReads
  refine QpKept.ite ?_ ?_
  · exact h
  · refine QpKept.foldl ?_ (fun y0 a hy0 => ?_)
    · exact h
    · beta_reduce
      split
      · split
        · extract_lets -underBinder -merge y1 y2
          refine QpKept.ite ?_ ?_
          · exact hy0
          · exact (endReadEarly_qpKept hy0 ..)
        · exact hy0
      · exact hy0

theorem readsAdvance_qpKept {s0 s : State} (h : QpKept s0 s) : QpKept s0 (readsAdvance s) := by
  unfold readsAdvance
  extract_lets -underBinder -merge y0 y1 y2 y3 y4 y5 y6 y7 y8
  have hy0 : QpKept s0 y0 := (cutWanted_qpKept h ..)
  have hy1 : QpKept s0 y1 := by
    refine failReads_qpKept ?_ ..
    refine QpKept.foldl ?_ (fun y9 a hy9 => ?_)
    · exact hy0
    · beta_reduce
      exact (tryRead_qpKept hy9 ..)
  have hy2 : QpKept s0 y2 := (rebuildCheck_qpKept hy1 ..)
  have hy8 : QpKept s0 y8 := (QpKept.upd hy2 rfl rfl rfl)
  try clear_value y8
  try clear_value y2
  try clear_value y1
  try clear_value y0
  refine QpKept.ite ?_ ?_
  · exact (clearReads_qpKept hy8 ..)
  · exact hy8

theorem startRead_qpKept {s0 s : State} (h : QpKept s0 s) : QpKept s0 (startRead s) := by
  unfold startRead
  refine QpKept.ite ?_ ?_
  · exact h
  · split
    · exact h
    · extract_lets -underBinder -merge y0 y1 y2 y3 y4 y5
      have hy2 : QpKept s0 y2.2 := (agentTag_qpKept h ..)
      have hy3 : QpKept s0 y3.1 := (askBuf_qpKept hy2 ..)
      have hy4 : QpKept s0 y4 := hy3
      try clear_value y3
      try clear_value y2
      refine takeEqTarget_qpKept ?_ ..
      exact (QpKept.upd hy4 rfl rfl rfl)

theorem closeDataset_qpKept {s0 s : State} (h : QpKept s0 s) (a0) : QpKept s0 (closeDataset a0 s) := by
  unfold closeDataset
  split
  · exact h
  · extract_lets -underBinder -merge y0 y1 y2 y3
    exact (QpKept.upd h rfl rfl rfl)

theorem openInBuf_qpKept {s0 s : State} (h : QpKept s0 s) (a0 a1 a2) : QpKept s0 (openInBuf a0 a1 a2 s) := by
  unfold openInBuf
  extract_lets -underBinder -merge y0
  exact (QpKept.upd h rfl rfl rfl)

theorem openDataset_qpKept {s0 s : State} (h : QpKept s0 s) (a0 a1) : QpKept s0 (openDataset a0 a1 s) := by
  unfold openDataset
  extract_lets -underBinder -merge y0
  have hy0 : QpKept s0 y0.1 := (askBuf_qpKept h ..)
  try clear_value y0
  refine QpKept.ite ?_ ?_
  · exact h
  · split
    · exact (openInBuf_qpKept hy0 ..)
    · extract_lets -underBinder -merge y1 y2
      have hy1 : QpKept s0 y1 := hy0
      exact (QpKept.upd hy1 rfl rfl rfl)

theorem drainCuts_qpKept {s0 s : State} (h : QpKept s0 s) (a0) : QpKept s0 (drainCuts a0 s) := by
  unfold drainCuts
  refine QpKept.foldl ?_ (fun y0 a hy0 => ?_)
  · exact h
  · beta_reduce
    extract_lets -underBinder -merge y1 y2
    refine QpKept.ite ?_ ?_
    · exact (cutBlock_qpKept hy0 ..)
    · exact hy0

theorem drainClose_qpKept {s0 s : State} (h : QpKept s0 s) (a0) : QpKept s0 (drainClose a0 s) := by
  unfold drainClose
  extract_lets -underBinder -merge y0 y1 y2 y3
  have hy3 : QpKept s0 y3 := (closeDataset_qpKept h ..)
  try clear_value y3
  refine QpKept.ite ?_ ?_
  · split
    · exact (updCmd_qpKept hy3 ..)
    · exact hy3
  · exact h

theorem failStream_qpKept {s0 s : State} (h : QpKept s0 s) (a0 a1 a2) : QpKept s0 (failStream a0 a1 a2 s) := by
  unfold failStream
  split
  · exact h
  · extract_lets -underBinder -merge y0 y1
    have hy1 : QpKept s0 y1 := (updStream_qpKept h ..)
    try clear_value y1
    exact (raise_qpKept (closeRecords_qpKept hy1 ..) ..)

theorem dropBlk_qpKept {s0 s : State} (h : QpKept s0 s) (a1) : QpKept s0 (dropBlk s a1) := by
  unfold dropBlk
  extract_lets -underBinder -merge y0 y1 y2 y3 y4 y5 y6
  have hy0 : QpKept s0 y0 := by
    refine QpKept.foldl ?_ (fun y7 a hy7 => ?_)
    · exact h
    · beta_reduce
      extract_lets -underBinder -merge y8
      exact (setEngine_qpKept hy7 ..)
  have hy2 : QpKept s0 y2 := (QpKept.upd hy0 rfl rfl rfl)
  have hy3 : QpKept s0 y3 := (freeOpt_qpKept (consumeSrc_qpKept hy2 ..) ..)
  have hy5 : QpKept s0 y5 := (QpKept.upd hy3 rfl rfl rfl)
  try clear_value y5
  try clear_value y3
  try clear_value y2
  try clear_value y0
  refine QpKept.ite ?_ ?_
  · exact (QpKept.upd hy5 rfl rfl rfl)
  · exact (setBlk_qpKept hy5 ..)

theorem stopLost_qpKept {s0 s : State} (h : QpKept s0 s) (a0 a1 a2 a3) : QpKept s0 (stopLost a0 a1 a2 a3 s) := by
  unfold stopLost
  split
  · split
    · extract_lets -underBinder -merge y0
      exact (stopWrite_qpKept (setJob_qpKept h ..) ..)
    · exact (stopWrite_qpKept h ..)
  · exact (stopWrite_qpKept h ..)

theorem loseFrom_qpKept {s0 s : State} (h : QpKept s0 s) (a0 a1 a2) : QpKept s0 (loseFrom a0 a1 a2 s) := by
  unfold loseFrom
  extract_lets -underBinder -merge y0 y1 y2 y3 y4 y5
  have hy4 : QpKept s0 y4 := by
    refine QpKept.foldl ?_ (fun y6 a hy6 => ?_)
    · exact h
    · beta_reduce
      split
      · refine QpKept.ite ?_ ?_
        · exact hy6
        · exact (stopLost_qpKept hy6 ..)
      · exact hy6
  have hy5 : QpKept s0 y5 := (failStream_qpKept hy4 ..)
  try clear_value y5
  try clear_value y4
  refine dispatchAll_qpKept ?_ ..
  refine QpKept.foldl ?_ (fun y7 a hy7 => ?_)
  · exact hy5
  · beta_reduce
    split
    · exact (dropBlk_qpKept hy7 ..)
    · exact hy7

theorem loseAtEnd_qpKept {s0 s : State} (h : QpKept s0 s) (a0) : QpKept s0 (loseAtEnd a0 s) := by
  unfold loseAtEnd
  extract_lets -underBinder -merge y0 y1
  have hy0 : QpKept s0 y0 := (loseFrom_qpKept h ..)
  try clear_value y0
  refine QpKept.ite ?_ ?_
  · exact (QpKept.upd hy0 rfl rfl rfl)
  · exact hy0

theorem closeDrained_qpKept {s0 s : State} (h : QpKept s0 s) : QpKept s0 (closeDrained s) := by
  unfold closeDrained
  refine QpKept.foldl ?_ (fun y0 a hy0 => ?_)
  · exact h
  · beta_reduce
    exact (drainClose_qpKept hy0 ..)

theorem placeLoop_qpKept {s0 s : State} (h : QpKept s0 s) (n) : QpKept s0 (placeLoop n s) := by
  induction n generalizing s with
  | zero => exact h
  | succ n ih =>
    unfold placeLoop
    split
    · exact h
    split
    · refine QpKept.ite h (QpKept.ite (ih (loseAtEnd_qpKept h ..)) ?_)
      extract_lets -underBinder -merge t
      have ht : QpKept s0 t := openDataset_qpKept h ..
      clear_value t
      exact QpKept.ite (ih ht) ht
    · extract_lets -underBinder -merge room streams size k d whole s1 s2 src s3
      refine QpKept.ite (ih (closeDataset_qpKept h ..)) (QpKept.ite (ih (closeDataset_qpKept h ..)) ?_)
      have h1 : QpKept s0 s1 := QpKept.ite (freeOpt_qpKept h ..) h
      clear_value s1
      have h2 : QpKept s0 s2 := setBlk_qpKept h1 ..
      clear_value s2
      have h3 : QpKept s0 s3 := QpKept.upd h2 rfl rfl rfl
      clear_value s3
      exact ih (QpKept.ite (closeDataset_qpKept h3 ..) (QpKept.ite (closeDrained_qpKept h3 ..) h3))

theorem placeAll_qpKept {s0 s : State} (h : QpKept s0 s) : QpKept s0 (placeAll s) := by
  unfold placeAll
  exact (placeLoop_qpKept h ..)

theorem closeStream_qpKept {s0 s : State} (h : QpKept s0 s) (a0) : QpKept s0 (closeStream a0 s) := by
  unfold closeStream
  split
  · exact h
  · extract_lets -underBinder -merge y0 y1
    have hy0 : QpKept s0 y0 := (dropLanes_qpKept h ..)
    have hy1 : QpKept s0 y1 := by
      refine QpKept.ite ?_ ?_
      · exact (unbindKey_qpKept hy0 ..)
      · exact hy0
    try clear_value y1
    try clear_value y0
    exact (updStream_qpKept hy1 ..)

theorem closeEnded_qpKept {s0 s : State} (h : QpKept s0 s) : QpKept s0 (closeEnded s) := by
  unfold closeEnded
  refine QpKept.foldl ?_ (fun y0 a hy0 => ?_)
  · exact h
  · beta_reduce
    extract_lets -underBinder -merge y1
    refine QpKept.ite ?_ ?_
    · exact (closeStream_qpKept hy0 ..)
    · exact hy0

theorem endPowerDrain_qpKept {s0 s : State} (h : QpKept s0 s) : QpKept s0 (endPowerDrain s) := by
  unfold endPowerDrain
  split
  · exact h
  · extract_lets -underBinder -merge y0 y1
    refine QpKept.ite ?_ ?_
    · exact h
    · exact (QpKept.upd h rfl rfl rfl)

theorem pushDrains_qpKept {s0 s : State} (h : QpKept s0 s) : QpKept s0 (pushDrains s) := by
  unfold pushDrains
  refine QpKept.foldl ?_ (fun y0 a hy0 => ?_)
  · exact h
  · beta_reduce
    exact (drainClose_qpKept (drainCuts_qpKept hy0 ..) ..)

theorem settleN_qpKept {s0 s : State} (h : QpKept s0 s) (n) : QpKept s0 (settleN n s) := by
  induction n generalizing s with
  | zero => exact h
  | succ n ih =>
    unfold settleN
    exact (ih (pushDrains_qpKept (placeAll_qpKept h ..) ..))

theorem settle_qpKept {s0 s : State} (h : QpKept s0 s) : QpKept s0 (settle s) := by
  unfold settle
  exact (readsAdvance_qpKept (checkWrites_qpKept (endPowerDrain_qpKept (closeEnded_qpKept (settleN_qpKept h ..) ..) ..) ..) ..)

theorem offer_qpKept {s0 s : State} (h : QpKept s0 s) (a0) : QpKept s0 (offer a0 s) := by
  unfold offer
  extract_lets -underBinder -merge y0 y1
  have hy0 : QpKept s0 y0 := (updBlk_qpKept h ..)
  try clear_value y0
  refine settle_qpKept ?_ ..
  exact (QpKept.upd hy0 rfl rfl rfl)

theorem packetDone_qpKept {s0 s : State} (h : QpKept s0 s) (a0 a1 a2 a3) : QpKept s0 (packetDone a0 a1 a2 a3 s) := by
  unfold packetDone
  extract_lets -underBinder -merge y0 y1 y2 y3 y4 y5 y6 y7 y8 y9 y10
  have hy1 : QpKept s0 y1.1 := by
    refine QpKept.ite_fst ?_ ?_
    · refine QpKept.ite_fst ?_ ?_
      · exact (windowRefs_qpKept h ..)
      · exact (windowRefs_qpKept h ..)
    · exact h
  have hy2 : QpKept s0 y2 := by
    refine QpKept.ite ?_ ?_
    · exact (freeRefs_qpKept hy1 ..)
    · exact hy1
  have hy3 : QpKept s0 y3 := (consumeSrc_qpKept hy2 ..)
  have hy4 : QpKept s0 y4 := by
    refine QpKept.ite ?_ ?_
    · exact (lanesMust_qpKept hy3 ..)
    · exact hy3
  have hy6 : QpKept s0 y6 := (QpKept.upd hy4 rfl rfl rfl)
  have hy8 : QpKept s0 y8 := (setEngine_qpKept hy6 ..)
  have hy9 : QpKept s0 y9 := (setBlk_qpKept hy8 ..)
  have hy10 : QpKept s0 y10 := (dispatch_qpKept (shortenRefs_qpKept hy9 ..) ..)
  try clear_value y10
  try clear_value y9
  try clear_value y8
  try clear_value y6
  try clear_value y4
  try clear_value y3
  try clear_value y2
  try clear_value y1
  refine QpKept.ite ?_ ?_
  · exact hy10
  · exact (offer_qpKept hy10 ..)

theorem addEntry_qpKept {s0 s : State} (h : QpKept s0 s) (a1) : QpKept s0 (addEntry s a1) := by
  unfold addEntry
  split
  · extract_lets -underBinder -merge y0
    exact (QpKept.upd h rfl rfl rfl)
  · extract_lets -underBinder -merge y1
    exact (QpKept.upd h rfl rfl rfl)
  · extract_lets -underBinder -merge y2 y3
    exact (QpKept.upd h rfl rfl rfl)
  · split
    · exact (updStream_qpKept h ..)
    · extract_lets -underBinder -merge y4
      exact (QpKept.upd h rfl rfl rfl)
  · exact h

theorem endCreate_qpKept {s0 s : State} (h : QpKept s0 s) (a0 a1) : QpKept s0 (endCreate a0 a1 s) := by
  unfold endCreate
  split
  · extract_lets -underBinder -merge y0
    have hy0 : QpKept s0 y0 := (onPost_qpKept h ..)
    try clear_value y0
    split
    · exact (complete_qpKept hy0 ..)
    · exact (finish_qpKept hy0 ..)
  · split
    · extract_lets -underBinder -merge y1
      exact (QpKept.upd h rfl rfl rfl)
    · exact h

theorem forgetDs_qpKept {s0 s : State} (h : QpKept s0 s) (a0) : QpKept s0 (forgetDs a0 s) := by
  unfold forgetDs
  extract_lets -underBinder -merge y0 y1 y2
  exact (QpKept.upd h rfl rfl rfl)

theorem leaveCocoon_qpKept {s0 s : State} (h : QpKept s0 s) (a0) : QpKept s0 (leaveCocoon a0 s) := by
  unfold leaveCocoon
  extract_lets -underBinder -merge y0
  exact (QpKept.upd h rfl rfl rfl)

theorem releaseDs_qpKept {s0 s : State} (h : QpKept s0 s) (a0) : QpKept s0 (releaseDs a0 s) := by
  unfold releaseDs
  extract_lets -underBinder -merge y0 y1 y2 y3 y4 y5 y6 y7 y8 y9 y10 y11
  have hy1 : QpKept s0 y1 := by
    refine QpKept.foldl ?_ (fun y12 a hy12 => ?_)
    · exact h
    · beta_reduce
      exact (addEntry_qpKept hy12 ..)
  have hy2 : QpKept s0 y2 := by
    refine QpKept.foldl ?_ (fun y13 a hy13 => ?_)
    · exact hy1
    · beta_reduce
      split
      · exact (endCreate_qpKept hy13 ..)
      · exact hy13
  have hy3 : QpKept s0 y3 := by
    refine QpKept.foldl ?_ (fun y14 a hy14 => ?_)
    · exact hy2
    · beta_reduce
      exact (updCmd_qpKept hy14 ..)
  have hy4 : QpKept s0 y4 := (forgetDs_qpKept hy3 ..)
  have hy6 : QpKept s0 y6 := by
    refine leaveCocoon_qpKept ?_ ..
    exact (QpKept.upd hy4 rfl rfl rfl)
  have hy9 : QpKept s0 y9 := by
    refine QpKept.ite ?_ ?_
    · exact (QpKept.upd hy6 rfl rfl rfl)
    · exact hy6
  have hy11 : QpKept s0 y11 := by
    refine QpKept.ite ?_ ?_
    · exact (QpKept.upd hy9 rfl rfl rfl)
    · exact hy9
  try clear_value y11
  try clear_value y9
  try clear_value y6
  try clear_value y4
  try clear_value y3
  try clear_value y2
  try clear_value y1
  refine QpKept.ite ?_ ?_
  · exact (leaveCocoon_qpKept h ..)
  · exact (checkWrites_qpKept hy11 ..)

theorem failDs_qpKept {s0 s : State} (h : QpKept s0 s) (a0 a1) : QpKept s0 (failDs a0 a1 s) := by
  unfold failDs
  extract_lets -underBinder -merge y0 y1 y2 y3 y4 y5 y6 y7 y8 y9 y10 y11 y12 y13 y14 y15 y16 y17 y18 y19
  have hy2 : QpKept s0 y2 := by
    refine QpKept.foldl ?_ (fun y20 a hy20 => ?_)
    · exact h
    · beta_reduce
      exact (failStream_qpKept hy20 ..)
  have hy3 : QpKept s0 y3 := (raise_qpKept hy2 ..)
  have hy4 : QpKept s0 y4 := by
    refine QpKept.foldl ?_ (fun y21 a hy21 => ?_)
    · exact hy3
    · beta_reduce
      split
      · refine QpKept.ite ?_ ?_
        · exact (stopLost_qpKept (updCmd_qpKept hy21 ..) ..)
        · exact hy21
      · exact hy21
  have hy8 : QpKept s0 y8 := (QpKept.upd hy4 rfl rfl rfl)
  have hy9 : QpKept s0 y9 := by
    refine QpKept.foldl ?_ (fun y22 a hy22 => ?_)
    · exact hy8
    · beta_reduce
      exact (endCreate_qpKept hy22 ..)
  have hy11 : QpKept s0 y11 := by
    refine QpKept.ite ?_ ?_
    · exact (QpKept.upd hy9 rfl rfl rfl)
    · exact hy9
  have hy12 : QpKept s0 y12 := (forgetDs_qpKept hy11 ..)
  have hy16 : QpKept s0 y16 := (QpKept.upd hy12 rfl rfl rfl)
  have hy17 : QpKept s0 y17 := by
    subst y17
    split
    · extract_lets -underBinder -merge y23
      refine QpKept.ite ?_ ?_
      · exact hy16
      · exact (QpKept.upd hy16 rfl rfl rfl)
    · exact hy16
  have hy19 : QpKept s0 y19 := by
    refine QpKept.ite ?_ ?_
    · exact (QpKept.upd hy17 rfl rfl rfl)
    · exact hy17
  try clear_value y19
  try clear_value y17
  try clear_value y16
  try clear_value y12
  try clear_value y11
  try clear_value y9
  try clear_value y8
  try clear_value y4
  try clear_value y3
  try clear_value y2
  refine settle_qpKept ?_ ..
  refine QpKept.ite ?_ ?_
  · exact hy19
  · exact (freeOpt_qpKept hy19 ..)

theorem failHeld_qpKept {s0 s : State} (h : QpKept s0 s) (a0) : QpKept s0 (failHeld a0 s) := by
  unfold failHeld
  refine QpKept.foldl ?_ (fun y0 a hy0 => ?_)
  · exact h
  · beta_reduce
    refine QpKept.ite ?_ ?_
    · exact hy0
    · exact (failDs_qpKept hy0 ..)

theorem takeGrant_qpKept {s0 s : State} (h : QpKept s0 s) (a0 a1 a2) : QpKept s0 (takeGrant a0 a1 a2 s) := by
  unfold takeGrant
  split
  · exact (copyWindow_qpKept h ..)
  · extract_lets -underBinder -merge y0 y1 y2 y3 y4 y5 y6
    exact (QpKept.upd h rfl rfl rfl)

theorem setChan_qpKept {s0 s : State} (h : QpKept s0 s) (a0 a1) : QpKept s0 (setChan a0 a1 s) := by
  unfold setChan
  exact (QpKept.upd h rfl rfl rfl)

theorem updChan_qpKept {s0 s : State} (h : QpKept s0 s) (a0 a1) : QpKept s0 (updChan a0 a1 s) := by
  unfold updChan
  exact (setChan_qpKept h ..)

theorem failIfStopped_qpKept {s0 s : State} (h : QpKept s0 s) (a0) : QpKept s0 (failIfStopped a0 s) := by
  unfold failIfStopped
  refine QpKept.ite ?_ ?_
  · refine QpKept.foldl ?_ (fun y0 a hy0 => ?_)
    · exact h
    · beta_reduce
      exact (failDs_qpKept hy0 ..)
  · refine QpKept.ite ?_ ?_
    · refine QpKept.foldl ?_ (fun y1 a hy1 => ?_)
      · exact h
      · beta_reduce
        exact (failDs_qpKept hy1 ..)
    · exact h

theorem stopWriting_qpKept {s0 s : State} (h : QpKept s0 s) : QpKept s0 (stopWriting s) := by
  unfold stopWriting
  extract_lets -underBinder -merge y0 y1 y2 y3 y4 y5
  have hy2 : QpKept s0 y2 := (QpKept.upd h rfl rfl rfl)
  have hy4 : QpKept s0 y4 := by
    refine QpKept.ite ?_ ?_
    · exact (QpKept.upd hy2 rfl rfl rfl)
    · exact hy2
  have hy5 : QpKept s0 y5 := (raise_qpKept hy4 ..)
  try clear_value y5
  try clear_value y4
  try clear_value y2
  refine QpKept.foldl ?_ (fun y6 a hy6 => ?_)
  · exact hy5
  · beta_reduce
    exact (failIfStopped_qpKept hy6 ..)

theorem resumeWriting_qpKept {s0 s : State} (h : QpKept s0 s) : QpKept s0 (resumeWriting s) := by
  unfold resumeWriting
  extract_lets -underBinder -merge y0 y1 y2
  have hy1 : QpKept s0 y1 := (QpKept.upd h rfl rfl rfl)
  try clear_value y1
  refine QpKept.ite ?_ ?_
  · refine raise_qpKept ?_ ..
    exact (QpKept.upd hy1 rfl rfl rfl)
  · exact hy1

theorem judgeMembers_qpKept {s0 s : State} (h : QpKept s0 s) : QpKept s0 (judgeMembers s) := by
  unfold judgeMembers
  refine QpKept.ite ?_ ?_
  · refine QpKept.ite ?_ ?_
    · exact (resumeWriting_qpKept h ..)
    · exact h
  · refine QpKept.ite ?_ ?_
    · exact h
    · exact (stopWriting_qpKept h ..)

theorem declareFailed_qpKept {s0 s : State} (h : QpKept s0 s) (a0 a1) : QpKept s0 (declareFailed a0 a1 s) := by
  unfold declareFailed
  extract_lets -underBinder -merge y0 y1
  have hy1 : QpKept s0 y1 := (updChan_qpKept h ..)
  try clear_value y1
  refine QpKept.ite ?_ ?_
  · exact h
  · exact (judgeMembers_qpKept (setCause_qpKept (raise_qpKept hy1 ..) ..) ..)

theorem restoreMember_qpKept {s0 s : State} (h : QpKept s0 s) (a0) : QpKept s0 (restoreMember a0 s) := by
  unfold restoreMember
  refine QpKept.ite ?_ ?_
  · exact (judgeMembers_qpKept (raise_qpKept (updChan_qpKept h ..) ..) ..)
  · exact h

theorem rebuildEnded_qpKept {s0 s : State} (h : QpKept s0 s) (a0) : QpKept s0 (rebuildEnded a0 s) := by
  unfold rebuildEnded
  extract_lets -underBinder -merge y0
  refine raise_qpKept ?_ ..
  exact (QpKept.upd h rfl rfl rfl)

theorem noRun_qpKept {s0 s : State} (h : QpKept s0 s) (a0) : QpKept s0 (noRun a0 s) := by
  unfold noRun
  refine QpKept.ite ?_ ?_
  · exact (runSettled_qpKept h ..)
  · exact h

theorem endCmd_qpKept {s0 s : State} (h : QpKept s0 s) (a0) : QpKept s0 (endCmd a0 s) := by
  unfold endCmd
  split
  · exact h
  · extract_lets -underBinder -merge y0 y1
    have hy1 : QpKept s0 y1 := (updCmd_qpKept h ..)
    try clear_value y1
    split
    · refine QpKept.ite ?_ ?_
      · exact (packStream_qpKept (updCmd_qpKept (giveIntake_qpKept h ..) ..) ..)
      · exact (dropCmd_qpKept (runSettled_qpKept (freeIntake_qpKept (dropRun_qpKept h ..) ..) ..) ..)
    · exact (dropCmd_qpKept h ..)
    · exact (dropCmd_qpKept (rebuildEnded_qpKept h ..) ..)
    · exact (dropCmd_qpKept h ..)
    · exact (updCmd_qpKept h ..)
    · exact hy1
    · refine QpKept.ite ?_ ?_
      · exact (dropCmd_qpKept h ..)
      · exact hy1
    · refine QpKept.ite ?_ ?_
      · exact (dropCmd_qpKept (noRun_qpKept h ..) ..)
      · refine QpKept.ite ?_ ?_
        · exact (dropCmd_qpKept (rebuildEnded_qpKept h ..) ..)
        · exact hy1

theorem endCmds_qpKept {s0 s : State} (h : QpKept s0 s) (a0) : QpKept s0 (endCmds a0 s).1 := by
  unfold endCmds
  extract_lets -underBinder -merge y0 y1 y2 y3 y4
  have hy1 : QpKept s0 y1 := QpKept.foldl h fun _ _ ht => cutBlock_qpKept ht ..
  clear_value y1
  have hy4 : QpKept s0 y4 := QpKept.foldl hy1 fun _ _ ht => endCmd_qpKept ht ..
  clear_value y4
  dsimp only
  exact settle_qpKept hy4

end Sys2Proof.Machine
end

