-- ==== Sys2Proof/Laws/Search.lean ====
section
/-! SUPPORT. What the sync search of Machine.Detect.lean can accept (R392-R394). -/

namespace Sys2Proof.Machine

/-- The search accepts only a position of its list whose header passes and where C1 converges (R393). -/
theorem searchFrom_accepted (fits : SyncTry → Bool) (limit most : Nat) (t : SyncTry) (b : Bool) :
    ∀ (l : List (Int × Option SyncTry × Bool)) (r : SyncSearch), r.accepted = none →
      (searchFrom fits limit most l r).accepted = some (t, b) →
      ∃ q, (q, some t, b) ∈ l ∧ fits t = true ∧ c1Converges limit t = true := by
  intro l
  induction l with
  | nil => intro r h0 h; simp [searchFrom, h0] at h
  | cons x l ih =>
    obtain ⟨q, y, d⟩ := x
    intro r h0 h
    have go : ∀ r', r'.accepted = none → (searchFrom fits limit most l r').accepted = some (t, b) →
        ∃ q', (q', some t, b) ∈ (q, y, d) :: l ∧ fits t = true ∧ c1Converges limit t = true :=
      fun r' h1 h2 => by
        obtain ⟨q', hm, hh⟩ := ih r' h1 h2
        exact ⟨q', List.mem_cons_of_mem _ hm, hh⟩
    have hr : (if r.decodes = 0 then { r with last := q } else r).accepted = none := by split <;> exact h0
    simp only [searchFrom] at h
    generalize (if r.decodes = 0 then { r with last := q } else r) = r1 at h hr
    cases y with
    | none => exact go _ hr h
    | some y =>
      by_cases hf : fits y = true
      · simp only [hf, Bool.not_true, Bool.false_eq_true, if_false] at h
        by_cases hm : (decide (most ≤ r1.decodes) || decide (16384 < r1.spent + attemptCycles limit)) = true
        · rw [if_pos hm] at h
          simp [hr] at h
        · rw [if_neg hm] at h
          by_cases hc : c1Converges limit y = true
          · simp only [hc, if_true, Option.some.injEq, Prod.mk.injEq] at h
            obtain ⟨rfl, rfl⟩ := h
            exact ⟨q, List.mem_cons_self, hf, hc⟩
          · simp only [hc, Bool.false_eq_true, if_false] at h
            refine go _ ?_ h
            exact hr
      · simp only [hf, Bool.not_false, if_true] at h
        exact go _ hr h

theorem mem_putCand (w : SyncWindow) (t x : SyncTry) (l : List SyncTry) : x ∈ putCand w t l ↔ x = t ∨ x ∈ l := by
  induction l with
  | nil => simp [putCand]
  | cons y l ih =>
    simp only [putCand]
    split
    · simp
    · simp only [List.mem_cons, ih]; tauto

/-- The candidates are the tries within reach that differ little enough (R392). -/
theorem mem_candidates (w : SyncWindow) (reach maxErrors : Nat) (tries : List SyncTry) (x : SyncTry) :
    x ∈ candidates w reach maxErrors tries ↔
      x ∈ tries ∧ (x.pos - w.center).natAbs ≤ reach ∧ syncDiffs x ≤ maxErrors := by
  have h : ∀ l : List SyncTry, x ∈ l.foldr (putCand w) [] ↔ x ∈ l := by
    intro l
    induction l with
    | nil => simp
    | cons y l ih => simp [mem_putCand, ih]
  simp [candidates, h]

/-- What stands at a position searched is one of the tries (R393). -/
theorem mem_searchOrder (w : SyncWindow) (reach maxErrors : Nat) (tries : List SyncTry) (q : Int) (t : SyncTry) (b : Bool)
    (h : (q, some t, b) ∈ searchOrder w reach maxErrors tries) : t ∈ tries := by
  simp only [searchOrder, List.mem_append, List.mem_map, Prod.mk.injEq, Option.some.injEq] at h
  obtain ⟨x, hx, -, rfl, -⟩ | ⟨x, -, -, hx, -⟩ := h
  · exact ((mem_candidates ..).1 hx).1
  · exact List.mem_of_find?_eq_some hx

end Sys2Proof.Machine
end

