-- ==== Sys2Proof/Tests/Slice0.lean ====
section
/-! SUPPORT. The model's own tests: ill-formed operands that `Instr.wf` refuses, single steps on small states, and for every
statement with hypotheses a state and operands that meet them. -/

namespace Sys2Proof.Tests

open Sys2Proof Sys2Proof.Machine

set_option Elab.async false

/-! ## Small states -/

/-- A submission entry with values at (byte, bit, value). -/
def ent (l : List (Nat × Nat × Nat)) : BitVec 512 := BitVec.ofNat 512 (l.foldl (fun n x => n + x.2.2 * 2 ^ (8 * x.1 + x.2.1)) 0)

/-- An admin queue pair of 16 entries. -/
def qp0 : Qp := { sqDepth := 16, cqDepth := 16 }

/-- The PF is enabled with these queue pairs. -/
def upWith (l : List (Nat × Qp)) (s : State) : State :=
  { s with host := { s.host with fns := [(0, { enable := true, ready := true, qps := l })], fetchSeq := 1 } }

/-- The reset state with the PF enabled. -/
def up : State := upWith [(0, qp0)] State.reset

/-- A command of the PF's admin queue pair, in slot 0. -/
def cmd (e : BitVec 512) : Cmd := { fn := 0, qp := 0, epoch := 0, seq := 0, headAfter := 1, entry := e }

/-- A state with one command in slot 0. -/
def holding (c : Cmd) (s : State) : State := { s with host := { s.host with cmds := [(0, c)] } }

/-- The next state, or the same where a command stops. -/
def after (i : Instr) (s : State) : State := match exec i s with | .next t => t | _ => s

/-- A state with the PF enabled, one command in slot 0 and the rest as given. -/
def on (e : BitVec 512) (s : State) : State := holding (cmd e) (upWith [(0, qp0)] s)

/-- Any command of the PF's idle admin queue pair takes its completion at once. -/
theorem takes_on (e : BitVec 512) (s : State) : Takes (on e s) (cmd e) qp0 := ⟨rfl, rfl, rfl, rfl, rfl, rfl, rfl, rfl⟩

/-- A command is ready to run while no domain is in reset and the device is in PS0. -/
theorem started_hold {e : BitVec 512} {op : Nat} {s : State} (h : eOpcode e = op) (hr : s.resets = []) (hp : s.pwr = {}) :
    Started (holding (cmd e) s) 0 op (cmd e) := by
  refine ⟨rfl, rfl, h, rfl, ?_⟩
  have ha : ∀ n, resetting (holding (cmd e) s) n = false := fun n => by simp [resetting, holding, hr]
  have hb : asleep (holding (cmd e) s) = false := by simp [asleep, holding, hp]
  unfold blockHeld
  repeat' split
  all_goals simp [ha, hb]
theorem started_on {e : BitVec 512} {op : Nat} {s : State} (h : eOpcode e = op) (hr : s.resets = []) (hp : s.pwr = {}) :
    Started (on e s) 0 op (cmd e) := started_hold h hr hp

/-! ## Hypotheses of the statements that can be met together -/

/-- Registers of a function that exists, before and after Enable. -/
theorem witness_registers : fnExists up 0 = true ∧ (getFn State.reset 0).enable = false ∧ (getFn up 0).enable = true ∧
    (0x10#20).toNat ∈ [0x10, 0x1000, 0x1008] := by decide +kernel

/-- Depths at both ends of their range, and one beyond it. -/
theorem witness_enable : let s := setFn 0 { aqSize := 0x00020002#32 } State.reset
    let t := setFn 0 { aqSize := 0x10001000#32 } State.reset
    let u := setFn 0 { aqSize := 0x10001001#32 } State.reset
    (fnExists s 0 = true ∧ (getFn s 0).enable = false ∧ (getFn s 0).fatal = false) ∧
    ((getFn s 0).aqSize.extractLsb' 0 16).toNat = 2 ∧ ((getFn t 0).aqSize.extractLsb' 16 16).toNat = 4096 ∧
    (getFn u 0).ready = false ∧ 4096 < ((getFn u 0).aqSize.extractLsb' 0 16).toNat := by decide +kernel

/-- Doorbell values at the edge of what a queue pair takes. -/
theorem witness_doorbells : (getFn up 0).ready = true ∧ 0 < doorbells 0 ∧ getQp up 0 0 = some qp0 ∧ sqTailOk qp0 15 = true ∧
    sqTailOk qp0 16 = false ∧ cqHeadOk qp0 0 = true ∧ cqHeadOk qp0 1 = false ∧ (getFn State.reset 0).ready = false := by
  decide +kernel

/-- A vector that is unmasked, one that waits unmasked, and one that waits masked. -/
theorem witness_vectors :
    let s := updFn 0 (fun x => { x with msix := [(0, ⟨0, 0, false, false⟩), (1, ⟨0, 0, true, true⟩)] }) up
    2047 < msixCountOf s 0 ∧ (Tab.getD (getFn s 0).msix 0 {}).masked = false ∧ (Tab.getD (getFn s 0).msix 1 {}).pend = true := by
  decide +kernel

/-- A queue pair whose completion is not yet announced. -/
theorem witness_int_time : let v : Qp := { qp0 with timer := true, unannounced := 1 }
    getQp (upWith [(0, v)] State.reset) 0 0 = some v ∧ v.timer = true ∧ v.intEnable = true ∧ 0 < v.unannounced := by
  decide +kernel

/-- A held completion, with room again in the completion queue, whose command waits for its posting; the newest of two completions
issued, in a slot that is free again. -/
theorem witness_held : let h : HeldCpl := ⟨some 0, some (cmd 0), baseCpl (cmd 0) .success⟩
    let v : Qp := { qp0 with held := [h] }
    let w : Qp := { qp0 with recent := [h, h], cqTail := 2 }
    let s := holding { cmd 0 with stage := .held, post := [.activated] } (upWith [(0, v)] State.reset)
    let u := upWith [(0, w)] State.reset
    getQp s 0 0 = some v ∧ v.held = h :: [] ∧ v.writeFailed = false ∧ cqFull v = false ∧ h.slot = some 0 ∧
      getCmd s 0 = some { cmd 0 with stage := .held, post := [.activated] } ∧ (cmd 0).fnEnded = false ∧
      getQp u 0 0 = some w ∧ 1 < w.recent.length ∧ 1 < w.cqDepth ∧ w.cqTail < w.cqDepth ∧ w.recent = h :: [h] ∧
      h.cmd = some (cmd 0) ∧ getCmd u 0 = none := by
  decide +kernel

/-- An eligible admin queue pair, and a device without one. -/
theorem witness_grant : let v : Qp := { qp0 with sqTail := 1 }
    let s := upWith [(0, v)] State.reset
    0 ∈ s.host.fns.map (·.1) ∧ getQp s 0 0 = some v ∧ 0 < fetchRoom s 0 0 v ∧
      (∀ f ∈ State.reset.host.fns.map (·.1), eligible State.reset f = []) ∧ ∀ f v, getQp State.reset f 0 = some v → False := by
  refine ⟨by decide +kernel, by decide +kernel, by decide +kernel, by decide +kernel, fun f v h => ?_⟩
  simp [getQp, getFn, State.reset, Tab.getD, Tab.get?] at h

/-- No queue pair but the admin one of the PF has a fetch read on the way. -/
theorem quiet_up (v : Qp) : OthersQuiet (upWith [(0, v)] State.reset) 0 0 := by
  refine ⟨rfl, fun x hx => ?_⟩
  obtain rfl : x = (0, ({ enable := true, ready := true, qps := [(0, v)] } : Fn)) := by simpa [upWith] using hx
  refine ⟨rfl, fun y hy h => ?_⟩
  obtain rfl : y = (0, v) := by simpa using hy
  simp at h

/-- A fetch read on the way, alone and behind one of another queue pair, and an entry in the fetch queue of a queue pair that may
start it, and of frozen ones. -/
theorem witness_fetch : let v : Qp := { qp0 with reads := [(1, 1, none)], fetchQ := [⟨0, 0, none, 1⟩] }
    let s := upWith [(0, v)] State.reset
    let u := upWith [(0, v), (1, { qp0 with reads := [(0, 1, none)] })] State.reset
    getQp s 0 0 = some v ∧ v.reads = [(1, [0#512].length, none)] ∧ v.sqHead < v.sqDepth ∧ v.fetchQ = ⟨0, 0, none, 1⟩ :: [] ∧
      v.frozen = false ∧ v.reset = none ∧ qpHeld s 0 0 < v.maxOut ∧ slotFree s 0 = true ∧
      freeSlot s = some 0 ∧ v.held = [] ∧ v.writeFailed = false ∧ cqFull v = false ∧ v.log.length < 16 ∧
      ({ v with frozen := true } : Qp).frozen = true ∧ 1 ≤ qpHeld (holding (cmd 0) s) 0 0 ∧ OthersQuiet s 0 0 ∧
      Tab.wf u.host.fns = true ∧ (∀ x ∈ u.host.fns, Tab.wf x.2.qps = true) ∧ firstRead u = some (0, 0, 1, none) :=
  ⟨by decide +kernel, rfl, by decide, rfl, rfl, rfl, by decide +kernel, by decide +kernel, by decide +kernel, rfl, rfl,
    by decide +kernel, by decide, rfl, by decide +kernel, quiet_up _, by decide +kernel⟩

/-- A command whose lists are being read. -/
theorem witness_lists : let c := { cmd 0 with stage := .lists }
    let s := holding c up
    getCmd s 0 = some c ∧ c.stage = .lists ∧ Takes s c qp0 ∧ qp0.log.length < 16 :=
  ⟨rfl, rfl, ⟨rfl, rfl, rfl, rfl, rfl, rfl, rfl, rfl⟩, by decide⟩

/-- An I/O queue pair 1 that is frozen, and one that runs: QUEUE_RESET, QUEUE_RESTART, CREATE_QP, DELETE_QP and GET_LOG name it. -/
def q1 : Qp := { qp0 with frozen := true }
def two : State := upWith [(0, qp0), (1, q1)] State.reset
def onTwo (e : BitVec 512) : State := holding (cmd e) two
theorem takes_two (e : BitVec 512) : Takes (onTwo e) (cmd e) qp0 := ⟨rfl, rfl, rfl, rfl, rfl, rfl, rfl, rfl⟩
theorem quiet_two (e : BitVec 512) : OthersQuiet (onTwo e) 0 1 := by
  refine ⟨rfl, fun x hx => ?_⟩
  obtain rfl : x = (0, ({ enable := true, ready := true, qps := [(0, qp0), (1, q1)] } : Fn)) := by
    simpa [onTwo, holding, two, upWith] using hx
  refine ⟨rfl, fun y hy _ => ?_⟩
  rcases (by simpa using hy : y = (0, qp0) ∨ y = (1, q1)) with rfl | rfl <;> rfl
theorem witness_queue_commands :
    (let e := ent [(0, 0, 4), (28, 0, 1)]; Started (onTwo e) 0 opQueueReset (cmd e) ∧
      getQp (onTwo e) 0 (eLocalQp e) = some q1 ∧ q1.reset = none ∧ q1.fetchQ = [] ∧ eLocalQp e = 1 ∧ OthersQuiet (onTwo e) 0 1) ∧
    (let e := ent [(0, 0, 3), (28, 0, 1)]; Started (onTwo e) 0 opQueueRestart (cmd e) ∧ (cmd e).qp ≠ eLocalQp e ∧
      getQp (onTwo e) 0 (eLocalQp e) = some q1 ∧ q1.frozen = true ∧ q1.claim = none ∧ q1.held = [] ∧ q1.resetEnds = false ∧
      Takes (onTwo e) (cmd e) qp0) ∧
    (let e := ent [(0, 0, 1), (28, 0, 2)]; Started (onTwo e) 0 opCreateQp (cmd e) ∧
      (getFn (onTwo e) 0).ready = true ∧ getQp (onTwo e) 0 (eLocalQp e) = none ∧ Takes (onTwo e) (cmd e) qp0) ∧
    (let e := ent [(0, 0, 2), (28, 0, 1)]; Started (onTwo e) 0 opDeleteQp (cmd e) ∧ (cmd e).qp ≠ eLocalQp e ∧
      getQp (onTwo e) 0 (eLocalQp e) = some q1 ∧ qpHeld (onTwo e) 0 (eLocalQp e) = 0 ∧ eLocalQp e = 1 ∧
      OthersQuiet (onTwo e) 0 1 ∧ Takes (onTwo e) (cmd e) qp0) ∧
    (let e := ent [(0, 0, 5), (0, 8, 1), (24, 0, 64), (28, 0, 1)]; Started (onTwo e) 0 opGetLog (cmd e) ∧
      eDataMode e = 1 ∧ getQp (onTwo e) 0 (eLocalQp e) = some q1 ∧ Takes (onTwo e) (cmd e) qp0 ∧
      let v : Qp := { q1 with log := [{ status := .mediumError, cid := 1, sequence := 2, epoch := 0, opcode := 0x81, timestamp := 0,
                                        flowTag := 0, block := 2 }] };
      getQp (upWith [(0, qp0), (1, v)] State.reset) 0 1 = some v ∧ 0 < min v.log.length (eLen e / 64) ∧ qp0.reset = none) :=
  ⟨⟨started_hold (by decide +kernel) rfl rfl, by decide +kernel, rfl, rfl, by decide +kernel, quiet_two _⟩,
    ⟨started_hold (by decide +kernel) rfl rfl, by decide +kernel, by decide +kernel, rfl, rfl, rfl, rfl, takes_two _⟩,
    ⟨started_hold (by decide +kernel) rfl rfl, by decide +kernel, by decide +kernel, takes_two _⟩,
    ⟨started_hold (by decide +kernel) rfl rfl, by decide +kernel, by decide +kernel, by decide +kernel, by decide +kernel,
      quiet_two _, takes_two _⟩,
    started_hold (by decide +kernel) rfl rfl, by decide +kernel, by decide +kernel, takes_two _, by decide +kernel⟩

/-- Queue pairs under reset, at rest and frozen: the cut, the mismatch, AqReset and AqRestart; a QUEUE_RESET of queue pair 1 that
waits for its end on a device with nothing else to do. -/
def qR : Qp := { q1 with reset := some { by' := some 0 } }
def eQr : BitVec 512 := ent [(0, 0, 4), (28, 0, 1)]
def resetAt : State := holding { cmd eQr with stage := .waiting } (upWith [(0, qp0), (1, qR)] State.reset)
theorem witness_resets : let v : Qp := { qp0 with reset := some {} }
    let w : Qp := { qp0 with reset := some { mismatch := true } }
    (getQp (upWith [(0, v)] State.reset) 0 0 = some v ∧ v.reset = some {} ∧ ({} : QpReset).by' = none ∧ v.reset ≠ none ∧
      getQp up 0 0 = some qp0 ∧ qp0.reset = none ∧ qp0.frozen = false ∧ getQp two 0 1 = some q1 ∧ q1.frozen = true ∧
      getQp (upWith [(0, q1)] State.reset) 0 0 = some q1 ∧ qp0.fqPtrs.getD 0 0 = (0 : Fin 8).val ∧
      qp0.fqPtrs.getD 1 0 = (0 : Fin 8).val ∧ qp0.fqPtrs.getD 1 0 ≠ (1 : Fin 8).val) ∧
    (let s := upWith [(0, w)] State.reset
      let x := setQp 0 0 { w with epoch := 1 } s;
      getQp s 0 0 = some w ∧ slotsOf s 0 0 = [] ∧ logReaders s 0 0 = [] ∧ settle x = x) ∧
    (let x := setQp 0 1 { qR with epoch := 1 } resetAt;
      getQp resetAt 0 1 = some qR ∧ slotsOf resetAt 0 1 = [] ∧ logReaders resetAt 0 1 = [] ∧ settle x = x ∧
      getCmd resetAt 0 = some { cmd eQr with stage := .waiting } ∧ (cmd eQr).qp ≠ 1) ∧
    Takes resetAt { cmd eQr with stage := .waiting } qp0 :=
  ⟨by decide +kernel, by decide +kernel, by decide +kernel, ⟨rfl, rfl, rfl, rfl, rfl, rfl, rfl, rfl⟩⟩

/-- A command of an unknown opcode, and one that a check of its fetch refuses. -/
theorem witness_refused :
    (let e := ent [(0, 0, 0x55)];
      opcodes.contains (eOpcode e) = false ∧ Takes (on e State.reset) (cmd e) qp0 ∧
        getCmd (on e State.reset) 0 = some (cmd e) ∧ (cmd e).stage = .started ∧ qp0.log.length < 16) ∧
    let c := { cmd (ent [(0, 0, 0x81)]) with verdict := some (.cartridgeAbsent, 1) }
    getCmd (holding c up) 0 = some c ∧ c.stage = .started ∧ Takes (holding c up) c qp0 ∧ Status.cartridgeAbsent.isError = true ∧
      eOpcode c.entry = opRead :=
  ⟨⟨by decide +kernel, takes_on _ _, rfl, rfl, by decide⟩, rfl, rfl, ⟨rfl, rfl, rfl, rfl, rfl, rfl, rfl, rfl⟩, by decide +kernel, by decide +kernel⟩

/-- VFs that exist, and none. -/
theorem witness_functions : (getFn up 0).enable = true ∧ fnExists up 0 = true ∧ up.host.vfEnable = false ∧
    ({ up.host with vfEnable := true } : HostIf).vfEnable = true := by decide +kernel

/-- The reset state with a READY cartridge of 4 wraps and 100,000 positions and stream 5. -/
def loaded (x : Stream) : State :=
  { State.reset with cart := { state := .ready, wraps := 4, grid := 100, lposE := 1000000 }, streams := [(5, x)] }
def x0 : Stream := { owner := 0, comp := 1, cipher := false, state := .opened, next := 10, durable := 1000 }

/-- STREAM_CREATE with a free dataset buffer, its stream not yet and already released, and STREAM_OPEN of a closed stream. -/
theorem witness_streams :
    (let e := ent [(0, 0, 0x18), (4, 0, 6)]
      let s := { loaded x0 with reserved := [(6, 0)] }
      let u := { loaded x0 with reserved := [(6, 0)], streams := [(6, x0)] };
      mediumFull s = false ∧ s.wr.filling = none ∧ s.wr.bufReq = none ∧ (choosePool s 1 25165824).isSome = true ∧
      Started (on e s) 0 opStreamCreate (cmd e) ∧ Tab.get? (on e s).wr.failedCreates (cmd e).seq = none ∧
      Tab.get? (on e s).reserved (eStream e) = some (cmd e).seq ∧ getStream (on e s) (eStream e) = none ∧
      Started (on e u) 0 opStreamCreate (cmd e) ∧ (getStream (on e u) (eStream e)).isSome = true ∧ Takes (on e u) (cmd e) qp0) ∧
    (let e := ent [(0, 0, 0x19), (4, 0, 5)]
      let x : Stream := { x0 with state := .closed, opening := some 0 }
      Started (on e (loaded x)) 0 opStreamOpen (cmd e) ∧ getStream (on e (loaded x)) (eStream e) = some x ∧
        x.opening = some (cmd e).seq ∧ openCount (on e (loaded x)) < 1024 ∧ Takes (on e (loaded x)) (cmd e) qp0) :=
  ⟨⟨by decide +kernel, rfl, rfl, by decide +kernel, started_on (by decide +kernel) rfl rfl, rfl, by decide +kernel,
      by decide +kernel, started_on (by decide +kernel) rfl rfl, by decide +kernel, takes_on _ _⟩,
    started_on (by decide +kernel) rfl rfl, by decide +kernel, by decide +kernel, by decide +kernel, takes_on _ _⟩

/-- A WRITE of one record of 4 bytes, one whose length does not match, a WRITE whose data arrives, and the throttle. -/
def eWrite : BitVec 512 := ent [(0, 0, 0x80), (0, 8, 1), (4, 0, 5), (4, 16, 1), (24, 0, 4), (28, 0, 4)]
def eBad : BitVec 512 := ent [(0, 0, 0x80), (0, 8, 1), (4, 0, 5), (4, 16, 1), (24, 0, 5), (28, 0, 4)]
def w0 : WriteJob := { lens := [4], total := some 4, lensKnown := true }
def cw (e : BitVec 512) (w : WriteJob) : Cmd := { cmd e with stage := .writing w }
def writing (w : WriteJob) (x : Stream) : State :=
  let s := holding (cw eWrite w) (upWith [(0, qp0)] (loaded x))
  { s with bpm := { s.bpm with bufs := [(7, { owner := 0x10#8, count := 1 })] } }
theorem witness_writes :
    Started (on eWrite (loaded x0)) 0 opWrite (cmd eWrite) ∧ Started (on eBad (loaded x0)) 0 opWrite (cmd eBad) ∧
    Takes (on eBad (loaded x0)) (cmd eBad) qp0 ∧
    ((List.replicate (eCount eWrite) (eRecLen eWrite)).sum = eLen eWrite ∧
      (List.replicate (eCount eBad) (eRecLen eBad)).sum ≠ eLen eBad ∧ eDataMode eWrite = 1 ∧ eLenMode eWrite = false ∧
      0 < eLen eWrite ∧ getStream (on eWrite (loaded x0)) (eStream eWrite) = some x0) ∧
    (getCmd (writing w0 x0) 0 = some (cw eWrite w0) ∧ w0.lensKnown = true ∧ heldBack (writing w0 x0) (cw eWrite w0) w0 = false ∧
      cutOff (writing w0 x0) (cw eWrite w0) = false ∧ w0.ended = false ∧
      Tab.get? (writing w0 x0).bpm.bufs 7 = some { owner := 0x10#8, count := 1 } ∧
      w0.got + [1#8, 2#8, 3#8, 4#8].length ≤ w0.lens.sum) ∧
    State.reset.bpm.above = false ∧ ({ State.reset.bpm with above := true } : Bpm).above = true :=
  ⟨started_on (by decide +kernel) rfl rfl, started_on (by decide +kernel) rfl rfl, takes_on _ _, by decide +kernel,
    by decide +kernel, by decide +kernel, rfl⟩

/-- A WRITE whose data has arrived: within the lease, up to it, beyond it; one that waits for order, and one for the lease. -/
theorem witness_runs : let w : WriteJob := { w0 with arrived := true }
    let s := writing w x0
    let l : WriteJob := { w with wait := .lease }
    getCmd s 0 = some (cw eWrite w) ∧ getStream s (eStream (cw eWrite w).entry) = some x0 ∧ indexRoom s 5 = true ∧
      eStream eWrite = 5 ∧ eExpectNext eWrite = false ∧ earlierReady s 5 (cw eWrite w) w = false ∧
      x0.next + eCount eWrite ≤ x0.durable ∧ leaseWaiters s 5 0 = false ∧ (x0.next + eCount eWrite ≤ 0xFFFFFFFFFFFF) ∧
      ({ x0 with durable := 10 } : Stream).durable < x0.next + eCount eWrite ∧ eOrdered eWrite = false ∧
      earlierNoRun s 5 0 = false ∧ w.run = none ∧ w.wait = .none ∧ ({ w with wait := .ordered } : WriteJob).wait = .ordered ∧
      l.wait = .lease ∧ leaseWaiters (writing l x0) 5 0 = false ∧ eOrdered (ent [(0, 0, 0x80), (40, 3, 1)]) = true := by
  decide +kernel

/-- A lane that waits for an idle engine; a block on an engine whose encoding is not shorter, or does not decode; a copy. -/
def b0 : Blk := { id := 0, stream := 5, lane := 2, laneCount := 16, comp := 1,
                  frags := [{ number := 10, kind := 0, data := [1#8, 2#8, 3#8, 4#8] }], independent := true, entryDistance := 0 }
def packing (b : Blk) (g : Engine) : State :=
  { State.reset with pack := { blks := [(0, b)], engines := [(3, g)], nextBlk := 1 }, streams := [(5, x0)] }
theorem witness_engines :
    (oldestFor (packing b0 {}) 3 = some b0 ∧ b0.stream = 5 ∧ b0.lane = 2 ∧ (getEngine (packing b0 {}) 3).lane = none ∧
      (getEngine (packing b0 {}) 3).busy = none ∧ (getEngine (packing b0 {}) 3).bufReq = none ∧
      engineEnabled (packing b0 {}) 3 = true) ∧
    (let s := packing b0 { lane := some (6, 1) };
      oldestFor s 3 = some b0 ∧ (getEngine s 3).lane = some (6, 1) ∧ nextOfLane s 6 1 = none) ∧
    (let b : Blk := { b0 with stage := .onEngine 3 }
      let s := packing b { busy := some 0, lane := some (5, 2) };
      (getEngine s 3).busy = some b.id ∧ getBlk s b.id = some b ∧ [0xFF#8].length < (contentOf b.frags).length ∧
        decodeBlock b.comp false b.independent (getEngine s 3).state [0xFF#8] (contentOf b.frags).length = none) ∧
    let b : Blk := { b0 with stage := .copying 3 }
    let s := packing b { busy := some 0, lane := some (5, 2) }
    (getEngine s 3).busy = some b.id ∧ getBlk s b.id = some b ∧ fifoRoom s 3 (contentOf b.frags) = true := by decide +kernel

/-- Encodings of class D of fragments of 40 zero bytes and of 4 bytes, written out by hand from the code rule of R224: the one is
shorter than its content, the other is not. -/
def bD : Blk := { b0 with comp := 2, frags := [{ number := 10, kind := 0, data := List.replicate 40 0#8 }], stage := .onEngine 3 }
def pD : List Byte := [0#8, 64#8, 160#8, 96#8, 1#8, 68#8, 18#8, 15#8, 8#8, 132#8, 194#8, 161#8, 96#8, 8#8, 8#8]
def bS : Blk := { b0 with comp := 2, stage := .onEngine 3 }
def pS : List Byte := [0#8, 64#8, 160#8, 96#8, 0#8, 32#8, 4#8, 4#8, 3#8, 2#8, 64#8, 64#8]
theorem witness_encoding : let s := packing bD { busy := some 0, lane := some (5, 2) }
    (getEngine s 3).busy = some bD.id ∧ getBlk s bD.id = some bD ∧ pD.length < (contentOf bD.frags).length ∧
      (decodeBlock bD.comp false bD.independent (getEngine s 3).state pD (contentOf bD.frags).length).map (·.1) =
        some (contentOf bD.frags) ∧
      (encoderMeter bD.comp bD.effort bD.segment bD.check bD.loss bD.independent (getEngine s 3).state pD
        (contentOf bD.frags).length).isSome = true ∧ fifoRoom s 3 pD = true ∧ (contentOf bS.frags).length ≤ pS.length ∧
      (decodeBlock bS.comp false bS.independent (getEngine s 3).state pS (contentOf bS.frags).length).map (·.1) =
        some (contentOf bS.frags) ∧
      (encoderMeter bS.comp bS.effort bS.segment bS.check bS.loss bS.independent (getEngine s 3).state pS
        (contentOf bS.frags).length).isSome = true := by decide +kernel

/-- FLUSH and STREAM_CLOSE start; an open block of an idle stream; a filling dataset that a created stream waits for; drains
with nothing left. -/
def eFlush : BitVec 512 := ent [(0, 0, 0x83), (4, 0, 5)]
def eClose : BitVec 512 := ent [(0, 0, 0x1A), (4, 0, 5)]
def xOpen : Stream := { x0 with openBlk := some { frags := b0.frags } }
def filled : State := { loaded x0 with
  wr := { filling := some { id := 0, buf := some 3 }, queued := [.stream ⟨false, 6, 0, 1, false, 0, 100⟩] },
  host := { cmds := [(0, { cmd (ent [(0, 0, 0x18), (4, 0, 6)]) with stage := .waiting })] } }
def eMedium : BitVec 512 := ent [(0, 0, 0x80), (1, 2, 1), (4, 0, 5), (4, 16, 1)]
def dPlaced : Dataset := { id := 0, buf := some 3, payload := [1#8], blocks := [(0, 0, 0)] }
def placed : State :=
  let b : Blk := { b0 with stage := .placed }
  let c := { cmd eMedium with stage := .writing { w0 with run := some 10, recIdx := 1, avail := 0 } }
  holding c { loaded x0 with
    pack := { blks := [(0, b)], nextBlk := 1 }
    wr := { filling := some dPlaced } }
theorem witness_drain_starts :
    Started (on eFlush (loaded x0)) 0 opFlush (cmd eFlush) ∧ Started (on eClose (loaded x0)) 0 opStreamClose (cmd eClose) ∧
    getStream (loaded { x0 with closer := some 0 }) (eStream eClose) = some { x0 with closer := some 0 } ∧
    getStream (loaded xOpen) 5 = some xOpen ∧ b0.frags ≠ [] ∧
    firstQueued filled = true ∧ filled.wr.filling.isSome = true ∧ filled.wr.stopped = false ∧
    placed.wr.filling = some dPlaced ∧ mediumIn placed dPlaced ≠ [] :=
  ⟨started_on (by decide +kernel) rfl rfl, started_on (by decide +kernel) rfl rfl, by decide +kernel⟩

def jD : DrainJob := { scope := 0, stream := 5 }
def dD : Drain := { scope := 0, fn := 0, stream := 5, seq := 0, slot := some 0 }
def draining (e : BitVec 512) : State :=
  holding { cmd e with stage := .draining jD } (upWith [(0, qp0)] (loaded { x0 with state := .closing }))
theorem witness_drain_ends (e : BitVec 512) (h : e = eFlush ∨ e = eClose) : tapeGone (draining e) = false ∧ jD.dataDone = false ∧ jD.sync = false ∧
    Takes (draining e) { cmd e with stage := .draining jD } qp0 ∧
    (draining e).wr.stopped = false ∧ dD.writesLeft (draining e) = false ∧ dD.bytesLeft (draining e) = false ∧
    dD.readsLeft (draining e) = false := by
  rcases h with rfl | rfl <;> exact ⟨by decide +kernel, rfl, rfl, ⟨rfl, rfl, rfl, rfl, rfl, rfl, rfl, rfl⟩, by decide +kernel⟩

/-- Stream 5 with records 0 to 9 in dataset 2, read: record 3 is at hand in a block of 4 bytes. -/
def tb : TapeBlk := { id := 0, dataset := 2, phys := 2, pos := 0, stream := 5, first := 0, lane := 0, raw := true,
                      independent := true, encrypted := false, comp := 1, fragCount := 10, contentLen := 12, payloadLen := 12,
                      crc := 0, bytes := List.replicate 44 9#8, frags := some [{ number := 3, kind := 0, data := [1#8, 2#8, 3#8, 4#8] }] }
def readable (t : TapeBlk) : State :=
  { loaded x0 with index := { extents := [⟨true, true, false, 5, 0, 10, 0, 2, 100⟩] }, rd := { seen := [2], blks := [t], nextBlk := 1 } }
def eRead (len first : Nat) : BitVec 512 := ent [(0, 0, 0x81), (0, 8, 1), (4, 0, 5), (4, 16, 1), (8, 0, first), (24, 0, len)]
def eRaw : BitVec 512 := ent [(0, 0, 0x82), (0, 8, 1), (4, 0, 5), (4, 16, 1), (8, 0, 3), (24, 0, 64)]
theorem witness_reads :
    (Started (on (eRead 4 3) (readable tb)) 0 opRead (cmd (eRead 4 3)) ∧ Takes (on (eRead 4 3) (readable tb)) (cmd (eRead 4 3)) qp0 ∧
      recStatus (on (eRead 4 3) (readable tb)) 5 3 = .res (.data [1#8, 2#8, 3#8, 4#8] false) ∧
      Started (on eRaw (readable tb)) 0 opReadRaw (cmd eRaw) ∧ rawStatus (on eRaw (readable tb)) 5 3 = .blocks true [tapeRaw tb]) ∧
    (eLen (eRead 4 3) = 4 ∧ eLen (eRead 3 3) = 3 ∧ eCount (eRead 4 3) = 1 ∧ eDataMode (eRead 4 3) = 1 ∧ eCount eRaw = 1 ∧
      eDataMode eRaw = 1 ∧ (tapeRaw tb).bytes ≠ [] ∧ (tapeRaw tb).bytes.length ≤ eLen eRaw) ∧
    recStatus (on (eRead 4 3) { readable tb with index := {} }) 5 3 = .res .notPlaced ∧
    RecRes.notPlaced.skip = some (0xFFFFFFFF, .recordNotFound) ∧
    let s := on (eRead 4 3) (readable tb);
    s.host.cmds = [(0, cmd (eRead 4 3))] ∧ s.pack.blks = [] ∧ s.wr.waiting = [] ∧ s.wr.closedQ = [] ∧ s.wr.filling = none ∧
      s.pwr.drain = none ∧ s.fw.activate = none ∧ s.bpm.bufs = [] ∧
      (∀ p ∈ s.streams, p.2.openBlk = none ∧ p.2.state ≠ .closing) ∧ getStream s 5 = some x0 ∧ qp0.reset = none :=
  ⟨⟨started_on (by decide +kernel) rfl rfl, takes_on _ _, rfl, started_on (by decide +kernel) rfl rfl, rfl⟩, by decide +kernel,
    rfl, rfl, by decide +kernel⟩

/-- Datasets wait to be read; one is being read with nothing known of it. -/
theorem witness_scheduling :
    (let s := { readable tb with rd := { queue := [2, 3], collecting := true } };
      s.rd.collecting = true ∧ s.rd.cur = none ∧ s.rd.urgent = none ∧ s.wr.pass = false ∧ s.wr.ckpt = none ∧
        s.cart.unthreading = false ∧ s.cart.state = .ready ∧ 2 ∈ s.rd.queue ∧ 4 ∉ s.rd.queue ∧
        (choosePool s 1 25165824).isSome = true ∧
        choosePool { s with bpm := { s.bpm with pools := List.replicate 5 ⟨0, 0, 0, 0, []⟩ } } 1 25165824 = none) ∧
    (let d : ReadDs := { number := 2, orig := 2, wrap := 0, buf := some 131072 }
      let s := { readable tb with rd := { cur := some d } };
      s.rd.cur = some d ∧ d.buf.isSome = true ∧ d.phase = 0 ∧ 2 ≤ param s 0x4870 6) := by decide +kernel

/-! ## Blocks from tape, keys, buffers -/

/-- A dataset range to rebuild; a block of 14 stored bytes that waits for its key, and one that waits for its engine. -/
def eRebuild : BitVec 512 := ent [(0, 0, 0x13), (28, 0, 2), (32, 0, 5)]
def key0 : KeySlot := { state := .loaded, key := 0, owner := 0, writerId := 0, lane := 0, scope := none, next := 7, highWater := 9 }
def bStored : TapeBlk := { tb with raw := false, comp := 3, frags := none }
def content0 : List Byte := [0#8, 0#8, 0#8, 0#8, 0#8, 0#8, 0#8, 4#8, 1#8, 2#8, 3#8, 4#8]
def bGood : TapeBlk := { tb with frags := none, fragCount := 1, crc := (crc32c content0).toNat, bytes := List.replicate 32 0#8 ++ content0 }
def keyed (b : TapeBlk) : State :=
  let s := readable b
  { s with streams := [(5, { x0 with cipher := true, keySlot := 1 })], cip := { slots := [(1, key0)] } }
theorem witness_tape_blocks :
    (let s := on eRebuild (loaded x0);
      Started s 0 opRebuild (cmd eRebuild) ∧ tapeGone s = false ∧ s.host.cmds = [(0, cmd eRebuild)] ∧ s.pack.blks = [] ∧
      s.wr.waiting = [] ∧ s.wr.closedQ = [] ∧ s.wr.cocoon = [] ∧ s.wr.filling = none ∧ s.wr.stopped = false ∧
      s.pwr.drain = none ∧ s.fw.activate = none ∧ s.rd.cur = none ∧
      (∀ p ∈ s.streams, p.2.openBlk = none ∧ p.2.state ≠ .closing) ∧ 0 < eDsCount eRebuild ∧
      s.index.failed.contains (eDsFirst eRebuild) = false) ∧
    (let b := { bStored with encrypted := true }
      let s := keyed b;
      getTape s 0 = some b ∧ blkKey s b.stream = some key0 ∧ ciphered s b.stream = true ∧ s.cip.failed = false ∧
        b.plain = none ∧ b.authFailed = false ∧ b.unreadable = false ∧ b.short = 0 ∧ b.bufReq = none ∧ b.buf = none ∧
        resetting s 2 = false ∧ (choosePool s 1 (max 1 b.payloadLen)).isSome = true ∧ decryptBlk key0.key b = none ∧
        choosePool { s with bpm := { s.bpm with pools := List.replicate 5 ⟨0, 0, 0, 0, []⟩ } } 1 (max 1 b.payloadLen) = none) ∧
    (let s := readable bStored;
      getTape s 0 = some bStored ∧ engineServes 3 bStored.comp = true ∧ engineEnabled s 3 = true ∧ (getEngine s 3).busy = none ∧ bStored.outReq = none ∧
        ciphered s bStored.stream = false ∧ (choosePool s 1 (max 1 bStored.contentLen)).isSome = true ∧
        (decodeLane s false {} [bStored]).2.isSome = true) ∧
    (let s := readable bGood;
      (decodeLane s false {} [bGood]).2 = none ∧
        ((decodeLane s false {} [bGood]).1.getLast?.bind (·.frags)).isSome = true) ∧
    blkState (readable bStored) bStored = .wait ∧ histOf (readable bStored) bStored = .ready [] ∧
    blkState (readable bGood) bGood = .wait ∧ histOf (readable bGood) bGood = .ready [] :=
  ⟨⟨started_on (by decide +kernel) rfl rfl, by decide +kernel⟩, by decide +kernel, by decide +kernel, by decide +kernel, rfl, rfl, rfl, rfl⟩

/-- KEY_LOAD of a KEK for function 0, and of key data of 8 bytes: the integrity value alone unwraps to nothing, other bytes do
not unwrap. (The kernel cannot run AES in reasonable time; R247's unwrap was checked outside on RFC 3394's example.) -/
def eKek : BitVec 512 := ent [(0, 0, 8), (0, 8, 1), (24, 0, 32), (28, 16, 3)]
def eKey : BitVec 512 := ent [(0, 0, 8), (0, 8, 1), (24, 0, 8), (36, 0, 5)]
def owned : State :=
  { State.reset with
    lc := { state := 2, row := 0x3F#40 }
    cip := { keks := [(0, 0, 3)] } }
theorem witness_key_loads :
    (Started (on eKek owned) 0 opKeyLoad (cmd eKek) ∧ Started (on eKey owned) 0 opKeyLoad (cmd eKey) ∧
      Takes (on eKey owned) (cmd eKey) qp0) ∧
    (owned.lc.job = none ∧ owned.lc.state = 2 ∧ owned.cip.failed = false ∧ earlierLoad (on eKek owned) (cmd eKek) = false ∧
      earlierLoad (on eKey owned) (cmd eKey) = false ∧ (List.replicate 32 1#8).length = eLen eKek ∧ eKeyKind eKek = 3) ∧
    (Tab.get? (on eKey owned).cip.keks 0 = some (0, 3) ∧ Crypto.unwrap 0 (List.replicate 8 0xA6#8) = some [] ∧
      Crypto.unwrap 0 (List.replicate 8 1#8) = none ∧ (List.replicate 8 1#8).length = eLen eKey ∧ eKeyKind eKey = 0 ∧
      eStartMode eKey = false ∧ eStartCounter eKey < ivLimit ∧ lowestKey (on eKey owned) = some 0 ∧
      keysOwned (on eKey owned) 0 < param (on eKey owned) 0x5800 5 ∧
      recordedHigh (on eKey owned) (pairKey (BitVec.ofNat 256 (beNat [])) (BitVec.ofNat 24 (eWriterId eKey))) = none ∧
      counterRoom (on eKey owned) (pairKey (BitVec.ofNat 256 (beNat [])) (BitVec.ofNat 24 (eWriterId eKey))) = true ∧
      persisting (on eKey owned) (pairKey (BitVec.ofNat 256 (beNat [])) (BitVec.ofNat 24 (eWriterId eKey))) = false) :=
  ⟨⟨started_on (by decide +kernel) rfl rfl, started_on (by decide +kernel) rfl rfl, takes_on _ _⟩, by decide +kernel,
    by decide +kernel⟩

/-- KEY_UNLOAD of a slot; a load being persisted and a pre-reservation; a slot that retires. -/
def eUnload : BitVec 512 := ent [(0, 0, 9), (28, 0, 1)]
def pend : KeyPend := ⟨some 0, key0, 1⟩
theorem witness_keys_go :
    (let s := on eUnload { owned with cip := { slots := [(1, { key0 with unloading := some 0 })] } };
      Started s 0 opKeyUnload (cmd eUnload) ∧ eUnloadSlot eUnload = 1 ∧ (cmd eUnload).seq = 0 ∧ Takes s (cmd eUnload) qp0) ∧
    (let c := { cmd eKey with stage := .waiting };
      let s := holding c (upWith [(0, qp0)] { owned with cip := { loads := [pend] } });
      getCmd s 0 = some c ∧ Takes s c qp0 ∧ s.cip.loads = pend :: []) ∧
    (let s := { owned with cip := { slots := [(1, key0)], loads := [{ pend with slot := none }] } };
      Tab.get? s.cip.slots ({ pend with slot := none } : KeyPend).key = some key0) ∧
    let s := { owned with cip := { slots := [(1, { key0 with state := .retiring })] } };
    (∀ p ∈ s.pack.blks, namesKey p.2 1 = false) ∧ s.streams = [] ∧ ∀ m e, m ≠ 1 → (m, e) ∈ s.cip.slots → e.owner ≠ 0 :=
  ⟨⟨started_on (by decide +kernel) rfl rfl, by decide +kernel, rfl, takes_on _ _⟩,
    ⟨rfl, ⟨rfl, rfl, rfl, rfl, rfl, rfl, rfl, rfl⟩, rfl⟩, rfl, by decide, rfl,
    fun m e h k => by simp at k; exact absurd k.1 h⟩

/-- A packet for a cipher pair that gets its output buffer, or has one; a packet whose slot waits for its persist; a block in the
pair; a counter pair to retire. -/
theorem witness_encrypts : let b : Blk := { b0 with key := some 1, stage := .packet 3 };
    let s := { packing b {} with cip := { slots := [(1, key0)] } };
    headPacket s 3 = some b ∧ Tab.get? s.cip.pairs 0 = none ∧ Tab.get? s.cip.slots (b.key.getD 0) = some key0 ∧
      key0.next < ivLimit ∧ key0.next ≤ key0.highWater ∧ s.cip.failed = false ∧ resetting s 2 = false ∧
      (choosePool s 1 b.storedSize).isSome = true ∧ b.storedSize ≤ poolSize (131072 / 32768) ∧
      (let k : KeySlot := { key0 with next := 10, persisting := true };
        ∀ p ∈ s.pack.blks, slotWaits { s with cip := { slots := [(1, k)] } } (p.2.key.getD 0) = true) ∧
      (let t : State := { packing { b with stage := .inCipher 0, iv := some 5 } {} with
        cip := { slots := [(1, key0)], pairs := [(0, { enc := some 0 })] } };
        getBlk t 0 = some { b with stage := .inCipher 0, iv := some 5 } ∧ b.id = 0) ∧
      2 ^ 20 ≤ ({ drbgRequests := 2 ^ 20 } : Cipher).drbgRequests ∧ State.reset.cip.drbgRequests < 2 ^ 20 ∧
      retireOk State.reset (List.replicate 19 3#8) = true ∧ retireOk State.reset [3#8] = false := by
  decide +kernel

/-- ALLOC sizes at both ends, a full pool, a buffer with one reference, a free one, held requests of a requester, of the Dataset
Builder and of a cipher pair; tags right and wrong, of a command and of the device's own transfers. -/
theorem witness_buffers :
    (choosePool State.reset (classOf 0x10 0) 4 = some 0 ∧ choosePool State.reset (classOf 0x10 0) 25165824 = some 4 ∧
      resetting State.reset 1 = false ∧ tagIntact 0 0 = true ∧ tagIntact 0 1 = false ∧ tagClass 0 ≠ 3 ∧ tagClass (internalTag 0 0) = 3 ∧
      tagSlot 0 = 0 ∧ tagIntact (internalTag 0 0) 0 = false ∧ resetting { State.reset with resets := [{ code := 1, cause := 5 }] } 1 = true) ∧
    (let s := { State.reset with bpm := { pools := List.replicate 5 ⟨0, 0, 0, 0, []⟩ } };
      choosePool s (classOf 0x10 0) 4 = none ∧ choosePool s 2 4 = none ∧ classOf 0xE0 2 = 2) ∧
    (let s := { State.reset with bpm := { bufs := [(32768 + 7, { owner := 0x10, count := 1 })] } };
      Tab.get? s.bpm.bufs ((1 : Fin 5).val * 32768 + (7 : Fin 32768).val) = some { owner := 0x10, count := 1 } ∧
      Tab.get? s.bpm.bufs ((1 : Fin 5).val * 32768 + (8 : Fin 32768).val) = none) ∧
    (let h : Held := { id := 4, owner := 0x10, cls := 0, size := 100 }
      let s := { State.reset with bpm := { State.reset.bpm with held := [h] } };
      nextHeldReq s = some (h, 0) ∧ s.wr.bufReq ≠ some h.id ∧ ({ s.wr with bufReq := some 4 } : Wr).bufReq = some h.id ∧
        (∀ q ∈ s.pack.engines, q.2.bufReq ≠ some h.id) ∧
        (∃ q ∈ (packing b0 { bufReq := some 4 }).pack.engines, q.2.bufReq = some h.id) ∧
        ({ seq := 1, endDataset := none, parts := 1, bufReq := some 4 } : CkptJob).bufReq = some h.id ∧
        ({ number := 2, orig := 2, wrap := 0, buf := none, bufReq := some 4 } : ReadDs).bufReq = some h.id ∧
        ({ bufReq := some 4 } : CipherPair).bufReq = some h.id) ∧
    nextHeldReq State.reset = none := by
  decide +kernel

/-- A request held past its limit; a scrubbed word whose row reaches the limit, and one whose row does not; the scrub disabled. -/
theorem witness_scrub : (8 ≤ (8#34).toNat) ∧ param State.reset 0x2410 3 = 4 ∧ param State.reset 0x2410 2 = 24 ∧
    param { State.reset with dict := { vals := [(entryKey 0x2410 2, [0#8])] } } 0x2410 2 = 0 ∧
    Tab.getD State.reset.dram.rowCe (rowOf 8) 0 + 1 < param State.reset 0x2410 3 ∧
    (let h : Held := { id := 4, owner := 0x10, cls := 0, size := 100 };
      ∃ x ∈ ({ State.reset.bpm with held := [h] } : Bpm).held, x.id = 4) := by
  refine ⟨by decide, by decide +kernel, by decide +kernel, by decide +kernel, ?_, by decide +kernel⟩
  rw [show Tab.getD State.reset.dram.rowCe (rowOf 8) 0 = 0 from rfl]; decide +kernel

/-! ## Cartridge and write path -/

/-- A load that has the tape threaded, and its steps: manufacture data that is refused and that is not, a checkpoint, a dataset
header, the end of the scan, the journal. -/
def eLoad : BitVec 512 := ent [(0, 0, 0x10)]
def loadAt (j : LoadJob) : State :=
  let c := { cmd eLoad with stage := .waiting };
  holding c (upWith [(0, qp0)] { State.reset with cart := { state := .loading, load := some j, wraps := 4, grid := 100 } })
def man : Manufacture := { wraps := 4, beginZone := 0, endZone := 1000000, ctype := 1 }
def knowing (m : Manufacture) (s : State) : State :=
  { s with tce := { s.tce with made := [(0, m.wraps), (1, m.beginZone), (2, m.endZone), (3, m.ctype)] } }
def ckpt0 : Checkpoint := ⟨3, 9, 2, some 4, 77, false, 0, [.extent ⟨true, true, false, 5, 0, 10, 0, 2, 100⟩]⟩
def j0 : LoadJob := { slot := some 0 }
def j1 : LoadJob := { slot := some 0, step := 1, next := 5, endDataset := some 4 }
/-- A header of a sector of an index region. -/
def hr0 : HeaderRead :=
  let c : BitVec 176 := 1#176 <<< 87
  ⟨c, headerCrc c⟩
/-- The header of an empty dataset 5: its fixed part, its CRC, and zeros. (The kernel cannot run the CRC over 3,900 bytes, so the header
is built round it.) -/
def zeros (n : Nat) : List Byte := List.replicate n 0#8
def fixed5 : List Byte := fixedPart { id := 0 } 5 2 1 0
def crc5 : BitVec 32 := crc32c (fixed5 ++ zeros 3840)
def hdr5 : List Byte := fixed5 ++ (beBytes 4 crc5.toNat ++ zeros 4032)
theorem zeros_length (n : Nat) : (zeros n).length = n := List.length_replicate
theorem zeros_drop (k n : Nat) : (zeros n).drop k = zeros (n - k) := by rw [zeros, List.drop_replicate, zeros]
theorem zeros_take (k n : Nat) : (zeros n).take k = zeros (min k n) := by rw [zeros, List.take_replicate, zeros]
theorem zeros_append (m n : Nat) : zeros m ++ zeros n = zeros (m + n) := List.replicate_append_replicate
theorem fixed5_length : fixed5.length = 60 := by decide +kernel
theorem crc5_length : (beBytes 4 crc5.toNat).length = 4 := by simp [beBytes, leBytes]
theorem be4_back (x : BitVec 32) : beNat (beBytes 4 x.toNat) = x.toNat := by
  have := x.isLt
  simp only [beNat, beBytes, leBytes, leNat, List.reverse_reverse, BitVec.toNat_ofNat]
  omega
theorem hdr5_drop (k : Nat) (h : 64 ≤ k) : hdr5.drop k = zeros (4096 - k) := by
  rw [hdr5, List.drop_append, List.drop_eq_nil_of_le (by rw [fixed5_length]; omega), List.nil_append, List.drop_append,
    List.drop_eq_nil_of_le (by rw [crc5_length, fixed5_length]; omega), List.nil_append, zeros_drop, crc5_length, fixed5_length]
  exact congrArg zeros (by omega)
theorem hdr5_slots : headerSlots hdr5 = zeros 3840 := by
  rw [headerSlots, hdr5_drop _ (by omega), hdr5_drop _ (by omega), hdr5_drop _ (by omega), zeros_take, zeros_take, zeros_take,
    zeros_append, zeros_append]
  rfl
theorem hdr5_piece (i k : Nat) (h : i + k ≤ 60) : (hdr5.drop i).take k = (fixed5.drop i).take k := by
  rw [hdr5, List.drop_append_of_le_length (by rw [fixed5_length]; omega),
    List.take_append_of_le_length (by rw [List.length_drop, fixed5_length]; omega)]
theorem hdr5_get (k : Nat) (h : k < 60) : hdr5.getD k 0#8 = fixed5.getD k 0#8 := by
  rw [hdr5, List.getD_append _ _ _ _ (by rw [fixed5_length]; exact h)]
theorem hdr5_crc : headerCrcOk hdr5 = true := by
  have h : (hdr5.drop 60).take 4 = beBytes 4 crc5.toNat := by
    rw [hdr5, List.drop_append_of_le_length (by rw [fixed5_length]), List.drop_eq_nil_of_le (by rw [fixed5_length]), List.nil_append,
      List.take_append_of_le_length (by rw [crc5_length]), List.take_of_length_le (by rw [crc5_length])]
  have k := hdr5_piece 0 60 (by omega)
  rw [List.drop_zero, List.drop_zero, List.take_of_length_le (l := fixed5) (by rw [fixed5_length])] at k
  rw [headerCrcOk, h, hdr5_slots, k, be4_back, ← crc5]
  exact beq_self_eq_true _
theorem witness_header : ((readDsHeader hdr5).any fun h => headerPresent h j1.next (loadAt j1)) = true := by
  have hl : hdr5.length = 4096 := by rw [hdr5, List.length_append, List.length_append, fixed5_length, crc5_length, zeros_length]
  have h0 := hdr5_piece 0 4 (by omega)
  rw [List.drop_zero, List.drop_zero] at h0
  rw [readDsHeader, h0, hdr5_get 7 (by omega), hdr5_get 4 (by omega), hdr5_get 5 (by omega), hdr5_piece 8 5 (by omega),
    hdr5_piece 30 8 (by omega), if_pos ⟨hl, by decide +kernel, by decide +kernel, by decide +kernel, hdr5_crc⟩, Option.any_some]
  decide +kernel
theorem witness_loads :
    Started (on eLoad { State.reset with cart := { state := .loading } }) 0 opCartLoad (cmd eLoad) ∧
    getCmd (loadAt j0) 0 = some { cmd eLoad with stage := .waiting } ∧
    Takes (loadAt j0) { cmd eLoad with stage := .waiting } qp0 ∧
    ((knowing man (loadAt j0)).cart.load = some j0 ∧ j0.fail = none ∧ manufacture (knowing man (loadAt j0)) = some man ∧
      manufacture (loadAt j0) = none ∧ manufactureRefused man = false ∧
      manufacture (knowing { man with ctype := 2 } (loadAt j0)) = some { man with ctype := 2 } ∧
      manufactureRefused { man with ctype := 2 } = true ∧ regionFound [] = false ∧ regionFound [hr0] = true ∧
      newestCopy ([ckpt0].filter fun c => c.formatId == formatOf none none [ckpt0]) = some ckpt0 ∧
      newestCopy (([] : List Checkpoint).filter fun c => c.formatId == formatOf none none []) = none ∧
      64 * ckpt0.entries.length ≤ param (loadAt j0) 0x3010 8 * 2 ^ 20) ∧
    ((loadAt j1).cart.load = some j1 ∧ j1.step = 1 ∧ fits (loadAt j1).cart.wraps (loadAt j1).cart.grid j1.next = true ∧
      (readDsHeader []).isNone = true ∧
      loadFits j1 (loadAt j1) = true ∧ tailFirst { j1 with next := 6 } < 6) ∧
    (let j : LoadJob := { j1 with step := 2, next := 0 }; j.found = 0 ∧ (loadAt j).cart.next = j.next) :=
  ⟨started_on (by decide +kernel) rfl rfl, rfl, ⟨rfl, rfl, rfl, rfl, rfl, rfl, rfl, rfl⟩, by decide +kernel⟩

/-- CARTRIDGE_UNLOAD, its last step, and CARTRIDGE_FORMAT. -/
def eUnl : BitVec 512 := ent [(0, 0, 0x11)]
def eFmt : BitVec 512 := ent [(0, 0, 0x12), (32, 0, 9)]
def unloading : State :=
  holding { cmd eUnl with stage := .waiting } (upWith [(0, qp0)]
    { State.reset with cart := { state := .unloading, unthreading := true, unload := some 0 } })
def formatting : State := on eFmt { State.reset with cart := { state := .unformatted, formatting := some 0, wraps := 4, grid := 100 } }
theorem witness_unloads :
    Started (on eUnl { State.reset with cart := { state := .unloading } }) 0 opCartUnload (cmd eUnl) ∧
    unloading.cart.unload = some 0 ∧ unloading.cart.unloadFaulted = false ∧ unloading.cart.load = none ∧ getCmd unloading 0 = some { cmd eUnl with stage := .waiting } ∧
    Takes unloading { cmd eUnl with stage := .waiting } qp0 ∧ Started formatting 0 opCartFormat (cmd eFmt) ∧
    formatting.cart.formatting = some (cmd eFmt).seq ∧ createWaits formatting = false ∧ writeAllowed formatting = true ∧
    formatting.cart.state ≠ .faulted ∧ formatting.wr = {} ∧ 2 ≤ formatting.cart.grid :=
  ⟨started_on (by decide +kernel) rfl rfl, rfl, rfl, rfl, rfl, ⟨rfl, rfl, rfl, rfl, rfl, rfl, rfl, rfl⟩, started_on (by decide +kernel) rfl rfl, rfl,
    by decide +kernel⟩

/-- A checkpoint that is due; one whose copy A has its buffer and waits for its pass; copies A and B written, and failed. -/
def due : State := { loaded x0 with wr := { sinceCkpt := 1 } }
def jc : CkptJob := { seq := 4, endDataset := some 2, parts := 1 }
theorem witness_checkpoints :
    (param due 0x3010 7 ≠ 0 ∧ due.wr.sinceCkpt ≠ 0 ∧ due.cart.state = .ready ∧ due.wr.ckpt = none ∧ due.wr.pass = false ∧
      due.rd.cur = none ∧ writeAllowed due = true ∧ ckptParts (ckptEntries false due).length + 1 ≤ due.cart.grid ∧
      (choosePool due 1 25165824).isSome = true ∧
      choosePool { due with bpm := { due.bpm with pools := List.replicate 5 ⟨0, 0, 0, 0, []⟩ } } 1 25165824 = none) ∧
    (let j : CkptJob := { jc with buf := some 131072 }
      let s := { due with wr := { due.wr with ckpt := some j } };
      j.written = false ∧ j.failed = false ∧ j.made < j.parts ∧ s.wr.pass = false ∧ s.rd.cur = none ∧ tapeGone s = false ∧
        s.tce.hcfWrites = [] ∧ s.wr.stopped = false ∧ writeAllowed s = true) ∧
    (let j : CkptJob := { jc with written := true };
      j.copyB = false ∧ j.failed = false ∧ j.waits = [] ∧ j.buf = none ∧ due.cart.format = none ∧ due.cart.load = none ∧
        due.wr.ckptDue = false ∧ ({ j with copyB := true, failed := true } : CkptJob).failed = true ∧
        getStream due 5 = some x0) := by decide +kernel

/-- A pass: a closed dataset of a drain, one that is encoding, ready, writing, and verified; the write path at rest. -/
def ds0 : Dataset := { id := 7, payload := [1#8], kind := 1, state := .closed }
def lock (s : State) : State := { s with tlcs := { state := .locked, valid := [0] } }
def passing (w : Wr) : State :=
  { lock (loaded x0) with
    wr := { w with pass := true, guardLocked := 100000 }
    tce := { state := .moving, hcfWrites := [] } }
def dsHead (n : Nat) (st : DsState) : Dataset := { ds0 with number := some 2, state := st, slot := n }
theorem witness_datasets :
    (let s := { passing { closedQ := [ds0] } with wr := { closedQ := [ds0] } };
      s.wr.closedQ = ds0 :: [] ∧ s.wr.stopped = false ∧ writeAllowed s = true ∧ fits s.cart.wraps s.cart.grid s.cart.next = true ∧
        s.wr.pass = false ∧ s.wr.ckpt = none ∧ s.rd.cur = none ∧ s.cart.state = .ready ∧ s.tce.hcfWrites = [] ∧
        passWanted s = true) ∧
    (let s := passing { closedQ := [ds0], cocoon := [dsHead 49 .writing], head := some 7 };
      s.wr.pass = true ∧ s.wr.passEnding = false ∧ headDs s = some (dsHead 49 .writing) ∧ 48 < (dsHead 49 .writing).slot ∧
        encodedWaits s = false ∧ tapeWanted s = false ∧ s.wr.passIndex = false) ∧
    (let s := passing { closedQ := [ds0], cocoon := [dsHead 99 .verifying], passEnding := true };
      passQuiet s = true ∧ copyWanted s = true ∧ tailMay s = true) ∧
    (let s := passing { cocoon := [dsHead 49 .writing], head := some 7 };
      s.wr.closedQ = [] ∧ intakeHeld s = false ∧
        intakeHeld (holding (cw eWrite { w0 with intake := [(7, 0, [1#8])] }) s) = true) ∧
    (passing { cocoon := [dsHead 0 .encoding] }).wr.cocoon.find? (fun d => d.state == .encoding) = some (dsHead 0 .encoding) := by
  decide +kernel

/-- The header of slot 3 of dataset 2 on channel 5, and what a channel hears of an image of it up to the end of its header. -/
def sh : SectorHeader :=
  { dataset := 2, logical := 62, physical := 5, row := 3, slotType := 0, wrap := 2, rotation := 2, writePass := 0, indexRegion := false,
    headerSector := false, headerPart := 0, endOfData := false, degraded := false, lpos := 0 }
def heard (start : Int) (h : SectorHeader) (chan slot : Nat) (c1 : List C1Decode) : SectorRead :=
  { slot := 3, start := start, c1 := c1, flagBefore := 0, snr := 0, finePhase := 0, rails := [],
    samples := (((sectorImage h chan slot []).drop 16).take 230).map fun b =>
      { adc := if b then 24 else -24, soft := if b then 31 else -31 } }
def sr (ok : Bool) : SectorRead := heard (-31) sh 5 3 (if ok then [⟨[], [], 1⟩] else [])
def sw : SyncWindow := ⟨3, 2, true, 0, 2, 0, 0, 0⟩

/-- A dataset under the head, open and inhibited, and a verify FIFO full; a home sector's image, its window, a verdict that passes and
one that fails; the commit. -/
def im0 : Image := { dataset := 2, slot := 3, home := 5, row := 3, kind := 0, header := sh, under := 2, wrap := 2 }
def judged : State :=
  { passing { cocoon := [dsHead 4 .writing], head := some 7 } with chans := [(5, { fifo := [im0] })] }
def zeroWord : List Byte := List.replicate 2048 0#8
theorem witness_slots :
    (let s := passing { cocoon := [dsHead 4 .writing], head := some 7 };
      headDs s = some (dsHead 4 .writing) ∧ inhibited s = false ∧ inhibited { s with wr := { s.wr with guardShock := true } } = true ∧
        verifyFull s = false ∧ tapeRuns s = true ∧ tapeRuns State.reset = false ∧ s.tce.hcfWrites = [] ∧
        bankHolds (getChan s 5) 2 4 = false ∧ bankHolds { filling := some { im0 with row := 4, slot := 4 } } 2 4 = true ∧
        verifyFull { s with chans := [(5, { fifo := List.replicate verifyDepth im0 })] } = true) ∧
    (let s := passing { cocoon := [dsHead 0 .ready] };
      s.wr.head = none ∧ nextReady s = some (dsHead 0 .ready) ∧ verifyFull s = false ∧ tapeRuns s = true ∧ inhibited s = false) ∧
    (findImage judged 5 2 3 = some im0 ∧ im0.kind = 0 ∧ im0.cut = false ∧ im0.row ≠ 95 ∧
      dsByNumber judged 2 = some (dsHead 4 .writing) ∧ (dsHead 4 .writing).state ≠ .failed ∧ (dsHead 4 .writing).sectorSt im0.home im0.row = some .await ∧
      verdictPass judged (verifyOf judged 5 im0 (sr false)) = false) ∧
    (let s := passing { cocoon := [dsHead 95 .writing], head := some 7 };
      headDs s = some (dsHead 95 .writing) ∧ (dsHead 95 .writing).committed = false ∧ (dsHead 95 .writing).number.getD 0 < 4) ∧
    (dsHead 99 .verifying).verified = false := by decide +kernel

/-- A verdict that passes: the sector's header and codeword come back as they were written. -/
def imP : Image := { im0 with header := { sh with slotType := 3 }, codeword := zeroWord }
def judgedP : State := { judged with chans := [(5, { fifo := [imP] })] }
theorem witness_verdict_passes :
    findImage judgedP 5 2 3 = some imP ∧ dsByNumber judgedP 2 = some (dsHead 4 .writing) ∧
    verdictPass judgedP (verifyOf judgedP 5 imP (heard 17 imP.header 5 3 [⟨[], zeroWord, 1⟩])) = true := by decide +kernel

/-- A dataset whose one channel in use has all its sectors passed. -/
def dsDone : Dataset :=
  { dsHead 99 .verifying with
    sample := (List.range 127)
    sectors := (List.range 96).map fun r => (127 * 96 + r, { st := .passed }) }
theorem witness_release : dsDone.verified = true ∧ dsDone.kind ≠ 2 ∧ ({ dsDone with kind := 2 } : Dataset).kind = 2 ∧
    (passing { cocoon := [dsDone] }).wr.cocoon.find? (fun d => d.state != .failed) = some dsDone := by decide +kernel

/-- The end of a pass, with a number left and none left for the burst, and that of a copy of a checkpoint. -/
theorem witness_pass_ends :
    (let s := passing { passEnding := true, gates := true };
      s.wr.pass = true ∧ passQuiet s = true ∧ s.wr.stopped = false ∧ inhibited s = false ∧ s.wr.cocoon = [] ∧ s.wr.ckptDue = false ∧
        fits s.cart.wraps s.cart.grid s.cart.next = true ∧ tailMay s = true ∧ s.wr.passIndex = false) ∧
    (let s := passing { passEnding := true, passIndex := true, ckpt := some jc };
      s.wr.pass = true ∧ passQuiet s = true ∧ inhibited s = false ∧ s.wr.cocoon = [] ∧ tailMay s = false ∧ s.wr.ckpt = some jc) ∧
    fits 4 100 1400 = false := by decide +kernel

/-- The pins: a shock with a guard condition set and none, the hold-off at its two sides, a transport that runs. -/
theorem witness_pins : guardSet State.reset = false ∧ (12 ≤ 12 ∧ 3 < 4) ∧
    guardSet { State.reset with wr := { guardPos := true } } = true ∧ 0 < param State.reset 0x4830 2 ∧ param State.reset 0x4830 2 ≤ 100000 ∧
    inLock (lock State.reset) = true ∧ inLock State.reset = false ∧
    (let s := passing {}; s.pwr.now < 2 ∧ s.tce.faults.getLsbD 7 = false ∧ s.tce.state ≠ .off ∧ s.cart.state = .ready) ∧
    State.reset.tce.cartHigh = true ∧ State.reset.cart.state = .empty ∧ State.reset.tce.state = .off ∧
    threaded State.reset = false ∧ threaded (passing {}) = true := by decide +kernel

/-! ## Clock, channels, transport, links -/

/-- The clock in its four states; a reader that fails and one that does not, one that may be valid, in phase and out of it; a boundary
at the edge of the slip limits; the bits of a servo word, of manufacture data and of no word. -/
def clock (st : TlcsState) (valid : List Nat) (lpos fly : Bool) : State :=
  { State.reset with tlcs := { state := st, valid := valid, lpos := lpos, fromFly := fly } }
def err2 (q : Nat) (s : State) : Nat :=
  ((s.tlcs.position + ((q - s.tlcs.counted : Nat) : Int)) - 64 * (9216 * 2 : Nat)).natAbs
def word (v : Nat) (s : State) : State :=
  { s with tlcs := { s.tlcs with
    frameBits := [(msbBits 8 0xE4 ++ msbBits 32 v ++ msbBits 8 (crc8 (msbBits 32 v)).toNat).reverse, []] } }
theorem witness_clock :
    (let s := clock .locked [2] true false;
      (3 : Fin 4).val ∉ s.tlcs.valid ∧ (2 : Fin 4).val ∈ s.tlcs.valid ∧ s.tlcs.state = .locked ∧ s.tlcs.valid = [(2 : Fin 4).val] ∧
        readerFails 2 (.crossing 3) s = true ∧ readerFails 2 (.crossing 2) s = false ∧
        s.tlcs.hold = false ∧ s.tlcs.fixWhole = false ∧ err2 (1179648 + 768) s ≤ 768 ∧ 768 < err2 (1179648 - 769) s ∧ 0 ≤ s.tce.speed) ∧
    (let s := clock .flywheel [] true false
      let far := { s with tlcs := { s.tlcs with distance := 10 ^ 12 } };
      s.tlcs.state = .flywheel ∧ (3 : Fin 4).val ∉ s.tlcs.valid ∧ readerPasses 3 ⟨100, 100, 1, 384⟩ s = true ∧
        readerPasses 3 ⟨100, 100, 1, 385⟩ s = true ∧ readerPasses 3 ⟨100, 100, 3, 0⟩ s = false ∧
        (phaseOf 384).natAbs ≤ 384 ∧ 384 < (phaseOf 385).natAbs ∧ pastLimit s = false ∧ pastLimit far = true ∧
        ¬ (64 * 44882 * param s 0x4860 1 ≤ 1000 * (s.tlcs.distance + (0 - s.tlcs.counted))) ∧
        64 * 44882 * param s 0x4860 1 ≤ 1000 * (s.tlcs.distance + (10 ^ 12 - s.tlcs.counted))) ∧
    (let s := clock .acquire [1] true false; s.tlcs.state = .acquire ∧ s.tlcs.valid ≠ [] ∧ s.tlcs.lpos = true ∧ s.tlcs.steady < 256 ∧
      256 ≤ ({ s.tlcs with steady := 256 } : Tlcs).steady) ∧
    (let s := clock .acquire [1] false true; s.tlcs.lpos = false ∧ s.tlcs.fromFly = true ∧ s.tlcs.hold = false ∧
      err2 (1179648 - 147456) s ≤ 147456 ∧ 147456 < err2 (1179648 + 147457) s) ∧
    (let s := { clock .locked [0, 2] true false with tlcs := { state := .locked, valid := [0, 2], passed := some (true, 2, 0) } };
      s.tlcs.passed = some (!false, 2, 0) ∧ bothBands s = true) ∧
    (let s := clock .locked [1] true false
      let here := { s with tlcs := { s.tlcs with position := 64 * 9216 * 55 } };
      wordPayload (wordBits s false) = none ∧ wordPayload (wordBits (word 7 s) false) = some 7 ∧
        wordPayload (wordBits (word (2 ^ 31 + 5) s) false) = some (2 ^ 31 + 5) ∧ roundDiv (bandCount false (word 7 s)) (64 * 9216) ≠ 7 + 48 ∧
        roundDiv (bandCount false (word 7 here)) (64 * 9216) = 7 + 48) ∧
    (clock .acquire [1] false false).tlcs.fromFly = false := by decide +kernel

/-- Both bands give a position, and the length difference is small; a hold. -/
theorem witness_tilt : let s := clock .locked [0, 2] true false;
    bothBands s = true ∧ inLock s = true ∧ s.tlcs.hold = false ∧ s.tlcs.fixWhole = false ∧
    (let d := bandPhase s + wholePeriods (s.tlcs.deltaL - bandPhase s);
      d.natAbs * 10 ^ 6 ≤ 64 * 44882 * param s 0x4860 4) ∧ ({ s.tlcs with hold := true } : Tlcs).hold = true := by decide +kernel

/-- A channel with an open window and samples that hold one position alone, whose header fits and whose sector converges, and
samples that hold none; a failed channel whose cause holds and does not, in a reset and out of it. -/
def chan (c : Channel) : State := { clock .locked [0] true false with chans := [(5, c)] }
def reading : State :=
  { chan { windows := [sw] } with
    cart := { state := .loading }
    dict := { vals := [(entryKey 0x4005 (offsetSub 2), [0#8, 0#8, 0#8, 0#8])] } }
theorem witness_channels :
    (let s := chan { windows := [sw] }; (getChan s 5).windows.find? (fun w => w.slot == (sr true).slot) = some sw ∧
      (getChan s 5).failed = false ∧ (getChan s 5).fifo = [] ∧ ∀ r ∈ s.resets, r.code ≠ 0x80 + 5) ∧
    (let s := reading;
      ((triesOf sw 5 (readReach (unlearnedOn s 5 sw.wrap)) (sr true) (detected s 5 (sr true).samples)).map fun y =>
          decide (y.pos = sw.center) && headerFound sw 5 y && c1Converges (param s 0x4850 1) y &&
            decide (flaggedAt sw (sr true) (detected s 5 (sr true).samples) y.pos ≤ param s 0x4850 7)) = [true] ∧
      unlearnedOn s 5 sw.wrap = false ∧ unlearnedOn (chan {}) 5 sw.wrap = true ∧ attemptCycles (param s 0x4850 1) ≤ 16384 ∧ 0 < param s 0x4850 3 ∧ sw.lock = true) ∧
    (let s := reading;
      (sectorFound s 5 sw (sr true)).outcome = .accepted ∧ (sectorFound s 5 sw (sr false)).outcome ≠ .accepted ∧
      (sectorFound s 5 { sw with lock := false } (sr true)).outcome = .notTimed) ∧
    (let s := chan { failed := true, cause := 2, headFault := true };
      (getChan s 5).failed = true ∧ (getChan s 5).cause = 2 ∧ (getChan s 5).headFault = true) ∧
    (let s := { chan { failed := true, cause := 4 } with resets := [{ code := 0x85, cause := 5 }] };
      (getChan s 5).cause ≠ 2 ∧ resetting s (0x80 + 5) = true) ∧
    resetting (chan { failed := true, cause := 4 }) (0x80 + 5) = false := by decide +kernel

/-- The transport OFF, running, without a position, stopping near rest, unpowered; a reader's estimate at its limit. -/
def tape (st : TceState) : State := { clock .locked [0] true false with tce := { state := st } }
theorem witness_samples :
    tceUnpowered { State.reset with pwr := { now := 2 } } = true ∧ (tape .off).tce.state = .off ∧ tceUnpowered (tape .off) = false ∧
    tceUnpowered { tape .hold with resets := [{ code := 3, cause := 5 }] } = true ∧
    (tape .hold).tce.state ≠ .off ∧ (tape .hold).tce.seek = false ∧ (bandPes2 (tape .hold) 0).or (bandPes2 (tape .hold) 1) = none ∧
    (let s := { tape .hold with tce := { state := .hold, readers := [some 1000, none, none, none] } };
      ((bandPes2 s 0).or (bandPes2 s 1)).isSome = true) ∧
    (tape .hold).tce.loops.length = 4 ∧ loopsRun (tape .hold) = true ∧ loopsRun (tape .off) = false ∧
    (let s := { tape .hold with tce := { state := .hold, bandSum := 10, bandCount := 2 } };
      s.tce.bandCount ≠ 0 ∧ s.tce.ctlStop = false ∧ s.tlcs.hold = false ∧ ({ s.tlcs with tiltCount := 1 } : Tlcs).tiltCount ≠ 0) ∧
    State.reset.wr.shockLow = 0 ∧ ({ State.reset.wr with shockLow := 1 } : Wr).shockLow ≠ 0 ∧
    (let s := tape .stopping; s.tce.state = .stopping ∧ s.tce.speed.natAbs < 20000 ∧ s.tce.speedCount < 4999 ∧
      s.tce.tensionCount < 1999 ∧ s.tce.ctlStop = false) ∧
    (readerY 500 1000).natAbs ≤ 60000000 ∧ 60000000 < (readerY 900 1000).natAbs ∧ (tape .off).tce.readers.length = 4 ∧ (tape .off).tce.readerBad.length = 4 ∧
    (tape .off).tce.hourSat = [0, 0, 0, 0] ∧ (clock .flywheel [] true false).tlcs.state = .flywheel := by
  decide +kernel

/-- Requests in each state; faults to clear at rest; the stages; status frames that are right and damaged; a queued register
write. -/
theorem witness_links :
    tablesValid (tape .off) = false ∧ (tape .off).tce.faults.getLsbD 9 = false ∧ (tape .moving).tce.state = .moving ∧
    (tape .off).lc.state ≠ 4 ∧
    (let s := { tape .fault with tce := { state := .fault, faults := 4#32 } }; s.tce.state = .fault ∧ tapeStopped s = true) ∧
    (tape .hold).tce.stopFrames = 0 ∧ (∀ p ∈ (tape .hold).tce.aslSilent, p.2 < 3) ∧
    (let s := { tape .hold with tce := { state := .hold, aslSeq := [(1, 3)], aslSilent := [(1, 2)], hcfSeq := [(1, 3)], hcfWrites := [(0, 4, 5)] } };
      let f : StatusFrame := ⟨1, 2, 0x0003#16, 2, 0#8,
        crc8 (msbBits 36 (packMsb [(4, 1), (4, 2), (16, 3), (4, 2), (8, 0)]))⟩;
      statusCrc f = true ∧ statusCrc { f with crc := f.crc ^^^ 1#8 } = false ∧
      f.address ≤ 3 ∧ f.ftype = 2 ∧ Tab.getD s.tce.aslSilent f.address 0 ≠ 0 ∧ f.echo = (Tab.getD s.tce.aslSeq f.address 0 + 15) % 16 ∧
        f.flags.toNat % 16 = 0 ∧ f.echo = (Tab.getD s.tce.hcfSeq f.address 0 + 15) % 16 ∧ f.value.getLsbD 1 = true ∧
        (getChan s 17).headFault = false ∧ s.tce.hcfWrites = (s.tce.hcfChip, 4, 5) :: []) ∧
    (tape .hold).tce.hcfChip < 8 ∧ (tape .hold).tce.hcfWrites = [] := by decide +kernel

/-! ## Dictionary, Staxa, flash, firmware, events, resets, power, life cycle -/

/-- DICT_READ of an object that may be read, and of one that does not exist; DICT_WRITE of a kept value, of a persistent one and
of one read-only; a persist under way; the window, at rest and busy; the two writes of the default values. -/
def eDr (i j len : Nat) : BitVec 512 := ent [(0, 0, 6), (0, 8, 1), (28, 0, j), (28, 8, i), (24, 0, len)]
def eDw (i j len : Nat) : BitVec 512 := ent [(0, 0, 7), (0, 8, 1), (28, 0, j), (28, 8, i), (24, 0, len)]
def rdOp (e : BitVec 512) : DictOp := ⟨.cmd 0, false, eIndex e, eSub e, [], 0⟩
def wrOp (e : BitVec 512) (l : List Byte) : DictOp := ⟨.cmd 0, true, eIndex e, eSub e, l, 0⟩
def wantsWrite (i j : Nat) (l : List Byte) : Option Status :=
  let s := setStage 0 .waiting (on (eDw i j l.length) State.reset)
  checkOp s (fnReader s 0) (wrOp (eDw i j l.length) l)
def windowAt (w : Window) : State :=
  { up with host := { up.host with fns := [(0, { enable := true, ready := true, qps := [(0, qp0)], win := w })] } }
theorem witness_dictionary :
    Started (on (eDr 0x1000 1 64) State.reset) 0 opDictRead (cmd (eDr 0x1000 1 64)) ∧
    Started (on (eDw 0x4003 22 1) State.reset) 0 opDictWrite (cmd (eDw 0x4003 22 1)) ∧
    (let s := on (eDr 0x1000 1 64) State.reset;
      checkOp s (fnReader s 0) (rdOp (eDr 0x1000 1 64)) = none ∧ (findEntry 0x1000 1).isSome = true ∧
        checkOp s (fnReader s 0) (rdOp (eDr 0x1FFF 1 64)) = some .invalidField ∧ s.dict.queue = [] ∧
        s.dict.persisting = false ∧ resetting s 5 = false) ∧
    wantsWrite 0x4003 22 [0#8] = none ∧ persists (wrOp (eDw 0x4003 22 1) [0#8]) = false ∧ familyOf 0x4003 = 0x4000 ∧
    wantsWrite 0x4003 3 [9#8] = none ∧ persists (wrOp (eDw 0x4003 3 1) [9#8]) = true ∧
    (wantsWrite 0x4003 1 [0#8]).isSome = true ∧ familyOf 0x4003 ∉ [0x1100, 0x2404, 0x4870, 0x5000, 0x6000, 0x7000, 0x8000] ∧
    (let s := windowAt { index := 0x1000, sub := 1 };
      fnExists s 0 = true ∧ (getFn s 0).win.busy = false ∧ activating s = false ∧
        checkOp s (fnReader s 0) ⟨.window 0, false, 0x1000, 1, [], 0⟩ = none) ∧
    ((checkOp (windowAt { busy := true, index := 0x4003, sub := 22 }) (fnReader (windowAt {}) 0) ⟨.window 0, true, 0x4003, 22, [0#8], 0⟩).isNone ∧
      (checkOp (windowAt { busy := true, index := 0x4003, sub := 3 }) (fnReader (windowAt {}) 0) ⟨.window 0, true, 0x4003, 3, [9#8], 0⟩).isNone ∧
      (checkOp (windowAt { busy := true, index := 0x4003, sub := 1 }) (fnReader (windowAt {}) 0) ⟨.window 0, true, 0x4003, 1, [9#8], 0⟩).isSome) ∧
    (getFn (windowAt { busy := true }) 0).win.busy = true ∧ State.reset.lc.state < 4 ∧ State.reset.dict.armed = false :=
  ⟨started_on (by decide +kernel) rfl rfl, started_on (by decide +kernel) rfl rfl, by decide +kernel⟩

/-- Staxa enabled, without and with a session; a REQUEST of one read, with no Tag as KeyId 0 has it; the port's addresses. -/
def sess : Session := { keyId := 0, key := 0, clientNonce := 5, timeout := 30, ack := [], maker := false }
theorem witness_staxa :
    staxaOn State.reset = true ∧ resetting State.reset 5 = false ∧ staxaKey State.reset 0 = some none ∧
    (let s := { State.reset with staxa := { sessions := [(3, sess)] } };
      Tab.get? s.staxa.sessions (3#32).toNat = some sess ∧ s.staxa.sessions.length < 16 ∧ requestOk [⟨1, 0x1000, 1, []⟩] = true ∧
        requestAllowed s [⟨1, 0x1000, 1, []⟩] = true ∧ (1#32).toNat = sess.last + 1 ∧ (readerOf s (.staxa 3)).isSome = true) ∧
    (List.replicate 32 0#8).all (· == 0#8) = true ∧ (List.replicate 32 1#8).all (· == 0#8) = false ∧
    ownV4 State.reset 0 = false ∧
    tagOk 1 0 0 0 0 [] 0 = true ∧ tagOk 3 3 1 sess.keyId sess.key [] 0 = true := by decide +kernel


/-- Descriptors on a free and on a retired block, behind another, an erase that runs with an Urgent read behind it and that is
suspended, a page being read or programmed, a brown-out. -/
def fd (op blk page urgent : Nat) : BitVec 256 := BitVec.ofNat 256 (op * 2 ^ 24 + urgent * 2 ^ 16 + blk * 2 ^ 32 + page * 2 ^ 48)
def flashy (f : Flash) : State := { State.reset with flash := f }
theorem witness_flash :
    (let s := flashy {};
      s.flash.op = none ∧ s.flash.erase = none ∧ s.flash.queue = [] ∧ s.flash.held = [] ∧ resetting s 4 = false ∧
        s.lc.state ≠ 3 ∧ ({ State.reset.lc with state := 1 } : Lc).state = 1 ∧ (∀ n ∈ [1, 2, 3],
          flashRefusal s { d := fd n 9 0 0, tag := (agentTag agCore s).1 } = none ∧ ({ d := fd n 9 0 0 } : FlashDesc).op = n) ∧
        (flashRefusal s { d := fd 2 9 63 0, tag := (agentTag agCore s).1 }).isSome = true ∧ (getBlock s 9).state = .free ∧
        (getBlock s 9).eraseCount < param s 0x7000 3 ∧
        (let u := flashy { blocks := [(9, { state := .erasing, eraseCount := 200000 })] };
          param u 0x7000 3 ≤ (getBlock u 9).eraseCount)) ∧
    (let s := flashy { op := some { d := fd 1 9 0 0 } };
      s.flash.op.isSome = true ∧ s.flash.queue.length < 64 ∧ ({ d := fd 1 9 0 0 } : FlashDesc).op = 1 ∧
        ({ d := fd 1 9 0 0 } : FlashDesc).raw = false ∧ (∀ n ∈ [40, 40, 0, 7], n ≤ 40) ∧ (∃ n ∈ [41, 40, 0, 7], 40 < n) ∧
        ({ d := fd 1 9 0 4 } : FlashDesc).noRetry = true) ∧
    (let s := flashy { op := some { d := fd 2 9 63 0 }, queue := [{ d := fd 3 8 0 0 }] };
      s.flash.op = some { d := fd 2 9 63 0 } ∧ ({ d := fd 2 9 63 0 } : FlashDesc).op = 2 ∧ s.flash.erase = none ∧
        s.flash.queue = [{ d := fd 3 8 0 0 }] ∧ ({ d := fd 3 8 0 0 } : FlashDesc).op = 3 ∧ s.flash.brownout = false) ∧
    64 ≤ (flashy { op := some { d := fd 1 9 0 0 }, queue := List.replicate 64 { d := fd 1 9 0 0 } }).flash.queue.length ∧
    (let x : FlashDesc := { d := fd 3 8 0 0 }
      let y : FlashDesc := { d := fd 1 9 0 1 }
      let s := flashy { erase := some x, queue := [y] };
      s.flash.suspended = false ∧ s.flash.op = none ∧ y.urgent = true ∧ y.op = 1 ∧ y.block ≠ x.block ∧ flashRefusal s y = none ∧
        urgentWaits (flashy { erase := some x }) x.block = false ∧
        urgentWaits (flashy { erase := some x, queue := [y], suspended := true }) x.block = true) ∧
    (flashy { brownout := true }).flash.brownout = true ∧ (1 : Nat) ∉ (flashy {}).flash.stalled := by decide +kernel

/-- A first piece of an image; FW_ACTIVATE of an image that is not complete (SHA-256 does not run in the kernel in reasonable
time, so an image that passes is not shown); the swap and the start in each of their states. -/
def eFd : BitVec 512 := ent [(0, 0, 0x0A), (0, 8, 1), (32, 0, 1)]
def eFa : BitVec 512 := ent [(0, 0, 0x0B)]
def activatingAt (n : Nat) : State :=
  holding { cmd eFa with stage := .waiting } (upWith [(0, qp0)]
    { State.reset with fw := { starting := true, activate := some ⟨0, 0, n, 1⟩ } })
def eFl : BitVec 512 := ent [(0, 0, 0x0A), (0, 8, 2), (32, 0, 1)]
theorem witness_firmware :
    Started (on eFd State.reset) 0 opFwDownload (cmd eFd) ∧ (Started (on eFl State.reset) 0 opFwDownload (cmd eFl) ∧
      eDataMode eFl = 2 ∧ (cmd eFl).sg = []) ∧ Started (on eFa State.reset) 0 opFwActivate (cmd eFa) ∧
    (eImageOffset eFd = 0 ∧ eFinal eFd = true ∧ stagedFault (on eFa State.reset) = some 1 ∧
      ([] : List Byte).length = ((cmd eFd).sg.map (·.2)).sum ∧ eDataMode eFd ≠ 2 ∧ choosePool (on eFd State.reset) 2 0 ≠ none ∧
      choosePool { on eFd State.reset with bpm := { pools := List.replicate 5 ⟨0, 0, 0, 0, []⟩ } } 2 0 = none) ∧
    stagedFault (activatingAt 4) = some 1 ∧ (∀ r ∈ (activatingAt 4).resets, r.waits = []) ∧ (activatingAt 4).dict.queue = [] ∧
    (activatingAt 4).fw.activate = some ⟨0, 0, 4, 1⟩ ∧ getCmd (activatingAt 4) 0 = some { cmd eFa with stage := .waiting } ∧
    Takes (activatingAt 4) { cmd eFa with stage := .waiting } qp0 ∧ (activatingAt 5).fw.starting = true ∧
    (activatingAt 5).fw.fallbackBoot = false ∧ (activatingAt 5).resets = [] ∧ State.reset.fw.starting = false ∧
    ({ State.reset.fw with starting := true, fallbackBoot := true } : Fw).fallbackBoot = true :=
  ⟨started_on (by decide +kernel) rfl rfl, ⟨started_on (by decide +kernel) rfl rfl, by decide +kernel, rfl⟩,
    started_on (by decide +kernel) rfl rfl, by decide +kernel, by decide +kernel, (fun _ h => nomatch h), rfl, rfl, rfl, ⟨rfl, rfl, rfl, rfl, rfl, rfl, rfl, rfl⟩, rfl, rfl, rfl, rfl, rfl⟩

/-- Two events of different priority in both queues; the log with one entry at the reader's index; EVQ-H armed. -/
def ev2 : State := raise 0x7C0 [] (raise 0x610 [] State.reset)
theorem witness_events : State.reset.ev.host = [] ∧ ev2.ev.host ≠ [] ∧ ev2.ev.mgmt ≠ [] ∧ ev2.ev.log.length < 1024 ∧
    (let s := after (.eventLogCopy (tagParity ((ev2.ev.mgmt.head?.map (·.bits)).getD 0))) ev2; ∀ x ∈ s.ev.log.head?, s.ev.log = [x] ∧ x.1 = (getFn s 0).logIdx ∧ x.1 < 0xFFFFFFFF) ∧
    ({ State.reset.ev with armed := true } : Ev).armed = true ∧ (Tab.getD (getFn State.reset 0).msix 1 {}).masked = true ∧
    Tab.get? State.reset.staxa.sessions 7 = none := by decide +kernel

/-- A domain with no reset and one in reset; the lengths of SYSRST# and PORST# at their limits; the device idle in each state,
with bytes held and none; an entry under way. -/
theorem witness_power :
    (let s := { State.reset with resets := [{ code := 1, cause := 5 }] };
      domainCode 1 = true ∧ hostDomain 0x80 = true ∧ (∀ r ∈ State.reset.resets, r.code ≠ 1) ∧
        poweredDown State.reset 1 = false ∧ poweredDown { State.reset with pwr := { now := 3 } } 2 = true ∧ s.dict.queue = [] ∧ s.lc.state ≠ 4 ∧
        (∀ r ∈ s.resets, r.waits = [] ∧ r.deferred = false) ∧ ∀ x ∈ s.resets, x.code = 1 → x = { code := 1, cause := 5 }) ∧
    (19 < 20 ∧ 99 < 100 ∧ 10000 ≤ 10000) ∧
    (let s := State.reset;
      idle s = true ∧ s.pwr.goal = none ∧ 3 ≤ powerMax s ∧ timersOn s 3 = true ∧ bytesHeld s = false ∧
        bytesHeld { s with wr := { filling := some ds0 } } = true ∧ idle { s with wr := { filling := some ds0 } } = true) ∧
    (let s := { State.reset with dict := { vals := [(entryKey 0x8200 3, [0#8, 0#8, 0#8, 0#8])] } }; timersOn s 1 = false) ∧
    (let s := { State.reset with pwr := { goal := some 1 } }; s.pwr.goal = some 1 ∧ s.pwr.wake = false) ∧
    powerMax { State.reset with dict := { vals := [(entryKey 0x8200 2, [0#8])] } } = 0 := by decide +kernel

/-- A token without a challenge drawn (one that passes rests on the serial number and on a signature, which nothing in the kernel
evaluates); a transition whose fuses are being read back; JTAG and UART, open and closed. -/
theorem witness_lifecycle : State.reset.lc.state ≠ 4 ∧ (List.replicate 116 0#8).length = 116 ∧
    (tokenFault State.reset 2 (List.replicate 116 0#8)).isSome = true ∧
    (let j : LcJob := { target := 1, triple := some 0, oldState := 0 };
      ({ State.reset with lc := { job := some j } }).lc.job = some j ∧ j.src = .row ∧ j.tries < 3 ∧
        3 ≤ ({ j with tries := 3 } : LcJob).tries) ∧
    jtagOpen State.reset .idcode = true ∧ jtagOpen { State.reset with lc := { state := 2 } } .coreDebug = false ∧
    debugOpen State.reset = true ∧ debugOpen { State.reset with lc := { state := 2 } } = false := by decide +kernel

/-! ## Operands that are refused as ill-formed -/

def bad (e : IndexEntry) : Checkpoint := ⟨1, 0, 0, none, 0, false, 0, [e]⟩
theorem test_ill_formed :
    ([.registerWrite 0 2 false 0, .registerWrite 0 4 true 0, .registerLowWordRead 0 4 true, .registerLowWordRead 0 2 false,
      .hostDataReadDone 0 .data 163840 [] [], .vfEnableSet 0, .dictWrite 0 (List.replicate 1025 0#8), .keyLoad 0 [], .loadScan (.eod (2 ^ 40)),
      .loadScan (.header [] none), .loadScan (.damaged (some [0#8])), .loadIndexRead [] (some [0#8]) none [], .loadIndexRead [] none (some []) [],
      .loadIndexRead [] none none [bad (.extent ⟨true, true, false, 2 ^ 14, 0, 1, 0, 0, 1⟩)], .loadIndexRead [] none none [bad (.reloc ⟨0, 2 ^ 40, 0, 0⟩)],
      .loadIndexRead [] none none [bad (.moth ⟨0, 0, 0, 1, 0, 0, 96⟩)], .loadIndexRead [] none none [bad (.stream ⟨false, 0, 0, 0, false, 0, 0⟩)],
      .journalCheck [⟨0, [], false, [none], []⟩],
      .journalCheck [⟨0, [], false, [none, none, some []], []⟩], .journalCheck [⟨0, [], false, [none, none, none], [(5, { sr false with slot := 99 })]⟩],
      .intakeDataArrival 0 0, .counterRetire [], .readAgeLimit (2 ^ 40), .datasetEncodeComplete 0 (some (128, 0)) [], .alloc [],
      .alloc [⟨0x10, 0, 0, 0, 0⟩], .slotStart [3, 3] [], .sectorVerdict (2 ^ 40) 0 0 (sr false), .verifyLate (2 ^ 40) 0 0,
      .sectorReport 0 { sr false with slot := 99 }, .sectorReport 0 { sr false with c1 := [⟨[], [], 1⟩] },
      .sectorReport 0 { sr false with finePhase := 257 }, .sectorReport 0 { sr false with samples := [⟨64, 0⟩] },
      .sectorReport 0 { sr false with samples := [⟨0, -32⟩] },
      .aslStatusFrame ⟨16, 0, 0, 0, 0, 0⟩, .headFrontStatus ⟨0, 16, 0, 0, 0, 0⟩, .staxaKeyWrite 0 [],
      .staxaRequest 0 0 (List.replicate 65 ⟨1, 0, 0, []⟩) 0,
      .staxaRequest 0 0 [⟨256, 0, 0, []⟩] 0, .flashReadDone [List.replicate 9 0] (List.replicate 8 0#8), .flashReadDone [] [],
      .eventLogRead (2 ^ 32), .domainResetWrite true 6, .domainReady 0x7F true, .powerStateRequest 4, .lcRequest 0 [],
      .fetchReadReturn 0 0 (List.replicate 5 0)] : List Instr).all (fun i => !i.wf) = true := by decide +kernel

/-! ## Single steps -/

/-- An idle step is one nanosecond of TIME; a command waiting is taken from the front. -/
theorem test_idle_ticks : (match step State.reset with | .next t => t.time | _ => 0) = 1#64 := by decide +kernel
theorem test_front_first :
    (match step { State.reset with pending := [.evqArm, .evqLostClear] } with | .next t => (t.pending, t.ev.armed) | _ => ([], false)) =
      ([.evqLostClear], true) := by decide +kernel

/-- CRC-32C of "123456789" (the check value of the code that R215 names). -/
theorem test_crc32c : crc32c [0x31#8, 0x32#8, 0x33#8, 0x34#8, 0x35#8, 0x36#8, 0x37#8, 0x38#8, 0x39#8] = 0xE3069283#32 := by
  decide +kernel

/-- R54, R58: a tail doorbell within the depth is stored; one beyond it is a fatal error of the function. -/
theorem test_doorbell_kept : ((getQp (after (.sqTailDoorbell 0 0 15) up) 0 0).map (·.sqTail)) = some 15 := by decide +kernel
theorem test_doorbell_bad : ((getQp (after (.sqTailDoorbell 0 0 16) up) 0 0).map (·.sqTail)) = some 0 := by decide +kernel

/-- R188, R191: the smallest pool that fits; a second FREE is BUF_DOUBLE_FREE. -/
theorem test_alloc_smallest : (choosePool State.reset 0 256, choosePool State.reset 0 257) = (some 0, some 1) := by decide +kernel
theorem test_double_free :
    let s : State := { State.reset with bpm := { bufs := [(0, { owner := 0x10, count := 1 })] } }
    ((after (.free 0x10 0 0 0 0) (after (.free 0x10 0 0 0 0) s)).bpm.answers.map (·.code)) = [.bufDoubleFree, .done] := by decide +kernel

/-- R538: the entry of the higher priority leaves EVQ-H first, though it came later. -/
theorem test_event_priority :
    (let a : EvEntry := { bits := 2#128 <<< 115 }
     let b : EvEntry := { bits := 1#128 <<< 115 }
     let s := { State.reset with ev := { host := [a, b] } };
     (a.prio, b.prio, (after (.evqPop (tagParity b.bits)) s).ev.host) = (2, 1, [a])) := by decide +kernel

/-- R467: motion only from HOLD or MOVING; R585: a low of PORST# that is too short for a reset stops the model. -/
theorem test_motion : ((after (.motionRequest 4) (tape .off)).tce.state, (after (.motionRequest 4) (tape .hold)).tce.state) =
    (.off, .moving) := by decide +kernel
theorem test_porst_short : (match exec (.porst 9999) State.reset with | .fault _ => true | _ => false) = true := by decide +kernel
theorem test_porst_restarts_time : (after (.porst 10000) { State.reset with time := 77 }).time = 0#64 := by decide +kernel

/-- R284: dataset 2,000,000 of the reference cartridge; R282 backwards. -/
theorem test_leading_edge :
    (placeOf 96 20555 2000000, leadingEdge 7000128 552365424 99 6165 40, numberAt 96 20555 99 6165) = ((99, 6165), 388784924, 2000000) := by
  decide +kernel

/-- R291, R292: the check value of the header CRC, and the first outputs of the scrambler for channel 5, slot 40. -/
theorem test_crc16 : crc16 [0x31#8, 0x32#8, 0x33#8, 0x34#8, 0x35#8, 0x36#8, 0x37#8, 0x38#8, 0x39#8] = 0x29B1#16 := by decide +kernel
theorem test_scrambler : scramble (scramblerSeed 5 40) (List.replicate 16 false) = msbBits 16 0x4078 := by decide +kernel

/-- R380, R381: the example of channel 127, whose learned offset is -118,416; the tilt term at a tangent of 0.0999976. -/
theorem test_predicted :
    (let s := { State.reset with dict := { vals := [(entryKey 0x407F 17, [0x70#8, 0x31#8, 0xFE#8, 0xFF#8])] } }
     predictFlat s 127 99 388784924 = 64 * 24882235088 + 118416) ∧
    trackOffset 127 99 = 4 * 2538370 + 3 ∧ tiltTerm (trackOffset 127 99) (64 * 12281) 2750000 = some 729116 := by decide +kernel

/-- R316: the example of a payload with only its first bit set. -/
theorem test_c1 : (let p := c1Parity (0x80#8 :: List.replicate 1887 0#8);
    ([0, 16, 32, 43, 80, 85, 91, 112, 113, 117, 123].map fun i => p.getD i 0) =
      [0x80#8, 0x80#8, 0x80#8, 0x02#8, 0x80#8, 0x10#8, 0x02#8, 0x80#8, 0x40#8, 0x10#8, 0x02#8]) := by decide +kernel

/-- R289: the content bits of the header found in the samples spell it. -/
theorem test_header :
    ((triesOf sw 5 12 (sr true) (detected reading 5 (sr true).samples)).map fun y => headerOf y.content) = [sh] := by
  decide +kernel

end Sys2Proof.Tests
end

section
/-! SUPPORT. What the data path leaves of the firmware: an operation that ends no command leaves it as it is, and the end of a
command may end the activation that is running (R103), which its `PostAct.activated` does. -/

namespace Sys2Proof.Machine

/-- What each step of a fold keeps, the fold keeps. -/
theorem foldl_keeps {α β : Type} (g : State → β) {f : State → α → State} (hf : ∀ t a, g (f t a) = g t) (l : List α) (s : State) :
    g (l.foldl f s) = g s := by
  induction l generalizing s with
  | nil => rfl
  | cons a l ih => exact (ih (f s a)).trans (hf s a)

@[simp] theorem foldl_fw {α : Type} {f : State → α → State} (hf : ∀ t a, (f t a).fw = t.fw) (l : List α) (s : State) :
    (l.foldl f s).fw = s.fw :=
  foldl_keeps State.fw hf l s

@[simp] theorem ite_fw (p : Prop) [Decidable p] (a b : State) : (if p then a else b).fw = if p then a.fw else b.fw :=
  apply_ite ..

/-! Queues and commands. -/

@[simp] theorem enterCart_fw (now : CartState) (s : State) : (enterCart now s).fw = s.fw := by simp [enterCart]
@[simp] theorem endFormat_fw (ok : Option Bool) (s : State) : (endFormat ok s).fw = s.fw := by
  unfold endFormat; split <;> simp
@[simp] theorem updQp_fw (f q : Nat) (g : Qp → Qp) (s : State) : (updQp f q g s).fw = s.fw := by unfold updQp; split <;> rfl
@[simp] theorem unbindKey_fw (n : Nat) (s : State) : (unbindKey n s).fw = s.fw := rfl
@[simp] theorem retireOwn_fw (c : Cmd) (s : State) : (retireOwn c s).fw = s.fw := by simp [retireOwn]
@[simp] theorem setStage_fw (slot : Nat) (st : Stage) (s : State) : (setStage slot st s).fw = s.fw := by simp [setStage]
@[simp] theorem onPost_fw (slot : Nat) (a : PostAct) (s : State) : (onPost slot a s).fw = s.fw := by simp [onPost]
@[simp] theorem noteInfo_fw (slot : Nat) (st : Status) (s : State) : (noteInfo slot st s).fw = s.fw := by simp [noteInfo]
@[simp] theorem retag_fw (tag : BitVec 128) (id : Nat) (s : State) : (retag tag id s).fw = s.fw := by simp [retag]
@[simp] theorem raiseIf_fw (b : Bool) (src : Nat) (items : List (Nat × Nat)) (s : State) :
    (raiseIf b src items s).fw = s.fw := by
  simp [raiseIf]
@[simp] theorem recordNumOf_fw (given : Option Nat) (s : State) : (recordNumOf given s).2.fw = s.fw := by
  unfold recordNumOf; split <;> rfl
@[simp] theorem agentTag_fw (agent : Nat) (s : State) : (agentTag agent s).2.fw = s.fw := rfl
@[simp] theorem toHostMem_fw (slot : Nat) (record : Bool) (bytes : List Byte) (s : State) :
    (toHostMem slot record bytes s).fw = s.fw := by
  unfold toHostMem; split <;> simp

/-! Buffers and the DRAM. -/

@[simp] theorem updPool_fw (p : Nat) (g : Pool → Pool) (s : State) : (updPool p g s).fw = s.fw := rfl
@[simp] theorem quarantine_fw (p i : Nat) (s : State) : (quarantine p i s).fw = s.fw := by simp [quarantine]
@[simp] theorem quarantineFree_fw (l : List (Nat × Nat)) (s : State) : (quarantineFree l s).fw = s.fw := by
  simp [quarantineFree]
@[simp] theorem listRow_fw (row : Nat) (s : State) : (listRow row s).fw = s.fw := by simp [listRow]
@[simp] theorem uncorrected_fw (addr : Nat) (s : State) : (uncorrected addr s).fw = s.fw := by simp [uncorrected]
@[simp] theorem countCe_fw (s : State) : (countCe s).fw = s.fw := by simp [countCe]
@[simp] theorem corrected_fw (addr : Nat) (s : State) : (corrected addr s).fw = s.fw := by simp [corrected]
@[simp] theorem eccReads_fw (l : List EccWord) (s : State) : (eccReads l s).fw = s.fw := by simp [eccReads]
@[simp] theorem throttle_fw (s : State) : (throttle s).fw = s.fw := rfl
@[simp] theorem updAbove_fw (s : State) : (updAbove s).fw = s.fw := by simp [updAbove]
@[simp] theorem answer_fw (owner : Nat) (a : Response) (id : Option Nat) (tag : BitVec 128) (s : State) :
    (answer owner a id tag s).fw = s.fw :=
  rfl
@[simp] theorem misuse_fw (a : Response) (src owner id : Nat) (tag : BitVec 128) (s : State) :
    (misuse a src owner id tag s).fw = s.fw := by
  simp [misuse]
@[simp] theorem returnBuf_fw (id : Nat) (s : State) : (returnBuf id s).fw = s.fw := by simp [returnBuf]
@[simp] theorem dropRef_fw (id : Nat) (s : State) : (dropRef id s).fw = s.fw := by unfold dropRef; split <;> simp
@[simp] theorem freeReq_fw (owner id : Nat) (tag : BitVec 128) (s : State) : (freeReq owner id tag s).fw = s.fw := by
  unfold freeReq; split <;> simp
@[simp] theorem freeOwn_fw (owner id : Nat) (tag : BitVec 128) (s : State) : (freeOwn owner id tag s).fw = s.fw := by
  unfold freeOwn; split <;> simp
@[simp] theorem freeHeld_fw (id : Nat) (tag : BitVec 128) (s : State) : (freeHeld id tag s).fw = s.fw := by
  unfold freeHeld; split <;> simp
@[simp] theorem freeOpt_fw (id : Option Nat) (tag : BitVec 128) (s : State) : (freeOpt id tag s).fw = s.fw := by
  unfold freeOpt; split <;> simp
@[simp] theorem giveReq_fw (owner id newOwner : Nat) (tag : BitVec 128) (s : State) :
    (giveReq owner id newOwner tag s).fw = s.fw := by
  unfold giveReq; split <;> simp
@[simp] theorem giveOwn_fw (owner id newOwner : Nat) (tag : BitVec 128) (s : State) :
    (giveOwn owner id newOwner tag s).fw = s.fw := by
  unfold giveOwn; split <;> simp
@[simp] theorem dropHeld_fw (id : Option Nat) (s : State) : (dropHeld id s).fw = s.fw := by unfold dropHeld; split <;> rfl
@[simp] theorem takeBuf_fw (owner p : Nat) (s : State) : (takeBuf owner p s).1.fw = s.fw := by simp [takeBuf]
@[simp] theorem holdReq_fw (owner cls size : Nat) (tag : BitVec 128) (s : State) :
    (holdReq owner cls size tag s).1.fw = s.fw := by
  unfold holdReq
  dsimp only
  split <;> simp

@[simp] theorem askBuf_fw (owner size : Nat) (tag : BitVec 128) (s : State) : (askBuf owner size tag s).1.fw = s.fw := by
  unfold askBuf; split <;> simp

/-! The Record Packer and the compression engines. -/

@[simp] theorem setJob_fw (slot : Nat) (w : WriteJob) (s : State) : (setJob slot w s).fw = s.fw := by simp [setJob]
@[simp] theorem runSettled_fw (n : Nat) (s : State) : (runSettled n s).fw = s.fw := rfl
@[simp] theorem noRun_fw (e : BitVec 512) (s : State) : (noRun e s).fw = s.fw := by simp [noRun]
@[simp] theorem setEngine_fw (e : Nat) (v : Engine) (s : State) : (setEngine e v s).fw = s.fw := rfl
@[simp] theorem saveLane_fw (e : Nat) (s : State) : (saveLane e s).fw = s.fw := by
  unfold saveLane
  dsimp only
  split <;> simp

@[simp] theorem setBlk_fw (b : Nat) (v : Blk) (s : State) : (setBlk b v s).fw = s.fw := rfl
@[simp] theorem putOnEngine_fw (e : Nat) (b : Blk) (s : State) : (putOnEngine e b s).fw = s.fw := rfl
@[simp] theorem dispatch_fw (e : Nat) (s : State) : (dispatch e s).fw = s.fw := by
  unfold dispatch
  dsimp only
  split
  · rfl
  split
  · rfl
  split
  · exact saveLane_fw ..
  split
  · rfl
  · split <;> rfl

@[simp] theorem dispatchAll_fw (s : State) : (dispatchAll s).fw = s.fw := foldl_fw (fun _ _ => dispatch_fw ..) ..
@[simp] theorem cutBlock_fw (n : Nat) (s : State) : (cutBlock n s).fw = s.fw := by
  unfold cutBlock
  split
  · rfl
  · split <;> simp

@[simp] theorem cutFull_fw (n : Nat) (s : State) : (cutFull n s).fw = s.fw := by unfold cutFull; split <;> simp
@[simp] theorem dropRun_fw (n seq : Nat) (s : State) : (dropRun n seq s).fw = s.fw := rfl
@[simp] theorem closeRecords_fw (n : Nat) (nums : List Nat) (s : State) : (closeRecords n nums s).fw = s.fw := rfl
@[simp] theorem lessLeft_fw (b n : Nat) (s : State) : (lessLeft b n s).fw = s.fw := by simp [lessLeft]
@[simp] theorem freeIntake_fw (w : WriteJob) (tag : BitVec 128) (s : State) : (freeIntake w tag s).fw = s.fw := by
  simp [freeIntake]
@[simp] theorem giveIntake_fw (w : WriteJob) (tag : BitVec 128) (s : State) : (giveIntake w tag s).fw = s.fw := by
  simp [giveIntake]
@[simp] theorem consumeSrc_fw (src : List (Nat × Nat × Nat)) (tag : BitVec 128) (s : State) :
    (consumeSrc src tag s).fw = s.fw := by
  simp [consumeSrc]
@[simp] theorem freeRefs_fw (refs : List WinRef) (tag : BitVec 128) (s : State) : (freeRefs refs tag s).fw = s.fw := by
  simp [freeRefs]
@[simp] theorem dropLanes_fw (n : Nat) (s : State) : (dropLanes n s).fw = s.fw := by simp [dropLanes]
@[simp] theorem dropBlk_fw (s : State) (x : Blk) : (dropBlk s x).fw = s.fw := by
  have hf : ∀ (t : State) (p : Nat × Engine), (setEngine p.1 { getEngine t p.1 with busy := none } t).fw = t.fw :=
    fun _ _ => setEngine_fw ..
  simp [dropBlk, foldl_fw hf]

/-! Reads. -/

@[simp] theorem giveLens_fw (slot : Nat) (c : Cmd) (lens : List Nat) (s : State) : (giveLens slot c lens s).fw = s.fw := by
  simp [giveLens]
@[simp] theorem addInfo_fw (slot info : Nat) (s : State) : (addInfo slot info s).fw = s.fw := by simp [addInfo]
@[simp] theorem knownOr_fw (v : Option Nat) (s : State) : (knownOr v s).2.fw = s.fw := by unfold knownOr; split <;> rfl
@[simp] theorem knownAll_fw (l : List (Option Nat)) (s : State) : (knownAll l s).2.fw = s.fw := by
  induction l generalizing s with
  | nil => rfl
  | cons v l ih => exact (ih (knownOr v s).2).trans (knownOr_fw v s)

@[simp] theorem cutWanted_fw (s : State) : (cutWanted s).fw = s.fw := by
  refine foldl_fw (fun t p => ?_) ..
  split
  · dsimp only
    split <;> simp
  · rfl

@[simp] theorem freeTape_fw (s : State) (b : TapeBlk) : (freeTape s b).fw = s.fw := by simp [freeTape]
@[simp] theorem clearReads_fw (s : State) : (clearReads s).fw = s.fw := by
  unfold clearReads
  dsimp only
  split <;> simp

/-! The Dataset Builder and drains. -/

@[simp] theorem openInBuf_fw (buf cont : Nat) (tag : BitVec 128) (s : State) : (openInBuf buf cont tag s).fw = s.fw := rfl
@[simp] theorem openDataset_fw (cont : Nat) (tag : BitVec 128) (s : State) : (openDataset cont tag s).fw = s.fw := by
  unfold openDataset
  split
  · rfl
  · dsimp only
    split <;> simp

@[simp] theorem closeDataset_fw (pad : Bool) (s : State) : (closeDataset pad s).fw = s.fw := by
  unfold closeDataset; split <;> rfl
@[simp] theorem drainClose_fw (d : Drain) (s : State) : (drainClose d s).fw = s.fw := by
  unfold drainClose
  extract_lets waits here padded t
  have ht : t.fw = s.fw := closeDataset_fw ..
  split
  · split <;> simp [ht]
  · rfl

@[simp] theorem drainCuts_fw (d : Drain) (s : State) : (drainCuts d s).fw = s.fw := by simp [drainCuts]
@[simp] theorem pushDrains_fw (s : State) : (pushDrains s).fw = s.fw := by simp [pushDrains]
@[simp] theorem closeDrained_fw (s : State) : (closeDrained s).fw = s.fw := by simp [closeDrained]
@[simp] theorem failStream_fw (err : DrainErr) (n : Nat) (nums : List Nat) (s : State) :
    (failStream err n nums s).fw = s.fw := by
  unfold failStream; split <;> simp
@[simp] theorem closeStream_fw (n : Nat) (s : State) : (closeStream n s).fw = s.fw := by unfold closeStream; split <;> simp
@[simp] theorem closeEnded_fw (s : State) : (closeEnded s).fw = s.fw := by simp [closeEnded]
@[simp] theorem endPowerDrain_fw (s : State) : (endPowerDrain s).fw = s.fw := by unfold endPowerDrain; split <;> simp
@[simp] theorem forgetDs_fw (id : Nat) (s : State) : (forgetDs id s).fw = s.fw := rfl

/-! Operations that may end a command. -/

/-- `v` is the firmware `w`, but for an activation that may have ended (R103). -/
def FwKept (w v : Fw) : Prop := v = w ∨ v = { w with activate := none }

theorem FwKept.refl (w : Fw) : FwKept w w := .inl rfl

/-- The end of the activation once more, or for the first time. -/
theorem FwKept.ended {w v : Fw} (h : FwKept w v) : FwKept w { v with activate := none } := by
  obtain rfl | rfl := h
  · exact .inr rfl
  · exact .inr rfl

theorem FwKept.foldl {w : Fw} {α : Type} {f : State → α → State} {l : List α} {s : State} (h : FwKept w s.fw)
    (hf : ∀ t a, FwKept w t.fw → FwKept w (f t a).fw) : FwKept w (l.foldl f s).fw := by
  induction l generalizing s with
  | nil => exact h
  | cons a l ih => exact ih (hf s a h)

section
variable {w : Fw} {s : State}

theorem PostAct.apply_fwKept (h : FwKept w s.fw) (a : PostAct) : FwKept w (a.apply s).fw := by
  cases a with
  | activated => exact h.ended
  | openFailed n key =>
    cases key with
    | none => exact h
    | some k => simpa [PostAct.apply] using h
  | _ => simpa [PostAct.apply] using h

theorem dropCmd_fwKept (h : FwKept w s.fw) (slot : Nat) : FwKept w (dropCmd slot s).fw := by
  unfold dropCmd
  split
  · exact h
  · extract_lets _ s1
    have h1 : FwKept w s1.fw := FwKept.foldl h fun _ a ht => PostAct.apply_fwKept ht a
    simpa using h1

theorem issueCpl_fwKept (h : FwKept w s.fw) (f q : Nat) (x : HeldCpl) : FwKept w (issueCpl f q x s).fw := by
  unfold issueCpl
  split
  · exact h
  · dsimp only
    split
    · exact dropCmd_fwKept (by simpa using h) _
    · simpa using h

theorem postCpl_fwKept (h : FwKept w s.fw) (f q : Nat) (x : HeldCpl) : FwKept w (postCpl f q x s).fw := by
  unfold postCpl
  split
  · exact h
  · split
    · exact issueCpl_fwKept h ..
    · dsimp only
      split
      · simpa using h
      · exact h

theorem complete_fwKept (h : FwKept w s.fw) (slot : Nat) (cpl : Cmd → Cpl) (e : ErrInfo) :
    FwKept w (complete slot cpl e s).fw := by
  unfold complete
  split
  · exact h
  split
  · exact h
  split
  · exact dropCmd_fwKept h _
  split
  · exact dropCmd_fwKept h _
  split
  · exact dropCmd_fwKept h _
  · exact postCpl_fwKept (by simpa using h) ..

theorem finish_fwKept (h : FwKept w s.fw) (slot : Nat) (st : Status) (block : Nat) :
    FwKept w (finish slot st block s).fw :=
  complete_fwKept h ..

theorem finishWith_fwKept (h : FwKept w s.fw) (slot : Nat) (st : Status) (spec : List (Nat × Nat)) (block : Nat) :
    FwKept w (finishWith slot st spec block s).fw :=
  complete_fwKept h ..

/-! WRITEs. -/

theorem finishWrite_fwKept (h : FwKept w s.fw) (slot : Nat) (st : Option Status) (e : ErrInfo) :
    FwKept w (finishWrite slot st e s).fw := by
  unfold finishWrite
  split
  · exact h
  · split
    · extract_lets _ _ _ _ s1 last s2 num ds
      have h2 : FwKept w num.2.fw := by simpa [num, s2, s1] using h
      have hd : ds.2.fw = num.2.fw := by
        subst ds
        split
        · rfl
        · clear_value last
          split <;> rfl
      exact complete_fwKept (hd ▸ h2) ..
    · exact h

theorem checkWrite_fwKept (h : FwKept w s.fw) (slot : Nat) : FwKept w (checkWrite slot s).fw := by
  unfold checkWrite
  split
  · exact h
  · split
    · split
      · exact h
      split
      · exact h
      · exact finishWrite_fwKept h ..
    · exact h

theorem checkWrites_fwKept (h : FwKept w s.fw) : FwKept w (checkWrites s).fw :=
  FwKept.foldl h fun _ _ ht => checkWrite_fwKept ht _

theorem stopWrite_fwKept (h : FwKept w s.fw) (slot : Nat) (st : Status) (e : ErrInfo) :
    FwKept w (stopWrite slot st e s).fw := by
  unfold stopWrite
  split
  · exact h
  · split
    · extract_lets n r s1 s2
      have h1 : s1.fw = s.fw := by
        subst s1
        split
        · split <;> simp
        · rfl
      exact finishWrite_fwKept (by simpa [s2, h1] using h) ..
    · exact h

theorem stopLost_fwKept (h : FwKept w s.fw) (slot : Nat) (st : Status) (e : ErrInfo) (low : Option Nat) :
    FwKept w (stopLost slot st e low s).fw := by
  unfold stopLost
  split
  · split
    · exact stopWrite_fwKept (by simpa using h) ..
    · exact stopWrite_fwKept h ..
  · exact stopWrite_fwKept h ..

theorem endRun_fwKept (h : FwKept w s.fw) (slot n : Nat) (c : Cmd) (j : WriteJob) : FwKept w (endRun slot n c j s).fw := by
  unfold endRun
  dsimp only
  split
  · exact dropCmd_fwKept (by simpa using h) _
  · simpa using h

/-- `FwKept` for an action of the packer. -/
def PackedFwKept (w : Fw) : Packed → Prop
  | .idle => True
  | .again t => FwKept w t.fw

@[simp] theorem packedFwKept_idle : PackedFwKept w .idle := trivial
@[simp] theorem packedFwKept_again : PackedFwKept w (.again s) ↔ FwKept w s.fw := Iff.rfl

theorem PackedFwKept.ite {p : Prop} [Decidable p] {a b : Packed} (ha : PackedFwKept w a) (hb : PackedFwKept w b) :
    PackedFwKept w (if p then a else b) := by
  split
  · exact ha
  · exact hb

theorem packAct_fwKept (h : FwKept w s.fw) (n : Nat) : PackedFwKept w (packAct n s) := by
  unfold packAct
  split
  · trivial
  split
  · trivial
  split
  · exact h
  refine .ite (endRun_fwKept h ..) ?_
  extract_lets o room len left number grows cutNow cutEntry newBlock starts skip flow fs s1
  have hn : FwKept w (cutNow s).fw := by simpa [cutNow] using h
  have he : FwKept w (cutEntry s).fw := by simpa [cutEntry] using h
  refine .ite he (.ite hn (.ite (.ite h he) (.ite trivial (.ite hn (.ite hn (.ite ?_ (.ite ?_ (.ite ?_ ?_))))))))
  · exact endRun_fwKept (by simpa using h) ..
  · simpa using stopWrite_fwKept h ..
  · have h1 : FwKept w s1.fw := stopWrite_fwKept (by simpa using h) ..
    simpa using h1
  · rw [packedFwKept_again, setJob_fw]
    exact h

theorem packLoop_fwKept (h : FwKept w s.fw) (n k : Nat) : FwKept w (packLoop n k s).fw := by
  induction k generalizing s with
  | zero => exact h
  | succ k ih =>
    unfold packLoop
    split
    · exact h
    · rename_i t e
      exact ih (packedFwKept_again.mp (e ▸ packAct_fwKept h n))

theorem packStream_fwKept (h : FwKept w s.fw) (n : Nat) : FwKept w (packStream n s).fw := by
  unfold packStream
  simpa using packLoop_fwKept h n _

/-! READs and rebuilds. -/

theorem endRead_fwKept (h : FwKept w s.fw) (slot : Nat) (c : Cmd) (e : ErrInfo) (a : ReadAcc) :
    FwKept w (endRead slot c e a s).fw := by
  unfold endRead
  exact complete_fwKept (by simpa using h) ..

theorem endRaw_fwKept (h : FwKept w s.fw) (slot : Nat) (c : Cmd) (e : ErrInfo) (a : RawAcc) :
    FwKept w (endRaw slot c e a s).fw := by
  unfold endRaw
  exact complete_fwKept (by simpa using h) ..

theorem tryRead_fwKept (h : FwKept w s.fw) (slot : Nat) : FwKept w (tryRead slot s).fw := by
  unfold tryRead
  split
  · exact h
  split
  · split
    · exact h
    · dsimp only
      split
      · exact h
      split
      · split
        · exact endRead_fwKept h ..
        · exact h
      · split
        · exact endRaw_fwKept h ..
        · exact h
  · exact h

theorem endReadEarly_fwKept (h : FwKept w s.fw) (slot : Nat) (c : Cmd) (j : ReadJob) (st : Status) (i : ErrInfo) :
    FwKept w (endReadEarly slot c j st i s).fw := by
  unfold endReadEarly
  dsimp only
  split
  · split
    · exact endRead_fwKept h ..
    · exact h
  · split
    · exact endRaw_fwKept h ..
    · exact h

theorem endRebuild_fwKept (h : FwKept w s.fw) (slot : Nat) (j : RebuildJob) (st : Option Status) (e : ErrInfo) :
    FwKept w (endRebuild slot j st e s).fw := by
  unfold endRebuild
  exact complete_fwKept (by simpa using h) ..

theorem rebuildCheck_fwKept (h : FwKept w s.fw) : FwKept w (rebuildCheck s).fw := by
  unfold rebuildCheck
  split
  · exact h
  · extract_lets stop j s1 copies reading finished
    have h1 : FwKept w s1.fw := by simpa [s1] using h
    split
    · exact h1
    · exact endRebuild_fwKept h1 ..

theorem failReads_fwKept (h : FwKept w s.fw) : FwKept w (failReads s).fw := by
  unfold failReads
  split
  · exact h
  · refine FwKept.foldl h fun t slot ht => ?_
    split
    · split
      · extract_lets
        split
        · exact ht
        · exact endReadEarly_fwKept ht ..
      · exact ht
    · exact ht

theorem readsAdvance_fwKept (h : FwKept w s.fw) : FwKept w (readsAdvance s).fw := by
  unfold readsAdvance
  extract_lets s1 s2 s3 needs idle batch urgent _ s4
  have h1 : FwKept w s1.fw := by simpa [s1] using h
  have h2 : FwKept w s2.fw := failReads_fwKept (FwKept.foldl h1 fun _ _ ht => tryRead_fwKept ht _)
  have h3 : FwKept w s3.fw := rebuildCheck_fwKept h2
  simpa [s4] using h3

/-! Datasets and drains. -/

theorem loseFrom_fwKept (h : FwKept w s.fw) (b : Blk) (st : Status) (e : ErrInfo) : FwKept w (loseFrom b st e s).fw := by
  unfold loseFrom
  extract_lets hit bad frags seqs s1 s2
  have h1 : FwKept w s1.fw := by
    refine FwKept.foldl h fun t q ht => ?_
    split
    · split
      · exact ht
      · exact stopLost_fwKept ht ..
    · exact ht
  rw [dispatchAll_fw]
  refine FwKept.foldl (by simpa [s2] using h1) fun t x ht => ?_
  split
  · simpa using ht
  · exact ht

theorem loseAtEnd_fwKept (h : FwKept w s.fw) (b : Blk) : FwKept w (loseAtEnd b s).fw := by
  unfold loseAtEnd
  simpa using loseFrom_fwKept h ..

theorem placeLoop_fwKept (h : FwKept w s.fw) (n : Nat) : FwKept w (placeLoop n s).fw := by
  induction n generalizing s with
  | zero => exact h
  | succ n ih =>
    unfold placeLoop
    split
    · exact h
    split
    · split
      · exact h
      split
      · exact ih (loseAtEnd_fwKept h _)
      · extract_lets t
        have ht : FwKept w t.fw := by simpa [t] using h
        split
        · exact ih ht
        · exact ht
    · extract_lets room streams size k d whole s1 s2 _ s3
      have h3 : FwKept w s3.fw := by simpa [s3, s2, s1] using h
      split
      · exact ih (by simpa using h)
      split
      · exact ih (by simpa using h)
      · exact ih (by simpa using h3)

theorem placeAll_fwKept (h : FwKept w s.fw) : FwKept w (placeAll s).fw :=
  placeLoop_fwKept h _

theorem settleN_fwKept (h : FwKept w s.fw) (n : Nat) : FwKept w (settleN n s).fw := by
  induction n generalizing s with
  | zero => exact h
  | succ n ih => exact ih (by simpa using placeAll_fwKept h)

theorem settle_fwKept (h : FwKept w s.fw) : FwKept w (settle s).fw :=
  readsAdvance_fwKept (checkWrites_fwKept (by simpa using settleN_fwKept h 3))

theorem endCreate_fwKept (h : FwKept w s.fw) (n : Nat) (st : Option (Status × Option Nat)) :
    FwKept w (endCreate n st s).fw := by
  unfold endCreate
  split
  · dsimp only
    split
    · exact complete_fwKept (by simpa using h) ..
    · exact finish_fwKept (by simpa using h) ..
  · split
    · exact h
    · exact h

theorem failDs_fwKept (h : FwKept w s.fw) (d : Dataset) (cause : Status) : FwKept w (failDs d cause s).fw := by
  unfold failDs
  extract_lets streams number s1 s2 s3 again first _ s4 s5 _ s6 s7 keep mark _ s8 _ s9 _ s10
  have h2 : FwKept w s2.fw := by simpa [s2, s1] using h
  have h3 : FwKept w s3.fw := by
    refine FwKept.foldl h2 fun t slot ht => ?_
    split
    · split
      · exact stopLost_fwKept (by simpa using ht) ..
      · exact ht
    · exact ht
  have h5 : FwKept w s5.fw := FwKept.foldl (s := s4) h3 fun _ _ ht => endCreate_fwKept ht ..
  have h7 : FwKept w s7.fw := by simpa [s7, s6] using h5
  have h9 : s9.fw = s8.fw := by
    subst s9
    split
    · simp
    · rfl
  have h10 : FwKept w s10.fw := by simpa [s10, h9] using h7
  exact settle_fwKept (by simpa using h10)

theorem failIfStopped_fwKept (h : FwKept w s.fw) (d : Drain) : FwKept w (failIfStopped d s).fw := by
  unfold failIfStopped
  split
  · exact FwKept.foldl h fun _ _ ht => failDs_fwKept ht ..
  split
  · exact FwKept.foldl h fun _ _ ht => failDs_fwKept ht ..
  · exact h

end
end Sys2Proof.Machine
end

section
/-! SUPPORT. The host's data commands leave the control side alone, and the firmware but for the end of an activation. -/

namespace Sys2Proof.Machine

/-! Memory errors met while a command starts change no command. -/

@[simp] theorem ite_cmds (p : Prop) [Decidable p] (a b : State) :
    (if p then a else b).host.cmds = if p then a.host.cmds else b.host.cmds :=
  apply_ite (fun t : State => t.host.cmds) ..
@[simp] theorem foldl_cmds {α : Type} {f : State → α → State} (hf : ∀ t a, (f t a).host.cmds = t.host.cmds) (l : List α)
    (s : State) : (l.foldl f s).host.cmds = s.host.cmds :=
  foldl_keeps (fun t => t.host.cmds) hf l s

@[simp] theorem updPool_cmds (p : Nat) (g : Pool → Pool) (s : State) : (updPool p g s).host.cmds = s.host.cmds := rfl
@[simp] theorem quarantine_cmds (p i : Nat) (s : State) : (quarantine p i s).host.cmds = s.host.cmds := by simp [quarantine]
@[simp] theorem quarantineFree_cmds (l : List (Nat × Nat)) (s : State) : (quarantineFree l s).host.cmds = s.host.cmds := by
  simp [quarantineFree]
@[simp] theorem listRow_cmds (row : Nat) (s : State) : (listRow row s).host.cmds = s.host.cmds := by simp [listRow]
@[simp] theorem uncorrected_cmds (addr : Nat) (s : State) : (uncorrected addr s).host.cmds = s.host.cmds := by
  simp [uncorrected]
@[simp] theorem countCe_cmds (s : State) : (countCe s).host.cmds = s.host.cmds := by simp [countCe, raiseIf]
@[simp] theorem corrected_cmds (addr : Nat) (s : State) : (corrected addr s).host.cmds = s.host.cmds := by
  simp [corrected]
@[simp] theorem eccReads_cmds (l : List EccWord) (s : State) : (eccReads l s).host.cmds = s.host.cmds := by
  simp [eccReads]

@[simp] theorem getCmd_eccReads (l : List EccWord) (n : Nat) (s : State) : getCmd (eccReads l s) n = getCmd s n := by
  simp [getCmd]
@[simp] theorem getCmd_answer (owner : Nat) (a : Response) (id : Option Nat) (tag : BitVec 128) (n : Nat) (s : State) :
    getCmd (answer owner a id tag s) n = getCmd s n := rfl

/-- A command that has only started fails with its completion alone: no dictionary operation of it waits. -/
theorem failCmd_of_started {s : State} {slot : Nat} {c : Cmd} (hc : getCmd s slot = some c) (hs : c.stage = .started)
    (st : Status) (e : ErrInfo) : failCmd slot st e s = settle (complete slot (fun c => baseCpl c st) e s) := by
  unfold failCmd
  rw [hc]
  dsimp only
  rw [hs]

/-- The control side of `t` is that of `s`, and the firmware too but for the end of an activation. -/
structure DataKept (s t : State) : Prop where
  ctl : CtlKept s t
  fw : FwKept s.fw t.fw

theorem DataKept.refl (s : State) : DataKept s s := ⟨.refl s, .refl s.fw⟩

section
variable {s0 s : State}

theorem complete_dataKept (h : DataKept s0 s) (slot : Nat) (cpl : Cmd → Cpl) (e : ErrInfo) :
    DataKept s0 (complete slot cpl e s) :=
  ⟨complete_ctlKept h.ctl .., complete_fwKept h.fw ..⟩

theorem finish_dataKept (h : DataKept s0 s) (slot : Nat) (st : Status) (block : Nat) :
    DataKept s0 (finish slot st block s) :=
  complete_dataKept h ..

theorem settle_dataKept (h : DataKept s0 s) : DataKept s0 (settle s) :=
  ⟨settle_ctlKept h.ctl, settle_fwKept h.fw⟩

theorem setStage_dataKept (h : DataKept s0 s) (slot : Nat) (st : Stage) : DataKept s0 (setStage slot st s) :=
  ⟨setStage_ctlKept h.ctl .., (setStage_fw slot st s).symm ▸ h.fw⟩

theorem setJob_dataKept (h : DataKept s0 s) (slot : Nat) (w : WriteJob) : DataKept s0 (setJob slot w s) :=
  setStage_dataKept h slot _

theorem onPost_dataKept (h : DataKept s0 s) (slot : Nat) (a : PostAct) : DataKept s0 (onPost slot a s) :=
  ⟨onPost_ctlKept h.ctl .., (onPost_fw slot a s).symm ▸ h.fw⟩

theorem eccReads_dataKept (h : DataKept s0 s) (l : List EccWord) : DataKept s0 (eccReads l s) :=
  ⟨eccReads_ctlKept h.ctl l, (eccReads_fw l s).symm ▸ h.fw⟩

theorem writeReady_dataKept (h : DataKept s0 s) (slot : Nat) (c : Cmd) (w : WriteJob) :
    DataKept s0 (writeReady slot c w s) := by
  unfold writeReady
  split
  · exact setJob_dataKept h ..
  split
  · exact setJob_dataKept h ..
  split
  · have hj := setJob_dataKept h slot w
    exact complete_dataKept ⟨noRun_ctlKept hj.ctl _, (noRun_fw c.entry _).symm ▸ hj.fw⟩ ..
  · exact setJob_dataKept h ..

theorem beginRead_dataKept (h : DataKept s0 s) {slot : Nat} {c : Cmd} (hc : getCmd s slot = some c)
    (hs : c.stage = .started) (l : List EccWord) : DataKept s0 (beginRead slot l c s) := by
  unfold beginRead
  extract_lets bad s1
  have h1 : DataKept s0 s1 := eccReads_dataKept h l
  split
  · rw [failCmd_of_started (c := c) (by simpa [s1] using hc) hs]
    exact settle_dataKept (complete_dataKept ⟨answer_ctlKept h1.ctl .., h1.fw⟩ ..)
  · split
    · exact settle_dataKept (setStage_dataKept h1 ..)
    · exact finish_dataKept h1 ..

theorem startDrain_dataKept (h : DataKept s0 s) (slot : Nat) (c : Cmd) (j : DrainJob) :
    DataKept s0 (startDrain slot c j s) := by
  unfold startDrain
  extract_lets d s1 opened
  have h1 : DataKept s0 s1 := setStage_dataKept h ..
  have h2 : DataKept s0 (settle (opened.foldl (fun s n => cutBlock n s) s1)) :=
    settle_dataKept ⟨CtlKept.foldl h1.ctl fun _ _ ht => cutBlock_ctlKept ht _, by simpa using h1.fw⟩
  exact ⟨failIfStopped_ctlKept h2.ctl d, failIfStopped_fwKept h2.fw d⟩

theorem failOpen_dataKept (h : DataKept s0 s) (slot : Nat) (c : Cmd) (st : Status) (e : ErrInfo) :
    DataKept s0 (failOpen slot c st e s) := by
  unfold failOpen
  extract_lets n fails
  split
  · split
    · exact complete_dataKept (onPost_dataKept h ..) ..
    · exact complete_dataKept h ..
  · exact complete_dataKept h ..

theorem giveLog_dataKept (h : DataKept s0 s) (slot : Nat) (c : Cmd) (room : Nat) :
    DataKept s0 (giveLog slot c room s) := by
  unfold giveLog
  split
  · exact finish_dataKept h ..
  · exact complete_dataKept ⟨toHostMem_ctlKept h.ctl .., by simpa using h.fw⟩ ..

end

/-- A row of a command that has started and is to run: what its meaning keeps, the row keeps. -/
theorem onCmd_dataKept {s : State} {slot : Nat} {ops : List Nat} {f : Cmd → State → State}
    (hf : ∀ c, getCmd s slot = some c → c.stage = .started → DataKept s (f c s)) : DataKept s (onCmd slot ops f s) := by
  unfold onCmd
  split
  · exact .refl s
  · rename_i c hc
    split
    · rename_i hrun
      split
      · exact finish_dataKept (.refl s) ..
      · split
        · exact .refl s
        · exact hf c hc (by simp_all)
    · exact .refl s

/-- What holds of the next state an outcome answers with. -/
theorem of_next {R : State → Prop} {u t : State} (h : R u) (e : (.next u : Result) = .next t) : R t := by
  cases e
  exact h

section
variable {s t : State}

theorem execWrite_dataKept {slot : SlotId} (e : execWrite slot s = .next t) : DataKept s t := by
  refine of_next (onCmd_dataKept fun c _ _ => ?_) e
  extract_lets
  split
  · exact finish_dataKept (.refl s) ..
  · exact writeReady_dataKept (.refl s) ..

theorem execRead_dataKept {slot : SlotId} {l : List EccWord} (e : execRead slot l s = .next t) : DataKept s t :=
  of_next (onCmd_dataKept fun _ hc hs => beginRead_dataKept (.refl s) hc hs l) e

theorem execReadRaw_dataKept {slot : SlotId} {l : List EccWord} (e : execReadRaw slot l s = .next t) : DataKept s t :=
  of_next (onCmd_dataKept fun _ hc hs => beginRead_dataKept (.refl s) hc hs l) e

theorem execFlush_dataKept {slot : SlotId} (e : execFlush slot s = .next t) : DataKept s t :=
  of_next (onCmd_dataKept fun _ _ _ => startDrain_dataKept (.refl s) ..) e

theorem execStreamCreate_dataKept {slot : SlotId} (e : execStreamCreate slot s = .next t) : DataKept s t := by
  refine of_next (onCmd_dataKept fun c _ _ => ?_) e
  extract_lets n
  split
  · refine complete_dataKept (onPost_dataKept ?_ ..) ..
    exact ⟨(CtlKept.refl s).upd rfl rfl rfl rfl rfl rfl rfl rfl rfl, .refl s.fw⟩
  split
  · exact finish_dataKept (.refl s) ..
  split
  · exact finish_dataKept (onPost_dataKept (.refl s) ..) ..
  · exact setStage_dataKept (.refl s) ..

theorem execStreamOpen_dataKept {slot : SlotId} {l : List EccWord} (e : execStreamOpen slot l s = .next t) :
    DataKept s t := by
  refine of_next (onCmd_dataKept fun c _ _ => ?_) e
  extract_lets e n bad s1
  have h1 : DataKept s s1 := eccReads_dataKept (.refl s) l
  split
  · exact finish_dataKept h1 ..
  split
  · exact finish_dataKept h1 ..
  split
  · exact failOpen_dataKept ⟨answer_ctlKept h1.ctl .., h1.fw⟩ ..
  split
  · exact failOpen_dataKept h1 ..
  · exact complete_dataKept (onPost_dataKept ⟨updStream_ctlKept h1.ctl .., h1.fw⟩ ..) ..

theorem execStreamClose_dataKept {slot : SlotId} (e : execStreamClose slot s = .next t) : DataKept s t := by
  refine of_next (onCmd_dataKept fun c _ _ => ?_) e
  split
  · split
    · exact startDrain_dataKept (.refl s) ..
    · exact finish_dataKept (.refl s) ..
  · exact finish_dataKept (.refl s) ..

theorem execGetLog_dataKept {slot : SlotId} (e : execGetLog slot s = .next t) : DataKept s t := by
  refine of_next (onCmd_dataKept fun c _ _ => ?_) e
  split
  · exact giveLog_dataKept (.refl s) ..
  · exact setStage_dataKept (.refl s) ..

theorem execIntakeDataArrival_dataKept {slot : SlotId} {n : Nat} (e : execIntakeDataArrival slot n s = .next t) :
    DataKept s t := by
  unfold execIntakeDataArrival at e
  split at e
  · exact of_next (.refl s) e
  · split at e
    · rename_i w _
      refine of_next (settle_dataKept ?_) e
      exact ⟨packStream_ctlKept (setJob_ctlKept (giveIntake_ctlKept (.refl s) ..) ..) _,
        packStream_fwKept (by simpa using FwKept.refl s.fw) _⟩
    · exact of_next (.refl s) e

theorem execThrottleRelease_dataKept (e : execThrottleRelease s = .next t) : DataKept s t := by
  unfold execThrottleRelease at e
  split at e
  · exact of_next (.refl s) e
  · refine of_next ?_ e
    exact ⟨(CtlKept.refl s).upd rfl rfl rfl rfl rfl rfl rfl rfl rfl, .refl s.fw⟩

end
end Sys2Proof.Machine
end

section
/-! SUPPORT. What the rows of flash, of the event registers, of the port's own addresses and of the debug ports can reach. -/

namespace Sys2Proof.Machine

/-- The state without what the Flash Controller, the Event Unit, the management port and the debug ports work on: flash, the
Event Unit, health, vectors and other function registers, debug flags, agents' sequence numbers, free draws and outputs. -/
def outside (s : State) : State :=
  { s with drawn := 0, out := [], agentSeq := [], host := { cmds := s.host.cmds }, flash := {}, ev := {},
           lc := { row := s.lc.row, state := s.lc.state }, health := {} }

/-- What is outside these units, field by field. -/
theorem fields_of_outside {s t : State} (h : outside t = outside s) :
    t.cart = s.cart ∧ t.streams = s.streams ∧ t.index = s.index ∧ t.pack = s.pack ∧ t.wr = s.wr ∧ t.rd = s.rd ∧
      t.bpm = s.bpm ∧ t.dram = s.dram ∧ t.cip = s.cip ∧ t.chans = s.chans ∧ t.tlcs = s.tlcs ∧ t.tce = s.tce ∧
      t.dict = s.dict ∧ t.host.cmds = s.host.cmds ∧ t.lc.row = s.lc.row ∧ t.lc.state = s.lc.state ∧ t.pwr = s.pwr ∧
      t.time = s.time ∧ t.fw = s.fw ∧ t.resets = s.resets := by
  simp_all [outside]

theorem emit_outside (o : Out) (s : State) : outside (emit o s) = outside s := rfl

theorem drew_outside (s : State) : outside (drew s) = outside s := rfl

theorem updFn_outside (f : Nat) (g : Fn → Fn) (s : State) : outside (updFn f g s) = outside s := rfl

theorem sendMsix_outside (f v : Nat) (s : State) : outside (sendMsix f v s) = outside s := by
  unfold sendMsix
  extract_lets
  split
  · exact updFn_outside ..
  · exact emit_outside ..

theorem raise_outside (n : Nat) (l : List (Nat × Nat)) (s : State) : outside (raise n l s) = outside s := by
  obtain ⟨v, h | ⟨u, h⟩⟩ := raise_eq n l s
  · rw [h]
    rfl
  · rw [h]
    exact sendMsix_outside 0 1 { s with ev := u }

theorem setCause_outside (n : Nat) (s : State) : outside (setCause n s) = outside s := by
  unfold setCause
  split
  · rfl
  · exact raise_outside ..

/-! The Flash Controller. -/

theorem updBlock_outside (b : Nat) (g : FlashBlock → FlashBlock) (s : State) : outside (updBlock b g s) = outside s := rfl

theorem wornCheck_outside (before : Bool) (s : State) : outside (wornCheck before s) = outside s := by
  unfold wornCheck
  split
  · exact (setCause_outside ..).trans (raise_outside ..)
  · rfl

theorem retireBlock_outside (b : Nat) (s : State) : outside (retireBlock b s) = outside s := by
  unfold retireBlock
  extract_lets v worn s1 _ s2 _ s3
  have h2 : outside s2 = outside s := raise_outside ..
  have h3 : outside s3 = outside s2 := by
    subst s3
    split
    · rfl
    · split
      · rfl
      · split
        · rfl
        · exact raise_outside ..
  exact (wornCheck_outside ..).trans (h3.trans h2)

theorem postFlash_outside (x : FlashDesc) (st retry maxErr total : Nat) (m : BitVec 64) (s : State) :
    outside (postFlash x st retry maxErr total m s) = outside s := by
  unfold postFlash
  extract_lets r s1 _ s2
  have h2 : outside s2 = outside s := by
    subst s2
    split <;> rfl
  split
  · exact h2
  · exact h2

theorem refuseFlash_outside (x : FlashDesc) (st : Nat) (s : State) : outside (refuseFlash x st s) = outside s := by
  unfold refuseFlash
  split
  · exact (postFlash_outside ..).trans (drew_outside s)
  · exact postFlash_outside ..

theorem beginFlash_outside (x : FlashDesc) (s : State) : outside (beginFlash x s) = outside s := by
  unfold beginFlash
  dsimp only
  split
  · split <;> rfl
  · split <;> rfl

theorem flashRun_outside (n : Nat) (s : State) : outside (flashRun n s) = outside s := by
  induction n generalizing s with
  | zero => rfl
  | succ n ih =>
    unfold flashRun
    split
    · rfl
    · extract_lets _ t
      have ht : outside t = outside s := rfl
      split
      · exact (ih _).trans ((refuseFlash_outside ..).trans ht)
      · exact (ih _).trans ((beginFlash_outside ..).trans ht)

theorem flashGo_outside (s : State) : outside (flashGo s) = outside s :=
  flashRun_outside _ (refillFlash s)

theorem submitFlash_outside (x : FlashDesc) (s : State) : outside (submitFlash x s) = outside s :=
  flashGo_outside _

theorem pageUsed_outside (x : FlashDesc) (m : Option (BitVec 64)) (s : State) : outside (pageUsed x m s) = outside s := rfl

theorem eraseOver_outside (s : State) : outside (eraseOver s) = outside s := by
  unfold eraseOver
  split <;> rfl

theorem interruptFlash_outside (s : State) : outside (interruptFlash s) = outside s := by
  unfold interruptFlash
  extract_lets _ s1
  have h1 : outside s1 = outside s := by
    subst s1
    split
    · split
      · exact (postFlash_outside ..).trans ((updBlock_outside ..).trans (pageUsed_outside ..))
      split
      · exact postFlash_outside ..
      · rfl
    · rfl
  split
  · exact (postFlash_outside ..).trans h1
  · exact h1

/-- A descriptor ends and the controller goes on. -/
theorem flashGo_postFlash_outside (x : FlashDesc) (st retry maxErr total : Nat) (m : BitVec 64) (s : State) :
    outside (flashGo (postFlash x st retry maxErr total m s)) = outside s :=
  (flashGo_outside _).trans (postFlash_outside ..)

/-! The rows. -/

section
variable {s t : State}

theorem execFlashRead_outside {d : BitVec 256} (e : execFlashRead d s = .next t) : outside t = outside s :=
  of_next (R := (outside · = outside s)) (submitFlash_outside ..) e

theorem execFlashProgram_outside {d : BitVec 256} (e : execFlashProgram d s = .next t) : outside t = outside s :=
  of_next (R := (outside · = outside s)) (submitFlash_outside ..) e

theorem execFlashErase_outside {d : BitVec 256} (e : execFlashErase d s = .next t) : outside t = outside s :=
  of_next (R := (outside · = outside s)) (submitFlash_outside ..) e

theorem execFlashDiagDescriptor_outside {d : BitVec 256} (e : execFlashDiagDescriptor d s = .next t) :
    outside t = outside s := by
  unfold execFlashDiagDescriptor at e
  split at e <;> cases e
  · exact submitFlash_outside ..
  · rfl

theorem execFlashReadDone_outside {l : List (List Nat)} {m : List Byte} (e : execFlashReadDone l m s = .next t) :
    outside t = outside s := by
  unfold execFlashReadDone at e
  split at e
  · cases e
    rfl
  split at e
  · cases e
    rfl
  extract_lets _ s1 m r at e
  split at e
  · cases e
    exact flashGo_postFlash_outside ..
  split at e
  · extract_lets errs top s2 at e
    split at e <;> cases e
    · exact (flashGo_postFlash_outside ..).trans ((updBlock_outside ..).trans (raise_outside ..))
    · exact flashGo_postFlash_outside ..
  · cases e
    exact (flashGo_postFlash_outside ..).trans ((drew_outside _).trans (raise_outside ..))

theorem execFlashProgramDone_outside {b : Bool} (e : execFlashProgramDone b s = .next t) : outside t = outside s := by
  unfold execFlashProgramDone at e
  split at e
  · cases e
    rfl
  split at e
  · cases e
    rfl
  extract_lets _ s1 at e
  split at e <;> cases e
  · exact flashGo_postFlash_outside ..
  · exact (flashGo_postFlash_outside ..).trans ((retireBlock_outside ..).trans (raise_outside ..))

theorem execFlashEraseDone_outside {b : Bool} (e : execFlashEraseDone b s = .next t) : outside t = outside s := by
  unfold execFlashEraseDone at e
  split at e
  · cases e
    rfl
  extract_lets v s1 pages _ s2 s3 s4 at e
  have h1 : outside s1 = outside s := eraseOver_outside s
  split at e <;> cases e
  · have h4 : outside s4 = outside s1 := by
      subst s4
      split
      · exact retireBlock_outside ..
      · rfl
    exact (flashGo_postFlash_outside ..).trans (h4.trans h1)
  · exact (flashGo_postFlash_outside ..).trans ((retireBlock_outside ..).trans ((raise_outside ..).trans h1))

theorem execEraseSuspend_outside (e : execEraseSuspend s = .next t) : outside t = outside s := by
  unfold execEraseSuspend at e
  split at e
  · cases e
    rfl
  split at e <;> cases e
  · rfl
  · exact flashGo_outside _

theorem execEraseResume_outside (e : execEraseResume s = .next t) : outside t = outside s := by
  unfold execEraseResume at e
  split at e
  · cases e
    rfl
  split at e <;> cases e <;> rfl

theorem execFetchMiss_outside {core : Fin 4} {blk : Fin 2048} {pg : Fin 64} (e : execFetchMiss core blk pg s = .next t) :
    outside t = outside s := by
  unfold execFetchMiss at e
  split at e <;> cases e
  · rfl
  · exact submitFlash_outside ..

theorem execVflBrownout_outside (e : execVflBrownout s = .next t) : outside t = outside s := by
  unfold execVflBrownout at e
  split at e
  · cases e
    rfl
  extract_lets _ s1 s2 gone _ s3 at e
  cases e
  calc outside (flashGo (gone.foldl (fun s x => refuseFlash x 3 s) s3))
      = outside (gone.foldl (fun s x => refuseFlash x 3 s) s3) := flashGo_outside _
    _ = outside s3 := foldl_keeps outside (fun _ _ => refuseFlash_outside ..) ..
    _ = outside s1 := interruptFlash_outside s1
    _ = outside s := raise_outside ..

theorem execBrownoutRelease_outside (e : execBrownoutRelease s = .next t) : outside t = outside s := by
  unfold execBrownoutRelease at e
  split at e <;> cases e
  · exact flashGo_outside _
  · rfl

theorem execEvqPop_outside {w : BitVec 4} (e : execEvqPop w s = .next t) : outside t = outside s := by
  unfold execEvqPop at e
  split at e <;> cases e <;> rfl

theorem execEvqLostClear_outside (e : execEvqLostClear s = .next t) : outside t = outside s := by
  cases e
  rfl

theorem execEvqArm_outside (e : execEvqArm s = .next t) : outside t = outside s := by
  unfold execEvqArm at e
  split at e <;> cases e
  · rfl
  · exact sendMsix_outside ..

theorem execEventLogCopy_outside {w : BitVec 4} (e : execEventLogCopy w s = .next t) : outside t = outside s := by
  unfold execEventLogCopy at e
  split at e <;> cases e <;> rfl

theorem execEventLogRead_host_outside (e : execEventLogRead 0 s = .next t) : outside t = outside s := by
  cases e
  rfl

theorem execArpRequest_outside {a : BitVec 32} (e : execArpRequest a s = .next t) : outside t = outside s := by
  unfold execArpRequest at e
  split at e <;> cases e <;> rfl

theorem execIcmpEcho_outside {v6 : Bool} {a : BitVec 128} {m : List Byte} (e : execIcmpEcho v6 a m s = .next t) :
    outside t = outside s := by
  unfold execIcmpEcho at e
  extract_lets at e
  split at e <;> cases e <;> rfl

theorem execNeighborDiscovery_outside {a : BitVec 128} (e : execNeighborDiscovery a s = .next t) :
    outside t = outside s := by
  unfold execNeighborDiscovery at e
  split at e <;> cases e <;> rfl

theorem execJtagInstruction_outside {j : JtagInstr} (e : execJtagInstruction j s = .next t) : outside t = outside s := by
  unfold execJtagInstruction at e
  split at e
  · dsimp only at e
    split at e <;> cases e
    · exact raise_outside ..
    · rfl
  · cases e
    rfl

theorem execUartRxByte_outside {b : Byte} (e : execUartRxByte b s = .next t) : outside t = outside s := by
  unfold execUartRxByte at e
  split at e
  · cases e
    rfl
  dsimp only at e
  split at e <;> cases e
  · rfl
  · exact raise_outside ..

end
end Sys2Proof.Machine
end

section
/-! The statement of the family 00_scope.md. -/

namespace Sys2Proof.Machine

/-- Settles O60: a data command keeps the control side and, but for the end of an activation, the firmware (`DataKept`); a row
of the other units keeps everything `outside` them. -/
theorem unitsLeaveOthersAlone : Obligations.UnitsLeaveOthersAlone := by
  unfold Obligations.UnitsLeaveOthersAlone
  constructor
  · intro slot n words s t i hi e
    simp only [List.mem_cons, List.not_mem_nil, or_false] at hi
    have h : DataKept s t := by
      rcases hi with rfl | rfl | rfl | rfl | rfl | rfl | rfl | rfl | rfl | rfl
      · exact execWrite_dataKept e
      · exact execRead_dataKept e
      · exact execReadRaw_dataKept e
      · exact execFlush_dataKept e
      · exact execStreamCreate_dataKept e
      · exact execStreamOpen_dataKept e
      · exact execStreamClose_dataKept e
      · exact execGetLog_dataKept e
      · exact execIntakeDataArrival_dataKept e
      · exact execThrottleRelease_dataKept e
    obtain ⟨⟨htime, htlcs, htce, hdict, hstaxa, hflash, hlc, hresets, hhealth⟩, hfw⟩ := h
    exact ⟨htime, htlcs, htce, hdict, hstaxa, hflash, hfw, hlc, hresets, hhealth⟩
  · intro desc w b l m core blk pg v4 v6 j x s t i hi e
    simp only [List.mem_cons, List.not_mem_nil, or_false] at hi
    have h : outside t = outside s := by
      rcases hi with rfl | rfl | rfl | rfl | rfl | rfl | rfl | rfl | rfl | rfl | rfl | rfl | rfl | rfl | rfl | rfl | rfl |
        rfl | rfl | rfl | rfl | rfl
      · exact execFlashRead_outside e
      · exact execFlashProgram_outside e
      · exact execFlashErase_outside e
      · exact execFlashDiagDescriptor_outside e
      · exact execFlashReadDone_outside e
      · exact execFlashProgramDone_outside e
      · exact execFlashEraseDone_outside e
      · exact execEraseSuspend_outside e
      · exact execEraseResume_outside e
      · exact execFetchMiss_outside e
      · exact execVflBrownout_outside e
      · exact execBrownoutRelease_outside e
      · exact execEvqPop_outside e
      · exact execEvqLostClear_outside e
      · exact execEvqArm_outside e
      · exact execEventLogCopy_outside e
      · exact execEventLogRead_host_outside e
      · exact execArpRequest_outside e
      · exact execIcmpEcho_outside e
      · exact execNeighborDiscovery_outside e
      · exact execJtagInstruction_outside e
      · exact execUartRxByte_outside e
    exact fields_of_outside h

end Sys2Proof.Machine
end

section
/-! What every step keeps of the event queues, and the values after reset. -/

namespace Sys2Proof.Machine

/-- Every command but a PORST that is too short answers a next state, which follows calmly. -/
theorem exec_goes {s0 s : State} (h : Calm s0 s) {c : Instr} (hc : Admissible c) : Goes s0 (exec c s) := by
  cases c with
  | registerWrite => exact execRegisterWrite_goes h ..
  | registerLowWordRead => exact execRegisterLowWordRead_goes h ..
  | enable => exact execEnable_goes h ..
  | disable => exact execDisable_goes h ..
  | shutdown => exact execShutdown_goes h ..
  | shutdownResume => exact execShutdownResume_goes h ..
  | aqReset fn withRestart => exact execAqReset_goes h fn withRestart
  | aqRestart => exact execAqRestart_goes h ..
  | sqTailDoorbell => exact execSqTailDoorbell_goes h ..
  | cqHeadDoorbell => exact execCqHeadDoorbell_goes h ..
  | heldCompletionPost => exact execHeldCompletionPost_goes h ..
  | fetchGrant => exact execFetchGrant_goes h ..
  | commandSlotAllocate => exact execCommandSlotAllocate_goes h ..
  | sqEntryReadFailure => exact execSqEntryReadFailure_goes h ..
  | dataTransferFailure => exact execDataTransferFailure_goes h ..
  | completionWriteFailure fn qp access later => exact execCompletionWriteFailure_goes h fn qp access later
  | hostReadTimeout => exact execHostReadTimeout_goes h ..
  | hostDataReadDone => exact execHostDataReadDone_goes h ..
  | intTimeExpiry => exact execIntTimeExpiry_goes h ..
  | msixUnmask => exact execMsixUnmask_goes h ..
  | fetchQueueMismatch => exact execFetchQueueMismatch_goes h ..
  | flr => exact execFlr_goes h ..
  | vfEnableSet => exact execVfEnableSet_goes h ..
  | vfEnableClear => exact execVfEnableClear_goes h ..
  | unknownOpcode => exact execUnknownOpcode_goes h ..
  | createQp => exact execCreateQp_goes h ..
  | deleteQp => exact execDeleteQp_goes h ..
  | queueRestart => exact execQueueRestart_goes h ..
  | queueReset => exact execQueueReset_goes h ..
  | queueResetCut => exact execQueueResetCut_goes h ..
  | getLog => exact execGetLog_goes h ..
  | dictRead => exact execDictRead_goes h ..
  | dictWrite => exact execDictWrite_goes h ..
  | dictPersistDone => exact execDictPersistDone_goes h ..
  | keyLoad => exact execKeyLoad_goes h ..
  | keyUnload => exact execKeyUnload_goes h ..
  | fwDownload => exact execFwDownload_goes h ..
  | fwActivate => exact execFwActivate_goes h ..
  | fwActivateSwap => exact execFwActivateSwap_goes h ..
  | fwStartConfirmed => exact execFwStartConfirmed_goes h ..
  | fwStartTimeout => exact execFwStartTimeout_goes h ..
  | cartridgeLoad => exact execCartridgeLoad_goes h ..
  | loadIndexRead => exact execLoadIndexRead_goes h ..
  | loadScan => exact execLoadScan_goes h ..
  | journalCheck => exact execJournalCheck_goes h ..
  | cartridgeUnload => exact execCartridgeUnload_goes h ..
  | unthreadDone => exact execUnthreadDone_goes h ..
  | cartridgeFormat => exact execCartridgeFormat_goes h ..
  | rebuildRange => exact execRebuildRange_goes h ..
  | streamCreate => exact execStreamCreate_goes h ..
  | streamOpen => exact execStreamOpen_goes h ..
  | streamClose => exact execStreamClose_goes h ..
  | write => exact execWrite_goes h ..
  | read => exact execRead_goes h ..
  | readRaw => exact execReadRaw_goes h ..
  | flush => exact execFlush_goes h ..
  | drainComplete => exact execDrainComplete_goes h ..
  | runAssign => exact execRunAssign_goes h ..
  | orderedRunRelease => exact execOrderedRunRelease_goes h ..
  | leaseWaitRelease => exact execLeaseWaitRelease_goes h ..
  | throttleRelease => exact execThrottleRelease_goes h ..
  | intakeDataArrival => exact execIntakeDataArrival_goes h ..
  | packerIdleClose => exact execPackerIdleClose_goes h ..
  | mediumCloseDelay => exact execMediumCloseDelay_goes h ..
  | laneSwitch => exact execLaneSwitch_goes h ..
  | blockEncoded => exact execBlockEncoded_goes h ..
  | rawCopyDone => exact execRawCopyDone_goes h ..
  | cipherTakePacket => exact execCipherTakePacket_goes h ..
  | blockEncrypted => exact execBlockEncrypted_goes h ..
  | ivReservePersistDone => exact execIvReservePersistDone_goes h ..
  | blockDecrypted => exact execBlockDecrypted_goes h ..
  | blockDecode => exact execBlockDecode_goes h ..
  | slotRetireComplete => exact execSlotRetireComplete_goes h ..
  | entropyHealthFail => exact execEntropyHealthFail_goes h ..
  | drbgReseed => exact execDrbgReseed_goes h ..
  | counterRetire => exact execCounterRetire_goes h ..
  | alloc => exact execAlloc_goes h ..
  | ref => exact execRef_goes h ..
  | give => exact execGive_goes h ..
  | free => exact execFree_goes h ..
  | heldRequestGrant => exact execHeldRequestGrant_goes h ..
  | poolStallLimit => exact execPoolStallLimit_goes h ..
  | patrolScrub => exact execPatrolScrub_goes h ..
  | checkpointTimer => exact execCheckpointTimer_goes h ..
  | checkpointCopyVerified => exact execCheckpointCopyVerified_goes h ..
  | readBatchWindow => exact execReadBatchWindow_goes h ..
  | readAgeLimit => exact execReadAgeLimit_goes h ..
  | writePassStart => exact execWritePassStart_goes h ..
  | datasetEncodeStart => exact execDatasetEncodeStart_goes h ..
  | datasetEncodeComplete => exact execDatasetEncodeComplete_goes h ..
  | slotStart => exact execSlotStart_goes h ..
  | sectorVerdict => exact execSectorVerdict_goes h ..
  | verifyLate => exact execVerifyLate_goes h ..
  | datasetCommit => exact execDatasetCommit_goes h ..
  | datasetRelease => exact execDatasetRelease_goes h ..
  | writePassEnd => exact execWritePassEnd_goes h ..
  | writeTailDataset => exact execWriteTailDataset_goes h ..
  | eodBurstWrite => exact execEodBurstWrite_goes h ..
  | shockFall => exact execShockFall_goes h ..
  | writeGuardClear => exact execWriteGuardClear_goes h ..
  | tfaultLow => exact execTfaultLow_goes h ..
  | cartPresentStable => exact execCartPresentStable_goes h ..
  | wprotStable => exact execWprotStable_goes h ..
  | clockReaderLoss => exact execClockReaderLoss_goes h ..
  | clockReaderValid => exact execClockReaderValid_goes h ..
  | tlcsLockAcquired => exact execTlcsLockAcquired_goes h ..
  | flywheelLimit => exact execFlywheelLimit_goes h ..
  | servoFrameBoundary => exact execServoFrameBoundary_goes h ..
  | servoWord => exact execServoWord_goes h ..
  | tiltUpdate => exact execTiltUpdate_goes h ..
  | syncWindowOpen => exact execSyncWindowOpen_goes h ..
  | sectorReport => exact execSectorReport_goes h ..
  | channelReset => exact execChannelReset_goes h ..
  | datasetDecode => exact execDatasetDecode_goes h ..
  | harvestRead => exact execHarvestRead_goes h ..
  | readRetry => exact execReadRetry_goes h ..
  | chCommandFail => exact execChCommandFail_goes h ..
  | chCommandRestore => exact execChCommandRestore_goes h ..
  | replaceAcknowledge => exact execReplaceAcknowledge_goes h ..
  | latSample => exact execLatSample_goes h ..
  | reelSSample => exact execReelSSample_goes h ..
  | reelTSample => exact execReelTSample_goes h ..
  | skewSample => exact execSkewSample_goes h ..
  | aslKeepalive => exact execAslKeepalive_goes h ..
  | aslStatusFrame => exact execAslStatusFrame_goes h ..
  | tceBackground => exact execTceBackground_goes h ..
  | servoReaderPosition => exact execServoReaderPosition_goes h ..
  | tachEdge => exact execTachEdge_goes h ..
  | threadRequest => exact execThreadRequest_goes h ..
  | motionRequest => exact execMotionRequest_goes h ..
  | stopRequest => exact execStopRequest_goes h ..
  | tceFaultClear => exact execTceFaultClear_goes h ..
  | satHourEnd => exact execSatHourEnd_goes h ..
  | headFrontPoll => exact execHeadFrontPoll_goes h ..
  | headFrontStatus => exact execHeadFrontStatus_goes h ..
  | dictWindowRead => exact execDictWindowRead_goes h ..
  | dictWindowWrite => exact execDictWindowWrite_goes h ..
  | dictRestoreArm => exact execDictRestoreArm_goes h ..
  | dictRestoreConfirm => exact execDictRestoreConfirm_goes h ..
  | dictRestoreTimeout => exact execDictRestoreTimeout_goes h ..
  | staxaKeyWrite => exact execStaxaKeyWrite_goes h ..
  | staxaOpen => exact execStaxaOpen_goes h ..
  | staxaRequest => exact execStaxaRequest_goes h ..
  | staxaClose => exact execStaxaClose_goes h ..
  | unusableDatagram => exact execUnusableDatagram_goes h ..
  | staxaSessionTimeout => exact execStaxaSessionTimeout_goes h ..
  | arpRequest => exact execArpRequest_goes h ..
  | icmpEcho => exact execIcmpEcho_goes h ..
  | neighborDiscovery => exact execNeighborDiscovery_goes h ..
  | flashRead => exact execFlashRead_goes h ..
  | flashReadDone => exact execFlashReadDone_goes h ..
  | flashProgram => exact execFlashProgram_goes h ..
  | flashProgramDone => exact execFlashProgramDone_goes h ..
  | flashErase => exact execFlashErase_goes h ..
  | flashEraseDone => exact execFlashEraseDone_goes h ..
  | eraseSuspend => exact execEraseSuspend_goes h ..
  | eraseResume => exact execEraseResume_goes h ..
  | fetchMiss => exact execFetchMiss_goes h ..
  | vflBrownout => exact execVflBrownout_goes h ..
  | brownoutRelease => exact execBrownoutRelease_goes h ..
  | flashDiagDescriptor => exact execFlashDiagDescriptor_goes h ..
  | evqPop => exact execEvqPop_goes h ..
  | evqLostClear => exact execEvqLostClear_goes h ..
  | evqArm => exact execEvqArm_goes h ..
  | eventLogCopy => exact execEventLogCopy_goes h ..
  | eventLogRead => exact execEventLogRead_goes h ..
  | domainResetWrite => exact execDomainResetWrite_goes h ..
  | domainReady => exact execDomainReady_goes h ..
  | perst => exact execPerst_goes h ..
  | hotReset => exact execHotReset_goes h ..
  | sysrst => exact execSysrst_goes h ..
  | porst n => exact execPorst_goes h n (hc n rfl)
  | supplyMonitorTrip => exact execSupplyMonitorTrip_goes h ..
  | watchdogExpiry => exact execWatchdogExpiry_goes h ..
  | idleToPs1 => exact execIdleToPs1_goes h ..
  | idleToPs2 => exact execIdleToPs2_goes h ..
  | idleToPs3 => exact execIdleToPs3_goes h ..
  | powerStateRequest => exact execPowerStateRequest_goes h ..
  | wake => exact execWake_goes h ..
  | powerStateReached => exact execPowerStateReached_goes h ..
  | d3hotEntry => exact execD3hotEntry_goes h ..
  | d0Return => exact execD0Return_goes h ..
  | lcChallengeRead => exact execLcChallengeRead_goes h ..
  | lcChallengeExpiry => exact execLcChallengeExpiry_goes h ..
  | lcRequest => exact execLcRequest_goes h ..
  | lcFuseProgrammed => exact execLcFuseProgrammed_goes h ..
  | jtagInstruction => exact execJtagInstruction_goes h ..
  | uartRxByte => exact execUartRxByte_goes h ..
  | temperatureSample => exact execTemperatureSample_goes h ..
  | fetchReadReturn => exact execFetchReadReturn_goes h ..

/-- The next state of any command follows calmly; a PORST that is too short has none. -/
theorem exec_calm {s t : State} {c : Instr} (e : exec c s = .next t) : Calm s t := by
  by_cases hc : Admissible c
  · exact (exec_goes (Calm.refl s) hc).calm e
  · obtain ⟨n, rfl, hn⟩ : ∃ n, c = .porst n ∧ n < 10000 := by simpa [Admissible] using hc
    simp [execPorst, hn] at e

/-- What `Calm` keeps, but for the queue of commands, over one step: the front command leaves the queue, or TIME counts. -/
theorem step_calm {s t : State} (e : step s = .next t) : ∃ rest, Calm { s with pending := rest } t := by
  unfold step at e
  split at e
  · cases e
    exact ⟨s.pending, (Calm.refl s).upd rfl rfl rfl rfl rfl rfl⟩
  · exact ⟨_, exec_calm e⟩

/-- Settles O6: a step is calm, and `Calm` keeps each of the three depths. -/
theorem eventQueuesStayBounded : Obligations.EventQueuesStayBounded := by
  unfold Obligations.EventQueuesStayBounded
  rintro s t ⟨hhost, hmgmt, hlog⟩ e
  obtain ⟨_, h⟩ := step_calm e
  exact ⟨h.evHost hhost, h.evMgmt hmgmt, h.evLog hlog⟩

/-- After reset every function holds the values of an untouched one. -/
theorem getFn_reset (f : Nat) : getFn State.reset f = {} := rfl

/-- After reset every channel holds the values of an untouched one. -/
theorem getChan_reset (p : Nat) : getChan State.reset p = {} := rfl

/-- After reset the event queues and the log are empty. -/
theorem reset_eventsBounded : EventsBounded State.reset := ⟨Nat.zero_le _, Nat.zero_le _, Nat.zero_le _⟩

/-- Settles O59: the tables are empty, so that every function and channel is an untouched one, and the other fields are those of
`State.reset`. -/
theorem resetValues : Obligations.ResetValues := by
  unfold Obligations.ResetValues
  extract_lets s
  have hfn : ∀ f, getFn s f = {} := getFn_reset
  have hchan : ∀ p, getChan s p = {} := getChan_reset
  refine ⟨rfl, rfl, rfl, rfl, rfl, rfl, fun f _ => ?_, rfl, rfl, rfl, rfl, rfl, fun p _ => ?_, rfl, rfl, rfl, rfl, rfl, rfl, rfl,
    rfl, reset_eventsBounded⟩
  · rw [hfn]
    exact ⟨rfl, rfl, rfl, rfl, rfl, rfl, rfl, rfl⟩
  · rw [hchan]

end Sys2Proof.Machine
end

section
/-! The start of a command in a slot: the statement of COMMAND_SLOT_ALLOCATE. -/

namespace Sys2Proof.Machine

/-- The command that an entry of a fetch queue becomes in a slot (R18, R65, R71). -/
def cmdOfEntry (s : State) (f q slot : Nat) (v : Qp) (x : FqEntry) : Cmd :=
  { fn := f, qp := q, epoch := v.epoch, seq := x.seq, headAfter := x.headAfter, entry := x.entry, verdict := x.verdict,
    tag := newTag s f q slot v.epoch x.entry,
    sg := if eDataMode x.entry = 1 then [(eAddr x.entry, eLen x.entry)] else [] }

/-- The head of the fetch queue starts in the free slot (R71). -/
theorem execCommandSlotAllocate_starts {fn : FnId} {qp : Fin 4096} {v : Qp} {x : FqEntry} {l : List FqEntry} {slot : Nat}
    {s : State} (hq : getQp s fn.val qp.val = some v) (hl : v.fetchQ = x :: l) (hfrozen : v.frozen = false)
    (hreset : v.reset = none) (hroom : qpHeld s fn.val qp.val < v.maxOut) (hfree : slotFree s fn.val = true)
    (hslot : freeSlot s = some slot) (hlt : slot < 65536) :
    execCommandSlotAllocate fn qp s =
      .next (setCmd slot (cmdOfEntry s fn.val qp.val slot v x)
        (setQp fn.val qp.val { v with fetchQ := l, fqPtrs := fqRead v.fqPtrs } s)) := by
  have hgo : ¬ (v.frozen || v.reset.isSome || decide (v.maxOut ≤ qpHeld s fn.val qp.val) || !slotFree s fn.val) = true := by
    simp [hfrozen, hreset, hfree, hroom]
  unfold execCommandSlotAllocate
  simp only [hq, hl, if_neg hgo, hslot, if_neg (Nat.not_le.2 hlt), cmdOfEntry]

/-- An entry that may not start waits (R69, R71, R77). -/
theorem execCommandSlotAllocate_waits {fn : FnId} {qp : Fin 4096} {v : Qp} {x : FqEntry} {l : List FqEntry} {s : State}
    (hq : getQp s fn.val qp.val = some v) (hl : v.fetchQ = x :: l)
    (h : v.frozen = true ∨ v.reset ≠ none ∨ v.maxOut ≤ qpHeld s fn.val qp.val ∨ slotFree s fn.val = false) :
    execCommandSlotAllocate fn qp s = .next s := by
  have hstop : (v.frozen || v.reset.isSome || decide (v.maxOut ≤ qpHeld s fn.val qp.val) || !slotFree s fn.val) = true := by
    simpa [Option.isSome_iff_ne_none, or_assoc] using h
  unfold execCommandSlotAllocate
  simp only [hq, hl, if_pos hstop]

/-- Settles O18. -/
theorem slotAllocationStartsCommand : Obligations.SlotAllocationStartsCommand := by
  unfold Obligations.SlotAllocationStartsCommand
  intro fn qp v x l s hq hl
  constructor
  · intro slot hfrozen hreset hroom hfree hslot hlt
    exact ⟨_, cmdOfEntry s fn.val qp.val slot v x,
      execCommandSlotAllocate_starts hq hl hfrozen hreset hroom hfree hslot hlt, getCmd_setCmd_self .., rfl, rfl, rfl, rfl, rfl,
      rfl, rfl, rfl, by rw [getQp_setCmd, getQp_setQp_self], fun n hn => by rw [getCmd_setCmd_ne _ _ hn, getCmd_setQp], rfl, rfl,
      rfl⟩
  · intro h
    exact execCommandSlotAllocate_waits hq hl h

end Sys2Proof.Machine
end

section
/-! SUPPORT. Reads of a command after it changes, the start of a command, and what the end of a plain command leaves of the
streams. -/

namespace Sys2Proof.Machine

/-- A change of a command that is there writes it. -/
theorem updCmd_of_getCmd {n : Nat} {g : Cmd → Cmd} {c : Cmd} {s : State} (hc : getCmd s n = some c) :
    updCmd n g s = setCmd n (g c) s := by
  unfold updCmd
  rw [hc]

@[simp] theorem getCmd_updCmd_self (n : Nat) (g : Cmd → Cmd) (s : State) : getCmd (updCmd n g s) n = (getCmd s n).map g := by
  unfold updCmd
  split
  next hc => simp [hc]
  next hc => simp [hc]

theorem getCmd_updCmd_ne {n m : Nat} (g : Cmd → Cmd) (s : State) (h : m ≠ n) : getCmd (updCmd n g s) m = getCmd s m := by
  unfold updCmd
  split
  · exact getCmd_setCmd_ne _ _ h
  · rfl

/-- The stage of a WRITE is written with its job. -/
theorem setJob_of_getCmd {slot : Nat} {w : WriteJob} {c : Cmd} {s : State} (hc : getCmd s slot = some c) :
    setJob slot w s = setCmd slot { c with stage := .writing w } s := updCmd_of_getCmd hc

/-- A stream is read from the table of streams alone. -/
theorem getStream_congr {s t : State} (h : t.streams = s.streams) (n : Nat) : getStream t n = getStream s n := by
  rw [getStream, getStream, h]

@[simp] theorem getStream_updStream_self (n : Nat) (g : Stream → Stream) (s : State) :
    getStream (updStream n g s) n = (getStream s n).map g := Tab.get?_upd_self ..

theorem getStream_updStream_ne {n m : Nat} (g : Stream → Stream) (s : State) (h : m ≠ n) :
    getStream (updStream n g s) m = getStream s m := Tab.get?_upd_ne _ _ h

@[simp] theorem getCmd_updStream (n m : Nat) (g : Stream → Stream) (s : State) : getCmd (updStream n g s) m = getCmd s m := rfl

/-- A command that has just started runs the meaning of its opcode (R96, R98). -/
theorem onCmd_of_started {s : State} {slot op : Nat} {c : Cmd} {ops : List Nat} {f : Cmd → State → State}
    (h : Started s slot op c) (hop : op ∈ ops) : onCmd slot ops f s = f c s := by
  unfold onCmd
  simp [h.cmd, h.stage, h.opcode, hop, h.passed, h.free]

/-- What `Takes` asks for stays where the queue pair and the command's own fields stay. -/
theorem Takes.of_stage {s t : State} {c : Cmd} {v : Qp} (h : Takes s c v) (st : Stage)
    (hq : getQp t c.fn c.qp = getQp s c.fn c.qp) : Takes t { c with stage := st } v :=
  { live := h.live, qp := hq.trans h.qp, epoch := h.epoch, held := h.held, writes := h.writes, room := h.room,
    plain := h.plain, kept := h.kept }

section
variable {n : Nat} {c : Cmd} (hpost : c.post = []) (hkept : c.fnEnded = false)
include hpost hkept

/-! A command that leaves nothing to its posting, of a function that goes on, ends without a change of the streams. -/

theorem dropCmd_streams_of_plain {s : State} (hc : getCmd s n = some c) : (dropCmd n s).streams = s.streams := by
  rw [dropCmd_plain hc hpost hkept, shutdownCheck_streams]

theorem issueCpl_streams_of_plain {s : State} (hc : getCmd s n = some c) (f q : Nat) (d : Option Cmd) (p : Cpl) :
    (issueCpl f q ⟨some n, d, p⟩ s).streams = s.streams := by
  unfold issueCpl
  split
  · rfl
  · extract_lets addr v1
    split
    extract_lets t u
    have hu : getCmd u n = some c ∧ u.streams = s.streams := by
      show getCmd (if _ then sendMsix f _ t else t) n = some c ∧ (if _ then sendMsix f _ t else t).streams = s.streams
      split
      · exact ⟨by rw [getCmd_sendMsix]; exact hc, sendMsix_streams ..⟩
      · exact ⟨hc, rfl⟩
    exact (dropCmd_streams_of_plain hpost hkept hu.1).trans hu.2

theorem postCpl_streams_of_plain {s : State} (hc : getCmd s n = some c) (f q : Nat) (d : Option Cmd) (p : Cpl) :
    (postCpl f q ⟨some n, d, p⟩ s).streams = s.streams := by
  unfold postCpl
  split
  · rfl
  · split
    · exact issueCpl_streams_of_plain hpost hkept hc ..
    · exact updCmd_streams ..

theorem complete_streams_of_plain {s : State} (hc : getCmd s n = some c) (p : Cmd → Cpl) (e : ErrInfo) :
    (complete n p e s).streams = s.streams := by
  have hdrop := dropCmd_streams_of_plain hpost hkept hc
  unfold complete
  simp only [hc]
  split
  · rfl
  split
  · exact hdrop
  split
  · exact hdrop
  split
  · exact hdrop
  · exact postCpl_streams_of_plain hpost hkept (getCmd_setQp .. |>.trans hc) ..

end

/-- A command whose queue pair can take its completion ends with it, and no stream changes. -/
theorem complete_ends {s : State} {slot : Nat} {c : Cmd} {v : Qp} (hc : getCmd s slot = some c) (hs : c.stage ≠ .held)
    (ht : Takes s c v) (p : Cmd → Cpl) (e : ErrInfo) :
    Ends s (complete slot p e s) slot v (p c) ∧ (complete slot p e s).streams = s.streams := by
  obtain ⟨⟨l, hl, hout⟩, hgone, -⟩ := complete_posts (p := p) (e := e) hc hs ht
  exact ⟨⟨⟨l, [], hl, hout⟩, hgone⟩, complete_streams_of_plain ht.plain ht.kept hc p e⟩

end Sys2Proof.Machine
end

section
/-! WRITEs and their data: the statement of WRITE, HOST_DATA_READ_DONE, INTAKE_DATA_ARRIVAL and THROTTLE_RELEASE. -/

namespace Sys2Proof.Machine

/-! The start of a WRITE. -/

/-- The job of a WRITE of records of one length, whose data stands in one buffer (R107, R121). -/
def writeJobOf (e : BitVec 512) : WriteJob := { lens := List.replicate (eCount e) (eRecLen e), total := some (eLen e) }

theorem execWrite_of_started {slot : SlotId} {c : Cmd} {x : Stream} {s : State} (h : Started s slot.val opWrite c)
    (hx : getStream s (eStream c.entry) = some x) (hlen : eLenMode c.entry = false) (hmode : eDataMode c.entry = 1) :
    execWrite slot s = .next (writeReady slot.val c (writeJobOf c.entry) s) := by
  unfold execWrite
  rw [onCmd_of_started h (List.mem_singleton_self _)]
  simp [hx, hlen, hmode, writeJobOf]

/-- The lengths of a WRITE of records of one length match its data when their sum does (R107, R122). -/
theorem lengthsOk_of_buffer {e : BitVec 512} {l : List Nat} {n : Nat} (s : State) (hlen : eLenMode e = false)
    (hmode : eDataMode e = 1) (hpos : 0 < n) : lengthsOk s e l n = decide (l.sum = n) := by
  have hn : n ≠ 0 := Nat.pos_iff_ne_zero.1 hpos
  simp [lengthsOk, hlen, hmode, hn]

section
variable {slot : Nat} {c : Cmd} (hlen : eLenMode c.entry = false) (hmode : eDataMode c.entry = 1) (hpos : 0 < eLen c.entry)
include hlen hmode hpos

/-- A WRITE of records of one length with its data in one buffer knows its lengths and its total (R107, R122). -/
theorem writeReady_of_known (s : State) : writeReady slot c (writeJobOf c.entry) s =
    if (writeJobOf c.entry).lens.sum = eLen c.entry then
      setJob slot { writeJobOf c.entry with lensKnown := true, arrivedAt := s.time.toNat, throttled := s.bpm.above } s
    else complete slot (fun c => baseCpl c .lengthInvalid) { block := bHqe } (noRun c.entry (setJob slot (writeJobOf c.entry) s)) := by
  have htotal : (writeJobOf c.entry).total = some (eLen c.entry) := rfl
  have hcount : ¬ (writeJobOf c.entry).lens.length < eCount c.entry := by simp [writeJobOf]
  have hne : eLen c.entry ≠ 0 := Nat.pos_iff_ne_zero.1 hpos
  unfold writeReady
  simp only [htotal, if_neg hcount, lengthsOk_of_buffer s hlen hmode hpos]
  by_cases hsum : (writeJobOf c.entry).lens.sum = eLen c.entry
  · rw [if_pos hsum, decide_eq_true hsum, decide_eq_false hne, decide_eq_true hpos, Bool.and_true]
    rfl
  · rw [if_neg hsum, decide_eq_false hsum]
    rfl

/-- Lengths that match: the transfer may begin, unless the throttle holds it (R122, R199). -/
theorem writeReady_of_match {s : State} (hc : getCmd s slot = some c) (hsum : (writeJobOf c.entry).lens.sum = eLen c.entry) :
    writeReady slot c (writeJobOf c.entry) s = setCmd slot { c with stage := .writing { writeJobOf c.entry with
      lensKnown := true, arrivedAt := s.time.toNat, throttled := s.bpm.above } } s := by
  rw [writeReady_of_known hlen hmode hpos, if_pos hsum, setJob_of_getCmd hc]

/-- Lengths that do not match end the WRITE, and no stream but its own changes (R122). -/
theorem writeReady_of_mismatch {s : State} {v : Qp} {x : Stream} (hc : getCmd s slot = some c) (hop : eOpcode c.entry = opWrite)
    (hx : getStream s (eStream c.entry) = some x) (ht : Takes s c v) (hsum : (writeJobOf c.entry).lens.sum ≠ eLen c.entry) :
    let t := writeReady slot c (writeJobOf c.entry) s
    Ends s t slot v (baseCpl c .lengthInvalid) ∧ getStream t (eStream c.entry) = some { x with lastRun := s.time.toNat } ∧
      (∀ m, m ≠ eStream c.entry → getStream t m = getStream s m) ∧ t.pack = s.pack := by
  let d : Cmd := { c with stage := .writing (writeJobOf c.entry) }
  let u := runSettled (eStream c.entry) (setCmd slot d s)
  have hu : getCmd u slot = some d := getCmd_setCmd_self ..
  obtain ⟨hends, hstr⟩ := complete_ends hu (by simp [d]) (ht.of_stage (t := u) _ rfl) (fun c => baseCpl c .lengthInvalid)
    { block := bHqe }
  obtain ⟨_, _, _, _, _, _, _, hpack⟩ :=
    complete_hostOut (HostOut.refl u) slot (fun c => baseCpl c .lengthInvalid) { block := bHqe }
  rw [writeReady_of_known hlen hmode hpos, if_neg hsum, setJob_of_getCmd hc, noRun, if_pos hop]
  refine ⟨⟨hends.posted, hends.released⟩, ?_, fun m hm => ?_, ?_⟩
  · refine (getStream_congr hstr _).trans ((getStream_updStream_self ..).trans ?_)
    exact congrArg _ hx
  · exact (getStream_congr hstr _).trans (getStream_updStream_ne _ _ hm)
  · rw [hpack]
    rfl

end

/-! Data from host memory. -/

/-- The job of a WRITE once data of it has entered an intake buffer at an offset (R121, R196). -/
def WriteJob.took (w : WriteJob) (buf off : Nat) (bytes : List Byte) (now : Nat) : WriteJob :=
  { w with intake := w.intake ++ [(buf, off, bytes)], got := w.got + bytes.length, arrived := true,
           arrivedAt := if w.arrived then w.arrivedAt else now }

theorem dataRead_takes {slot buf : Nat} {c : Cmd} {w : WriteJob} {b : Buf} {bytes : List Byte} {s : State}
    (hc : getCmd s slot = some c) (hknown : w.lensKnown = true) (hheld : heldBack s c w = false) (hcut : cutOff s c = false)
    (hended : w.ended = false) (hb : Tab.get? s.bpm.bufs buf = some b) (hown : b.owner = 0x10#8) (hbytes : bytes ≠ [])
    (hfit : w.got + bytes.length ≤ w.lens.sum) :
    let t := dataRead slot buf c bytes w s
    getCmd t slot = some { c with tag := tagWithBuf c.tag buf,
                                  stage := .writing (w.took buf (Tab.getD s.pack.intakeFill buf 0) bytes s.time.toNat) } ∧
      Tab.get? t.pack.intakeLeft buf = some (Tab.getD s.pack.intakeLeft buf 0 + bytes.length) ∧ t.streams = s.streams ∧
      t.out = s.out ∧ t.bpm = s.bpm := by
  have hgo : ¬ (!w.lensKnown || heldBack s c w || cutOff s c || w.ended || !(b.owner == 0x10#8) ||
      decide (w.lens.sum < w.got + bytes.length) || bytes.isEmpty) = true := by
    simp [hknown, hheld, hcut, hended, hown, hfit, hbytes]
  let u : State := { s with pack := { s.pack with
    intakeLeft := Tab.put s.pack.intakeLeft buf (Tab.getD s.pack.intakeLeft buf 0 + bytes.length),
    intakeFill := Tab.put s.pack.intakeFill buf (Tab.getD s.pack.intakeFill buf 0 + bytes.length) } }
  have hu : getCmd u slot = some c := hc
  have he : dataRead slot buf c bytes w s = updCmd slot (fun c => { c with tag := tagWithBuf c.tag buf })
      (setJob slot (w.took buf (Tab.getD s.pack.intakeFill buf 0) bytes s.time.toNat) u) := by
    unfold dataRead
    simp only [hb, if_neg hgo]
    rfl
  rw [he, setJob_of_getCmd hu, updCmd_of_getCmd (getCmd_setCmd_self ..)]
  exact ⟨getCmd_setCmd_self .., Tab.get?_put_self .., rfl, rfl, rfl⟩

theorem execHostDataReadDone_data {slot : SlotId} {buf : Nat} {bytes : List Byte} {words : List (BitVec 128)} {c : Cmd}
    {w : WriteJob} {s : State} (hc : getCmd s slot.val = some c) (hw : c.stage = .writing w) (hcut : cutOff s c = false) :
    execHostDataReadDone slot .data buf bytes words s = .next (dataRead slot.val buf c bytes w s) := by
  unfold execHostDataReadDone
  simp [hc, hw, hcut]

/-! Data that reaches the Record Packer. -/

@[simp] theorem answer_streams (o : Nat) (r : Response) (i : Option Nat) (tag : BitVec 128) (s : State) :
    (answer o r i tag s).streams = s.streams := rfl

/-- A retag touches commands alone. -/
theorem retag_eq (tag : BitVec 128) (id : Nat) (s : State) : ∃ H, retag tag id s = { s with host := H } := by
  unfold retag
  split
  · exact ⟨_, rfl⟩
  · unfold updCmd
    split <;> exact ⟨_, rfl⟩

@[simp] theorem retag_streams (tag : BitVec 128) (id : Nat) (s : State) : (retag tag id s).streams = s.streams := by
  obtain ⟨H, h⟩ := retag_eq tag id s
  rw [h]

@[simp] theorem retag_bpm (tag : BitVec 128) (id : Nat) (s : State) : (retag tag id s).bpm = s.bpm := by
  obtain ⟨H, h⟩ := retag_eq tag id s
  rw [h]

@[simp] theorem retag_ev (tag : BitVec 128) (id : Nat) (s : State) : (retag tag id s).ev = s.ev := by
  obtain ⟨H, h⟩ := retag_eq tag id s
  rw [h]

/-- A retagged command differs in its tag alone. -/
theorem getCmd_retag {n : Nat} {c : Cmd} {s : State} (tag : BitVec 128) (id : Nat) (hc : getCmd s n = some c) :
    ∃ t, getCmd (retag tag id s) n = some { c with tag := t } := by
  unfold retag
  split
  · exact ⟨c.tag, hc⟩
  · by_cases h : n = tagSlot tag
    · subst h
      exact ⟨_, by rw [getCmd_updCmd_self, hc]; rfl⟩
    · exact ⟨c.tag, (getCmd_updCmd_ne _ _ h).trans hc⟩

/-- The GIVE of a buffer by its owner (R189). -/
theorem giveReq_of_owner {owner id new : Nat} {tag : BitVec 128} {b : Buf} {s : State} (hb : Tab.get? s.bpm.bufs id = some b)
    (ho : b.owner.toNat = owner) :
    giveReq owner id new tag s = retag tag id (answer owner .done none tag
      { s with bpm := { s.bpm with bufs := Tab.put s.bpm.bufs id { b with owner := BitVec.ofNat 8 new } } }) := by
  unfold giveReq
  simp [hb, ho]

/-- The HQE's GIVE of a buffer to the Record Packer: the buffer named is the packer's if it was the HQE's or the packer's, and the
others stay as they were (R196). -/
theorem giveOwn_intake (id : Nat) (tag : BitVec 128) (s : State) :
    let t := giveOwn 0x10 id 0x40 tag s
    t.streams = s.streams ∧ (∀ n c, getCmd s n = some c → ∃ g, getCmd t n = some { c with tag := g }) ∧
      (∀ n, n ≠ id → Tab.get? t.bpm.bufs n = Tab.get? s.bpm.bufs n) ∧
      ∀ b, Tab.get? s.bpm.bufs id = some b → (b.owner = 0x10#8 ∨ b.owner = 0x40#8) →
        Tab.get? t.bpm.bufs id = some { b with owner := 0x40#8 } := by
  intro t
  cases hb : Tab.get? s.bpm.bufs id with
  | none =>
    have ht : t = s := by simp [t, giveOwn, hb]
    rw [ht]
    exact ⟨rfl, fun n c hc => ⟨c.tag, hc⟩, fun _ _ => rfl, by simp⟩
  | some b =>
    by_cases ho : b.owner.toNat = 0x10
    · have ht : t = retag tag id (answer 0x10 .done none tag
          { s with bpm := { s.bpm with bufs := Tab.put s.bpm.bufs id { b with owner := 0x40#8 } } }) := by
        simp [t, giveOwn, hb, ho, giveReq_of_owner hb ho]
      rw [ht]
      refine ⟨by simp, fun n c hc => getCmd_retag _ _ hc, fun n hn => ?_, fun b' hb' _ => ?_⟩
      · simp [answer, Tab.get?_put_ne _ _ hn]
      · cases hb'
        simp [answer]
    · have ht : t = s := by simp [t, giveOwn, hb, ho]
      rw [ht]
      refine ⟨rfl, fun n c hc => ⟨c.tag, hc⟩, fun _ _ => rfl, fun b' hb' h => ?_⟩
      cases hb'
      rcases h with h | h
      · simp [h] at ho
      · rw [hb, ← h]

/-- What the Record Packer's taking over of intake buffers does: streams stay, commands change in their tags alone, and each buffer
of the HQE's or the packer's that is named is the packer's in the end, with its count (R196, R209). -/
theorem giveIntake_takes (l : List (Nat × Nat × List Byte)) (tag : BitVec 128) : ∀ s : State,
    let t := l.foldl (fun s p => giveOwn 0x10 p.1 0x40 tag s) s
    t.streams = s.streams ∧ (∀ n c, getCmd s n = some c → ∃ g, getCmd t n = some { c with tag := g }) ∧
      (∀ n b, Tab.get? s.bpm.bufs n = some b → (b.owner = 0x10#8 ∨ b.owner = 0x40#8) →
        ((∃ p ∈ l, p.1 = n) ∨ b.owner = 0x40#8) → Tab.get? t.bpm.bufs n = some { b with owner := 0x40#8 }) := by
  induction l with
  | nil =>
    intro s
    refine ⟨rfl, fun n c hc => ⟨c.tag, hc⟩, fun n b hb _ h => ?_⟩
    obtain ⟨p, hp, -⟩ | h := h
    · simp at hp
    · rw [← h]; exact hb
  | cons p l ih =>
    intro s
    obtain ⟨hstr, hcmd, hothers, hown⟩ := giveOwn_intake p.1 tag s
    obtain ⟨hstr', hcmd', hown'⟩ := ih (giveOwn 0x10 p.1 0x40 tag s)
    refine ⟨hstr'.trans hstr, fun n c hc => ?_, fun n b hb ho hn => ?_⟩
    · obtain ⟨g, hg⟩ := hcmd n c hc
      exact hcmd' n { c with tag := g } hg
    · by_cases hp : n = p.1
      · subst hp
        exact hown' p.1 { b with owner := 0x40#8 } (hown b hb ho) (.inr rfl) (.inr rfl)
      · refine hown' n b ((hothers n hp).trans hb) ho ?_
        obtain ⟨q, hq, hqn⟩ | h := hn
        · obtain rfl | hq := List.mem_cons.1 hq
          · exact absurd hqn.symm hp
          · exact .inl ⟨q, hq, hqn⟩
        · exact .inr h

theorem execIntakeDataArrival_writing {slot : SlotId} {n : Nat} {c : Cmd} {w : WriteJob} {s : State}
    (hc : getCmd s slot.val = some c) (hw : c.stage = .writing w) :
    execIntakeDataArrival slot n s = .next (settle (packStream (eStream c.entry)
      (setJob slot.val { w with avail := min (w.avail + n) (intakeBytes w) } (giveIntake w c.tag s)))) := by
  unfold execIntakeDataArrival
  simp [hc, hw]

/-! The throttle. -/

/-- A WRITE goes on after the throttle held it; other commands stay (R199). -/
def letGo (c : Cmd) : Cmd := match c.stage with | .writing w => { c with stage := .writing { w with released := true } } | _ => c

theorem execThrottleRelease_open {s : State} (h : s.bpm.above = false) :
    execThrottleRelease s = .next { s with host := { s.host with cmds := s.host.cmds.map fun p => (p.1, letGo p.2) } } := by
  unfold execThrottleRelease
  simp only [h, Bool.false_eq_true, if_false]
  congr 4
  funext p
  unfold letGo
  cases p.2.stage <;> rfl

/-- A read of a table whose values were all changed. -/
theorem Tab.get?_map {α : Type} (f : α → α) (t : Tab α) (i : Nat) :
    Tab.get? (t.map fun p => (p.1, f p.2)) i = (Tab.get? t i).map f := by
  induction t with
  | nil => rfl
  | cons p t ih =>
    simp only [List.map_cons, Tab.get?]
    split
    · rfl
    · exact ih

/-- Settles O30, a part for each command. -/
theorem writesTakeTheirData : Obligations.WritesTakeTheirData := by
  unfold Obligations.WritesTakeTheirData
  refine ⟨?_, ?_, ?_, ?_⟩
  · intro slot c x s h hx hlen hmode hpos lens
    have hstart := execWrite_of_started h hx hlen hmode
    refine ⟨fun hsum => ⟨_, hstart, ?_⟩, fun v hsum ht => ⟨_, hstart, ?_⟩⟩
    · rw [writeReady_of_match hlen hmode hpos h.cmd hsum]
      exact ⟨getCmd_setCmd_self .., rfl, rfl, rfl⟩
    · exact writeReady_of_mismatch hlen hmode hpos h.cmd h.opcode hx ht hsum
  · intro slot buf bytes words c w b s hc hw hknown hheld hcut hended hb hown hbytes hfit
    exact ⟨_, execHostDataReadDone_data hc hw hcut, dataRead_takes hc hknown hheld hcut hended hb hown hbytes hfit⟩
  · intro slot n c w s hc hw
    obtain ⟨hstr, hcmd, hown⟩ := giveIntake_takes w.intake c.tag s
    obtain ⟨tag, htag⟩ := hcmd slot.val c hc
    have hset := setJob_of_getCmd (w := { w with avail := min (w.avail + n) (intakeBytes w) }) htag
    have hgive : w.intake = [] → giveIntake w c.tag s = s := fun h => by rw [giveIntake, h]; rfl
    have htag0 : w.intake = [] → tag = c.tag := fun h => by
      have hc' := htag
      rw [h] at hc'
      exact congrArg Cmd.tag (Option.some.inj (hc'.symm.trans hc))
    refine ⟨_, tag, execIntakeDataArrival_writing hc hw, ?_, htag0, fun p hp b hb ho => ?_, ?_⟩
    · rw [giveIntake, hset, getCmd_setCmd_self]
    · have hb' := hown p.1 b hb (.inl ho) (.inl ⟨p, hp, rfl⟩)
      refine ⟨{ b with owner := 0x40#8 }, ?_, rfl, rfl⟩
      rw [giveIntake, hset]
      exact hb'
    · rw [giveIntake, hset]
      exact hstr
  · intro s
    constructor
    · intro h
      exact if_pos h
    · intro h
      refine ⟨_, execThrottleRelease_open h, rfl, rfl, fun n c hc => ?_⟩
      have hn : getCmd { s with host := { s.host with cmds := s.host.cmds.map fun p => (p.1, letGo p.2) } } n = some (letGo c) := by
        show Tab.get? (s.host.cmds.map _) n = _
        rw [Tab.get?_map]
        exact congrArg _ hc
      rw [hn]
      exact ⟨fun w hw => by simp [letGo, hw], fun hw => by
        unfold letGo
        split
        next w h => exact absurd h (hw w)
        next => rfl⟩

end Sys2Proof.Machine
end

section
/-! The run of a WRITE: the statement of RUN_ASSIGN, ORDERED_RUN_RELEASE and LEASE_WAIT_RELEASE. -/

namespace Sys2Proof.Machine

/-- The end of the lease that a renewal asks for, where the lease that is asked for already does not cover a run (R155-R157). -/
def leaseFor (x : Stream) (k : Nat) (s : State) : Nat :=
  if x.pendingLease < x.next + k then min (x.next + s.recordLease) 0xFFFFFFFFFFFF else x.pendingLease

/-- What a renewal of the lease of a stream leaves: the queues, the commands, the outputs, the other streams, and of the stream
itself all but the lease that is asked for (R155-R157). -/
theorem renewLease_keeps {n : Nat} {x : Stream} {s : State} (hx : getStream s n = some x) :
    let t := renewLease n s
    getStream t n = some { x with pendingLease := min (x.next + s.recordLease) 0xFFFFFFFFFFFF } ∧
      (∀ m, m ≠ n → getStream t m = getStream s m) ∧ t.host = s.host ∧ t.out = s.out := by
  unfold renewLease
  rw [hx]
  refine ⟨?_, fun m hm => getStream_updStream_ne _ s hm, rfl, rfl⟩
  refine (getStream_updStream_self n _ s).trans ?_
  rw [hx]
  rfl

/-- The same for a renewal under a condition. -/
theorem renewLease_if_keeps {n : Nat} {x : Stream} {s : State} (p : Prop) [Decidable p] (hx : getStream s n = some x) :
    let t := if p then renewLease n s else s
    getStream t n = some { x with pendingLease := if p then min (x.next + s.recordLease) 0xFFFFFFFFFFFF else x.pendingLease } ∧
      (∀ m, m ≠ n → getStream t m = getStream s m) ∧ t.host = s.host ∧ t.out = s.out := by
  by_cases hp : p
  · rw [if_pos hp, if_pos hp]
    exact renewLease_keeps hx
  · rw [if_neg hp, if_neg hp]
    exact ⟨hx, fun _ _ => rfl, rfl, rfl⟩

/-- A WRITE takes its place among those of its stream that wait for the lease (R123). -/
def enqueueLease (seq : Nat) (x : Stream) : Stream :=
  { x with leaseQ := if x.leaseQ.contains seq then x.leaseQ else x.leaseQ ++ [seq] }

/-- A stream gives a WRITE its run: the numbers from NextRecord on (R123). -/
def giveRun (seq k now : Nat) (x : Stream) : Stream :=
  { x with next := x.next + k, runs := x.runs ++ [⟨seq, x.next, k⟩], leaseQ := x.leaseQ.filter (· != seq), lastRun := now }

section
variable {slot : Nat} {c : Cmd} {w : WriteJob} {x : Stream} {s : State} (hc : getCmd s slot = some c)
  (hx : getStream s (eStream c.entry) = some x) (hnext : eExpectNext c.entry = false ∨ eFirst c.entry = x.next)
  (hmax : x.next + eCount c.entry ≤ 0xFFFFFFFFFFFF) (hroom : indexRoom s (eStream c.entry) = true)
include hc hx hnext hmax hroom

/-- A WRITE beyond the durable lease waits, and the lease that is asked for covers it (R123, R155-R157). -/
theorem assignRun_waits (hdur : x.durable < x.next + eCount c.entry) :
    let t := assignRun slot c w s
    ∃ y, getCmd t slot = some { c with stage := .writing { w with wait := .lease } } ∧
      getStream t (eStream c.entry) = some y ∧ y.next = x.next ∧ y.runs = x.runs ∧
      t.out = s.out ∧ y.pendingLease = leaseFor x (eCount c.entry) s := by
  have hno : ¬ (eExpectNext c.entry && decide (eFirst c.entry ≠ x.next)) = true := by
    rcases hnext with h | h <;> simp [h]
  have he : assignRun slot c w s = setJob slot { w with wait := .lease } (updStream (eStream c.entry) (enqueueLease c.seq)
      (if x.pendingLease < x.next + eCount c.entry then renewLease (eStream c.entry) s else s)) := by
    unfold assignRun
    simp only [hx, if_neg hno, if_neg (Nat.not_lt.2 hmax), hroom, hdur, true_or, if_true, Bool.not_true, Bool.false_eq_true,
      if_false]
    rfl
  obtain ⟨hstr, -, hhost, hout⟩ := renewLease_if_keeps (x.pendingLease < x.next + eCount c.entry) hx
  rw [he]
  generalize (if x.pendingLease < x.next + eCount c.entry then renewLease (eStream c.entry) s else s) = t at hstr hhost hout
  have hct : getCmd (updStream (eStream c.entry) (enqueueLease c.seq) t) slot = some c := by
    rw [getCmd_updStream, getCmd, hhost]
    exact hc
  rw [setJob_of_getCmd hct]
  refine ⟨_, getCmd_setCmd_self .., (getStream_updStream_self ..).trans (congrArg _ hstr), rfl, rfl, hout, rfl⟩

/-- Within the durable lease the WRITE takes the numbers from NextRecord on, and its tag names the first (R19, R123). -/
theorem assignRun_assigns (hdur : x.next + eCount c.entry ≤ x.durable) (hfirst : leaseWaiters s (eStream c.entry) c.seq = false) :
    ∃ u y, assignRun slot c w s = settle (packStream (eStream c.entry) u) ∧ getStream u (eStream c.entry) = some y ∧
      y.next = x.next + eCount c.entry ∧ y.runs = x.runs ++ [⟨c.seq, x.next, eCount c.entry⟩] ∧ y.durable = x.durable ∧
      y.lastRun = s.time.toNat ∧
      getCmd u slot = some { c with tag := tagWithRecord c.tag x.next,
                                    stage := .writing { w with run := some x.next, wait := .none } } ∧
      (∀ m, m ≠ eStream c.entry → getStream u m = getStream s m) ∧ u.out = s.out := by
  have hno : ¬ (eExpectNext c.entry && decide (eFirst c.entry ≠ x.next)) = true := by
    rcases hnext with h | h <;> simp [h]
  have hgo : ¬ (x.durable < x.next + eCount c.entry ∨ leaseWaiters s (eStream c.entry) c.seq = true) := by
    simp [hfirst, hdur]
  let r := runSettled (eStream c.entry) (updStream (eStream c.entry) (fun x =>
    { x with next := x.next + eCount c.entry, runs := x.runs ++ [⟨c.seq, x.next, eCount c.entry⟩],
             leaseQ := x.leaseQ.filter (· != c.seq) }) s)
  have hr : getStream r (eStream c.entry) = some (giveRun c.seq (eCount c.entry) s.time.toNat x) := by
    simp only [r, runSettled, getStream_updStream_self, hx]
    rfl
  have hcr : getCmd r slot = some c := hc
  let t := setCmd slot { c with tag := tagWithRecord c.tag x.next,
                                stage := .writing { w with run := some x.next, wait := .none } } r
  have he : assignRun slot c w s = settle (packStream (eStream c.entry)
      (if x.pendingLease ≤ x.next + eCount c.entry + t.recordLease / 2 ∧ x.pendingLease < 0xFFFFFFFFFFFF
        then renewLease (eStream c.entry) t else t)) := by
    unfold assignRun
    simp only [hx, if_neg hno, if_neg (Nat.not_lt.2 hmax), hroom, Bool.not_true, Bool.false_eq_true, if_false, if_neg hgo]
    rw [updCmd_of_getCmd hcr]
  have htx : getStream t (eStream c.entry) = some (giveRun c.seq (eCount c.entry) s.time.toNat x) := hr
  obtain ⟨hstr, hothers, hhost, hout⟩ := renewLease_if_keeps
    (x.pendingLease ≤ x.next + eCount c.entry + t.recordLease / 2 ∧ x.pendingLease < 0xFFFFFFFFFFFF) htx
  refine ⟨_, _, he, hstr, rfl, rfl, rfl, rfl, ?_, fun m hm => (hothers m hm).trans ?_, hout⟩
  · rw [getCmd, hhost]
    exact getCmd_setCmd_self ..
  · exact (getStream_updStream_ne _ _ hm).trans (getStream_updStream_ne _ _ hm)

end

/-! What the rows do before they assign. -/

theorem poisonedIndex_nil (s : State) : poisonedIndex s [] = false := rfl

section
variable {slot : SlotId} {c : Cmd} {w : WriteJob} {s : State} (hc : getCmd s slot.val = some c) (hw : c.stage = .writing w)
include hc hw

/-- A WRITE whose data has arrived receives its run, but for an ordered one that an earlier WRITE without a run precedes, and for
one that an earlier WRITE goes before (R153, R154). -/
theorem execRunAssign_assigns (harr : w.arrived = true) (hrun : w.run = none) (hwait : w.wait = .none)
    (hord : eOrdered c.entry = true → earlierNoRun s (eStream c.entry) c.seq = false)
    (hready : earlierReady s (eStream c.entry) c w = false) :
    execRunAssign slot [] true s = .next (assignRun slot.val c w s) := by
  have hgo : ¬ (eOrdered c.entry && earlierNoRun s (eStream c.entry) c.seq) = true := by
    rw [Bool.and_eq_true]
    rintro ⟨h1, h2⟩
    simp [hord h1] at h2
  unfold execRunAssign
  simp [hc, hw, harr, hrun, hwait, poisonedIndex_nil, hgo, hready]

/-- An ordered WRITE waits while an earlier one of its stream has no run (R153). -/
theorem execRunAssign_waits (harr : w.arrived = true) (hrun : w.run = none) (hwait : w.wait = .none)
    (hord : eOrdered c.entry = true) (hearlier : earlierNoRun s (eStream c.entry) c.seq = true) :
    execRunAssign slot [] true s = .next (setCmd slot.val { c with stage := .writing { w with wait := .ordered } } s) := by
  unfold execRunAssign
  simp [hc, hw, harr, hrun, hwait, poisonedIndex_nil, hord, hearlier, setJob_of_getCmd hc]

theorem execOrderedRunRelease_assigns (hwait : w.wait = .ordered) (hearlier : earlierNoRun s (eStream c.entry) c.seq = false)
    (hready : earlierReady s (eStream c.entry) c w = false) :
    execOrderedRunRelease slot s = .next (assignRun slot.val c w s) := by
  unfold execOrderedRunRelease
  simp [hc, hw, hwait, hearlier, hready]

theorem execLeaseWaitRelease_assigns {x : Stream} (hwait : w.wait = .lease)
    (hfirst : leaseWaiters s (eStream c.entry) c.seq = false) (hx : getStream s (eStream c.entry) = some x)
    (hdur : x.next + eCount c.entry ≤ x.durable) :
    execLeaseWaitRelease slot s = .next (assignRun slot.val c w s) := by
  unfold execLeaseWaitRelease
  simp [hc, hw, hwait, hfirst, hx, Nat.not_lt.2 hdur]

/-- A WRITE that the durable lease does not cover goes on waiting (R123, R157). -/
theorem execLeaseWaitRelease_waits {x : Stream} (hwait : w.wait = .lease)
    (hfirst : leaseWaiters s (eStream c.entry) c.seq = false) (hx : getStream s (eStream c.entry) = some x)
    (hdur : x.durable < x.next + eCount c.entry) (hmax : x.next + eCount c.entry ≤ 0xFFFFFFFFFFFF) :
    execLeaseWaitRelease slot s =
      .next (if x.pendingLease < x.next + eCount c.entry then renewLease (eStream c.entry) s else s) := by
  unfold execLeaseWaitRelease
  simp [hc, hw, hwait, hfirst, hx, hdur, hmax]

end

/-- Settles O31: the three rows reach `assignRun` in the same way. -/
theorem runsAreAssigned : Obligations.RunsAreAssigned := by
  unfold Obligations.RunsAreAssigned
  intro slot c w x s hc hw hx hnext hmax hroom hready
  have hready : w.wait ≠ .lease → earlierReady s (eStream c.entry) c w = false := fun h => hready.resolve_left h
  constructor
  · intro hdur hfirst i hi
    obtain ⟨u, y, he, hu⟩ := assignRun_assigns (w := w) hc hx hnext hmax hroom hdur hfirst
    refine ⟨u, y, ?_, hu⟩
    rw [← he]
    obtain ⟨rfl, harr, hrun, hwait, hord⟩ | ⟨rfl, hwait, hearlier⟩ | ⟨rfl, hwait⟩ := hi
    · exact execRunAssign_assigns hc hw harr hrun hwait hord (hready (by simp [hwait]))
    · exact execOrderedRunRelease_assigns hc hw hwait hearlier (hready (by simp [hwait]))
    · exact execLeaseWaitRelease_assigns hc hw hwait hfirst hx hdur
  · intro renewed
    refine ⟨fun harr hrun hwait => ⟨fun hord hearlier => ?_, fun hord hdur => ?_⟩, fun hwait hfirst hdur => ?_⟩
    · exact ⟨_, execRunAssign_waits hc hw harr hrun hwait hord hearlier, getCmd_setCmd_self .., rfl, rfl⟩
    · obtain ⟨y, hy⟩ := assignRun_waits (w := w) hc hx hnext hmax hroom hdur
      exact ⟨_, y, execRunAssign_assigns hc hw harr hrun hwait (by simp [hord]) (hready (by simp [hwait])), hy⟩
    · obtain ⟨hstr, -, hhost, hout⟩ := renewLease_if_keeps (x.pendingLease < x.next + eCount c.entry) hx
      exact ⟨_, _, execLeaseWaitRelease_waits hc hw hwait hfirst hx hdur hmax, hstr, rfl, rfl, rfl, congrArg HostIf.cmds hhost, hout⟩

end Sys2Proof.Machine
end

section
/-! SUPPORT. What the operations of the Buffer Pool Manager do to buffers, answers and held requests. -/

namespace Sys2Proof.Machine

/-- `DatasetAbove` and the throttle are all that a change of the fill can touch (R198, R199). -/
theorem updAbove_eq (s : State) : ∃ H a, updAbove s = { s with host := H, bpm := { s.bpm with above := a } } := by
  unfold updAbove throttle
  split
  · split <;> exact ⟨_, _, rfl⟩
  · split <;> exact ⟨_, _, rfl⟩

/-- `t` follows from `s` by the taking of a buffer for an owner, with one reference; beside the pools, what the fill throttles and
the answers nothing changes (R189, R197-R199). -/
structure Took (owner : Byte) (id : Nat) (s t : State) : Prop where
  bufs : t.bpm.bufs = Tab.put s.bpm.bufs id { owner := owner, count := 1 }
  rr : t.bpm.rr = (owner.toNat + 1) % 256
  ev : t.ev = s.ev
  out : t.out = s.out
  streams : t.streams = s.streams
  pack : t.pack = s.pack
  wr : t.wr = s.wr
  rd : t.rd = s.rd
  cip : t.cip = s.cip

/-- What the buffers are after one was taken. -/
theorem Took.reads {owner : Byte} {id : Nat} {s t : State} (h : Took owner id s t) :
    Tab.get? t.bpm.bufs id = some { owner := owner, count := 1 } ∧
      ∀ n, n ≠ id → Tab.get? t.bpm.bufs n = Tab.get? s.bpm.bufs n := by
  rw [h.bufs]
  exact ⟨Tab.get?_put_self .., fun n hn => Tab.get?_put_ne _ _ hn⟩

theorem Took.retag {owner : Byte} {id : Nat} {s t : State} (h : Took owner id s t) (tag : BitVec 128) (n : Nat) :
    Took owner id s (retag tag n t) := by
  obtain ⟨H, e⟩ := retag_eq tag n t
  rw [e]
  exact ⟨h.bufs, h.rr, h.ev, h.out, h.streams, h.pack, h.wr, h.rd, h.cip⟩

theorem Took.answer {owner : Byte} {id : Nat} {s t : State} (h : Took owner id s t) (o : Nat) (r : Response) (i : Option Nat)
    (tag : BitVec 128) : Took owner id s (answer o r i tag t) :=
  ⟨h.bufs, h.rr, h.ev, h.out, h.streams, h.pack, h.wr, h.rd, h.cip⟩

/-- The waiting list is no part of it. -/
theorem Took.waiting {owner : Byte} {id : Nat} {s t : State} (h : Took owner id s t) (l : List Held) (b : Bool) :
    Took owner id s { t with bpm := { t.bpm with held := l, servedHeld := b } } :=
  ⟨h.bufs, h.rr, h.ev, h.out, h.streams, h.pack, h.wr, h.rd, h.cip⟩

/-- A buffer of a pool is taken (R189); answers and held requests stay. -/
theorem takeBuf_took (owner : Byte) (p : Nat) (s : State) :
    p * 32768 ≤ (takeBuf owner.toNat p s).2 ∧ Took owner (takeBuf owner.toNat p s).2 s (takeBuf owner.toNat p s).1 ∧
      (takeBuf owner.toNat p s).1.bpm.answers = s.bpm.answers ∧ (takeBuf owner.toNat p s).1.bpm.held = s.bpm.held := by
  unfold takeBuf
  extract_lets free id b s1 s2
  obtain ⟨H, a, h⟩ := updAbove_eq s2
  have hbufs : s2.bpm.bufs = Tab.put s.bpm.bufs id { owner := owner, count := 1 } := by
    simp only [s2, s1, updPool, BitVec.ofNat_toNat, BitVec.setWidth_eq]
  refine ⟨Nat.le_add_right .., ?_, ?_, ?_⟩ <;> simp only [h]
  · exact ⟨hbufs, rfl, rfl, rfl, rfl, rfl, rfl, rfl, rfl⟩
  · rfl
  · rfl

/-- The grant of a buffer of a pool to a request (R18, R188, R197). -/
theorem grantReq_took (a : AllocReq) (p : Nat) (s : State) : ∃ id, p * 32768 ≤ id ∧ Took a.owner id s (grantReq a p s) ∧
    (grantReq a p s).bpm.answers = ⟨a.owner, .done, some id, a.tag⟩ :: s.bpm.answers ∧
    (grantReq a p s).bpm.held = s.bpm.held := by
  obtain ⟨hid, htook, hans, hheld⟩ := takeBuf_took a.owner p s
  unfold grantReq
  extract_lets r
  refine ⟨r.2, hid, (htook.answer ..).retag .., ?_, ?_⟩ <;> rw [retag_bpm]
  · simp only [answer, BitVec.ofNat_toNat, BitVec.setWidth_eq, r, hans]
  · exact hheld

/-- A held request joins the waiting list and is answered with BACKPRESSURE (R194, R195). -/
theorem holdReq_bpm (o : Byte) (cls size : Nat) (tag : BitVec 128) (s : State) : ∃ b,
    (holdReq o.toNat cls size tag s).1.bpm = { s.bpm with
      nextHeld := s.bpm.nextHeld + 1, held := s.bpm.held ++ [⟨s.bpm.nextHeld, o, cls, size, tag⟩],
      answers := ⟨o, .backpressure, none, tag⟩ :: s.bpm.answers, servedHeld := b } := by
  unfold holdReq
  extract_lets id b s1 s2 b2
  have h2 : s2.bpm = { s.bpm with
      nextHeld := s.bpm.nextHeld + 1, held := s.bpm.held ++ [⟨s.bpm.nextHeld, o, cls, size, tag⟩],
      answers := ⟨o, .backpressure, none, tag⟩ :: s.bpm.answers } := by
    simp only [s2, s1, b, id, answer, BitVec.ofNat_toNat, BitVec.setWidth_eq]
  split
  · refine ⟨true, (raise_bpm ..).trans ?_⟩
    simp only [b2, b, h2]
  · exact ⟨s.bpm.servedHeld, h2⟩

/-- A refused request gets no buffer: it is answered with POOL_EMPTY, or held (R194, R546). -/
theorem refuse_bpm (a : AllocReq) (s : State) : (refuse a s).bpm.bufs = s.bpm.bufs ∧
    (classOf a.owner.toNat a.cls = 2 → resetting s 1 = false →
      (refuse a s).bpm.answers = ⟨a.owner, .poolEmpty, none, a.tag⟩ :: s.bpm.answers ∧ (refuse a s).bpm.held = s.bpm.held) ∧
    (classOf a.owner.toNat a.cls ≠ 2 ∨ resetting s 1 = true →
      (refuse a s).bpm.answers = ⟨a.owner, .backpressure, none, a.tag⟩ :: s.bpm.answers ∧
        (refuse a s).bpm.held =
          s.bpm.held ++ [⟨s.bpm.nextHeld, a.owner, classOf a.owner.toNat a.cls, a.size, a.tag⟩]) := by
  unfold refuse
  extract_lets o c p
  by_cases h : c = 2 ∧ resetting s 1 = false
  · obtain ⟨hc, hr⟩ := h
    have hif : (decide (c = 2) && !resetting s 1) = true := by simp [hc, hr]
    rw [if_pos hif]
    refine ⟨rfl, fun _ _ => ⟨by simp [answer, updPool, o], rfl⟩, fun h => ?_⟩
    rcases h with h | h
    · exact absurd hc h
    · simp [hr] at h
  · have hif : ¬ (decide (c = 2) && !resetting s 1) = true := by simpa using h
    rw [if_neg hif]
    obtain ⟨b, hb⟩ := holdReq_bpm a.owner c a.size a.tag s
    rw [hb]
    exact ⟨rfl, fun h1 h2 => absurd ⟨h1, h2⟩ h, fun _ => ⟨rfl, rfl⟩⟩

/-! Each decision of a cycle answers its request. -/

theorem refuse_answers (a : AllocReq) (s : State) :
    ∃ r i, (refuse a s).bpm.answers = ⟨a.owner, r, i, a.tag⟩ :: s.bpm.answers := by
  obtain ⟨-, hempty, hheld⟩ := refuse_bpm a s
  by_cases h : classOf a.owner.toNat a.cls = 2 ∧ resetting s 1 = false
  · exact ⟨_, _, (hempty h.1 h.2).1⟩
  · rw [not_and_or, Bool.not_eq_false] at h
    exact ⟨_, _, (hheld h).1⟩

theorem grantReq_answers (a : AllocReq) (p : Nat) (s : State) :
    ∃ r i, (grantReq a p s).bpm.answers = ⟨a.owner, r, i, a.tag⟩ :: s.bpm.answers := by
  obtain ⟨id, -, -, h, -⟩ := grantReq_took a p s
  exact ⟨_, _, h⟩

theorem retryReq_answers (a : AllocReq) (s : State) :
    ∃ r i, (retryReq s a).bpm.answers = ⟨a.owner, r, i, a.tag⟩ :: s.bpm.answers := by
  unfold retryReq
  split
  · exact grantReq_answers ..
  · exact refuse_answers ..

theorem decideReq_answers (s0 : State) (q : State × List AllocReq) {a : AllocReq} (ha : tagIntact a.tag a.parity = true) :
    ∃ r i, (decideReq s0 q a).1.bpm.answers = ⟨a.owner, r, i, a.tag⟩ :: q.1.bpm.answers := by
  unfold decideReq
  simp only [ha, Bool.not_true, Bool.false_eq_true, if_false]
  split
  · exact ⟨.poolEmpty, none, by simp [answer]⟩
  split
  · exact grantReq_answers ..
  split
  · exact ⟨.lostConcurrent, none, by simp [answer, updPool]⟩
  · exact refuse_answers ..

theorem mem_insertReq {s : State} {a b : AllocReq} {l : List AllocReq} : b ∈ insertReq s a l ↔ b = a ∨ b ∈ l := by
  induction l with
  | nil => simp [insertReq]
  | cons x l ih =>
    simp only [insertReq]
    split
    · simp
    · simp only [List.mem_cons, ih]; tauto

/-- The order of a cycle holds its requests (R197). -/
theorem mem_cycleOrder {s : State} {b : AllocReq} (l : List AllocReq) : ∀ l0 : List AllocReq,
    b ∈ l.foldl (fun l a => insertReq s a l) l0 ↔ b ∈ l ∨ b ∈ l0 := by
  induction l with
  | nil => simp
  | cons a l ih =>
    intro l0
    simp only [List.foldl_cons, ih, mem_insertReq, List.mem_cons]
    tauto

/-- Where each step of a fold answers its request, all requests are answered in the end, and no answer is lost. -/
theorem foldl_answers {α : Type} {st : α → State} {f : α → AllocReq → α} (l : List AllocReq)
    (hf : ∀ q, ∀ a ∈ l, ∃ r i, (st (f q a)).bpm.answers = ⟨a.owner, r, i, a.tag⟩ :: (st q).bpm.answers) : ∀ q : α,
    (∀ x ∈ (st q).bpm.answers, x ∈ (st (l.foldl f q)).bpm.answers) ∧
      ∀ a ∈ l, ∃ r i, ⟨a.owner, r, i, a.tag⟩ ∈ (st (l.foldl f q)).bpm.answers := by
  induction l with
  | nil => exact fun q => ⟨fun _ h => h, by simp⟩
  | cons b l ih =>
    intro q
    obtain ⟨r, i, hb⟩ := hf q b (List.mem_cons_self ..)
    obtain ⟨hkept, hall⟩ := ih (fun q a ha => hf q a (List.mem_cons_of_mem _ ha)) (f q b)
    refine ⟨fun x hx => hkept x (by rw [hb]; exact List.mem_cons_of_mem _ hx), fun a ha => ?_⟩
    obtain rfl | ha := List.mem_cons.1 ha
    · exact ⟨r, i, hkept _ (by rw [hb]; exact List.mem_cons_self ..)⟩
    · exact hall a ha

/-! References and returns. -/

/-- A misuse is answered and counted, and no buffer changes (R191). -/
theorem misuse_bpm (r : Response) (src id : Nat) (owner : Byte) (tag : BitVec 128) (s : State) :
    (misuse r src owner.toNat id tag s).bpm.bufs = s.bpm.bufs ∧
      (misuse r src owner.toNat id tag s).bpm.answers = ⟨owner, r, none, tag⟩ :: s.bpm.answers ∧
      Tab.getD (misuse r src owner.toNat id tag s).ev.counts src 0 = sat32 (Tab.getD s.ev.counts src 0 + 1) := by
  unfold misuse
  extract_lets o
  rw [raise_bpm, raise_counts]
  exact ⟨rfl, by simp [answer], Tab.getD_put_self ..⟩

/-- A withdrawal from a pool changes its counters alone (R183). -/
theorem quarantine_bpm (p i : Nat) (s : State) : ∃ P, (quarantine p i s).bpm = { s.bpm with pools := P } := by
  unfold quarantine
  extract_lets t
  exact ⟨_, raise_bpm ..⟩

/-- A buffer whose count reached 0 is free (R189). -/
theorem returnBuf_bpm (id : Nat) (s : State) : ∃ P a,
    (returnBuf id s).bpm = { s.bpm with bufs := Tab.del s.bpm.bufs id, pools := P, above := a } := by
  unfold returnBuf
  extract_lets b s1 s2
  obtain ⟨P, hP⟩ : ∃ P, s2.bpm = { s1.bpm with pools := P } := by
    simp only [s2]
    split
    · exact quarantine_bpm ..
    · exact ⟨_, rfl⟩
  obtain ⟨H, a, ha⟩ := updAbove_eq s2
  exact ⟨P, a, by rw [ha]; show { s2.bpm with above := a } = _; rw [hP]⟩

/-- A dropped reference leaves the waiting list (R192). -/
theorem dropRef_held (id : Nat) (s : State) : (dropRef id s).bpm.held = s.bpm.held := by
  unfold dropRef
  split
  · rfl
  split
  · rfl
  split
  · obtain ⟨P, a, h⟩ := returnBuf_bpm id s
    rw [h]
  · rfl

theorem misuse_held (r : Response) (src owner id : Nat) (tag : BitVec 128) (s : State) :
    (misuse r src owner id tag s).bpm.held = s.bpm.held := by
  unfold misuse
  rw [raise_bpm]
  rfl

theorem freeOwn_held (owner id : Nat) (tag : BitVec 128) (s : State) : (freeOwn owner id tag s).bpm.held = s.bpm.held := by
  unfold freeOwn freeReq
  split
  · split
    · split
      · exact misuse_held ..
      · split
        · exact misuse_held ..
        · exact dropRef_held ..
    · rfl
  · rfl

theorem giveOwn_held (owner id new : Nat) (tag : BitVec 128) (s : State) : (giveOwn owner id new tag s).bpm.held = s.bpm.held := by
  unfold giveOwn giveReq
  split
  · split
    · split
      · exact misuse_held ..
      · split
        · exact misuse_held ..
        · rw [retag_bpm]
          rfl
    · rfl
  · rfl

theorem freeRefs_held (refs : List WinRef) (tag : BitVec 128) (s : State) : (freeRefs refs tag s).bpm.held = s.bpm.held :=
  foldl_keeps (fun s => s.bpm.held) (fun _ _ => freeOwn_held ..) ..

/-- The dispatch of a block to an engine asks for no buffer. -/
theorem dispatch_bpm (e : Nat) (s : State) : (dispatch e s).bpm = s.bpm := by
  unfold dispatch
  extract_lets g
  split
  · rfl
  split
  · rfl
  split
  · unfold saveLane
    extract_lets
    split <;> rfl
  split
  · rfl
  split <;> rfl

/-- An engine that takes its granted buffer asks for no other (R229). -/
theorem copyWindow_held (e buf : Nat) (tag : BitVec 128) (s : State) : (copyWindow e buf tag s).bpm.held = s.bpm.held := by
  unfold copyWindow
  extract_lets t g refs u
  rw [dispatch_bpm, freeRefs_held]
  exact giveOwn_held ..

end Sys2Proof.Machine
end

section
/-! Buffers handed out: the statement of ALLOC, REF, GIVE, FREE and HELD_REQUEST_GRANT. -/

namespace Sys2Proof.Machine

/-! ALLOC. -/

/-- A cycle of one request that needs no second round is that request's decision (R197). -/
theorem execAlloc_single {a : AllocReq} {s t : State} (h : decideReq s (s, []) a = (t, [])) : execAlloc [a] s = .next t := by
  show Host.Outcome.next ((decideReq s (s, []) a).2.foldl retryReq (decideReq s (s, []) a).1) = _
  rw [h]
  rfl

section
variable {a : AllocReq} {s : State} (hok : tagIntact a.tag a.parity = true)
include hok

/-- No pool holds a request of no size or of more than a dataset buffer (R188). -/
theorem execAlloc_of_misfit (hsize : a.size = 0 ∨ 25165824 < a.size) :
    execAlloc [a] s = .next (answer a.owner.toNat .poolEmpty none a.tag s) := by
  refine execAlloc_single ?_
  unfold decideReq
  simp only [hok, Bool.not_true, Bool.false_eq_true, if_false]
  exact if_pos hsize

theorem execAlloc_of_pool {p : Nat} (hpos : 0 < a.size) (hmax : a.size ≤ 25165824)
    (hp : choosePool s (classOf a.owner.toNat a.cls) a.size = some p) : execAlloc [a] s = .next (grantReq a p s) := by
  have hfit : ¬ (a.size = 0 ∨ a.size > 25165824) := by omega
  refine execAlloc_single ?_
  unfold decideReq
  simp only [hok, Bool.not_true, Bool.false_eq_true, if_false, if_neg hfit, hp]

theorem execAlloc_of_no_pool (hpos : 0 < a.size) (hmax : a.size ≤ 25165824)
    (hp : choosePool s (classOf a.owner.toNat a.cls) a.size = none) : execAlloc [a] s = .next (refuse a s) := by
  have hfit : ¬ (a.size = 0 ∨ a.size > 25165824) := by omega
  refine execAlloc_single ?_
  unfold decideReq
  simp only [hok, Bool.not_true, Bool.false_eq_true, if_false, if_neg hfit, wasAvailable, hp]

end

/-- Every request of a cycle is answered (R25, R190, R197). -/
theorem execAlloc_answers {reqs : List AllocReq} {s : State} (hok : ∀ a ∈ reqs, tagIntact a.tag a.parity = true) :
    ∃ t, execAlloc reqs s = .next t ∧ ∀ a ∈ reqs, ∃ r i, ⟨a.owner, r, i, a.tag⟩ ∈ t.bpm.answers := by
  refine ⟨_, rfl, fun a ha => ?_⟩
  set order := reqs.foldl (fun l a => insertReq s a l) []
  have hmem : ∀ b, b ∈ order ↔ b ∈ reqs := fun b => by simp [order, mem_cycleOrder]
  obtain ⟨-, hall⟩ := foldl_answers (st := Prod.fst) (f := decideReq s) order
    (fun q b hb => decideReq_answers s q (hok b ((hmem b).1 hb))) (s, [])
  obtain ⟨hkept, -⟩ := foldl_answers (st := id) (f := retryReq) (order.foldl (decideReq s) (s, [])).2
    (fun q b _ => retryReq_answers b q) (order.foldl (decideReq s) (s, [])).1
  obtain ⟨r, i, h⟩ := hall a ((hmem a).2 ha)
  exact ⟨r, i, hkept _ h⟩

/-! REF, GIVE and FREE. -/

/-- The three rows are one request with its operation (R189). -/
theorem exec_bufRows {owner new : Byte} {pool : Fin 5} {index : Fin 32768} {tag : BitVec 128} {p : BitVec 4} {i : Instr}
    (hi : i ∈ [Instr.ref owner pool index tag p, .give owner pool index new tag p, .free owner pool index tag p]) :
    ∃ op, ∀ s, exec i s = .next (bufRequest ⟨op, owner, pool.val * 32768 + index.val, tag⟩ p s) := by
  simp only [List.mem_cons, List.not_mem_nil, or_false] at hi
  obtain rfl | rfl | rfl := hi
  · exact ⟨.ref, fun _ => rfl⟩
  · exact ⟨.give new, fun _ => rfl⟩
  · exact ⟨.free, fun _ => rfl⟩

theorem bufRequest_of_intact {r : BufReq} {p : BitVec 4} {s : State} (hok : tagIntact r.tag p = true)
    (hreset : resetting s 1 = false) : bufRequest r p s = r.run s := by
  simp [bufRequest, hok, hreset]

/-- While the data path is reset a request is held with back-pressure (R184, R546). -/
theorem bufRequest_of_resetting {r : BufReq} {p : BitVec 4} {s : State} (hok : tagIntact r.tag p = true)
    (hreset : resetting s 1 = true) : bufRequest r p s =
      answer r.owner.toNat .backpressure none r.tag { s with bpm := { s.bpm with later := s.bpm.later ++ [r] } } := by
  simp [bufRequest, hok, hreset]

theorem bufRequest_of_poisoned {r : BufReq} {p : BitVec 4} (s : State) (hbad : tagIntact r.tag p = false) :
    bufRequest r p s = badTag r.owner.toNat none r.tag bBpm s := by
  simp [bufRequest, hbad, poisonedTag]

/-- A request for a buffer of another owner is a misuse, whatever it asks (R191). -/
theorem BufReq.run_of_foreign {r : BufReq} {b : Buf} {s : State} (hb : Tab.get? s.bpm.bufs r.id = some b)
    (ho : b.owner ≠ r.owner) : r.run s = misuse .bufNotOwner 0x501 r.owner.toNat r.id r.tag s := by
  have hne : b.owner.toNat ≠ r.owner.toNat := fun h => ho (BitVec.eq_of_toNat_eq h)
  unfold BufReq.run refReq giveReq freeReq
  cases r.op <;> simp [hb, hne]

theorem refReq_of_owner {owner id : Nat} {tag : BitVec 128} {b : Buf} {s : State} (hb : Tab.get? s.bpm.bufs id = some b)
    (ho : b.owner.toNat = owner) : refReq owner id tag s = addRef id (answer owner .done none tag s) := by
  simp [refReq, hb, ho]

theorem freeReq_of_owner {owner id : Nat} {tag : BitVec 128} {b : Buf} {s : State} (hb : Tab.get? s.bpm.bufs id = some b)
    (ho : b.owner.toNat = owner) : freeReq owner id tag s = dropRef id (answer owner .done none tag s) := by
  simp [freeReq, hb, ho]

section
variable {id : Nat} {b : Buf} {s : State} (hb : Tab.get? s.bpm.bufs id = some b)
include hb

theorem addRef_below (h : b.count < 255) :
    addRef id s = { s with bpm := { s.bpm with bufs := Tab.put s.bpm.bufs id { b with count := b.count + 1 } } } := by
  simp [addRef, hb, Nat.not_le.2 h]

/-- A count at its limit pins the buffer (R192). -/
theorem addRef_limit (h : 255 ≤ b.count) :
    addRef id s = raise 0x502 [(3, id / 32768), (15, id % 32768)]
      { s with bpm := { s.bpm with bufs := Tab.put s.bpm.bufs id { b with pinned := true } } } := by
  simp [addRef, hb, h]

theorem dropRef_pinned (h : b.pinned = true) : dropRef id s = s := by
  simp [dropRef, hb, h]

theorem dropRef_above (hp : b.pinned = false) (h : 1 < b.count) :
    dropRef id s = { s with bpm := { s.bpm with bufs := Tab.put s.bpm.bufs id { b with count := b.count - 1 } } } := by
  simp [dropRef, hb, hp, Nat.not_le.2 h]

theorem dropRef_last (hp : b.pinned = false) (h : b.count ≤ 1) : dropRef id s = returnBuf id s := by
  simp [dropRef, hb, hp, h]

end

/-- A command that waits for its lists ends with the status given. -/
theorem failCmd_of_lists {s : State} {slot : Nat} {c : Cmd} (hc : getCmd s slot = some c) (hs : c.stage = .lists) (st : Status)
    (e : ErrInfo) : failCmd slot st e s = settle (complete slot (fun c => baseCpl c st) e s) := by
  unfold failCmd
  simp only [hc, hs]

/-- A tag of an agent that fails its parity is answered, and no command ends (R22). -/
theorem badTag_of_internal {tag : BitVec 128} (h : tagClass tag = 3) (owner : Nat) (id : Option Nat) (block : Nat) (s : State) :
    badTag owner id tag block s = answer owner .parityPoison id tag s := by
  simp [badTag, h]

/-- A tag of a command that fails its parity is answered, and the command ends (R22). -/
theorem badTag_of_lists {tag : BitVec 128} {c : Cmd} {v : Qp} {s : State} (h : tagClass tag ≠ 3)
    (hc : getCmd s (tagSlot tag) = some c) (hs : c.stage = .lists) (ht : Takes s c v) (owner : Byte) (id : Option Nat)
    (block : Nat) : ∃ u, badTag owner.toNat id tag block s = settle u ∧
      Ends s u (tagSlot tag) v (baseCpl c .internalError) ∧ u.bpm.bufs = s.bpm.bufs ∧
      u.bpm.answers = ⟨owner, .parityPoison, id, tag⟩ :: s.bpm.answers := by
  let s1 := answer owner.toNat .parityPoison id tag s
  let e : ErrInfo := { response := Response.parityPoison.code, block := block }
  have hc1 : getCmd s1 (tagSlot tag) = some c := hc
  have ht1 : Takes s1 c v := ht.of_stage c.stage rfl
  have hbad : badTag owner.toNat id tag block s = failCmd (tagSlot tag) .internalError e s1 := by
    unfold badTag
    exact if_neg h
  obtain ⟨hends, -⟩ := complete_ends hc1 (by simp [hs]) ht1 (fun c => baseCpl c .internalError) e
  obtain ⟨_, _, _, _, _, _, _, hbpm⟩ :=
    complete_hostOut (HostOut.refl s1) (tagSlot tag) (fun c => baseCpl c .internalError) e
  refine ⟨complete (tagSlot tag) (fun c => baseCpl c .internalError) e s1, ?_, ⟨hends.posted, hends.released⟩, ?_, ?_⟩
  · exact hbad.trans (failCmd_of_lists hc1 hs _ _)
  · rw [hbpm]
    rfl
  · rw [hbpm]
    simp [s1, answer]

/-! HELD_REQUEST_GRANT. -/

/-- The held request that is due gets a buffer and leaves the waiting list (R195). -/
theorem grantHeld_took {s : State} {h : Held} {p : Nat} (hn : nextHeldReq s = some (h, p)) : ∃ g id,
    grantHeld s = some (g, h, id) ∧ Took h.owner id s g ∧ g.bpm.held = s.bpm.held.filter (fun x => x.id != h.id) ∧
      g.bpm.answers = ⟨h.owner, .done, some id, h.tag⟩ :: s.bpm.answers := by
  obtain ⟨-, htook, hans, hheld⟩ := takeBuf_took h.owner p s
  unfold grantHeld
  simp only [hn]
  refine ⟨_, _, rfl, ((htook.waiting ..).answer ..).retag .., ?_, ?_⟩ <;> rw [retag_bpm]
  · simp only [answer, hheld]
  · simp only [answer, BitVec.ofNat_toNat, BitVec.setWidth_eq, hans]

theorem execHeldRequestGrant_none {s : State} (h : nextHeldReq s = none) : execHeldRequestGrant s = .next s := by
  simp [execHeldRequestGrant, grantHeld, h]

theorem execHeldRequestGrant_opens {s g : State} {h : Held} {id : Nat} (hg : grantHeld s = some (g, h, id))
    (hr : g.wr.bufReq = some h.id) : ∃ cont, execHeldRequestGrant s = .next (settle (openInBuf id cont h.tag g)) := by
  unfold execHeldRequestGrant
  simp only [hg, if_pos hr]
  exact ⟨_, rfl⟩

theorem execHeldRequestGrant_gives {s g : State} {h : Held} {id : Nat} (hg : grantHeld s = some (g, h, id))
    (hr : g.wr.bufReq ≠ some h.id) : execHeldRequestGrant s = .next (takeGrant h.id id h.tag g) := by
  unfold execHeldRequestGrant
  simp only [hg, if_neg hr]

/-- A cipher pair that waits for a request has the buffer (R264). -/
def pairGranted (req id : Nat) (q : CipherPair) : CipherPair :=
  if q.bufReq = some req then { q with buf := some id, bufReq := none } else q

/-- A grant to a request of no engine: the block or job that waits for it has the buffer, and nothing else changes (R195, R196,
R264). -/
theorem takeGrant_of_no_engine {req id : Nat} {tag : BitVec 128} {s : State} (h : ∀ q ∈ s.pack.engines, q.2.bufReq ≠ some req) :
    let t := takeGrant req id tag s
    t.bpm = s.bpm ∧ (s.wr.ckpt = none → t.wr = s.wr) ∧
      (∀ j, s.wr.ckpt = some j → j.bufReq = some req →
        t.wr.ckpt = some { j with buf := some id, bufReq := none, flow := tagWithBuf tag id }) ∧
      (∀ d, s.rd.cur = some d → d.bufReq = some req →
        t.rd.cur = some { d with buf := some id, bufReq := none, flow := tagWithBuf tag id }) ∧
      ∀ n q, Tab.get? s.cip.pairs n = some q → q.bufReq = some req →
        Tab.get? t.cip.pairs n = some { q with buf := some id, bufReq := none } := by
  have hnone : s.pack.engines.find? (fun p => p.2.bufReq == some req) = none := by
    simpa [List.find?_eq_none] using h
  unfold takeGrant
  simp only [hnone]
  refine ⟨trivial, fun hj => ?_, fun j hj hr => ?_, fun d hd hr => ?_, fun n q hq hr => ?_⟩
  · rw [hj, Option.map_none, ← hj]
  · simp [hj, hr]
  · simp [hd, hr]
  · have hmap : (fun p : Nat × CipherPair =>
        if p.2.bufReq = some req then (p.1, { p.2 with buf := some id, bufReq := none }) else p) =
        fun p => (p.1, pairGranted req id p.2) := by
      funext p
      unfold pairGranted
      split <;> rfl
    rw [hmap, Tab.get?_map, hq]
    simp [pairGranted, hr]

/-- A grant to an engine asks for no other buffer (R229). -/
theorem takeGrant_held_of_engine {req id : Nat} {tag : BitVec 128} {s : State} (h : ∃ q ∈ s.pack.engines, q.2.bufReq = some req) :
    (takeGrant req id tag s).bpm.held = s.bpm.held := by
  have hsome : (s.pack.engines.find? (fun p => p.2.bufReq == some req)).isSome := by
    simpa [List.find?_isSome] using h
  obtain ⟨q, hq⟩ := Option.isSome_iff_exists.1 hsome
  unfold takeGrant
  simp only [hq]
  exact copyWindow_held ..

/-! What each request gives its asker. -/

section
variable {owner new : Byte} {pool : Fin 5} {index : Fin 32768} {tag : BitVec 128} {p : BitVec 4} {s : State} {b : Buf}
  (hok : tagIntact tag p = true) (hreset : resetting s 1 = false)
  (hb : Tab.get? s.bpm.bufs (pool.val * 32768 + index.val) = some b)
include hok hreset

/-- A REF, GIVE or FREE that is acted on (R189). -/
theorem exec_bufRows_run (op : BufOp) : Host.Outcome.next (bufRequest ⟨op, owner, pool.val * 32768 + index.val, tag⟩ p s) =
    (.next (BufReq.run ⟨op, owner, pool.val * 32768 + index.val, tag⟩ s) : Result) :=
  congrArg _ (bufRequest_of_intact hok hreset)

include hb

theorem execRef_of_owner (ho : b.owner = owner) : execRef owner pool index tag p s =
    .next (addRef (pool.val * 32768 + index.val) (answer owner.toNat .done none tag s)) :=
  (exec_bufRows_run hok hreset .ref).trans (congrArg _ (refReq_of_owner hb (congrArg _ ho)))

theorem execGive_of_owner (ho : b.owner = owner) : execGive owner pool index new tag p s =
    .next (retag tag (pool.val * 32768 + index.val) (answer owner.toNat .done none tag { s with bpm := { s.bpm with
      bufs := Tab.put s.bpm.bufs (pool.val * 32768 + index.val) { b with owner := new } } })) := by
  refine (exec_bufRows_run hok hreset (.give new)).trans (congrArg _ ((giveReq_of_owner hb (congrArg _ ho)).trans ?_))
  rw [BitVec.ofNat_toNat, BitVec.setWidth_eq]

theorem execFree_of_owner (ho : b.owner = owner) : execFree owner pool index tag p s =
    .next (dropRef (pool.val * 32768 + index.val) (answer owner.toNat .done none tag s)) :=
  (exec_bufRows_run hok hreset .free).trans (congrArg _ (freeReq_of_owner hb (congrArg _ ho)))

end

/-- A retag names the buffer in the tag of the command (R18). -/
theorem getCmd_retag_tagged {tag : BitVec 128} {c : Cmd} {s : State} (id : Nat) (h : tagClass tag ≠ 3)
    (hc : getCmd s (tagSlot tag) = some c) :
    getCmd (retag tag id s) (tagSlot tag) = some { c with tag := tagWithBuf c.tag id } := by
  rw [retag, if_neg h, getCmd_updCmd_self, hc]
  rfl

/-- Settles O39: ALLOC by its requests, REF, GIVE and FREE by the owner of record, the grants by who waits. -/
theorem buffersAreHandedOut : Obligations.BuffersAreHandedOut := by
  unfold Obligations.BuffersAreHandedOut
  refine ⟨?_, fun reqs s hok => execAlloc_answers hok, ?_, fun s => ⟨execHeldRequestGrant_none, fun h p hn => ?_⟩⟩
  · intro a s hok
    refine ⟨fun hsize => ⟨_, execAlloc_of_misfit hok hsize, rfl, by simp [answer]⟩, ?_⟩
    intro hpos hmax cls
    refine ⟨fun p hp => ?_, fun hp => ?_⟩
    · obtain ⟨id, hid, htook, hans, hheld⟩ := grantReq_took a p s
      obtain ⟨hself, hothers⟩ := htook.reads
      exact ⟨_, id, execAlloc_of_pool hok hpos hmax hp, hid, hself, hothers, hans, hheld, htook.rr, htook.ev, htook.out,
        htook.streams⟩
    · exact ⟨_, execAlloc_of_no_pool hok hpos hmax hp, refuse_bpm a s⟩
  · intro owner new pool index tag p s id rows
    refine ⟨fun hok hreset => ⟨fun b hb => ⟨fun ho => ?_, fun ho i hi => ?_⟩, fun hnone => ⟨?_, ?_⟩⟩, ?_, ?_⟩
    · let s1 := answer owner.toNat .done none tag s
      have hb1 : Tab.get? s1.bpm.bufs id = some b := hb
      have hans : s1.bpm.answers = ⟨owner, .done, none, tag⟩ :: s.bpm.answers := by simp [s1, answer]
      have href := execRef_of_owner hok hreset hb ho
      have hgive := execGive_of_owner (new := new) hok hreset hb ho
      have hfree := execFree_of_owner hok hreset hb ho
      have hput : ∀ (x : Buf) n, n ≠ id → Tab.get? (Tab.put s.bpm.bufs id x) n = Tab.get? s.bpm.bufs n :=
        fun x n hn => Tab.get?_put_ne _ _ hn
      refine ⟨fun h => ?_, fun h => ?_, ?_, fun h => ?_, fun hp h => ?_, fun hp h => ?_⟩
      · exact ⟨_, href.trans (congrArg _ (addRef_below hb1 h)), Tab.get?_put_self .., rfl, hput _, hans, rfl⟩
      · refine ⟨_, href.trans (congrArg _ (addRef_limit hb1 h)), ?_, ?_⟩
        · rw [raise_bpm]
          exact Tab.get?_put_self ..
        · rw [raise_counts]
          exact Tab.getD_put_self ..
      · refine ⟨_, hgive, ?_⟩
        rw [retag_bpm]
        exact ⟨Tab.get?_put_self .., retag_ev .., hput _, hans, fun c hcls hc => getCmd_retag_tagged _ hcls hc⟩
      · exact ⟨_, hfree.trans (congrArg _ (dropRef_pinned hb1 h)), rfl, hans, rfl⟩
      · exact ⟨_, hfree.trans (congrArg _ (dropRef_above hb1 hp h)), Tab.get?_put_self .., rfl, hput _, hans⟩
      · obtain ⟨P, a, hbpm⟩ := returnBuf_bpm id s1
        refine ⟨_, hfree.trans (congrArg _ (dropRef_last hb1 hp h)), ?_⟩
        rw [hbpm]
        exact ⟨Tab.get?_del_self .., fun n hn => Tab.get?_del_ne _ hn, hans⟩
    · obtain ⟨op, he⟩ := exec_bufRows hi
      exact ⟨_, ((he s).trans (exec_bufRows_run hok hreset op)).trans (congrArg _ (BufReq.run_of_foreign hb ho)), misuse_bpm ..⟩
    · have hrun : freeReq owner.toNat id tag s = misuse .bufDoubleFree 0x500 owner.toNat id tag s := by simp [freeReq, hnone]
      exact ⟨_, (exec_bufRows_run hok hreset .free).trans (congrArg _ hrun), misuse_bpm ..⟩
    · intro i hi
      obtain ⟨hbufs, hans, -⟩ := misuse_bpm .bufNotOwner 0x501 id owner tag s
      simp only [List.mem_cons, List.not_mem_nil, or_false] at hi
      obtain rfl | rfl := hi
      · have hrun : refReq owner.toNat id tag s = misuse .bufNotOwner 0x501 owner.toNat id tag s := by simp [refReq, hnone]
        exact ⟨_, (exec_bufRows_run hok hreset .ref).trans (congrArg _ hrun), hbufs, hans⟩
      · have hrun : giveReq owner.toNat id new.toNat tag s = misuse .bufNotOwner 0x501 owner.toNat id tag s := by
          simp [giveReq, hnone]
        exact ⟨_, (exec_bufRows_run hok hreset (.give new)).trans (congrArg _ hrun), hbufs, hans⟩
    · intro hok hreset i hi
      obtain ⟨op, he⟩ := exec_bufRows hi
      refine ⟨_, (he s).trans (congrArg _ (bufRequest_of_resetting hok hreset)), rfl, ?_, ?_⟩
      · simp [answer]
      · simp [answer]
    · intro hbad i hi
      obtain ⟨op, he⟩ := exec_bufRows hi
      have hrow := (he s).trans (congrArg _ (bufRequest_of_poisoned s hbad))
      refine ⟨fun hagent => ?_, fun c v hcmd hc hs ht => ?_⟩
      · exact ⟨_, hrow.trans (congrArg _ (badTag_of_internal hagent ..)), rfl, by simp [answer]⟩
      · obtain ⟨u, hu, hends, hbufs, hans⟩ := badTag_of_lists hcmd hc hs ht owner none bBpm
        exact ⟨u, hrow.trans (congrArg _ hu), hends, hbufs, hans⟩
  · obtain ⟨g, id, hg, htook, hheld, hans⟩ := grantHeld_took hn
    obtain ⟨hself, hothers⟩ := htook.reads
    refine ⟨fun hwr heng => ?_, fun hwr => ?_, fun hwr heng => ?_⟩
    · obtain ⟨hbpm, hnone, hckpt, hcur, hpairs⟩ :=
        takeGrant_of_no_engine (req := h.id) (id := id) (tag := h.tag) (s := g) (by rwa [htook.pack])
      rw [htook.wr] at hnone hckpt
      rw [htook.rd] at hcur
      rw [htook.cip] at hpairs
      refine ⟨_, id, execHeldRequestGrant_gives hg (by rwa [htook.wr]), ?_⟩
      rw [hbpm]
      exact ⟨hself, hothers, hheld, hans, hnone, hckpt, hcur, hpairs⟩
    · obtain ⟨cont, he⟩ := execHeldRequestGrant_opens hg (by rwa [htook.wr])
      exact ⟨_, _, id, he, rfl, rfl, rfl, rfl, hself, hheld⟩
    · refine ⟨_, execHeldRequestGrant_gives hg (by rwa [htook.wr]), ?_⟩
      rw [takeGrant_held_of_engine (by rwa [htook.pack])]
      exact hheld

end Sys2Proof.Machine
end

section
/-! The registers of a function: what a register write, Enable, Shutdown and its end change, and what they leave alone
(R41, R44-R48, R50, R92). -/

namespace Sys2Proof.Machine

theorem fnExists_congr {s t : State} (hv : t.host.vfEnable = s.host.vfEnable) (hn : t.host.numVfs = s.host.numVfs) (f : Nat) :
    fnExists t f = fnExists s f := by
  simp [fnExists, hv, hn]

@[simp] theorem fnExists_updFn (f g : Nat) (k : Fn → Fn) (s : State) : fnExists (updFn f k s) g = fnExists s g := rfl

@[simp] theorem updFn_cmds (f : Nat) (k : Fn → Fn) (s : State) : (updFn f k s).host.cmds = s.host.cmds := rfl

@[simp] theorem setQp_cmds (f q : Nat) (v : Qp) (s : State) : (setQp f q v s).host.cmds = s.host.cmds := rfl

@[simp] theorem slotsHeld_updFn (f g : Nat) (k : Fn → Fn) (s : State) : slotsHeld (updFn f k s) g = slotsHeld s g := rfl

@[simp] theorem shutdownCheck_cmds (f : Nat) (s : State) : (shutdownCheck f s).host.cmds = s.host.cmds := by
  unfold shutdownCheck
  extract_lets
  split <;> rfl

/-- ShutdownDone goes up where it is due; nothing else of the function changes. -/
theorem getFn_shutdownCheck_self (f : Nat) (s : State) :
    getFn (shutdownCheck f s) f = { getFn s f with
      shutdownDone := (getFn s f).shutdownDone || ((getFn s f).shutdown && slotsHeld s f == 0) } := by
  unfold shutdownCheck
  extract_lets x
  split
  · rename_i h
    simp only [Bool.and_eq_true] at h
    simp [x, h] at h ⊢
  · rename_i h
    have e : (x.shutdownDone || (x.shutdown && slotsHeld s f == 0)) = x.shutdownDone := by
      revert h
      cases x.shutdown <;> cases x.shutdownDone <;> cases slotsHeld s f == 0 <;> simp
    show x = _
    rw [e]

theorem getFn_shutdownCheck_ne {f g : Nat} (s : State) (h : g ≠ f) : getFn (shutdownCheck f s) g = getFn s g := by
  unfold shutdownCheck
  extract_lets x
  split
  · exact getFn_updFn_ne _ _ h
  · rfl

/-- While Enable is 1, a write at an offset of the admin queue registers is ignored (R47). -/
theorem execRegisterWrite_of_enabled {fn : FnId} {o : BitVec 20} {s : State} (hx : fnExists s fn.val = true)
    (he : (getFn s fn.val).enable = true) (ho : o ∈ [0x1000#20, 0x1004#20, 0x1008#20, 0x100C#20, 0x1010#20]) (wide : Bool)
    (value : BitVec 64) : execRegisterWrite fn o wide value s = .next s := by
  simp only [List.mem_cons, List.not_mem_nil, or_false] at ho
  obtain rfl | rfl | rfl | rfl | rfl := ho <;> simp [execRegisterWrite, hx, he]

/-- The high word of ACQ_BASE goes with the low word that waits for it (R41, R47, R48). -/
theorem execRegisterWrite_highWord {fn : FnId} {s : State} (hx : fnExists s fn.val = true) (he : (getFn s fn.val).enable = false)
    (value : BitVec 64) {low : BitVec 32} (hl : (getFn s fn.val).lowWord = some (0x1008, low)) :
    execRegisterWrite fn 0x100C#20 false value s = .next (updFn fn.val (fun x =>
      { x with acqBase := baseOf (value.extractLsb' 0 32 ++ low), lowWord := none }) s) := by
  simp [execRegisterWrite, hx, he, hl, putBase]

/-- Settles O7: each register by its branch of a write; the two words of a base make it up again. -/
theorem queueBaseWrites : Obligations.QueueBaseWrites := by
  unfold Obligations.QueueBaseWrites
  intro fn value s hx
  refine ⟨fun he => ⟨?_, ?_, ?_⟩, fun he o ho => ?_⟩
  · refine ⟨updFn fn.val (fun x => { putBase 0x1000 value x with lowWord := none }) s, ?_, ?_, fun g hg => getFn_updFn_ne _ _ hg,
      rfl, rfl, rfl, rfl, rfl⟩
    · simp [execRegisterWrite, hx, he]
    · simp [putBase, baseOf]
  · have words : (value >>> 32).extractLsb' 0 32 ++ value.extractLsb' 0 32 = value := by
      ext i hi
      simp
      grind
    refine ⟨updFn fn.val (fun x => { x with lowWord := some (0x1008, value.extractLsb' 0 32) }) s, _, ?_,
      execRegisterWrite_highWord (by simpa using hx) (by simpa using he) _
      (low := value.extractLsb' 0 32) (by simp), ?_⟩
    · simp [execRegisterWrite, hx, he]
    · simp [baseOf, words]
  · exact ⟨updFn fn.val (fun x => { x with aqSize := value.extractLsb' 0 32 }) s, by simp [execRegisterWrite, hx, he], by simp⟩
  · exact ⟨execRegisterWrite_of_enabled hx he ho .., execRegisterWrite_of_enabled hx he ho ..⟩

/-- Settles O2, by the empty queue's branch of a step. -/
theorem idleStepCountsTime : Obligations.IdleStepCountsTime := by
  unfold Obligations.IdleStepCountsTime
  intro s hs
  simp [Machine.step, hs]

/-- A parameter depends on the dictionary alone. -/
theorem param_of_dict {s t : State} (h : t.dict = s.dict) (i j : Nat) : param t i j = param s i j := by
  simp [param, entryBytesOf, h]

/-- The state in which Enable judges the admin queue pair: the function's Enable is 1, and the PF's pending count is in force. -/
def enabling (f : Nat) (s : State) : State :=
  updFn f (fun x => { x with enable := true }) (if f = 0 && !s.host.vfEnable then takeQpCount 0 s else s)

theorem getFn_enabling_self (f : Nat) (s : State) : getFn (enabling f s) f = { getFn s f with enable := true } := by
  unfold enabling
  rw [getFn_updFn_self]
  split <;> rfl

theorem getFn_enabling_ne {f g : Nat} (s : State) (h : g ≠ f) : getFn (enabling f s) g = getFn s g := by
  unfold enabling
  rw [getFn_updFn_ne _ _ h]
  split <;> rfl

theorem enabling_frame (f : Nat) (s : State) : (enabling f s).host.cmds = s.host.cmds ∧ (enabling f s).out = s.out ∧
    (enabling f s).streams = s.streams ∧ (enabling f s).cart = s.cart ∧ (enabling f s).ev = s.ev ∧
    (enabling f s).dict = s.dict := by
  unfold enabling
  split <;> exact ⟨rfl, rfl, rfl, rfl, rfl, rfl⟩

/-- A depth of AQ_SIZE lies outside 2 to 4,096 (R48). -/
abbrev depthsBad (x : Fn) : Prop :=
  (x.aqSize.extractLsb' 0 16).toNat < 2 ∨ 4096 < (x.aqSize.extractLsb' 0 16).toNat ∨
    (x.aqSize.extractLsb' 16 16).toNat < 2 ∨ 4096 < (x.aqSize.extractLsb' 16 16).toNat

/-- Enable from 0 to 1: nothing starts while Fatal is 1, a wrong depth sets Fatal, else the admin queue pair starts
(R44, R45, R47, R48). -/
theorem execEnable_of_disabled {fn : FnId} {s : State} (hx : fnExists s fn.val = true) (he : (getFn s fn.val).enable = false) :
    execEnable fn s =
      if (getFn s fn.val).fatal then .next (enabling fn.val s)
      else if depthsBad (getFn s fn.val) then .next (updFn fn.val (fun x => { x with fatal := true }) (enabling fn.val s))
      else .next (shutdownCheck fn.val (updFn fn.val (fun x =>
        { x with ready := true, qps := Tab.put x.qps 0 (adminQp (enabling fn.val s) x) }) (enabling fn.val s))) := by
  unfold execEnable
  simp only [hx, he, Bool.not_true, Bool.or_false, Bool.false_eq_true, if_false]
  rfl

/-- Settles O9: with the depths in range the admin queue pair is put in place, otherwise Fatal goes up. -/
theorem enableStartsFunction : Obligations.EnableStartsFunction := by
  unfold Obligations.EnableStartsFunction
  intro fn s hx he x sq cq
  have hcall := execEnable_of_disabled hx he
  refine ⟨fun hf h1 h2 h3 h4 => ?_, fun hr hbad => ?_⟩
  · have hok : ¬ depthsBad (getFn s fn.val) := by
      show ¬ (sq < 2 ∨ 4096 < sq ∨ cq < 2 ∨ 4096 < cq)
      omega
    rw [if_neg (by simp [x] at hf; simp [hf]), if_neg hok] at hcall
    obtain ⟨hcmds, hout, hstr, hcart, hev, hdict⟩ := enabling_frame fn.val s
    refine ⟨_, adminQp (enabling fn.val s) x, hcall, ?_, ?_, ?_, ?_, rfl, rfl, rfl, rfl,
      param_of_dict hdict .., rfl, rfl, rfl, rfl, rfl, rfl, rfl, rfl, rfl, rfl, rfl, rfl, fun g hg => ?_, ?_⟩
    · simp [getFn_shutdownCheck_self, getFn_enabling_self]
    · simp [getFn_shutdownCheck_self, getFn_enabling_self]
    · simpa [getFn_shutdownCheck_self, getFn_enabling_self] using hf
    · rw [getQp_shutdownCheck]
      simp [getQp, getFn_enabling_self, adminQp, x]
    · rw [getFn_shutdownCheck_ne _ hg, getFn_updFn_ne _ _ hg, getFn_enabling_ne _ hg]
    · simp [hcmds, hout, hstr, hcart, hev]
  · by_cases hf : x.fatal = true
    · rw [if_pos hf] at hcall
      exact ⟨_, hcall, by simpa [getFn_enabling_self] using hf, by simpa [getFn_enabling_self] using hr,
        by simp [getFn_enabling_self], by simp [getFn_enabling_self, x]⟩
    · rw [if_neg hf, if_pos (hbad.resolve_left hf)] at hcall
      exact ⟨_, hcall, by simp, by simpa [getFn_enabling_self] using hr, by simp [getFn_enabling_self],
        by simp [getFn_enabling_self, x]⟩

/-- Settles O10: ShutdownDone as the check at the end of SHUTDOWN sets it; a function in shutdown has no room to fetch. -/
theorem shutdownAndResume : Obligations.ShutdownAndResume := by
  unfold Obligations.ShutdownAndResume
  intro fn s hx
  refine ⟨⟨shutdownCheck fn.val (updFn fn.val (fun x => { x with shutdown := true }) s), ?_, ?_, fun h => ?_, fun h => ?_,
    fun q v => ?_, ?_, ?_⟩, ?_⟩
  · simp [execShutdown, hx]
  · simp [getFn_shutdownCheck_self]
  · simp [getFn_shutdownCheck_self, h]
  · simp [getFn_shutdownCheck_self, h]
  · simp [fetchRoom, getFn_shutdownCheck_self]
  · simp
  · simp
  · exact ⟨updFn fn.val (fun x => { x with shutdown := false, shutdownDone := false }) s, by simp [execShutdownResume, hx],
      by simp, by simp, rfl, rfl⟩

end Sys2Proof.Machine
end

section
/-! Doorbells and interrupts: what a doorbell write stores, when it is ignored, and what a vector raised or unmasked does
(R40, R45, R57, R58, R75, R76). -/

namespace Sys2Proof.Machine

theorem execSqTailDoorbell_of_ok {fn : FnId} {qp : Fin 4096} {s : State} (hr : (getFn s fn.val).ready = true)
    (hd : qp.val < doorbells fn.val) {value : BitVec 16} {v : Qp} (hv : getQp s fn.val qp.val = some v)
    (hok : sqTailOk v value.toNat = true) :
    execSqTailDoorbell fn qp value s = .next (setQp fn.val qp.val { v with sqTail := value.toNat } s) := by
  have hn : ¬ doorbells fn.val ≤ qp.val := by omega
  simp only [execSqTailDoorbell, hr, hn, hv, hok, Bool.not_true, decide_false, Bool.or_false, Bool.false_eq_true, if_false, if_true]

theorem execSqTailDoorbell_of_bad {fn : FnId} {qp : Fin 4096} {s : State} (hr : (getFn s fn.val).ready = true)
    (hd : qp.val < doorbells fn.val) {value : BitVec 16}
    (hbad : ∀ v, getQp s fn.val qp.val = some v → sqTailOk v value.toNat = false) :
    execSqTailDoorbell fn qp value s = .next (badDoorbell fn.val qp.val value.toNat s) := by
  have hn : ¬ doorbells fn.val ≤ qp.val := by omega
  cases hv : getQp s fn.val qp.val with
  | none => simp [execSqTailDoorbell, hr, hn, hv]
  | some v => simp [execSqTailDoorbell, hr, hn, hv, hbad v hv]

/-- A queue pair after the host has consumed its completions up to `n` (R57, R75, R81). -/
def consumed (v : Qp) (n : Nat) : Qp :=
  let w := { v with cqHead := n, recent := v.recent.take ((v.cqTail + v.cqDepth - n) % v.cqDepth) }
  if n = v.cqTail then { w with unannounced := 0, timer := false } else w

theorem execCqHeadDoorbell_of_ok {fn : FnId} {qp : Fin 4096} {s : State} (hr : (getFn s fn.val).ready = true)
    (hd : qp.val < doorbells fn.val) {value : BitVec 16} {v : Qp} (hv : getQp s fn.val qp.val = some v)
    (hok : cqHeadOk v value.toNat = true) :
    execCqHeadDoorbell fn qp value s = .next (setQp fn.val qp.val (consumed v value.toNat) s) := by
  have hn : ¬ doorbells fn.val ≤ qp.val := by omega
  simp only [execCqHeadDoorbell, hr, hn, hv, hok, Bool.not_true, decide_false, Bool.or_false, Bool.false_eq_true, if_false, if_true]
  rfl

theorem execCqHeadDoorbell_of_bad {fn : FnId} {qp : Fin 4096} {s : State} (hr : (getFn s fn.val).ready = true)
    (hd : qp.val < doorbells fn.val) {value : BitVec 16}
    (hbad : ∀ v, getQp s fn.val qp.val = some v → cqHeadOk v value.toNat = false) :
    execCqHeadDoorbell fn qp value s = .next (badDoorbell fn.val qp.val value.toNat s) := by
  have hn : ¬ doorbells fn.val ≤ qp.val := by omega
  cases hv : getQp s fn.val qp.val with
  | none => simp [execCqHeadDoorbell, hr, hn, hv]
  | some v => simp [execCqHeadDoorbell, hr, hn, hv, hbad v hv]

/-- An ignored doorbell counts event 0x400 and changes no queue pair, command or stream (R57). -/
theorem badDoorbell_frame (f q n : Nat) (s : State) :
    Tab.getD (badDoorbell f q n s).ev.counts 0x400 0 = sat32 (Tab.getD s.ev.counts 0x400 0 + 1) ∧
      (∀ g r, getQp (badDoorbell f q n s) g r = getQp s g r) ∧ (badDoorbell f q n s).host.cmds = s.host.cmds ∧
      (badDoorbell f q n s).streams = s.streams := by
  refine ⟨?_, fun g r => getQp_raise .., raise_cmds .., raise_streams ..⟩
  rw [badDoorbell, raise_counts, Tab.getD_put_self]

/-- Settles O11: a valid doorbell writes one queue pair. -/
theorem validDoorbellsStore : Obligations.ValidDoorbellsStore := by
  unfold Obligations.ValidDoorbellsStore
  intro fn qp value v s hr hd hv
  refine ⟨fun hok => ?_, fun hok => ?_⟩
  · exact ⟨_, execSqTailDoorbell_of_ok hr hd hv hok, getQp_setQp_self .., fun hfr => by simp [fetchRoom, hfr], fun g r h => getQp_setQp_ne _ _ h, rfl, rfl, rfl⟩
  · refine ⟨_, consumed v value.toNat, execCqHeadDoorbell_of_ok hr hd hv hok, getQp_setQp_self .., ?_, ?_, ?_, fun h => ?_, fun h => ?_,
      fun g r h => getQp_setQp_ne _ _ h, rfl, rfl, rfl⟩
    · unfold consumed; split <;> rfl
    · unfold consumed; split <;> rfl
    · unfold consumed; split <;> rfl
    · simp [consumed, h]
    · simp [consumed, h]

/-- Settles O12: an invalid doorbell is the event alone. -/
theorem invalidDoorbellsAreIgnored : Obligations.InvalidDoorbellsAreIgnored := by
  unfold Obligations.InvalidDoorbellsAreIgnored
  intro fn qp value s
  refine ⟨fun h => ?_, fun hr hd => ⟨fun hbad => ?_, fun hbad => ?_⟩⟩
  · have hg : (!(getFn s fn.val).ready || decide (doorbells fn.val ≤ qp.val)) = true := by simpa using h
    exact ⟨by simp [execSqTailDoorbell, hg], by simp [execCqHeadDoorbell, hg]⟩
  · exact ⟨_, execSqTailDoorbell_of_bad hr hd hbad, badDoorbell_frame ..⟩
  · exact ⟨_, execCqHeadDoorbell_of_bad hr hd hbad, badDoorbell_frame ..⟩

/-- A masked vector that is raised keeps its message in the pending bit (R76). -/
theorem sendMsix_masked {f v : Nat} {s : State} (h : (Tab.getD (getFn s f).msix v {}).masked = true) :
    sendMsix f v s = updFn f (fun x =>
      { x with msix := Tab.put x.msix v { Tab.getD (getFn s f).msix v {} with pend := true } }) s :=
  if_pos h

theorem sendMsix_unmasked {f v : Nat} {s : State} (h : (Tab.getD (getFn s f).msix v {}).masked = false) :
    sendMsix f v s = emit (.msix f v) s :=
  if_neg (by rw [h]; decide)

/-- Unmasking a vector clears its mask; a message held in its pending bit follows (R76). -/
theorem msixWrite_unmask_pending {f v : Nat} {s : State} (h : (Tab.getD (getFn s f).msix v {}).pend = true) :
    msixWrite f v 3 0#32 s = emit (.msix f v) (updFn f (fun x =>
      { x with msix := Tab.put x.msix v { Tab.getD (getFn s f).msix v {} with masked := false, pend := false } }) s) :=
  if_pos h

theorem msixWrite_unmask_quiet {f v : Nat} {s : State} (h : (Tab.getD (getFn s f).msix v {}).pend = false) :
    msixWrite f v 3 0#32 s = updFn f (fun x =>
      { x with msix := Tab.put x.msix v { Tab.getD (getFn s f).msix v {} with masked := false } }) s :=
  if_neg (by rw [h]; decide)

/-- Settles O13: the raised vector by its mask, the unmasking by its pending bit. -/
theorem unmaskSendsPendingMessage : Obligations.UnmaskSendsPendingMessage := by
  unfold Obligations.UnmaskSendsPendingMessage
  intro fn vector s hx hv
  refine ⟨fun hm => ?_, fun hm => ?_, ?_⟩
  · rw [sendMsix_masked hm]
    simp
  · rw [sendMsix_unmasked hm]
    simp
  · refine ⟨msixWrite fn.val vector.val 3 0#32 s, ?_, ?_⟩
    · simp [execMsixUnmask, hx, hv]
    · cases hp : (Tab.getD (getFn s fn.val).msix vector.val {}).pend with
      | false =>
        rw [msixWrite_unmask_quiet hp]
        simp
      | true =>
        rw [msixWrite_unmask_pending hp]
        simp

/-- Settles O14: the queue pair's count restarts and its vector is raised. -/
theorem intTimeRaisesVector : Obligations.IntTimeRaisesVector := by
  unfold Obligations.IntTimeRaisesVector
  intro fn qp v s hv ht hi hu
  let u := setQp fn.val qp.val { v with unannounced := 0, timer := false } s
  have hmsix : (getFn u fn.val).msix = (getFn s fn.val).msix := by simp [u, setQp]
  refine ⟨sendMsix fn.val v.vector u, ?_, ?_, fun hm => ?_, fun hm => ?_, ?_⟩
  · simp [execIntTimeExpiry, hv, ht, hi, hu, u]
  · simp [u]
  · rw [← hmsix] at hm
    rw [sendMsix_unmasked hm]
    rfl
  · rw [← hmsix] at hm
    rw [sendMsix_masked hm]
    exact ⟨rfl, by simp⟩
  · simp [u]

end Sys2Proof.Machine
end

section
/-! What a completion does exactly: the state after its entry is written, the queue pair that it leaves, and the frame of the
end of a command (R59, R65, R71, R73, R75, R77-R79). -/

namespace Sys2Proof.Machine

/-- A queue pair after a completion, its interrupt state included. -/
def afterCpl (h : HeldCpl) (v : Qp) : Qp := (coalesce h.cpl.status.isError (cqAdvance h v)).1

/-- A completion entry written and its vector raised, before its slot is released. -/
def writeCpl (f q : Nat) (h : HeldCpl) (v : Qp) (s : State) : State :=
  let s := emit (.completion (v.cqBase + BitVec.ofNat 64 (32 * v.cqTail)) (h.cpl.entry v.phase)) (setQp f q (afterCpl h v) s)
  if (coalesce h.cpl.status.isError (cqAdvance h v)).2 then sendMsix f v.vector s else s

theorem issueCpl_of_slot {f q n : Nat} {h : HeldCpl} {v : Qp} {s : State} (hq : getQp s f q = some v) (hn : h.slot = some n) :
    issueCpl f q h s = dropCmd n (writeCpl f q h v s) := by
  unfold issueCpl
  rw [hq]
  simp only [hn]
  rfl

theorem issueCpl_of_no_slot {f q : Nat} {h : HeldCpl} {v : Qp} {s : State} (hq : getQp s f q = some v) (hn : h.slot = none) :
    issueCpl f q h s = writeCpl f q h v s := by
  unfold issueCpl
  rw [hq]
  simp only [hn]
  rfl

/-- The part of a queue pair that a completion does not look at is as it was. -/
theorem afterCpl_eq (h : HeldCpl) (v : Qp) :
    ∃ k b, afterCpl h v = { cqAdvance h v with unannounced := k, timer := b } := coalesce_keeps ..

/-- `t` differs from `s` in the functions and the outputs alone. -/
def FnsOut (s t : State) : Prop := ∃ F O, t = { s with host := { s.host with fns := F }, out := O }

theorem FnsOut.refl (s : State) : FnsOut s s := ⟨_, _, rfl⟩

theorem FnsOut.trans {s t u : State} (h : FnsOut s t) (k : FnsOut t u) : FnsOut s u := by
  obtain ⟨F, O, rfl⟩ := h
  obtain ⟨F', O', rfl⟩ := k
  exact ⟨F', O', rfl⟩

theorem FnsOut.cmds {s t : State} (h : FnsOut s t) : t.host.cmds = s.host.cmds := by
  obtain ⟨F, O, rfl⟩ := h
  rfl

theorem setQp_fnsOut (f q : Nat) (v : Qp) (s : State) : FnsOut s (setQp f q v s) := ⟨_, _, rfl⟩
theorem updFn_fnsOut (f : Nat) (k : Fn → Fn) (s : State) : FnsOut s (updFn f k s) := ⟨_, _, rfl⟩
theorem emit_fnsOut (o : Out) (s : State) : FnsOut s (emit o s) := ⟨_, _, rfl⟩

theorem sendMsix_fnsOut (f v : Nat) (s : State) : FnsOut s (sendMsix f v s) := by
  unfold sendMsix
  extract_lets
  split
  · exact updFn_fnsOut ..
  · exact emit_fnsOut ..

theorem shutdownCheck_fnsOut (f : Nat) (s : State) : FnsOut s (shutdownCheck f s) := by
  unfold shutdownCheck
  extract_lets
  split
  · exact updFn_fnsOut ..
  · exact .refl s

theorem writeCpl_fnsOut (f q : Nat) (h : HeldCpl) (v : Qp) (s : State) : FnsOut s (writeCpl f q h v s) := by
  unfold writeCpl
  extract_lets s1
  have h1 : FnsOut s s1 := (setQp_fnsOut ..).trans (emit_fnsOut ..)
  split
  · exact h1.trans (sendMsix_fnsOut ..)
  · exact h1

@[simp] theorem getQp_writeCpl_self (f q : Nat) (h : HeldCpl) (v : Qp) (s : State) :
    getQp (writeCpl f q h v s) f q = some (afterCpl h v) := by
  unfold writeCpl
  extract_lets s1
  split <;> simp [s1]

theorem getQp_writeCpl_ne {f q g r : Nat} (h : HeldCpl) (v : Qp) (s : State) (hne : g ≠ f ∨ r ≠ q) :
    getQp (writeCpl f q h v s) g r = getQp s g r := by
  unfold writeCpl
  extract_lets s1
  split <;> simp [s1, getQp_setQp_ne _ _ hne]

/-- A completion is written at the tail of its queue, with one message after it at most (R65, R73). -/
theorem writeCpl_out (f q : Nat) (h : HeldCpl) (v : Qp) (s : State) : ∃ l, l.length ≤ 1 ∧ (writeCpl f q h v s).out =
    l ++ .completion (v.cqBase + BitVec.ofNat 64 (32 * v.cqTail)) (h.cpl.entry v.phase) :: s.out := by
  unfold writeCpl
  extract_lets s1
  have h1 : s1.out = .completion (v.cqBase + BitVec.ofNat 64 (32 * v.cqTail)) (h.cpl.entry v.phase) :: s.out := rfl
  split
  · obtain ⟨l, hl, hn⟩ := sendMsix_out f v.vector s1
    exact ⟨l, hn, by rw [hl, h1]⟩
  · exact ⟨[], by simp, by rw [h1]; rfl⟩

/-- The queue pair of a command takes its completion at once, whatever is left to the posting (R23, R59, R81). -/
structure TakesNow (s : State) (c : Cmd) (v : Qp) : Prop where
  live : c.orphan = false
  qp : getQp s c.fn c.qp = some v
  epoch : v.epoch = c.epoch
  held : v.held = []
  writes : v.writeFailed = false
  room : cqFull v = false

theorem Takes.now {s : State} {c : Cmd} {v : Qp} (h : Takes s c v) : TakesNow s c v :=
  ⟨h.live, h.qp, h.epoch, h.held, h.writes, h.room⟩

/-- The error log entry of a command that ends with an ERROR (R79). -/
def errorOf (c : Cmd) (p : Cpl) (e : ErrInfo) (time : BitVec 64) : ErrEntry :=
  { response := e.response, status := p.status, cid := p.cid, sequence := 0, epoch := c.epoch, opcode := eOpcode c.entry,
    timestamp := time, flowTag := c.tag, channel := e.channel, block := e.block, hostAccess := e.hostAccess, event := e.event,
    byteOffset := e.byteOffset, loc := e.loc }

/-- The queue pair as the end of a command finds it: an ERROR is logged and freezes it (R77, R78). -/
def errored (c : Cmd) (p : Cpl) (e : ErrInfo) (time : BitVec 64) (v : Qp) : Qp :=
  if p.status.isError then { logError (errorOf c p e time) v with frozen := true } else v

/-- An ERROR touches the log, its counts and the freeze alone. -/
theorem errored_keeps (c : Cmd) (p : Cpl) (e : ErrInfo) (time : BitVec 64) (v : Qp) :
    ∃ n l k b, errored c p e time v = { v with errSeq := n, log := l, lost := k, frozen := b } := by
  unfold errored
  split
  · obtain ⟨n, l, k, h⟩ := logError_keeps (errorOf c p e time) v
    exact ⟨n, l, k, true, by rw [h]⟩
  · exact ⟨_, _, _, _, rfl⟩

/-- With room in the log an ERROR adds one entry, numbered in order (R78, R79). -/
theorem errored_of_error {c : Cmd} {p : Cpl} {e : ErrInfo} {time : BitVec 64} {v : Qp} (he : p.status.isError = true)
    (hl : v.log.length < 16) : errored c p e time v = { v with
      errSeq := (v.errSeq + 1) % 65536, log := v.log ++ [{ errorOf c p e time with sequence := (v.errSeq + 1) % 65536 }],
      frozen := true } := by
  simp [errored, he, logError, hl]

theorem errored_of_ok {c : Cmd} {p : Cpl} {e : ErrInfo} {time : BitVec 64} {v : Qp} (he : p.status.isError = false) :
    errored c p e time v = v := by
  simp [errored, he]

/-- The end of a command whose queue pair takes its completion: the ERROR is noted, the entry written, the slot released. -/
theorem complete_of_takesNow {s : State} {slot : Nat} {c : Cmd} {v : Qp} (hc : getCmd s slot = some c) (hs : c.stage ≠ .held)
    (ht : TakesNow s c v) (p : Cmd → Cpl) (e : ErrInfo) :
    complete slot p e s = dropCmd slot (writeCpl c.fn c.qp ⟨some slot, some c, p c⟩ (errored c (p c) e s.time v)
      (setQp c.fn c.qp (errored c (p c) e s.time v) s)) := by
  obtain ⟨n, l, k, b, hk⟩ := errored_keeps c (p c) e s.time v
  have hq : getQp (setQp c.fn c.qp (errored c (p c) e s.time v) s) c.fn c.qp = some (errored c (p c) e s.time v) :=
    getQp_setQp_self ..
  have hcall : complete slot p e s =
      postCpl c.fn c.qp ⟨some slot, some c, p c⟩ (setQp c.fn c.qp (errored c (p c) e s.time v) s) := by
    unfold complete
    rw [hc]
    simp only [if_neg hs, ht.live, ht.qp, ht.epoch, Bool.false_eq_true, if_false, ne_eq, not_true_eq_false]
    rfl
  have hready : ((errored c (p c) e s.time v).held.isEmpty && !(errored c (p c) e s.time v).writeFailed &&
      !cqFull (errored c (p c) e s.time v)) = true := by
    have hroom := ht.room
    unfold cqFull at hroom
    rw [hk]
    simp only [cqFull, ht.held, ht.writes, hroom]
    rfl
  rw [hcall]
  unfold postCpl
  rw [hq]
  simp only [if_pos hready]
  exact issueCpl_of_slot hq rfl

/-- `t` differs from `s` in the functions, in the commands, of which one is gone, and in the outputs. -/
def Ended (s t : State) (slot : Nat) : Prop :=
  ∃ F O, t = { s with host := { s.host with fns := F, cmds := Tab.del s.host.cmds slot }, out := O }

/-- A command that leaves nothing to its posting ends: exactly its queue pair, its slot and the outputs change (R65, R71). -/
theorem complete_of_takes {s : State} {slot : Nat} {c : Cmd} {v : Qp} (hc : getCmd s slot = some c) (hs : c.stage ≠ .held)
    (ht : Takes s c v) (p : Cmd → Cpl) (e : ErrInfo) :
    Ended s (complete slot p e s) slot ∧
      getQp (complete slot p e s) c.fn c.qp = some (afterCpl ⟨some slot, some c, p c⟩ (errored c (p c) e s.time v)) ∧
      ∀ g r, (g ≠ c.fn ∨ r ≠ c.qp) → getQp (complete slot p e s) g r = getQp s g r := by
  rw [complete_of_takesNow hc hs ht.now]
  set w := errored c (p c) e s.time v
  set u := writeCpl c.fn c.qp ⟨some slot, some c, p c⟩ w (setQp c.fn c.qp w s) with hu
  have hsame : FnsOut s u := (setQp_fnsOut ..).trans (writeCpl_fnsOut ..)
  have hcu : getCmd u slot = some c := by
    unfold getCmd
    rw [hsame.cmds]
    exact hc
  rw [dropCmd_plain hcu ht.plain ht.kept]
  have hqs : ∀ g r, getQp (shutdownCheck c.fn { u with host := { u.host with cmds := Tab.del u.host.cmds slot } }) g r =
      getQp u g r := fun g r => getQp_shutdownCheck ..
  refine ⟨?_, ?_, fun g r h => ?_⟩
  · obtain ⟨F, O, e1⟩ := hsame
    obtain ⟨F', O', e2⟩ := shutdownCheck_fnsOut c.fn { u with host := { u.host with cmds := Tab.del u.host.cmds slot } }
    refine ⟨F', O', ?_⟩
    rw [e2, e1]
  · rw [hqs, hu, getQp_writeCpl_self]
  · rw [hqs, hu, getQp_writeCpl_ne _ _ _ h, getQp_setQp_ne _ _ h]

/-- The queue pair that the end of a command leaves, apart from its interrupt state: one entry more, and an ERROR logged. -/
theorem afterCpl_errored (n : Nat) (c : Cmd) (p : Cpl) (e : ErrInfo) (time : BitVec 64) {v : Qp} (he : p.status.isError = true)
    (hl : v.log.length < 16) :
    (afterCpl ⟨some n, some c, p⟩ (errored c p e time v)).frozen = true ∧
      (afterCpl ⟨some n, some c, p⟩ (errored c p e time v)).log =
        v.log ++ [{ errorOf c p e time with sequence := (v.errSeq + 1) % 65536 }] := by
  obtain ⟨k, b, h⟩ := afterCpl_eq ⟨some n, some c, p⟩ (errored c p e time v)
  rw [h, errored_of_error he hl]
  simp [cqAdvance]

end Sys2Proof.Machine
end

section
/-! Which fetch reads are outstanding: the members of a table with rising keys, and the queue pairs from which nothing more can be
fetched (R68, R98). -/

namespace Sys2Proof.Machine

section
variable {α : Type}

theorem Tab.mem_of_get? {t : Tab α} {i : Nat} {v : α} (h : Tab.get? t i = some v) : (i, v) ∈ t := by
  induction t with
  | nil => simp at h
  | cons p t ih =>
    obtain ⟨k, w⟩ := p
    simp only [Tab.get?] at h
    split at h
    · rename_i hk
      cases h
      simp [hk]
    · exact List.mem_cons_of_mem _ (ih h)

/-- Rising keys stand above the first. -/
theorem Tab.lt_of_mem_tail {p q : Nat × α} {t : Tab α} (h : Tab.wf (p :: t) = true) (hq : q ∈ t) : p.1 < q.1 := by
  induction t generalizing p with
  | nil => simp at hq
  | cons r t ih =>
    obtain ⟨a, x⟩ := p
    have hw := Tab.wf_cons_iff.1 h
    have hr : a < r.1 := hw.2 r rfl
    rcases List.mem_cons.1 hq with rfl | hq
    · exact hr
    · exact Nat.lt_trans hr (ih hw.1 hq)

/-- With rising keys, each member is what its key reads. -/
theorem Tab.get?_of_mem {t : Tab α} {i : Nat} {v : α} (hw : Tab.wf t = true) (h : (i, v) ∈ t) : Tab.get? t i = some v := by
  induction t with
  | nil => simp at h
  | cons p t ih =>
    obtain ⟨k, w⟩ := p
    rcases List.mem_cons.1 h with e | h
    · cases e
      simp [Tab.get?]
    · have hk : k < i := Tab.lt_of_mem_tail hw h
      simp only [Tab.get?, if_neg (by omega : i ≠ k)]
      exact ih (Tab.wf_tail hw) h

/-- A written table holds the new pair, and of the old ones those of other keys. -/
theorem Tab.mem_put {t : Tab α} {i : Nat} {v : α} {p : Nat × α} (hw : Tab.wf t = true) (h : p ∈ Tab.put t i v) :
    p = (i, v) ∨ p ∈ t ∧ p.1 ≠ i := by
  by_cases hp : p.1 = i
  · obtain ⟨k, w⟩ := p
    subst hp
    have e := Tab.get?_of_mem (Tab.wf_put t k v hw) h
    rw [Tab.get?_put_self] at e
    cases e
    exact Or.inl rfl
  · obtain ⟨k, w⟩ := p
    have e := Tab.get?_of_mem (Tab.wf_put t i v hw) h
    rw [Tab.get?_put_ne _ _ hp] at e
    exact Or.inr ⟨Tab.mem_of_get? e, hp⟩

theorem Tab.mem_del {t : Tab α} {i : Nat} {p : Nat × α} (hw : Tab.wf t = true) (h : p ∈ Tab.del t i) : p ∈ t ∧ p.1 ≠ i := by
  obtain ⟨k, w⟩ := p
  have e := Tab.get?_of_mem (Tab.wf_del t i hw) h
  by_cases hp : k = i
  · subst hp
    rw [Tab.get?_del_self] at e
    cases e
  · rw [Tab.get?_del_ne _ hp] at e
    exact ⟨Tab.mem_of_get? e, hp⟩

end

/-- No queue pair has a fetch read outstanding. -/
def NoReads (s : State) : Prop := ∀ x ∈ s.host.fns, ∀ y ∈ x.2.qps, y.2.reads = []

theorem firstRead_of_noReads {s : State} (h : NoReads s) : firstRead s = none := by
  unfold firstRead
  rw [List.flatMap_eq_nil_iff.2]
  · rfl
  · intro x hx
    refine List.filterMap_eq_nil_iff.2 fun y hy => ?_
    rw [h x hx y hy]

theorem takeReturnsN_of_none {s : State} (h : firstRead s = none) (k : Nat) : takeReturnsN k s = s := by
  cases k with
  | zero => rfl
  | succ k =>
    unfold takeReturnsN
    rw [h]

theorem takeReturns_of_noReads {s : State} (h : NoReads s) : takeReturns s = s :=
  takeReturnsN_of_none (firstRead_of_noReads h) _

theorem getFn_mem {s : State} {f : Nat} {y : Nat × Qp} (h : y ∈ (getFn s f).qps) : (f, getFn s f) ∈ s.host.fns := by
  unfold getFn Tab.getD at h ⊢
  cases hg : Tab.get? s.host.fns f with
  | none =>
    rw [hg] at h
    simp at h
  | some x => exact Tab.mem_of_get? hg

theorem OthersQuiet.fn {s : State} {f q : Nat} (h : OthersQuiet s f q) (g : Nat) :
    Tab.wf (getFn s g).qps = true ∧ ∀ y ∈ (getFn s g).qps, (g ≠ f ∨ y.1 ≠ q) → y.2.reads = [] := by
  by_cases hn : (getFn s g).qps = []
  · rw [hn]
    exact ⟨rfl, by simp⟩
  · obtain ⟨y, hy⟩ := List.exists_mem_of_ne_nil _ hn
    exact h.2 _ (getFn_mem hy)

/-- A function replaced keeps the others quiet, where its own queue pairs are. -/
theorem OthersQuiet.setFn {s : State} {f q : Nat} (h : OthersQuiet s f q) {g : Nat} {x : Fn} (hw : Tab.wf x.qps = true)
    (hx : ∀ y ∈ x.qps, (g ≠ f ∨ y.1 ≠ q) → y.2.reads = []) : OthersQuiet (setFn g x s) f q := by
  refine ⟨Tab.wf_put _ _ _ h.1, fun z hz => ?_⟩
  rcases Tab.mem_put h.1 hz with rfl | ⟨hz, -⟩
  · exact ⟨hw, hx⟩
  · exact h.2 z hz

theorem OthersQuiet.updFn_of_qps {s : State} {f q : Nat} (h : OthersQuiet s f q) (g : Nat) {k : Fn → Fn}
    (hk : (k (getFn s g)).qps = (getFn s g).qps) : OthersQuiet (updFn g k s) f q := by
  refine h.setFn ?_ ?_ <;> rw [hk]
  · exact (h.fn g).1
  · exact (h.fn g).2

/-- The named queue pair replaced keeps the others quiet. -/
theorem OthersQuiet.setQp {s : State} {f q : Nat} (h : OthersQuiet s f q) (v : Qp) : OthersQuiet (setQp f q v s) f q := by
  obtain ⟨hw, hq⟩ := h.fn f
  refine h.setFn (Tab.wf_put _ _ _ hw) fun y hy hne => ?_
  rcases Tab.mem_put hw hy with rfl | ⟨hy, -⟩
  · simp at hne
  · exact hq y hy hne

theorem OthersQuiet.of_fns {s t : State} {f q : Nat} (h : OthersQuiet s f q) (e : t.host.fns = s.host.fns) :
    OthersQuiet t f q := by
  unfold OthersQuiet
  rw [e]
  exact h

theorem OthersQuiet.sendMsix {s : State} {f q : Nat} (h : OthersQuiet s f q) (g v : Nat) : OthersQuiet (sendMsix g v s) f q := by
  unfold Machine.sendMsix
  extract_lets
  split
  · exact h.updFn_of_qps g rfl
  · exact h.of_fns rfl

theorem OthersQuiet.writeCpl {s : State} {f q : Nat} (h : OthersQuiet s f q) (k : HeldCpl) (v : Qp) :
    OthersQuiet (writeCpl f q k v s) f q := by
  unfold Machine.writeCpl
  extract_lets s1
  have h1 : OthersQuiet s1 f q := (h.setQp _).of_fns rfl
  split
  · exact h1.sendMsix ..
  · exact h1

/-- When the one queue pair left has none either, no read is outstanding. -/
theorem OthersQuiet.noReads {s : State} {f q : Nat} (h : OthersQuiet s f q) (hq : ∀ v, getQp s f q = some v → v.reads = []) :
    NoReads s := by
  intro x hx y hy
  obtain ⟨g, z⟩ := x
  obtain ⟨r, v⟩ := y
  obtain ⟨hw, hz⟩ := h.2 _ hx
  by_cases hne : g ≠ f ∨ r ≠ q
  · exact hz _ hy hne
  · obtain ⟨rfl, rfl⟩ : g = f ∧ r = q := by tauto
    refine hq v ?_
    have e : getFn s g = z := by simp [getFn, Tab.getD, Tab.get?_of_mem h.1 hx]
    rw [getQp, e]
    exact Tab.get?_of_mem hw hy

end Sys2Proof.Machine
end

section
/-! Completions held, posted and failed, and the commands on queue pairs and error logs (R55, R59, R78, R81, R82, R95,
R111, R112). -/

namespace Sys2Proof.Machine

theorem Ends.of_out {s s' t : State} {slot : Nat} {v : Qp} {p : Cpl} (h : Ends s' t slot v p) {k : List Out}
    (ho : s'.out = k ++ s.out) : Ends s t slot v p := by
  obtain ⟨⟨l, o, hl, hout⟩, hgone⟩ := h
  exact ⟨⟨l, o ++ k, hl, by rw [hout, ho, List.append_assoc]⟩, hgone⟩

theorem Takes.of_qp {s t : State} {c : Cmd} {v : Qp} (h : Takes s c v) (hq : getQp t c.fn c.qp = getQp s c.fn c.qp) :
    Takes t c v :=
  { live := h.live, qp := hq.trans h.qp, epoch := h.epoch, held := h.held, writes := h.writes, room := h.room,
    plain := h.plain, kept := h.kept }

/-- A command that leaves one thing to its posting, of a function that goes on, ends with that alone (R71). -/
theorem dropCmd_of_post {n : Nat} {s : State} {c : Cmd} {a : PostAct} (hc : getCmd s n = some c) (hp : c.post = [a])
    (hf : c.fnEnded = false) :
    dropCmd n s = shutdownCheck c.fn (a.apply { s with host := { s.host with cmds := Tab.del s.host.cmds n } }) := by
  unfold dropCmd
  rw [hc]
  simp [hp, hf]

/-- The queue pair of a completion after it is posted: one entry more and, when the posting ends a reset, its mark gone. -/
theorem getQp_issueCpl {s : State} {f q : Nat} {v : Qp} (h : HeldCpl) (hq : getQp s f q = some v) :
    ∃ k b r, getQp (issueCpl f q h s) f q = some { cqAdvance h v with unannounced := k, timer := b, resetEnds := r } := by
  obtain ⟨k, b, hk⟩ := afterCpl_eq h v
  cases hn : h.slot with
  | none =>
    refine ⟨k, b, v.resetEnds, ?_⟩
    rw [issueCpl_of_no_slot hq hn, getQp_writeCpl_self, hk]
    rfl
  | some n =>
    obtain ⟨g, hg⟩ := getQp_dropCmd n f q (writeCpl f q h v s)
    refine ⟨k, b, g (afterCpl h v), ?_⟩
    rw [issueCpl_of_slot hq hn, hg, getQp_writeCpl_self, hk]
    rfl

theorem issueCpl_out {s : State} {f q : Nat} {v : Qp} (h : HeldCpl) (hq : getQp s f q = some v) : ∃ l, l.length ≤ 1 ∧
    (issueCpl f q h s).out = l ++ .completion (v.cqBase + BitVec.ofNat 64 (32 * v.cqTail)) (h.cpl.entry v.phase) :: s.out := by
  cases hn : h.slot with
  | none =>
    rw [issueCpl_of_no_slot hq hn]
    exact writeCpl_out ..
  | some n =>
    rw [issueCpl_of_slot hq hn, dropCmd_out]
    exact writeCpl_out ..

theorem drainHeld_one {s : State} {f q : Nat} {v : Qp} {h : HeldCpl} {l : List HeldCpl} (hq : getQp s f q = some v)
    (hh : v.held = h :: l) (hw : v.writeFailed = false) (hr : cqFull v = false) :
    drainHeld f q 1 s = issueCpl f q h (setQp f q { v with held := l } s) := by
  simp [drainHeld, hq, hh, hw, hr]

/-- Settles O15: the held completion is posted, and its command's slot released with what was left to the posting. -/
theorem heldCompletionIsPosted : Obligations.HeldCompletionIsPosted := by
  unfold Obligations.HeldCompletionIsPosted
  intro fn qp v h l s hq hh hw hr
  set s1 := setQp fn.val qp.val { v with held := l } s with hs1
  have hq1 : getQp s1 fn.val qp.val = some { v with held := l } := getQp_setQp_self ..
  obtain ⟨k, b, r, hqp⟩ := getQp_issueCpl h hq1
  obtain ⟨o, ho, hout⟩ := issueCpl_out h hq1
  refine ⟨issueCpl fn.val qp.val h s1, _, o, ?_, hqp, rfl, rfl, hout, ho, fun n hn => ?_⟩
  · rw [exec_heldCompletionPost, execHeldCompletionPost, drainHeld_one hq hh hw hr]
  · rw [issueCpl_of_slot hq1 hn]
    have hsame : FnsOut s (writeCpl fn.val qp.val h { v with held := l } s1) :=
      (setQp_fnsOut ..).trans (writeCpl_fnsOut ..)
    refine ⟨getCmd_dropCmd_self .., fun c hc hf => ?_⟩
    generalize writeCpl fn.val qp.val h { v with held := l } s1 = u at hsame
    have hcu : getCmd u n = some c := by
      rw [getCmd, hsame.cmds]
      exact hc
    obtain ⟨F, O, rfl⟩ := hsame
    refine ⟨fun m hm => ?_, fun hm => ?_⟩
    · rw [dropCmd_of_post hcu hm hf, shutdownCheck_reserved]
      rfl
    · rw [dropCmd_of_post hcu hm hf, shutdownCheck_fw]
      rfl

/-- A command ended with an ERROR, its queue pair's log not full: what the log gains (R77-R79). -/
theorem complete_logs {s : State} {slot : Nat} {c : Cmd} {v : Qp} (hc : getCmd s slot = some c) (hs : c.stage ≠ .held)
    (ht : Takes s c v) (hl : v.log.length < 16) {p : Cmd → Cpl} (he : (p c).status.isError = true) (e : ErrInfo) :
    ∃ w, getQp (complete slot p e s) c.fn c.qp = some w ∧ w.frozen = true ∧
      w.log = v.log ++ [{ errorOf c (p c) e s.time with sequence := (v.errSeq + 1) % 65536 }] :=
  ⟨_, (complete_of_takes hc hs ht p e).2.1, afterCpl_errored slot c (p c) e s.time he hl⟩

/-- A transfer of a command that waits for a list fails: the state with the command ended, before what it held back goes on. -/
theorem transferFailed_of_lists {s : State} {slot : Nat} {c : Cmd} {v : Qp} (hc : getCmd s slot = some c)
    (hs : c.stage = .lists) (ht : Takes s c v) (hl : v.log.length < 16) (a : HostAccess) (offset : Nat) :
    ∃ u w e, transferFailed slot a offset s = settle u ∧ Ends s u slot v (baseCpl c .internalError) ∧
      getQp u c.fn c.qp = some w ∧ w.frozen = true ∧ w.log = v.log ++ [e] ∧ e.block = 1 ∧ e.byteOffset = offset ∧
      e.hostAccess = hostAccessCode a ∧ e.flowTag = c.tag ∧ u.streams = s.streams ∧ u.cart = s.cart := by
  have hmoving : moving c = true := by simp [moving, hs]
  have hheld : c.stage ≠ .held := by simp [hs]
  let e : ErrInfo := { block := bHqe, hostAccess := hostAccessCode a, byteOffset := offset }
  have hcall : transferFailed slot a offset s = settle (complete slot (fun c => baseCpl c .internalError) e s) := by
    unfold transferFailed
    rw [hc]
    simp only [hmoving, Bool.not_true, Bool.false_eq_true, if_false]
    exact failCmd_of_lists hc hs ..
  obtain ⟨w, hw, hfr, hlog⟩ := complete_logs hc hheld ht hl (p := fun c => baseCpl c .internalError) rfl e
  obtain ⟨⟨F, O, hsame⟩, -⟩ := complete_of_takes hc hheld ht (fun c => baseCpl c .internalError) e
  exact ⟨_, w, _, hcall, (complete_ends hc hheld ht _ _).1, hw, hfr, hlog, rfl, rfl, rfl, rfl, by rw [hsame], by rw [hsame]⟩

/-- Settles O21: a command that waits for a list is moving data; its end logs the error. -/
theorem transferFailureEndsCommand : Obligations.TransferFailureEndsCommand := by
  unfold Obligations.TransferFailureEndsCommand
  intro slot a offset c v s hc hs ht hl
  constructor
  · obtain ⟨u, w, e, hcall, h⟩ := transferFailed_of_lists hc hs ht hl a offset
    refine ⟨u, w, e, ?_, h⟩
    rw [exec_dataTransferFailure, execDataTransferFailure, hcall]
  · obtain ⟨u, w, e, hcall, hends, hw, hfr, hlog, hblk, hoff, hacc, htag, -⟩ := transferFailed_of_lists hc hs ht hl .timeout offset
    refine ⟨u, w, e, ?_, hends, hw, hfr, hlog, hblk, hoff, hacc, htag⟩
    rw [exec_hostReadTimeout, execHostReadTimeout, hcall]

/-- A command that finishes leaves the other queue pairs alone. -/
theorem finish_of_takes {s : State} {slot : Nat} {c : Cmd} {v : Qp} (hc : getCmd s slot = some c) (hs : c.stage ≠ .held)
    (ht : Takes s c v) (st : Status) (block : Nat) :
    Ends s (finish slot st block s) slot v (baseCpl c st) ∧ Ended s (finish slot st block s) slot ∧
      ∀ g r, (g ≠ c.fn ∨ r ≠ c.qp) → getQp (finish slot st block s) g r = getQp s g r := by
  obtain ⟨hsame, -, hoth⟩ := complete_of_takes hc hs ht (fun c => baseCpl c st) { block := block }
  exact ⟨(complete_ends hc hs ht _ _).1, hsame, hoth⟩

theorem finishWith_of_takes {s : State} {slot : Nat} {c : Cmd} {v : Qp} (hc : getCmd s slot = some c) (hs : c.stage ≠ .held)
    (ht : Takes s c v) (st : Status) (spec : List (Nat × Nat)) (block : Nat) :
    Ends s (finishWith slot st spec block s) slot v { baseCpl c st with specific := BitVec.ofNat 96 (packLsb spec) } ∧
      Ended s (finishWith slot st spec block s) slot ∧
      ∀ g r, (g ≠ c.fn ∨ r ≠ c.qp) → getQp (finishWith slot st spec block s) g r = getQp s g r := by
  obtain ⟨hsame, -, hoth⟩ := complete_of_takes hc hs ht
    (fun c => { baseCpl c st with specific := BitVec.ofNat 96 (packLsb spec) }) { block := block }
  exact ⟨(complete_ends hc hs ht _ _).1, hsame, hoth⟩

/-- Held completions posted leave the error log, its counts, the failure mark and the epoch of their queue pair. -/
theorem drainHeld_keeps (f q n : Nat) : ∀ (s : State) (v : Qp), getQp s f q = some v →
    ∃ w, getQp (drainHeld f q n s) f q = some w ∧ w.log = v.log ∧ w.lost = v.lost ∧ w.writeFailed = v.writeFailed ∧
      w.epoch = v.epoch := by
  induction n with
  | zero => exact fun s v hq => ⟨v, hq, rfl, rfl, rfl, rfl⟩
  | succ n ih =>
    intro s v hq
    simp only [drainHeld, hq]
    cases hh : v.held with
    | nil => exact ⟨v, hq, rfl, rfl, rfl, rfl⟩
    | cons h l =>
      dsimp only
      split
      · exact ⟨v, hq, rfl, rfl, rfl, rfl⟩
      · obtain ⟨k, b, r, h1⟩ := getQp_issueCpl (s := setQp f q { v with held := l } s) h (getQp_setQp_self ..)
        obtain ⟨w, hw, hkeeps⟩ := ih _ _ h1
        exact ⟨w, hw, hkeeps⟩

/-- A queue pair unfrozen with nothing held: its log is empty, and nothing is posted (R78, R82). -/
theorem unfreeze_of_none_held {s : State} {f q : Nat} {v : Qp} (hq : getQp s f q = some v) (hh : v.held = []) :
    unfreeze f q s = setQp f q { v with frozen := false, log := [], lost := 0, writeFailed := false } s := by
  simp [unfreeze, hq, hh, drainHeld]

theorem getQp_unfreeze {s : State} {f q : Nat} {v : Qp} (hq : getQp s f q = some v) :
    ∃ w, getQp (unfreeze f q s) f q = some w ∧ w.log = [] ∧ w.lost = 0 ∧ w.writeFailed = false ∧ w.epoch = v.epoch := by
  unfold unfreeze
  rw [hq]
  exact drainHeld_keeps f q _ _ _ (getQp_setQp_self ..)

theorem execAqRestart_of_frozen {s : State} {fn : FnId} {v : Qp} (hq : getQp s fn.val 0 = some v) (hf : v.frozen = true)
    (hr : v.reset = none) : execAqRestart fn s = .next (unfreeze fn.val 0 s) := by
  simp [execAqRestart, hq, hf, hr]

theorem execAqRestart_of_running {s : State} {fn : FnId} {v : Qp} (hq : getQp s fn.val 0 = some v)
    (h : v.frozen = false ∨ v.reset ≠ none) : execAqRestart fn s = .next s := by
  unfold execAqRestart
  simp only [hq]
  refine if_neg fun hc => ?_
  simp at hc
  rcases h with h | h
  · rw [hc.1] at h
    cases h
  · exact h hc.2

/-- Settles O24: both restarts unfreeze; QUEUE_RESTART then completes on its own queue pair. -/
theorem restartUnfreezes : Obligations.RestartUnfreezes := by
  unfold Obligations.RestartUnfreezes
  refine ⟨fun fn v s hq hf hr => ?_, fun fn v s hq h => execAqRestart_of_running hq h, fun slot c v a s h hne hq hh ht => ?_⟩
  · obtain ⟨w, hw, hlog, hlost, hfail, hep⟩ := getQp_unfreeze hq
    refine ⟨_, w, execAqRestart_of_frozen hq hf hr, hw, hlog, hlost, hfail, hep, fun hh => ?_⟩
    rw [unfreeze_of_none_held hq hh] at hw ⊢
    rw [getQp_setQp_self] at hw
    cases hw
    exact ⟨rfl, rfl⟩
  · set s1 := setQp c.fn (eLocalQp c.entry) { v with frozen := false, log := [], lost := 0, writeFailed := false } s with hs1
    have hcall : exec (.queueRestart slot) s = .next (finish slot.val .success 0 s1) := by
      rw [exec_queueRestart, execQueueRestart, onCmd_of_started h (by simp)]
      simp only [hq, unfreeze_of_none_held hq hh, hs1]
    have hheld : c.stage ≠ .held := by simp [h.stage]
    have ht1 : Takes s1 c a := ht.of_qp (getQp_setQp_ne _ _ (Or.inr hne))
    have hc1 : getCmd s1 slot.val = some c := h.cmd
    obtain ⟨hends, -, hoth⟩ := finish_of_takes hc1 hheld ht1 .success 0
    have hq1 := (hoth c.fn (eLocalQp c.entry) (Or.inr (Ne.symm hne))).trans (getQp_setQp_self ..)
    exact ⟨_, _, hcall, hends.of_out (k := []) rfl, hq1, rfl, rfl, rfl⟩

/-- Settles O25: the queue pair is put in place, or taken away with nothing left to fetch, and the command completes. -/
theorem queuePairsComeAndGo : Obligations.QueuePairsComeAndGo := by
  unfold Obligations.QueuePairsComeAndGo
  refine ⟨fun slot c a s h hq ht => ?_, fun slot c v a s h hne hq hz hh hr hcl hre hquiet ht => ?_⟩
  · have hne : c.qp ≠ eLocalQp c.entry := fun e => by
      have := ht.qp
      rw [e, hq] at this
      cases this
    set s1 := setQp c.fn (eLocalQp c.entry) (newQp s c.entry) s with hs1
    have hcall : exec (.createQp slot) s =
        .next (finishWith slot.val .success [(12, qpIndex s1 c.fn (eLocalQp c.entry))] 0 s1) := by
      rw [exec_createQp, execCreateQp, onCmd_of_started h (by simp)]
      simp only [hq, hs1]
      rfl
    have hheld : c.stage ≠ .held := by simp [h.stage]
    have ht1 : Takes s1 c a := ht.of_qp (getQp_setQp_ne _ _ (Or.inr hne))
    have hc1 : getCmd s1 slot.val = some c := h.cmd
    obtain ⟨hends, -, hoth⟩ := finishWith_of_takes hc1 hheld ht1 .success [(12, qpIndex s1 c.fn (eLocalQp c.entry))] 0
    have hq1 := (hoth c.fn (eLocalQp c.entry) (Or.inr (Ne.symm hne))).trans (getQp_setQp_self ..)
    exact ⟨_, newQp s c.entry, hcall, hq1, rfl, rfl, rfl, rfl, rfl,
      rfl, rfl, rfl, rfl, rfl, rfl, rfl, rfl, rfl, rfl, rfl, rfl, rfl, hends.of_out (k := []) rfl⟩
  · set s1 := updFn c.fn (fun x => { x with qps := Tab.del x.qps (eLocalQp c.entry) }) s with hs1
    have hnone : getQp s1 c.fn (eLocalQp c.entry) = none := by simp [getQp, hs1]
    have hreads : NoReads s1 := by
      have hquiet1 : OthersQuiet s1 c.fn (eLocalQp c.entry) :=
        hquiet.setFn (Tab.wf_del _ _ (hquiet.fn c.fn).1) fun y hy hy' =>
          (hquiet.fn c.fn).2 y (Tab.mem_del (hquiet.fn c.fn).1 hy).1 hy'
      exact hquiet1.noReads (by simp [hnone])
    have hcall : exec (.deleteQp slot) s = .next (finish slot.val .success 0 s1) := by
      rw [exec_deleteQp, execDeleteQp, onCmd_of_started h (by simp)]
      simp only [hq, hz, hh, hr, hcl, hre]
      rw [← hs1, takeReturns_of_noReads hreads]
      simp
    have hheld : c.stage ≠ .held := by simp [h.stage]
    have ht1 : Takes s1 c a := ht.of_qp (by
      simp only [hs1, getQp, getFn_updFn_self, Tab.get?_del_ne _ hne])
    have hc1 : getCmd s1 slot.val = some c := h.cmd
    obtain ⟨hends, -, hoth⟩ := finish_of_takes hc1 hheld ht1 .success 0
    exact ⟨_, hcall, (hoth _ _ (Or.inr (Ne.symm hne))).trans hnone, hends.of_out (k := []) rfl⟩

end Sys2Proof.Machine
end

section
/-! The error log read and written: GET_LOG, an unknown opcode, a failed read of an entry (R78, R81, R95, R112). -/

namespace Sys2Proof.Machine

theorem leBytes_length (n v : Nat) : (leBytes n v).length = n := by
  induction n generalizing v with
  | zero => rfl
  | succ n ih => simp [leBytes, ih]

/-- Data written to the host is one output at most (R64). -/
theorem toHostMem_fnsOut (slot : Nat) (record : Bool) (bytes : List Byte) (s : State) :
    FnsOut s (toHostMem slot record bytes s) ∧ (toHostMem slot record bytes s).host = s.host ∧
      ∃ k, (toHostMem slot record bytes s).out = k ++ s.out := by
  unfold toHostMem
  split
  · exact ⟨.refl s, rfl, [], rfl⟩
  · split
    · exact ⟨.refl s, rfl, [], rfl⟩
    · exact ⟨emit_fnsOut .., rfl, [_], rfl⟩

/-- The data of a live command whose queue pair is not being reset goes to the host (R64, R83). -/
theorem toHostMem_of_takes {s : State} {slot : Nat} {c : Cmd} {v : Qp} (hc : getCmd s slot = some c) (ht : Takes s c v)
    (hr : v.reset = none) {bytes : List Byte} (hb : bytes ≠ []) (record : Bool) :
    toHostMem slot record bytes s = emit (.hostData slot record (layout c.sg bytes.length) bytes) s := by
  simp [toHostMem, hc, ht.live, cutOff, ht.qp, hr, hb]

/-- The bytes that GET_LOG writes (R78, R112). -/
def errorLogBytes (v : Qp) (n : Nat) : List Byte := (v.log.take n).flatMap fun e => leBytes 64 (e.entry v.lost).toNat

theorem errorLogBytes_ne_nil {v : Qp} {n : Nat} (hn : 0 < n) (hl : n ≤ v.log.length) : errorLogBytes v n ≠ [] := by
  cases hv : v.log with
  | nil =>
    rw [hv] at hl
    simp at hl
    omega
  | cons e l =>
    obtain ⟨m, rfl⟩ : ∃ m, n = m + 1 := ⟨n - 1, by omega⟩
    intro h
    have := congrArg List.length h
    simp [errorLogBytes, hv, leBytes_length] at this

/-- GET_LOG with a contiguous buffer: the entries, then the completion. -/
theorem getLog_ends {s : State} {slot : Nat} {c : Cmd} {v a : Qp} (hc : getCmd s slot = some c) (hs : c.stage ≠ .held)
    (hq : getQp s c.fn (eLocalQp c.entry) = some v) (ht : Takes s c a) (room : Nat) :
    let n := min v.log.length (room / 64)
    Ends s (giveLog slot c room s) slot a { baseCpl c .success with
        specific := BitVec.ofNat 96 (packLsb [(5, n), (27, 0), (5, v.log.length)]) } ∧
      (0 < n → a.reset = none →
        Out.hostData slot false (layout c.sg (errorLogBytes v n).length) (errorLogBytes v n) ∈ (giveLog slot c room s).out) ∧
      (giveLog slot c room s).streams = s.streams ∧ (giveLog slot c room s).cart = s.cart := by
  intro n
  set s1 := toHostMem slot false (errorLogBytes v n) s with hs1
  have hcall : giveLog slot c room s = finishWith slot .success [(5, n), (27, 0), (5, v.log.length)] 0 s1 := by
    unfold giveLog
    rw [hq]
    rfl
  obtain ⟨⟨F, O, hsame⟩, hhost, k, hout⟩ := toHostMem_fnsOut slot false (errorLogBytes v n) s
  rw [← hs1] at hsame hhost hout
  have hc1 : getCmd s1 slot = some c := by rw [getCmd, hhost]; exact hc
  have ht1 : Takes s1 c a := ht.of_qp (by simp only [getQp, getFn, hhost])
  obtain ⟨hends, ⟨F', O', hend⟩, -⟩ := finishWith_of_takes hc1 hs ht1 .success [(5, n), (27, 0), (5, v.log.length)] 0
  rw [hcall]
  refine ⟨hends.of_out hout, fun hn hr => ?_, ?_, ?_⟩
  · obtain ⟨⟨l, o, -, ho⟩, -⟩ := hends
    rw [ho, hs1, toHostMem_of_takes hc ht hr (errorLogBytes_ne_nil hn (Nat.min_le_left ..))]
    simp
  · rw [hend, hsame]
  · rw [hend, hsame]

/-- Settles O26: GET_LOG by its data and its completion; an unknown opcode by the end of its command. -/
theorem getLogReturnsEntries : Obligations.GetLogReturnsEntries := by
  unfold Obligations.GetLogReturnsEntries
  refine ⟨fun slot c v a s h hm hq ht => ?_, fun slot c v s hc hs hop ht hl => ?_⟩
  · refine ⟨giveLog slot.val c (eLen c.entry) s, ?_, getLog_ends h.cmd (by simp [h.stage]) hq ht _⟩
    rw [exec_getLog, execGetLog, onCmd_of_started h (by simp)]
    simp only [hm, if_true]
  · have hheld : c.stage ≠ .held := by simp [hs]
    have hcall : exec (.unknownOpcode slot) s = .next (finish slot.val .invalidField bHqe s) := by
      have hgo : (decide (c.stage = .started) && !opcodes.contains (eOpcode c.entry)) = true := by
        rw [hop, hs]
        rfl
      rw [exec_unknownOpcode]
      unfold execUnknownOpcode
      rw [hc]
      exact if_pos hgo
    obtain ⟨hends, ⟨F, O, hsame⟩, -⟩ := finish_of_takes hc hheld ht .invalidField bHqe
    obtain ⟨w, hw, hfr, hlog⟩ :=
      complete_logs hc hheld ht hl (p := fun c => baseCpl c .invalidField) rfl { block := bHqe }
    refine ⟨_, w, _, hcall, hends, hw, hfr, hlog, rfl, rfl, rfl, rfl, rfl, ?_⟩
    rw [hsame]
    simp

/-- The queue pair that a failed read of an entry leaves before its completion: fetching resumes at the failed entry (R81). -/
theorem postCpl_of_ready {s : State} {f q : Nat} {v : Qp} (hq : getQp s f q = some v) (hh : v.held = [])
    (hw : v.writeFailed = false) (hr : cqFull v = false) (h : HeldCpl) : postCpl f q h s = issueCpl f q h s := by
  simp [postCpl, hq, hh, hw, hr]

/-- The error of a failed read of a submission entry (R81). -/
def entryError (s : State) (f q : Nat) (a : HostAccess) (v : Qp) : ErrEntry :=
  { status := .internalError, cid := 0xFFFF, sequence := 0, epoch := v.epoch, opcode := 0, timestamp := s.time,
    flowTag := flowTag 0 (qpIndex s f q) 0 0 false 0 0xFFFFFFFFFFFF 7 0 v.epoch, block := bHqe, hostAccess := hostAccessCode a }

/-- The queue pair with its failed reads forgotten and the error logged. -/
def entryFailed (s : State) (f q : Nat) (a : HostAccess) (v : Qp) : Qp :=
  logError (entryError s f q a v) { v with reads := [], sqReq := v.sqHead, frozen := true }

/-- The completion of a failed read of an entry: no command's (R81). -/
def entryCpl (v : Qp) : HeldCpl :=
  ⟨none, none, { epoch := v.epoch, status := .internalError, cid := 0xFFFF, sqHead := v.sqHead }⟩

theorem entryFailed_eq (s : State) (f q : Nat) (a : HostAccess) {v : Qp} (hl : v.log.length < 16) :
    entryFailed s f q a v = { v with
      reads := [], sqReq := v.sqHead, frozen := true, errSeq := (v.errSeq + 1) % 65536,
      log := v.log ++ [{ entryError s f q a v with sequence := (v.errSeq + 1) % 65536 }] } := by
  simp [entryFailed, logError, hl]

theorem execSqEntryReadFailure_of_first {s : State} {fn : FnId} {qp : Fin 4096} {v : Qp} {seq n : Nat}
    {l : List (Nat × Nat × Option (List (BitVec 512)))} (a : HostAccess) (hq : getQp s fn.val qp.val = some v)
    (hr : v.reads = (seq, n, none) :: l) (hd : v.sqHead < v.sqDepth) :
    execSqEntryReadFailure fn qp a s = .next (takeReturns (postCpl fn.val qp.val (entryCpl v)
      (setQp fn.val qp.val (entryFailed s fn.val qp.val a v) s))) := by
  have hmod : v.sqHead % v.sqDepth = v.sqHead := Nat.mod_eq_of_lt hd
  simp [execSqEntryReadFailure, hq, hr, hmod, entryFailed, entryCpl, entryError, logError]
  split <;> rfl

/-- Settles O19: the read is forgotten, so that nothing is left to fetch, and the completion is written. -/
theorem entryReadFailureFreezesQueue : Obligations.EntryReadFailureFreezesQueue := by
  unfold Obligations.EntryReadFailureFreezesQueue
  intro fn qp a v seq n l s hq hr hd hquiet hh hw hroom hlog
  set w := entryFailed s fn.val qp.val a v with hwdef
  have heq : w = _ := entryFailed_eq s fn.val qp.val a hlog
  set s1 := setQp fn.val qp.val w s with hs1
  have hpost : postCpl fn.val qp.val (entryCpl v) s1 = writeCpl fn.val qp.val (entryCpl v) w s1 := by
    have hq1 : getQp s1 fn.val qp.val = some w := getQp_setQp_self ..
    rw [postCpl_of_ready hq1 (by rw [heq]; exact hh) (by rw [heq]; exact hw) (by rw [heq]; exact hroom)]
    exact issueCpl_of_no_slot hq1 rfl
  obtain ⟨k, b, hafter⟩ := afterCpl_eq (entryCpl v) w
  have hq2 := getQp_writeCpl_self fn.val qp.val (entryCpl v) w s1
  have hwr : (afterCpl (entryCpl v) w).reads = [] := by rw [hafter, heq]; rfl
  have hreads : NoReads (writeCpl fn.val qp.val (entryCpl v) w s1) :=
    ((hquiet.setQp w).writeCpl _ _).noReads fun x hx => by
      rw [hq2] at hx
      cases hx
      exact hwr
  obtain ⟨o, ho, hout⟩ := writeCpl_out fn.val qp.val (entryCpl v) w s1
  refine ⟨_, _, { entryError s fn.val qp.val a v with sequence := (v.errSeq + 1) % 65536 }, o, ?_, hq2, ?_, hwr, ?_, ?_, ?_, rfl,
    rfl, rfl, rfl, ho, ?_, (writeCpl_fnsOut ..).cmds⟩
  · rw [exec_sqEntryReadFailure, execSqEntryReadFailure_of_first a hq hr hd, hpost, takeReturns_of_noReads hreads]
  · rw [hafter, heq]; rfl
  · rw [hafter, heq]; rfl
  · rw [hafter, heq]; rfl
  · rw [hafter, heq]; rfl
  · rw [hout, heq]; rfl

end Sys2Proof.Machine
end

section
/-! A failed write of a completion: it and the later ones are taken back (R81). -/

namespace Sys2Proof.Machine

/-- The part of a function that a change of its queue pairs and vectors leaves alone: Enable, Ready, Fatal. -/
theorem getFn_sendMsix_fatal (f v g : Nat) (s : State) : (getFn (sendMsix f v s) g).fatal = (getFn s g).fatal := by
  unfold sendMsix
  extract_lets
  split
  · by_cases h : g = f
    · subst h; simp
    · rw [getFn_updFn_ne _ _ h]
  · rfl

theorem getFn_raise_fatal (n : Nat) (l : List (Nat × Nat)) (s : State) (g : Nat) :
    (getFn (raise n l s) g).fatal = (getFn s g).fatal := by
  obtain ⟨v, h | ⟨u, h⟩⟩ := raise_eq n l s <;> rw [h]
  · rfl
  · exact getFn_sendMsix_fatal 0 1 g { s with ev := u }

theorem getFn_setQp_fatal (f q g : Nat) (v : Qp) (s : State) : (getFn (setQp f q v s) g).fatal = (getFn s g).fatal := by
  by_cases h : g = f
  · subst h; simp [setQp]
  · simp [setQp, getFn_updFn_ne _ _ h]

/-- A queue pair with its last completion taken back, which is held with `slot` (R81). -/
def takenBack (v : Qp) (h : HeldCpl) (l : List HeldCpl) (slot : Option Nat) : Qp :=
  { v with cqTail := (v.cqTail + v.cqDepth - 1) % v.cqDepth, phase := if v.cqTail = 0 then !v.phase else v.phase,
           recent := l, held := { h with slot := slot } :: v.held }

/-- One completion is taken back: its queue pair, and its command where one takes a slot again (R81). -/
theorem takeBack_of_recent {s : State} {f q : Nat} {v : Qp} {h : HeldCpl} {l : List HeldCpl} (hq : getQp s f q = some v)
    (hr : v.recent = h :: l) :
    ∃ slot s1, takeBack f q s = setQp f q (takenBack v h l slot) s1 ∧ s1.ev = s.ev ∧ s1.host.fns = s.host.fns ∧
      ∀ n c, h.slot = some n → h.cmd = some c → getCmd s n = none → s1 = setCmd n { c with stage := .held, post := [] } s := by
  unfold takeBack
  rw [hq]
  simp only [hr]
  cases hs : h.slot with
  | none => exact ⟨none, s, rfl, rfl, rfl, fun _ _ e => by cases e⟩
  | some m =>
    cases hd : h.cmd with
    | none => exact ⟨none, s, by simp [takenBack, hd], rfl, rfl, fun _ _ _ e => by cases e⟩
    | some d =>
      simp only
      cases hp : (if (getCmd s m).isNone then some m else Tab.lowest s.host.cmds 65536 0) with
      | none => exact ⟨none, s, by simp [takenBack, hd], rfl, rfl, fun n c hn _ hfree => by cases hn; simp [hfree] at hp⟩
      | some p =>
        refine ⟨some p, setCmd p { d with stage := .held, post := [] } s, by simp [takenBack, hd], rfl, rfl, fun n c hn hc hfree => ?_⟩
        cases hn
        cases hc
        simp only [hfree, Option.isNone_none, if_true] at hp
        cases hp
        rfl

/-- Completions taken back one after the other: the queue pair's pointers and Phase go back, and the completions are held in
their order, ahead of any other (R81). -/
theorem takeBacks_keeps (f q n : Nat) : ∀ (s : State) (v : Qp), getQp s f q = some v → n ≤ v.recent.length → n ≤ v.cqDepth →
    v.cqTail < v.cqDepth →
    ∃ w, getQp (takeBacks f q n s) f q = some w ∧
      w.held.map (·.cpl) = ((v.recent.take n).map (·.cpl)).reverse ++ v.held.map (·.cpl) ∧ w.recent = v.recent.drop n ∧
      w.cqTail = (v.cqTail + v.cqDepth - n) % v.cqDepth ∧ w.phase = (if v.cqTail < n then !v.phase else v.phase) ∧
      (takeBacks f q n s).ev = s.ev ∧ (getFn (takeBacks f q n s) f).fatal = (getFn s f).fatal := by
  induction n with
  | zero =>
    intro s v hq _ _ ht
    refine ⟨v, hq, by simp, by simp, ?_, by simp, rfl, rfl⟩
    rw [Nat.sub_zero, Nat.add_mod_right, Nat.mod_eq_of_lt ht]
  | succ n ih =>
    intro s v hq hlen hdep ht
    cases hr : v.recent with
    | nil => simp [hr] at hlen
    | cons h l =>
      obtain ⟨slot, s1, hcall, hev, hfns, -⟩ := takeBack_of_recent hq hr
      set x := takenBack v h l slot with hx
      have htail : x.cqTail = if v.cqTail = 0 then v.cqDepth - 1 else v.cqTail - 1 := by
        show (v.cqTail + v.cqDepth - 1) % v.cqDepth = _
        split
        · rename_i h0
          rw [h0, Nat.zero_add, Nat.mod_eq_of_lt (by omega)]
        · rw [show v.cqTail + v.cqDepth - 1 = (v.cqTail - 1) + v.cqDepth by omega, Nat.add_mod_right, Nat.mod_eq_of_lt (by omega)]
      have hxlt : x.cqTail < v.cqDepth := by
        rw [htail]
        split <;> omega
      obtain ⟨w, hw, hheld, hrec, hwt, hph, hev2, hfat⟩ := ih (takeBack f q s) x (by rw [hcall, getQp_setQp_self])
        (by rw [hr] at hlen; exact Nat.le_of_succ_le_succ hlen) (Nat.le_of_succ_le hdep) hxlt
      refine ⟨w, hw, ?_, ?_, ?_, ?_, ?_, ?_⟩
      · rw [hheld]
        simp [hx, takenBack]
      · rw [hrec]
        rfl
      · rw [hwt, htail]
        show (_ + v.cqDepth - n) % v.cqDepth = _
        split
        · rename_i h0
          rw [show v.cqDepth - 1 + v.cqDepth - n = (v.cqTail + v.cqDepth - (n + 1)) + v.cqDepth by omega, Nat.add_mod_right]
        · congr 1
          omega
      · rw [hph, htail]
        show (if _ then !(if v.cqTail = 0 then !v.phase else v.phase) else (if v.cqTail = 0 then !v.phase else v.phase)) = _
        by_cases h0 : v.cqTail = 0
        · rw [if_pos h0, if_neg (by omega), if_pos h0, if_pos (by omega)]
        · simp only [if_neg h0]
          by_cases h1 : v.cqTail < n + 1
          · rw [if_pos h1, if_pos (by omega)]
          · rw [if_neg h1, if_neg (by omega)]
      · show (takeBacks f q n (takeBack f q s)).ev = _
        rw [hev2, hcall, setQp_ev, hev]
      · show (getFn (takeBacks f q n (takeBack f q s)) f).fatal = _
        rw [hfat, hcall, getFn_setQp_fatal, getFn, getFn, hfns]

/-- A failed write of a completion: those from it on are taken back, and event 0x402 is raised (R81). -/
theorem execCompletionWriteFailure_of_recent {s : State} {fn : FnId} {qp : Fin 4096} {v w : Qp} {later : Nat} (a : HostAccess)
    (hq : getQp s fn.val qp.val = some v) (hl : later < v.recent.length)
    (hw : getQp (takeBacks fn.val qp.val (later + 1) s) fn.val qp.val = some w) :
    execCompletionWriteFailure fn qp a later s = .next (raise 0x402 [iFn fn.val, iQp qp.val]
      (setQp fn.val qp.val { w with writeFailed := true, frozen := true } (takeBacks fn.val qp.val (later + 1) s))) := by
  have hn : ¬ v.recent.length ≤ later := by omega
  simp [execCompletionWriteFailure, hq, hn, updQp, hw]

/-- Settles O20: the completions by the induction over those taken back, the first command by its one step. -/
theorem completionWriteFailureHolds : Obligations.CompletionWriteFailureHolds := by
  unfold Obligations.CompletionWriteFailureHolds
  intro fn qp a later v s hq hl hd ht
  obtain ⟨w, hw, hheld, hrec, htail, hph, hev, hfat⟩ :=
    takeBacks_keeps fn.val qp.val (later + 1) s v hq hl hd ht
  refine ⟨_, { w with writeFailed := true, frozen := true }, execCompletionWriteFailure_of_recent a hq hl hw, ?_, rfl, rfl, hheld,
    hrec, htail, ?_, fun h l n c h0 hr hn hc hfree => ?_, ?_, ?_⟩
  · rw [getQp_raise, getQp_setQp_self]
  · simp only [hph, Nat.lt_succ_iff]
  · subst h0
    obtain ⟨slot, s1, hcall, -, -, hs1⟩ := takeBack_of_recent hq hr
    rw [getCmd_raise, getCmd_setQp]
    show getCmd (takeBack fn.val qp.val s) n = _
    rw [hcall, getCmd_setQp, hs1 n c hn hc hfree, getCmd_setCmd_self]
  · rw [raise_counts, Tab.getD_put_self, setQp_ev, hev]
  · rw [getFn_raise_fatal, getFn_setQp_fatal, hfat]

end Sys2Proof.Machine
end

section
/-! The arbiter: which queue pair a grant goes to, and what it issues (R69, R70, R98). -/

namespace Sys2Proof.Machine

/-- The arbiter's pointer picks a member of the list. -/
theorem nextFrom_mem (p : Nat) {l : List Nat} (h : l ≠ []) : nextFrom p l ∈ l := by
  unfold nextFrom
  cases hf : l.find? fun n => decide (p ≤ n) with
  | some x => exact List.mem_of_find?_eq_some hf
  | none =>
    cases l with
    | nil => exact absurd rfl h
    | cons x l => simp

/-- A grant issues one fetch read, whose entries take the next places in the fetch order (R70, R98). -/
theorem grant_of_getQp {f q n : Nat} {v : Qp} {s : State} (hq : getQp s f q = some v) :
    (grant f q n s).out = .fetch f q v.sqReq n :: s.out ∧
      getQp (grant f q n s) f q = some { v with reads := v.reads ++ [(s.host.fetchSeq, n, none)],
                                                sqReq := (v.sqReq + n) % v.sqDepth } ∧
      (grant f q n s).host.fetchSeq = s.host.fetchSeq + n ∧ (grant f q n s).host.cmds = s.host.cmds := by
  unfold grant
  rw [hq]
  exact ⟨rfl, getQp_setQp_self .., rfl, rfl⟩

/-- The functions whose admin queue pair is eligible (R70). -/
def adminEligible (s : State) : List Nat :=
  (s.host.fns.map (·.1)).filter fun f => match getQp s f 0 with | some v => decide (0 < fetchRoom s f 0 v) | none => false

theorem mem_adminEligible {s : State} {f : Nat} :
    f ∈ adminEligible s ↔ f ∈ s.host.fns.map (·.1) ∧ ∃ v, getQp s f 0 = some v ∧ 0 < fetchRoom s f 0 v := by
  rw [adminEligible, List.mem_filter]
  refine and_congr_right fun _ => ?_
  cases hq : getQp s f 0 <;> simp

/-- What a grant of a function's admin queue pair fetches. -/
def adminRoom (s : State) (f : Nat) : Nat := match getQp s f 0 with | some v => fetchRoom s f 0 v | none => 0

/-- The functions with an eligible I/O queue pair (R70). -/
def ioEligible (s : State) : List Nat := (s.host.fns.map (·.1)).filter fun f => !(eligible s f).isEmpty

/-- The functions without one lose their deficit (R70). -/
def dropDeficits (s : State) : State :=
  ((s.host.fns.map (·.1)).filter fun f => !(ioEligible s).contains f).foldl
    (fun s f => updFn f (fun x => { x with deficit := 0 }) s) s

/-- A grant of the function whose turn it is. -/
def grantTurn (s : State) : State :=
  grantWithin s.host.rrFn (getFn s s.host.rrFn).deficit.toNat (eligible s s.host.rrFn) s

/-- The turn passes to another function, whose deficit grows by its weight (R70). -/
def nextTurn (io : List Nat) (s : State) : State :=
  let f := nextFrom (s.host.rrFn + 1) io
  updFn f (fun x => { x with deficit := x.deficit + (s.fnWeight f : Nat) }) { s with host := { s.host with rrFn := f } }

/-- The three levels of the arbiter (R70). -/
theorem execFetchGrant_eq (s : State) : execFetchGrant s =
    if !(adminEligible s).isEmpty then
      .next (grant (nextFrom s.host.rrAdmin (adminEligible s)) 0 (adminRoom s (nextFrom s.host.rrAdmin (adminEligible s)))
        { s with host := { s.host with rrAdmin := (nextFrom s.host.rrAdmin (adminEligible s) + 1) % 64 } })
    else if (ioEligible s).isEmpty then .next s
    else if (ioEligible s).contains (dropDeficits s).host.rrFn &&
        decide (0 < (getFn (dropDeficits s) (dropDeficits s).host.rrFn).deficit) then .next (grantTurn (dropDeficits s))
    else .next (grantTurn (nextTurn (ioEligible s) (dropDeficits s))) := rfl

/-- With an eligible admin queue pair, the grant goes to one (R70). -/
theorem execFetchGrant_of_admin {s : State} (h : adminEligible s ≠ []) :
    ∃ f v, getQp s f 0 = some v ∧ 0 < fetchRoom s f 0 v ∧ execFetchGrant s =
      .next (grant f 0 (fetchRoom s f 0 v) { s with host := { s.host with rrAdmin := (f + 1) % 64 } }) := by
  obtain ⟨-, v, hv, hroom⟩ := mem_adminEligible.1 (nextFrom_mem s.host.rrAdmin h)
  refine ⟨_, v, hv, hroom, ?_⟩
  rw [execFetchGrant_eq, if_pos (by simpa using h), adminRoom, hv]

theorem execFetchGrant_of_none {s : State} (ha : adminEligible s = []) (hio : ioEligible s = []) : execFetchGrant s = .next s := by
  rw [execFetchGrant_eq, if_neg (by simp [ha]), if_pos (by simp [hio])]

theorem execFetchGrant_of_credit {s : State} (ha : adminEligible s = []) (hio : (dropDeficits s).host.rrFn ∈ ioEligible s)
    (hd : 0 < (getFn (dropDeficits s) (dropDeficits s).host.rrFn).deficit) :
    execFetchGrant s = .next (grantTurn (dropDeficits s)) := by
  rw [execFetchGrant_eq, if_neg (by simp [ha]), if_neg (by simpa using List.ne_nil_of_mem hio), if_pos (by simp [hio, hd])]

/-- Deficits taken from others leave a function as it was. -/
theorem foldl_deficit_keeps (f : Nat) (l : List Nat) (hf : f ∉ l) : ∀ s : State,
    FnsOut s (l.foldl (fun s f => updFn f (fun x => { x with deficit := 0 }) s) s) ∧
      (l.foldl (fun s f => updFn f (fun x => { x with deficit := 0 }) s) s).out = s.out ∧
      getFn (l.foldl (fun s f => updFn f (fun x => { x with deficit := 0 }) s) s) f = getFn s f := by
  induction l with
  | nil => exact fun s => ⟨.refl s, rfl, rfl⟩
  | cons g l ih =>
    intro s
    obtain ⟨h1, h2, h3⟩ := ih (fun h => hf (List.mem_cons_of_mem _ h)) (updFn g (fun x => { x with deficit := 0 }) s)
    have hne : f ≠ g := fun e => hf (e ▸ List.mem_cons_self)
    exact ⟨(updFn_fnsOut ..).trans h1, h2, h3.trans (getFn_updFn_ne _ _ hne)⟩

/-- What a function may fetch depends on its own state and on the commands, not on the other functions. -/
theorem eligible_of_getFn {s t : State} {f : Nat} (h : FnsOut s t) (hf : getFn t f = getFn s f) : eligible t f = eligible s f := by
  obtain ⟨F, O, rfl⟩ := h
  unfold eligible fetchRoom
  rw [hf]
  rfl

/-- A function charged for `n` entries of its queue pair `q`, of priority 0 (R70). -/
def charged (q n : Nat) (x : Fn) : Fn := { x with deficit := x.deficit - n, rr := x.rr.set 0 (q + 1) }

/-- One eligible queue pair of priority 0 gets what the credit allows (R70). -/
theorem grantWithin_single {f limit q n : Nat} {v : Qp} {s : State} (hp : v.priority = 0) :
    grantWithin f limit [(q, v, n)] s = grant f q (min n limit) (updFn f (charged q (min n limit)) s) := by
  have hnext : ∀ p, nextFrom p [q] = q := fun p => by
    unfold nextFrom
    by_cases h : p ≤ q <;> simp [h]
  unfold grantWithin
  simp only [List.any_cons, List.any_nil, List.filter_cons, List.filter_nil, hp, hnext, List.map_cons, List.map_nil,
    List.find?_cons, beq_self_eq_true, Bool.or_false, if_true, Option.map_some, Option.getD_some]
  rfl

/-- Settles O16: the admin queue pairs first, then the function whose turn it is. -/
theorem adminQueuesAreGrantedFirst : Obligations.AdminQueuesAreGrantedFirst := by
  unfold Obligations.AdminQueuesAreGrantedFirst
  intro s
  refine ⟨fun ⟨f, v, hf, hv, hroom⟩ => ?_, fun hnone => ?_⟩
  · have hne : adminEligible s ≠ [] := List.ne_nil_of_mem (mem_adminEligible.2 ⟨hf, v, hv, hroom⟩)
    obtain ⟨f, v, hv, hroom, hcall⟩ := execFetchGrant_of_admin hne
    exact ⟨_, f, v, hcall, hv, hroom,
      grant_of_getQp (s := { s with host := { s.host with rrAdmin := (f + 1) % 64 } }) hv⟩
  · have ha : adminEligible s = [] := by
      refine List.eq_nil_iff_forall_not_mem.2 fun f hf => ?_
      obtain ⟨-, v, hv, hroom⟩ := mem_adminEligible.1 hf
      exact absurd (hnone f v hv) (by omega)
    refine ⟨fun hel => execFetchGrant_of_none ha ?_, fun q v n hmem hd hel hv hp => ?_⟩
    · refine List.filter_eq_nil_iff.2 fun f hf => ?_
      simp [hel f hf]
    · intro k
      have hio : s.host.rrFn ∈ ioEligible s := List.mem_filter.2 ⟨hmem, by simp [hel]⟩
      obtain ⟨hsame, hout, hfn⟩ := foldl_deficit_keeps s.host.rrFn
        ((s.host.fns.map (·.1)).filter fun f => !(ioEligible s).contains f) (by simp [hio]) s
      change FnsOut s (dropDeficits s) at hsame
      change (dropDeficits s).out = s.out at hout
      change getFn (dropDeficits s) s.host.rrFn = getFn s s.host.rrFn at hfn
      have hhost : (dropDeficits s).host.rrFn = s.host.rrFn ∧ (dropDeficits s).host.fetchSeq = s.host.fetchSeq := by
        obtain ⟨F, O, e⟩ := hsame
        rw [e]
        exact ⟨rfl, rfl⟩
      obtain ⟨hrr, hseq⟩ := hhost
      have hcall := execFetchGrant_of_credit ha (by rw [hrr]; exact hio) (by rw [hrr, hfn]; exact hd)
      rw [grantTurn, hrr, hfn, eligible_of_getFn hsame hfn, hel, grantWithin_single hp] at hcall
      have hq : getQp (updFn s.host.rrFn (charged q k) (dropDeficits s)) s.host.rrFn q = some v := by
        rw [getQp, getFn_updFn_self, hfn]
        exact hv
      obtain ⟨h1, h2, -, h4⟩ := grant_of_getQp (n := k) hq
      refine ⟨_, hcall, ?_, ?_, ?_⟩
      · rw [h1, updFn_out, hout]
      · rw [h2]
        show some { v with reads := v.reads ++ [((dropDeficits s).host.fetchSeq, k, none)], sqReq := _ } = _
        rw [hseq]
      · rw [h4, updFn_cmds, hsame.cmds]

end Sys2Proof.Machine
end

section
/-! The entries of a fetch read that has returned, and the order in which returned reads are fetched (R68, R69, R98). -/

namespace Sys2Proof.Machine

/-- No command, output or queue pair changes, but for the claim of a QUEUE_RESET. -/
def ClaimOnly (s t : State) : Prop :=
  t.host.cmds = s.host.cmds ∧ t.out = s.out ∧
    ∀ f q v, getQp s f q = some v → ∃ k, getQp t f q = some { v with claim := k }

theorem ClaimOnly.of_host {s t : State} (hh : t.host = s.host) (ho : t.out = s.out) : ClaimOnly s t :=
  ⟨by rw [hh], ho, fun f q v hv => ⟨v.claim, by simpa only [getQp, getFn, hh] using hv⟩⟩

theorem ClaimOnly.ite {s : State} {p : Prop} [Decidable p] {a b : State} (ha : ClaimOnly s a) (hb : ClaimOnly s b) :
    ClaimOnly s (if p then a else b) := by
  split
  · exact ha
  · exact hb

theorem updQp_claimOnly (f q : Nat) (k : Option Nat) (s : State) : ClaimOnly s (updQp f q (fun v => { v with claim := k }) s) := by
  unfold updQp
  split
  · rename_i x hx
    refine ⟨rfl, rfl, fun g r v hv => ?_⟩
    by_cases h : g ≠ f ∨ r ≠ q
    · exact ⟨v.claim, by rw [getQp_setQp_ne _ _ h]; exact hv⟩
    · obtain ⟨rfl, rfl⟩ : g = f ∧ r = q := by tauto
      rw [hv] at hx
      cases hx
      exact ⟨_, getQp_setQp_self ..⟩
  · exact .of_host rfl rfl

/-- The marks of a fetch touch of the queues at most the claim of a QUEUE_RESET (R88, R98). -/
theorem fetchMarks_claimOnly (fn seq : Nat) (e : BitVec 512) (s : State) : ClaimOnly s (fetchMarks fn seq e s) := by
  unfold fetchMarks
  extract_lets op
  refine .ite (updQp_claimOnly ..) (.ite ?keyUnload (.ite ?load (.ite ?unload (.ite ?format (.ite ?rebuild (.ite ?create
    (.ite ?open_ (.ite ?close ?other))))))))
  case open_ => exact .ite (.of_host rfl rfl) (.of_host rfl rfl)
  all_goals exact .of_host rfl rfl

/-- One entry enters its fetch queue, with its place in the fetch order (R96, R98). -/
theorem fetchOne_keeps {f q : Nat} {v : Qp} {s : State} (hq : getQp s f q = some v) (seq head : Nat) (e : BitVec 512) :
    (fetchOne f q seq head e s).host.cmds = s.host.cmds ∧ (fetchOne f q seq head e s).out = s.out ∧
      ∃ k x, getQp (fetchOne f q seq head e s) f q = some { v with
        claim := k, fetchQ := v.fetchQ ++ [⟨e, seq, x, head⟩], fqPtrs := fqWrite v.fqPtrs } := by
  unfold fetchOne
  extract_lets x y s1
  have hs1 : s1.host.cmds = s.host.cmds ∧ s1.out = s.out ∧ ∃ k, getQp s1 f q = some { v with claim := k } := by
    show (if x.isNone then fetchMarks f seq e s else s).host.cmds = _ ∧ (if x.isNone then fetchMarks f seq e s else s).out = _ ∧
      ∃ k, getQp (if x.isNone then fetchMarks f seq e s else s) f q = _
    split
    · obtain ⟨h1, h2, h3⟩ := fetchMarks_claimOnly f seq e s
      exact ⟨h1, h2, h3 f q v hq⟩
    · exact ⟨rfl, rfl, v.claim, hq⟩
  obtain ⟨h1, h2, k, h3⟩ := hs1
  unfold updQp
  rw [h3]
  exact ⟨h1, h2, k, x, getQp_setQp_self ..⟩

theorem fetchCreate_qpKept (seq : Nat) (e : BitVec 512) (s : State) : QpKept s (fetchCreate seq e s) := by
  unfold fetchCreate
  extract_lets n x t
  split
  · exact (QpKept.refl s).upd rfl rfl rfl
  · refine openDataset_qpKept ?_ ..
    exact (QpKept.refl s).upd rfl rfl rfl

/-- The entries of a read enter the fetch queue in order, and the submission head moves past them (R68, R98). -/
theorem fetchEntries_keeps (f q : Nat) (es : List (BitVec 512)) : ∀ (seq : Nat) (s : State) (v : Qp), getQp s f q = some v →
    v.sqHead < v.sqDepth →
    (∃ w, getQp (fetchEntries f q seq es s) f q = some w ∧ w.reads = v.reads ∧
      w.sqHead = (v.sqHead + es.length) % v.sqDepth ∧
      w.fetchQ.map (fun x => (x.entry, x.seq)) = v.fetchQ.map (fun x => (x.entry, x.seq)) ++ es.zipIdx seq) ∧
    (es.all (fun e => eOpcode e != opStreamCreate) = true →
      (fetchEntries f q seq es s).host.cmds = s.host.cmds ∧ (fetchEntries f q seq es s).out = s.out) := by
  induction es with
  | nil =>
    intro seq s v hq hd
    exact ⟨⟨v, hq, rfl, by rw [List.length_nil, Nat.add_zero, Nat.mod_eq_of_lt hd], by simp⟩, fun _ => ⟨rfl, rfl⟩⟩
  | cons e es ih =>
    intro seq s v hq hd
    simp only [fetchEntries, hq]
    set h := (v.sqHead + 1) % v.sqDepth with hh
    have hlt : h < v.sqDepth := Nat.mod_lt _ (by omega)
    obtain ⟨hc1, ho1, k, x, hq1⟩ := fetchOne_keeps (s := setQp f q { v with sqHead := h } s) (getQp_setQp_self ..) seq h e
    set s1 := fetchOne f q seq h e (setQp f q { v with sqHead := h } s) with hs1
    generalize hcr : (decide (eOpcode e = opStreamCreate) && (verdictOf s f q e).isNone) = creates
    obtain ⟨w1, hw1, hsq⟩ := (show QpKept s1 (if creates then fetchCreate seq e s1 else s1) from
      QpKept.ite (fetchCreate_qpKept ..) (.refl s1)).qps f q _ hq1
    obtain ⟨⟨w, hw, hreads, hhead, hfq⟩, hplain⟩ := ih (seq + 1) _ w1 hw1 (by rw [hsq.sqHead, hsq.sqDepth]; exact hlt)
    refine ⟨⟨w, hw, ?_, ?_, ?_⟩, fun hall => ?_⟩
    · rw [hreads, hsq.reads]
    · rw [hhead, hsq.sqHead, hsq.sqDepth]
      show (h + es.length) % v.sqDepth = _
      rw [hh, Nat.mod_add_mod, List.length_cons]
      congr 1
      omega
    · rw [hfq, hsq.fetchQ]
      simp
    · rw [List.all_cons, Bool.and_eq_true] at hall
      have hno : creates = false := by
        rw [← hcr]
        have : eOpcode e ≠ opStreamCreate := by simpa using hall.1
        simp [this]
      subst hno
      obtain ⟨hc, ho⟩ := hplain hall.2
      exact ⟨hc.trans hc1, ho.trans ho1⟩

section
variable {α β : Type}

/-- Of a table with rising keys of which one pair alone contributes, that contribution is left. -/
theorem Tab.flatMap_single {t : Tab α} {i : Nat} {v : α} (hw : Tab.wf t = true) (hv : Tab.get? t i = some v)
    (g : Nat × α → List β) (hg : ∀ p ∈ t, p.1 ≠ i → g p = []) : t.flatMap g = g (i, v) := by
  induction t with
  | nil => simp at hv
  | cons p t ih =>
    obtain ⟨k, w⟩ := p
    simp only [Tab.get?] at hv
    split at hv
    · rename_i hk
      cases hv
      subst hk
      have hrest : t.flatMap g = [] := List.flatMap_eq_nil_iff.2 fun y hy =>
        hg y (List.mem_cons_of_mem _ hy) (Nat.ne_of_gt (Tab.lt_of_mem_tail hw hy))
      rw [List.flatMap_cons, hrest, List.append_nil]
    · rename_i hk
      have h1 : g (k, w) = [] := hg _ List.mem_cons_self fun e => hk e.symm
      rw [List.flatMap_cons, h1, List.nil_append]
      exact ih (Tab.wf_tail hw) hv fun y hy => hg y (List.mem_cons_of_mem _ hy)

/-- A key of a table with rising keys written again: a change in place. -/
theorem Tab.put_eq_map {t : Tab α} {i : Nat} {w : α} (hw : Tab.wf t = true) (hv : Tab.get? t i = some w) (v : α) :
    Tab.put t i v = t.map fun p => if p.1 = i then (i, v) else p := by
  induction t with
  | nil => simp at hv
  | cons p t ih =>
    obtain ⟨k, x⟩ := p
    have hne : i = k → ∀ y ∈ t, y.1 ≠ i := fun e y hy => by
      have := Tab.lt_of_mem_tail hw hy
      simp only at this
      omega
    by_cases hk : i = k
    · subst hk
      have hmap : t.map (fun p => if p.1 = i then (i, v) else p) = t :=
        (List.map_congr_left fun y hy => if_neg (hne rfl y hy)).trans (List.map_id _)
      simp [Tab.put, hmap]
    · simp only [Tab.get?, if_neg hk] at hv
      have hlt : k < i := Tab.lt_of_mem_tail hw (Tab.mem_of_get? hv)
      simp only [Tab.put, if_neg (by omega : ¬ i < k), if_neg hk, List.map_cons, if_neg (fun e : k = i => hk e.symm)]
      rw [ih (Tab.wf_tail hw) hv]

end

/-- The first read of a queue pair, with its number and place, as the order of the grants takes it (R98). -/
def headRead (f : Nat) (p : Nat × Qp) : Option (Nat × Nat × Nat × Option (List (BitVec 512))) :=
  match p.2.reads with
  | (seq, _, r) :: _ => some (seq, f, p.1, r)
  | [] => none

/-- The first reads of every queue pair. -/
def headReads (s : State) : List (Nat × Nat × Nat × Option (List (BitVec 512))) :=
  s.host.fns.flatMap fun x => x.2.qps.filterMap (headRead x.1)

/-- Of two reads, the one granted earlier. -/
def earlier (a : Option (Nat × Nat × Nat × Option (List (BitVec 512)))) (x : Nat × Nat × Nat × Option (List (BitVec 512))) :
    Option (Nat × Nat × Nat × Option (List (BitVec 512))) :=
  match a with
  | some b => if x.1 < b.1 then some x else a
  | none => some x

theorem firstRead_eq (s : State) : firstRead s = (headReads s).foldl earlier none := rfl

/-- A change of reads that keeps their numbers changes the first read alike. -/
theorem foldl_earlier_map (k : Nat × Nat × Nat × Option (List (BitVec 512)) → Nat × Nat × Nat × Option (List (BitVec 512)))
    (hk : ∀ x, (k x).1 = x.1) (l : List (Nat × Nat × Nat × Option (List (BitVec 512)))) :
    ∀ a, (l.map k).foldl earlier (a.map k) = (l.foldl earlier a).map k := by
  induction l with
  | nil => exact fun a => rfl
  | cons x l ih =>
    intro a
    have hstep : earlier (a.map k) (k x) = (earlier a x).map k := by
      cases a with
      | none => rfl
      | some b =>
        simp only [earlier, Option.map_some, hk]
        split <;> rfl
    simp only [List.map_cons, List.foldl_cons, hstep, ih]

/-- A queue pair stands in a function of the table. -/
theorem get?_fns_of_getQp {s : State} {f q : Nat} {v : Qp} (hq : getQp s f q = some v) :
    Tab.get? s.host.fns f = some (getFn s f) := by
  unfold getQp getFn Tab.getD at hq
  unfold getFn Tab.getD
  cases hg : Tab.get? s.host.fns f with
  | none =>
    rw [hg] at hq
    simp at hq
  | some x => rfl

theorem OthersQuiet.headReads {s : State} {f q : Nat} {v : Qp} (h : OthersQuiet s f q) (hq : getQp s f q = some v) :
    Machine.headReads s = (headRead f (q, v)).toList := by
  have hf := get?_fns_of_getQp hq
  have hquiet : ∀ g (y : Nat × Qp), y.2.reads = [] → headRead g y = none := fun g y hy => by
    unfold headRead
    rw [hy]
  unfold Machine.headReads
  rw [Tab.flatMap_single h.1 hf, List.filterMap_eq_flatMap_toList, Tab.flatMap_single (h.fn f).1 hq]
  · intro y hy hne
    rw [hquiet f y ((h.fn f).2 y hy (Or.inr hne))]
    rfl
  · intro x hx hne
    exact List.filterMap_eq_nil_iff.2 fun y hy => hquiet _ y ((h.2 x hx).2 y hy (Or.inl hne))

/-- The reads still to be fetched. -/
theorem OthersQuiet.readCount {s : State} {f q : Nat} {v : Qp} (h : OthersQuiet s f q) (hq : getQp s f q = some v) :
    ((s.host.fns.map fun f => (f.2.qps.map fun q => q.2.reads.length).sum).sum) = v.reads.length := by
  have hf := get?_fns_of_getQp hq
  have hlen : ((s.host.fns.map fun f => (f.2.qps.map fun q => q.2.reads.length).sum).sum) =
      (s.host.fns.flatMap fun f => f.2.qps.flatMap fun q => q.2.reads).length := by
    simp [List.length_flatMap]
  rw [hlen, Tab.flatMap_single h.1 hf, Tab.flatMap_single (h.fn f).1 hq]
  · exact fun y hy hne => (h.fn f).2 y hy (Or.inr hne)
  · exact fun x hx hne => List.flatMap_eq_nil_iff.2 fun y hy => (h.2 x hx).2 y hy (Or.inl hne)

/-- The one read outstanding has returned: its entries are fetched, and nothing else is (R98). -/
theorem takeReturns_single {s : State} {f q : Nat} {v : Qp} {seq n : Nat} {es : List (BitVec 512)} (h : OthersQuiet s f q)
    (hq : getQp s f q = some v) (hr : v.reads = [(seq, n, some es)]) :
    takeReturns s = fetchEntries f q seq es (setQp f q { v with reads := [] } s) := by
  have hfirst : firstRead s = some (seq, f, q, some es) := by
    rw [firstRead_eq, h.headReads hq, headRead, hr]
    rfl
  unfold takeReturns
  rw [h.readCount hq, hr]
  simp only [List.length_singleton, takeReturnsN, hfirst, updQp, hq, hr, List.drop_one, List.tail_cons]

/-- The oldest outstanding read of a queue pair is marked with its entries (R68). -/
theorem updQp_markReturn {s : State} {f q : Nat} {v : Qp} {seq : Nat} {entries : List (BitVec 512)}
    {l : List (Nat × Nat × Option (List (BitVec 512)))} (hq : getQp s f q = some v)
    (hr : v.reads = (seq, entries.length, none) :: l) :
    updQp f q (fun v => { v with reads := markReturn entries v.reads }) s =
      setQp f q { v with reads := (seq, entries.length, some entries) :: l } s := by
  simp [updQp, hq, hr, markReturn]

/-- A read of one queue pair marked as returned, among the first reads. -/
def markRead (f q : Nat) (es : List (BitVec 512)) (x : Nat × Nat × Nat × Option (List (BitVec 512))) :
    Nat × Nat × Nat × Option (List (BitVec 512)) :=
  if x.2.1 = f ∧ x.2.2.1 = q then (x.1, f, q, some es) else x

theorem headReads_setQp {s : State} {f q : Nat} {v : Qp} {seq n : Nat} {es : List (BitVec 512)}
    {l : List (Nat × Nat × Option (List (BitVec 512)))} {r : Option (List (BitVec 512))} (hwf : Tab.wf s.host.fns = true)
    (hws : ∀ x ∈ s.host.fns, Tab.wf x.2.qps = true) (hq : getQp s f q = some v) (hr : v.reads = (seq, n, r) :: l) :
    headReads (setQp f q { v with reads := (seq, n, some es) :: l } s) = (headReads s).map (markRead f q es) := by
  have hf := get?_fns_of_getQp hq
  have hwq := hws _ (Tab.mem_of_get? hf)
  unfold headReads
  show (Tab.put s.host.fns f { getFn s f with qps := Tab.put (getFn s f).qps q _ }).flatMap _ = _
  rw [Tab.put_eq_map hwf hf, Tab.put_eq_map hwq hq, List.flatMap_map, List.map_flatMap]
  refine List.flatMap_congr fun x hx => ?_
  rw [List.map_filterMap]
  by_cases hxf : x.1 = f
  · have hx2 : x.2 = getFn s f := by
      have := Tab.get?_of_mem hwf hx
      rw [hxf, hf] at this
      exact (Option.some.inj this).symm
    rw [if_pos hxf, hxf, hx2]
    simp only [List.filterMap_map]
    refine List.filterMap_congr fun y hy => ?_
    by_cases hyq : y.1 = q
    · have hy2 : y.2 = v := by
        have := Tab.get?_of_mem hwq hy
        rw [hyq, show Tab.get? (getFn s f).qps q = some v from hq] at this
        exact (Option.some.inj this).symm
      simp [hyq, headRead, hy2, hr, markRead]
    · simp only [Function.comp_apply, if_neg hyq, headRead]
      split <;> simp [markRead, hyq]
  · rw [if_neg hxf]
    refine List.filterMap_congr fun y hy => ?_
    simp only [headRead]
    split <;> simp [markRead, hxf]

/-- A read that returns while an earlier one is outstanding waits (R68, R98). -/
theorem takeReturns_of_outstanding {s : State} {n g r : Nat} (h : firstRead s = some (n, g, r, none)) : takeReturns s = s := by
  unfold takeReturns
  generalize ((s.host.fns.map fun f => (f.2.qps.map fun q => q.2.reads.length).sum).sum) = k
  cases k with
  | zero => rfl
  | succ k =>
    unfold takeReturnsN
    rw [h]

/-- Settles O17: the one read outstanding by its entries, a read behind another by the order of the grants. -/
theorem fetchReturnFillsFetchQueue : Obligations.FetchReturnFillsFetchQueue := by
  unfold Obligations.FetchReturnFillsFetchQueue
  intro fn qp entries v seq s hq
  refine ⟨fun hr hd hquiet => ?_, fun l n g r hr hwf hws hfirst hne => ?_⟩
  · set s1 := setQp fn.val qp.val { v with reads := [(seq, entries.length, some entries)] } s with hs1
    have hq1 : getQp s1 fn.val qp.val = _ := getQp_setQp_self ..
    have htake := takeReturns_single (hquiet.setQp _) hq1 rfl
    obtain ⟨⟨w, hw, hreads, hhead, hfq⟩, hplain⟩ := fetchEntries_keeps fn.val qp.val entries seq
      (setQp fn.val qp.val { v with reads := [] } s1) { v with reads := [] } (getQp_setQp_self ..) hd
    refine ⟨_, w, ?_, hw, hreads, hhead, hfq, hplain⟩
    rw [exec_fetchReadReturn, execFetchReadReturn, updQp_markReturn hq hr, ← hs1, htake]
  · have hfirst2 : firstRead (setQp fn.val qp.val { v with reads := (seq, entries.length, some entries) :: l } s) =
        some (n, g, r, none) := by
      have hkey : ∀ x, (markRead fn.val qp.val entries x).1 = x.1 := fun x => by
        unfold markRead
        split <;> rfl
      have hmap := foldl_earlier_map _ hkey (headReads s) none
      rw [firstRead_eq, headReads_setQp hwf hws hq hr]
      rw [firstRead_eq] at hfirst
      rw [hfirst] at hmap
      have hstay : markRead fn.val qp.val entries (n, g, r, none) = (n, g, r, none) := if_neg (by tauto)
      rw [Option.map_some, hstay] at hmap
      exact hmap
    rw [exec_fetchReadReturn, execFetchReadReturn, updQp_markReturn hq hr, takeReturns_of_outstanding hfirst2]

end Sys2Proof.Machine
end

section
/-! Why the start of a queue reset cannot be promised of every state: QueueResetStarts asks nothing of the table of functions
(R49, R83). -/

namespace Sys2Proof.Machine

/-- An idle queue pair. -/
def idleQp : Qp := { sqBase := 0, cqBase := 0, sqDepth := 8, cqDepth := 8, maxOut := 8 }

/-- The same with one fetch read that has returned an entry and has not been fetched. -/
def returnedQp : Qp := { idleQp with reads := [(0, 1, some [0])] }

/-- A table of functions that names the PF twice; its first pair is the one read, the second holds the returned read. -/
def namedTwice : State :=
  { State.reset with host := { State.reset.host with fns := [(0, { qps := [(0, idleQp)] }), (0, { qps := [(0, returnedQp)] })] } }

theorem getQp_namedTwice : getQp namedTwice 0 0 = some idleQp := rfl

/-- AqReset empties the fetch queue and then fetches what the second pair of the same key has returned. -/
theorem aqReset_namedTwice : ((getQp (resetStart 0 0 {} namedTwice) 0 0).map fun v => v.fetchQ.length) = some 1 := by
  decide +kernel

/-- Refutes O22: with no well-formedness of the tables asked for, the PF can stand twice in the table of functions; AqReset forgets
the reads of the pair that is read, and the returned read of the other fills the emptied fetch queue again. -/
theorem not_queueResetStarts : ¬ Obligations.QueueResetStarts := by
  unfold Obligations.QueueResetStarts
  rintro ⟨haq, -, -⟩
  obtain ⟨t, w, hcall, hw, hfq, -⟩ := (haq 0 false idleQp namedTwice getQp_namedTwice).1 rfl
  have hrun : exec (.aqReset 0 false) namedTwice = .next (resetStart 0 0 {} namedTwice) := rfl
  obtain rfl : resetStart 0 0 {} namedTwice = t := Host.Outcome.next.inj (hrun.symm.trans hcall)
  have hone := aqReset_namedTwice
  rw [show getQp (resetStart 0 0 {} namedTwice) 0 0 = some w from hw, Option.map_some, hfq] at hone
  cases hone

end Sys2Proof.Machine
end

section
/-! The end of a queue pair's reset: steps 2 to 6 of R83 (R83, R85, R90, R113). -/

namespace Sys2Proof.Machine

/-- The queue pair when its reset has ended (R83, R85). -/
def resetDone (v : Qp) (held : Bool) : Qp :=
  { v with log := [], lost := 0, frozen := false, held := [], writeFailed := false, recent := [], reset := none, resetEnds := held }

/-- The completion of a QUEUE_RESET whose reset has ended, put off to its posting as R83 says; nothing for a reset of R90. -/
def resetReply (f q : Nat) (r : QpReset) (committed aborted head epoch : Nat) (s : State) : State :=
  match r.by' with
  | some slot =>
    finishWith slot .success [(17, committed), (15, 0), (17, aborted), (15, 0), (16, head), (4, epoch)] 0
      (onPost slot (.resetPosted f q) s)
  | none => s

/-- The readers of the log are ended and the commands classified (R83, R84, R113). -/
def resetEnded (f q epoch : Nat) (s : State) : State × Nat × Nat :=
  let s := updQp f q (fun v => { v with epoch := epoch }) s
  let s := (logReaders s f q).foldl (fun s n => finish n .queueReset bHqe s) s
  endCmds (slotsOf s f q) s

theorem resetCut_of_reset {s : State} {f q : Nat} {v : Qp} {r : QpReset} (hq : getQp s f q = some v) (hr : v.reset = some r) :
    resetCut f q s =
      let t := resetEnded f q ((v.epoch + 1) % 16) s
      raiseIf r.mismatch 0x401 [iFn f, iQp q, (17, t.2.1), (17, t.2.2), (4, (v.epoch + 1) % 16)] (shutdownCheck f
        (resetReply f q r t.2.1 t.2.2 v.sqHead ((v.epoch + 1) % 16)
          (updQp f q (fun v => resetDone v r.by'.isSome) t.1))) := by
  unfold resetCut
  rw [hq]
  simp only [hr]
  rfl

@[simp] theorem getQp_raiseIf (b : Bool) (n : Nat) (l : List (Nat × Nat)) (s : State) (f q : Nat) :
    getQp (raiseIf b n l s) f q = getQp s f q := by
  unfold raiseIf
  split
  · exact getQp_raise ..
  · rfl

theorem resetEnded_qpKept {s : State} {f q epoch : Nat} {v : Qp} (hq : getQp s f q = some v) :
    QpKept (setQp f q { v with epoch := epoch } s) (resetEnded f q epoch s).1 := by
  unfold resetEnded
  simp only [updQp, hq]
  exact endCmds_qpKept (QpKept.foldl (.refl _) fun t n h => finish_qpKept h ..) _

/-- With no command of the queue pair in flight and no reader of its log, only what waits to go on is left (R83, R84). -/
theorem resetEnded_of_none {s : State} {f q epoch : Nat} {v : Qp} (hq : getQp s f q = some v) (hs : slotsOf s f q = [])
    (hl : logReaders s f q = []) :
    resetEnded f q epoch s = (settle (setQp f q { v with epoch := epoch } s), 0, 0) := by
  set x := setQp f q { v with epoch := epoch } s with hx
  have hsx : slotsOf x f q = [] := hs
  have hlx : logReaders x f q = [] := hl
  have hopen : openHolders x [] = [] := by
    refine List.filterMap_eq_nil_iff.2 fun p _ => ?_
    cases p.2.openBlk <;> simp
  unfold resetEnded
  simp only [updQp, hq, ← hx, hlx, List.foldl_nil, hsx]
  unfold endCmds
  simp [hopen]

/-- The QUEUE_RESET completes on its own queue pair, and the posting ends the mark on the one it reset (R83, R88). -/
theorem resetReply_ends {s : State} {f q slot : Nat} {r : QpReset} {c : Cmd} {a w : Qp} (hby : r.by' = some slot)
    (hc : getCmd s slot = some c) (hs : c.stage ≠ .held) (ht : Takes s c a) (hne : f ≠ c.fn ∨ q ≠ c.qp)
    (hq : getQp s f q = some w) (committed aborted head epoch : Nat) :
    Ends s (resetReply f q r committed aborted head epoch s) slot a { baseCpl c .success with
        specific := BitVec.ofNat 96 (packLsb [(17, committed), (15, 0), (17, aborted), (15, 0), (16, head), (4, epoch)]) } ∧
      getQp (resetReply f q r committed aborted head epoch s) f q = some { w with resetEnds := false } := by
  set counts := packLsb [(17, committed), (15, 0), (17, aborted), (15, 0), (16, head), (4, epoch)]
  set d : Cmd := { c with post := [.resetPosted f q] } with hd
  have hpost : onPost slot (.resetPosted f q) s = setCmd slot d s := by
    unfold onPost updCmd
    rw [hc]
    simp only [ht.plain, List.nil_append, hd]
  have htakes : TakesNow (setCmd slot d s) d a := ⟨ht.live, ht.qp, ht.epoch, ht.held, ht.writes, ht.room⟩
  have hfin := complete_of_takesNow (getCmd_setCmd_self ..) (show d.stage ≠ .held from hs) htakes
    (fun c => { baseCpl c .success with specific := BitVec.ofNat 96 counts }) { block := 0 }
  rw [errored_of_ok (by rfl)] at hfin
  set u := writeCpl d.fn d.qp ⟨some slot, some d, { baseCpl d .success with specific := BitVec.ofNat 96 counts }⟩ a
    (setQp d.fn d.qp a (setCmd slot d s)) with hu
  have hcu : getCmd u slot = some d := by
    have hsame : FnsOut (setCmd slot d s) u := (setQp_fnsOut ..).trans (writeCpl_fnsOut ..)
    rw [getCmd, hsame.cmds]
    exact getCmd_setCmd_self ..
  have hqu : getQp u f q = some w := by
    have hne' : f ≠ d.fn ∨ q ≠ d.qp := hne
    rw [hu, getQp_writeCpl_ne _ _ _ hne', getQp_setQp_ne _ _ hne', getQp_setCmd, hq]
  obtain ⟨l, hl, hout⟩ := writeCpl_out d.fn d.qp
    ⟨some slot, some d, { baseCpl d .success with specific := BitVec.ofNat 96 counts }⟩ a (setQp d.fn d.qp a (setCmd slot d s))
  have hcall : resetReply f q r committed aborted head epoch s = dropCmd slot u := by
    unfold resetReply
    rw [hby]
    simp only [hpost]
    exact hfin
  rw [hcall]
  refine ⟨⟨⟨l, [], hl, ?_⟩, getCmd_dropCmd_self ..⟩, ?_⟩
  · rw [dropCmd_out, hout]
    rfl
  · rw [dropCmd_of_post hcu rfl ht.kept, getQp_shutdownCheck]
    show getQp (updQp f q _ _) f q = _
    unfold updQp
    rw [show getQp { u with host := { u.host with cmds := Tab.del u.host.cmds slot } } f q = some w from hqu]
    exact getQp_setQp_self ..

/-- Settles O23: the queue pair through the commands that the reset ends; with none, the event or the completion. -/
theorem queueResetEnds : Obligations.QueueResetEnds := by
  unfold Obligations.QueueResetEnds
  intro fn qp v r s hq hr
  have hcut : exec (.queueResetCut fn qp) s = .next (resetCut fn.val qp.val s) := rfl
  rw [hcut, resetCut_of_reset hq hr]
  refine ⟨fun hby => ?_, ?_⟩
  · obtain ⟨w, hw, hsq⟩ := (resetEnded_qpKept (epoch := (v.epoch + 1) % 16) hq).qps _ _ _ (getQp_setQp_self ..)
    refine ⟨_, resetDone w r.by'.isSome, rfl, ?_, hsq.epoch, rfl, rfl, rfl, rfl, rfl⟩
    simp only [resetReply, hby]
    rw [getQp_raiseIf, getQp_shutdownCheck, updQp, hw]
    exact getQp_setQp_self ..
  · intro x hs hl hx
    have hend : resetEnded fn.val qp.val ((v.epoch + 1) % 16) s = (x, 0, 0) := by
      rw [resetEnded_of_none hq hs hl]
      exact congrArg (·, 0, 0) hx
    set w : Qp := resetDone { v with epoch := (v.epoch + 1) % 16 } r.by'.isSome with hw
    have hdone : updQp fn.val qp.val (fun v => resetDone v r.by'.isSome) x = setQp fn.val qp.val w x := by
      unfold updQp
      rw [show getQp x fn.val qp.val = _ from getQp_setQp_self ..]
    simp only [hend, hdone]
    refine ⟨fun hby hm => ⟨_, rfl, ?_⟩, fun slot c a hby hm hc hst hfn hne ht => ?_⟩
    · simp only [resetReply, hby, hm, raiseIf, if_true]
      rw [raise_counts, Tab.getD_put_self, shutdownCheck_ev, setQp_ev, setQp_ev]
    · have hoth : getQp (setQp fn.val qp.val w x) c.fn c.qp = getQp s c.fn c.qp :=
        (getQp_setQp_ne _ _ (Or.inr hne)).trans (getQp_setQp_ne _ _ (Or.inr hne))
      obtain ⟨⟨⟨l, o, hl1, hout⟩, hgone⟩, hqp⟩ := resetReply_ends (s := setQp fn.val qp.val w x) hby hc (by simp [hst])
        (ht.of_qp hoth) (Or.inr (Ne.symm hne)) (getQp_setQp_self ..) 0 0 v.sqHead ((v.epoch + 1) % 16)
      simp only [hm, raiseIf, Bool.false_eq_true, if_false]
      refine ⟨_, _, rfl, (getQp_shutdownCheck ..).trans hqp, rfl, rfl, rfl, ⟨l, o, hl1, ?_⟩, ?_⟩
      · rw [shutdownCheck_out, hout]
        rfl
      · rw [getCmd, shutdownCheck_cmds]
        exact hgone

end Sys2Proof.Machine
end

section
/-! The end of a function and of the VFs: what stays of the functions, and which exist (R37, R50, R91). -/

namespace Sys2Proof.Machine

/-- The VFs that exist stay. -/
def VfsKept (s t : State) : Prop := t.host.vfEnable = s.host.vfEnable ∧ t.host.numVfs = s.host.numVfs

theorem VfsKept.refl (s : State) : VfsKept s s := ⟨rfl, rfl⟩

theorem VfsKept.trans {s t u : State} (h : VfsKept s t) (k : VfsKept t u) : VfsKept s u := ⟨k.1.trans h.1, k.2.trans h.2⟩

theorem QpKept.vfs {s t : State} (h : QpKept s t) : VfsKept s t := ⟨h.vfEnable, h.numVfs⟩

theorem VfsKept.foldl {α : Type} {f : State → α → State} (hf : ∀ t a, VfsKept t (f t a)) (l : List α) :
    ∀ s, VfsKept s (l.foldl f s) := by
  induction l with
  | nil => exact fun s => .refl s
  | cons a l ih => exact fun s => (hf s a).trans (ih _)

theorem VfsKept.exists {s t : State} (h : VfsKept s t) (f : Nat) : fnExists t f = fnExists s f := fnExists_congr h.1 h.2 f

/-- A function without queue pairs that is not ready. -/
def Bare (f : Nat) (s : State) : Prop := (getFn s f).qps = [] ∧ (getFn s f).ready = false

theorem Bare.of_fns {f : Nat} {s t : State} (h : Bare f s) (e : t.host.fns = s.host.fns) : Bare f t := by
  unfold Bare getFn
  rw [e]
  exact h

theorem Bare.getQp {f : Nat} {s : State} (h : Bare f s) (q : Nat) : getQp s f q = none := by
  rw [Machine.getQp, h.1]
  rfl

theorem Bare.setQp {f : Nat} {s : State} (h : Bare f s) {g q : Nat} {v : Qp} (hq : Machine.getQp s g q = some v) (w : Qp) :
    Bare f (setQp g q w s) := by
  have hne : f ≠ g := by
    rintro rfl
    rw [h.getQp] at hq
    cases hq
  unfold Bare Machine.setQp
  rw [getFn_updFn_ne _ _ hne]
  exact h

theorem Bare.updQp {f : Nat} {s : State} (h : Bare f s) (g q : Nat) (k : Qp → Qp) : Bare f (updQp g q k s) := by
  unfold Machine.updQp
  split
  · rename_i v hv
    exact h.setQp hv _
  · exact h

theorem shutdownCheck_bare {f : Nat} {s : State} (h : Bare f s) (g : Nat) : Bare f (shutdownCheck g s) := by
  by_cases hg : f = g
  · subst hg
    unfold Bare
    rw [getFn_shutdownCheck_self]
    exact h
  · unfold Bare
    rw [getFn_shutdownCheck_ne _ hg]
    exact h

theorem updCmd_fns (n : Nat) (g : Cmd → Cmd) (s : State) : (updCmd n g s).host.fns = s.host.fns := by
  unfold updCmd
  split <;> rfl

theorem retag_fns (tag : BitVec 128) (id : Nat) (s : State) : (retag tag id s).host.fns = s.host.fns := by
  unfold retag
  split
  · rfl
  · exact updCmd_fns ..

theorem updAbove_fns (s : State) : (updAbove s).host.fns = s.host.fns := by
  unfold updAbove throttle
  split
  · split <;> rfl
  · split <;> rfl

theorem takeBuf_fns (owner p : Nat) (s : State) : (takeBuf owner p s).1.host.fns = s.host.fns := updAbove_fns _

/-- A buffer asked for, or a dataset opened, changes no function. -/
theorem askBuf_fns (owner size : Nat) (tag : BitVec 128) (s : State) : (askBuf owner size tag s).1.host.fns = s.host.fns := by
  unfold askBuf
  split
  · exact (retag_fns ..).trans (takeBuf_fns ..)
  · rfl

theorem openDataset_fns (cont : Nat) (tag : BitVec 128) (s : State) : (openDataset cont tag s).host.fns = s.host.fns := by
  have h := askBuf_fns 0x80 25165824 tag s
  unfold openDataset
  extract_lets r
  split
  · rfl
  · split
    · exact h
    · exact h

theorem fetchCreate_fns (seq : Nat) (e : BitVec 512) (s : State) : (fetchCreate seq e s).host.fns = s.host.fns := by
  unfold fetchCreate
  extract_lets n x t
  split
  · rfl
  · exact openDataset_fns ..

theorem fetchMarks_bare {f : Nat} {s : State} (h : Bare f s) (fn seq : Nat) (e : BitVec 512) : Bare f (fetchMarks fn seq e s) := by
  have ite : ∀ {p : Prop} [Decidable p] {a b : State}, Bare f a → Bare f b → Bare f (if p then a else b) := by
    intro p _ a b ha hb
    split
    · exact ha
    · exact hb
  unfold fetchMarks
  extract_lets op
  refine ite (h.updQp ..) (ite ?keyUnload (ite ?load (ite ?unload (ite ?format (ite ?rebuild (ite ?create
    (ite ?open_ (ite ?close ?other))))))))
  case open_ => exact ite (h.of_fns rfl) (h.of_fns rfl)
  all_goals exact h.of_fns rfl

theorem fetchOne_bare {f : Nat} {s : State} (h : Bare f s) (fn q seq head : Nat) (e : BitVec 512) :
    Bare f (fetchOne fn q seq head e s) := by
  unfold fetchOne
  extract_lets v x s1
  have h1 : Bare f s1 := by
    show Bare f (if _ then _ else _)
    split
    · exact fetchMarks_bare h ..
    · exact h
  exact h1.updQp ..

theorem fetchEntries_bare {f : Nat} (g q : Nat) (es : List (BitVec 512)) : ∀ (seq : Nat) (s : State), Bare f s →
    Bare f (fetchEntries g q seq es s) := by
  induction es with
  | nil => exact fun _ _ h => h
  | cons e es ih =>
    intro seq s h
    unfold fetchEntries
    split
    · exact h
    · rename_i v hv
      extract_lets head creates s1
      have h1 : Bare f s1 := fetchOne_bare (h.setQp hv _) ..
      refine ih _ _ ?_
      split
      · exact h1.of_fns (fetchCreate_fns ..)
      · exact h1

/-- What other queue pairs fetch leaves a function without queue pairs as it was. -/
theorem takeReturns_bare {f : Nat} {s : State} (h : Bare f s) : Bare f (takeReturns s) := by
  unfold takeReturns
  generalize ((s.host.fns.map fun f => (f.2.qps.map fun q => q.2.reads.length).sum).sum) = k
  induction k generalizing s with
  | zero => exact h
  | succ k ih =>
    unfold takeReturnsN
    split
    · exact ih (fetchEntries_bare _ _ _ _ _ (h.updQp ..))
    · exact h

theorem endFunction_bare (f : Nat) (s : State) : Bare f (endFunction f s) := by
  unfold endFunction
  extract_lets x slots s1 s2
  refine takeReturns_bare (shutdownCheck_bare ?_ _)
  exact ⟨by simp, by simp⟩

/-! The VFs through the end of a function. -/

theorem updQp_vfs (f q : Nat) (k : Qp → Qp) (s : State) : VfsKept s (updQp f q k s) := by
  unfold updQp
  split <;> exact ⟨rfl, rfl⟩

theorem fetchMarks_vfs (fn seq : Nat) (e : BitVec 512) (s : State) : VfsKept s (fetchMarks fn seq e s) := by
  have ite : ∀ {p : Prop} [Decidable p] {a b : State}, VfsKept s a → VfsKept s b → VfsKept s (if p then a else b) := by
    intro p _ a b ha hb
    split
    · exact ha
    · exact hb
  unfold fetchMarks
  extract_lets op
  refine ite (updQp_vfs ..) (ite ?keyUnload (ite ?load (ite ?unload (ite ?format (ite ?rebuild (ite ?create
    (ite ?open_ (ite ?close ?other))))))))
  case open_ => exact ite ⟨rfl, rfl⟩ ⟨rfl, rfl⟩
  all_goals exact ⟨rfl, rfl⟩

theorem fetchOne_vfs (fn q seq head : Nat) (e : BitVec 512) (s : State) : VfsKept s (fetchOne fn q seq head e s) := by
  unfold fetchOne
  extract_lets v x s1
  refine VfsKept.trans ?_ (updQp_vfs ..)
  show VfsKept s (if _ then _ else _)
  split
  · exact fetchMarks_vfs ..
  · exact .refl s

theorem fetchEntries_vfs (g q : Nat) (es : List (BitVec 512)) : ∀ (seq : Nat) (s : State),
    VfsKept s (fetchEntries g q seq es s) := by
  induction es with
  | nil => exact fun _ s => .refl s
  | cons e es ih =>
    intro seq s
    unfold fetchEntries
    split
    · exact .refl s
    · rename_i v _
      extract_lets head creates s1
      have h1 : VfsKept s s1 := VfsKept.trans (t := setQp g q { v with sqHead := head } s) ⟨rfl, rfl⟩ (fetchOne_vfs ..)
      refine VfsKept.trans ?_ (ih _ _)
      split
      · exact h1.trans (fetchCreate_qpKept ..).vfs
      · exact h1

theorem takeReturns_vfs (s : State) : VfsKept s (takeReturns s) := by
  unfold takeReturns
  generalize ((s.host.fns.map fun f => (f.2.qps.map fun q => q.2.reads.length).sum).sum) = k
  induction k generalizing s with
  | zero => exact .refl s
  | succ k ih =>
    unfold takeReturnsN
    split
    · exact ((updQp_vfs ..).trans (fetchEntries_vfs ..)).trans (ih _)
    · exact .refl s

theorem carryOn_vfs (f q : Nat) (x : FqEntry) (s : State) : VfsKept s (carryOn f q x s) := by
  unfold carryOn
  extract_lets op
  split
  · exact (noRun_qpKept (.refl s) _).vfs
  · split
    · exact (rebuildEnded_qpKept (.refl s) _).vfs
    · split <;> exact ⟨rfl, rfl⟩

theorem endFunction_vfs (f : Nat) (s : State) : VfsKept s (endFunction f s) := by
  unfold endFunction
  extract_lets x slots s1 s2
  have h1 : VfsKept s s1 := (endCmds_qpKept (.refl s) _).vfs
  have h2 : VfsKept s1 s2 := VfsKept.foldl (fun t p => VfsKept.foldl (fun u y => carryOn_vfs ..) _ t) _ s1
  have h3 : VfsKept s2 (dropQpCmds f s2) := VfsKept.foldl (fun t p => (dropCmd_qpKept (.refl t) _).vfs) _ s2
  refine VfsKept.trans ?_ (takeReturns_vfs _)
  refine VfsKept.trans ?_ (shutdownCheck_qpKept (.refl _) f).vfs
  exact (h1.trans h2).trans h3

theorem setFn_vfs (f : Nat) (x : Fn) (s : State) : VfsKept s (setFn f x s) := ⟨rfl, rfl⟩
theorem updFn_vfs (f : Nat) (k : Fn → Fn) (s : State) : VfsKept s (updFn f k s) := ⟨rfl, rfl⟩
theorem dropWindow_vfs (f : Nat) (s : State) : VfsKept s (dropWindow f s) := ⟨rfl, rfl⟩
theorem retireMarks_vfs (f : Nat) (s : State) : VfsKept s (retireMarks f s) := ⟨rfl, rfl⟩
theorem markEnded_vfs (f : Nat) (s : State) : VfsKept s (markEnded f s) := ⟨rfl, rfl⟩

theorem flrOne_vfs (f : Nat) (s : State) : VfsKept s (flrOne f s) := by
  unfold flrOne retireKeys
  exact (endFunction_vfs f s).trans ((markEnded_vfs ..).trans ((retireMarks_vfs ..).trans
    ((settle_qpKept (.refl _)).vfs.trans ((dropWindow_vfs ..).trans (setFn_vfs ..)))))

@[simp] theorem getFn_flrOne_self (f : Nat) (s : State) : getFn (flrOne f s) f = {} := getFn_setFn_self ..

/-- VF Enable cleared: NumVFs keeps its value (R37). -/
theorem clearVfs_vfs (b : Bool) (s : State) :
    (clearVfs b s).host.vfEnable = false ∧ (clearVfs b s).host.numVfs = s.host.numVfs := by
  unfold clearVfs
  extract_lets s1
  refine ⟨rfl, ?_⟩
  have h : VfsKept s s1 := VfsKept.foldl (fun t f => by
    extract_lets bad u
    have hu : VfsKept t u := flrOne_vfs f t
    clear_value u
    split
    · split
      · exact hu.trans (updFn_vfs ..)
      · exact hu
    · exact .refl t) _ s
  clear_value s1
  exact h.2

/-- One VF's counts come into force (R50). -/
def takeCounts (f : Nat) (s : State) : State :=
  let t := takeQpCount f s
  { t with host := { t.host with msixCount := Tab.put t.host.msixCount f (param t (0x2100 + f) 5) } }

/-- The counts of the functions of a list are in force, those of others as they were. -/
theorem foldl_takeCounts (l : List Nat) : ∀ s : State,
    (∀ f ∈ l, Tab.get? (l.foldl (fun s f => takeCounts f s) s).host.qpCount f = some (param s (0x2100 + f) 1) ∧
      Tab.get? (l.foldl (fun s f => takeCounts f s) s).host.msixCount f = some (param s (0x2100 + f) 5)) ∧
    (∀ f, f ∉ l → Tab.get? (l.foldl (fun s f => takeCounts f s) s).host.qpCount f = Tab.get? s.host.qpCount f ∧
      Tab.get? (l.foldl (fun s f => takeCounts f s) s).host.msixCount f = Tab.get? s.host.msixCount f) ∧
    ∃ Q M, l.foldl (fun s f => takeCounts f s) s = { s with host := { s.host with qpCount := Q, msixCount := M } } := by
  induction l with
  | nil => exact fun s => ⟨by simp, fun _ _ => ⟨rfl, rfl⟩, _, _, rfl⟩
  | cons g l ih =>
    intro s
    obtain ⟨hin, hout, Q, M, heq⟩ := ih (takeCounts g s)
    refine ⟨fun f hf => ?_, fun f hf => ?_, Q, M, heq⟩
    · by_cases hl : f ∈ l
      · exact hin f hl
      · obtain rfl : f = g := (List.mem_cons.1 hf).resolve_right hl
        obtain ⟨h1, h2⟩ := hout f hl
        exact ⟨h1.trans (Tab.get?_put_self ..), h2.trans (Tab.get?_put_self ..)⟩
    · obtain ⟨h1, h2⟩ := hout f fun h => hf (List.mem_cons_of_mem _ h)
      have hne : f ≠ g := fun h => hf (h ▸ List.mem_cons_self)
      exact ⟨h1.trans (Tab.get?_put_ne _ _ hne), h2.trans (Tab.get?_put_ne _ _ hne)⟩

theorem qpCountOf_takeQpCount_ne {f g : Nat} (s : State) (h : g ≠ f) : qpCountOf (takeQpCount f s) g = qpCountOf s g :=
  Tab.getD_put_ne _ _ _ h

/-- What a queue pair count taken leaves alone. -/
theorem takeQpCount_frame (f : Nat) (s : State) : (takeQpCount f s).host.vfEnable = s.host.vfEnable ∧
    (takeQpCount f s).host.numVfs = s.host.numVfs ∧ (∀ g, getFn (takeQpCount f s) g = getFn s g) ∧
    (takeQpCount f s).host.cmds = s.host.cmds ∧ (takeQpCount f s).out = s.out := by
  simp only [takeQpCount, getFn, implies_true, and_self]

theorem msixCountOf_takeQpCount (f g : Nat) (s : State) : msixCountOf (takeQpCount f s) g = msixCountOf s g := rfl

/-- VF Enable and NumVFs set. -/
def vfsOn (n : FnId) (s : State) : State := { s with host := { s.host with vfEnable := true, numVfs := n.val } }

/-- And the counts of the VFs in force. -/
def vfsSet (n : FnId) (s : State) : State := (List.range' 1 totalVfs).foldl (fun s f => takeCounts f s) (vfsOn n s)

theorem execVfEnableSet_eq {s : State} (h : s.host.vfEnable = false) (n : FnId) : execVfEnableSet n s =
    .next (if (getFn (vfsSet n s) 0).enable then vfsSet n s else takeQpCount 0 (vfsSet n s)) := by
  unfold execVfEnableSet vfsSet
  rw [if_neg (by rw [h]; decide)]
  rfl

/-- VF Enable set: the VFs exist, and the counts of each are those of its entries (R37, R50). -/
theorem execVfEnableSet_of_clear {s : State} (h : s.host.vfEnable = false) (n : FnId) :
    ∃ t, execVfEnableSet n s = .next t ∧ t.host.vfEnable = true ∧ t.host.numVfs = n.val ∧
      (∀ f, 1 ≤ f → f ≤ 63 → qpCountOf t f = param s (0x2100 + f) 1 ∧ msixCountOf t f = param s (0x2100 + f) 5) ∧
      (∀ f, getFn t f = getFn s f) ∧ t.host.cmds = s.host.cmds ∧ t.out = s.out := by
  obtain ⟨hin, -, Q, M, heq⟩ := foldl_takeCounts (List.range' 1 totalVfs) (vfsOn n s)
  have hcall := execVfEnableSet_eq h n
  change vfsSet n s = _ at heq
  change ∀ f ∈ _, Tab.get? (vfsSet n s).host.qpCount f = _ ∧ Tab.get? (vfsSet n s).host.msixCount f = _ at hin
  generalize vfsSet n s = u at hin heq hcall
  have hcounts : ∀ f, 1 ≤ f → f ≤ 63 → qpCountOf u f = param s (0x2100 + f) 1 ∧ msixCountOf u f = param s (0x2100 + f) 5 := by
    intro f h1 h2
    obtain ⟨hq, hm⟩ := hin f (List.mem_range'_1.2 ⟨h1, by unfold totalVfs; omega⟩)
    have hne : f ≠ 0 := by omega
    rw [param_of_dict (s := s) (t := vfsOn n s) rfl] at hq hm
    exact ⟨by simp [qpCountOf, Tab.getD, hq], by simp [msixCountOf, hne, Tab.getD, hm]⟩
  have hframe : u.host.vfEnable = true ∧ u.host.numVfs = n.val ∧ (∀ f, getFn u f = getFn s f) ∧ u.host.cmds = s.host.cmds ∧
      u.out = s.out := by
    rw [heq]
    exact ⟨rfl, rfl, fun f => rfl, rfl, rfl⟩
  obtain ⟨hv, hn, hf, hc, ho⟩ := hframe
  by_cases he : (getFn u 0).enable = true
  · rw [if_pos he] at hcall
    exact ⟨u, hcall, hv, hn, hcounts, hf, hc, ho⟩
  · rw [if_neg he] at hcall
    obtain ⟨gv, gn, gf, gc, go⟩ := takeQpCount_frame 0 u
    refine ⟨takeQpCount 0 u, hcall, gv.trans hv, gn.trans hn, fun f h1 h2 => ?_, fun f => (gf f).trans (hf f), gc.trans hc,
      go.trans ho⟩
    have hne : f ≠ 0 := by omega
    rw [qpCountOf_takeQpCount_ne u hne, msixCountOf_takeQpCount]
    exact hcounts f h1 h2

/-- Settles O28: Disable and FLR by what is left of the function, VF Enable by its counts and the functions that exist. -/
theorem functionsEnd : Obligations.FunctionsEnd := by
  unfold Obligations.FunctionsEnd
  refine ⟨fun fn s he => ?_, fun fn s hx => ?_, fun n s h => execVfEnableSet_of_clear h n, fun s h => ?_⟩
  · obtain ⟨hq, hr⟩ := endFunction_bare fn.val s
    set u := endFunction fn.val s with hu
    refine ⟨shutdownCheck fn.val (updFn fn.val (fun x => { x with enable := false }) u), ?_, ?_, ?_, ?_⟩
    · simp [execDisable, he, hu]
    · simp [getFn_shutdownCheck_self]
    · simpa [getFn_shutdownCheck_self] using hr
    · simpa [getFn_shutdownCheck_self] using hq
  · by_cases h0 : fn.val = 0
    · obtain ⟨hv, -⟩ := clearVfs_vfs false s
      have hkeep := (flrOne_vfs 0 (clearVfs false s)).1.trans hv
      have hself := getFn_flrOne_self 0 (clearVfs false s)
      have hcall : exec (.flr fn) s = .next { flrOne 0 (clearVfs false s) with
          host := { (flrOne 0 (clearVfs false s)).host with numVfs := 0 } } := by
        rw [h0] at hx
        simp [execFlr, hx, h0]
      generalize flrOne 0 (clearVfs false s) = u at hkeep hself hcall
      refine ⟨_, hcall, ?_, fun _ => ⟨hkeep, rfl⟩⟩
      rw [h0]
      exact hself
    · exact ⟨flrOne fn.val s, by simp [execFlr, hx, h0], getFn_flrOne_self .., fun h => absurd h h0⟩
  · obtain ⟨hv, hn⟩ := clearVfs_vfs true s
    refine ⟨clearVfs true s, by simp [execVfEnableClear, h], hv, hn, fun f hf => ?_⟩
    simp [fnExists, hv, hf]

end Sys2Proof.Machine
end

section
/-! What requests for buffers leave alone, and the pieces of a firmware image (R63, R115, R188, R189, R193-R195, R201, R523). -/

namespace Sys2Proof.Machine

/-- `t` follows from `s` by operations on buffers: commands that take no WRITE data, queue pairs, the cartridge, streams, firmware,
dictionary and resets are as they were, and no event of the management domain (R535: source 0x700 and up) is counted. -/
structure Aside (s t : State) : Prop where
  cmd : ∀ n c, getCmd s n = some c → (∀ w, c.stage ≠ .writing w) → getCmd t n = some c
  qp : ∀ f q, getQp t f q = getQp s f q
  out : ∃ k, t.out = k ++ s.out
  cart : t.cart = s.cart
  streams : t.streams = s.streams
  fw : t.fw = s.fw
  dict : t.dict = s.dict
  resets : t.resets = s.resets
  counts : ∀ n, 0x700 ≤ n → Tab.getD t.ev.counts n 0 = Tab.getD s.ev.counts n 0

theorem Aside.refl (s : State) : Aside s s :=
  ⟨fun _ _ h _ => h, fun _ _ => rfl, ⟨[], rfl⟩, rfl, rfl, rfl, rfl, rfl, fun _ _ => rfl⟩

theorem Aside.trans {s t u : State} (h : Aside s t) (k : Aside t u) : Aside s u where
  cmd n c hc hw := k.cmd n c (h.cmd n c hc hw) hw
  qp f q := (k.qp f q).trans (h.qp f q)
  out := by
    obtain ⟨a, ha⟩ := h.out
    obtain ⟨b, hb⟩ := k.out
    exact ⟨b ++ a, by rw [hb, ha, List.append_assoc]⟩
  cart := k.cart.trans h.cart
  streams := k.streams.trans h.streams
  fw := k.fw.trans h.fw
  dict := k.dict.trans h.dict
  resets := k.resets.trans h.resets
  counts n hn := (k.counts n hn).trans (h.counts n hn)

theorem Aside.ite {s a b : State} {p : Prop} [Decidable p] (ha : Aside s a) (hb : Aside s b) : Aside s (if p then a else b) := by
  split
  · exact ha
  · exact hb

theorem Aside.foldl {α : Type} {s0 : State} {f : State → α → State} {l : List α} {s : State} (h : Aside s0 s)
    (hf : ∀ t a, Aside s0 t → Aside s0 (f t a)) : Aside s0 (l.foldl f s) := by
  induction l generalizing s with
  | nil => exact h
  | cons a l ih => exact ih (hf s a h)

/-- A change of the Buffer Pool Manager itself. -/
theorem bpm_aside (B : Bpm) (s : State) : Aside s { s with bpm := B } :=
  ⟨fun _ _ h _ => h, fun _ _ => rfl, ⟨[], rfl⟩, rfl, rfl, rfl, rfl, rfl, fun _ _ => rfl⟩

theorem drawn_bpm_aside (n : Nat) (B : Bpm) (s : State) : Aside s { s with drawn := n, bpm := B } :=
  ⟨fun _ _ h _ => h, fun _ _ => rfl, ⟨[], rfl⟩, rfl, rfl, rfl, rfl, rfl, fun _ _ => rfl⟩

theorem agentTag_aside (agent : Nat) (s : State) : Aside s (agentTag agent s).2 :=
  ⟨fun _ _ h _ => h, fun _ _ => rfl, ⟨[], rfl⟩, rfl, rfl, rfl, rfl, rfl, fun _ _ => rfl⟩

/-- An event of another domain. -/
theorem raise_aside {n : Nat} (hn : n < 0x700) (l : List (Nat × Nat)) (s : State) : Aside s (raise n l s) where
  cmd _ _ hc _ := (getCmd_raise ..).trans hc
  qp _ _ := getQp_raise ..
  out := (raise_out n l s).imp fun _ h => h.1
  cart := raise_cart ..
  streams := raise_streams ..
  fw := raise_fw ..
  dict := raise_dict ..
  resets := raise_resets ..
  counts m hm := by rw [raise_counts, Tab.getD_put_ne _ _ _ (by omega)]

/-- A command as the throttle leaves it (R199). -/
def slowed (c : Cmd) : Cmd :=
  match c.stage with
  | .writing w =>
    if w.lensKnown && decide (w.got = 0) && w.total != some 0 then
      { c with stage := .writing { w with throttled := true, released := false } } else c
  | _ => c

theorem slowed_of_not_writing {c : Cmd} (h : ∀ w, c.stage ≠ .writing w) : slowed c = c := by
  unfold slowed
  split
  case h_1 w hw => exact absurd hw (h w)
  case h_2 => rfl

theorem throttle_cmds (s : State) : (throttle s).host.cmds = s.host.cmds.map fun p => (p.1, slowed p.2) := by
  refine List.map_congr_left fun p _ => ?_
  unfold slowed
  cases p.2.stage with
  | writing w => exact (apply_ite (Prod.mk p.1) _ _ _).symm
  | _ => rfl

/-- WRITEs alone are throttled (R199). -/
theorem throttle_aside (s : State) : Aside s (throttle s) where
  cmd n c hc hw := by
    rw [getCmd, throttle_cmds, Tab.get?_map, ← getCmd, hc, Option.map_some, slowed_of_not_writing hw]
  qp _ _ := rfl
  out := ⟨[], rfl⟩
  cart := rfl
  streams := rfl
  fw := rfl
  dict := rfl
  resets := rfl
  counts _ _ := rfl

theorem updAbove_aside (s : State) : Aside s (updAbove s) := by
  unfold updAbove
  refine .ite (.ite (.refl s) ?_) (.ite (bpm_aside _ s) (.refl s))
  exact (bpm_aside _ s).trans (throttle_aside _)

theorem takeBuf_aside (owner p : Nat) (s : State) : Aside s (takeBuf owner p s).1 := by
  unfold takeBuf
  extract_lets free id _ s1 s2
  have h1 : Aside s s1 := drawn_bpm_aside ..
  have h2 : Aside s1 s2 := bpm_aside ..
  exact (h1.trans h2).trans (updAbove_aside s2)

theorem quarantine_aside (p i : Nat) (s : State) : Aside s (quarantine p i s) := by
  unfold quarantine
  extract_lets s1
  have h1 : Aside s s1 := bpm_aside ..
  exact h1.trans ((bpm_aside ..).trans (raise_aside (by decide) ..))

theorem returnBuf_aside (id : Nat) (s : State) : Aside s (returnBuf id s) := by
  unfold returnBuf
  extract_lets _ s1 s2
  have h1 : Aside s s1 := bpm_aside ..
  have h2 : Aside s1 s2 := .ite (quarantine_aside ..) (.refl s1)
  exact (h1.trans h2).trans (updAbove_aside s2)

theorem dropRef_aside (id : Nat) (s : State) : Aside s (dropRef id s) := by
  unfold dropRef
  split
  · exact .refl s
  · exact .ite (.refl s) (.ite (returnBuf_aside ..) (bpm_aside _ s))

theorem misuse_aside {src : Nat} (h : src < 0x700) (r : Response) (owner id : Nat) (tag : BitVec 128) (s : State) :
    Aside s (misuse r src owner id tag s) := by
  unfold misuse
  exact (bpm_aside ..).trans (raise_aside h ..)

theorem freeReq_aside (owner id : Nat) (tag : BitVec 128) (s : State) : Aside s (freeReq owner id tag s) := by
  unfold freeReq
  split
  · exact misuse_aside (by decide) ..
  · exact .ite (misuse_aside (by decide) ..) ((bpm_aside _ s).trans (dropRef_aside ..))

theorem freeOwn_aside (owner id : Nat) (tag : BitVec 128) (s : State) : Aside s (freeOwn owner id tag s) := by
  unfold freeOwn
  split
  · exact .ite (freeReq_aside ..) (.refl s)
  · exact .refl s

/-- References and held requests dropped with their owners (R195, R201). -/
theorem dropOwners_aside (mine : Nat → Bool) (s : State) : Aside s (dropOwners mine s) :=
  Aside.foldl (bpm_aside _ s) fun _ _ ht => Aside.foldl ht fun _ _ hu => hu.trans (dropRef_aside ..)

/-- A command beside the buffers goes on as it was. -/
theorem Takes.aside {s t : State} {c : Cmd} {v : Qp} (h : Takes s c v) (k : Aside s t) : Takes t c v := h.of_qp (k.qp ..)

/-- The ERROR that ends a command freezes its queue pair (R77). -/
theorem complete_freezes {s : State} {slot : Nat} {c : Cmd} {v : Qp} (hc : getCmd s slot = some c) (hs : c.stage ≠ .held)
    (ht : Takes s c v) {p : Cmd → Cpl} (he : (p c).status.isError = true) (e : ErrInfo) :
    ∃ w, getQp (complete slot p e s) c.fn c.qp = some w ∧ w.frozen = true := by
  obtain ⟨k, b, h⟩ := afterCpl_eq ⟨some slot, some c, p c⟩ (errored c (p c) e s.time v)
  refine ⟨_, (complete_of_takes hc hs ht p e).2.1, ?_⟩
  rw [h]
  simp [cqAdvance, errored, he]

/-- A command that ends changes the functions, the commands and the outputs alone. -/
theorem Ended.keeps {s t : State} {slot : Nat} (h : Ended s t slot) :
    t.fw = s.fw ∧ t.cart = s.cart ∧ t.streams = s.streams ∧ t.ev = s.ev := by
  obtain ⟨F, O, rfl⟩ := h
  exact ⟨rfl, rfl, rfl, rfl⟩

theorem setImage_eq (slot : Nat) (ok : Bool) (s : State) :
    ∃ i j, setImage slot ok s = { s with fw := { s.fw with image0 := i, image1 := j } } := by
  unfold setImage
  split <;> exact ⟨_, _, rfl⟩

/-- A buffer of the refused class granted, and one refused (R188, R194). -/
theorem askRefused_granted {s : State} {size p : Nat} (h : choosePool s 2 size = some p) (owner : Nat) (tag : BitVec 128) :
    ∃ t id, askRefused owner size tag s = (t, some id) ∧ Aside s t := by
  unfold askRefused
  rw [h]
  exact ⟨_, _, rfl, (takeBuf_aside ..).trans (bpm_aside ..)⟩

theorem askRefused_refused {s : State} {size : Nat} (h : choosePool s 2 size = none) (owner : Nat) (tag : BitVec 128) :
    ∃ t, askRefused owner size tag s = (t, none) ∧ Aside s t := by
  unfold askRefused
  rw [h]
  exact ⟨_, rfl, (Aside.ite (bpm_aside ..) (.refl s)).trans (bpm_aside ..)⟩

/-- A piece is part of the staged image (R523). -/
def pieceStaged (off : Nat) (fin : Bool) (piece : List Byte) (s : State) : State :=
  { s with fw := { s.fw with
      staged := (if off = 0 then [] else s.fw.staged) ++ piece, stagedState := if fin then 2 else 1 } }

/-- Nothing is staged (R523). -/
def stageLost (s : State) : State := { s with fw := { s.fw with staged := [], stagedState := 0 } }

/-- A piece programmed and read back, or not, its buffer returned (R523). -/
def pieceDone (slot off : Nat) (fin : Bool) (piece : List Byte) (flashOk : Bool) (s : State) : State :=
  if flashOk then finish slot .success 0 (raiseIf fin 0x710 [] (pieceStaged off fin piece s))
  else finish slot .internalError bMgmt (stageLost s)

theorem stagePiece_of_buf {s : State} {piece : List Byte} (h : choosePool s 2 piece.length ≠ none) (slot off : Nat) (fin : Bool) :
    ∃ u, Aside s u ∧
      ∀ b, stagePiece slot off fin piece b s = pieceDone slot off fin piece b (setImage (otherSlot s) false u) := by
  obtain ⟨p, hp⟩ := Option.ne_none_iff_exists'.1 h
  obtain ⟨t, id, ht, hk⟩ := askRefused_granted (s := (agentTag agCore s).2) hp 0xE0 (agentTag agCore s).1
  refine ⟨freeOwn 0xE0 id (agentTag agCore s).1 t, ((agentTag_aside ..).trans hk).trans (freeOwn_aside ..), fun b => ?_⟩
  unfold stagePiece pieceDone
  simp only [ht]
  cases b <;> rfl

theorem stagePiece_of_no_buf {s : State} {piece : List Byte} (h : choosePool s 2 piece.length = none) (slot off : Nat)
    (fin b : Bool) : ∃ u, Aside s u ∧ stagePiece slot off fin piece b s =
      complete slot (fun c => baseCpl c .bufferExhausted) { response := Response.poolEmpty.code, block := bBpm } u := by
  obtain ⟨t, ht, hk⟩ := askRefused_refused (s := (agentTag agCore s).2) h 0xE0 (agentTag agCore s).1
  refine ⟨t, (agentTag_aside ..).trans hk, ?_⟩
  unfold stagePiece
  simp only [ht]

@[simp] theorem getCmd_raiseIf (b : Bool) (n : Nat) (l : List (Nat × Nat)) (s : State) (k : Nat) :
    getCmd (raiseIf b n l s) k = getCmd s k := by
  unfold raiseIf
  split
  · exact getCmd_raise ..
  · rfl

theorem raiseIf_out (b : Bool) (n : Nat) (l : List (Nat × Nat)) (s : State) : ∃ k, (raiseIf b n l s).out = k ++ s.out := by
  unfold raiseIf
  split
  · exact (raise_out ..).imp fun _ h => h.1
  · exact ⟨[], rfl⟩

@[simp] theorem raiseIf_cart (b : Bool) (n : Nat) (l : List (Nat × Nat)) (s : State) : (raiseIf b n l s).cart = s.cart := by
  unfold raiseIf
  split
  · exact raise_cart ..
  · rfl

@[simp] theorem raiseIf_streams (b : Bool) (n : Nat) (l : List (Nat × Nat)) (s : State) :
    (raiseIf b n l s).streams = s.streams := by
  unfold raiseIf
  split
  · exact raise_streams ..
  · rfl

section
variable {slot : SlotId} {piece : List Byte} {c : Cmd} {v : Qp} {s : State} (h : Started s slot.val opFwDownload c)
  (ht : Takes s c v)
include h

/-- A list is read first (R63). -/
theorem fwDownload_reads_list (hm : eDataMode c.entry = 2) (hsg : c.sg = []) (b : Bool) :
    exec (.fwDownload slot piece b) s = .next (setStage slot.val .lists s) := by
  rw [exec_fwDownload, execFwDownload, onCmd_of_started h (by simp)]
  simp [hm, hsg]

/-- A piece of the size that the command gives, which continues the one before, is staged (R523). -/
theorem fwDownload_stages (hl : eDataMode c.entry ≠ 2 ∨ c.sg ≠ []) (hlen : piece.length = (c.sg.map (·.2)).sum)
    (hmax : eImageOffset c.entry + piece.length ≤ 2 ^ 25) (hwhole : eFinal c.entry = true ∨ piece.length % 4096 = 0)
    (hoff : eImageOffset c.entry = 0 ∨ (eImageOffset c.entry = s.fw.staged.length ∧ s.fw.stagedState ≠ 0)) (b : Bool) :
    exec (.fwDownload slot piece b) s =
      .next (stagePiece slot.val (eImageOffset c.entry) (eFinal c.entry) piece b s) := by
  have h1 : ¬(decide (eDataMode c.entry = 2) && c.sg.isEmpty) = true := by
    rcases hl with hl | hl <;> simp [hl]
  have h2 : ¬((decide (eImageOffset c.entry ≠ 0) && (decide (eImageOffset c.entry ≠
      if eImageOffset c.entry = 0 then 0 else s.fw.staged.length) || decide (s.fw.stagedState = 0)) ||
      decide (2 ^ 25 < eImageOffset c.entry + piece.length) ||
      (!eFinal c.entry && decide (piece.length % 4096 ≠ 0))) = true) := by
    have h3 : decide (2 ^ 25 < eImageOffset c.entry + piece.length) = false := decide_eq_false (by omega)
    have h4 : (!eFinal c.entry && decide (piece.length % 4096 ≠ 0)) = false := by rcases hwhole with e | e <;> simp [e]
    rw [h3, h4]
    rcases hoff with e | ⟨e, e'⟩
    · simp [e]
    · by_cases h0 : eImageOffset c.entry = 0
      · simp [h0]
      · simp [h0, e', ← e]
  rw [exec_fwDownload, execFwDownload, onCmd_of_started h (by simp)]
  dsimp only
  rw [if_neg h1, if_neg (not_not.2 hlen), if_neg h2]

include ht

/-- The command after its piece, with a buffer at hand. -/
theorem pieceDone_ends {u : State} (hu : Aside s u) (off : Nat) (fin b : Bool) :
    let t := pieceDone slot.val off fin piece b (setImage (otherSlot s) false u)
    (b = true → Ends s t slot.val v (baseCpl c .success) ∧ t.fw.staged = (if off = 0 then [] else s.fw.staged) ++ piece ∧
      t.fw.stagedState = (if fin then 2 else 1) ∧ t.fw.active = s.fw.active ∧ t.fw.gloveA = s.fw.gloveA ∧
      t.fw.gloveB = s.fw.gloveB ∧ t.cart = s.cart ∧ t.streams = s.streams ∧
      (fin = true → Tab.getD t.ev.counts 0x710 0 = sat32 (Tab.getD s.ev.counts 0x710 0 + 1))) ∧
    (b = false → Ends s t slot.val v (baseCpl c .internalError) ∧ t.fw.staged = [] ∧ t.fw.stagedState = 0) := by
  have hheld : c.stage ≠ .held := by simp [h.stage]
  have hcu : getCmd u slot.val = some c := hu.cmd _ _ h.cmd (by simp [h.stage])
  obtain ⟨k, hk⟩ := hu.out
  obtain ⟨i, j, hw⟩ := setImage_eq (otherSlot s) false u
  rw [hw]
  refine ⟨fun hb => ?_, fun hb => ?_⟩
  · simp only [pieceDone, if_pos hb]
    generalize hx : pieceStaged off fin piece { u with fw := { u.fw with image0 := i, image1 := j } } = x
    unfold pieceStaged at hx
    have hcx : getCmd (raiseIf fin 0x710 [] x) slot.val = some c := by
      rw [getCmd_raiseIf, ← hx]
      exact hcu
    have htx : Takes (raiseIf fin 0x710 [] x) c v := ht.of_qp (by
      rw [getQp_raiseIf, ← hx]
      exact hu.qp ..)
    obtain ⟨o, ho⟩ := raiseIf_out fin 0x710 [] x
    obtain ⟨hends, hended, -⟩ := finish_of_takes hcx hheld htx .success 0
    obtain ⟨hfw, hcart, hstr, hev⟩ := hended.keeps
    refine ⟨hends.of_out (k := o ++ k) ?_, ?_, ?_, ?_, ?_, ?_, ?_, ?_, fun hf => ?_⟩
    · rw [ho, ← hx, List.append_assoc, ← hk]
    · rw [hfw, raiseIf_fw, ← hx, ← hu.fw]
    · rw [hfw, raiseIf_fw, ← hx]
    · rw [hfw, raiseIf_fw, ← hx, ← hu.fw]
    · rw [hfw, raiseIf_fw, ← hx, ← hu.fw]
    · rw [hfw, raiseIf_fw, ← hx, ← hu.fw]
    · rw [hcart, raiseIf_cart, ← hx, ← hu.cart]
    · rw [hstr, raiseIf_streams, ← hx, ← hu.streams]
    · rw [hev, raiseIf, if_pos hf, raise_counts, Tab.getD_put_self, ← hx, ← hu.counts 0x710 (by decide)]
  · simp only [pieceDone, hb, Bool.false_eq_true, if_false]
    generalize hx : stageLost { u with fw := { u.fw with image0 := i, image1 := j } } = x
    unfold stageLost at hx
    have hcx : getCmd x slot.val = some c := by
      rw [← hx]
      exact hcu
    have htx : Takes x c v := ht.of_qp (by
      rw [← hx]
      exact hu.qp ..)
    obtain ⟨hends, hended, -⟩ := finish_of_takes hcx hheld htx .internalError bMgmt
    obtain ⟨hfw, -⟩ := hended.keeps
    refine ⟨hends.of_out (k := k) ?_, ?_, ?_⟩
    · rw [← hx, ← hk]
    · rw [hfw, ← hx]
    · rw [hfw, ← hx]

/-- Without a buffer the piece is refused, and the firmware stays (R194). -/
theorem stagePiece_refused {u : State} (hu : Aside s u) :
    let t := complete slot.val (fun c => baseCpl c .bufferExhausted) { response := Response.poolEmpty.code, block := bBpm } u
    ∃ w, Ends s t slot.val v (baseCpl c .bufferExhausted) ∧ getQp t c.fn c.qp = some w ∧ w.frozen = true ∧ t.fw = s.fw := by
  have hheld : c.stage ≠ .held := by simp [h.stage]
  have hcu : getCmd u slot.val = some c := hu.cmd _ _ h.cmd (by simp [h.stage])
  obtain ⟨k, hk⟩ := hu.out
  obtain ⟨w, hw, hfr⟩ := complete_freezes hcu hheld (ht.aside hu) (p := fun c => baseCpl c .bufferExhausted) rfl
    { response := Response.poolEmpty.code, block := bBpm }
  obtain ⟨hended, -⟩ := complete_of_takes hcu hheld (ht.aside hu) (fun c => baseCpl c .bufferExhausted)
    { response := Response.poolEmpty.code, block := bBpm }
  exact ⟨w, (complete_ends hcu hheld (ht.aside hu) _ _).1.of_out hk, hw, hfr, hended.keeps.1.trans hu.fw⟩
end

end Sys2Proof.Machine
end

section
/-! Activation of a firmware image: its checks, the Glove swap, and the end of its command (R103, R142, R524, R527-R529). -/

namespace Sys2Proof.Machine

/-- An event raised while a firmware result is noted: what stays for the command. -/
theorem raise_of_fw {s : State} {slot : Nat} {c : Cmd} {v : Qp} (hc : getCmd s slot = some c) (hs : c.stage ≠ .held)
    (ht : Takes s c v) (w : Fw) (n : Nat) (l : List (Nat × Nat)) {p : Cmd → Cpl} (e : ErrInfo) :
    Ends s (complete slot p e (raise n l { s with fw := w })) slot v (p c) ∧
      (complete slot p e (raise n l { s with fw := w })).fw = w ∧
      Tab.getD (complete slot p e (raise n l { s with fw := w })).ev.counts n 0 = sat32 (Tab.getD s.ev.counts n 0 + 1) ∧
      ((p c).status.isError = true →
        ∃ x, getQp (complete slot p e (raise n l { s with fw := w })) c.fn c.qp = some x ∧ x.frozen = true) := by
  have hcx : getCmd (raise n l { s with fw := w }) slot = some c := (getCmd_raise ..).trans hc
  have htx : Takes (raise n l { s with fw := w }) c v := ht.of_qp (getQp_raise ..)
  obtain ⟨k, hk, -⟩ := raise_out n l { s with fw := w }
  have hended := (complete_of_takes hcx hs htx p e).1
  obtain ⟨hfw, -, -, hev⟩ := hended.keeps
  refine ⟨(complete_ends hcx hs htx p e).1.of_out hk, hfw.trans (raise_fw ..), ?_,
    fun he => complete_freezes hcx hs htx he e⟩
  rw [hev, raise_counts, Tab.getD_put_self]

/-- The device is ACTIVATING, its drain ahead (R103, R142). -/
def activationBegins (slot : SlotId) (c : Cmd) (s : State) : State :=
  { s with fw := { s.fw with activate := some { slot := slot.val, seq := c.seq, step := 3, image := otherSlot s } } }

section
variable {slot : SlotId} {c : Cmd} {v : Qp} {s : State} (h : Started s slot.val opFwActivate c)
include h

/-- FW_ACTIVATE of an image that fails a check (R524). -/
theorem fwActivate_of_fault {r : Nat} (hr : stagedFault s = some r) :
    exec (.fwActivate slot) s = .next (complete slot.val (fun c => baseCpl c .firmwareRejected)
      { block := bMgmt, event := some 0x712 } (raise 0x712 [(8, r)] { s with fw := { s.fw with lastResult := 2 } })) := by
  rw [exec_fwActivate, execFwActivate, onCmd_of_started h (by simp)]
  simp only [hr]

/-- FW_ACTIVATE of a good image: the device drains (R142). -/
theorem fwActivate_drains (hr : stagedFault s = none) (ha : s.fw.activate = none) :
    exec (.fwActivate slot) s = .next (settle (setStage slot.val .waiting (activationBegins slot c s))) := by
  rw [exec_fwActivate, execFwActivate, onCmd_of_started h (by simp)]
  simp only [hr, ha, Option.isSome_none, Bool.false_eq_true, if_false]
  rfl

/-- A second FW_ACTIVATE (log entry 103). -/
theorem fwActivate_conflicts (hr : stagedFault s = none) (ha : s.fw.activate.isSome = true) :
    exec (.fwActivate slot) s = .next (finish slot.val .stateConflict bMgmt s) := by
  rw [exec_fwActivate, execFwActivate, onCmd_of_started h (by simp)]
  simp only [hr, ha, if_true]
end

/-- A command set to another stage. -/
theorem setStage_of_cmd {s : State} {slot : Nat} {c : Cmd} (hc : getCmd s slot = some c) (st : Stage) :
    setStage slot st s = setCmd slot { c with stage := st } s := by
  simp [setStage, updCmd, hc]

/-- A command whose posting has one thing to settle. -/
theorem onPost_of_cmd {s : State} {slot : Nat} {c : Cmd} (hc : getCmd s slot = some c) (hp : c.post = []) (a : PostAct) :
    onPost slot a s = setCmd slot { c with post := [a] } s := by
  simp [onPost, updCmd, hc, hp]

/-- The end of an activation whose command waits: the completion is posted, and ACTIVATING is left (R103, R142, R143). -/
theorem endActivateWith_ends {s : State} {a : Activate} {c : Cmd} {v : Qp} (hc : getCmd s a.slot = some c)
    (hs : c.stage ≠ .held) (ht : Takes s c v) (st : Status) (spec : BitVec 96) (e : ErrInfo) :
    let t := endActivateWith a st spec e s
    Ends s t a.slot v { baseCpl c st with specific := spec } ∧ t.fw = { s.fw with activate := none } ∧
      t.ev = s.ev := by
  intro t
  set d : Cmd := { c with post := [.activated] } with hd
  generalize hy : ({ s with fw := { s.fw with activate := some { a with step := 6 } } } : State) = y
  have hcy : getCmd y a.slot = some c := by
    rw [← hy]
    exact hc
  have hpost : onPost a.slot .activated y = setCmd a.slot d y := onPost_of_cmd hcy ht.plain _
  generalize hx : setCmd a.slot d y = x at hpost
  have hcall : t = complete a.slot (fun c => { baseCpl c st with specific := spec }) e x := by
    show endActivateWith a st spec e s = _
    unfold endActivateWith
    rw [hc, Option.isSome_some, if_pos rfl, ← hpost, ← hy]
  have hcx : getCmd x a.slot = some d := by
    rw [← hx]
    exact getCmd_setCmd_self ..
  have htx : TakesNow x d v := ⟨ht.live, by rw [← hx, ← hy]; exact ht.qp, ht.epoch, ht.held, ht.writes, ht.room⟩
  have hfin := complete_of_takesNow hcx (show d.stage ≠ .held from hs) htx
    (fun c => { baseCpl c st with specific := spec }) e
  obtain ⟨n, g, k, b, hw⟩ := errored_keeps d { baseCpl d st with specific := spec } e x.time v
  generalize hwe : errored d { baseCpl d st with specific := spec } e x.time v = w at hfin hw
  obtain ⟨l, hl, hout⟩ := writeCpl_out d.fn d.qp ⟨some a.slot, some d, { baseCpl d st with specific := spec }⟩ w
    (setQp d.fn d.qp w x)
  have hsame : FnsOut x (writeCpl d.fn d.qp ⟨some a.slot, some d, { baseCpl d st with specific := spec }⟩ w
      (setQp d.fn d.qp w x)) := (setQp_fnsOut ..).trans (writeCpl_fnsOut ..)
  generalize writeCpl d.fn d.qp ⟨some a.slot, some d, { baseCpl d st with specific := spec }⟩ w (setQp d.fn d.qp w x) = u
    at hfin hout hsame
  have hcu : getCmd u a.slot = some d := by
    rw [getCmd, hsame.cmds]
    exact hcx
  obtain ⟨F, O, hu⟩ := hsame
  rw [hcall, hfin]
  refine ⟨⟨⟨l, [], hl, ?_⟩, getCmd_dropCmd_self ..⟩, ?_, ?_⟩
  · rw [dropCmd_out, hout, hw, setQp_out, ← hx, ← hy]
    rfl
  · rw [dropCmd_of_post hcu rfl ht.kept, shutdownCheck_fw, hu, ← hx, ← hy]
    rfl
  · rw [dropCmd_of_post hcu rfl ht.kept, shutdownCheck_ev, hu, ← hx, ← hy]
    rfl

end Sys2Proof.Machine
end

section
/-! What a restart of the management cores ends, and what it keeps (R479, R481, R483, R501, R529, R546). -/

namespace Sys2Proof.Machine

theorem setCause_fw (n : Nat) (s : State) : (setCause n s).fw = s.fw := by
  unfold setCause
  split
  · rfl
  · exact raise_fw ..

theorem setCause_resets (n : Nat) (s : State) : (setCause n s).resets = s.resets := by
  unfold setCause
  split
  · rfl
  · exact raise_resets ..

/-- The failed-member rule ends drains at most (R411). -/
theorem judgeMembers_fwKept {w : Fw} {s : State} (h : FwKept w s.fw) : FwKept w (judgeMembers s).fw := by
  have hresume : FwKept w (resumeWriting s).fw := by
    unfold resumeWriting
    extract_lets s1
    split
    · rw [raise_fw]
      exact h
    · exact h
  have hstop : FwKept w (stopWriting s).fw := by
    unfold stopWriting
    refine FwKept.foldl ?_ fun _ _ ht => failIfStopped_fwKept ht _
    simp only [raise_fw, ite_fw, ite_self]
    exact h
  unfold judgeMembers
  split
  · split
    · exact hresume
    · exact h
  · split
    · exact h
    · exact hstop

/-- What a persisted value does at once leaves the firmware and the resets (R411, R441). -/
theorem rwpEffect_fwKept {w : Fw} {s : State} (h : FwKept w s.fw) (a b : Bool) (index sub : Nat) :
    FwKept w (rwpEffect a b index sub s).fw := by
  unfold rwpEffect satCheck wornCheck
  split
  · exact judgeMembers_fwKept h
  simp only [ite_fw, updAbove_fw, dispatchAll_fw, setCause_fw, raise_fw, ite_self]
  exact h

theorem rwpEffect_resets (a b : Bool) (index sub : Nat) (s : State) : (rwpEffect a b index sub s).resets = s.resets := by
  unfold rwpEffect satCheck wornCheck
  split
  · exact (judgeMembers_ctlKept (.refl s)).resets
  split
  · exact (updAbove_aside s).resets
  split
  · exact (dispatchAll_ctlKept (.refl s)).resets
  split
  · split
    · rw [setCause_resets, raise_resets]
    · rfl
  split
  · split
    · rw [setCause_resets, raise_resets]
    · rfl
  · rfl

theorem storeRwp_fwKept {w : Fw} {s : State} (h : FwKept w s.fw) (op : DictOp) : FwKept w (storeRwp op s).fw := by
  unfold storeRwp
  split
  · exact h
  split
  · exact h
  · exact rwpEffect_fwKept (by exact h) ..

theorem storeRwp_resets (op : DictOp) (s : State) : (storeRwp op s).resets = s.resets := by
  unfold storeRwp
  split
  · rfl
  split
  · rfl
  · exact rwpEffect_resets ..

theorem cutPersist_fwKept {w : Fw} {s : State} (h : FwKept w s.fw) : FwKept w (cutPersist s).fw := by
  unfold cutPersist
  extract_lets kept s1
  have h1 : FwKept w s1.fw := h
  split
  · exact h
  split
  · split
    · exact storeRwp_fwKept h1 _
    · exact h1
  · exact h1

theorem cutPersist_resets (s : State) : (cutPersist s).resets = s.resets := by
  unfold cutPersist
  extract_lets kept s1
  split
  · rfl
  split
  · split
    · exact storeRwp_resets ..
    · rfl
  · rfl

/-- With no operation on its way there is nothing to store (R481). -/
theorem cutPersist_of_idle {s : State} (h : s.dict.queue = []) : ∃ n, cutPersist s = { s with drawn := n } := by
  unfold cutPersist
  extract_lets kept s1
  have h1 : s1.dict.queue = [] := h
  simp only [h1, ite_self]
  split <;> exact ⟨_, rfl⟩

/-- The reply to an operation that ends (R481, R546). -/
def replyReset (s : State) (op : DictOp) : State :=
  match op.src with
  | .cmd slot => finish slot .targetReset bMgmt s
  | .window f => updFn f (fun x => { x with win := { x.win with busy := false, status := .targetReset } }) s
  | .staxa _ => s
  | .row => s

/-- The dictionary server without operations, and no reset that one waits for (R546). -/
def dictIdle (s : State) : State :=
  { s with dict := { s.dict with queue := [], persisting := false, armed := false },
           resets := s.resets.map fun r => { r with waits := [] } }

/-- The operations that a reset of the management domain ends (R481, R546). -/
def endedOps (s : State) : List DictOp :=
  s.dict.queue ++ s.resets.flatMap fun r => r.waits.map fun x => { src := x, isWrite := true, index := 0, sub := 0, value := [] }

theorem endDictOps_eq (s : State) : endDictOps s = (endedOps s).foldl replyReset (dictIdle (cutPersist s)) := rfl

theorem replyReset_ctlKept {s0 s : State} (h : CtlKept s0 s) (op : DictOp) : CtlKept s0 (replyReset s op) := by
  unfold replyReset
  split
  · exact finish_ctlKept h ..
  · exact updFn_ctlKept h ..
  · exact h
  · exact h

theorem replyReset_fwKept {w : Fw} {s : State} (h : FwKept w s.fw) (op : DictOp) : FwKept w (replyReset s op).fw := by
  unfold replyReset
  split
  · exact finish_fwKept h ..
  · exact h
  · exact h
  · exact h

/-- The dictionary server is idle after its operations ended, and each reset goes on without waiting (R481, R546). -/
theorem endDictOps_idle (s : State) : (endDictOps s).dict.queue = [] ∧ (endDictOps s).dict.persisting = false ∧
    (endDictOps s).resets = s.resets.map fun r => { r with waits := [] } := by
  rw [endDictOps_eq]
  have h : CtlKept (dictIdle (cutPersist s)) ((endedOps s).foldl replyReset (dictIdle (cutPersist s))) :=
    CtlKept.foldl (.refl _) fun _ _ ht => replyReset_ctlKept ht _
  rw [h.dict, h.resets]
  exact ⟨rfl, rfl, congrArg _ (cutPersist_resets s)⟩

theorem endDictOps_fwKept {w : Fw} {s : State} (h : FwKept w s.fw) : FwKept w (endDictOps s).fw := by
  rw [endDictOps_eq]
  exact FwKept.foldl (cutPersist_fwKept h) fun _ _ ht => replyReset_fwKept ht _

/-- With nothing under way only the flags of the server change. -/
theorem endDictOps_of_idle {s : State} (hq : s.dict.queue = []) (hr : ∀ r ∈ s.resets, r.waits = []) :
    ∃ n, endDictOps s = dictIdle { s with drawn := n } := by
  obtain ⟨n, hn⟩ := cutPersist_of_idle hq
  have hops : endedOps s = [] := by
    unfold endedOps
    rw [hq, List.nil_append, List.flatMap_eq_nil_iff]
    intro r h
    rw [hr r h, List.map_nil]
  exact ⟨n, by rw [endDictOps_eq, hops, hn, List.foldl_nil]⟩

/-- The owners 0xE0 to 0xE3: the management cores (R25). -/
def coreOwner (o : Nat) : Bool := decide (0xE0 ≤ o ∧ o ≤ 0xE3)

/-- What the restart of the cores loses after their operations have ended (R479, R483, R501, R529, R530). -/
def coresLost (s : State) : State :=
  let s := dropCopies (dropVolatile (endSessions s))
  let s := if s.dict.restore then restoreDefaults s else s
  let free := fun (x : FlashDesc) => { x with core := none }
  { s with
    fw := { s.fw with staged := [], stagedState := 0 }, lc := { s.lc with jtagUsed := false, uartUsed := false },
    flash := { s.flash with stalled := [], op := s.flash.op.map free, queue := s.flash.queue.map free,
                              held := s.flash.held.map free } }

theorem mgmtLoss_eq (s : State) : mgmtLoss s = coresLost (endDictOps (dropOwners coreOwner s)) := rfl

/-- Defaults restored, where that was asked for, leave the operations of the dictionary. -/
theorem restoreDefaults_if (s : State) : ∃ D, (if s.dict.restore then restoreDefaults s else s) = { s with dict := D } ∧
    D.queue = s.dict.queue ∧ D.persisting = s.dict.persisting := by
  split <;> exact ⟨_, rfl, rfl, rfl⟩

/-- The image staged and the sessions are lost; the operations of the dictionary, resets, cartridge and streams stay. -/
theorem coresLost_keeps (s : State) : (coresLost s).fw = { s.fw with staged := [], stagedState := 0 } ∧
    (coresLost s).staxa.sessions = [] ∧ (coresLost s).dict.queue = s.dict.queue ∧
    (coresLost s).dict.persisting = s.dict.persisting ∧ (coresLost s).resets = s.resets ∧ (coresLost s).cart = s.cart ∧
    (coresLost s).streams = s.streams := by
  obtain ⟨D, hD, hq, hp⟩ := restoreDefaults_if (dropCopies (dropVolatile (endSessions s)))
  unfold coresLost
  simp only [hD]
  exact ⟨rfl, rfl, hq, hp, rfl, rfl, rfl⟩

theorem mgmtLoss_idle (s : State) : (mgmtLoss s).dict.queue = [] ∧ (mgmtLoss s).dict.persisting = false ∧
    (mgmtLoss s).staxa.sessions = [] ∧ (mgmtLoss s).resets = s.resets.map fun r => { r with waits := [] } := by
  obtain ⟨-, hses, hq, hp, hr, -⟩ := coresLost_keeps (endDictOps (dropOwners coreOwner s))
  obtain ⟨h1, h2, h3⟩ := endDictOps_idle (dropOwners coreOwner s)
  rw [mgmtLoss_eq, hses, hq, hp, hr, h1, h2, h3, (dropOwners_aside coreOwner s).resets]
  exact ⟨rfl, rfl, rfl, rfl⟩

/-- The firmware through the restart of the cores: the staged image is lost, and an activation may end. -/
theorem mgmtLoss_fw (s : State) : ∃ a, (mgmtLoss s).fw = { s.fw with staged := [], stagedState := 0, activate := a } := by
  have h : FwKept s.fw (endDictOps (dropOwners coreOwner s)).fw :=
    endDictOps_fwKept (.inl (dropOwners_aside coreOwner s).fw)
  rw [mgmtLoss_eq, (coresLost_keeps _).1]
  rcases h with h | h <;> rw [h] <;> exact ⟨_, rfl⟩

/-- With no dictionary operation under way the restart of the cores ends no command. -/
theorem mgmtLoss_of_idle {s : State} (hq : s.dict.queue = []) (hr : ∀ r ∈ s.resets, r.waits = []) :
    (mgmtLoss s).fw = { s.fw with staged := [], stagedState := 0 } ∧ (mgmtLoss s).cart = s.cart ∧
      (mgmtLoss s).streams = s.streams := by
  obtain ⟨hfw, -, -, -, -, hcart, hstr⟩ := coresLost_keeps (endDictOps (dropOwners coreOwner s))
  have hk := dropOwners_aside coreOwner s
  obtain ⟨n, hn⟩ := endDictOps_of_idle (s := dropOwners coreOwner s) (by rw [hk.dict]; exact hq) (by rw [hk.resets]; exact hr)
  rw [mgmtLoss_eq, hfw, hcart, hstr, hn]
  exact ⟨congrArg (fun w : Fw => { w with staged := [], stagedState := 0 }) hk.fw, hk.cart, hk.streams⟩

end Sys2Proof.Machine
end

section
/-! The Glove swap, the start of an image and the reset of the management domain (R142, R143, R523-R529, R546-R548). -/

namespace Sys2Proof.Machine

/-- The end of an activation changes nothing of the firmware but the activation, and nothing of the controllers (R103). -/
theorem endActivateWith_keeps (a : Activate) (st : Status) (spec : BitVec 96) (e : ErrInfo) (s : State) :
    CtlKept s (endActivateWith a st spec e s) ∧ ∃ b, (endActivateWith a st spec e s).fw = { s.fw with activate := b } := by
  unfold endActivateWith
  extract_lets next
  generalize hx : ({ s with fw := { s.fw with activate := next } } : State) = x
  have hctl : CtlKept s x := by
    rw [← hx]
    exact ⟨rfl, rfl, rfl, rfl, rfl, rfl, rfl, rfl, rfl⟩
  have hxfw : x.fw = { s.fw with activate := next } := by rw [← hx]
  refine ⟨complete_ctlKept (onPost_ctlKept hctl ..) .., ?_⟩
  have hfw : FwKept x.fw (complete a.slot (fun c => { baseCpl c st with specific := spec }) e
      (onPost a.slot .activated x)).fw := complete_fwKept (.inl (onPost_fw ..)) ..
  rcases hfw with h | h <;> rw [h, hxfw] <;> exact ⟨_, rfl⟩

theorem endActivate_keeps (a : Activate) (st : Status) (seq event : Option Nat) (s : State) :
    CtlKept s (endActivate a st seq event s) ∧ ∃ b, (endActivate a st seq event s).fw = { s.fw with activate := b } :=
  endActivateWith_keeps ..

/-- A boot chooses the image that starts (R526). -/
theorem boot_eq (s : State) : ∃ a n b f, boot s = { s with fw := { s.fw with
    active := a, activeSeq := n, starting := b, fallbackBoot := f } } := by
  unfold boot
  extract_lets tired
  split <;> exact ⟨_, _, _, _, rfl⟩

/-- An activation before its Glove swap ends with the domain (R103, R546). -/
def activationReset (s : State) : State :=
  match s.fw.activate with
  | some a => if a.step < 5 then endActivateWith a .targetReset 0 { response := Response.targetReset.code, block := bMgmt } s else s
  | none => s

theorem activationReset_keeps (s : State) : CtlKept s (activationReset s) ∧
    ∃ b, (activationReset s).fw = { s.fw with activate := b } := by
  unfold activationReset
  split
  · split
    · exact endActivateWith_keeps ..
    · exact ⟨.refl s, _, rfl⟩
  · exact ⟨.refl s, _, rfl⟩

/-- The queues of the management domain are emptied (R544, R546). -/
def domainQueuesEmptied (s : State) : State :=
  { s with ev := { s.ev with mgmt := [], mgmtLost := 0 }, flash := { s.flash with queue := [], held := [] } }

/-- The Staxa counters start again (R504). -/
def staxaCountsCleared (s : State) : State := { s with staxa := { s.staxa with dropped := 0, authFailures := 0 } }

theorem mgmtDown_eq (s : State) :
    mgmtDown s = boot (staxaCountsCleared (mgmtLoss (domainQueuesEmptied (activationReset s)))) := rfl

/-- A reset of the management domain: what it loses, and the counts of failed starts that it keeps (R529, R546). -/
theorem mgmtDown_keeps (s : State) : (mgmtDown s).fw.staged = [] ∧ (mgmtDown s).fw.starts = s.fw.starts ∧
    (mgmtDown s).fw.failedSeq = s.fw.failedSeq ∧ (mgmtDown s).staxa.sessions = [] ∧ (mgmtDown s).dict.queue = [] ∧
    (mgmtDown s).dict.persisting = false ∧ (mgmtDown s).resets = s.resets.map fun r => { r with waits := [] } := by
  obtain ⟨hctl, b, hb⟩ := activationReset_keeps s
  obtain ⟨d, hd⟩ := mgmtLoss_fw (domainQueuesEmptied (activationReset s))
  obtain ⟨hq, hp, hses, hres⟩ := mgmtLoss_idle (domainQueuesEmptied (activationReset s))
  have hfw : (domainQueuesEmptied (activationReset s)).fw = { s.fw with activate := b } := hb
  have hres' : (domainQueuesEmptied (activationReset s)).resets = s.resets := hctl.resets
  rw [hfw] at hd
  rw [hres'] at hres
  rw [mgmtDown_eq]
  generalize mgmtLoss (domainQueuesEmptied (activationReset s)) = x at *
  obtain ⟨a, n, e, f, hboot⟩ := boot_eq (staxaCountsCleared x)
  rw [hboot]
  have hx : (staxaCountsCleared x).fw = x.fw := rfl
  rw [hx, hd]
  exact ⟨rfl, rfl, rfl, hses, hq, hp, hres⟩

/-- On a device with no activation and no dictionary operation under way the domain's reset ends no command. -/
theorem mgmtDown_of_idle {s : State} (hq : s.dict.queue = []) (ha : s.fw.activate = none) (hr : ∀ r ∈ s.resets, r.waits = []) :
    (mgmtDown s).cart = s.cart ∧ (mgmtDown s).streams = s.streams := by
  have h0 : activationReset s = s := by
    unfold activationReset
    rw [ha]
  obtain ⟨-, hcart, hstr⟩ := mgmtLoss_of_idle (s := domainQueuesEmptied s) hq hr
  rw [mgmtDown_eq, h0]
  generalize mgmtLoss (domainQueuesEmptied s) = x at *
  obtain ⟨a, n, e, f, hboot⟩ := boot_eq (staxaCountsCleared x)
  rw [hboot]
  exact ⟨hcart, hstr⟩

/-- The first reset of a domain is noted with its cause (R548). -/
theorem noteReset_first {s : State} {code : Nat} (h : ∀ r ∈ s.resets, r.code ≠ code) (cause : Nat) (wait : List DictSrc) :
    noteReset code cause wait s = { s with resets := s.resets ++ [{ code := code, cause := cause, waits := wait }] } := by
  unfold noteReset
  have hany : (s.resets.any fun r => r.code == code) = false := List.any_eq_false.2 fun r hr => by simpa using h r hr
  simp [hany]

/-- The reset is still noted after the domain went down. -/
theorem mgmtDown_noted {s : State} (h : ∀ r ∈ s.resets, r.code ≠ 5) (cause : Nat) :
    ∃ r ∈ (mgmtDown (noteReset 5 cause [] s)).resets, r.code = 5 ∧ r.cause = cause := by
  obtain ⟨-, -, -, -, -, -, hres⟩ := mgmtDown_keeps (noteReset 5 cause [] s)
  rw [hres, noteReset_first h]
  exact ⟨{ code := 5, cause := cause, waits := [] }, by simp, rfl, rfl⟩

theorem putGlove_eq (g : Glove) (s : State) :
    ∃ a b, putGlove g s = { s with fw := { s.fw with gloveA := a, gloveB := b } } := by
  unfold putGlove
  extract_lets a b
  split <;> exact ⟨_, _, rfl⟩

theorem spoilGlove_eq (s : State) : ∃ a b, spoilGlove s = { s with fw := { s.fw with gloveA := a, gloveB := b } } := by
  unfold spoilGlove
  extract_lets a b
  split <;> exact ⟨_, _, rfl⟩

end Sys2Proof.Machine
end

section
/-! Firmware images are downloaded, activated and started (R63, R115, R142, R143, R194, R523-R529). -/

namespace Sys2Proof.Machine

/-- The Sequence that the completion of an activation names (R142, R529). -/
def seqWord (seq : Option Nat) : BitVec 96 := match seq with | some n => BitVec.ofNat 96 (n % 2 ^ 32) | none => 0#96

/-- An activation whose command waits ends after the event of its outcome (R142, R527-R529). -/
theorem endActivate_after_raise {s : State} {a : Activate} {c : Cmd} {v : Qp} (hc : getCmd s a.slot = some c)
    (hs : c.stage = .waiting) (ht : Takes s c v) (w : Fw) (n : Nat) (l : List (Nat × Nat)) (st : Status)
    (seq event : Option Nat) :
    let t := endActivate a st seq event (raise n l { s with fw := w })
    Ends s t a.slot v { baseCpl c st with specific := seqWord seq } ∧ t.fw = { w with activate := none } ∧
      Tab.getD t.ev.counts n 0 = sat32 (Tab.getD s.ev.counts n 0 + 1) := by
  intro t
  have hcx : getCmd (raise n l { s with fw := w }) a.slot = some c := (getCmd_raise ..).trans hc
  have htx : Takes (raise n l { s with fw := w }) c v := ht.of_qp (getQp_raise ..)
  obtain ⟨k, hk, -⟩ := raise_out n l { s with fw := w }
  obtain ⟨hends, hfw, hev⟩ := endActivateWith_ends hcx (by simp [hs]) htx st (seqWord seq) { block := bMgmt, event := event }
  refine ⟨hends.of_out hk, ?_, ?_⟩
  · rw [show t.fw = _ from hfw, raise_fw]
  · rw [show t.ev = _ from hev, raise_counts, Tab.getD_put_self]

/-- A new Glove, and its image found good, change the firmware alone, and not its floor (R527, R528). -/
theorem newGlove_eq (slot : Nat) (g : Glove) (s : State) :
    ∃ w, setImage slot true (putGlove g s) = { s with fw := w } ∧ w.floor = s.fw.floor := by
  obtain ⟨A, B, hg⟩ := putGlove_eq g s
  obtain ⟨i, j, hi⟩ := setImage_eq slot true { s with fw := { s.fw with gloveA := A, gloveB := B } }
  exact ⟨_, (congrArg (setImage slot true) hg).trans hi, rfl⟩

/-- The cores are about to restart from the new image (R142). -/
def swapStarts (a : Activate) (s : State) : State :=
  { s with fw := { s.fw with activate := some { a with step := 5 }, starts := 0 } }

section
variable {s : State} {a : Activate} (ha : s.fw.activate = some a)
include ha

theorem fwActivateSwap_of_step_ne (h : a.step ≠ 4) (b : Bool) : exec (.fwActivateSwap b) s = .next s := by
  rw [exec_fwActivateSwap, execFwActivateSwap, ha]
  simp only [if_pos h]

/-- The image fails its second check (log entry 101). -/
theorem fwActivateSwap_of_fault (h : a.step = 4) {r : Nat} (hr : stagedFault s = some r) (b : Bool) :
    exec (.fwActivateSwap b) s = .next (endActivate a .firmwareRejected none (some 0x712)
      (raise 0x712 [(8, r)] { s with fw := { s.fw with lastResult := 2 } })) := by
  rw [exec_fwActivateSwap, execFwActivateSwap, ha]
  simp [h, hr]

/-- The write of the Glove fails (R527). -/
theorem fwActivateSwap_fails (h : a.step = 4) (hr : stagedFault s = none) :
    exec (.fwActivateSwap false) s = .next (endActivate a .internalError none (some 0x714)
      (raise 0x714 [] (spoilGlove { s with fw := { s.fw with lastResult := 4 } }))) := by
  rw [exec_fwActivateSwap, execFwActivateSwap, ha]
  simp [h, hr]

/-- The Glove is written and the cores restart from the new image (R142, R527). -/
theorem fwActivateSwap_swaps (h : a.step = 4) (hr : stagedFault s = none) (hq : s.dict.queue = [])
    (hw : ∀ r ∈ s.resets, r.waits = []) : ∃ t, exec (.fwActivateSwap true) s = .next t ∧
      t.fw.activate = some { a with step := 5 } ∧ t.fw.active = some a.image ∧ t.fw.activeSeq = topSeq s + 1 ∧
      t.fw.starting = true ∧ t.fw.starts = 0 ∧ t.fw.stagedState = 0 ∧ t.staxa.sessions = [] ∧ t.fw.floor = s.fw.floor := by
  obtain ⟨w, hy, hfloor⟩ := newGlove_eq a.image { seq := topSeq s + 1, slot := a.image, manifest := s.fw.staged.take 512 } s
  generalize hx : swapStarts a { s with fw := w } = x
  have hcall : exec (.fwActivateSwap true) s = .next { mgmtLoss x with fw := { (mgmtLoss x).fw with
      active := some a.image, activeSeq := topSeq s + 1, starting := true, fallbackBoot := false } } := by
    rw [exec_fwActivateSwap, execFwActivateSwap, ha]
    simp only [h, hr, hy, ← hx, ne_eq, not_true_eq_false, if_false, Option.isSome_none, Bool.false_eq_true, Bool.not_true]
    rfl
  have hxq : x.dict.queue = [] := by rw [← hx]; exact hq
  have hxr : ∀ r ∈ x.resets, r.waits = [] := by rw [← hx]; exact hw
  have hloss := (mgmtLoss_of_idle hxq hxr).1
  obtain ⟨-, -, hses, -⟩ := mgmtLoss_idle x
  generalize mgmtLoss x = y at *
  refine ⟨_, hcall, ?_⟩
  rw [hloss, ← hx]
  exact ⟨rfl, rfl, rfl, rfl, rfl, rfl, hses, hfloor⟩
end

theorem fwStart_of_not_starting {s : State} (h : s.fw.starting = false) :
    exec .fwStartConfirmed s = .next s ∧ exec .fwStartTimeout s = .next s := by
  rw [exec_fwStartConfirmed, execFwStartConfirmed, exec_fwStartTimeout, execFwStartTimeout, h]
  exact ⟨rfl, rfl⟩

/-- The start of an image is confirmed (R528). -/
def startConfirmed (s : State) : State := { s with fw := { s.fw with starting := false, starts := 0 } }

theorem fwStartConfirmed_plain {s : State} (h : s.fw.starting = true) (hf : s.fw.fallbackBoot = false)
    (ha : s.fw.activate = none) : exec .fwStartConfirmed s = .next (startConfirmed s) := by
  rw [exec_fwStartConfirmed, execFwStartConfirmed]
  simp [h, hf, ha, startConfirmed]

theorem fwStartConfirmed_fallback {s : State} (h : s.fw.starting = true) (hf : s.fw.fallbackBoot = true) :
    exec .fwStartConfirmed s = .next (fallbackStarted (startConfirmed s)) := by
  rw [exec_fwStartConfirmed, execFwStartConfirmed]
  simp [h, hf, startConfirmed]

theorem fwStartConfirmed_activated {s : State} {a : Activate} (h : s.fw.starting = true) (hf : s.fw.fallbackBoot = false)
    (ha : s.fw.activate = some a) (hs : a.step = 5) : exec .fwStartConfirmed s = .next (activated a (startConfirmed s)) := by
  rw [exec_fwStartConfirmed, execFwStartConfirmed]
  simp [h, hf, ha, hs, startConfirmed]

/-- The end of a command raises nothing. -/
theorem complete_ev (slot : Nat) (p : Cmd → Cpl) (e : ErrInfo) (s : State) : (complete slot p e s).ev = s.ev := by
  obtain ⟨H, O, C, S, R, K, W, h⟩ := complete_hostOut (.refl s) slot p e
  rw [h]

theorem endActivate_ev (a : Activate) (st : Status) (seq event : Option Nat) (s : State) :
    (endActivate a st seq event s).ev = s.ev := (complete_ev ..).trans (updCmd_ev ..)

/-- A fallback image has started: what the firmware notes, before an activation is rejected (R529). -/
theorem fallbackStarted_eq (s : State) : ∃ w : Fw, w.starting = s.fw.starting ∧ w.lastResult = 3 ∧
    w.fallbacks = sat32 (s.fw.fallbacks + 1) ∧ w.activate = s.fw.activate ∧
    (fallbackStarted s = raise 0x713 [] { s with fw := w } ∨ ∃ a, fallbackStarted s =
      endActivate a .firmwareRejected (some s.fw.activeSeq) (some 0x713) (raise 0x713 [] { s with fw := w })) ∧
    ∀ a, s.fw.activate = some a → a.step = 5 → fallbackStarted s =
      endActivate a .firmwareRejected (some s.fw.activeSeq) (some 0x713) (raise 0x713 [] { s with fw := w }) := by
  obtain ⟨A, B, h⟩ := putGlove_eq { seq := s.fw.failedSeq + 1, slot := s.fw.active.getD 0, fallback := true,
                                    manifest := activeManifest s } s
  refine ⟨{ s.fw with gloveA := A, gloveB := B, fallbacks := sat32 (s.fw.fallbacks + 1), lastResult := 3,
                      fallbackBoot := false }, rfl, rfl, rfl, rfl, ?_, fun a ha hs => ?_⟩
  · unfold fallbackStarted
    simp only [h, raise_fw]
    split
    · split
      · exact .inr ⟨_, rfl⟩
      · exact .inl rfl
    · exact .inl rfl
  · unfold fallbackStarted
    simp only [h, raise_fw, ha, hs, if_true]

/-- A fallback image has started: its result, its event, and the end of an activation (R529). -/
theorem fallbackStarted_notes (s : State) : (fallbackStarted s).fw.starting = s.fw.starting ∧
    (fallbackStarted s).fw.lastResult = 3 ∧ (fallbackStarted s).fw.fallbacks = sat32 (s.fw.fallbacks + 1) ∧
    Tab.getD (fallbackStarted s).ev.counts 0x713 0 = sat32 (Tab.getD s.ev.counts 0x713 0 + 1) := by
  obtain ⟨w, h1, h2, h3, -, h | ⟨a, h⟩, -⟩ := fallbackStarted_eq s
  · rw [h, raise_fw, raise_counts, Tab.getD_put_self]
    exact ⟨h1, h2, h3, rfl⟩
  · obtain ⟨-, b, hb⟩ := endActivate_keeps a .firmwareRejected (some s.fw.activeSeq) (some 0x713) (raise 0x713 [] { s with fw := w })
    rw [h, hb, endActivate_ev, raise_fw, raise_counts, Tab.getD_put_self]
    exact ⟨h1, h2, h3, rfl⟩

theorem fallbackStarted_rejects {s : State} {a : Activate} {c : Cmd} {v : Qp} (ha : s.fw.activate = some a) (h5 : a.step = 5)
    (hc : getCmd s a.slot = some c) (hs : c.stage = .waiting) (ht : Takes s c v) :
    (fallbackStarted s).fw.activate = none ∧ Ends s (fallbackStarted s) a.slot v
      { baseCpl c .firmwareRejected with specific := seqWord (some s.fw.activeSeq) } := by
  obtain ⟨w, -, -, -, -, -, h⟩ := fallbackStarted_eq s
  rw [h a ha h5]
  obtain ⟨hends, hfw, -⟩ := endActivate_after_raise hc hs ht w 0x713 [] .firmwareRejected (some s.fw.activeSeq) (some 0x713)
  exact ⟨by rw [hfw], hends⟩

/-- The new image of an activation has started: its command ends with its Sequence (R142, R528). -/
theorem activated_ends {s : State} {a : Activate} {c : Cmd} {v : Qp} (hc : getCmd s a.slot = some c)
    (hs : c.stage = .waiting) (ht : Takes s c v) :
    Ends s (activated a s) a.slot v { baseCpl c .success with specific := seqWord (some s.fw.activeSeq) } ∧
      (activated a s).fw.activate = none ∧ (activated a s).fw.lastResult = 1 ∧ s.fw.floor ≤ (activated a s).fw.floor ∧
      (activated a s).fw.active = s.fw.active ∧
      Tab.getD (activated a s).ev.counts 0x711 0 = sat32 (Tab.getD s.ev.counts 0x711 0 + 1) := by
  unfold activated
  extract_lets m floor _ x
  have hfloor : s.fw.floor ≤ floor := by
    simp only [floor]
    split
    · exact Nat.le_max_left ..
    · exact Nat.le_refl _
  clear_value floor
  have hseq : x.fw.activeSeq = s.fw.activeSeq := by
    simp only [x, raise_fw]
    rfl
  rw [hseq]
  obtain ⟨hends, hfw, hev⟩ := endActivate_after_raise hc hs ht { s.fw with floor := floor, lastResult := 1 } 0x711 [] .success
    (some s.fw.activeSeq) none
  refine ⟨hends, ?_, ?_, ?_, ?_, hev⟩ <;> rw [hfw]
  exact hfloor

/-- The start of an image is not confirmed in time (R529). -/
def startFailed (s : State) : State :=
  { s with fw := { s.fw with starts := if s.fw.failedSeq = s.fw.activeSeq then s.fw.starts + 1 else 1,
                             failedSeq := s.fw.activeSeq } }

/-- The timeout resets the domain; the end of an activation after it changes nothing else of the firmware. -/
theorem fwStartTimeout_resets {s : State} (h : s.fw.starting = true) : ∃ t, exec .fwStartTimeout s = .next t ∧
    CtlKept (mgmtDown (noteReset 5 6 [] (startFailed s))) t ∧
    ∃ b, t.fw = { (mgmtDown (noteReset 5 6 [] (startFailed s))).fw with activate := b } := by
  rw [exec_fwStartTimeout, execFwStartTimeout, startFailed]
  simp only [h, Bool.not_true, Bool.false_eq_true, if_false]
  generalize mgmtDown (noteReset 5 6 [] _) = m
  cases m.fw.activate with
  | none => exact ⟨m, rfl, .refl m, _, rfl⟩
  | some a =>
    dsimp only
    split
    · exact ⟨_, rfl, endActivate_keeps ..⟩
    · exact ⟨m, rfl, .refl m, _, rfl⟩

/-- The state of the device after the timeout, as the statement asks for it (R529, R546, R548). -/
theorem fwStartTimeout_state {s : State} (h : s.fw.starting = true) (hn : ∀ r ∈ s.resets, r.code ≠ 5) :
    ∃ t, exec .fwStartTimeout s = .next t ∧ (∃ r ∈ t.resets, r.code = 5 ∧ r.cause = 6) ∧ t.fw.failedSeq = s.fw.activeSeq ∧
      t.fw.starts = (if s.fw.failedSeq = s.fw.activeSeq then s.fw.starts + 1 else 1) ∧ t.fw.staged = [] ∧
      t.staxa.sessions = [] ∧ t.dict.queue = [] := by
  obtain ⟨t, hcall, hctl, b, hb⟩ := fwStartTimeout_resets h
  have hnoted := mgmtDown_noted (s := startFailed s) hn 6
  obtain ⟨hstaged, hstarts, hfailed, hses, hq, -, -⟩ := mgmtDown_keeps (noteReset 5 6 [] (startFailed s))
  have hfw : (noteReset 5 6 [] (startFailed s)).fw = (startFailed s).fw := by rw [noteReset_first (s := startFailed s) hn]
  rw [hfw] at hstarts hfailed
  refine ⟨t, hcall, ?_, ?_, ?_, ?_, ?_, ?_⟩
  · rw [hctl.resets]
    exact hnoted
  · rw [hb]
    exact hfailed
  · rw [hb]
    exact hstarts
  · rw [hb]
    exact hstaged
  · rw [hctl.staxa]
    exact hses
  · rw [hctl.dict]
    exact hq

/-- The watchdog resets the domain (R547, R548). -/
theorem watchdogExpiry_state {s : State} (hn : ∀ r ∈ s.resets, r.code ≠ 5) : ∃ t, exec .watchdogExpiry s = .next t ∧
    (∃ r ∈ t.resets, r.code = 5 ∧ r.cause = 7) ∧ t.fw.staged = [] ∧ t.fw.starts = s.fw.starts ∧ t.staxa.sessions = [] ∧
    t.dict.queue = [] ∧ t.dict.persisting = false ∧
    (s.dict.queue = [] → s.fw.activate = none → (∀ r ∈ s.resets, r.waits = []) → t.cart = s.cart ∧ t.streams = s.streams) := by
  obtain ⟨hstaged, hstarts, -, hses, hq, hp, -⟩ := mgmtDown_keeps (noteReset 5 7 [] s)
  refine ⟨_, exec_watchdogExpiry s, mgmtDown_noted hn 7, hstaged, ?_, hses, hq, hp, fun hidle ha hw => ?_⟩
  · rw [hstarts, noteReset_first hn]
  · have hidle' : (noteReset 5 7 [] s).dict.queue = [] := by rw [noteReset_first hn]; exact hidle
    have ha' : (noteReset 5 7 [] s).fw.activate = none := by rw [noteReset_first hn]; exact ha
    have hw' : ∀ r ∈ (noteReset 5 7 [] s).resets, r.waits = [] := by
      rw [noteReset_first hn]
      simpa [or_imp, forall_and] using hw
    obtain ⟨hcart, hstr⟩ := mgmtDown_of_idle hidle' ha' hw'
    rw [hcart, hstr, noteReset_first hn]
    exact ⟨rfl, rfl⟩

/-- Settles O55: the pieces, the checks and the drain, the swap, the start and its failures, each by its own lemma. -/
theorem firmwareActivates : Obligations.FirmwareActivates := by
  unfold Obligations.FirmwareActivates
  refine ⟨fun slot piece c v s h ht => ⟨fun b hm hsg => ?_, fun hl hlen hmax hwhole hoff => ⟨fun hpool => ?_, fun hpool b => ?_⟩⟩,
    fun slot c v s h ht => ⟨fun r hr => ?_, fun hr ha => ?_, fun hr ha => ?_⟩,
    fun a s ha => ⟨fun h b => fwActivateSwap_of_step_ne ha h b, fun h hr hq hw => fwActivateSwap_swaps ha h hr hq hw,
      fun h c v hc hs ht => ⟨fun hr => ?_, fun b r hr => ?_⟩⟩,
    fun s => ⟨fwStart_of_not_starting, fwStartConfirmed_plain, fun h hf => ?_, fun a c v h hf ha h5 hc hs ht => ?_,
      fwStartTimeout_state⟩, fun s => watchdogExpiry_state⟩
  · refine ⟨_, fwDownload_reads_list h hm hsg b, ?_, setStage_fw .., ?_⟩
    · rw [setStage_of_cmd h.cmd, getCmd_setCmd_self]
    · rw [setStage_of_cmd h.cmd]
      rfl
  · obtain ⟨u, hu, hcall⟩ := stagePiece_of_buf hpool slot.val (eImageOffset c.entry) (eFinal c.entry)
    have hends := pieceDone_ends (piece := piece) h ht hu (eImageOffset c.entry) (eFinal c.entry)
    refine ⟨⟨_, ?_, (hends true).1 rfl⟩, _, ?_, (hends false).2 rfl⟩
    · rw [fwDownload_stages h hl hlen hmax hwhole hoff, hcall]
    · rw [fwDownload_stages h hl hlen hmax hwhole hoff, hcall]
  · obtain ⟨u, hu, hcall⟩ := stagePiece_of_no_buf hpool slot.val (eImageOffset c.entry) (eFinal c.entry) b
    obtain ⟨w, hw⟩ := stagePiece_refused h ht hu
    refine ⟨_, w, ?_, hw⟩
    rw [fwDownload_stages h hl hlen hmax hwhole hoff, hcall]
  · obtain ⟨hends, hfw, hev, hfrozen⟩ := raise_of_fw h.cmd (by simp [h.stage]) ht { s.fw with lastResult := 2 } 0x712 [(8, r)]
      (p := fun c => baseCpl c .firmwareRejected) { block := bMgmt, event := some 0x712 }
    obtain ⟨w, hw, hfr⟩ := hfrozen rfl
    exact ⟨_, w, fwActivate_of_fault h hr, hends, hw, hfr, hfw, hev⟩
  · have hcall := fwActivate_drains h hr ha
    rw [setStage_of_cmd (s := activationBegins slot c s) h.cmd] at hcall
    exact ⟨_, hcall, getCmd_setCmd_self .., rfl, rfl, rfl⟩
  · obtain ⟨hends, hended, -⟩ := finish_of_takes h.cmd (by simp [h.stage]) ht .stateConflict bMgmt
    exact ⟨_, fwActivate_conflicts h hr ha, hends, hended.keeps.1⟩
  · obtain ⟨A, B, hg⟩ := spoilGlove_eq { s with fw := { s.fw with lastResult := 4 } }
    have hcall := fwActivateSwap_fails ha h hr
    rw [hg] at hcall
    obtain ⟨hends, hfw, hev⟩ := endActivate_after_raise hc hs ht { s.fw with lastResult := 4, gloveA := A, gloveB := B } 0x714 []
      .internalError none (some 0x714)
    refine ⟨_, hcall, hends, ?_, ?_, ?_, ?_, hev⟩ <;> rw [hfw]
  · obtain ⟨hends, hfw, hev⟩ := endActivate_after_raise hc hs ht { s.fw with lastResult := 2 } 0x712 [(8, r)] .firmwareRejected
      none (some 0x712)
    refine ⟨_, fwActivateSwap_of_fault ha h hr b, hends, ?_, ?_, ?_, ?_, hev⟩ <;> rw [hfw]
  · obtain ⟨h1, h2, h3, h4⟩ := fallbackStarted_notes (startConfirmed s)
    refine ⟨_, fwStartConfirmed_fallback h hf, h1, h2, h3, h4, fun a c v ha h5 hc hs ht => ?_⟩
    obtain ⟨hnone, hends⟩ := fallbackStarted_rejects (s := startConfirmed s) ha h5 hc hs (ht.of_qp rfl)
    exact ⟨hnone, hends.of_out (k := []) rfl⟩
  · obtain ⟨hends, hrest⟩ := activated_ends (s := startConfirmed s) hc hs (ht.of_qp rfl)
    exact ⟨_, fwStartConfirmed_activated h hf ha h5, hends.of_out (k := []) rfl, hrest⟩

end Sys2Proof.Machine
end

section
/-! What a record number comes to does not depend on the host interface but for the WRITEs in flight (R133, R135, R233). -/

namespace Sys2Proof.Machine

section
variable (s : State) (H : HostIf)

theorem walkBack_host (b : TapeBlk) (k : Nat) : ∀ left n acc l,
    walkBack { s with host := H } b k left n acc l = walkBack s b k left n acc l := by
  induction k with
  | zero => exact fun _ _ _ _ => rfl
  | succ k ih =>
    intro left n acc l
    unfold walkBack
    simp only [ih]
    rfl

theorem histOf_host (b : TapeBlk) : histOf { s with host := H } b = histOf s b := by
  unfold histOf
  simp only [walkBack_host]

theorem blkState_host (b : TapeBlk) : blkState { s with host := H } b = blkState s b := by
  unfold blkState
  simp only [histOf_host]
  rfl

theorem firstBad_host (r : Nat) (l : List (TapeBlk × Option Nat)) : firstBad { s with host := H } r l = firstBad s r l := by
  unfold firstBad
  simp only [blkState_host]

theorem anyBad_host (l : List (TapeBlk × Option Nat)) : anyBad { s with host := H } l = anyBad s l := by
  unfold anyBad
  simp only [blkState_host]

theorem rawState_host (b : TapeBlk) : rawState { s with host := H } b = rawState s b := by
  unfold rawState
  simp only [blkState_host]
  rfl
end

section
variable {s : State} {H : HostIf} (h : ∀ q, findWriter { s with host := H } q = findWriter s q)
include h

theorem notYetPlaced_host (n r : Nat) : notYetPlaced { s with host := H } n r = notYetPlaced s n r := by
  unfold notYetPlaced
  simp only [h]
  rfl

theorem locate_host (n r : Nat) : locate { s with host := H } n r = locate s n r := by
  unfold locate
  simp only [notYetPlaced_host h]
  rfl

theorem recStatus_host (n r : Nat) : recStatus { s with host := H } n r = recStatus s n r := by
  unfold recStatus
  simp only [locate_host h, blkState_host, firstBad_host, anyBad_host]
  rfl

theorem rawStatus_host (n r : Nat) : rawStatus { s with host := H } n r = rawStatus s n r := by
  unfold rawStatus
  simp only [locate_host h, rawState_host]
  rfl
end

end Sys2Proof.Machine
end

section
/-! How a READ and a READ_RAW end: what they write to the host and their completion (R64, R65, R131-R135, R144). -/

namespace Sys2Proof.Machine

/-- `t` has issued more than `s` and drawn values; nothing else changed. -/
def Issued (s t : State) : Prop := ∃ O n, t = { s with out := O ++ s.out, drawn := n }

theorem Issued.refl (s : State) : Issued s s := ⟨[], _, rfl⟩

theorem Issued.trans {s t u : State} (h : Issued s t) (k : Issued t u) : Issued s u := by
  obtain ⟨O, n, rfl⟩ := h
  obtain ⟨P, m, rfl⟩ := k
  exact ⟨P ++ O, m, by simp⟩

/-- What was issued stays. -/
theorem Issued.mem {s t : State} (h : Issued s t) {o : Out} (ho : o ∈ s.out) : o ∈ t.out := by
  obtain ⟨O, n, rfl⟩ := h
  exact List.mem_append_right _ ho

theorem emit_issued (o : Out) (s : State) : Issued s (emit o s) := ⟨[o], _, rfl⟩

theorem drew_issued (s : State) : Issued s (drew s) := ⟨[], _, rfl⟩

theorem recordNumOf_issued (g : Option Nat) (s : State) : Issued s (recordNumOf g s).2 := by
  cases g with
  | none => exact drew_issued s
  | some r => exact .refl s

theorem knownOr_issued (v : Option Nat) (s : State) : Issued s (knownOr v s).2 := by
  cases v with
  | none => exact drew_issued s
  | some r => exact .refl s

theorem knownAll_issued (l : List (Option Nat)) : ∀ s, Issued s (knownAll l s).2 := by
  induction l with
  | nil => exact Issued.refl
  | cons v l ih => exact fun s => (knownOr_issued v s).trans (ih _)

theorem toHostMem_issued (slot : Nat) (record : Bool) (bytes : List Byte) (s : State) :
    Issued s (toHostMem slot record bytes s) := by
  unfold toHostMem
  split
  · exact .refl s
  · split
    · exact .refl s
    · exact emit_issued ..

theorem giveLens_issued (slot : Nat) (c : Cmd) (lens : List Nat) (s : State) : Issued s (giveLens slot c lens s) := by
  unfold giveLens
  split
  · exact emit_issued ..
  · exact .refl s

/-- A command after INFO conditions arose (R144). -/
def informed (info : Nat) (c : Cmd) : Cmd := { c with info := c.info ||| BitVec.ofNat 8 info }

/-- A command that issued its data, noted its INFO conditions and drew what is free ends: its completion, and what is left. -/
theorem complete_after_data {s s1 t1 : State} {slot : Nat} {c : Cmd} {v : Qp} (hc : getCmd s slot = some c)
    (hs : c.stage ≠ .held) (ht : Takes s c v) (h1 : Issued s s1) (info : Nat) (h2 : Issued (addInfo slot info s1) t1)
    (p : Cmd → Cpl) (e : ErrInfo) :
    Ends s (complete slot p e t1) slot v (p (informed info c)) ∧
      (complete slot p e t1).host.cmds = Tab.del (Tab.put s.host.cmds slot (informed info c)) slot ∧
      (complete slot p e t1).bpm = s.bpm ∧ ∀ o ∈ s1.out, o ∈ (complete slot p e t1).out := by
  have hinfo : addInfo slot info s1 = setCmd slot (informed info c) s1 := by
    have hc1 : getCmd s1 slot = some c := by
      obtain ⟨O, n, rfl⟩ := h1
      exact hc
    simp [addInfo, updCmd, hc1, informed]
  rw [hinfo] at h2
  have hct : getCmd t1 slot = some (informed info c) := by
    obtain ⟨P, m, rfl⟩ := h2
    exact getCmd_setCmd_self ..
  have hqt : getQp t1 c.fn c.qp = getQp s c.fn c.qp := by
    obtain ⟨O, n, rfl⟩ := h1
    obtain ⟨P, m, rfl⟩ := h2
    rfl
  have htt : Takes t1 (informed info c) v := ⟨ht.live, hqt.trans ht.qp, ht.epoch, ht.held, ht.writes, ht.room, ht.plain, ht.kept⟩
  have hheld : (informed info c).stage ≠ .held := hs
  have hends := (complete_ends hct hheld htt p e).1
  obtain ⟨F, O', hended⟩ := (complete_of_takes hct hheld htt p e).1
  obtain ⟨O, n, rfl⟩ := h1
  obtain ⟨P, m, rfl⟩ := h2
  refine ⟨hends.of_out (k := P ++ O) (by simp), ?_, ?_, fun o ho => ?_⟩
  · rw [hended]
    rfl
  · rw [hended]
    rfl
  · obtain ⟨l, o', -, hout⟩ := hends.posted
    rw [hout]
    exact List.mem_append_right _ (List.mem_cons_of_mem _ (List.mem_append_right _ (List.mem_append_right _ ho)))

section
variable {s : State} {slot : Nat} {c : Cmd} {v : Qp} (hc : getCmd s slot = some c) (hs : c.stage ≠ .held) (ht : Takes s c v)
include hc hs ht

/-- The end of a READ: its completion from what was put together, and its data written (R65, R131-R134). -/
theorem endRead_ends (e : ErrInfo) (a : ReadAcc) : ∃ p, Ends s (endRead slot c e a s) slot v p ∧ p.cid = eCid c.entry ∧
    p.epoch = c.epoch ∧ p.status = a.stop.getD (infoStatus (c.info ||| BitVec.ofNat 8 a.info)) ∧ p.recordsDone = a.done ∧
    p.residue = (if a.stop.isNone then a.residue else 0) ∧ (∀ r, a.given = some r → p.recordNum = r) ∧
    (endRead slot c e a s).host.cmds = Tab.del (Tab.put s.host.cmds slot (informed a.info c)) slot ∧
    (endRead slot c e a s).bpm = s.bpm ∧
    (v.reset = none → a.data ≠ [] → .hostData slot true (layout c.sg a.data.length) a.data ∈ (endRead slot c e a s).out) := by
  have h1 : Issued s (giveLens slot c a.lens (toHostMem slot true a.data s)) :=
    (toHostMem_issued ..).trans (giveLens_issued ..)
  have hdata : v.reset = none → a.data ≠ [] → .hostData slot true (layout c.sg a.data.length) a.data ∈
      (giveLens slot c a.lens (toHostMem slot true a.data s)).out := fun hr hd => by
    refine (giveLens_issued ..).mem ?_
    rw [toHostMem_of_takes hc ht hr hd]
    exact List.mem_cons_self ..
  unfold endRead
  extract_lets s1 p
  obtain ⟨hends, hcmds, hbpm, hmem⟩ := complete_after_data hc hs ht h1 a.info (recordNumOf_issued a.given _)
    (fun c => { baseCpl c (a.stop.getD (infoStatus c.info)) with
      recordsDone := a.done, recordNum := p.1, residue := if a.stop.isNone then a.residue else 0,
      specific := BitVec.ofNat 96 (packLsb [(8, c.info.toNat), (24, 0), (16, a.skipped), (16, 0), (16, a.rebuilt), (16, 0)]) })
    { e with byteOffset := a.data.length }
  refine ⟨_, hends, rfl, rfl, rfl, rfl, rfl, fun r hr => ?_, hcmds, hbpm, fun hr hd => hmem _ (hdata hr hd)⟩
  simp only [p, hr]
  rfl

/-- The end of a READ_RAW: its completion from what was put together, and its blocks written (R65, R135). -/
theorem endRaw_ends (e : ErrInfo) (a : RawAcc) : ∃ p, Ends s (endRaw slot c e a s) slot v p ∧
    p.status = a.stop.getD (infoStatus (c.info ||| BitVec.ofNat 8
      ((if 0 < a.residue then 1 else 0) ||| (if a.blks.any (·.rebuilt) then 2 else 0)))) ∧ p.recordsDone = a.done ∧
    p.residue = (if a.stop.isNone then a.residue else 0) ∧ (∀ r, a.given = some r → p.recordNum = r) ∧
    (∃ d, (endRaw slot c e a s).host.cmds = Tab.del (Tab.put s.host.cmds slot d) slot) ∧
    (endRaw slot c e a s).bpm = s.bpm ∧
    (v.reset = none → a.blks.flatMap (·.bytes) ≠ [] →
      .hostData slot true (layout c.sg (a.blks.flatMap (·.bytes)).length) (a.blks.flatMap (·.bytes)) ∈
        (endRaw slot c e a s).out) := by
  unfold endRaw
  extract_lets l s1 info p off o
  have hl : Issued (toHostMem slot true (a.blks.flatMap (·.bytes)) s) l.2 := knownAll_issued ..
  have h1 : Issued s s1 := ((toHostMem_issued ..).trans hl).trans (giveLens_issued ..)
  have hdata : v.reset = none → a.blks.flatMap (·.bytes) ≠ [] →
      .hostData slot true (layout c.sg (a.blks.flatMap (·.bytes)).length) (a.blks.flatMap (·.bytes)) ∈ s1.out := fun hr hd => by
    refine (hl.trans (giveLens_issued ..)).mem ?_
    rw [toHostMem_of_takes hc ht hr hd]
    exact List.mem_cons_self ..
  obtain ⟨hends, hcmds, hbpm, hmem⟩ := complete_after_data hc hs ht h1 info
    ((recordNumOf_issued a.given _).trans (knownOr_issued off p.2))
    (fun c => { baseCpl c (a.stop.getD (infoStatus c.info)) with
      recordsDone := a.done, recordNum := p.1, residue := if a.stop.isNone then a.residue else 0,
      specific := BitVec.ofNat 96 (packLsb [(32, a.blks.length), (32, o.1), (8, c.info.toNat), (24, 0)]) })
    { e with byteOffset := a.size }
  refine ⟨_, hends, rfl, rfl, rfl, fun r hr => ?_, ⟨_, hcmds⟩, hbpm, fun hr hd => hmem _ (hdata hr hd)⟩
  simp only [p, hr]
  rfl
end

end Sys2Proof.Machine
end

section
/-! What goes on on a device whose only command is a read (R133, R176), and the reads of one record (R130-R135, R159). -/

namespace Sys2Proof.Machine

/-- The one command of the device is a READ or READ_RAW under way; no block, dataset or drain is (R137, R196). -/
structure OnlyReading (s : State) (slot : Nat) (c : Cmd) : Prop where
  cmds : s.host.cmds = [(slot, c)]
  stage : ∃ j, c.stage = .reading j
  waiting : s.wr.waiting = []
  drain : s.pwr.drain = none
  activate : s.fw.activate = none
  bufs : s.bpm.bufs = []
  streams : ∀ p ∈ s.streams, p.2.openBlk = none ∧ p.2.state ≠ .closing

theorem foldl_same {α β : Type} {f : β → α → β} {l : List α} {b : β} (h : ∀ a ∈ l, f b a = b) : l.foldl f b = b := by
  induction l with
  | nil => rfl
  | cons a l ih =>
    rw [List.foldl_cons, h a (List.mem_cons_self ..)]
    exact ih fun a' ha' => h a' (List.mem_cons_of_mem _ ha')

/-- `t` issues nothing after `s`, with its host interface and buffers. -/
def Silent (s t : State) : Prop := t.host = s.host ∧ t.out = s.out ∧ t.bpm.bufs = s.bpm.bufs

theorem Silent.refl (s : State) : Silent s s := ⟨rfl, rfl, rfl⟩

theorem Silent.trans {s t u : State} (h : Silent s t) (k : Silent t u) : Silent s u :=
  ⟨k.1.trans h.1, k.2.1.trans h.2.1, k.2.2.trans h.2.2⟩

theorem freeOpt_of_no_bufs {s : State} (h : s.bpm.bufs = []) (id : Option Nat) (tag : BitVec 128) : freeOpt id tag s = s := by
  cases id with
  | none => rfl
  | some i => simp [freeOpt, freeHeld, h]

theorem dropHeld_silent (id : Option Nat) (s : State) : Silent s (dropHeld id s) := by
  cases id <;> exact ⟨rfl, rfl, rfl⟩

theorem freeTape_silent {s : State} (h : s.bpm.bufs = []) (b : TapeBlk) : Silent s (freeTape s b) := by
  unfold freeTape
  extract_lets tag
  rw [freeOpt_of_no_bufs h, freeOpt_of_no_bufs h]
  exact (dropHeld_silent ..).trans (dropHeld_silent ..)

theorem freeTapes_silent (l : List TapeBlk) : ∀ {s : State}, s.bpm.bufs = [] → Silent s (l.foldl freeTape s) := by
  induction l with
  | nil => exact fun _ => .refl _
  | cons b l ih => exact fun h => (freeTape_silent h b).trans (ih ((freeTape_silent h b).2.2.trans h))

/-- Reads forgotten free buffers alone, and there are none. -/
theorem clearReads_of_no_bufs {s : State} (h : s.bpm.bufs = []) : Silent s (clearReads s) := by
  have h1 := freeTapes_silent s.rd.blks h
  unfold clearReads
  extract_lets s1 s2
  have h2 : Silent s1 s2 := by
    simp only [s2]
    split
    · rw [freeOpt_of_no_bufs (h1.2.2.trans h)]
      exact dropHeld_silent ..
    · exact .refl s1
  exact h1.trans h2

/-- The datasets that the reads under way still need are listed, or what was read is forgotten (R176). -/
def readsListed (s : State) : State :=
  let needs := (allNeeds s).filter fun n => match s.rd.cur with | some d => d.orig != n | none => true
  let idle := needs.isEmpty && s.rd.cur.isNone
  let batch := s.rd.batch && !idle
  let urgent := s.rd.urgent.filter needs.contains
  let s := { s with rd := { s.rd with queue := needs, batch := batch, urgent := urgent, collecting := !needs.isEmpty && !batch,
                                      last := if batch then s.rd.last else 0 } }
  if idle && !readsRun s then clearReads s else s

theorem readsAdvance_eq (s : State) : readsAdvance s = readsListed (rebuildCheck (failReads
    (((cutWanted s).host.cmds.map (·.1)).foldl (fun s n => tryRead n s) (cutWanted s)))) := rfl

theorem readsListed_silent {s : State} (h : s.bpm.bufs = []) : Silent s (readsListed s) := by
  unfold readsListed
  extract_lets needs idle batch urgent _ s1
  have h1 : Silent s s1 := ⟨rfl, rfl, rfl⟩
  split
  · exact h1.trans (clearReads_of_no_bufs (h1.2.2.trans h))
  · exact h1

section
variable {s : State} {slot : Nat} {c : Cmd} (h : OnlyReading s slot c)
include h

theorem drains_of_onlyReading : drains s = [] := by
  obtain ⟨j, hj⟩ := h.stage
  have hstr : (s.streams.filterMap fun p =>
      if p.2.state = .closing && p.2.closer.isNone then some ({ scope := 0, stream := p.1, seq := s.host.fetchSeq } : Drain)
      else none) = [] :=
    List.filterMap_eq_nil_iff.2 fun p hp => if_neg (by simp [(h.streams p hp).2])
  unfold drains
  rw [hstr]
  simp [h.cmds, hj, h.activate, h.drain]

theorem placeAll_of_onlyReading : placeAll s = s := by
  unfold placeAll
  simp [h.waiting, placeLoop, nextToPlace]

theorem settleN_of_onlyReading (n : Nat) : settleN n s = s := by
  induction n with
  | zero => rfl
  | succ n ih => rw [settleN, placeAll_of_onlyReading h, pushDrains, drains_of_onlyReading h, List.foldl_nil, ih]

theorem closeEnded_of_onlyReading : closeEnded s = s := by
  unfold closeEnded
  exact foldl_same fun p hp => if_neg (by simp [(h.streams p hp).2])

theorem checkWrites_of_onlyReading : checkWrites s = s := by
  obtain ⟨j, hj⟩ := h.stage
  unfold checkWrites
  rw [h.cmds]
  simp [checkWrite, getCmd, h.cmds, Tab.get?, hj]

theorem cutWanted_of_onlyReading : cutWanted s = s := by
  obtain ⟨j, hj⟩ := h.stage
  have hopen : (getStream s (eStream c.entry)).bind (·.openBlk) = none := by
    cases hx : getStream s (eStream c.entry) with
    | none => rfl
    | some x => exact (h.streams _ (Tab.mem_of_get? hx)).1
  unfold cutWanted
  rw [h.cmds]
  simp [hj, hopen]

/-- What follows is the read alone: once it has ended, nothing more is issued and no function changes. -/
theorem settle_of_onlyReading (he : (tryRead slot s).host.cmds = []) (hb : (tryRead slot s).bpm.bufs = []) :
    Silent (tryRead slot s) (settle s) := by
  have hcall : settle s = readsListed (rebuildCheck (failReads (tryRead slot s))) := by
    unfold settle
    rw [settleN_of_onlyReading h, closeEnded_of_onlyReading h, endPowerDrain, h.drain, checkWrites_of_onlyReading h,
      readsAdvance_eq, cutWanted_of_onlyReading h, h.cmds]
    rfl
  have hfail : failReads (tryRead slot s) = tryRead slot s := by
    unfold failReads
    rw [he]
    exact ite_self _
  have hrebuild : rebuildCheck (tryRead slot s) = tryRead slot s := by
    unfold rebuildCheck findRebuild
    rw [he]
    rfl
  rw [hcall, hfail, hrebuild]
  exact readsListed_silent hb
end

end Sys2Proof.Machine
end

section
/-! READ and READ_RAW of one record on a device with nothing else under way (R64, R130-R135, R159). -/

namespace Sys2Proof.Machine

theorem Ends.of_silent {s t u : State} {slot : Nat} {v : Qp} {p : Cpl} (h : Ends s t slot v p) (k : Silent t u) :
    Ends s u slot v p := by
  obtain ⟨hhost, hout, -⟩ := k
  refine ⟨?_, ?_⟩
  · rw [hout]
    exact h.posted
  · rw [getCmd, hhost]
    exact h.released

/-- A READ under way whose records have all been dealt with, and a READ_RAW (R131, R135). -/
theorem tryRead_of_read {s : State} {slot room : Nat} {c : Cmd} {a : ReadAcc} (hc : getCmd s slot = some c)
    (hs : c.stage = .reading { room := some room }) (hcut : cutOff s c = false) (hop : eOpcode c.entry = opRead)
    (ha : readWalk s (eStream c.entry) room (eSkipMissing c.entry) none (eCount c.entry) (eFirst c.entry) {} = some a) :
    tryRead slot s = endRead slot c (readFail s (eStream c.entry) a.at') a s := by
  unfold tryRead
  simp only [hc, hs, hcut, hop, ha, Bool.false_eq_true, if_false, if_true]

theorem tryRead_of_raw {s : State} {slot room : Nat} {c : Cmd} {a : RawAcc} (hc : getCmd s slot = some c)
    (hs : c.stage = .reading { room := some room }) (hcut : cutOff s c = false) (hop : eOpcode c.entry = opReadRaw)
    (ha : rawWalk s (eStream c.entry) room none (eCount c.entry) (eFirst c.entry) {} = some a) :
    tryRead slot s = endRaw slot c (readFail s (eStream c.entry) a.at') a s := by
  unfold tryRead
  simp only [hc, hs, hcut, hop, ha, Bool.false_eq_true, if_false]
  rfl

/-- A READ or READ_RAW whose buffer is one range is under way (R64, R130). -/
def reading (c : Cmd) : Cmd := { c with stage := .reading { room := some (eLen c.entry) } }

/-- The device with one READ or READ_RAW at its start and nothing else under way (R137, R196). -/
structure OneRead (s : State) (slot : SlotId) (c : Cmd) : Prop where
  cmds : s.host.cmds = [(slot.val, c)]
  stage : c.stage = .started
  waiting : s.wr.waiting = []
  drain : s.pwr.drain = none
  activate : s.fw.activate = none
  bufs : s.bpm.bufs = []
  streams : ∀ p ∈ s.streams, p.2.openBlk = none ∧ p.2.state ≠ .closing
  bound : ∃ x, getStream s (eStream c.entry) = some x
  mode : eDataMode c.entry = 1
  one : eCount c.entry = 1

section
variable {slot : SlotId} {c : Cmd} {v : Qp} {s : State} (h : OneRead s slot c)
include h

theorem OneRead.cmd : getCmd s slot.val = some c := by simp [getCmd, h.cmds, Tab.get?]

theorem OneRead.put (d : Cmd) : (setCmd slot.val d s).host.cmds = [(slot.val, d)] := by
  simp [setCmd, h.cmds, Tab.put]

theorem OneRead.begins : beginRead slot.val [] c s = settle (setCmd slot.val (reading c) s) := by
  obtain ⟨x, hx⟩ := h.bound
  unfold beginRead
  simp only [poisonedIndex_nil, Bool.false_eq_true, if_false, hx, h.mode, eccReads, List.foldl_nil, if_true]
  rw [setStage_of_cmd h.cmd]
  rfl

theorem OneRead.onlyReading : OnlyReading (setCmd slot.val (reading c) s) slot.val (reading c) :=
  ⟨h.put _, ⟨_, rfl⟩, h.waiting, h.drain, h.activate, h.bufs, h.streams⟩

/-- No WRITE is in flight, before and after the read is under way. -/
theorem OneRead.findWriter (q : Nat) : findWriter (setCmd slot.val (reading c) s) q = findWriter s q := by
  unfold Machine.findWriter
  rw [h.put, h.cmds]
  simp [reading, h.stage]

theorem OneRead.recStatus (n r : Nat) : recStatus (setCmd slot.val (reading c) s) n r = recStatus s n r :=
  recStatus_host h.findWriter n r

theorem OneRead.rawStatus (n r : Nat) : rawStatus (setCmd slot.val (reading c) s) n r = rawStatus s n r :=
  rawStatus_host h.findWriter n r

/-- What was put together for the read ends it: nothing else is under way (R131, R133). -/
theorem OneRead.settled {t : State} (he : tryRead slot.val (setCmd slot.val (reading c) s) = t) {d : Cmd}
    (hcmds : t.host.cmds = Tab.del (Tab.put (setCmd slot.val (reading c) s).host.cmds slot.val d) slot.val)
    (hbpm : t.bpm = (setCmd slot.val (reading c) s).bpm) : Silent t (settle (setCmd slot.val (reading c) s)) := by
  subst he
  refine settle_of_onlyReading h.onlyReading ?_ (by rw [hbpm]; exact h.bufs)
  rw [hcmds, h.put]
  simp [Tab.put, Tab.del]

/-- A READ of one record that can be answered: its data and its completion (R131-R134). -/
theorem OneRead.read_ends (hs : Started s slot.val opRead c) (ht : Takes s c v) (hr : v.reset = none) {a : ReadAcc}
    (ha : readWalk (setCmd slot.val (reading c) s) (eStream c.entry) (eLen c.entry) (eSkipMissing c.entry) none 1
      (eFirst c.entry) {} = some a) :
    ∃ t p, exec (.read slot []) s = .next t ∧ Ends s t slot.val v p ∧ p.cid = eCid c.entry ∧ p.epoch = c.epoch ∧
      p.status = a.stop.getD (infoStatus (c.info ||| BitVec.ofNat 8 a.info)) ∧ p.recordsDone = a.done ∧
      p.residue = (if a.stop.isNone then a.residue else 0) ∧ (∀ r, a.given = some r → p.recordNum = r) ∧
      (a.data ≠ [] → .hostData slot.val true (layout c.sg a.data.length) a.data ∈ t.out) := by
  have hcx : getCmd (setCmd slot.val (reading c) s) slot.val = some (reading c) := getCmd_setCmd_self ..
  have htx : Takes (setCmd slot.val (reading c) s) (reading c) v := ht.of_stage _ rfl
  have hcut : cutOff (setCmd slot.val (reading c) s) (reading c) = false := by simp [cutOff, htx.qp, hr]
  have hcall := tryRead_of_read hcx rfl hcut hs.opcode ((congrArg (readWalk _ _ _ _ _ · _ _) h.one).trans ha)
  obtain ⟨p, hends, hcid, hep, hst, hdone, hres, hnum, hcmds, hbpm, hout⟩ :=
    endRead_ends hcx (by simp [reading]) htx (readFail (setCmd slot.val (reading c) s) (eStream c.entry) a.at') a
  have hsil := h.settled hcall hcmds hbpm
  refine ⟨_, p, ?_, (hends.of_silent hsil).of_out (k := []) rfl, hcid, hep, hst, hdone, hres, hnum, fun hd => ?_⟩
  · rw [exec_read, execRead, onCmd_of_started hs (by simp), h.begins]
  · rw [hsil.2.1]
    exact hout hr hd

/-- A READ_RAW of one record that can be answered: its blocks and its completion (R135). -/
theorem OneRead.raw_ends (hs : Started s slot.val opReadRaw c) (ht : Takes s c v) (hr : v.reset = none) {a : RawAcc}
    (ha : rawWalk (setCmd slot.val (reading c) s) (eStream c.entry) (eLen c.entry) none 1 (eFirst c.entry) {} = some a) :
    ∃ t p, exec (.readRaw slot []) s = .next t ∧ Ends s t slot.val v p ∧
      p.status = a.stop.getD (infoStatus (c.info ||| BitVec.ofNat 8
        ((if 0 < a.residue then 1 else 0) ||| (if a.blks.any (·.rebuilt) then 2 else 0)))) ∧ p.recordsDone = a.done ∧
      p.residue = (if a.stop.isNone then a.residue else 0) ∧ (∀ r, a.given = some r → p.recordNum = r) ∧
      (a.blks.flatMap (·.bytes) ≠ [] →
        .hostData slot.val true (layout c.sg (a.blks.flatMap (·.bytes)).length) (a.blks.flatMap (·.bytes)) ∈ t.out) := by
  have hcx : getCmd (setCmd slot.val (reading c) s) slot.val = some (reading c) := getCmd_setCmd_self ..
  have htx : Takes (setCmd slot.val (reading c) s) (reading c) v := ht.of_stage _ rfl
  have hcut : cutOff (setCmd slot.val (reading c) s) (reading c) = false := by simp [cutOff, htx.qp, hr]
  have hcall := tryRead_of_raw hcx rfl hcut hs.opcode ((congrArg (rawWalk _ _ _ _ · _ _) h.one).trans ha)
  obtain ⟨p, hends, hst, hdone, hres, hnum, ⟨d, hcmds⟩, hbpm, hout⟩ :=
    endRaw_ends hcx (by simp [reading]) htx (readFail (setCmd slot.val (reading c) s) (eStream c.entry) a.at') a
  have hsil := h.settled hcall hcmds hbpm
  refine ⟨_, p, ?_, (hends.of_silent hsil).of_out (k := []) rfl, hst, hdone, hres, hnum, fun hd => ?_⟩
  · rw [exec_readRaw, execReadRaw, onCmd_of_started hs (by simp), h.begins]
  · rw [hsil.2.1]
    exact hout hr hd
end

section
variable {s : State} {n r room : Nat} {skip : Bool}

/-- One record that fits is delivered whole (R131). -/
theorem readWalk_fits {d : List Byte} {b : Bool} (h : recStatus s n r = .res (.data d b)) (hl : d.length ≤ room) :
    readWalk s n room skip none 1 r {} = some { data := d, lens := [d.length], done := 1, given := some r, rebuilt := b.toNat,
                                                info := if b then 2 else 0 } := by
  simp [readWalk, h, hl]

/-- One record longer than the buffer fills it (R132). -/
theorem readWalk_residue {d : List Byte} {b : Bool} (h : recStatus s n r = .res (.data d b)) (hl : room < d.length) :
    readWalk s n room skip none 1 r {} = some { data := d.take room, lens := [d.length], given := some r, rebuilt := b.toNat,
                                                residue := d.length - room, info := (if b then 2 else 0) ||| 1 } := by
  simp [readWalk, h, hl]

/-- A record that is not there ends the READ, or is passed over (R133). -/
theorem readWalk_missing {y : RecRes} {e : Nat} {st : Status} (h : recStatus s n r = .res y) (hy : y.skip = some (e, st)) :
    readWalk s n room false none 1 r {} = some { lens := [e], stop := some st, at' := r } ∧
      readWalk s n room true none 1 r {} = some { lens := [e], done := 1, skipped := 1, info := 16 } := by
  cases y <;> simp_all [readWalk, RecRes.skip]

/-- The blocks of one record that fit (R135). -/
theorem rawWalk_one {whole : Bool} {b : RawBlk} (h : rawStatus s n r = .blocks whole [b]) (hl : b.bytes.length ≤ room) :
    rawWalk s n room none 1 r {} = some { blks := [b], size := b.bytes.length, done := whole.toNat, given := some r,
                                          lens := [if whole then rawLength r [b] else some 0xFFFFFFFE] } := by
  simp [rawWalk, h, addRaw, Nat.not_lt.2 hl]
end

/-- A residue comes before every other INFO condition (R144). -/
theorem infoStatus_residue (i : BitVec 8) (b : Bool) :
    infoStatus (i ||| BitVec.ofNat 8 ((if b then 2 else 0) ||| 1)) = .lengthResidue := by
  simp [infoStatus]

/-- Settles O34: what the record comes to decides what is put together, and its end is the only thing under way. -/
theorem readsDeliverRecords : Obligations.ReadsDeliverRecords := by
  unfold Obligations.ReadsDeliverRecords
  intro slot c x v s hcmds _ hwait _ _ hdrain hact hbufs hstreams hx hmode hone hr ht
  have idle : c.stage = .started → OneRead s slot c := fun hs =>
    ⟨hcmds, hs, hwait, hdrain, hact, hbufs, hstreams, ⟨x, hx⟩, hmode, hone⟩
  refine ⟨fun hs => ⟨fun d b hd hne => ?_, fun y e st hy hskip => ?_⟩, fun hs whole b hb hne hlen => ?_⟩
  · have h := idle hs.stage
    have hd' := (h.recStatus (eStream c.entry) (eFirst c.entry)).trans hd
    by_cases hl : d.length ≤ eLen c.entry
    · obtain ⟨t, p, hcall, hends, hcid, hep, hst, hdone, hres, hnum, hout⟩ := h.read_ends hs ht hr (readWalk_fits hd' hl)
      refine ⟨t, p, hcall, hends, hcid, hep, hnum _ rfl, fun _ => ⟨hout hne, hdone, hres, ?_⟩, fun hlt => absurd hl (by omega)⟩
      rw [hst]
      cases b <;> rfl
    · have hlt : eLen c.entry < d.length := by omega
      obtain ⟨t, p, hcall, hends, hcid, hep, hst, hdone, hres, hnum, hout⟩ := h.read_ends hs ht hr (readWalk_residue hd' hlt)
      have htake : (d.take (eLen c.entry)).length = eLen c.entry := by
        rw [List.length_take]
        omega
      rw [htake] at hout
      refine ⟨t, p, hcall, hends, hcid, hep, hnum _ rfl, fun hle => absurd hle hl, fun _ hpos =>
        ⟨hout fun h0 => ?_, hdone, hres, hst.trans (infoStatus_residue ..)⟩⟩
      have hnil : d.take (eLen c.entry) = [] := h0
      rw [hnil, List.length_nil] at htake
      omega
  · have h := idle hs.stage
    obtain ⟨hstop, hpass⟩ := readWalk_missing (room := eLen c.entry)
      ((h.recStatus (eStream c.entry) (eFirst c.entry)).trans hy) hskip
    cases hm : eSkipMissing c.entry with
    | false =>
      obtain ⟨t, p, hcall, hends, -, -, hst, hdone, -⟩ := h.read_ends hs ht hr (by rw [hm]; exact hstop)
      exact ⟨t, p, hcall, hends, fun _ => ⟨hst, hdone⟩, by simp⟩
    | true =>
      obtain ⟨t, p, hcall, hends, -, -, hst, hdone, -⟩ := h.read_ends hs ht hr (by rw [hm]; exact hpass)
      exact ⟨t, p, hcall, hends, by simp, fun _ => ⟨hst, hdone⟩⟩
  · have h := idle hs.stage
    have hwalk := rawWalk_one ((h.rawStatus (eStream c.entry) (eFirst c.entry)).trans hb) hlen
    obtain ⟨t, p, hcall, hends, hst, hdone, hres, hnum, hout⟩ := h.raw_ends hs ht hr hwalk
    have hbytes : [b].flatMap (·.bytes) = b.bytes := List.flatMap_singleton ..
    rw [hbytes] at hout
    refine ⟨t, p, hcall, hends, hout hne, hdone, hnum _ rfl, hres, ?_⟩
    rw [hst]
    cases hb' : b.rebuilt <;> simp [hb']

end Sys2Proof.Machine
end

section
/-! The front of the queue of commands, and why the dictionary's answers cannot be promised of every queue pair that takes its
completions: DictionaryAnswers asks nothing of a reset that runs on it (R83, R98, R114). -/

namespace Sys2Proof.Machine

/-- Settles O1: the front of the queue is taken by the second branch of a step. -/
theorem stepRunsFrontCommand : Obligations.StepRunsFrontCommand := by
  unfold Obligations.StepRunsFrontCommand
  intro c rest s
  rw [Machine.step]

/-- A DICT_READ of the identity entry 0x1000:04, one byte, into a buffer of 16 bytes. -/
def steppingRead : Cmd :=
  { fn := 0, qp := 0, epoch := 0, seq := 0, headAfter := 1,
    entry := BitVec.ofNat 512 (opDictRead + 16 * 2 ^ 192 + 4 * 2 ^ 224 + 0x1000 * 2 ^ 232) }

/-- A queue pair with room for completions, of which a reset has begun and not yet made its cut (R83). -/
def resetQp : Qp := { sqDepth := 8, cqDepth := 8, reset := some {} }

/-- The PF with that queue pair, on which the DICT_READ has started. -/
def readInReset : State :=
  { State.reset with host := { State.reset.host with
      fns := [(0, { enable := true, ready := true, qps := [(0, resetQp)] })], cmds := [(0, steppingRead)] } }

theorem started_readInReset : Started readInReset 0 opDictRead steppingRead := by
  refine ⟨rfl, rfl, ?_, rfl, ?_⟩ <;> decide +kernel

theorem takes_readInReset : Takes readInReset steppingRead resetQp := ⟨rfl, rfl, rfl, rfl, rfl, rfl, rfl, rfl⟩

/-- The PF may read the entry, and its value is one byte. -/
theorem readInReset_admitted :
    checkOp readInReset (fnReader readInReset 0) ⟨.cmd 0, false, 0x1000, 4, [], 0⟩ = none ∧
      ∃ e, findEntry 0x1000 4 = some e ∧
        readValue (setStage 0 .waiting readInReset) (fnReader readInReset 0) 0x1000 4 e = [0xB1#8] := by
  refine ⟨by decide +kernel, _, rfl, by decide +kernel⟩

/-- An output is data written to host memory. -/
def Out.isHostData : Out → Bool
  | .hostData .. => true
  | _ => false

/-- While the queue pair is being reset no data goes to host memory for its commands (R83). -/
theorem readInReset_no_data {t : State} (h : exec (.dictRead 0) readInReset = .next t) : t.out.any Out.isHostData = false := by
  have hrun : (match exec (.dictRead 0) readInReset with | .next t => t.out.any Out.isHostData | _ => true) = false := by
    decide +kernel
  rwa [h] at hrun

/-- Refutes O52: a queue pair takes its completions also while a reset of it runs, and then the bytes of a DICT_READ are not
written to host memory. -/
theorem not_dictionaryAnswers : ¬ Obligations.DictionaryAnswers := by
  unfold Obligations.DictionaryAnswers
  rintro ⟨hread, -⟩
  obtain ⟨hcheck, e, he, hbytes⟩ := readInReset_admitted
  have hindex : eIndex steppingRead.entry = 0x1000 := by decide +kernel
  have hsub : eSub steppingRead.entry = 4 := by decide +kernel
  have hlen : eLen steppingRead.entry = 16 := by decide +kernel
  obtain ⟨hok, -⟩ := hread 0 steppingRead e resetQp readInReset started_readInReset takes_readInReset rfl rfl rfl
  simp only [hindex, hsub, hlen] at hok
  obtain ⟨t, hcall, -, hdata, -⟩ := hok hcheck he (by decide) (by decide)
  have hmem := hdata fun hempty => absurd ((congrArg (List.take 16) hbytes).symm.trans hempty) (by decide)
  have hnone := readInReset_no_data hcall
  rw [List.any_eq_true.2 ⟨_, hmem, rfl⟩] at hnone
  cases hnone

end Sys2Proof.Machine
end

section
/-! SUPPORT. The reach of the Buffer Pool Manager: which fields an operation on buffers can change, which events it can count, and
the commands that it leaves alone (R18, R20, R189-R195, R199). -/

namespace Sys2Proof.Machine

/-- `t` follows from `s` by operations on buffers: beside the Buffer Pool Manager itself at most the host interface, the free draws,
the agents' numbers, the outputs and the events change, and of the events those of the pools alone (R191, R192, R194, R183). -/
structure BufOnly (s t : State) : Prop where
  frame : ∃ H D A B E O, t = { s with host := H, drawn := D, agentSeq := A, bpm := B, ev := E, out := O }
  counts : ∀ n, 0x508 ≤ n → Tab.getD t.ev.counts n 0 = Tab.getD s.ev.counts n 0

theorem BufOnly.refl (s : State) : BufOnly s s := ⟨⟨_, _, _, _, _, _, rfl⟩, fun _ _ => rfl⟩

theorem BufOnly.trans {s t u : State} (h : BufOnly s t) (k : BufOnly t u) : BufOnly s u where
  frame := by
    obtain ⟨H, D, A, B, E, O, rfl⟩ := h.frame
    obtain ⟨H', D', A', B', E', O', e⟩ := k.frame
    exact ⟨H', D', A', B', E', O', e⟩
  counts n hn := (k.counts n hn).trans (h.counts n hn)

theorem BufOnly.ite {s a b : State} {p : Prop} [Decidable p] (ha : BufOnly s a) (hb : BufOnly s b) :
    BufOnly s (if p then a else b) := by
  split
  · exact ha
  · exact hb

theorem BufOnly.foldl {α : Type} {s0 : State} {f : State → α → State} {l : List α} {s : State} (h : BufOnly s0 s)
    (hf : ∀ t a, BufOnly s0 t → BufOnly s0 (f t a)) : BufOnly s0 (l.foldl f s) := by
  induction l generalizing s with
  | nil => exact h
  | cons a l ih => exact ih (hf s a h)

section
variable {s t : State} (h : BufOnly s t)
include h

/-! What operations on buffers leave alone, by name. -/

theorem BufOnly.time : t.time = s.time := by obtain ⟨_, _, _, _, _, _, rfl⟩ := h.frame; rfl
theorem BufOnly.cart : t.cart = s.cart := by obtain ⟨_, _, _, _, _, _, rfl⟩ := h.frame; rfl
theorem BufOnly.streams : t.streams = s.streams := by obtain ⟨_, _, _, _, _, _, rfl⟩ := h.frame; rfl
theorem BufOnly.index : t.index = s.index := by obtain ⟨_, _, _, _, _, _, rfl⟩ := h.frame; rfl
theorem BufOnly.pack : t.pack = s.pack := by obtain ⟨_, _, _, _, _, _, rfl⟩ := h.frame; rfl
theorem BufOnly.wr : t.wr = s.wr := by obtain ⟨_, _, _, _, _, _, rfl⟩ := h.frame; rfl
theorem BufOnly.rd : t.rd = s.rd := by obtain ⟨_, _, _, _, _, _, rfl⟩ := h.frame; rfl
theorem BufOnly.cip : t.cip = s.cip := by obtain ⟨_, _, _, _, _, _, rfl⟩ := h.frame; rfl
theorem BufOnly.chans : t.chans = s.chans := by obtain ⟨_, _, _, _, _, _, rfl⟩ := h.frame; rfl
theorem BufOnly.dict : t.dict = s.dict := by obtain ⟨_, _, _, _, _, _, rfl⟩ := h.frame; rfl

end

theorem emit_bufOnly (o : Out) (s : State) : BufOnly s (emit o s) := ⟨⟨_, _, _, _, _, _, rfl⟩, fun _ _ => rfl⟩

theorem host_bufOnly (H : HostIf) (s : State) : BufOnly s { s with host := H } := ⟨⟨_, _, _, _, _, _, rfl⟩, fun _ _ => rfl⟩

theorem bpm_bufOnly (B : Bpm) (s : State) : BufOnly s { s with bpm := B } := ⟨⟨_, _, _, _, _, _, rfl⟩, fun _ _ => rfl⟩

theorem agentTag_bufOnly (agent : Nat) (s : State) : BufOnly s (agentTag agent s).2 :=
  ⟨⟨_, _, _, _, _, _, rfl⟩, fun _ _ => rfl⟩

theorem raise_bufOnly {n : Nat} (hn : n < 0x508) (l : List (Nat × Nat)) (s : State) : BufOnly s (raise n l s) where
  frame := by
    obtain ⟨v, h | ⟨u, h⟩⟩ := raise_eq n l s
    · exact ⟨_, _, _, _, _, _, h⟩
    · obtain ⟨F, O, e⟩ := sendMsix_fnsOut 0 1 { s with ev := u }
      exact ⟨_, _, _, _, _, _, by rw [h, e]⟩
  counts m hm := by rw [raise_counts, Tab.getD_put_ne _ _ _ (by omega)]

theorem retag_bufOnly (tag : BitVec 128) (id : Nat) (s : State) : BufOnly s (retag tag id s) := by
  obtain ⟨H, h⟩ := retag_eq tag id s
  rw [h]
  exact host_bufOnly H s

theorem answer_bufOnly (owner : Nat) (r : Response) (id : Option Nat) (tag : BitVec 128) (s : State) :
    BufOnly s (answer owner r id tag s) := bpm_bufOnly _ s

theorem updAbove_bufOnly (s : State) : BufOnly s (updAbove s) := by
  obtain ⟨H, a, h⟩ := updAbove_eq s
  rw [h]
  exact (host_bufOnly H s).trans (bpm_bufOnly ..)

theorem takeBuf_bufOnly (owner p : Nat) (s : State) : BufOnly s (takeBuf owner p s).1 := by
  unfold takeBuf
  extract_lets free id _ s1 s2
  have h1 : BufOnly s s1 := ⟨⟨_, _, _, _, _, _, rfl⟩, fun _ _ => rfl⟩
  have h2 : BufOnly s1 s2 := bpm_bufOnly ..
  exact (h1.trans h2).trans (updAbove_bufOnly s2)

theorem holdReq_bufOnly (owner cls size : Nat) (tag : BitVec 128) (s : State) : BufOnly s (holdReq owner cls size tag s).1 := by
  unfold holdReq
  extract_lets id _ s1 s2
  have h1 : BufOnly s s1 := bpm_bufOnly _ s
  have h2 : BufOnly s s2 := h1.trans (answer_bufOnly ..)
  split
  · exact h2.trans (.trans (bpm_bufOnly _ s2) (raise_bufOnly (n := 0x503) (by decide) [] _))
  · exact h2

theorem askBuf_bufOnly (owner size : Nat) (tag : BitVec 128) (s : State) : BufOnly s (askBuf owner size tag s).1 := by
  unfold askBuf
  split
  · exact ((takeBuf_bufOnly ..).trans (answer_bufOnly ..)).trans (retag_bufOnly ..)
  · exact holdReq_bufOnly ..

theorem quarantine_bufOnly (p i : Nat) (s : State) : BufOnly s (quarantine p i s) :=
  (bpm_bufOnly _ s).trans ((bpm_bufOnly ..).trans (raise_bufOnly (by decide) ..))

theorem returnBuf_bufOnly (id : Nat) (s : State) : BufOnly s (returnBuf id s) := by
  unfold returnBuf
  extract_lets _ s1 s2
  have h1 : BufOnly s s1 := bpm_bufOnly _ s
  have h2 : BufOnly s1 s2 := .ite (quarantine_bufOnly ..) (.refl s1)
  exact (h1.trans h2).trans (updAbove_bufOnly s2)

theorem dropRef_bufOnly (id : Nat) (s : State) : BufOnly s (dropRef id s) := by
  unfold dropRef
  split
  · exact .refl s
  · exact .ite (.refl s) (.ite (returnBuf_bufOnly ..) (bpm_bufOnly _ s))

theorem misuse_bufOnly {src : Nat} (h : src < 0x508) (r : Response) (owner id : Nat) (tag : BitVec 128) (s : State) :
    BufOnly s (misuse r src owner id tag s) := (answer_bufOnly ..).trans (raise_bufOnly h ..)

theorem freeReq_bufOnly (owner id : Nat) (tag : BitVec 128) (s : State) : BufOnly s (freeReq owner id tag s) := by
  unfold freeReq
  split
  · exact misuse_bufOnly (by decide) ..
  · exact .ite (misuse_bufOnly (by decide) ..) ((answer_bufOnly ..).trans (dropRef_bufOnly ..))

theorem freeOwn_bufOnly (owner id : Nat) (tag : BitVec 128) (s : State) : BufOnly s (freeOwn owner id tag s) := by
  unfold freeOwn
  split
  · exact .ite (freeReq_bufOnly ..) (.refl s)
  · exact .refl s

theorem freeOpt_bufOnly (id : Option Nat) (tag : BitVec 128) (s : State) : BufOnly s (freeOpt id tag s) := by
  unfold freeOpt
  split
  · unfold freeHeld
    split
    · exact freeReq_bufOnly ..
    · exact .refl s
  · exact .refl s

theorem giveOwn_bufOnly (owner id newOwner : Nat) (tag : BitVec 128) (s : State) :
    BufOnly s (giveOwn owner id newOwner tag s) := by
  unfold giveOwn giveReq
  split
  · refine .ite ?_ (.refl s)
    split
    · exact misuse_bufOnly (by decide) ..
    · exact .ite (misuse_bufOnly (by decide) ..)
        (((bpm_bufOnly ..).trans (answer_bufOnly ..)).trans (retag_bufOnly ..))
  · exact .refl s

theorem dropHeld_bufOnly (id : Option Nat) (s : State) : BufOnly s (dropHeld id s) := by
  unfold dropHeld
  split
  · exact .refl s
  · exact bpm_bufOnly ..

theorem freeRefs_bufOnly (refs : List WinRef) (tag : BitVec 128) (s : State) : BufOnly s (freeRefs refs tag s) :=
  BufOnly.foldl (.refl s) fun _ _ h => h.trans (freeOwn_bufOnly ..)

theorem freeTape_bufOnly (s : State) (b : TapeBlk) : BufOnly s (freeTape s b) :=
  (freeOpt_bufOnly ..).trans ((freeOpt_bufOnly ..).trans ((dropHeld_bufOnly ..).trans (dropHeld_bufOnly ..)))

/-! The commands and the queue pairs beside the buffers: further operations than those of `Aside`. -/

theorem freeOpt_aside (id : Option Nat) (tag : BitVec 128) (s : State) : Aside s (freeOpt id tag s) := by
  unfold freeOpt
  split
  · unfold freeHeld
    split
    · exact freeReq_aside ..
    · exact .refl s
  · exact .refl s

theorem dropHeld_aside (id : Option Nat) (s : State) : Aside s (dropHeld id s) := by
  unfold dropHeld
  split
  · exact .refl s
  · exact bpm_aside ..

theorem freeRefs_aside (refs : List WinRef) (tag : BitVec 128) (s : State) : Aside s (freeRefs refs tag s) :=
  Aside.foldl (.refl s) fun _ _ h => h.trans (freeOwn_aside ..)

theorem freeTape_aside (s : State) (b : TapeBlk) : Aside s (freeTape s b) :=
  (freeOpt_aside ..).trans ((freeOpt_aside ..).trans ((dropHeld_aside ..).trans (dropHeld_aside ..)))

/-- The class of a tag is its field of two bits above RecordNum (R18). -/
theorem tagClass_flowTag (stream qp slot key : Nat) (cipher : Bool) (comp record pool index epoch : Nat) :
    tagClass (flowTag stream qp slot key cipher comp record pool index epoch) = comp % 4 := by
  have above : ∀ x c r p i e : Nat, tagClass (BitVec.ofNat 128
      (((((x * 2 ^ 2 + c % 2 ^ 2) * 2 ^ 48 + r % 2 ^ 48) * 2 ^ 3 + p % 2 ^ 3) * 2 ^ 15 + i % 2 ^ 15) * 2 ^ 4 + e % 2 ^ 4)) =
        c % 4 := by
    intro x c r p i e
    rw [tagClass, BitVec.extractLsb'_toNat, BitVec.toNat_ofNat, Nat.shiftRight_eq_div_pow]
    omega
  exact above _ comp record pool index epoch

/-- A tag of an agent is of the class that names no command (R20). -/
theorem tagClass_internalTag (agent seq : Nat) : tagClass (internalTag agent seq) = 3 := tagClass_flowTag ..

/-- A tag of an agent names no command to retag (R18, R20). -/
theorem retag_of_internal {tag : BitVec 128} (h : tagClass tag = 3) (id : Nat) (s : State) : retag tag id s = s := if_pos h

/-- A delayed request of an agent, answered or held, touches no command (R20, R193-R195). -/
theorem askBuf_aside {tag : BitVec 128} (ht : tagClass tag = 3) (owner size : Nat) (s : State) :
    Aside s (askBuf owner size tag s).1 := by
  unfold askBuf
  split
  · next p _ =>
    show Aside s (retag tag _ (answer owner .done _ tag (takeBuf owner p s).1))
    rw [retag_of_internal ht]
    exact (takeBuf_aside owner p s).trans (bpm_aside ..)
  · unfold holdReq
    extract_lets id _ s1 s2
    have h1 : Aside s s1 := bpm_aside _ s
    exact h1.trans (bpm_aside ..)

/-- A delayed request gets a buffer or is held (R194, R195). -/
theorem askBuf_answers (owner size : Nat) (tag : BitVec 128) (s : State) :
    (askBuf owner size tag s).2.1.isSome = true ∨ (askBuf owner size tag s).2.2.isSome = true := by
  unfold askBuf
  split
  · exact .inl rfl
  · exact .inr rfl

end Sys2Proof.Machine
end

section
/-! SUPPORT. A stream closed: its lane states, its key slot and its buffers go, and no command, queue pair or dataset changes (R101,
R229, R249). -/

namespace Sys2Proof.Machine

/-- Commands that take no WRITE data and queue pairs are as they were, and what was issued stays. -/
structure QueuesKept (s t : State) : Prop where
  cmd : ∀ n c, getCmd s n = some c → (∀ w, c.stage ≠ .writing w) → getCmd t n = some c
  qp : ∀ f q, getQp t f q = getQp s f q
  out : ∃ k, t.out = k ++ s.out

theorem QueuesKept.refl (s : State) : QueuesKept s s := ⟨fun _ _ h _ => h, fun _ _ => rfl, ⟨[], rfl⟩⟩

theorem QueuesKept.trans {s t u : State} (h : QueuesKept s t) (k : QueuesKept t u) : QueuesKept s u where
  cmd n c hc hw := k.cmd n c (h.cmd n c hc hw) hw
  qp f q := (k.qp f q).trans (h.qp f q)
  out := by
    obtain ⟨a, ha⟩ := h.out
    obtain ⟨b, hb⟩ := k.out
    exact ⟨b ++ a, by rw [hb, ha, List.append_assoc]⟩

/-- What changes neither the host interface nor the outputs keeps the queues. -/
theorem QueuesKept.of_eq {s t : State} (hh : t.host = s.host) (ho : t.out = s.out) : QueuesKept s t where
  cmd n c hc _ := by rw [getCmd, hh]; exact hc
  qp f q := by simp only [getQp, getFn, hh]
  out := ⟨[], ho⟩

theorem Aside.queues {s t : State} (h : Aside s t) : QueuesKept s t := ⟨h.cmd, h.qp, h.out⟩

/-- A command's queue pair takes its completion as before. -/
theorem QueuesKept.takes {s t : State} {c : Cmd} {v : Qp} (h : QueuesKept s t) (ht : Takes s c v) : Takes t c v :=
  ht.of_qp (h.qp ..)

/-- What ends a command ends it from an earlier state too. -/
theorem QueuesKept.ends {s t u : State} {slot : Nat} {v : Qp} {p : Cpl} (h : QueuesKept s t) (he : Ends t u slot v p) :
    Ends s u slot v p := by
  obtain ⟨k, hk⟩ := h.out
  exact he.of_out hk

/-- `t` follows from `s` by work on streams, lane states, key slots and buffers: the queues are kept, and beside the host interface,
buffers, events and outputs only the packer, the streams and the keys change. -/
structure StreamsOnly (s t : State) : Prop extends QueuesKept s t where
  frame : ∃ H D A B E O P S C,
    t = { s with host := H, drawn := D, agentSeq := A, bpm := B, ev := E, out := O, pack := P, streams := S, cip := C }

theorem StreamsOnly.refl (s : State) : StreamsOnly s s := ⟨.refl s, ⟨_, _, _, _, _, _, _, _, _, rfl⟩⟩

theorem StreamsOnly.trans {s t u : State} (h : StreamsOnly s t) (k : StreamsOnly t u) : StreamsOnly s u where
  toQueuesKept := h.toQueuesKept.trans k.toQueuesKept
  frame := by
    obtain ⟨_, _, _, _, _, _, _, _, _, rfl⟩ := h.frame
    obtain ⟨_, _, _, _, _, _, _, _, _, e⟩ := k.frame
    exact ⟨_, _, _, _, _, _, _, _, _, e⟩

theorem StreamsOnly.foldl {α : Type} {s0 : State} {f : State → α → State} {l : List α} {s : State} (h : StreamsOnly s0 s)
    (hf : ∀ t a, StreamsOnly s0 t → StreamsOnly s0 (f t a)) : StreamsOnly s0 (l.foldl f s) := by
  induction l generalizing s with
  | nil => exact h
  | cons a l ih => exact ih (hf s a h)

/-- An operation on buffers that leaves commands alone. -/
theorem StreamsOnly.of_bufs {s t : State} (h : BufOnly s t) (k : Aside s t) : StreamsOnly s t where
  toQueuesKept := k.queues
  frame := by
    obtain ⟨_, _, _, _, _, _, e⟩ := h.frame
    exact ⟨_, _, _, _, _, _, _, _, _, e⟩

/-- A change of the packer, the streams and the keys themselves. -/
theorem pack_streamsOnly (P : Pack) (S : Tab Stream) (C : Cipher) (s : State) :
    StreamsOnly s { s with pack := P, streams := S, cip := C } := ⟨.of_eq rfl rfl, ⟨_, _, _, _, _, _, _, _, _, rfl⟩⟩

section
variable {s t : State} (h : StreamsOnly s t)
include h

theorem StreamsOnly.cart : t.cart = s.cart := by obtain ⟨_, _, _, _, _, _, _, _, _, rfl⟩ := h.frame; rfl
theorem StreamsOnly.wr : t.wr = s.wr := by obtain ⟨_, _, _, _, _, _, _, _, _, rfl⟩ := h.frame; rfl
theorem StreamsOnly.chans : t.chans = s.chans := by obtain ⟨_, _, _, _, _, _, _, _, _, rfl⟩ := h.frame; rfl
theorem StreamsOnly.index : t.index = s.index := by obtain ⟨_, _, _, _, _, _, _, _, _, rfl⟩ := h.frame; rfl
theorem StreamsOnly.dict : t.dict = s.dict := by obtain ⟨_, _, _, _, _, _, _, _, _, rfl⟩ := h.frame; rfl

end

theorem freeRefs_streamsOnly (refs : List WinRef) (tag : BitVec 128) (s : State) : StreamsOnly s (freeRefs refs tag s) :=
  .of_bufs (freeRefs_bufOnly ..) (freeRefs_aside ..)

/-- The lane states of a stream are dropped, and no stream changes (R229). -/
theorem dropLanes_streamsOnly (n : Nat) (s : State) : StreamsOnly s (dropLanes n s) ∧ (dropLanes n s).streams = s.streams := by
  have hkept : ∀ (u : State) (refs : List WinRef) (tag : BitVec 128), (freeRefs refs tag u).streams = u.streams :=
    fun u refs tag => (freeRefs_bufOnly refs tag u).streams
  constructor
  · refine (StreamsOnly.foldl (StreamsOnly.foldl (.of_bufs (agentTag_bufOnly ..) (agentTag_aside agStream s)) ?_) ?_).trans
      (pack_streamsOnly ..)
    · exact fun t p h => (h.trans (freeRefs_streamsOnly ..)).trans (pack_streamsOnly ..)
    · exact fun t p h => h.trans (freeRefs_streamsOnly ..)
  · refine (foldl_keeps (fun s => s.streams) (fun t p => ?_) ..).trans (foldl_keeps (fun s => s.streams) (fun t p => ?_) ..)
    · exact hkept ..
    · exact hkept ..

/-- A stream as it stands closed (R101). -/
def closedOf (x : Stream) : Stream :=
  { x with
    state := .closed, closer := none, opening := none, openBlk := none, runs := [], mustIndep := [], readOnly := false,
    noKey := false }

theorem unbindKey_streamsOnly (k : Nat) (s : State) : StreamsOnly s (unbindKey k s) := pack_streamsOnly _ _ _ s

theorem closeStream_streamsOnly (n : Nat) (s : State) : StreamsOnly s (closeStream n s) := by
  unfold closeStream
  split
  · exact .refl s
  · extract_lets s1 s2
    have h1 : StreamsOnly s s1 := (dropLanes_streamsOnly n s).1
    have h2 : StreamsOnly s s2 := by
      show StreamsOnly s (if _ then unbindKey _ s1 else s1)
      split
      · exact h1.trans (unbindKey_streamsOnly ..)
      · exact h1
    exact h2.trans (pack_streamsOnly ..)

/-- A stream that is closed keeps its numbers. -/
theorem getStream_closeStream {n : Nat} {x : Stream} {s : State} (hx : getStream s n = some x) :
    getStream (closeStream n s) n = some (closedOf x) := by
  unfold closeStream
  simp only [hx]
  refine (getStream_updStream_self ..).trans ?_
  have h1 : getStream (dropLanes n s) n = some x := (getStream_congr (dropLanes_streamsOnly n s).2 n).trans hx
  split
  · exact congrArg (Option.map _) h1
  · exact congrArg (Option.map _) h1

/-- Every stream is closed and forgotten, with the index and what waits for a header (R99). -/
theorem clearStreams_eq (s : State) : ∃ u, StreamsOnly s u ∧ clearStreams s =
    { u with streams := [], reserved := [], index := { limitMiB := s.index.limitMiB }, wr := { s.wr with queued := [] } } := by
  have h := StreamsOnly.foldl (l := s.streams.map (·.1)) (.refl s) fun t n h => h.trans (closeStream_streamsOnly n t)
  refine ⟨_, h, ?_⟩
  unfold clearStreams
  simp only [h.wr, h.index]

theorem clearStreams_queuesKept (s : State) : QueuesKept s (clearStreams s) := by
  obtain ⟨u, h, e⟩ := clearStreams_eq s
  rw [e]
  exact h.toQueuesKept.trans (.of_eq rfl rfl)

end Sys2Proof.Machine
end

section
/-! Drains: what a cut changes, the start of a drain, the closing of a dataset, and the end of FLUSH and STREAM_CLOSE (R101, R126,
R137-R141, R158, R209-R211). -/

namespace Sys2Proof.Machine

/-- `t` differs from `s` in the Record Packer and the streams alone. -/
def PackOnly (s t : State) : Prop := ∃ P S, t = { s with pack := P, streams := S }

theorem PackOnly.refl (s : State) : PackOnly s s := ⟨_, _, rfl⟩

theorem PackOnly.trans {s t u : State} (h : PackOnly s t) (k : PackOnly t u) : PackOnly s u := by
  obtain ⟨P, S, rfl⟩ := h
  obtain ⟨P', S', e⟩ := k
  exact ⟨P', S', e⟩

/-- `t` keeps the open block of every stream of `s`, and changes the Record Packer and the streams alone. -/
structure OpenKept (s t : State) : Prop where
  frame : PackOnly s t
  opened : ∀ n, (getStream t n).map (·.openBlk) = (getStream s n).map (·.openBlk)

theorem OpenKept.refl (s : State) : OpenKept s s := ⟨.refl s, fun _ => rfl⟩

theorem OpenKept.trans {s t u : State} (h : OpenKept s t) (k : OpenKept t u) : OpenKept s u :=
  ⟨h.frame.trans k.frame, fun n => (k.opened n).trans (h.opened n)⟩

/-- A change of a stream that leaves its open block. -/
theorem updStream_openKept {g : Stream → Stream} (hg : ∀ x, (g x).openBlk = x.openBlk) (n : Nat) (s : State) :
    OpenKept s (updStream n g s) := by
  refine ⟨⟨_, _, rfl⟩, fun m => ?_⟩
  by_cases hm : m = n
  · subst hm
    rw [getStream_updStream_self, Option.map_map]
    exact congrArg (Option.map · _) (funext hg)
  · rw [getStream_updStream_ne _ _ hm]

theorem setEngine_openKept (e : Nat) (v : Engine) (s : State) : OpenKept s (setEngine e v s) := ⟨⟨_, _, rfl⟩, fun _ => rfl⟩

theorem saveLane_openKept (e : Nat) (s : State) : OpenKept s (saveLane e s) := by
  unfold saveLane
  extract_lets g
  split
  · exact .refl s
  · exact ⟨⟨_, _, rfl⟩, fun _ => rfl⟩

theorem putOnEngine_openKept (e : Nat) (b : Blk) (s : State) : OpenKept s (putOnEngine e b s) :=
  (updStream_openKept (g := fun x => { x with mustIndep := x.mustIndep.filter (· != b.lane) }) (fun _ => rfl) b.stream s).trans
    ⟨⟨_, _, rfl⟩, fun _ => rfl⟩

theorem dispatch_openKept (e : Nat) (s : State) : OpenKept s (dispatch e s) := by
  unfold dispatch
  extract_lets g
  split
  · exact .refl s
  split
  · exact .refl s
  split
  · exact saveLane_openKept e s
  split
  · exact .refl s
  split
  · exact putOnEngine_openKept ..
  · exact .refl s

theorem dispatchAll_openKept (s : State) : OpenKept s (dispatchAll s) := by
  have hfold : ∀ (l : List Nat) (t : State), OpenKept t (l.foldl (fun s e => dispatch e s) t) := by
    intro l
    induction l with
    | nil => exact .refl
    | cons e l ih => exact fun t => (dispatch_openKept e t).trans (ih _)
  exact hfold ..

/-- The block cut from an open block of a stream (R209-R213). -/
def cutOf (n : Nat) (x : Stream) (o : OpenBlk) (s : State) : Blk :=
  { id := s.pack.nextBlk, stream := n, lane := x.cut % x.lanes, laneCount := x.lanes, comp := x.comp, frags := o.frags,
    independent := o.entry || decide (0 < x.entryLeft) || decide (x.comp = 3),
    entryDistance := if o.entry then 0 else x.entryBytes, src := o.src, flow := o.flow,
    key := if x.cipher then some x.keySlot else none }

/-- A stream whose open block has been cut. -/
def cutStream (x : Stream) (o : OpenBlk) : Stream :=
  { x with
    cut := x.cut + 1, openBlk := none, entryLeft := if o.entry then x.lanes - 1 else x.entryLeft - 1,
    entryBytes := (if o.entry then 0 else x.entryBytes) + contentLen o.frags }

/-- The state after a cut, before the engines take their next blocks. -/
def afterCut (n : Nat) (x : Stream) (o : OpenBlk) (s : State) : State :=
  { s with
    pack := { s.pack with blks := Tab.put s.pack.blks s.pack.nextBlk (cutOf n x o s), nextBlk := s.pack.nextBlk + 1 },
    streams := Tab.put s.streams n (cutStream x o) }

/-- An open block with a fragment is cut. -/
theorem cutBlock_of_open {n : Nat} {x : Stream} {o : OpenBlk} {s : State} (hx : getStream s n = some x) (ho : x.openBlk = some o)
    (hf : o.frags ≠ []) : cutBlock n s = dispatchAll (afterCut n x o s) := by
  have hfull : o.frags.isEmpty = false := by simpa using hf
  unfold cutBlock
  simp only [hx, ho, hfull, Bool.false_eq_true, if_false]
  rfl

/-- Where a stream has no open block with a fragment, nothing is cut. -/
theorem cutBlock_of_empty {n : Nat} {s : State} (h : ∀ x o, getStream s n = some x → x.openBlk = some o → o.frags = []) :
    cutBlock n s = s := by
  unfold cutBlock
  split
  · rfl
  next x hx =>
    split
    · rfl
    next o ho => rw [h x o hx ho]; rfl

/-- A cut leaves its stream without an open block, or with an empty one. -/
def NothingOpen (s : State) (n : Nat) : Prop := ∀ x o, getStream s n = some x → x.openBlk = some o → o.frags = []

theorem NothingOpen.of_map {s t : State} {n : Nat} (h : NothingOpen s n)
    (hmap : (getStream t n).map (·.openBlk) = (getStream s n).map (·.openBlk)) : NothingOpen t n := by
  intro x o hx ho
  rw [hx, Option.map_some, ho] at hmap
  obtain ⟨y, hy, hyo⟩ := Option.map_eq_some_iff.1 hmap.symm
  exact h y o hy hyo

/-- What a cut does to the open blocks: that of its stream is gone, the others stay. -/
theorem cutBlock_opens (n : Nat) (s : State) : PackOnly s (cutBlock n s) ∧ NothingOpen (cutBlock n s) n ∧
    ∀ m, m ≠ n → (getStream (cutBlock n s) m).map (·.openBlk) = (getStream s m).map (·.openBlk) := by
  by_cases h : NothingOpen s n
  · rw [cutBlock_of_empty h]
    exact ⟨.refl s, h, fun _ _ => rfl⟩
  · unfold NothingOpen at h
    push Not at h
    obtain ⟨x, o, hx, ho, hf⟩ := h
    rw [cutBlock_of_open hx ho hf]
    have hkept := dispatchAll_openKept (afterCut n x o s)
    refine ⟨.trans ⟨_, _, rfl⟩ hkept.frame, .of_map (s := afterCut n x o s) ?_ (hkept.opened n), fun m hm => ?_⟩
    · intro y p hy hp
      rw [getStream, afterCut, Tab.get?_put_self] at hy
      cases hy
      cases hp
    · rw [hkept.opened m, getStream, afterCut, Tab.get?_put_ne _ _ hm, getStream]

/-- The streams cut one after the other. -/
theorem cutBlocks_opens (l : List Nat) : ∀ s : State, PackOnly s (l.foldl (fun s n => cutBlock n s) s) ∧
    (∀ n, n ∈ l ∨ NothingOpen s n → NothingOpen (l.foldl (fun s n => cutBlock n s) s) n) ∧
    ∀ n, n ∉ l → (getStream (l.foldl (fun s n => cutBlock n s) s) n).map (·.openBlk) = (getStream s n).map (·.openBlk) := by
  induction l with
  | nil => exact fun s => ⟨.refl s, fun n hn => hn.resolve_left List.not_mem_nil, fun _ _ => rfl⟩
  | cons a l ih =>
    intro s
    obtain ⟨hframe, hgone, hkept⟩ := cutBlock_opens a s
    obtain ⟨iframe, igone, ikept⟩ := ih (cutBlock a s)
    refine ⟨hframe.trans iframe, fun n hn => igone n ?_, fun n hn => ?_⟩
    · by_cases hna : n = a
      · exact .inr (hna ▸ hgone)
      · exact hn.imp (fun h => (List.mem_cons.1 h).resolve_left hna) fun h => h.of_map (hkept n hna)
    · obtain ⟨hna, hnl⟩ := not_or.1 fun h => hn (List.mem_cons.2 h)
      exact (ikept n hnl).trans (hkept n hna)

section
variable {slot : Nat} {c : Cmd} {s : State} (hc : getCmd s slot = some c) (j : DrainJob)
include hc

/-- The drain of a command. -/
def drainOf (slot : Nat) (c : Cmd) (j : DrainJob) : Drain :=
  { scope := j.scope, fn := c.fn, stream := j.stream, seq := c.seq, slot := some slot }

/-- A drain starts by cutting the open blocks that it covers (R137, R141, R209). -/
theorem startDrain_cuts : ∃ u, startDrain slot c j s = failIfStopped (drainOf slot c j) (settle u) ∧
    getCmd u slot = some { c with stage := .draining j } ∧
    (∀ n, (drainOf slot c j).covers s n = true → NothingOpen u n) ∧
    (∀ n, (drainOf slot c j).covers s n = false → (getStream u n).map (·.openBlk) = (getStream s n).map (·.openBlk)) ∧
    u.cart = s.cart ∧ u.out = s.out := by
  set d := drainOf slot c j
  set s1 := setStage slot (.draining j) s with hs1
  have hset : s1 = setCmd slot { c with stage := .draining j } s := updCmd_of_getCmd hc
  have hcov : ∀ n, d.covers s1 n = d.covers s n := fun n => by rw [hset]; rfl
  set l := (s1.streams.filter fun p => d.covers s1 p.1).map (·.1)
  obtain ⟨⟨P, S, hu⟩, hgone, hkept⟩ := cutBlocks_opens l s1
  have hstr : ∀ n, getStream s1 n = getStream s n := getStream_congr (by rw [hset]; rfl)
  refine ⟨l.foldl (fun s n => cutBlock n s) s1, rfl, ?_, fun n hn => hgone n ?_, fun n hn => ?_, ?_, ?_⟩
  · rw [hu]
    exact (congrArg (getCmd · slot) hset).trans (getCmd_setCmd_self ..)
  · cases hx : getStream s1 n with
    | none => exact .inr fun x o h => by rw [hx] at h; cases h
    | some x =>
      exact .inl (List.mem_map.2 ⟨(n, x), List.mem_filter.2 ⟨Tab.mem_of_get? hx, (hcov n).trans hn⟩, rfl⟩)
  · rw [hkept n fun h => ?_, hstr]
    obtain ⟨p, hp, rfl⟩ := List.mem_map.1 h
    have := (List.mem_filter.1 hp).2
    rw [hcov, hn] at this
    cases this
  · rw [hu, hset]; rfl
  · rw [hu, hset]; rfl
end

/-- The dataset that is filling, closed: what it holds stays (R167, R302). -/
theorem closeDataset_of_filling {d : Dataset} {s : State} (hd : s.wr.filling = some d) (pad : Bool) :
    ∃ e q, closeDataset pad s =
        { s with wr := { s.wr with filling := none, closedQ := s.wr.closedQ ++ [e], queued := q } } ∧
      e.id = d.id ∧ e.state = .closed ∧ e.payload = d.payload ∧
      e.padded = (pad && decide (64 ≤ payloadArea - d.payload.length)) := by
  unfold closeDataset
  rw [hd]
  exact ⟨_, _, rfl, rfl, rfl, rfl, rfl⟩

/-- A dataset whose delay ends is closed and padded (R126, R158). -/
theorem mediumCloseDelay_closes {d : Dataset} {s : State} (hd : s.wr.filling = some d)
    (hwait : mediumIn s d ≠ [] ∨ firstQueued s = true) (hgo : s.wr.stopped = false) :
    ∃ u e, exec .mediumCloseDelay s = .next (settle u) ∧ u.wr.filling = none ∧ u.wr.closedQ = s.wr.closedQ ++ [e] ∧
      e.id = d.id ∧ e.state = .closed ∧ e.payload = d.payload ∧ e.padded = decide (64 ≤ payloadArea - d.payload.length) := by
  obtain ⟨⟨P, S, hu⟩, -, -⟩ := cutBlocks_opens (mediumIn s d) s
  have hfill : ((mediumIn s d).foldl (fun s n => cutBlock n s) s).wr = s.wr := by rw [hu]
  obtain ⟨e, q, hclosed, hid, hstate, hpay, hpad⟩ := closeDataset_of_filling (pad := true)
    ((congrArg Wr.filling hfill).trans hd)
  have hsome : ¬((mediumIn s d).isEmpty && !firstQueued s) = true := by
    rcases hwait with h | h
    · simp [h]
    · simp [h]
  refine ⟨_, e, ?_, congrArg (·.wr.filling) hclosed, ?_, hid, hstate, hpay, hpad⟩
  · rw [exec_mediumCloseDelay, execMediumCloseDelay, hd]
    simp only [if_neg hsome, hgo, Bool.false_eq_true, if_false]
  · rw [hclosed, hfill]

section
variable {slot : SlotId} {c : Cmd} {j : DrainJob} {v : Qp} {s : State} (hc : getCmd s slot.val = some c)
  (hj : c.stage = .draining j) (hdata : j.dataDone = false) (hgone : tapeGone s = false) (hgo : s.wr.stopped = false)
  (hw : (drainOf slot.val c j).writesLeft s = false) (hb : (drainOf slot.val c j).bytesLeft s = false)
include hc hj hdata hgone hgo hw hb

/-- While the tape is in use and writing goes on, the row of a drain with nothing left is the end of its command. -/
theorem drainComplete_ends_flush (hop : eOpcode c.entry = opFlush) :
    exec (.drainComplete slot) s = .next (flushDone slot.val c j s) := by
  have hfail : failIfStopped (drainOf slot.val c j) s = s := by simp [failIfStopped, hgone, hgo]
  unfold drainOf at hfail hw hb
  rw [exec_drainComplete, execDrainComplete, hc]
  simp only [hj, hfail]
  simp [hdata, hw, hb, hop]

theorem drainComplete_ends_close (hop : eOpcode c.entry = opStreamClose) (hr : (drainOf slot.val c j).readsLeft s = false) :
    exec (.drainComplete slot) s = .next (closeDone slot.val j (drainOf slot.val c j) s) := by
  have hfail : failIfStopped (drainOf slot.val c j) s = s := by simp [failIfStopped, hgone, hgo]
  have hne : opStreamClose ≠ opFlush := by decide
  unfold drainOf at hfail hw hb hr ⊢
  rw [exec_drainComplete, execDrainComplete, hc]
  simp only [hj, hfail]
  simp [hdata, hw, hb, hr, hop, hne]

end

/-- A FLUSH whose data has left ends with the error of the first failed dataset, else with SUCCESS (R137, R139). -/
theorem endFlush_ends {slot : Nat} {c : Cmd} {j : DrainJob} {v : Qp} {s : State} (hc : getCmd s slot = some c)
    (hs : c.stage ≠ .held) (ht : Takes s c v) :
    Ends s (endFlush slot c j true s) slot v { baseCpl c ((drainOf slot c j).status s) with
      specific := BitVec.ofNat 96 (packLsb [(32, j.closed), (32, j.padded)]) } := by
  have hok : (((drainOf slot c j).error s).isNone && !true) = false := by simp
  unfold drainOf at hok ⊢
  unfold endFlush
  simp only [hok, Bool.false_eq_true, if_false]
  exact (complete_ends hc hs ht _ _).1

/-- A STREAM_CLOSE whose drain is over closes its stream and answers its next record (R101, R120). -/
theorem closeDone_ends {slot : Nat} {c : Cmd} {j : DrainJob} {d : Drain} {x : Stream} {v : Qp} {s : State}
    (hc : getCmd s slot = some c) (hj : c.stage = .draining j) (ht : Takes s c v) (hx : getStream s j.stream = some x) :
    getStream (closeDone slot j d s) j.stream = some (closedOf x) ∧
      Ends s (closeDone slot j d s) slot v { baseCpl c (d.status s) with
        specific := BitVec.ofNat 96 (packLsb [(48, x.next)]) } := by
  have hclose := closeStream_streamsOnly j.stream s
  have hs : c.stage ≠ .held := by rw [hj]; exact Stage.noConfusion
  have hc1 : getCmd (closeStream j.stream s) slot = some c :=
    hclose.cmd _ _ hc fun w hw => by rw [hj] at hw; cases hw
  unfold closeDone
  simp only [hx, Option.map_some, Option.getD_some]
  obtain ⟨hends, hstr⟩ := complete_ends hc1 hs (hclose.takes ht)
    (fun c => { baseCpl c (d.status s) with specific := BitVec.ofNat 96 (packLsb [(48, x.next)]) }) (d.errInfo s)
  exact ⟨(getStream_congr hstr _).trans (getStream_closeStream hx), hclose.toQueuesKept.ends hends⟩

/-- Settles O33: the start of a drain by its cuts, a dataset by its delay, the end of a drain by its command. -/
theorem drainsCloseAndComplete : Obligations.DrainsCloseAndComplete := by
  unfold Obligations.DrainsCloseAndComplete
  refine ⟨?_, ?_, fun d s => mediumCloseDelay_closes, ?_⟩
  · rintro slot c s j i hrow d
    have hcall : exec i s = .next (startDrain slot.val c j s) ∧ getCmd s slot.val = some c := by
      rcases hrow with ⟨rfl, h, rfl⟩ | ⟨rfl, h, rfl, x, hx, hcloser⟩
      · exact ⟨by rw [exec_flush, execFlush, onCmd_of_started h (by simp)], h.cmd⟩
      · refine ⟨?_, h.cmd⟩
        rw [exec_streamClose, execStreamClose, onCmd_of_started h (by simp), hx]
        simp only [hcloser, if_true]
    obtain ⟨u, hstart, hcmd, hgone, hkept, -, hout⟩ := startDrain_cuts hcall.2 j
    exact ⟨u, hcall.1.trans (congrArg _ hstart), hcmd, fun n y o hn hy ho => hgone n hn y o hy ho, hkept, hout⟩
  · intro n x o s hx ho hf
    refine ⟨afterCut n.val x o s, cutOf n.val x o s, cutStream x o, ?_, Tab.get?_put_self .., rfl, rfl, rfl, rfl, rfl, rfl, rfl,
      rfl, Tab.get?_put_self .., rfl, rfl, rfl⟩
    rw [exec_packerIdleClose, execPackerIdleClose, cutBlock_of_open hx ho hf]
  · intro slot c j v s hc hj hdata hgone hgo ht d hw hb
    have hs : c.stage ≠ .held := by rw [hj]; exact Stage.noConfusion
    refine ⟨fun hop hsync => ?_, fun x hop hr hx => ?_⟩
    · refine ⟨_, drainComplete_ends_flush hc hj hdata hgone hgo hw hb hop, ?_⟩
      rw [flushDone, hsync]
      exact endFlush_ends hc hs ht
    · obtain ⟨hy, hends⟩ := closeDone_ends (d := d) hc hj ht hx
      exact ⟨_, _, drainComplete_ends_close hc hj hdata hgone hgo hw hb hop hr, hy, rfl, rfl, rfl, rfl, hends⟩

end Sys2Proof.Machine
end

section
/-! The cartridge unloaded and formatted: a change of the cartridge state that waits for a completion, what the device forgets with a
cartridge, and the start of a checkpoint copy (R99, R117, R141, R168, R170, R304, R305, R469). -/

namespace Sys2Proof.Machine

/-! A completion whose posting changes the cartridge state (R99). -/

theorem enterCart_of_other {now : CartState} (h1 : now ≠ .ready) (h2 : now ≠ .readOnly) (s : State) :
    enterCart now s = { s with cart := { s.cart with state := now } } := by
  simp [enterCart, h1, h2]

/-- The change of the cartridge state looks at nothing that a completion writes. -/
theorem enterCart_with (now : CartState) (H : HostIf) (O : List Out) (s : State) :
    enterCart now { s with host := H, out := O } = { enterCart now s with host := H, out := O } := by
  unfold enterCart
  split
  · rfl
  · split <;> rfl

/-- The slot of a command released, on whose posting the cartridge state waits. -/
theorem dropCmd_cart {n : Nat} {c : Cmd} {was now : CartState} {s u : State} (hc : getCmd u n = some c)
    (hp : c.post = [.cart was now]) (hk : c.fnEnded = false) (hwas : s.cart.state = was)
    (hu : ∃ H O, u = { s with host := H, out := O }) : ∃ H O, dropCmd n u = { enterCart now s with host := H, out := O } := by
  obtain ⟨H, O, rfl⟩ := hu
  have happly : (PostAct.cart was now).apply { s with host := { H with cmds := Tab.del H.cmds n }, out := O } =
      { enterCart now s with host := { H with cmds := Tab.del H.cmds n }, out := O } := by
    rw [← enterCart_with]
    exact if_pos hwas
  obtain ⟨F, O', hcheck⟩ := shutdownCheck_fnsOut c.fn
    { enterCart now s with host := { H with cmds := Tab.del H.cmds n }, out := O }
  exact ⟨_, O', (dropCmd_of_post hc hp hk).trans ((congrArg (shutdownCheck c.fn) happly).trans hcheck)⟩

/-- A command of whose completion the cartridge state waits ends, and the cartridge enters that state. -/
theorem complete_onPost_cart {s : State} {slot : Nat} {c : Cmd} {v : Qp} {was : CartState} (hc : getCmd s slot = some c)
    (hs : c.stage ≠ .held) (ht : Takes s c v) (hwas : s.cart.state = was) (now : CartState) (p : Cmd → Cpl) (e : ErrInfo) :
    Ends s (complete slot p e (onPost slot (.cart was now) s)) slot v (p { c with post := [.cart was now] }) ∧
      ∃ H O, complete slot p e (onPost slot (.cart was now) s) = { enterCart now s with host := H, out := O } := by
  set c' : Cmd := { c with post := [.cart was now] }
  have hpost : onPost slot (.cart was now) s = setCmd slot c' s := by
    rw [onPost, updCmd_of_getCmd hc, ht.plain, List.nil_append]
  have hc' : getCmd (setCmd slot c' s) slot = some c' := getCmd_setCmd_self ..
  have hnow : TakesNow (setCmd slot c' s) c' v :=
    { live := ht.live, qp := ht.qp, epoch := ht.epoch, held := ht.held, writes := ht.writes, room := ht.room }
  rw [hpost, complete_of_takesNow hc' hs hnow]
  obtain ⟨n, k, o, b, herr⟩ := errored_keeps c' (p c') e (setCmd slot c' s).time v
  set w := errored c' (p c') e (setCmd slot c' s).time v
  set u := writeCpl c'.fn c'.qp ⟨some slot, some c', p c'⟩ w (setQp c'.fn c'.qp w (setCmd slot c' s)) with hu
  obtain ⟨l, hl, hout⟩ := writeCpl_out c'.fn c'.qp ⟨some slot, some c', p c'⟩ w (setQp c'.fn c'.qp w (setCmd slot c' s))
  have hsame : FnsOut (setCmd slot c' s) u := (setQp_fnsOut ..).trans (writeCpl_fnsOut ..)
  have hcu : getCmd u slot = some c' := by rw [getCmd, hsame.cmds]; exact hc'
  refine ⟨⟨⟨l, [], hl, ?_⟩, getCmd_dropCmd_self ..⟩, dropCmd_cart hcu rfl ht.kept hwas ?_⟩
  · rw [dropCmd_out, hu, hout, herr]
    rfl
  · obtain ⟨F, O, e⟩ := hsame
    exact ⟨_, O, e⟩

/-! What goes with a cartridge. -/

theorem sendAsl_eq (addr ftype : Nat) (value : Int) (s : State) :
    ∃ T k, sendAsl addr ftype value s = { s with tce := T, out := k ++ s.out } := ⟨_, [_], rfl⟩

theorem sendAll_eq (ftype : Nat) (addrs : List Nat) : ∀ s : State,
    ∃ T k, sendAll ftype addrs s = { s with tce := T, out := k ++ s.out } := by
  induction addrs with
  | nil => exact fun s => ⟨s.tce, [], rfl⟩
  | cons a l ih =>
    intro s
    obtain ⟨T, k, h⟩ := sendAsl_eq a ftype 0 s
    obtain ⟨T', k', h'⟩ := ih (sendAsl a ftype 0 s)
    refine ⟨T', k' ++ k, ?_⟩
    show sendAll ftype l (sendAsl a ftype 0 s) = _
    rw [h', h, List.append_assoc]

/-- The stages disabled are frames sent and the transport's own state (R467). -/
theorem transportOff_eq (s : State) : ∃ T k, transportOff s = { s with tce := T, out := k ++ s.out } := by
  unfold transportOff
  split
  · unfold disableStages
    obtain ⟨T, k, h⟩ := sendAll_eq 2 [3, 2, 0, 1] { s with tce := { s.tce with state := .off, made := [] } }
    rw [h]
    exact ⟨_, k, rfl⟩
  · exact ⟨s.tce, [], rfl⟩

/-- A checkpoint dropped gives its buffer back, or its request. -/
theorem dropCkpt_bufs (s : State) : BufOnly { s with wr := { s.wr with ckpt := none } } (dropCkpt s) ∧
    QueuesKept s (dropCkpt s) := by
  set t : State := { s with wr := { s.wr with ckpt := none } } with ht
  have hst : QueuesKept s t := .of_eq rfl rfl
  unfold dropCkpt
  split
  next j hj =>
    exact ⟨(freeOpt_bufOnly j.buf j.flow t).trans (dropHeld_bufOnly ..),
      hst.trans ((freeOpt_aside j.buf j.flow t).trans (dropHeld_aside ..)).queues⟩
  next h =>
    have hs : t = s := by rw [ht, ← h]
    rw [hs]
    exact ⟨.refl s, .refl s⟩

/-- What was read is forgotten and its buffers are free (R176). -/
theorem clearReads_bufs (s : State) : ∃ u, BufOnly s u ∧ Aside s u ∧ clearReads s =
    { u with rd := { u.rd with queue := [], collecting := false, batch := false, urgent := none, cur := none, last := 0, seen := [],
                               gaps := [], headless := [], blks := [], tails := [] } } := by
  unfold clearReads
  extract_lets s1 s2
  have b1 : BufOnly s s1 := .foldl (.refl s) fun t b h => h.trans (freeTape_bufOnly t b)
  have a1 : Aside s s1 := .foldl (.refl s) fun t b h => h.trans (freeTape_aside t b)
  refine ⟨s2, ?_, ?_, rfl⟩
  · show BufOnly s (match s1.rd.cur with | some d => dropHeld d.bufReq (freeOpt d.buf d.flow s1) | none => s1)
    split
    · exact b1.trans ((freeOpt_bufOnly ..).trans (dropHeld_bufOnly ..))
    · exact b1
  · show Aside s (match s1.rd.cur with | some d => dropHeld d.bufReq (freeOpt d.buf d.flow s1) | none => s1)
    split
    · exact a1.trans ((freeOpt_aside ..).trans (dropHeld_aside ..))
    · exact a1

/-- What the device holds of a cartridge goes with it (R99). -/
theorem clearCart_forgets (state : CartState) (s : State) : QueuesKept s (clearCart state s) ∧
    (clearCart state s).cart = { state := state } ∧ (clearCart state s).streams = [] ∧ (clearCart state s).index.extents = [] ∧
    (clearCart state s).index.moths = [] ∧ (clearCart state s).rd.blks = [] := by
  unfold clearCart
  extract_lets s1 s2
  obtain ⟨u, -, hclear⟩ := clearStreams_eq s
  obtain ⟨hb1, hq1⟩ := dropCkpt_bufs (clearStreams s)
  have hq2 : QueuesKept s1 s2 := by
    show QueuesKept s1 (match s1.wr.filling with | some d => freeOpt d.buf d.flow s1 | none => s1)
    split
    · exact (freeOpt_aside ..).queues
    · exact .refl s1
  have hb2 : BufOnly s1 s2 := by
    show BufOnly s1 (match s1.wr.filling with | some d => freeOpt d.buf d.flow s1 | none => s1)
    split
    · exact freeOpt_bufOnly ..
    · exact .refl s1
  have hstr : s2.streams = [] := by rw [hb2.streams, hb1.streams, hclear]
  have hidx : s2.index = { limitMiB := s.index.limitMiB } := by rw [hb2.index, hb1.index, hclear]
  set s3 : State := { s2 with
    cart := { state := state }, wr := { s2.wr with filling := none, ckptDue := false, sinceCkpt := 0, lastCommit := 0 } }
  obtain ⟨t, hb, ha, e⟩ := clearReads_bufs s3
  rw [e]
  have hq3 : QueuesKept s2 s3 := .of_eq rfl rfl
  refine ⟨?_, hb.cart, hb.streams.trans hstr, ?_, ?_, rfl⟩
  · exact (((clearStreams_queuesKept s).trans hq1).trans (hq2.trans hq3)).trans (ha.queues.trans (.of_eq rfl rfl))
  · exact (congrArg Index.extents hb.index).trans (congrArg Index.extents hidx)
  · exact (congrArg Index.moths hb.index).trans (congrArg Index.moths hidx)

section
variable {slot : Nat} {c : Cmd} {v : Qp} {s : State} (hthread : s.cart.unthreading = true) (hun : s.cart.unload = some slot)
  (hload : s.cart.load = none) (hc : getCmd s slot = some c) (hw : c.stage = .waiting) (ht : Takes s c v)
include hthread hun hload hc hw ht

/-- The tape is off the reels: the cartridge is PRESENT and its recording is forgotten (R99, R469). -/
theorem unthreadDone_present (hf : s.cart.unloadFaulted = false) : ∃ t, exec (.unthreadDone true) s = .next t ∧
    t.cart = { state := .present } ∧ t.streams = [] ∧ t.index.extents = [] ∧ t.index.moths = [] ∧ t.rd.blks = [] ∧
    Ends s t slot v (baseCpl c .success) := by
  obtain ⟨T, k, hoff⟩ := transportOff_eq s
  have hq0 : QueuesKept s (transportOff s) := by
    rw [hoff]
    exact ⟨fun _ _ h _ => h, fun _ _ => rfl, ⟨k, rfl⟩⟩
  obtain ⟨hq1, hcart, hstr, hext, hmoth, hblk⟩ := clearCart_forgets s.cart.state (transportOff s)
  set u := clearCart s.cart.state (transportOff s)
  have hq := hq0.trans hq1
  have hcu : getCmd u slot = some c := hq.cmd _ _ hc fun w h => by rw [hw] at h; cases h
  obtain ⟨hends, H, O, he⟩ := complete_onPost_cart hcu (by rw [hw]; exact Stage.noConfusion) (hq.takes ht)
    (congrArg Cart.state hcart) .present (fun c => baseCpl c .success) { block := 0 }
  refine ⟨_, ?_, ?_, ?_, ?_, ?_, ?_, hq.ends hends⟩
  · rw [exec_unthreadDone, execUnthreadDone]
    simp [hthread, hf, hload, hun, finish, u]
  all_goals rw [he, enterCart_of_other (by decide) (by decide)]
  · exact congrArg (fun x : Cart => { x with state := .present }) hcart
  · exact hstr
  · exact hext
  · exact hmoth
  · exact hblk

/-- A rewind that fails leaves the cartridge FAULTED, with its streams (R99, R469). -/
theorem unthreadDone_faulted : ∃ t, exec (.unthreadDone false) s = .next t ∧ t.cart.state = .faulted ∧ t.cart.unload = none ∧
    t.streams = s.streams ∧ Ends s t slot v (baseCpl c .transportFault) := by
  set u : State := { s with cart := { s.cart with load := none, unload := none, unthreading := false } }
  obtain ⟨hends, H, O, he⟩ := complete_onPost_cart (s := u) hc (by rw [hw]; exact Stage.noConfusion) (ht.of_qp rfl)
    rfl .faulted (fun c => baseCpl c .transportFault) { block := bTce }
  refine ⟨_, ?_, ?_, ?_, ?_, hends.of_out (s := s) (k := []) rfl⟩
  · rw [exec_unthreadDone, execUnthreadDone]
    simp [hthread, hload, hun, finish, u]
  all_goals rw [he, enterCart_of_other (by decide) (by decide)]

end

/-! The start of a checkpoint copy. -/

/-- Whether writing is allowed depends on the channels and the dictionary (R411). -/
theorem writeAllowed_congr {s t : State} (hc : t.chans = s.chans) (hd : t.dict = s.dict) : writeAllowed t = writeAllowed s := by
  unfold writeAllowed failedMembers
  rw [hc, param_of_dict hd]

/-- The next dataset of a copy has a buffer or waits for one (R193, R195). -/
theorem askCkpt_asks (j : CkptJob) (s : State) : ∃ u b q f, BufOnly s u ∧ Aside s u ∧ (b.isSome = true ∨ q.isSome = true) ∧
    askCkpt j s = { u with wr := { u.wr with ckpt := some { j with buf := b, bufReq := q, flow := f } } } := by
  have hasked := askBuf_answers 0x30 25165824 (agentTag agStream s).1 (agentTag agStream s).2
  exact ⟨_, _, _, _, (agentTag_bufOnly ..).trans (askBuf_bufOnly ..),
    (agentTag_aside ..).trans (askBuf_aside (tagClass_internalTag ..) ..), hasked, rfl⟩

/-- A copy A begins at the start of its wrap where nothing has been written, with a buffer or a request for one (R170). -/
theorem startCopy_from_start {j : CkptJob} {s : State} (hA : j.copyB = false) (hpos : s.cart.posA = 0) :
    ∃ u k, BufOnly s u ∧ Aside s u ∧ startCopy j s = { u with wr := { u.wr with ckpt := some k } } ∧ k.seq = j.seq ∧
      k.endDataset = j.endDataset ∧ k.copyB = false ∧ k.pos = 0 ∧ k.parts = j.parts ∧ k.made = 0 ∧
      (k.buf.isSome = true ∨ k.bufReq.isSome = true) := by
  have hstart : ckptPos s (if j.copyB then s.cart.posB else s.cart.posA) j.parts = 0 := by simp [ckptPos, hA, hpos]
  obtain ⟨u, b, q, f, hb, ha, hbuf, e⟩ := askCkpt_asks
    { j with pos := ckptPos s (if j.copyB then s.cart.posB else s.cart.posA) j.parts, made := 0, failed := false, written := false } s
  exact ⟨u, _, hb, ha, e, rfl, rfl, hA, hstart, rfl, rfl, hbuf⟩

/-- The first checkpoint of a cartridge without streams or index begins with its copy A at grid position 0, in one dataset (R117, R168,
R170, R304). -/
theorem beginCkpt_of_blank {s : State} (hstr : s.streams = []) (hext : s.index.extents = []) (hrel : s.index.relocs = [])
    (hmoth : s.index.moths = []) (hgrid : 2 ≤ s.cart.grid) (hpos : s.cart.posA = 0) (hallowed : writeAllowed s = true)
    (seq : Nat) (endDataset : Option Nat) (clean : Bool) :
    ∃ j, QueuesKept s (beginCkpt seq endDataset clean s) ∧ (beginCkpt seq endDataset clean s).streams = s.streams ∧
      (beginCkpt seq endDataset clean s).index = s.index ∧ (beginCkpt seq endDataset clean s).cart = s.cart ∧
      (beginCkpt seq endDataset clean s).wr.ckpt = some j ∧ j.seq = seq ∧ j.endDataset = endDataset ∧ j.copyB = false ∧
      j.pos = 0 ∧ j.parts = 1 ∧ j.made = 0 ∧ (j.buf.isSome = true ∨ j.bufReq.isSome = true) := by
  have hentries : ckptEntries clean s = [] := by simp [ckptEntries, hstr, hext, hrel, hmoth]
  have hparts : ckptParts (ckptEntries clean s).length = 1 := by rw [hentries]; decide
  unfold beginCkpt
  extract_lets waits parts j _ s1
  have hsame : QueuesKept s s1 := .of_eq rfl rfl
  have hgo : ¬(s1.cart.grid < parts + 1 || !writeAllowed s1) = true := by
    have hw : writeAllowed s1 = true := (writeAllowed_congr (s := s) rfl rfl).trans hallowed
    have hone : parts = 1 := hparts
    have hg : ¬ s1.cart.grid < parts + 1 := by rw [hone]; exact Nat.not_lt.2 hgrid
    simp [hw, hg]
  rw [if_neg hgo]
  obtain ⟨u, k, hb, ha, e, hseq, hend, hA, hk, hp, hm, hbuf⟩ := startCopy_from_start (j := j) (s := s1) rfl hpos
  rw [e]
  exact ⟨k, hsame.trans (ha.queues.trans (.of_eq rfl rfl)), hb.streams, hb.index, hb.cart, rfl, hseq, hend, hA, hk,
    hp.trans hparts, hm, hbuf⟩

/-- CARTRIDGE_FORMAT with nothing of the old recording under way: it is forgotten, and the first checkpoint begins (R117, R305). -/
theorem cartridgeFormat_begins {slot : SlotId} {c : Cmd} {s : State} (h : Started s slot.val opCartFormat c)
    (hstate : s.cart.state ≠ .faulted) (hpass : s.wr.pass = false) (hckpt : s.wr.ckpt = none) (hfill : s.wr.filling = none)
    (hclosed : s.wr.closedQ = []) (hcreate : createWaits s = false) (hallowed : writeAllowed s = true) (hgrid : 2 ≤ s.cart.grid) :
    ∃ t j, exec (.cartridgeFormat slot) s = .next t ∧ t.streams = [] ∧ t.index.extents = [] ∧ t.cart.next = 0 ∧
      t.cart.label = eLabel c.entry ∧ t.cart.format = some slot.val ∧ t.wr.ckpt = some j ∧ j.seq = 1 ∧ j.endDataset = none ∧
      j.copyB = false ∧ j.pos = 0 ∧ j.parts = 1 ∧ j.made = 0 ∧ (j.buf.isSome = true ∨ j.bufReq.isSome = true) ∧
      getCmd t slot.val = some { c with stage := .waiting } := by
  obtain ⟨u, hu, hclear⟩ := clearStreams_eq s
  set s1 := clearStreams s
  set s2 : State := { s1 with
    cart := { s1.cart with formatId := (Config.random s1.drawn).extractLsb' 0 64, label := eLabel c.entry, next := 0,
                           ckptSeq := 0, ckptEnd := none, posA := 0, posB := 0, format := some slot.val },
    drawn := s1.drawn + 1, cip := { s1.cip with drbgRequests := s1.cip.drbgRequests + 1 } } with hs2
  have hc1 : getCmd s1 slot.val = some c :=
    (clearStreams_queuesKept s).cmd _ _ h.cmd fun w hw => by rw [h.stage] at hw; cases hw
  have hstage : setStage slot.val .waiting s2 = setCmd slot.val { c with stage := .waiting } s2 := updCmd_of_getCmd hc1
  have hcall : exec (.cartridgeFormat slot) s = .next (beginCkpt 1 none false (setStage slot.val .waiting s2)) := by
    rw [exec_cartridgeFormat, execCartridgeFormat, onCmd_of_started h (by simp)]
    simp [hstate, hpass, hckpt, hfill, hclosed, hcreate, hs2, s1]
  rw [hstage] at hcall
  set s3 := setCmd slot.val { c with stage := .waiting } s2
  have hstr : s3.streams = [] := congrArg State.streams hclear
  have hidx : s3.index = { limitMiB := s.index.limitMiB } := congrArg State.index hclear
  have hgrid3 : s3.cart.grid = s.cart.grid := by
    show s1.cart.grid = _
    rw [hclear]
    exact congrArg Cart.grid hu.cart
  have hallowed3 : writeAllowed s3 = true := by
    refine (writeAllowed_congr ?_ ?_).trans hallowed
    · show s1.chans = _
      rw [hclear]
      exact hu.chans
    · show s1.dict = _
      rw [hclear]
      exact hu.dict
  obtain ⟨j, hq, hkstr, hkidx, hkcart, hj, hrest⟩ := beginCkpt_of_blank hstr (by rw [hidx]) (by rw [hidx]) (by rw [hidx])
    (hgrid3 ▸ hgrid) rfl hallowed3 1 none false
  obtain ⟨hseq, hend, hA, hpos, hparts, hmade, hbuf⟩ := hrest
  refine ⟨_, j, hcall, hkstr.trans hstr, by rw [hkidx, hidx], by rw [hkcart]; rfl, by rw [hkcart]; rfl, by rw [hkcart]; rfl, hj,
    hseq, hend, hA, hpos, hparts, hmade, hbuf, hq.cmd _ _ (getCmd_setCmd_self ..) fun w hw => by cases hw⟩

/-- CARTRIDGE_UNLOAD starts a drain of everything (R99, R117, R141). -/
theorem cartridgeUnload_drains {slot : SlotId} {c : Cmd} {s : State} (h : Started s slot.val opCartUnload c)
    (hstate : s.cart.state = .unloading) (hf : s.cart.unloadFaulted = false) :
    ∃ u, exec (.cartridgeUnload slot) s = .next (failIfStopped (drainOf slot.val c { scope := 2 }) (settle u)) ∧
      getCmd u slot.val = some { c with stage := .draining { scope := 2 } } ∧
      u.cart = { s.cart with unload := some slot.val } ∧ u.out = s.out := by
  have hrow : exec (.cartridgeUnload slot) s =
      .next (startDrain slot.val c { scope := 2 } { s with cart := { s.cart with unload := some slot.val } }) := by
    rw [exec_cartridgeUnload, execCartridgeUnload, onCmd_of_started h (by simp)]
    simp [hstate, hf]
  rw [hrow]
  generalize hs1 : { s with cart := { s.cart with unload := some slot.val } } = s1
  have hc1 : getCmd s1 slot.val = some c := hs1 ▸ h.cmd
  obtain ⟨u, hstart, hcmd, -, -, hcart, hout⟩ := startDrain_cuts hc1 { scope := 2 }
  exact ⟨u, congrArg _ hstart, hcmd, hcart.trans (hs1 ▸ rfl), hout.trans (hs1 ▸ rfl)⟩

/-- Settles O42: the unload starts a drain, UNTHREAD_DONE by how the rewind ended, the format by its first checkpoint. -/
theorem unloadAndFormatEndRecordings : Obligations.UnloadAndFormatEndRecordings := by
  unfold Obligations.UnloadAndFormatEndRecordings
  refine ⟨fun slot c s h hstate hf => ?_, fun slot c v s hthread hun hload hf hc hw ht => ?_,
    fun slot c s => cartridgeFormat_begins⟩
  · exact cartridgeUnload_drains h hstate hf
  · exact ⟨unthreadDone_present hthread hun hload hc hw ht hf, unthreadDone_faulted hthread hun hload hc hw ht⟩

end Sys2Proof.Machine
end

section
/-! A cartridge loaded: the index region, the scan of the datasets after the checkpoint, the tail's journal, and the end of the load
(R99, R116, R173, R174, R280, R304, R305, R309, R414, R433, R437). -/

namespace Sys2Proof.Machine

/-! The index as its entries are taken. -/

theorem Tab.length_put_le {α : Type} (t : Tab α) (i : Nat) (v : α) : (Tab.put t i v).length ≤ t.length + 1 := by
  induction t with
  | nil => exact le_refl _
  | cons p t ih =>
    obtain ⟨k, w⟩ := p
    simp only [Tab.put]
    split
    · exact le_refl _
    · split
      · exact Nat.le_succ _
      · exact Nat.succ_le_succ ih

theorem Tab.length_upd {α : Type} (t : Tab α) (i : Nat) (f : α → α) : (Tab.upd t i f).length = t.length := by
  induction t with
  | nil => rfl
  | cons p t ih =>
    obtain ⟨k, w⟩ := p
    simp only [Tab.upd]
    split
    · rfl
    · exact congrArg (· + 1) ih

/-- The extent that an index entry holds (R165). -/
def extentIn : IndexEntry → Option Extent
  | .extent x => some x
  | _ => none

/-- What counts against `IndexMemory` (R174). -/
def indexSize (p : LoadJob × Index) : Nat :=
  p.2.extents.length + p.2.relocs.length + p.2.moths.length + p.1.streams.length

/-- `q` follows from `p` by taking index entries with these extents: beside them, streams, relocations and moth-holes all stays. -/
def Indexed (l : List Extent) (p q : LoadJob × Index) : Prop := ∃ S R M,
  q = ({ p.1 with streams := S }, { p.2 with extents := p.2.extents ++ l, relocs := R, moths := M })

/-- One entry counts for one at most. -/
theorem loadEntry_indexed (n : Nat) (p : LoadJob × Index) (e : IndexEntry) :
    Indexed (extentIn e).toList p (loadEntry n p e) ∧ indexSize (loadEntry n p e) ≤ indexSize p + 1 := by
  cases e with
  | extent x => exact ⟨⟨_, _, _, rfl⟩, by simp [loadEntry, indexSize]; omega⟩
  | reloc x => exact ⟨⟨_, p.2.relocs ++ [x], p.2.moths, by simp [loadEntry, extentIn]; rfl⟩, by simp [loadEntry, indexSize]; omega⟩
  | moth x => exact ⟨⟨_, p.2.relocs, p.2.moths ++ [x], by simp [loadEntry, extentIn]; rfl⟩, by simp [loadEntry, indexSize]; omega⟩
  | stream x => exact ⟨⟨_, p.2.relocs, p.2.moths, by simp [loadEntry, extentIn]; rfl⟩, Nat.add_le_add_left (Tab.length_put_le ..) _⟩
  | padding => exact ⟨⟨_, p.2.relocs, p.2.moths, by simp [loadEntry, extentIn]; rfl⟩, Nat.le_succ _⟩

/-- The entries of a dataset or checkpoint: their extents follow in order (R173). -/
theorem foldl_loadEntry_indexed (n : Nat) (es : List IndexEntry) : ∀ p : LoadJob × Index,
    Indexed (es.filterMap extentIn) p (es.foldl (loadEntry n) p) ∧
      indexSize (es.foldl (loadEntry n) p) ≤ indexSize p + es.length := by
  induction es with
  | nil => exact fun p => ⟨⟨p.1.streams, p.2.relocs, p.2.moths, by simp⟩, le_refl _⟩
  | cons e es ih =>
    intro p
    obtain ⟨⟨S, R, M, h1⟩, hn1⟩ := loadEntry_indexed n p e
    obtain ⟨⟨S', R', M', h2⟩, hn2⟩ := ih (loadEntry n p e)
    refine ⟨⟨S', R', M', ?_⟩, ?_⟩
    · refine h2.trans ?_
      have hl : (e :: es).filterMap extentIn = (extentIn e).toList ++ es.filterMap extentIn := by cases e <;> rfl
      rw [h1, hl, ← List.append_assoc]
    · have : indexSize (es.foldl (loadEntry n) (loadEntry n p e)) ≤ indexSize p + (es.length + 1) := by omega
      exact this

/-- What a load reads moves under a tag of its own, and nothing else changes (R18, R20). -/
theorem loadTag_eq (j : LoadJob) (s : State) : ∃ f A, loadTag j s =
    ({ j with flow := f }, { s with agentSeq := A, cart := { s.cart with load := some { j with flow := f } } }) := ⟨_, _, rfl⟩

/-- A load goes on at its step unless it was refused (R99). -/
theorem load_goes_on {j : LoadJob} {s : State} {n : Nat} (hstate : s.cart.state = .loading) (hstep : j.step = n)
    (hfail : j.fail = none) : ¬(decide (s.cart.state ≠ .loading) || decide (j.step ≠ n) || j.fail.isSome) = true := by
  simp [hstate, hstep, hfail]

/-! A load refused. -/

/-- A refused load unthreads the tape (R99, R174, R280). -/
theorem refuseLoad_cart (j : LoadJob) (st : Status) (s : State) : (refuseLoad j st s).cart =
    { s.cart with load := some { j with fail := some st }, unthreading := true } := by
  obtain ⟨u, hu, h⟩ := clearStreams_eq s
  unfold refuseLoad
  simp only [h, hu.cart]

/-! LOAD_INDEX_READ. -/

/-- The manufacture data are in force, and the index is empty (R174, R280). -/
def manufactureTaken (m : Manufacture) (s : State) : State :=
  let s := takeEqTarget s
  { s with cart := { s.cart with wraps := m.wraps, lposB := 144 * m.beginZone, lposE := 144 * m.endZone,
                                 grid := gridPositions (144 * m.beginZone) (144 * m.endZone) },
           index := { limitMiB := param s 0x3010 8 } }

/-- The number after the last dataset that a checkpoint covers (R168, R173). -/
def afterEnd (e : Option Nat) : Nat := match e with | some n => n + 1 | none => 0

section
variable {region : List HeaderRead} {h0 h1 : Option (List Byte)} {copies : List Checkpoint} {m : Manufacture} {j : LoadJob}
  {s : State} (hload : s.cart.load = some j) (hstate : s.cart.state = .loading) (hstep : j.step = 0) (hfail : j.fail = none)
  (hman : manufacture s = some m)
include hload hstate hstep hfail hman

theorem loadIndexRead_refuses (hr : manufactureRefused m = true) : ∃ t k, exec (.loadIndexRead region h0 h1 copies) s = .next t ∧
    t.cart.unthreading = true ∧ t.cart.load = some k ∧ k.fail = some .mediumError ∧ t.cart.state = .loading := by
  have hrow : exec (.loadIndexRead region h0 h1 copies) s =
      .next (refuseLoad (loadTag j s).1 .mediumError (loadTag j s).2) := by
    rw [exec_loadIndexRead, execLoadIndexRead, hload, hman]
    simp [hstate, hstep, hfail, hr]
  have hcart := refuseLoad_cart (loadTag j s).1 .mediumError (loadTag j s).2
  exact ⟨_, _, hrow, by rw [hcart], by rw [hcart], rfl, by rw [hcart]; exact hstate⟩

theorem loadIndexRead_unformatted {slot : Nat} {c : Cmd} {v : Qp} (hr : manufactureRefused m = false)
    (hregion : regionFound region = false) (hslot : j.slot = some slot) (hc : getCmd s slot = some c) (hw : c.stage = .waiting)
    (ht : Takes s c v) : ∃ t, exec (.loadIndexRead region h0 h1 copies) s = .next t ∧
      t.cart.state = .unformatted ∧ t.cart.load = none ∧ t.cart.wraps = m.wraps ∧
      Ends s t slot v { baseCpl c .success with
        specific := BitVec.ofNat 96 (packLsb [(1, 0), (1, (!s.tce.wprotHigh).toNat), (30, 0), (32, 0)]) } := by
  obtain ⟨f, A, htag⟩ := loadTag_eq j s
  have hjs : (loadTag j s).1.slot = some slot := by rw [htag]; exact hslot
  set u := manufactureTaken m (loadTag j s).2 with hu
  set w : State := { u with cart := { u.cart with load := none } } with hw'
  have hrow : exec (.loadIndexRead region h0 h1 copies) s =
      .next (loadUnformatted { (loadTag j s).1 with wprot := !s.tce.wprotHigh } (!s.tce.wprotHigh) u) := by
    rw [exec_loadIndexRead, execLoadIndexRead, hload, hman]
    simp [hstate, hstep, hfail, hr, hregion]
    rfl
  have hq : QueuesKept s w := .of_eq rfl rfl
  have hcw : getCmd w slot = some c := hq.cmd _ _ hc fun x hx => by rw [hw] at hx; cases hx
  have hends := complete_onPost_cart hcw (by rw [hw]; exact Stage.noConfusion) (hq.takes ht) hstate .unformatted
    (fun c => { baseCpl c .success with
      specific := BitVec.ofNat 96 (packLsb [(1, 0), (1, (!s.tce.wprotHigh).toNat), (30, 0), (32, 0)]) }) { block := 0 }
  have hgo : loadUnformatted { (loadTag j s).1 with wprot := !s.tce.wprotHigh } (!s.tce.wprotHigh) u =
      complete slot (fun c => { baseCpl c .success with
        specific := BitVec.ofNat 96 (packLsb [(1, 0), (1, (!s.tce.wprotHigh).toNat), (30, 0), (32, 0)]) }) { block := 0 }
        (onPost slot (.cart .loading .unformatted) w) := by
    unfold loadUnformatted
    simp only [hjs]
    rfl
  obtain ⟨he, H, O, heq⟩ := hends
  rw [hrow, hgo]
  refine ⟨_, rfl, ?_, ?_, ?_, hq.ends he⟩
  all_goals rw [heq, enterCart_of_other (by decide) (by decide)]
  rfl

theorem loadIndexRead_without_copy (hr : manufactureRefused m = false) (hregion : regionFound region = true)
    (hcopy : newestCopy (copies.filter fun c => c.formatId == formatOf h0 h1 copies) = none) :
    ∃ t k, exec (.loadIndexRead region h0 h1 copies) s = .next t ∧ t.cart.unthreading = true ∧ t.cart.load = some k ∧
      k.fail = some .mediumError := by
  have hrow : exec (.loadIndexRead region h0 h1 copies) s =
      .next (refuseLoad { (loadTag j s).1 with wprot := !s.tce.wprotHigh } .mediumError (manufactureTaken m (loadTag j s).2)) := by
    rw [exec_loadIndexRead, execLoadIndexRead, hload, hman]
    simp [hstate, hstep, hfail, hr, hregion, hcopy]
    rfl
  have hcart := refuseLoad_cart { (loadTag j s).1 with wprot := !s.tce.wprotHigh } .mediumError
    (manufactureTaken m (loadTag j s).2)
  exact ⟨_, _, hrow, by rw [hcart], by rw [hcart], rfl⟩

theorem loadIndexRead_takes_copy {c : Checkpoint} (hr : manufactureRefused m = false) (hregion : regionFound region = true)
    (hcopy : newestCopy (copies.filter fun c => c.formatId == formatOf h0 h1 copies) = some c)
    (hfit : 64 * c.entries.length ≤ param s 0x3010 8 * 2 ^ 20) :
    ∃ t k, exec (.loadIndexRead region h0 h1 copies) s = .next t ∧
        t.cart.formatId = c.formatId ∧ t.cart.label = BitVec.ofNat 64 c.label ∧ t.cart.ckptSeq = c.seq ∧
        t.cart.ckptEnd = c.endDataset ∧ t.cart.next = afterEnd c.endDataset ∧
        t.cart.wraps = m.wraps ∧ t.cart.load = some k ∧ k.step = 1 ∧ k.next = t.cart.next ∧ k.found = 0 ∧ k.fail = none ∧
        t.index.extents = c.entries.filterMap extentIn ∧ t.out = s.out := by
  obtain ⟨f, A, htag⟩ := loadTag_eq j s
  set k0 : LoadJob := { j with
    flow := f, wprot := !s.tce.wprotHigh, step := 1, next := afterEnd c.endDataset, endDataset := c.endDataset, streams := [], found := 0 }
  set x0 : Index := { limitMiB := param s 0x3010 8 } with hx0
  set r := c.entries.foldl (loadEntry 0) (k0, x0) with hr'
  obtain ⟨⟨S, R, M, hall⟩, hsize⟩ := foldl_loadEntry_indexed 0 c.entries (k0, x0)
  have hjob : r.1 = { k0 with streams := S } := congrArg Prod.fst hall
  have hindex : r.2 = { x0 with extents := x0.extents ++ c.entries.filterMap extentIn, relocs := R, moths := M } :=
    congrArg Prod.snd hall
  set u := manufactureTaken m { s with agentSeq := A, cart := { s.cart with load := some { j with flow := f } } }
  set w : State := { u with cart := { u.cart with
    formatId := c.formatId, label := BitVec.ofNat 64 c.label, ckptSeq := c.seq, ckptEnd := c.endDataset,
    next := afterEnd c.endDataset,
    posA := appendPos (copies.filter fun c => c.formatId == formatOf h0 h1 copies) false,
    posB := appendPos (copies.filter fun c => c.formatId == formatOf h0 h1 copies) true } }
  have hfits : loadFits r.1 { w with index := r.2 } = true := by
    have hlim : r.2.limitMiB = param s 0x3010 8 := congrArg Index.limitMiB hindex
    have hle : indexSize r ≤ c.entries.length := by simpa [indexSize, k0, x0] using hsize
    unfold loadFits
    simp only [hlim, decide_eq_true_eq]
    exact le_trans (Nat.mul_le_mul_left 64 hle) hfit
  have hrow : exec (.loadIndexRead region h0 h1 copies) s =
      .next { w with index := r.2, cart := { w.cart with load := some r.1 } } := by
    rw [exec_loadIndexRead, execLoadIndexRead, hload, hman]
    simp only [if_neg (load_goes_on hstate hstep hfail), htag, hr, hregion, hcopy, Bool.false_eq_true, Bool.not_true, if_false]
    exact if_pos hfits
  refine ⟨_, r.1, hrow, rfl, rfl, rfl, rfl, rfl, rfl, rfl, ?_, ?_, ?_, ?_, ?_, rfl⟩
  · rw [hjob]
  · rw [hjob]
  · rw [hjob]
  · rw [hjob]
    exact hfail
  · show r.2.extents = _
    rw [hindex]
    rfl

end

/-- Without the manufacture data nothing is read (R280). -/
theorem loadIndexRead_waits {s : State} (h : manufacture s = none) (region : List HeaderRead) (h0 h1 : Option (List Byte))
    (copies : List Checkpoint) : exec (.loadIndexRead region h0 h1 copies) s = .next s := by
  rw [exec_loadIndexRead, execLoadIndexRead, h]
  cases s.cart.load <;> rfl

/-! LOAD_SCAN. -/

/-- The state with the load's own tag (R18, R20). -/
def tagged (j : LoadJob) (f : BitVec 128) (A : Tab Nat) (s : State) : State :=
  { s with agentSeq := A, cart := { s.cart with load := some { j with flow := f } } }

/-- A dataset that is present gives its entries, and the scan goes on behind it (R173). -/
theorem scanFound_goes_on (j : LoadJob) (es : List IndexEntry) (s : State) : ∃ k x,
    scanFound j es s = { s with index := x, cart := { s.cart with load := some k } } ∧ k.next = j.next + 1 ∧
      k.found = j.found + 1 ∧ k.step = j.step ∧ x.extents = s.index.extents ++ es.filterMap extentIn ∧ x.lost = s.index.lost := by
  obtain ⟨⟨S, R, M, h⟩, -⟩ := foldl_loadEntry_indexed (j.next + 1) es (j, s.index)
  refine ⟨_, _, rfl, rfl, rfl, ?_, ?_, ?_⟩
  all_goals simp only [loadEntries, h]

section
variable {j : LoadJob} {s : State} (hload : s.cart.load = some j) (hstate : s.cart.state = .loading) (hstep : j.step = 1)
  (hfail : j.fail = none) (hfits : fits s.cart.wraps s.cart.grid j.next = true)
include hload hstate hstep hfail hfits

theorem loadScan_finds {bytes : List Byte} {recovered : Option (List Byte)} {h : HeaderSays} (hread : readDsHeader bytes = some h)
    (hpresent : headerPresent h j.next s = true) : ∃ t k, exec (.loadScan (.header bytes recovered)) s = .next t ∧
      t.cart.load = some k ∧ k.next = j.next + 1 ∧ k.found = j.found + 1 ∧ k.step = 1 ∧
      t.index.extents = s.index.extents ++ h.entries.filterMap extentIn ∧ t.index.lost = s.index.lost ∧ t.out = s.out := by
  obtain ⟨f, A, htag⟩ := loadTag_eq j s
  have hrow : exec (.loadScan (.header bytes recovered)) s = .next (scanFound { j with flow := f } h.entries (tagged j f A s)) := by
    rw [exec_loadScan, execLoadScan, hload]
    have hp : headerPresent h j.next (tagged j f A s) = true := hpresent
    simp only [if_neg (load_goes_on hstate hstep hfail), htag, hfits, hread, Bool.not_true, Bool.false_eq_true, if_false]
    exact congrArg _ (if_pos hp)
  obtain ⟨k, x, hscan, hnext, hfound, hkstep, hext, hlost⟩ := scanFound_goes_on { j with flow := f } h.entries (tagged j f A s)
  rw [hrow, hscan]
  exact ⟨_, k, rfl, rfl, hnext, hfound, hkstep.trans hstep, hext, hlost, rfl⟩

theorem loadScan_loses {find : ScanFind}
    (hfind : find = .damaged none ∨ (∃ bytes, find = .header bytes none ∧ readDsHeader bytes = none)) :
    ∃ t k, exec (.loadScan find) s = .next t ∧ t.cart.load = some k ∧ k.next = j.next + 1 ∧
      t.index.lost = s.index.lost ++ [j.next] ∧
      Tab.getD t.ev.counts 0x566 0 = sat32 (Tab.getD s.ev.counts 0x566 0 + 1) := by
  obtain ⟨f, A, htag⟩ := loadTag_eq j s
  set u : State := { tagged j f A s with index := { s.index with lost := s.index.lost ++ [j.next] } }
  have hrow : exec (.loadScan find) s =
      .next (scanFound { j with flow := f } [] (raise 0x566 [iDataset j.next] u)) := by
    rw [exec_loadScan, execLoadScan, hload]
    simp only [if_neg (load_goes_on hstate hstep hfail), htag, hfits, Bool.not_true, Bool.false_eq_true, if_false]
    obtain rfl | ⟨bytes, rfl, hread⟩ := hfind
    · rfl
    · simp only [hread]
      rfl
  obtain ⟨k, x, hscan, hnext, -, -, -, hlost⟩ := scanFound_goes_on { j with flow := f } [] (raise 0x566 [iDataset j.next] u)
  rw [hrow, hscan]
  refine ⟨_, k, rfl, rfl, hnext, ?_, ?_⟩
  · rw [hlost, raise_index]
  · show Tab.getD (raise 0x566 [iDataset j.next] u).ev.counts 0x566 0 = _
    rw [raise_counts, Tab.getD_put_self]
    rfl

theorem loadScan_stops (hfit : loadFits j s = true) (htail : tailFirst j < j.next) :
    ∃ t k, exec (.loadScan .blank) s = .next t ∧ t.cart.next = j.next ∧ t.cart.load = some k ∧ k.step = 2 ∧ k.next = j.next := by
  obtain ⟨f, A, htag⟩ := loadTag_eq j s
  set u : State := { tagged j f A s with cart := { (tagged j f A s).cart with next := j.next } }
  have hrow : exec (.loadScan .blank) s =
      .next { u with cart := { u.cart with load := some { j with flow := f, step := 2 } } } := by
    rw [exec_loadScan, execLoadScan, hload]
    simp only [if_neg (load_goes_on hstate hstep hfail), htag, hfits, Bool.not_true, Bool.false_eq_true, if_false]
    have hf : ¬(!loadFits { j with flow := f } u) = true := by
      have : loadFits { j with flow := f } u = true := hfit
      simp [this]
    have ht : ¬(false || decide (j.next ≤ tailFirst { j with flow := f })) = true := by
      have : ¬ j.next ≤ tailFirst { j with flow := f } := Nat.not_le.2 htail
      simp [this]
    exact congrArg _ ((if_neg hf).trans (if_neg ht))
  exact ⟨_, _, hrow, rfl, rfl, rfl, rfl⟩

end

/-! The end of a load. -/

/-- A state that the members do not speak against is entered (R413). -/
theorem enterCart_asked {now : CartState} {s : State} (hready : now = .ready → s.wr.stopped = false)
    (hread : now = .readOnly → s.cart.roByMembers = true → s.wr.stopped = true) :
    enterCart now s = { s with cart := { s.cart with state := now } } := by
  unfold enterCart
  rw [if_neg (by simpa using hready), if_neg (by simpa using hread)]

/-- `t` differs from `s` in the streams, of which there are as many, and in what waits for a header. -/
def Renewed (s t : State) : Prop :=
  ∃ S Q, t = { s with streams := S, wr := { s.wr with queued := Q } } ∧ S.length = s.streams.length

theorem Renewed.refl (s : State) : Renewed s s := ⟨_, _, rfl, rfl⟩

/-- A lease renewed (R157). -/
theorem renewLease_renewed {s t : State} (h : Renewed s t) (n : Nat) : Renewed s (renewLease n t) := by
  obtain ⟨S, Q, rfl, hS⟩ := h
  unfold renewLease
  split
  · exact ⟨S, Q, rfl, hS⟩
  · exact ⟨_, _, rfl, (Tab.length_upd ..).trans hS⟩

theorem renewAll_renewed (s : State) : Renewed s (renewAll s) := by
  have hstep : ∀ (l : Tab Stream) (u : State), Renewed s u → Renewed s (l.foldl (fun s p =>
      if p.2.pendingLease ≤ p.2.next + s.recordLease / 2 ∧ p.2.pendingLease < 0xFFFFFFFFFFFF then renewLease p.1 s else s) u) := by
    intro l
    induction l with
    | nil => exact fun u hu => hu
    | cons p l ih =>
      refine fun u hu => ih _ ?_
      dsimp only
      split
      · exact renewLease_renewed hu p.1
      · exact hu
  exact hstep s.streams s (.refl s)

/-- The specific field of a load's completion with an index (R116). -/
def loadSays (j : LoadJob) (ready : Bool) : BitVec 96 :=
  BitVec.ofNat 96 (packLsb [(1, 1), (1, j.wprot.toNat), (1, (!ready).toNat), (29, 0), (15, j.streams.length), (17, 0)])

section
variable {j : LoadJob} {s : State} {slot : Nat} {c : Cmd} {v : Qp} (hstate : s.cart.state = .loading) (hslot : j.slot = some slot)
  (hc : getCmd s slot = some c) (hw : c.stage = .waiting) (ht : Takes s c v)
include hstate hslot hc hw ht

/-- The load completes READY where that is allowed, else READ_ONLY (R99, R116, R414). -/
theorem loadDone_ends (hstreams : s.streams.length = j.streams.length) :
    (loadDone j s).cart.load = none ∧ (loadDone j s).cart.state = (if loadWritable j s then .ready else .readOnly) ∧
      (loadDone j s).cart.next = s.cart.next ∧
      Ends s (loadDone j s) slot v { baseCpl c .success with specific := loadSays j (loadWritable j s) } := by
  unfold loadDone
  extract_lets ready members st _ _ b d
  have hd : Renewed b d := by
    show Renewed b (if ready then renewAll b else b)
    split
    · exact renewAll_renewed b
    · exact .refl b
  obtain ⟨S, Q, hdeq, hlen⟩ := hd
  have hq : QueuesKept s d := by
    rw [hdeq]
    exact .of_eq rfl rfl
  have hcd : getCmd d slot = some c := hq.cmd _ _ hc fun x hx => by rw [hw] at hx; cases hx
  have hst : d.cart.state = .loading := by rw [hdeq]; exact hstate
  have hsaid : BitVec.ofNat 96 (packLsb [(1, 1), (1, j.wprot.toNat), (1, (!ready).toNat), (29, 0), (15, d.streams.length),
      (17, 0)]) = loadSays j ready := by
    have hl : d.streams.length = j.streams.length := by rw [hdeq]; exact hlen.trans hstreams
    rw [hl]
    rfl
  obtain ⟨hends, H, O, heq⟩ := complete_onPost_cart hcd (by rw [hw]; exact Stage.noConfusion) (hq.takes ht) hst st
    (fun c => { baseCpl c .success with specific := loadSays j ready }) { block := 0 }
  have henter : enterCart st d = { d with cart := { d.cart with state := st } } := by
    have hstop : d.wr.stopped = !writeAllowed s := by rw [hdeq]
    have hmem : d.cart.roByMembers = members := by rw [hdeq]
    refine enterCart_asked (fun h => ?_) (fun _ h => ?_)
    · have hready : loadWritable j s = true := by
        by_contra hno
        have : st = .readOnly := if_neg hno
        rw [h] at this
        cases this
      have : writeAllowed s = true := by
        simp only [loadWritable, Bool.and_eq_true] at hready
        exact hready.2
      rw [hstop, this]
      rfl
    · rw [hmem] at h
      have : (!writeAllowed s) = true := by
        simp only [members, Bool.and_eq_true] at h
        exact h.1.1.1
      rw [hstop, this]
  have hgo : finishWith slot .success [(1, 1), (1, j.wprot.toNat), (1, (!ready).toNat), (29, 0), (15, d.streams.length), (17, 0)] 0
      (onPost slot (.cart .loading st) d) =
      complete slot (fun c => { baseCpl c .success with specific := loadSays j ready }) { block := 0 }
        (onPost slot (.cart .loading st) d) := by
    unfold finishWith
    rw [hsaid]
  simp only [hslot, hgo]
  refine ⟨?_, ?_, ?_, hq.ends hends⟩
  all_goals rw [heq, henter]
  · show d.cart.load = none
    rw [hdeq]
  · show d.cart.next = _
    rw [hdeq]

/-- With no dataset behind the checkpoint the load ends (R160, R171, R173). -/
theorem endLoad_ends (hfound : j.found = 0) :
    (endLoad j s).cart.load = none ∧ (endLoad j s).cart.state = (if loadWritable j s then .ready else .readOnly) ∧
      (endLoad j s).cart.next = s.cart.next ∧
      Ends s (endLoad j s) slot v { baseCpl c .success with specific := loadSays j (loadWritable j s) } := by
  unfold endLoad
  extract_lets _ a
  have hno : ¬(loadWritable j a && decide (0 < j.found)) = true := by simp [hfound]
  rw [if_neg hno]
  have hq : QueuesKept s a := .of_eq rfl rfl
  have hca : getCmd a slot = some c := hq.cmd _ _ hc fun x hx => by rw [hw] at hx; cases hx
  have hlen : a.streams.length = j.streams.length := List.length_map ..
  obtain ⟨h1, h2, h3, h4⟩ := loadDone_ends (s := a) hstate hslot hca hw (hq.takes ht) hlen
  exact ⟨h1, h2, h3, hq.ends h4⟩

end

/-! The two instructions that end a load with an index. -/

/-- `t` follows from `s` by events and counters of the Read Engine: the queues, the cartridge and what writing asks for stay. -/
structure Judged (s t : State) : Prop extends QueuesKept s t where
  cart : t.cart = s.cart
  allowed : writeAllowed t = writeAllowed s

theorem Judged.refl (s : State) : Judged s s := ⟨.refl s, rfl, rfl⟩

theorem Judged.trans {s t u : State} (h : Judged s t) (k : Judged t u) : Judged s u :=
  ⟨h.toQueuesKept.trans k.toQueuesKept, k.cart.trans h.cart, k.allowed.trans h.allowed⟩

/-- A counter of the Read Engine advances with its event. -/
theorem raise_judged (n : Nat) (l : List (Nat × Nat)) (R : Rd) (s : State) : Judged s (raise n l { s with rd := R }) where
  cmd _ _ hc _ := (getCmd_raise ..).trans hc
  qp _ _ := (getQp_raise ..).trans rfl
  out := (raise_out n l { s with rd := R }).imp fun _ h => h.1
  cart := (raise_cart ..).trans rfl
  allowed := writeAllowed_congr (raise_chans ..) (raise_dict ..)

theorem Judged.foldl {α : Type} {f : State → α → State} (hf : ∀ t a, Judged t (f t a)) (l : List α) :
    ∀ s, Judged s (l.foldl f s) := by
  induction l with
  | nil => exact fun s => .refl s
  | cons a l ih => exact fun s => (hf s a).trans (ih (f s a))

section
variable {j : LoadJob} {s : State} {slot : Nat} {c : Cmd} {v : Qp} (hload : s.cart.load = some j)
  (hstate : s.cart.state = .loading) (hfail : j.fail = none) (hslot : j.slot = some slot) (hc : getCmd s slot = some c)
  (hw : c.stage = .waiting) (ht : Takes s c v) (hfound : j.found = 0)

/-- The load is over: its completion says what the cartridge then is (R99, R116). -/
def LoadOver (j : LoadJob) (slot : Nat) (c : Cmd) (v : Qp) (s t : State) : Prop :=
  let ready := !j.wprot && !s.cart.forceRo && fits s.cart.wraps s.cart.grid j.next && writeAllowed s
  t.cart.load = none ∧ t.cart.state = (if ready then .ready else .readOnly) ∧ t.cart.next = j.next ∧
    Ends s t slot v { baseCpl c .success with specific := loadSays j ready }

include hslot hc hw ht hfound

/-- The end of the load from a state that differs in events and counters, the next number being known (R309, R433). -/
theorem endLoad_over {u : State} (f : BitVec 128) (hq : QueuesKept s u) (hu : u.cart.state = .loading)
    (hnext : u.cart.next = j.next) (hforce : u.cart.forceRo = s.cart.forceRo) (hwraps : u.cart.wraps = s.cart.wraps)
    (hgrid : u.cart.grid = s.cart.grid) (hallowed : writeAllowed u = writeAllowed s) :
    LoadOver j slot c v s (endLoad { j with flow := f } u) := by
  have hcu : getCmd u slot = some c := hq.cmd _ _ hc fun x hx => by rw [hw] at hx; cases hx
  have hready : loadWritable { j with flow := f } u =
      (!j.wprot && !s.cart.forceRo && fits s.cart.wraps s.cart.grid j.next && writeAllowed s) := by
    rw [loadWritable, hnext, hforce, hwraps, hgrid, hallowed]
  obtain ⟨h1, h2, h3, h4⟩ := endLoad_ends (j := { j with flow := f }) hu hslot hcu hw (hq.takes ht) hfound
  rw [hready] at h2 h4
  exact ⟨h1, h2, h3.trans hnext, hq.ends h4⟩

include hload hstate hfail

/-- An EOD burst with the next number ends the load (R309, R433). -/
theorem loadScan_ends (hstep : j.step = 1) (hfit : loadFits j s = true) (hfits : fits s.cart.wraps s.cart.grid j.next = true) :
    ∃ t, exec (.loadScan (.eod j.next)) s = .next t ∧ LoadOver j slot c v s t := by
  obtain ⟨f, A, htag⟩ := loadTag_eq j s
  set u : State := { tagged j f A s with cart := { (tagged j f A s).cart with next := j.next } }
  refine ⟨endLoad { j with flow := f } u, ?_, endLoad_over hslot hc hw ht hfound f (.of_eq rfl rfl) hstate rfl rfl rfl rfl rfl⟩
  rw [exec_loadScan, execLoadScan, hload]
  simp only [if_neg (load_goes_on hstate hstep hfail), htag, hfits, Bool.not_true, Bool.false_eq_true, if_false]
  have hf : ¬(!loadFits { j with flow := f } u) = true := by
    have : loadFits { j with flow := f } u = true := hfit
    simp [this]
  exact congrArg _ ((if_neg hf).trans (if_pos (by simp)))

/-- Once the tail is judged the load ends (R431, R433-R436). -/
theorem journalCheck_ends (hstep : j.step = 2) (hnext : s.cart.next = j.next) (tail : List TailFind) :
    ∃ t, exec (.journalCheck tail) s = .next t ∧ LoadOver j slot c v s t := by
  obtain ⟨f, A, htag⟩ := loadTag_eq j s
  rw [exec_journalCheck, execJournalCheck, hload]
  simp only [if_neg (load_goes_on hstate hstep hfail), htag]
  have hjudged : ∀ {a b : State}, Judged (tagged j f A s) a → Judged a b → LoadOver j slot c v s (endLoad { j with flow := f } b) := by
    intro a b ha hb
    have h := ha.trans hb
    have h0 : QueuesKept s (tagged j f A s) := .of_eq rfl rfl
    exact endLoad_over hslot hc hw ht hfound f (h0.trans h.toQueuesKept) (by rw [h.cart]; exact hstate)
      (by rw [h.cart]; exact hnext) (by rw [h.cart]; rfl) (by rw [h.cart]; rfl) (by rw [h.cart]; rfl) h.allowed
  refine ⟨_, rfl, hjudged (Judged.foldl (fun t x => ?_) ..) (Judged.foldl (fun t x => ?_) ..)⟩
  · split
    · exact raise_judged ..
    · exact .refl t
  · split
    · exact raise_judged ..
    · exact .refl t

end

/-- CARTRIDGE_LOAD begins the load (R99, R173, R174). -/
theorem cartridgeLoad_begins {slot : SlotId} {c : Cmd} {s : State} (h : Started s slot.val opCartLoad c)
    (hstate : s.cart.state = .loading) : ∃ t j, exec (.cartridgeLoad slot) s = .next t ∧
      getCmd t slot.val = some { c with stage := .waiting } ∧ t.cart.load = some j ∧ j.slot = some slot.val ∧ j.step = 0 ∧
      j.fail = none ∧ t.cart.forceRo = eForceRo c.entry ∧ t.cart.state = .loading ∧ t.out = s.out := by
  set u : State := { s with cart := { s.cart with forceRo := eForceRo c.entry, load := some { slot := some slot.val } } }
  have hrow : exec (.cartridgeLoad slot) s = .next (setCmd slot.val { c with stage := .waiting } u) := by
    rw [exec_cartridgeLoad, execCartridgeLoad, onCmd_of_started h (by simp), ← setStage_of_cmd (s := u) h.cmd]
    simp [hstate, u]
  exact ⟨_, { slot := some slot.val }, hrow, getCmd_setCmd_self .., rfl, rfl, rfl, rfl, rfl, hstate, rfl⟩

/-- Settles O41: the command by its start, the index region by its manufacture data and newest copy, the scan by what stands at the
next position, and the end of the load from the scan or from the tail's journal. -/
theorem loadsReadTheCartridge : Obligations.LoadsReadTheCartridge := by
  unfold Obligations.LoadsReadTheCartridge
  refine ⟨fun slot c s => cartridgeLoad_begins, ?_, fun region h0 h1 copies s h => loadIndexRead_waits h .., ?_, ?_⟩
  · intro region h0 h1 copies man j s hload hstate hstep hfail hman
    exact ⟨loadIndexRead_refuses hload hstate hstep hfail hman,
      fun slot c v => loadIndexRead_unformatted hload hstate hstep hfail hman,
      loadIndexRead_without_copy hload hstate hstep hfail hman, fun c => loadIndexRead_takes_copy hload hstate hstep hfail hman⟩
  · intro find j s hload hstate hstep hfail hfits
    refine ⟨?_, loadScan_loses hload hstate hstep hfail hfits, ?_⟩
    · rintro bytes recovered h rfl
      exact loadScan_finds hload hstate hstep hfail hfits
    · rintro rfl
      exact loadScan_stops hload hstate hstep hfail hfits
  · rintro i j slot c v s hload hstate hfail hslot hc hw ht hfound (⟨rfl, hstep, hfit, hfits⟩ | ⟨tail, rfl, hstep, hnext⟩)
    · exact loadScan_ends hload hstate hfail hslot hc hw ht hfound hstep hfit hfits
    · exact journalCheck_ends hload hstate hfail hslot hc hw ht hfound hstep hnext tail

end Sys2Proof.Machine
end

section
/-! Blocks read from tape: their places among the blocks read, and their decryption (R196, R264, R265). -/

namespace Sys2Proof.Machine

/-! A block read, by its identity. -/

theorem id_of_getTape {s : State} {id : Nat} {b : TapeBlk} (h : getTape s id = some b) : b.id = id := by
  simpa using List.find?_some h

theorem getTape_congr {s t : State} (h : t.rd = s.rd) (id : Nat) : getTape t id = getTape s id := by rw [getTape, getTape, h]

/-- What stands at an identity after a block is replaced. -/
theorem getTape_setTape (x : TapeBlk) (s : State) (id : Nat) :
    getTape (setTape x s) id = if id = x.id then (getTape s id).map fun _ => x else getTape s id := by
  unfold getTape setTape
  dsimp only
  induction s.rd.blks with
  | nil => by_cases h : id = x.id <;> simp [h]
  | cons b l ih =>
    rw [List.map_cons, List.find?_cons, List.find?_cons]
    by_cases hb : b.id = x.id
    · by_cases h : id = x.id
      · simp [hb, h]
      · have h1 : (x.id == id) = false := by simpa using Ne.symm h
        have h2 : (b.id == id) = false := by rw [hb]; exact h1
        simpa [hb, h1, h2, h] using ih
    · by_cases h : b.id = id
      · have hne : ¬ id = x.id := fun e => hb (h.trans e)
        simp [h, hne]
      · have h2 : (b.id == id) = false := by simpa using h
        simpa [hb, h2] using ih

theorem getTape_setTape_self {x y : TapeBlk} {s : State} (h : getTape s x.id = some y) : getTape (setTape x s) x.id = some x := by
  rw [getTape_setTape, if_pos rfl, h]
  rfl

theorem getTape_setTape_ne {x : TapeBlk} {s : State} {id : Nat} (h : id ≠ x.id) : getTape (setTape x s) id = getTape s id := by
  rw [getTape_setTape, if_neg h]

/-! The buffers of a block and its event source. -/

theorem takeBuf_ev (owner p : Nat) (s : State) : (takeBuf owner p s).1.ev = s.ev := by
  unfold takeBuf
  extract_lets _ id _ t1 t2
  obtain ⟨H, a, h⟩ := updAbove_eq t2
  show (updAbove t2).ev = s.ev
  rw [h]
  rfl

/-- A buffer that a pool has is granted, without an event (R188, R193). -/
theorem askBuf_grants {s : State} {size : Nat} (h : (choosePool s 1 size).isSome = true) (owner : Nat) (tag : BitVec 128) :
    ∃ u i, askBuf owner size tag s = (u, some i, none) ∧ BufOnly s u ∧ u.ev = s.ev := by
  obtain ⟨p, hp⟩ := Option.isSome_iff_exists.1 h
  have hb := askBuf_bufOnly owner size tag s
  unfold askBuf at hb ⊢
  simp only [hp] at hb ⊢
  exact ⟨_, _, rfl, hb, (retag_ev ..).trans (takeBuf_ev ..)⟩

/-- A request that no pool serves waits (R193). -/
theorem askBuf_waits {s : State} {size : Nat} (h : choosePool s 1 size = none) (owner : Nat) (tag : BitVec 128) :
    ∃ B, askBuf owner size tag s = ({ s with bpm := B }, none, some s.bpm.nextHeld) := by
  unfold askBuf
  simp only [h]
  exact ⟨_, rfl⟩

theorem retagReaders_bufOnly (b : TapeBlk) (id : Nat) (s : State) : BufOnly s (retagReaders b id s) :=
  .foldl (.refl s) fun t n h => h.trans (retag_bufOnly (tagOf t n) id t)

theorem retagReaders_ev (b : TapeBlk) (id : Nat) (s : State) : (retagReaders b id s).ev = s.ev :=
  foldl_keeps (fun s => s.ev) (fun _ _ => retag_ev ..) ..

/-- A buffer given by its owner is no misuse (R188). -/
theorem giveOwn_ev (owner id newOwner : Nat) (tag : BitVec 128) (s : State) : (giveOwn owner id newOwner tag s).ev = s.ev := by
  unfold giveOwn
  split
  next b hb =>
    split
    next ho =>
      unfold giveReq
      simp only [hb, ho, ne_eq, not_true_eq_false, if_false]
      exact (retag_ev ..).trans rfl
    · rfl
  · rfl

/-- What the countermeasures draw changes nothing else (R273). -/
theorem countDraws_eq (s : State) : ∃ n m, countDraws s = { s with drawn := n, cip := { s.cip with drbgRequests := m } } := by
  unfold countDraws
  split
  · exact ⟨s.drawn, s.cip.drbgRequests, rfl⟩
  · exact ⟨_, _, rfl⟩

/-! BLOCK_DECRYPTED. -/

/-- A block that its decryptor may take (R264). -/
structure Decryptable (s : State) (id : Nat) (b : TapeBlk) (k : KeySlot) : Prop where
  tape : getTape s id = some b
  key : blkKey s b.stream = some k
  ciphered : ciphered s b.stream = true
  works : s.cip.failed = false
  plain : b.plain = none
  auth : b.authFailed = false
  readable : b.unreadable = false
  whole : b.short = 0
  req : b.bufReq = none
  up : resetting s 2 = false

/-- The plaintext of a block in its buffer, or the failure of its tag (R264, R265). -/
theorem decrypted_result {p i : Nat} {k : KeySlot} {b b0 : TapeBlk} {s : State} (hb : getTape s b.id = some b0) :
    ∃ u, decrypted p k b i s = settle u ∧
      (∀ l, decryptBlk k.key b = some l → getTape u b.id = some { b with plain := some l } ∧
        u.cip.decrypted = s.cip.decrypted + 1 ∧ u.ev = s.ev) ∧
      (decryptBlk k.key b = none → getTape u b.id = some { b with buf := none, authFailed := true } ∧
        u.cip.decrypted = s.cip.decrypted ∧ u.cip.authFailures = sat32 (s.cip.authFailures + 1) ∧
        Tab.getD u.ev.counts 0x521 0 = sat32 (Tab.getD s.ev.counts 0x521 0 + 1)) := by
  obtain ⟨n, m, hdraw⟩ := countDraws_eq s
  unfold decrypted
  rw [hdraw]
  split
  next l hl =>
    set v : State := { s with drawn := n, cip := { s.cip with drbgRequests := m, decrypted := s.cip.decrypted + 1 } }
    have hgive := giveOwn_bufOnly (0x70 + p) i (0x50 + givenEngine v b.comp) (blkTag v b) v
    refine ⟨_, rfl, fun l' hl' => ⟨?_, ?_, ?_⟩, fun h => ?_⟩
    · obtain rfl : l = l' := Option.some.inj (hl.symm.trans hl')
      exact getTape_setTape_self ((getTape_congr hgive.rd b.id).trans hb)
    · exact congrArg Cipher.decrypted hgive.cip
    · exact giveOwn_ev ..
    · rw [hl] at h
      cases h
  next hl =>
    set v : State := { s with drawn := n, cip := { s.cip with drbgRequests := m, authFailures := sat32 (s.cip.authFailures + 1) } }
    have hfree := freeOwn_bufOnly (0x70 + p) i (blkTag v b) v
    set w := setTape { b with authFailed := true, buf := none } (freeOwn (0x70 + p) i (blkTag v b) v) with hw
    have hcip : (raise 0x521 (b.items v) w).cip = v.cip := (raise_cip ..).trans hfree.cip
    refine ⟨_, rfl, fun l h => ?_, fun _ => ⟨?_, ?_, ?_, ?_⟩⟩
    · rw [hl] at h
      cases h
    · refine (getTape_congr (raise_rd ..) b.id).trans ?_
      exact getTape_setTape_self (x := { b with authFailed := true, buf := none }) ((getTape_congr hfree.rd b.id).trans hb)
    · exact (congrArg Cipher.decrypted hcip).trans rfl
    · exact congrArg Cipher.authFailures hcip
    · rw [raise_counts, Tab.getD_put_self]
      exact congrArg (fun n => sat32 (n + 1)) (hfree.counts 0x521 (by decide))

section
variable {p : Fin 4} {id : Nat} {b : TapeBlk} {k : KeySlot} {s : State} (h : Decryptable s id b k)
include h

theorem blockDecrypted_goes : ¬(!ciphered s b.stream || s.cip.failed || b.plain.isSome || b.authFailed || b.unreadable ||
    decide (0 < b.short) || b.bufReq.isSome || resetting s 2) = true := by
  simp [h.ciphered, h.works, h.plain, h.auth, h.readable, h.whole, h.req, h.up]

/-- The block in its buffer is decrypted (R264). -/
theorem blockDecrypted_decrypts (hbuf : b.buf.isSome = true ∨ (choosePool s 1 (max 1 b.payloadLen)).isSome = true) :
    ∃ u i, BufOnly s u ∧ u.ev = s.ev ∧
      exec (.blockDecrypted p id [] true) s = .next (decrypted p.val k { b with buf := some i } i u) := by
  rw [exec_blockDecrypted, execBlockDecrypted]
  simp only [h.tape, h.key, if_neg (blockDecrypted_goes h), Bool.not_true, Bool.false_eq_true, if_false]
  cases hb : b.buf with
  | some i => exact ⟨_, i, retagReaders_bufOnly b i s, retagReaders_ev .., rfl⟩
  | none =>
    have hp : (choosePool s 1 (max 1 b.payloadLen)).isSome = true := by
      rw [hb] at hbuf
      exact hbuf.resolve_left (by simp)
    obtain ⟨u, i, hask, hu, hev⟩ := askBuf_grants hp (0x70 + p.val) (blkTag s b)
    simp only [hask]
    exact ⟨_, i, hu.trans (retagReaders_bufOnly b i u), (retagReaders_ev ..).trans hev, rfl⟩

/-- A block without a buffer waits for one (R193, R196). -/
theorem blockDecrypted_waits (hb : b.buf = none) (hp : choosePool s 1 (max 1 b.payloadLen) = none) :
    ∃ t, exec (.blockDecrypted p id [] true) s = .next t ∧
      getTape t id = some { b with bufReq := some s.bpm.nextHeld } ∧ t.cip = s.cip ∧ t.host = s.host := by
  obtain ⟨B, hask⟩ := askBuf_waits hp (0x70 + p.val) (blkTag s b)
  rw [exec_blockDecrypted, execBlockDecrypted]
  simp only [h.tape, h.key, if_neg (blockDecrypted_goes h), Bool.not_true, Bool.false_eq_true, if_false, hb, hask]
  refine ⟨_, rfl, ?_, rfl, rfl⟩
  obtain rfl := id_of_getTape h.tape
  exact getTape_setTape_self (s := { s with bpm := B }) (x := { b with buf := none, bufReq := some s.bpm.nextHeld }) h.tape

end

end Sys2Proof.Machine
end

section
/-! Blocks decoded: a chain of blocks from the state of its lane, the blocks that could not be decoded, and those whose fragments do not
follow those before them (R204, R233, R234). -/

namespace Sys2Proof.Machine

/-! Decoding a chain does not look at the output buffer. -/

theorem ciphered_congr {s t : State} (h : t.streams = s.streams) (n : Nat) : ciphered t n = ciphered s n := by
  rw [ciphered, ciphered, getStream_congr h]

theorem decodeOne_congr {s t : State} (h : t.streams = s.streams) (known : Bool) (st : LaneState) (b : TapeBlk) :
    decodeOne t known st b = decodeOne s known st b := by
  unfold decodeOne
  rw [ciphered_congr h]

theorem decodeLane_congr {s t : State} (h : t.streams = s.streams) (known : Bool) (st : LaneState) (l : List TapeBlk) :
    decodeLane t known st l = decodeLane s known st l := by
  induction l generalizing known st with
  | nil => rfl
  | cons b l ih =>
    simp only [decodeLane, decodeOne_congr h]
    split
    · rfl
    · rw [ih]

/-- A block with another output buffer. -/
def TapeBlk.inBuf (o : Option Nat) (b : TapeBlk) : TapeBlk := { b with outBuf := o }

/-- The fragments of a block decoded, the lane state kept with it, and the lane state after it (R207, R208, R222, R234). -/
def decodeFrags (s : State) (known : Bool) (st : LaneState) (b : TapeBlk) : Option (List Frag × Option LaneState × LaneState) :=
  if (b.encrypted && !ciphered s b.stream) || b.bytes.length ≠ b.size then none
  else match decodeBlock b.comp b.raw b.independent st b.coded b.contentLen with
    | none => none
    | some p =>
      if (crc32c p.1).toNat ≠ b.crc then none
      else ((contentFrags b.first p.1).filter fun l => l.length == b.fragCount).map fun l =>
        (l, if known || b.independent || b.comp ≠ 1 then some p.2 else none, p.2)

theorem decodeOne_eq (s : State) (known : Bool) (st : LaneState) (b : TapeBlk) : decodeOne s known st b =
    (decodeFrags s known st b).map fun p => ({ b with frags := some p.1, after := p.2.1 }, p.2.2) := by
  unfold decodeOne decodeFrags
  by_cases hbad : (b.encrypted && !ciphered s b.stream || decide (b.bytes.length ≠ b.size)) = true
  · simp only [hbad, if_true, Option.map_none]
  · simp only [hbad]
    cases decodeBlock b.comp b.raw b.independent st b.coded b.contentLen with
    | none => rfl
    | some p =>
      by_cases hcrc : (crc32c p.1).toNat ≠ b.crc
      · simp [hcrc]
      · cases hl : contentFrags b.first p.1 with
        | none => simp [hcrc, hl]
        | some l => by_cases hn : l.length = b.fragCount <;> simp [hcrc, hl, hn, Option.filter]

theorem decodeOne_inBuf (s : State) (known : Bool) (st : LaneState) (b : TapeBlk) (o : Option Nat) :
    decodeOne s known st (b.inBuf o) = (decodeOne s known st b).map fun p => (p.1.inBuf o, p.2) := by
  have hfrags : decodeFrags s known st (b.inBuf o) = decodeFrags s known st b := rfl
  rw [decodeOne_eq, decodeOne_eq, hfrags, Option.map_map]
  rfl

/-- A block decoded keeps its identity and has its fragments (R233). -/
theorem of_decodeOne {s : State} {known : Bool} {st st' : LaneState} {b d : TapeBlk} (h : decodeOne s known st b = some (d, st')) :
    d.id = b.id ∧ d.frags.isSome = true := by
  rw [decodeOne_eq] at h
  obtain ⟨p, -, hp⟩ := Option.map_eq_some_iff.1 h
  obtain ⟨rfl, -⟩ := Prod.mk.inj hp
  exact ⟨rfl, rfl⟩

/-- The last block of a chain in another output buffer: the chain is decoded as before, or fails at the same block. -/
theorem decodeLane_inBuf (s : State) (b : TapeBlk) (o : Option Nat) (l : List TapeBlk) (known : Bool) (st : LaneState) :
    let r := decodeLane s known st (l ++ [b])
    let q := decodeLane s known st (l ++ [b.inBuf o])
    (r.2 = none → q.2 = none ∧ ∃ y, r.1.getLast? = some y ∧ q.1.getLast? = some (y.inBuf o) ∧ y.id = b.id ∧
      y.frags.isSome = true) ∧
    (∀ x, r.2 = some x → ∃ z, q.2 = some z ∧ z.id = x.id) := by
  induction l generalizing known st with
  | nil =>
    simp only [List.nil_append, decodeLane, decodeOne_inBuf]
    cases hd : decodeOne s known st b with
    | none =>
      refine ⟨nofun, fun x hx => ⟨b.inBuf o, rfl, ?_⟩⟩
      rw [← Option.some.inj hx]
      rfl
    | some p =>
      obtain ⟨hid, hfrags⟩ := of_decodeOne hd
      simp only [Option.map_some]
      exact ⟨fun _ => ⟨trivial, p.1, rfl, rfl, hid, hfrags⟩, fun x hx => by cases hx⟩
  | cons a l ih =>
    simp only [List.cons_append, decodeLane]
    cases hd : decodeOne s known st a with
    | none => exact ⟨nofun, fun x hx => ⟨x, hx, rfl⟩⟩
    | some p =>
      obtain ⟨hok, hbad⟩ := ih (known || a.independent) p.2
      refine ⟨fun hr => ?_, hbad⟩
      obtain ⟨hq, y, hy, hy', hrest⟩ := hok hr
      exact ⟨hq, y, by simp [List.getLast?_cons, hy], by simp [List.getLast?_cons, hy'], hrest⟩

/-! What stands at an identity while blocks are decoded. -/

/-- The blocks read of an identity, of which there is one, have a property. -/
structure AtId (id : Nat) (P : TapeBlk → Prop) (s : State) : Prop where
  present : (getTape s id).isSome = true
  all : ∀ x ∈ s.rd.blks, x.id = id → P x

theorem AtId.of_rd {id : Nat} {P : TapeBlk → Prop} {s t : State} (h : AtId id P s) (e : t.rd = s.rd) : AtId id P t :=
  ⟨by rw [getTape_congr e]; exact h.present, by rw [e]; exact h.all⟩

theorem AtId.get {id : Nat} {P : TapeBlk → Prop} {s : State} (h : AtId id P s) : ∃ z, getTape s id = some z ∧ P z := by
  obtain ⟨z, hz⟩ := Option.isSome_iff_exists.1 h.present
  exact ⟨z, hz, h.all z (List.mem_of_find?_eq_some hz) (id_of_getTape hz)⟩

theorem present_setTape {id : Nat} {s : State} (h : (getTape s id).isSome = true) (x : TapeBlk) :
    (getTape (setTape x s) id).isSome = true := by
  rw [getTape_setTape]
  split
  · rw [Option.isSome_map]; exact h
  · exact h

theorem mem_setTape {x y : TapeBlk} {s : State} (h : y ∈ (setTape x s).rd.blks) : y = x ∨ y ∈ s.rd.blks ∧ y.id ≠ x.id := by
  obtain ⟨z, hz, e⟩ := List.mem_map.1 h
  split at e
  next => exact .inl e.symm
  next hne => exact .inr (e ▸ ⟨hz, hne⟩)

theorem AtId.setTape {id : Nat} {P : TapeBlk → Prop} {s : State} (h : AtId id P s) {x : TapeBlk} (hx : x.id = id → P x) :
    AtId id P (setTape x s) := by
  refine ⟨present_setTape h.present x, fun y hy hid => ?_⟩
  obtain rfl | ⟨hy, -⟩ := mem_setTape hy
  · exact hx hid
  · exact h.all y hy hid

/-- A block put in place of those of its identity. -/
theorem atId_setTape {P : TapeBlk → Prop} {s : State} {x : TapeBlk} (h : (getTape s x.id).isSome = true) (hx : P x) :
    AtId x.id P (Machine.setTape x s) := by
  refine ⟨present_setTape h x, fun y hy hid => ?_⟩
  obtain rfl | ⟨-, hne⟩ := mem_setTape hy
  · exact hx
  · exact absurd hid hne

/-! The buffers of decoded blocks go. -/

theorem freeDecoded_eq (s : State) (i : Nat) : freeDecoded s i = s ∨ ∃ b t, BufOnly s t ∧ getTape s i = some b ∧
    freeDecoded s i = setTape { b with buf := none, outBuf := none } t := by
  unfold freeDecoded
  split
  next b hb => exact .inr ⟨b, _, (freeOpt_bufOnly ..).trans (freeOpt_bufOnly ..), hb, rfl⟩
  next => exact .inl rfl

/-- What a fault and the buffers of a block do not change. -/
structure Steady (P : TapeBlk → Prop) : Prop where
  fault : ∀ b, P b → P { b with fault := true }
  bufs : ∀ b, P b → P { b with buf := none, outBuf := none }

theorem AtId.freeDecoded {id : Nat} {P : TapeBlk → Prop} (hP : Steady P) {s : State} (h : AtId id P s) (i : Nat) :
    AtId id P (freeDecoded s i) := by
  obtain e | ⟨b, t, ht, hb, e⟩ := freeDecoded_eq s i
  · rwa [e]
  · rw [e]
    exact (h.of_rd ht.rd).setTape fun hid => hP.bufs b (h.all b (List.mem_of_find?_eq_some hb) hid)

theorem freeDecoded_counts (s : State) (i : Nat) : (freeDecoded s i).pack = s.pack ∧
    Tab.getD (freeDecoded s i).ev.counts 0x512 0 = Tab.getD s.ev.counts 0x512 0 := by
  obtain e | ⟨b, t, ht, -, e⟩ := freeDecoded_eq s i
  · rw [e]
    exact ⟨rfl, rfl⟩
  · rw [e]
    exact ⟨ht.pack, ht.counts 0x512 (by decide)⟩

/-- The buffers of a chain and of its last block go. -/
def chainFreed (l : List TapeBlk) (id : Nat) (s : State) : State := freeDecoded ((l.map (·.id)).foldl freeDecoded s) id

theorem chainFreed_counts (l : List TapeBlk) (id : Nat) (s : State) : (chainFreed l id s).pack = s.pack ∧
    Tab.getD (chainFreed l id s).ev.counts 0x512 0 = Tab.getD s.ev.counts 0x512 0 :=
  ⟨(freeDecoded_counts ..).1.trans (foldl_keeps (fun s => s.pack) (fun _ _ => (freeDecoded_counts ..).1) ..),
    (freeDecoded_counts ..).2.trans
      (foldl_keeps (fun s => Tab.getD s.ev.counts 0x512 0) (fun _ _ => (freeDecoded_counts ..).2) ..)⟩

theorem AtId.chainFreed {id : Nat} {P : TapeBlk → Prop} (hP : Steady P) {s : State} (h : AtId id P s) (l : List TapeBlk)
    (i : Nat) : AtId id P (chainFreed l i s) := by
  suffices hl : ∀ (m : List Nat) (t : State), AtId id P t → AtId id P (m.foldl Machine.freeDecoded t) from
    (hl _ s h).freeDecoded hP i
  intro m
  induction m with
  | nil => exact fun t ht => ht
  | cons a m ih => exact fun t ht => ih _ (ht.freeDecoded hP a)

/-! Blocks that could not be decoded. -/

theorem markFault_counts (x : TapeBlk) (s : State) :
    (markFault x s).pack.decompErrors = sat32 (s.pack.decompErrors + 1) ∧
      Tab.getD (markFault x s).ev.counts 0x512 0 = sat32 (Tab.getD s.ev.counts 0x512 0 + 1) ∧
      (markFault x s).rd = (setTape { x with fault := true } s).rd := by
  unfold markFault
  refine ⟨?_, ?_, raise_rd ..⟩
  · rw [raise_pack]
    rfl
  · rw [raise_counts, Tab.getD_put_self]
    rfl

/-- At least so many errors were counted and reported (R234). -/
def Errors (m n : Nat) (s : State) : Prop := m ≤ s.pack.decompErrors ∧ n ≤ Tab.getD s.ev.counts 0x512 0

theorem le_sat32 {m n : Nat} (h : m ≤ n) (hm : m ≤ 0xFFFFFFFF) : m ≤ sat32 (n + 1) := le_min (Nat.le_succ_of_le h) hm

theorem sat32_le (n : Nat) : sat32 n ≤ 0xFFFFFFFF := min_le_right ..

/-- Faults that are noted leave each block what a fault does not change, and add to the errors. -/
theorem foldl_markFault {id m n : Nat} {P : TapeBlk → Prop} (hP : Steady P) (hm : m ≤ 0xFFFFFFFF) (hn : n ≤ 0xFFFFFFFF)
    (l : List TapeBlk) : ∀ s : State, (∀ x ∈ l, x.id = id → P x) →
      (AtId id P s → AtId id P (l.foldl (fun s x => markFault x s) s)) ∧
      (Errors m n s → Errors m n (l.foldl (fun s x => markFault x s) s)) := by
  induction l with
  | nil => exact fun s _ => ⟨fun h => h, fun h => h⟩
  | cons a l ih =>
    intro s hl
    obtain ⟨hd, hc, hrd⟩ := markFault_counts a s
    obtain ⟨h1, h2⟩ := ih (markFault a s) fun x hx => hl x (List.mem_cons_of_mem a hx)
    refine ⟨fun h => h1 ?_, fun h => h2 ⟨?_, ?_⟩⟩
    · exact (h.setTape (x := { a with fault := true }) fun hid => hP.fault a (hl a (List.mem_cons_self ..) hid)).of_rd hrd
    · rw [hd]
      exact le_sat32 h.1 hm
    · rw [hc]
      exact le_sat32 h.2 hn

theorem mem_of_brokenBlks {s : State} {n : Nat} {x : TapeBlk} (h : x ∈ brokenBlks s n) : x ∈ s.rd.blks := by
  obtain ⟨⟨p, q⟩, hpq, hx⟩ := List.mem_filterMap.1 h
  have hq := List.mem_of_mem_drop (List.of_mem_zip hpq).2
  obtain ⟨y, hy, e⟩ := List.mem_map.1 hq
  have hm := (List.mem_filter.1 (List.of_mem_zip hy).1).1
  split at hx
  · obtain rfl := Option.some.inj hx
    exact e ▸ hm
  · cases hx

/-- A block alone follows none. -/
theorem brokenBlks_of_single {s : State} (h : s.rd.blks.length ≤ 1) (n : Nat) : brokenBlks s n = [] := by
  have hl : ((streamBlks s n).map (·.1)).length ≤ 1 := by
    simp only [streamBlks, List.length_map, List.length_zip]
    exact le_trans (min_le_left ..) (le_trans (List.length_filter_le ..) h)
  have hd : ((streamBlks s n).map (·.1)).drop 1 = [] := List.drop_eq_nil_of_le hl
  simp [brokenBlks, hd]

/-! A chain. -/

/-- The blocks of a chain in place, and the one that failed marked (R233, R234). -/
def chainSet (r : List TapeBlk × Option TapeBlk) (s : State) : State :=
  match r.2 with
  | none => r.1.foldl (fun s x => setTape x s) s
  | some x => markFault x (r.1.foldl (fun s x => setTape x s) s)

/-- A chain with the faults behind it noted. -/
def chainOf (r : List TapeBlk × Option TapeBlk) (b : TapeBlk) (s : State) : State :=
  chainFreed r.1 b.id ((brokenBlks (chainSet r s) b.stream).foldl (fun s x => markFault x s) (chainSet r s))

theorem decodeChain_eq (l : List TapeBlk) (b : TapeBlk) (s : State) : decodeChain l b s =
    settle (chainOf (decodeLane s (laneStart l).1.isSome ((laneStart l).1.getD {}) ((laneStart l).2 ++ [b])) b s) := rfl

theorem foldl_setTape_frame (l : List TapeBlk) (s : State) : ∃ B, l.foldl (fun s x => setTape x s) s =
    { s with rd := { s.rd with blks := B } } ∧ B.length = s.rd.blks.length := by
  induction l generalizing s with
  | nil => exact ⟨s.rd.blks, rfl, rfl⟩
  | cons a l ih =>
    obtain ⟨B, h, hB⟩ := ih (setTape a s)
    exact ⟨B, h, hB.trans (List.length_map ..)⟩

theorem foldl_setTape_present {id : Nat} (l : List TapeBlk) : ∀ s : State, (getTape s id).isSome = true →
    (getTape (l.foldl (fun s x => setTape x s) s) id).isSome = true := by
  induction l with
  | nil => exact fun s h => h
  | cons a l ih => exact fun s h => ih _ (present_setTape h a)

theorem chainSet_single (r : List TapeBlk × Option TapeBlk) {s : State} (h : s.rd.blks.length ≤ 1) :
    (chainSet r s).rd.blks.length ≤ 1 := by
  obtain ⟨B, hset, hB⟩ := foldl_setTape_frame r.1 s
  unfold chainSet
  rw [hset]
  split
  · exact hB.trans_le h
  · rw [(markFault_counts ..).2.2]
    exact (List.length_map ..).trans_le (hB.trans_le h)

section
variable {r : List TapeBlk × Option TapeBlk} {b : TapeBlk} {s : State}

/-- With a block alone nothing but the chain itself is at fault. -/
theorem chainOf_single (h : s.rd.blks.length ≤ 1) : chainOf r b s = chainFreed r.1 b.id (chainSet r s) := by
  unfold chainOf
  rw [brokenBlks_of_single (chainSet_single r h)]
  rfl

/-- What holds of a block in place once the chain is decoded holds of it in the end. -/
theorem chainOf_atId {P : TapeBlk → Prop} (hP : Steady P) (h : AtId b.id P (chainSet r s)) : AtId b.id P (chainOf r b s) :=
  ((foldl_markFault (m := 0) (n := 0) hP (by decide) (by decide) _ _ fun x hx => h.all x (mem_of_brokenBlks hx)).1 h).chainFreed
    hP r.1 b.id

/-- A chain decoded: its last block has its fragments and the state of its lane (R233). -/
theorem chainOf_decoded {y : TapeBlk} (hb : (getTape s b.id).isSome = true) (hr : r.2 = none) (hy : r.1.getLast? = some y)
    (hid : y.id = b.id) : (∃ z, getTape (chainOf r b s) b.id = some z ∧ z.frags = y.frags ∧ z.after = y.after) ∧
      (s.rd.blks.length ≤ 1 → (chainOf r b s).pack.decompErrors = s.pack.decompErrors) := by
  have hset : chainSet r s = r.1.foldl (fun s x => setTape x s) s := by
    unfold chainSet
    rw [hr]
  constructor
  · obtain ⟨l, hl⟩ := List.getLast?_eq_some_iff.1 hy
    have hin : AtId b.id (fun z => z.frags = y.frags ∧ z.after = y.after) (chainSet r s) := by
      rw [hset, hl, List.foldl_append, ← hid]
      exact atId_setTape (foldl_setTape_present l s (hid ▸ hb)) ⟨rfl, rfl⟩
    exact (chainOf_atId ⟨fun _ h => h, fun _ h => h⟩ hin).get
  · intro h
    obtain ⟨B, hframe, -⟩ := foldl_setTape_frame r.1 s
    rw [chainOf_single h, (chainFreed_counts ..).1, hset, hframe]

/-- A chain that fails at a block: the error is counted and reported, and the block is at fault (R234). -/
theorem chainOf_failed {x : TapeBlk} (hb : (getTape s b.id).isSome = true) (hr : r.2 = some x) :
    Errors (sat32 (s.pack.decompErrors + 1)) (sat32 (Tab.getD s.ev.counts 0x512 0 + 1)) (chainOf r b s) ∧
      (s.rd.blks.length ≤ 1 → (chainOf r b s).pack.decompErrors = sat32 (s.pack.decompErrors + 1) ∧
        Tab.getD (chainOf r b s).ev.counts 0x512 0 = sat32 (Tab.getD s.ev.counts 0x512 0 + 1)) ∧
      (x.id = b.id → ∃ z, getTape (chainOf r b s) b.id = some z ∧ z.fault = true) := by
  obtain ⟨B, hframe, -⟩ := foldl_setTape_frame r.1 s
  have hset : chainSet r s = markFault x (r.1.foldl (fun s x => setTape x s) s) := by
    unfold chainSet
    rw [hr]
  obtain ⟨hd, hc, hrd⟩ := markFault_counts x (r.1.foldl (fun s x => setTape x s) s)
  have hd1 : (chainSet r s).pack.decompErrors = sat32 (s.pack.decompErrors + 1) := by rw [hset, hd, hframe]
  have hc1 : Tab.getD (chainSet r s).ev.counts 0x512 0 = sat32 (Tab.getD s.ev.counts 0x512 0 + 1) := by rw [hset, hc, hframe]
  refine ⟨?_, fun h => ?_, fun hid => ?_⟩
  · have hfold := (foldl_markFault (id := 0) (P := fun _ => True) ⟨fun _ _ => trivial, fun _ _ => trivial⟩ (sat32_le _) (sat32_le _)
      (brokenBlks (chainSet r s) b.stream) (chainSet r s) fun _ _ _ => trivial).2 ⟨hd1.ge, hc1.ge⟩
    obtain ⟨hp, he⟩ := chainFreed_counts r.1 b.id
      ((brokenBlks (chainSet r s) b.stream).foldl (fun s x => markFault x s) (chainSet r s))
    exact ⟨hfold.1.trans_eq (congrArg Pack.decompErrors hp.symm), hfold.2.trans_eq he.symm⟩
  · rw [chainOf_single h, (chainFreed_counts ..).1, (chainFreed_counts ..).2]
    exact ⟨hd1, hc1⟩
  · have hin : AtId b.id (fun z => z.fault = true) (chainSet r s) := by
      rw [hset, ← hid]
      exact (atId_setTape (P := fun z => z.fault = true) (x := { x with fault := true })
        (foldl_setTape_present r.1 s (hid ▸ hb)) rfl).of_rd hrd
    exact (chainOf_atId ⟨fun _ _ => rfl, fun _ h => h⟩ hin).get

end

/-! BLOCK_DECODE. -/

/-- A block that an engine at rest may decode: its history is at hand, and its plaintext and theirs (R204, R233). -/
structure Decodable (s : State) (e id : Nat) (b : TapeBlk) (l : List TapeBlk) : Prop where
  tape : getTape s id = some b
  waits : blkState s b = .wait
  hist : histOf s b = .ready l
  serves : engineServes e b.comp = true
  enabled : engineEnabled s e = true
  rests : (getEngine s e).busy = none
  req : b.outReq = none
  plain : ciphered s b.stream = true → ∀ p ∈ b :: (laneStart l).2, p.plain.isSome = true

section
variable {e : Fin 24} {id : Nat} {b : TapeBlk} {l : List TapeBlk} {s : State} (h : Decodable s e.val id b l)
include h

theorem blockDecode_goes : ¬(!engineServes e.val b.comp || !engineEnabled s e.val || (getEngine s e.val).busy.isSome ||
    b.outReq.isSome || (ciphered s b.stream && (b :: (laneStart l).2).any fun p => p.plain.isNone)) = true := by
  have hplain : (ciphered s b.stream && (b :: (laneStart l).2).any fun p => p.plain.isNone) = false := by
    cases hc : ciphered s b.stream with
    | false => rfl
    | true =>
      rw [Bool.true_and, List.any_eq_false]
      intro p hp
      simp [Option.isSome_iff_ne_none.1 (h.plain hc p hp)]
  rw [hplain]
  simp [h.serves, h.enabled, h.rests, h.req]

/-- The chain of the block is decoded into a buffer of its own (R196, R233). -/
theorem blockDecode_decodes (hbuf : b.outBuf.isSome = true ∨ (choosePool s 1 (max 1 b.contentLen)).isSome = true) :
    ∃ u i, BufOnly s u ∧ exec (.blockDecode e id [] true) s =
      .next (decodeChain l (b.inBuf (some i)) (setTape (b.inBuf (some i)) u)) := by
  rw [exec_blockDecode, execBlockDecode]
  simp only [h.tape, h.waits, h.hist, if_neg (blockDecode_goes h), Bool.not_true, Bool.false_eq_true, if_false]
  cases hb : b.outBuf with
  | some i =>
    refine ⟨_, i, retagReaders_bufOnly b i s, ?_⟩
    refine if_neg ?_
    cases b.buf <;> exact Bool.false_ne_true
  | none =>
    have hp : (choosePool s 1 (max 1 b.contentLen)).isSome = true := by
      rw [hb] at hbuf
      exact hbuf.resolve_left (by simp)
    obtain ⟨u, i, hask, hu, -⟩ := askBuf_grants hp (0x50 + e.val) (blkTag s b)
    simp only [hask]
    refine ⟨_, i, hu.trans (retagReaders_bufOnly b i u), ?_⟩
    refine if_neg ?_
    cases b.buf <;> exact Bool.false_ne_true

/-- What a block decoded leaves: its fragments where the chain is sound, else the error counted and reported (R233, R234). -/
theorem blockDecode_result (hbuf : b.outBuf.isSome = true ∨ (choosePool s 1 (max 1 b.contentLen)).isSome = true) :
    let r := decodeLane s (laneStart l).1.isSome ((laneStart l).1.getD {}) ((laneStart l).2 ++ [b])
    ∃ u, exec (.blockDecode e id [] true) s = .next (settle u) ∧
      (∀ y, r.2 = none → r.1.getLast? = some y → y.frags.isSome = true ∧
        (∃ z, getTape u id = some z ∧ z.frags = y.frags ∧ z.after = y.after) ∧
        (s.rd.blks = [b] → u.pack.decompErrors = s.pack.decompErrors)) ∧
      (∀ x, r.2 = some x → sat32 (s.pack.decompErrors + 1) ≤ u.pack.decompErrors ∧
        sat32 (Tab.getD s.ev.counts 0x512 0 + 1) ≤ Tab.getD u.ev.counts 0x512 0 ∧
        (s.rd.blks = [b] → u.pack.decompErrors = sat32 (s.pack.decompErrors + 1) ∧
          Tab.getD u.ev.counts 0x512 0 = sat32 (Tab.getD s.ev.counts 0x512 0 + 1)) ∧
        (x.id = id → ∃ z, getTape u id = some z ∧ z.fault = true)) := by
  intro r
  obtain ⟨t, i, ht, hrow⟩ := blockDecode_decodes h hbuf
  obtain rfl := id_of_getTape h.tape
  set b' := b.inBuf (some i)
  set v := setTape b' t
  have hstreams : v.streams = s.streams := ht.streams
  have hpack : v.pack = s.pack := ht.pack
  have hcount : Tab.getD v.ev.counts 0x512 0 = Tab.getD s.ev.counts 0x512 0 := ht.counts 0x512 (by decide)
  have hpresent : (getTape v b'.id).isSome = true := by
    refine present_setTape ?_ b'
    rw [getTape_congr ht.rd, show getTape s b'.id = some b from h.tape]
    rfl
  have hsingle : s.rd.blks = [b] → v.rd.blks.length ≤ 1 := fun hs =>
    ((List.length_map ..).trans (by rw [ht.rd, hs]; rfl)).le
  rw [decodeChain_eq, decodeLane_congr hstreams] at hrow
  obtain ⟨hok, hbad⟩ := decodeLane_inBuf s b (some i) (laneStart l).2 (laneStart l).1.isSome ((laneStart l).1.getD {})
  refine ⟨_, hrow, fun y hr hy => ?_, fun x hr => ?_⟩
  · obtain ⟨hq, y', hy', hlast, hid, hfrags⟩ := hok hr
    obtain rfl : y' = y := Option.some.inj (hy'.symm.trans hy)
    obtain ⟨hz, herr⟩ := chainOf_decoded (y := y'.inBuf (some i)) hpresent hq hlast hid
    exact ⟨hfrags, hz, fun hs => (herr (hsingle hs)).trans (congrArg Pack.decompErrors hpack)⟩
  · obtain ⟨x', hx', hid⟩ := hbad x hr
    obtain ⟨⟨hd, hc⟩, herr, hz⟩ := chainOf_failed hpresent hx'
    rw [hpack, hcount] at herr
    rw [hpack] at hd
    rw [hcount] at hc
    exact ⟨hd, hc, fun hs => herr (hsingle hs), fun h => hz (hid.trans h)⟩

end

end Sys2Proof.Machine
end

section
/-! The start of a REBUILD_RANGE on an otherwise idle device, and the blocks read from tape (R118, R425). -/

namespace Sys2Proof.Machine

/-- The one command of the device is a REBUILD_RANGE under way; no block, dataset or drain is (R118). -/
structure OnlyRebuilding (s : State) (slot : Nat) (c : Cmd) (j : RebuildJob) : Prop where
  cmds : s.host.cmds = [(slot, c)]
  stage : c.stage = .rebuilding j
  waiting : s.wr.waiting = []
  drain : s.pwr.drain = none
  activate : s.fw.activate = none
  streams : ∀ p ∈ s.streams, p.2.openBlk = none ∧ p.2.state ≠ .closing

section
variable {s : State} {slot : Nat} {c : Cmd} {j : RebuildJob} (h : OnlyRebuilding s slot c j)
include h

theorem getCmd_of_onlyRebuilding : getCmd s slot = some c := by simp [getCmd, h.cmds, Tab.get?]

/-- Nothing drains. -/
theorem drains_of_onlyRebuilding : drains s = [] := by
  have hstr : (s.streams.filterMap fun p =>
      if p.2.state = .closing && p.2.closer.isNone then some ({ scope := 0, stream := p.1, seq := s.host.fetchSeq } : Drain)
      else none) = [] :=
    List.filterMap_eq_nil_iff.2 fun p hp => if_neg (by simp [(h.streams p hp).2])
  unfold drains
  rw [hstr]
  simp [h.cmds, h.stage, h.activate, h.drain]

/-- No block waits for its place, and no drain closes a dataset. -/
theorem settleN_of_onlyRebuilding (n : Nat) : settleN n s = s := by
  have hplace : placeAll s = s := by
    unfold placeAll
    simp [h.waiting, placeLoop, nextToPlace]
  induction n with
  | zero => rfl
  | succ n ih => rw [settleN, hplace, pushDrains, drains_of_onlyRebuilding h, List.foldl_nil, ih]

theorem closeEnded_of_onlyRebuilding : closeEnded s = s :=
  foldl_same fun p hp => if_neg (by simp [(h.streams p hp).2])

/-- No WRITE ends. -/
theorem checkWrites_of_onlyRebuilding : checkWrites s = s := by
  unfold checkWrites
  rw [h.cmds]
  simp [checkWrite, getCmd_of_onlyRebuilding h, h.stage]

theorem cutWanted_of_onlyRebuilding : cutWanted s = s := by
  unfold cutWanted
  rw [h.cmds]
  simp [h.stage]

theorem findRebuild_of_onlyRebuilding : findRebuild s = some (slot, j) := by
  unfold findRebuild
  rw [h.cmds]
  simp [h.stage]

/-- Nothing reads, and the reads go on from the rebuild (R176). -/
theorem settle_of_onlyRebuilding (hgone : tapeGone s = false) : settle s = readsListed (rebuildCheck s) := by
  have htry : tryRead slot s = s := by
    unfold tryRead
    simp only [getCmd_of_onlyRebuilding h, h.stage]
  have hfail : failReads s = s := by
    unfold failReads
    simp [hgone]
  unfold settle
  rw [settleN_of_onlyRebuilding h, closeEnded_of_onlyRebuilding h, endPowerDrain, h.drain, checkWrites_of_onlyRebuilding h,
    readsAdvance_eq, cutWanted_of_onlyRebuilding h, h.cmds]
  exact congrArg (fun t => readsListed (rebuildCheck t)) ((congrArg failReads htry).trans hfail)

/-- The command set to what it is. -/
theorem setCmd_of_onlyRebuilding : setCmd slot c s = s := by
  have hput : Tab.put s.host.cmds slot c = s.host.cmds := by
    rw [h.cmds]
    simp [Tab.put]
  unfold setCmd
  rw [hput]

end

/-- The next dataset of a rebuild has not failed on write (R118, R425). -/
theorem rebuildNext_of_sound {s : State} {j : RebuildJob} (h : s.index.failed.contains j.next = false) (k : Nat) :
    rebuildNext s k j = j.next := by
  cases k with
  | zero => rfl
  | succ k => exact if_neg (by rw [h]; exact Bool.false_ne_true)

section
variable {s : State} {slot : Nat} {c : Cmd} {j : RebuildJob} (h : OnlyRebuilding s slot c j) (hstopped : j.stopped = false)
  (hfailed : s.index.failed.contains j.next = false) (hrange : j.next ≤ j.last)
include h hstopped hfailed hrange

/-- A rebuild with datasets ahead goes on as it is (R118, R430). -/
theorem rebuildCheck_goes_on (hwr : s.wr.stopped = false) : rebuildCheck s = s := by
  have hset : setStage slot (.rebuilding j) s = s := by
    rw [setStage_of_cmd (getCmd_of_onlyRebuilding h), ← h.stage]
    exact setCmd_of_onlyRebuilding h
  unfold rebuildCheck
  simp [findRebuild_of_onlyRebuilding h, hwr, hset, hstopped, rebuildNext_of_sound hfailed, Nat.not_lt.2 hrange]

/-- The dataset that a rebuild takes next is the one to be read (R176). -/
theorem allNeeds_of_onlyRebuilding : allNeeds s = [j.next] := by
  unfold allNeeds rebuildNeeds
  rw [h.cmds]
  simp [h.stage, findRebuild_of_onlyRebuilding h, hstopped, rebuildNext_of_sound hfailed, Nat.not_lt.2 hrange]

/-- With nothing under the head the dataset is listed, and nothing else follows (R118, R176). -/
theorem settle_lists_rebuild (hgone : tapeGone s = false) (hwr : s.wr.stopped = false) (hcur : s.rd.cur = none) :
    ∃ R, settle s = { s with rd := R } ∧ R.queue = [j.next] := by
  rw [settle_of_onlyRebuilding h hgone, rebuildCheck_goes_on h hstopped hfailed hrange hwr]
  unfold readsListed
  simp only [allNeeds_of_onlyRebuilding h hstopped hfailed hrange, hcur, List.filter_cons_of_pos, List.filter_nil,
    List.isEmpty_cons, Bool.false_and, Bool.false_eq_true, if_false]
  exact ⟨_, rfl, rfl⟩

end

/-- The rebuild that a REBUILD_RANGE starts (R118). -/
def rebuildOf (c : Cmd) : RebuildJob := { next := eDsFirst c.entry, last := eDsFirst c.entry + eDsCount c.entry - 1 }

section
variable {slot : SlotId} {c : Cmd} {s : State} (h : Started s slot.val opRebuild c) (hgone : tapeGone s = false)
include h hgone

/-- REBUILD_RANGE starts at its first dataset (R118, R425). -/
theorem rebuildRange_starts : exec (.rebuildRange slot []) s =
    .next (settle (setCmd slot.val { c with stage := .rebuilding (rebuildOf c) } s)) := by
  have hecc : eccReads [] s = s := rfl
  have hclean : poisonedIndex s [] = false := rfl
  rw [exec_rebuildRange, execRebuildRange, onCmd_of_started h (by simp), ← setStage_of_cmd h.cmd]
  simp only [hecc, hclean, hgone, Bool.false_eq_true, if_false]
  rfl

/-- On an otherwise idle device its first dataset is listed (R118, R176). -/
theorem rebuildRange_lists (hcmds : s.host.cmds = [(slot.val, c)]) (hwait : s.wr.waiting = []) (hwr : s.wr.stopped = false)
    (hdrain : s.pwr.drain = none) (hact : s.fw.activate = none) (hcur : s.rd.cur = none)
    (hstr : ∀ p ∈ s.streams, p.2.openBlk = none ∧ p.2.state ≠ .closing) (hcount : 0 < eDsCount c.entry)
    (hfailed : s.index.failed.contains (eDsFirst c.entry) = false) :
    ∃ t, exec (.rebuildRange slot []) s = .next t ∧ getCmd t slot.val = some { c with stage := .rebuilding (rebuildOf c) } ∧
      t.rd.queue = [eDsFirst c.entry] ∧ t.out = s.out ∧ t.wr = s.wr ∧ t.cart = s.cart ∧ t.streams = s.streams := by
  set c' : Cmd := { c with stage := .rebuilding (rebuildOf c) }
  have honly : OnlyRebuilding (setCmd slot.val c' s) slot.val c' (rebuildOf c) :=
    { cmds := by
        show Tab.put s.host.cmds slot.val c' = _
        rw [hcmds]
        simp [Tab.put]
      stage := rfl, waiting := hwait, drain := hdrain, activate := hact, streams := hstr }
  obtain ⟨R, hsettle, hR⟩ := settle_lists_rebuild honly rfl hfailed (by simp only [rebuildOf]; omega) hgone hwr hcur
  refine ⟨_, (rebuildRange_starts h hgone).trans (congrArg _ hsettle), ?_, hR, rfl, rfl, rfl, rfl⟩
  exact getCmd_setCmd_self ..

end

/-- Settles O36: the rebuild by its first dataset, a block's decryption by its tag and buffer, its decoding by its chain. -/
theorem tapeBlocksAreDecoded : Obligations.TapeBlocksAreDecoded := by
  unfold Obligations.TapeBlocksAreDecoded
  refine ⟨fun slot c s h hgone => ⟨⟨_, rebuildRange_starts h hgone, getCmd_setCmd_self .., rfl, rfl, rfl, rfl⟩, ?_⟩, ?_, ?_⟩
  · intro hcmds _ hwait _ _ _ hwr hdrain hact hcur hstr hcount hfailed
    exact rebuildRange_lists h hgone hcmds hwait hwr hdrain hact hcur hstr hcount hfailed
  · intro p id b k s htape hkey hcip hworks hplain hauth hread hwhole hreq hup
    have h : Decryptable s id b k := ⟨htape, hkey, hcip, hworks, hplain, hauth, hread, hwhole, hreq, hup⟩
    refine ⟨fun hbuf => ?_, blockDecrypted_waits h⟩
    obtain ⟨t, i, ht, hev, hrow⟩ := blockDecrypted_decrypts (p := p) h hbuf
    obtain rfl := id_of_getTape htape
    obtain ⟨u, hu, hgood, hbad⟩ := decrypted_result (p := p.val) (i := i) (k := k) (b := { b with buf := some i })
      ((getTape_congr ht.rd b.id).trans htape)
    rw [ht.cip, hev] at hgood
    rw [ht.cip] at hbad
    refine ⟨u, i, hrow.trans (congrArg _ hu), fun l hl => hgood l hl, fun hl => ?_⟩
    obtain ⟨hz, hdec, hfail, hcount⟩ := hbad hl
    exact ⟨hz, hdec, hfail, hcount.trans (congrArg (fun e : Ev => sat32 (Tab.getD e.counts 0x521 0 + 1)) hev)⟩
  · intro e id b l s htape hwait hhist hserves henabled hrests hreq hplain hbuf
    exact blockDecode_result ⟨htape, hwait, hhist, hserves, henabled, hrests, hreq, hplain⟩ hbuf

end Sys2Proof.Machine
end

section
/-! SUPPORT. What the request of an agent for a dataset buffer changes, and a command that ends with one thing left to the posting of
its completion (R20, R71, R193-R195, R198, R199). -/

namespace Sys2Proof.Machine

/-- Only where the fill of the pool of datasets rises past its mark are WRITEs throttled (R198, R199). -/
theorem updAbove_host {s : State} (h : (updAbove s).bpm.above = s.bpm.above) : (updAbove s).host = s.host := by
  unfold updAbove at h ⊢
  split
  next hfill =>
    rw [if_pos hfill] at h
    split
    · rfl
    next hbelow =>
      rw [if_neg hbelow] at h
      exact absurd h.symm hbelow
  next => split <;> rfl

/-- A buffer taken issues nothing, and throttles only where the fill of the pool of datasets rises past its mark (R189, R199). -/
theorem takeBuf_host (owner p : Nat) (s : State) : (takeBuf owner p s).1.out = s.out ∧
    ((takeBuf owner p s).1.bpm.above = s.bpm.above → (takeBuf owner p s).1.host = s.host) := by
  unfold takeBuf
  extract_lets free id _ s1 s2
  refine ⟨?_, fun h => updAbove_host (s := s2) h⟩
  obtain ⟨H, a, h⟩ := updAbove_eq s2
  show (updAbove s2).out = s.out
  rw [h]
  rfl

/-- `u` follows from `s` by an agent's delayed request for a buffer of a dataset: the buffer `b` is granted or the request `q` is
held (R193-R195). -/
structure AskedBuf (s u : State) (b q : Option Nat) : Prop where
  bufs : BufOnly s u
  aside : Aside s u
  out : u.out = s.out
  host : u.bpm.above = s.bpm.above → u.host = s.host
  granted : (choosePool s 1 25165824).isSome = true → b.isSome = true
  held : choosePool s 1 25165824 = none → b = none ∧ q = some s.bpm.nextHeld

theorem askBuf_asked (agent owner : Nat) (s : State) :
    AskedBuf s (askBuf owner 25165824 (agentTag agent s).1 (agentTag agent s).2).1
      (askBuf owner 25165824 (agentTag agent s).1 (agentTag agent s).2).2.1
      (askBuf owner 25165824 (agentTag agent s).1 (agentTag agent s).2).2.2 := by
  have htag : tagClass (agentTag agent s).1 = 3 := tagClass_internalTag ..
  have hbufs := (agentTag_bufOnly agent s).trans (askBuf_bufOnly owner 25165824 (agentTag agent s).1 _)
  have haside := (agentTag_aside agent s).trans (askBuf_aside htag owner 25165824 _)
  have hpool : choosePool (agentTag agent s).2 1 25165824 = choosePool s 1 25165824 := rfl
  unfold askBuf at hbufs haside ⊢
  cases hp : choosePool s 1 25165824 with
  | some p =>
    simp only [hpool, hp] at hbufs haside ⊢
    obtain ⟨hout, hhost⟩ := takeBuf_host owner p (agentTag agent s).2
    rw [retag_of_internal htag] at hbufs haside ⊢
    exact ⟨hbufs, haside, hout, hhost, fun _ => rfl, fun h => absurd (hp.symm.trans h) (Option.some_ne_none p)⟩
  | none =>
    simp only [hpool, hp] at hbufs haside ⊢
    exact ⟨hbufs, haside, rfl, fun _ => rfl, fun h => absurd h (by simp [hp]), fun _ => ⟨rfl, rfl⟩⟩

/-- A command that leaves one thing to the posting of its completion ends, and that is settled then (R71). -/
theorem complete_onPost {s : State} {slot : Nat} {c : Cmd} {v : Qp} (hc : getCmd s slot = some c) (hs : c.stage ≠ .held)
    (ht : Takes s c v) (a : PostAct) (p : Cmd → Cpl) (e : ErrInfo) :
    Ends s (complete slot p e (onPost slot a s)) slot v (p { c with post := [a] }) ∧
      ∃ H O, FnsOut (a.apply { s with host := H, out := O }) (complete slot p e (onPost slot a s)) := by
  set c' : Cmd := { c with post := [a] }
  have hc' : getCmd (setCmd slot c' s) slot = some c' := getCmd_setCmd_self ..
  have hnow : TakesNow (setCmd slot c' s) c' v :=
    { live := ht.live, qp := ht.qp, epoch := ht.epoch, held := ht.held, writes := ht.writes, room := ht.room }
  rw [onPost_of_cmd hc ht.plain, complete_of_takesNow hc' hs hnow]
  obtain ⟨n, k, o, b, herr⟩ := errored_keeps c' (p c') e (setCmd slot c' s).time v
  set w := errored c' (p c') e (setCmd slot c' s).time v
  set u := writeCpl c'.fn c'.qp ⟨some slot, some c', p c'⟩ w (setQp c'.fn c'.qp w (setCmd slot c' s)) with hu
  obtain ⟨l, hl, hout⟩ := writeCpl_out c'.fn c'.qp ⟨some slot, some c', p c'⟩ w (setQp c'.fn c'.qp w (setCmd slot c' s))
  have hsame : FnsOut (setCmd slot c' s) u := (setQp_fnsOut ..).trans (writeCpl_fnsOut ..)
  have hcu : getCmd u slot = some c' := by rw [getCmd, hsame.cmds]; exact hc'
  refine ⟨⟨⟨l, [], hl, ?_⟩, getCmd_dropCmd_self ..⟩, ?_⟩
  · rw [dropCmd_out, hu, hout, herr]
    rfl
  · rw [dropCmd_of_post hcu rfl ht.kept]
    obtain ⟨F, O, e⟩ := hsame
    rw [e]
    exact ⟨_, O, shutdownCheck_fnsOut ..⟩

end Sys2Proof.Machine
end

section
/-! Streams created and opened: the statement of STREAM_CREATE and STREAM_OPEN (R101, R119, R148, R149, R158, R211, R212). -/

namespace Sys2Proof.Machine

/-! STREAM_CREATE. -/

/-- The first entry of the stream that a STREAM_CREATE makes (R158). -/
def firstEntry (s : State) (e : BitVec 512) : IndexEntry :=
  .stream ⟨false, eStream e, eOwnerFn e, classResolved s e, eCipherEn e, 0, s.recordLease⟩

/-- The first entry of a stream waits for the next dataset header, and a dataset is asked for (R158). -/
theorem fetchCreate_of_room {s : State} (h : mediumFull s = false) (seq : Nat) (e : BitVec 512) : fetchCreate seq e s =
    openDataset 0 (agentTag agStream s).1
      { (agentTag agStream s).2 with wr := { s.wr with queued := s.wr.queued ++ [firstEntry s e] } } := by
  unfold fetchCreate
  simp only [h, Bool.false_eq_true, if_false]
  rfl

theorem openDataset_of_filling {s : State} (h : s.wr.filling.isSome = true) (cont : Nat) (tag : BitVec 128) :
    openDataset cont tag s = s := by
  unfold openDataset
  simp [h]

/-- Beside the buffers, a dataset that is opened or asked for changes what is filling alone (R193, R195, R196). -/
theorem openDataset_eq (cont : Nat) (tag : BitVec 128) (s : State) : ∃ u f n q, BufOnly s u ∧
    openDataset cont tag s = { u with wr := { u.wr with filling := f, nextDs := n, bufReq := q } } := by
  unfold openDataset
  split
  · exact ⟨s, s.wr.filling, s.wr.nextDs, s.wr.bufReq, .refl s, rfl⟩
  · have hr : BufOnly s (askBuf 0x80 25165824 tag s).1 := askBuf_bufOnly ..
    cases hb : (askBuf 0x80 25165824 tag s).2.1 with
    | some id => exact ⟨_, _, _, _, hr, by simp only [hb]; rfl⟩
    | none => exact ⟨_, _, _, _, hr, by simp only [hb]; rfl⟩

/-- With none filling and a buffer free, a new dataset is filling (R193, R196). -/
theorem openDataset_opens {s : State} (hf : s.wr.filling = none) (hq : s.wr.bufReq = none)
    (hp : (choosePool s 1 25165824).isSome = true) (cont : Nat) (tag : BitVec 128) :
    ∃ d, (openDataset cont tag s).wr.filling = some d ∧ d.id = s.wr.nextDs ∧ d.payload = [] ∧ d.state = .filling := by
  obtain ⟨u, i, hask, hu, -⟩ := askBuf_grants hp 0x80 tag
  have hno : ¬(s.wr.filling.isSome || s.wr.bufReq.isSome) = true := by simp [hf, hq]
  unfold openDataset
  simp only [if_neg hno, hask]
  exact ⟨_, rfl, congrArg Wr.nextDs hu.wr, rfl, rfl⟩

section
variable {slot : SlotId} {c : Cmd} {s : State} (h : Started s slot.val opStreamCreate c)
  (hfail : Tab.get? s.wr.failedCreates c.seq = none) (hres : Tab.get? s.reserved (eStream c.entry) = some c.seq)
include h hfail hres

/-- While its first entry is not on tape, the STREAM_CREATE waits (R148, R158). -/
theorem streamCreate_waits (hx : getStream s (eStream c.entry) = none) :
    exec (.streamCreate slot) s = .next (setCmd slot.val { c with stage := .waiting } s) := by
  rw [exec_streamCreate, execStreamCreate, onCmd_of_started h (List.mem_singleton_self _)]
  simp only [hfail, hres, hx, ne_eq, not_true_eq_false, Option.isSome_none, Bool.false_eq_true, if_false,
    setStage_of_cmd h.cmd]

/-- Once it is, the STREAM_CREATE completes, and its posting releases the identifier (R148, R158). -/
theorem streamCreate_finishes (hx : (getStream s (eStream c.entry)).isSome = true) : exec (.streamCreate slot) s =
    .next (finish slot.val .success 0 (onPost slot.val (.unreserve (eStream c.entry)) s)) := by
  rw [exec_streamCreate, execStreamCreate, onCmd_of_started h (List.mem_singleton_self _)]
  simp only [hfail, hres, hx, ne_eq, not_true_eq_false, if_false, if_true]

end

/-- An identifier released: its stream can be named (R101, R148). -/
theorem finish_unreserve {s : State} {slot : Nat} {c : Cmd} {v : Qp} (hc : getCmd s slot = some c) (hs : c.stage ≠ .held)
    (ht : Takes s c v) (n : Nat) (st : Status) (block : Nat) :
    let t := finish slot st block (onPost slot (.unreserve n) s)
    Ends s t slot v (baseCpl c st) ∧ t.reserved = Tab.del s.reserved n ∧
      (∀ x, getStream s n = some x → getStream t n = some { x with creating := false }) ∧
      (∀ m, m ≠ n → getStream t m = getStream s m) ∧ t.wr = s.wr := by
  obtain ⟨hends, H, O, F, O', ht⟩ := complete_onPost hc hs ht (.unreserve n) (fun c => baseCpl c st) { block := block }
  have hstr : (finish slot st block (onPost slot (.unreserve n) s)).streams =
      (updStream n (fun x => { x with creating := false }) s).streams := by
    rw [finish, ht]
    rfl
  refine ⟨hends, ?_, fun x hx => ?_, fun m hm => ?_, ?_⟩
  · rw [finish, ht]
    rfl
  · rw [getStream_congr hstr, getStream_updStream_self, hx]
    rfl
  · rw [getStream_congr hstr, getStream_updStream_ne _ _ hm]
  · rw [finish, ht]
    rfl

/-! STREAM_OPEN. -/

/-- A stream as its STREAM_OPEN sets it up, before the completion is posted (R119, R211, R212). -/
def setUp (e : BitVec 512) (lanes : Nat) (x : Stream) : Stream :=
  { x with readOnly := eReadOnly e, lanes := if x.comp = 2 then 1 else lanes, cut := 0, openBlk := none, entryNext := true,
           entryLeft := 0, entryBytes := 0, mustIndep := [], runs := [], placed := x.next }

/-- What a STREAM_OPEN completes with: NextRecord and the class (R119). -/
def openSays (x : Stream) : List (Nat × Nat) := [(48, x.next), (16, 0), (2, x.comp)]

/-- A STREAM_OPEN of a stream that it marked at its fetch sets it up and completes (R101, R119, R149). -/
theorem streamOpen_sets_up {slot : SlotId} {c : Cmd} {x : Stream} {s : State} (h : Started s slot.val opStreamOpen c)
    (hx : getStream s (eStream c.entry) = some x) (hmark : x.opening = some c.seq) (hcount : openCount s < 1024) :
    exec (.streamOpen slot []) s = .next (finishWith slot.val .success (openSays x) 0 (onPost slot.val (.opened (eStream c.entry))
      (updStream (eStream c.entry) (setUp c.entry (param s 0x5010 3)) s))) := by
  have hecc : eccReads [] s = s := rfl
  rw [exec_streamOpen, execStreamOpen, onCmd_of_started h (List.mem_singleton_self _)]
  simp only [hecc, hx, hmark, ne_eq, not_true_eq_false, if_false, poisonedIndex_nil, Bool.false_eq_true,
    if_neg (Nat.not_le.2 hcount)]
  rfl

/-- A stream as it is once its STREAM_OPEN is posted (R101). -/
def openedOf (x : Stream) : Stream := { x with state := if x.opening.isSome then .opened else x.state, opening := none }

/-- A stream opens with the posting of the completion (R101). -/
theorem finishWith_opened {s : State} {slot : Nat} {c : Cmd} {v : Qp} (hc : getCmd s slot = some c) (hs : c.stage ≠ .held)
    (ht : Takes s c v) (n : Nat) (spec : List (Nat × Nat)) :
    let t := finishWith slot .success spec 0 (onPost slot (.opened n) s)
    Ends s t slot v { baseCpl c .success with specific := BitVec.ofNat 96 (packLsb spec) } ∧
      t.streams = (updStream n openedOf s).streams ∧ t.cart = s.cart ∧ t.index = s.index ∧ t.pack = s.pack := by
  obtain ⟨hends, H, O, F, O', ht⟩ := complete_onPost hc hs ht (.opened n)
    (fun c => { baseCpl c .success with specific := BitVec.ofNat 96 (packLsb spec) }) { block := 0 }
  refine ⟨hends, ?_, ?_, ?_, ?_⟩
  all_goals
    rw [finishWith, ht]
    rfl

/-- Settles O29: the fetch by the dataset it asks for, the two commands by what the posting of their completions settles. -/
theorem streamsAreCreatedAndOpened : Obligations.StreamsAreCreatedAndOpened := by
  unfold Obligations.StreamsAreCreatedAndOpened
  refine ⟨fun seq e s hroom => ?_, fun slot c s h hfail hres => ⟨fun hx => ?_, fun v hx ht => ?_⟩,
    fun slot c x v s h hx hmark hcount ht => ?_⟩
  · rw [fetchCreate_of_room hroom]
    set a : State := { (agentTag agStream s).2 with wr := { s.wr with queued := s.wr.queued ++ [firstEntry s e] } }
    obtain ⟨u, f, n, q, hu, he⟩ := openDataset_eq 0 (agentTag agStream s).1 a
    refine ⟨?_, by rw [he]; exact hu.streams, fun hf => ?_, fun hf hq hp => ?_⟩
    · rw [he]
      exact congrArg Wr.queued hu.wr
    · rw [openDataset_of_filling (s := a) hf]
      exact ⟨rfl, rfl⟩
    · exact openDataset_opens (s := a) hf hq hp ..
  · exact ⟨_, streamCreate_waits h hfail hres hx, getCmd_setCmd_self .., rfl, rfl, rfl, rfl⟩
  · exact ⟨_, streamCreate_finishes h hfail hres hx, finish_unreserve h.cmd (by rw [h.stage]; exact Stage.noConfusion) ht ..⟩
  · set a := updStream (eStream c.entry) (setUp c.entry (param s 0x5010 3)) s
    obtain ⟨hends, hstr, hcart, hindex, hpack⟩ := finishWith_opened (s := a) h.cmd (by rw [h.stage]; exact Stage.noConfusion)
      (ht.of_qp rfl) (eStream c.entry) (openSays x)
    have ha : getStream a (eStream c.entry) = some (setUp c.entry (param s 0x5010 3) x) := by
      rw [getStream_updStream_self, hx]
      rfl
    refine ⟨_, openedOf (setUp c.entry (param s 0x5010 3) x), streamOpen_sets_up h hx hmark hcount, hends.of_out (k := []) rfl,
      ?_, ?_, ?_⟩
    · rw [getStream_congr hstr, getStream_updStream_self, ha]
      rfl
    · simp [openedOf, setUp, hmark]
    · refine ⟨rfl, rfl, rfl, rfl, rfl, rfl, rfl, rfl, rfl, rfl, rfl, rfl, fun m hm => ?_, hcart, hindex, hpack⟩
      rw [getStream_congr hstr, getStream_updStream_ne _ _ hm, getStream_updStream_ne _ _ hm]

end Sys2Proof.Machine
end

section
/-! The scheduling of reads and the rounds of correction: the statement of READ_BATCH_WINDOW, READ_AGE_LIMIT, DATASET_DECODE,
HARVEST_READ and READ_RETRY (R176, R178, R196, R415-R420). -/

namespace Sys2Proof.Machine

/-! The dataset read first. -/

/-- The lower of two places on tape, the earlier one where they agree. -/
def lowerPlace (m : Option (Nat × Nat)) (p : Nat × Nat) : Option (Nat × Nat) :=
  match m with
  | some q => if p.1 < q.1 then some p else some q
  | none => some p

theorem foldl_lowerPlace (l : List (Nat × Nat)) :
    ∀ q, ∃ r, l.foldl lowerPlace (some q) = some r ∧ r ∈ q :: l ∧ ∀ p ∈ q :: l, r.1 ≤ p.1 := by
  induction l with
  | nil => exact fun q => ⟨q, rfl, by simp, by simp⟩
  | cons p l ih =>
    intro q
    have hstep : ∃ k, lowerPlace (some q) p = some k ∧ (k = q ∨ k = p) ∧ k.1 ≤ q.1 ∧ k.1 ≤ p.1 := by
      by_cases h : p.1 < q.1
      · exact ⟨p, if_pos h, .inr rfl, h.le, le_rfl⟩
      · exact ⟨q, if_neg h, .inl rfl, le_rfl, Nat.not_lt.1 h⟩
    obtain ⟨k, hk, hwhich, hkq, hkp⟩ := hstep
    obtain ⟨r, hr, hmem, hleast⟩ := ih k
    have hrk : r.1 ≤ k.1 := hleast k (List.mem_cons_self ..)
    refine ⟨r, by rw [List.foldl_cons, hk, hr], ?_, fun x hx => ?_⟩
    · obtain rfl | hmem := List.mem_cons.1 hmem
      · rcases hwhich with rfl | rfl <;> simp
      · exact List.mem_cons_of_mem _ (List.mem_cons_of_mem _ hmem)
    · simp only [List.mem_cons] at hx
      obtain rfl | rfl | hx := hx
      · exact hrk.trans hkq
      · exact hrk.trans hkp
      · exact hleast x (List.mem_cons_of_mem _ hx)

/-- The choice of the next dataset, through the lowest place of a list (R176). -/
theorem chooseRead_eq (s : State) : chooseRead s =
    match s.rd.urgent with
    | some n => some n
    | none =>
      match (((s.rd.queue.map fun n => (currentOf s n, n)).filter fun p => decide (s.rd.last ≤ p.1)).foldl lowerPlace none) with
      | some p => some p.2
      | none => ((s.rd.queue.map fun n => (currentOf s n, n)).foldl lowerPlace none).map (·.2) := rfl

/-- A batch begins with the dataset lowest on tape (R176; log entry 114). -/
theorem chooseRead_lowest {s : State} (hu : s.rd.urgent = none) (hl : s.rd.last = 0) (hq : s.rd.queue ≠ []) :
    ∃ n, chooseRead s = some n ∧ n ∈ s.rd.queue ∧ ∀ m ∈ s.rd.queue, currentOf s n ≤ currentOf s m := by
  obtain ⟨a, l, hal⟩ := List.exists_cons_of_ne_nil hq
  obtain ⟨r, hr, hmem, hleast⟩ := foldl_lowerPlace (l.map fun n => (currentOf s n, n)) (currentOf s a, a)
  have hall : (s.rd.queue.map fun n => (currentOf s n, n)).filter (fun p => decide (s.rd.last ≤ p.1)) =
      (currentOf s a, a) :: l.map fun n => (currentOf s n, n) := by
    rw [hl, hal, List.filter_eq_self.2 (by simp), List.map_cons]
  have hplace : ∀ m ∈ s.rd.queue, (currentOf s m, m) ∈ (currentOf s a, a) :: l.map fun n => (currentOf s n, n) := by
    rw [hal, ← List.map_cons (f := fun n => (currentOf s n, n))]
    exact fun m hm => List.mem_map_of_mem hm
  rw [← List.map_cons (f := fun n => (currentOf s n, n)), ← hal] at hmem
  obtain ⟨n, hn, rfl⟩ := List.mem_map.1 hmem
  refine ⟨n, ?_, hn, fun m hm => hleast _ (hplace m hm)⟩
  rw [chooseRead_eq, hu, hall]
  simp only [List.foldl_cons, lowerPlace] at hr ⊢
  rw [hr]

/-- A dataset as its read begins (R175, R176). -/
def readOf (n : Nat) (s : State) : ReadDs :=
  { number := currentOf s n, orig := n, wrap := (placeOf s.cart.wraps s.cart.grid (currentOf s n)).1 }

/-- The flow tag `f` with the buffer that was granted (R19). -/
def flowWith (f : BitVec 128) : Option Nat → BitVec 128
  | some id => tagWithBuf f id
  | none => f

/-- The Read Engine as the read of a dataset begins, with its buffer or the request for one (R176, R366). -/
def readBegun (n : Nat) (b q : Option Nat) (f : BitVec 128) (s : State) : Rd :=
  { s.rd with
    queue := s.rd.queue.filter (· != n), urgent := none, offset := 0, speed := param s 0x4840 9, last := currentOf s n + 1,
    cur := some { readOf n s with buf := b, bufReq := q, flow := flowWith f b }, eqTarget := param s 0x4850 9 }

/-- The read of the dataset chosen begins with the request for its buffer (R176, R193). -/
theorem startRead_of_chosen {s : State} {n : Nat} (hmay : readsMayStart s = true) (hn : chooseRead s = some n) :
    ∃ u b q f, AskedBuf s u b q ∧ startRead s = { u with rd := readBegun n b q f s } := by
  set a := agentTag (if (findRebuild s).isSome then agRebuild else agStream) s with ha
  have hask := askBuf_asked (if (findRebuild s).isSome then agRebuild else agStream) 0x80 s
  obtain ⟨u, b, q, he⟩ : ∃ u b q, askBuf 0x80 25165824 a.1 a.2 = (u, b, q) := ⟨_, _, _, rfl⟩
  rw [← ha, he] at hask
  refine ⟨u, b, q, a.1, hask, ?_⟩
  unfold startRead
  simp only [hmay, hn, Bool.not_true, Bool.false_eq_true, if_false, ← ha, he]
  unfold takeEqTarget readBegun readOf
  have hrd : u.rd = s.rd := hask.bufs.rd
  have hparam : ∀ R k w, param { u with rd := R } k w = param s k w := fun _ _ _ => param_of_dict hask.bufs.dict ..
  rw [hparam, hrd, hparam]
  cases b <;> rfl

theorem startRead_of_waiting {s : State} (h : readsMayStart s = false ∨ chooseRead s = none) : startRead s = s := by
  unfold startRead
  by_cases hm : readsMayStart s = true
  · rw [h.resolve_left (by simp [hm])]
    simp [hm]
  · simp [hm]

/-- The collection of requests ended (R176). -/
def windowEnded (s : State) : State := { s with rd := { s.rd with collecting := false, batch := true, last := 0 } }

theorem currentOf_windowEnded (s : State) (n : Nat) : currentOf (windowEnded s) n = currentOf s n := by
  have hfollow : ∀ k m, followReloc (windowEnded s) k m = followReloc s k m := by
    intro k
    induction k with
    | zero => exact fun m => rfl
    | succ k ih =>
      intro m
      simp only [followReloc, ih]
      rfl
  exact hfollow ..

section
variable {s : State} (hcur : s.rd.cur = none) (hq : s.rd.queue ≠ []) (hpass : s.wr.pass = false) (hckpt : s.wr.ckpt = none)
  (hthread : s.cart.unthreading = false) (hstate : s.cart.state = .ready ∨ s.cart.state = .readOnly)
include hcur hq hpass hckpt hthread hstate

/-- With the tape free the reads of a batch may start (R176, R177). -/
theorem readsMayStart_of_batch : readsMayStart (windowEnded s) = true := by
  have hnil : s.rd.queue.isEmpty = false := by simpa using hq
  rcases hstate with h | h <;> simp [readsMayStart, windowEnded, hcur, hnil, hpass, hckpt, hthread, h]

/-- The window ends, and the dataset lowest on tape is read (R176, R193). -/
theorem readBatchWindow_starts (hcoll : s.rd.collecting = true) (hu : s.rd.urgent = none) :
    ∃ n u b q f, n ∈ s.rd.queue ∧ (∀ m ∈ s.rd.queue, currentOf s n ≤ currentOf s m) ∧ AskedBuf (windowEnded s) u b q ∧
      exec .readBatchWindow s = .next { u with rd := readBegun n b q f (windowEnded s) } := by
  obtain ⟨n, hn, hmem, hleast⟩ := chooseRead_lowest (s := windowEnded s) hu rfl hq
  obtain ⟨u, b, q, f, hask, he⟩ := startRead_of_chosen (readsMayStart_of_batch hcur hq hpass hckpt hthread hstate) hn
  simp only [currentOf_windowEnded] at hleast
  refine ⟨n, u, b, q, f, hmem, hleast, hask, ?_⟩
  rw [exec_readBatchWindow, execReadBatchWindow, if_pos hcoll, ← he]
  rfl

end

/-! What the rounds of correction leave of a dataset that is read. -/

/-- The codes fill payloads and drop those of failed members: beside what is known, nothing of the dataset changes (R416, R417). -/
def Filled (d e : ReadDs) : Prop := ∃ g, e = { d with got := g }

theorem Filled.refl (d : ReadDs) : Filled d d := ⟨_, rfl⟩

theorem Filled.trans {d e f : ReadDs} (h : Filled d e) (k : Filled e f) : Filled d f := by
  obtain ⟨g, rfl⟩ := h
  obtain ⟨g', rfl⟩ := k
  exact ⟨_, rfl⟩

theorem Filled.foldl {α : Type} {f : ReadDs × Nat → α → ReadDs × Nat} (hf : ∀ a x, Filled a.1 (f a x).1) (l : List α) :
    ∀ a, Filled a.1 (l.foldl f a).1 := by
  induction l with
  | nil => exact fun a => .refl _
  | cons x l ih => exact fun a => (hf a x).trans (ih _)

theorem putFilled_filled (l : List (Nat × Nat × List Byte)) (d : ReadDs) : Filled d (putFilled l d).1 := by
  refine Filled.foldl (fun a x => ?_) l (d, 0)
  dsimp only
  split_ifs
  · exact .refl _
  · exact ⟨_, rfl⟩

theorem c2Step_filled (a : ReadDs × Nat) (p : Nat) : Filled a.1 (c2Step a p).1 := by
  unfold c2Step
  extract_lets erased
  clear_value erased
  split
  · exact .refl _
  · split
    · exact .refl _
    · dsimp only
      exact putFilled_filled _ _

theorem c3Step_filled (t : Nat) (a : ReadDs × Nat) (x : Nat × Nat) : Filled a.1 (c3Step t a x).1 := by
  unfold c3Step
  extract_lets chans erased
  clear_value chans erased
  split
  · exact .refl _
  · split
    · exact .refl _
    · dsimp only
      exact putFilled_filled _ _

theorem round_filled (t : Nat) (ps : List Nat) (xs : List (Nat × Nat)) (d : ReadDs) :
    Filled d (xs.foldl (c3Step t) (ps.foldl c2Step (d, 0))).1 :=
  (Filled.foldl c2Step_filled ps (d, 0)).trans (Filled.foldl (c3Step_filled t) xs _)

theorem rounds_filled (n : Nat) : ∀ d, Filled d (rounds n d) := by
  induction n with
  | zero => exact .refl
  | succ n ih =>
    intro d
    have hround := round_filled (rotationOf d.number) (List.range 128)
      ((List.range 90).flatMap fun r => (List.range 4).map fun q => (r, q)) d
    unfold rounds
    dsimp only
    split
    · exact hround
    · exact hround.trans (ih _)

theorem roundsBy_filled (n : Nat) (h : List Byte) (d : ReadDs) : Filled d (roundsBy n h d) := by
  have hdrop : Filled d (dropFailed h d) := ⟨_, rfl⟩
  unfold roundsBy
  extract_lets e
  split
  · exact hdrop.trans (rounds_filled ..)
  · exact rounds_filled ..

theorem decodeRounds_filled (s : State) (d : ReadDs) : Filled d (decodeRounds s d) := by
  unfold decodeRounds
  extract_lets n e
  split
  · exact roundsBy_filled ..
  · have he : Filled d e := rounds_filled ..
    split
    · exact he.trans (roundsBy_filled ..)
    · exact he

/-- The rounds look at the parameters and the cartridge alone. -/
theorem decodeRounds_rd (s : State) (R : Rd) (d : ReadDs) : decodeRounds { s with rd := R } d = decodeRounds s d := rfl

/-! The end of a dataset's read. -/

/-- What the Read Engine is at: the dataset under the head, those read, the offset and the speed, and the retries counted. -/
def readingAt (s : State) : Option ReadDs × List Nat × Int × Nat × Nat :=
  (s.rd.cur, s.rd.seen, s.rd.offset, s.rd.speed, s.rd.retriesDone)

theorem readingAt_of_rd {s t : State} (h : t.rd = s.rd) : readingAt t = readingAt s := by rw [readingAt, readingAt, h]

theorem addBlks_readingAt (orig phys cont used : Nat) (u : UserArea) (s : State) :
    readingAt (addBlks orig phys cont used u s) = readingAt s := rfl

theorem addHeadless_readingAt (orig : Nat) (s : State) : readingAt (addHeadless orig s) = readingAt s := by
  unfold addHeadless
  split
  · rfl
  next u hu =>
    split
    next cont hc => exact addBlks_readingAt orig (currentOf s orig) cont payloadArea u s
    next => split <;> rfl

theorem setStage_rd (slot : Nat) (st : Stage) (s : State) : (setStage slot st s).rd = s.rd := by
  unfold setStage updCmd
  split <;> rfl

theorem buildCopy_rd (d : ReadDs) (u : UserArea) (h : Option (List Byte)) (cont used slot : Nat) (j : RebuildJob) (s : State) :
    (buildCopy d u h cont used slot j s).rd = s.rd := by
  unfold buildCopy
  extract_lets parts p moths reloc entries t s1 copy s2 s3
  have h2 : s2.rd = s.rd := foldl_keeps State.rd (fun t _ => raise_rd 0x563 [] t) moths s1
  exact (setStage_rd ..).trans h2

theorem rebuildTake_rd (d : ReadDs) (u : UserArea) (h : Option (List Byte)) (cont used : Nat) (s : State) :
    (rebuildTake d u h cont used s).rd = s.rd := by
  unfold rebuildTake
  split
  · rfl
  · split
    · rfl
    · split
      · exact setStage_rd ..
      · extract_lets j
        split
        · exact setStage_rd ..
        · exact buildCopy_rd ..

/-- The counters and events of a read change neither what is read nor the parameters (R420, R422). -/
theorem countRead_keeps (d : ReadDs) (s : State) : readingAt (countRead d s) = readingAt s ∧ (countRead d s).dict = s.dict := by
  unfold countRead
  extract_lets filled s1 lost _ s2
  have h1 : s1.rd = s.rd := foldl_keeps State.rd (fun _ _ => by rfl) filled s
  have h1d : s1.dict = s.dict := foldl_keeps State.dict (fun _ _ => by rfl) filled s
  have h2 : readingAt s2 = readingAt s := readingAt_of_rd (t := s1) h1
  constructor
  · exact (readingAt_of_rd (foldl_keeps State.rd (fun t x => raise_rd ..) lost s2)).trans h2
  · exact (foldl_keeps State.dict (fun t x => raise_dict ..) lost s2).trans h1d

/-- The read of a dataset ends: it has been read, nothing is under the head, and the speed of reads is the set one; then what waited
goes on (R176, R177, R418-R421). -/
theorem endDsRead_ends (d : ReadDs) (s : State) : ∃ u, endDsRead d s = startRead (tryCkpt (settle u)) ∧
    u.rd.cur = none ∧ d.orig ∈ u.rd.seen ∧ u.rd.offset = 0 ∧ u.rd.speed = param s 0x4840 9 ∧
    u.rd.retriesDone = s.rd.retriesDone := by
  unfold endDsRead
  extract_lets s1 h u _ s2 found used cont s3 _ s4 s5
  clear_value h
  refine ⟨s5, rfl, ?_⟩
  obtain ⟨hcount, hdict⟩ := countRead_keeps d s
  have h2 : readingAt s2 = (none, d.orig :: s1.rd.seen, 0, param s1 0x4840 9, s1.rd.retriesDone) :=
    readingAt_of_rd (freeOpt_bufOnly ..).rd
  have h3 : readingAt s3 = readingAt s2 := readingAt_of_rd (rebuildTake_rd ..)
  have h4 : readingAt s4 = readingAt s3 := by
    show readingAt (if !found then _ else _) = _
    split
    · rfl
    · split
      · exact addBlks_readingAt ..
      · exact addHeadless_readingAt ..
  have h5 : readingAt s5 = (none, d.orig :: s1.rd.seen, 0, param s1 0x4840 9, s1.rd.retriesDone) :=
    (addHeadless_readingAt ..).trans (h4.trans (h3.trans h2))
  simp only [readingAt, Prod.mk.injEq] at h5 hcount
  obtain ⟨hcur, hseen, hoffset, hspeed, hretries⟩ := h5
  refine ⟨hcur, by rw [hseen]; exact List.mem_cons_self .., hoffset, ?_, ?_⟩
  · rw [hspeed, param_of_dict hdict]
  · exact hretries.trans hcount.2.2.2.2

/-! A round of correction. -/

/-- A decode in its phase runs the rounds; then the dataset has been read, or what follows a miss does (R416-R418). -/
theorem decodePass_decodes {s : State} {d : ReadDs} {n : Nat} (hcur : s.rd.cur = some d) (hbuf : d.buf.isSome = true)
    (hphase : d.phase = n) (miss : ReadDs → State → State) : decodePass n [] miss s =
      if erasedData (decodeRounds s d) = [] then .next (endDsRead (decodeRounds s d) s)
      else .next (miss (decodeRounds s d) s) := by
  obtain ⟨b, hb⟩ := Option.isSome_iff_exists.1 hbuf
  have hbad : poisonedBuf s [] b = false := rfl
  have hecc : eccReads [] s = s := rfl
  unfold decodePass
  simp only [hcur, hb, hphase, hbad, hecc, ne_eq, not_true_eq_false, Bool.false_eq_true, if_false, List.isEmpty_iff]

/-- A retry that there is begins; else the dataset has been read (R418, R419). -/
theorem nextRetry_goes {d : ReadDs} {i : Nat} {s : State} (h : i ≤ param s 0x4870 6) : nextRetry d i s =
    { s with rd := { s.rd with cur := some { d with phase := 2, retry := i }, speed := (retrySettings s i).1,
                               offset := (retrySettings s i).2 } } := if_neg (Nat.not_lt.2 h)

theorem nextRetry_ends {d : ReadDs} {i : Nat} {s : State} (h : param s 0x4870 6 < i) : nextRetry d i s = endDsRead d s := if_pos h

/-- The instruction that decodes a dataset in its phase (R416-R419). -/
def Decodes (i : Instr) (d : ReadDs) : Prop :=
  i = .datasetDecode [] ∧ d.phase = 0 ∨ i = .harvestRead [] ∧ d.phase = 1 ∨ i = .readRetry [] ∧ d.phase = 2

/-- A retry is counted as it is decoded (R419, R442). -/
def retryCounted (d : ReadDs) (s : State) : State :=
  { s with rd := { s.rd with retriesDone := s.rd.retriesDone + (if d.phase = 2 then 1 else 0) } }

/-- The number of the retry that follows a decode (R418, R419). -/
def retryAfter (d : ReadDs) : Nat := if d.phase = 2 then d.retry + 1 else 1

section
variable {s : State} {d : ReadDs} {i : Instr} (hcur : s.rd.cur = some d) (hbuf : d.buf.isSome = true) (hi : Decodes i d)
include hcur hbuf hi

/-- Each of the three decodes runs the rounds, and goes from a miss to the harvest or to the next retry (R416-R419). -/
theorem exec_decodes : exec i s =
    if erasedData (decodeRounds s d) = [] then .next (endDsRead (decodeRounds s d) (retryCounted d s))
    else if d.phase = 0 then .next { s with rd := { s.rd with cur := some { decodeRounds s d with phase := 1 } } }
    else .next (nextRetry (decodeRounds s d) (retryAfter d) (retryCounted d s)) := by
  obtain ⟨g, hg⟩ := decodeRounds_filled s d
  have hretry : (decodeRounds s d).retry = d.retry := by rw [hg]
  obtain ⟨rfl, hp⟩ | ⟨rfl, hp⟩ | ⟨rfl, hp⟩ := hi
  · rw [exec_datasetDecode, execDatasetDecode, decodePass_decodes hcur hbuf hp, if_pos hp]
    simp only [retryCounted, hp, OfNat.zero_ne_ofNat, if_false, Nat.add_zero]
  · rw [exec_harvestRead, execHarvestRead, decodePass_decodes hcur hbuf hp, if_neg (c := d.phase = 0) (by simp [hp])]
    simp only [retryCounted, retryAfter, hp, OfNat.one_ne_ofNat, if_false, Nat.add_zero]
  · have hdue : (decide (d.phase = 2) && d.buf.isSome) = true := by simp [hp, hbuf]
    rw [exec_readRetry, execReadRetry]
    rw [hcur]
    dsimp only
    rw [if_pos hdue, decodePass_decodes (s := { s with rd := { s.rd with retriesDone := s.rd.retriesDone + 1 } }) hcur hbuf hp,
      decodeRounds_rd, hretry, if_neg (c := d.phase = 0) (by simp [hp])]
    simp only [retryCounted, retryAfter, hp, if_true]

/-- With every data sector known, or no retry left, the dataset has been read (R418-R420). -/
theorem decode_ends (hend : erasedData (decodeRounds s d) = [] ∨ (d.phase ≠ 0 ∧ param s 0x4870 6 < retryAfter d)) :
    exec i s = .next (endDsRead (decodeRounds s d) (retryCounted d s)) := by
  rw [exec_decodes hcur hbuf hi]
  rcases hend with h | ⟨hp, hlast⟩
  · exact if_pos h
  · rw [if_neg hp, nextRetry_ends (s := retryCounted d s) hlast, ite_self]

/-- The harvest follows a first read with erasures (R418). -/
theorem decode_harvests (hmiss : erasedData (decodeRounds s d) ≠ []) (hp : d.phase = 0) :
    exec i s = .next { s with rd := { s.rd with cur := some { decodeRounds s d with phase := 1 } } } := by
  rw [exec_decodes hcur hbuf hi, if_neg hmiss, if_pos hp]

/-- A retry follows the harvest or a retry with erasures (R418, R419). -/
theorem decode_retries (hmiss : erasedData (decodeRounds s d) ≠ []) (hp : d.phase ≠ 0)
    (hmore : retryAfter d ≤ param s 0x4870 6) :
    exec i s = .next { s with rd := { s.rd with
      cur := some { decodeRounds s d with phase := 2, retry := retryAfter d },
      retriesDone := s.rd.retriesDone + (if d.phase = 2 then 1 else 0),
      speed := (retrySettings s (retryAfter d)).1, offset := (retrySettings s (retryAfter d)).2 } } := by
  rw [exec_decodes hcur hbuf hi, if_neg hmiss, if_neg hp, nextRetry_goes (s := retryCounted d s) hmore]
  rfl

end

/-- Settles O35: the window by the dataset it chooses, the age limit by the queue, each decode by what its rounds leave erased. -/
theorem readsAreScheduledAndRetried : Obligations.ReadsAreScheduledAndRetried := by
  unfold Obligations.ReadsAreScheduledAndRetried
  refine ⟨fun s hcoll hcur hq hu hpass hckpt hthread hstate => ?_, fun n s => ⟨fun hn hu => ?_, fun hn => ?_⟩,
    fun d i s hcur hbuf hi => ⟨fun hend => ?_, fun hmiss hp => ?_, fun hmiss hp hmore => ?_⟩⟩
  · obtain ⟨n, u, b, q, f, hmem, hleast, hask, he⟩ := readBatchWindow_starts hcur hq hpass hckpt hthread hstate hcoll hu
    exact ⟨_, n, _, he, hmem, hleast, rfl, rfl, currentOf_windowEnded s n, rfl, rfl, hask.granted, hask.held,
      rfl, rfl, rfl, rfl, rfl, hask.host, hask.out⟩
  · rw [exec_readAgeLimit, execReadAgeLimit, if_pos (by simp [hn, hu])]
  · rw [exec_readAgeLimit, execReadAgeLimit, if_neg (by simp [hn])]
  · obtain ⟨g, hg⟩ := decodeRounds_filled s d
    obtain ⟨u, hu, hnone, hseen, hoffset, hspeed, hretries⟩ := endDsRead_ends (decodeRounds s d) (retryCounted d s)
    refine ⟨u, (decode_ends hcur hbuf hi hend).trans (congrArg _ hu), hnone, ?_, hoffset, hspeed, hretries⟩
    rw [hg] at hseen
    exact hseen
  · exact ⟨_, decode_harvests hcur hbuf hi hmiss hp, rfl, rfl, rfl⟩
  · exact ⟨_, decode_retries hcur hbuf hi hmiss hp hmore, rfl, rfl, rfl, rfl, rfl, rfl⟩

end Sys2Proof.Machine
end

section
/-! SUPPORT. Where the header parts of a dataset are placed: with at most two failed members there is a place for each (R325, R326,
R328, R411). -/

namespace Sys2Proof.Machine

/-- The multiplier of a rotation has its inverse modulo 128 (R325). -/
theorem rotD_inv128 (t : Nat) : rotD t * inv128 (rotD t) % 128 = 1 := by
  have hall : ∀ k < 32, (33 + 2 * k) * inv128 (33 + 2 * k) % 128 = 1 := by decide +kernel
  exact hall (t % 32) (Nat.mod_lt _ (by decide))

/-- Two logical channels of row 0 lie on two physical channels (R325). -/
theorem physicalOf_row0_inj {t a b : Nat} (ha : a < 128) (hb : b < 128) (h : physicalOf t 0 a = physicalOf t 0 b) : a = b := by
  have hrot : rotE t 0 < 128 := Nat.mod_lt _ (by decide)
  have hone : rotD t * inv128 (rotD t) ≡ 1 [MOD 128] := rotD_inv128 t
  have hback : ∀ m, rotD t * (inv128 (rotD t) * m) ≡ m [MOD 128] := fun m => by
    have := hone.mul_right m
    rwa [one_mul, mul_assoc] at this
  have hsame : inv128 (rotD t) * (a + 128 - rotE t 0) ≡ inv128 (rotD t) * (b + 128 - rotE t 0) [MOD 128] := h
  have hmod : a + 128 - rotE t 0 ≡ b + 128 - rotE t 0 [MOD 128] :=
    ((hback _).symm.trans (hsame.mul_left (rotD t))).trans (hback _)
  unfold Nat.ModEq at hmod
  omega

/-- Among three channels of its stripe a header part finds one that has not failed (R328, R411). -/
theorem headerPlace_isSome {sample : List Nat} (h : sample.length ≤ 2) (t k : Nat) : (headerPlace t sample k).isSome = true := by
  set q := (t + k) % 4 with hq
  have hlt : q < 4 := Nat.mod_lt _ (by decide)
  by_contra hno
  have hnone : headerPlace t sample k = none := by simpa using hno
  have hfail : ∀ m < 30, physicalOf t 0 (32 * q + m) ∈ sample := by
    intro m hm
    have := List.find?_eq_none.1 hnone (32 * q + m) (List.mem_map.2 ⟨m, List.mem_range.2 hm, rfl⟩)
    simpa using this
  have hlow : ∀ m ∈ [0, 1, 2], m < 30 := by decide
  have hnodup : ([0, 1, 2].map fun m => physicalOf t 0 (32 * q + m)).Nodup := by
    refine List.Nodup.map_on (fun a ha b hb hab => ?_) (by decide)
    have ha' := hlow a ha
    have hb' := hlow b hb
    have hsame := physicalOf_row0_inj (t := t) (by omega) (by omega) hab
    omega
  have hsub : ([0, 1, 2].map fun m => physicalOf t 0 (32 * q + m)) ⊆ sample := by
    intro p hp
    obtain ⟨m, hm, rfl⟩ := List.mem_map.1 hp
    exact hfail m (hlow m hm)
  have hle := (List.subperm_of_subset hnodup hsub).length_le
  rw [List.length_map] at hle
  exact absurd (hle.trans h) (by decide)

/-- All three header parts have their places (R328, R411). -/
theorem headerPlaces_length {sample : List Nat} (h : sample.length ≤ 2) (t : Nat) :
    (((List.range 3).map (headerPlace t sample)).filterMap id).length = 3 := by
  obtain ⟨a, ha⟩ := Option.isSome_iff_exists.1 (headerPlace_isSome h t 0)
  obtain ⟨b, hb⟩ := Option.isSome_iff_exists.1 (headerPlace_isSome h t 1)
  obtain ⟨c, hc⟩ := Option.isSome_iff_exists.1 (headerPlace_isSome h t 2)
  simp [List.range_succ, ha, hb, hc]

/-- Writing is allowed with at most two failed members (R411). -/
theorem failedMembers_of_allowed {s : State} (h : writeAllowed s = true) : (failedMembers s).length ≤ 2 := by
  simp only [writeAllowed, Bool.or_eq_true, Bool.and_eq_true, decide_eq_true_eq] at h
  omega

/-- A change of every channel that keeps which have failed keeps the failed members (R404). -/
theorem failedMembers_of_map {s t : State} {g : Channel → Channel} (hg : ∀ c, (g c).failed = c.failed)
    (h : t.chans = s.chans.map fun p => (p.1, g p.2)) : failedMembers t = failedMembers s := by
  unfold failedMembers
  rw [h, List.filter_map, List.map_map]
  simp only [Function.comp_def, hg]

end Sys2Proof.Machine
end

section
/-! SUPPORT. The start of a write pass and of the encoding of a dataset (R323, R328, R333, R334, R352, R364). -/

namespace Sys2Proof.Machine

/-! The speed of a pass. -/

theorem raise_frame (n : Nat) (l : List (Nat × Nat)) (s : State) :
    ∃ H E O, raise n l s = { s with host := H, ev := E, out := O } := by
  obtain ⟨v, h | ⟨u, h⟩⟩ := raise_eq n l s
  · exact ⟨_, _, _, h⟩
  · obtain ⟨F, O, e⟩ := sendMsix_fnsOut 0 1 { s with ev := u }
    exact ⟨_, _, _, by rw [h, e]⟩

/-- `t` follows from `s` by the choice of a speed step: beside events, the speed and what it is judged by change alone (R364, R365). -/
def SpeedOnly (s t : State) : Prop := ∃ H E O P k a b, t =
  { s with host := H, ev := E, out := O, wr := { s.wr with placements := P, speed := k, speedSince := a, speedChanges := b } }

theorem SpeedOnly.refl (s : State) : SpeedOnly s s := ⟨_, _, _, _, _, _, _, rfl⟩

theorem SpeedOnly.trans {s t u : State} (h : SpeedOnly s t) (k : SpeedOnly t u) : SpeedOnly s u := by
  obtain ⟨_, _, _, _, _, _, _, rfl⟩ := h
  obtain ⟨_, _, _, _, _, _, _, rfl⟩ := k
  exact ⟨_, _, _, _, _, _, _, rfl⟩

theorem SpeedOnly.ite {s a b : State} {p : Prop} [Decidable p] (ha : SpeedOnly s a) (hb : SpeedOnly s b) :
    SpeedOnly s (if p then a else b) := by
  split
  · exact ha
  · exact hb

theorem setSpeed_speedOnly (k : Nat) (s : State) : SpeedOnly s (setSpeed k s) := by
  unfold setSpeed
  split
  · exact .refl s
  · obtain ⟨H, E, O, h⟩ := raise_frame 0x555 [] { s with wr := { s.wr with
      speed := k, speedSince := s.time.toNat, speedChanges := s.wr.speedChanges + 1 } }
    exact ⟨H, E, O, _, _, _, _, h⟩

theorem chooseSpeed_speedOnly (b : Bool) (s : State) : SpeedOnly s (chooseSpeed b s) := by
  unfold chooseSpeed
  extract_lets span _ s1 k best
  have h1 : SpeedOnly s s1 := ⟨_, _, _, _, _, _, _, rfl⟩
  have hset : ∀ n, SpeedOnly s (setSpeed n s1) := fun n => h1.trans (setSpeed_speedOnly n s1)
  exact .ite (hset _) (.ite (hset _) (.ite (hset _) (.ite (hset _) (.ite (hset _) (.ite (hset _) h1)))))

/-! The encoding of a dataset. -/

/-- Where writing is allowed and not stopped, the members give nothing to judge (R411). -/
theorem judgeMembers_of_allowed {s : State} (h : writeAllowed s = true) (hs : s.wr.stopped = false) : judgeMembers s = s := by
  simp [judgeMembers, h, hs]

/-- Failed datasets leave the Cocoon and give back their buffers (R352). -/
theorem sweep_bufOnly (s : State) : ∃ C, BufOnly { s with wr := { s.wr with cocoon := C } } (sweep s) := by
  unfold sweep
  extract_lets gone old
  exact ⟨_, .foldl (.refl _) fun t d h => h.trans (freeOpt_bufOnly ..)⟩

/-- A part of the state that operations on buffers do not touch may change beside them. -/
theorem BufOnly.with_wr {s t : State} (h : BufOnly s t) (W : Wr) : BufOnly { s with wr := W } { t with wr := W } where
  frame := by
    obtain ⟨_, _, _, _, _, _, rfl⟩ := h.frame
    exact ⟨_, _, _, _, _, _, rfl⟩
  counts := h.counts

/-- `e` is the dataset `d` as it is encoded under the number `n`, with the failed members of `s` left out (R334, R349, R352). -/
structure EncodedAs (d : Dataset) (n : Nat) (s : State) (e : Dataset) : Prop where
  id : e.id = d.id
  number : e.number = some n
  kind : e.kind = d.kind
  index : e.index = d.index
  payload : e.payload = d.payload
  state : e.state = .encoding
  sample : e.sample = failedMembers s

/-- With a place for each header part the encoding begins: the dataset enters the Cocoon (R328, R334, R352). -/
theorem encodeAs_encodes {s : State} (hf : (failedMembers s).length ≤ 2) (d : Dataset) (n owner : Nat) :
    ∃ e C m, EncodedAs d n s e ∧ e ∈ C ∧ (encodeAs d n owner s).wr = { s.wr with cocoon := C, headerMoves := m } ∧
      (encodeAs d n owner s).cart = s.cart ∧ (encodeAs d n owner s).streams = s.streams := by
  unfold encodeAs
  extract_lets sample patch out chans t d1 d2 s1 _ s2 s3
  have hchans : ¬ chans.length < 3 := by
    rw [show chans.length = 3 from headerPlaces_length hf _]
    decide
  rw [if_neg hchans]
  have h1 : BufOnly s s1 := by
    show BufOnly s (match d2.buf with | some b => giveOwn owner b 0x90 d2.flow t.2 | none => t.2)
    split
    · exact (agentTag_bufOnly agCocoon s).trans (giveOwn_bufOnly ..)
    · exact agentTag_bufOnly agCocoon s
  obtain ⟨H, E, O, h3⟩ : ∃ H E O, s3 = { s2 with host := H, ev := E, out := O } := by
    show ∃ H E O, (if d2.overflow then raise 0x552 [] s2 else s2) = _
    split
    · exact raise_frame ..
    · exact ⟨_, _, _, rfl⟩
  refine ⟨d2, s1.wr.cocoon ++ [d2], s2.wr.headerMoves, ⟨rfl, rfl, rfl, rfl, rfl, rfl, rfl⟩, by simp, ?_, ?_, ?_⟩
  · rw [h3]
    show s2.wr = { s.wr with cocoon := s1.wr.cocoon ++ [d2], headerMoves := s2.wr.headerMoves }
    rw [← h1.wr]
  · rw [h3]
    exact h1.cart
  · rw [h3]
    exact h1.streams

end Sys2Proof.Machine
end

section
/-! Checkpoints: their start, the pass of a copy, and its verdict (R157, R168-R172, R303, R304, R333, R358). -/

namespace Sys2Proof.Machine

/-! The start of a copy. -/

/-- A checkpoint copy before its buffer is asked for, from the append position of its wrap (R170). -/
def copyOf (j : CkptJob) (s : State) : CkptJob :=
  { j with pos := ckptPos s (if j.copyB then s.cart.posB else s.cart.posA) j.parts, made := 0, failed := false, written := false }

theorem askCkpt_asked (j : CkptJob) (s : State) : ∃ u b q f, AskedBuf s u b q ∧
    askCkpt j s = { u with wr := { s.wr with ckpt := some { j with buf := b, bufReq := q, flow := f } } } := by
  set a := agentTag agStream s with ha
  have hask := askBuf_asked agStream 0x30 s
  obtain ⟨u, b, q, he⟩ : ∃ u b q, askBuf 0x30 25165824 a.1 a.2 = (u, b, q) := ⟨_, _, _, rfl⟩
  rw [← ha, he] at hask
  have hwr : u.wr = s.wr := hask.bufs.wr
  refine ⟨u, b, q, flowWith a.1 b, hask, ?_⟩
  unfold askCkpt
  simp only [← ha, he, hwr]
  cases b <;> rfl

/-- A copy begins with the request for the buffer of its first dataset (R170, R193). -/
theorem startCopy_asked (j : CkptJob) (s : State) : ∃ u b q f, AskedBuf s u b q ∧
    startCopy j s = { u with wr := { s.wr with ckpt := some { copyOf j s with buf := b, bufReq := q, flow := f } } } :=
  askCkpt_asked (copyOf j s) s

/-- A checkpoint as it begins, with the FLUSHes that wait for it (R157, R168, R171, R172). -/
def ckptJob (seq : Nat) (endDataset : Option Nat) (clean : Bool) (waits : List Nat) (s : State) : CkptJob :=
  { seq := seq, endDataset := endDataset, parts := ckptParts (ckptEntries clean s).length, clean := clean, waits := waits,
    bytes := ckptBytes seq endDataset clean s, count := s.wr.sinceCkpt, leases := s.streams.map fun p => (p.1, p.2.pendingLease) }

/-- A checkpoint that its wrap has room for begins with its copy A (R168, R170). -/
theorem beginCkpt_starts_copy {s : State} {clean : Bool} (hgrid : ckptParts (ckptEntries clean s).length + 1 ≤ s.cart.grid)
    (hallowed : writeAllowed s = true) (seq : Nat) (endDataset : Option Nat) : ∃ w, beginCkpt seq endDataset clean s =
      startCopy (ckptJob seq endDataset clean w s)
        { s with wr := { s.wr with ckpt := some (ckptJob seq endDataset clean w s), ckptDue := false } } := by
  unfold beginCkpt
  extract_lets waits parts j _ s1
  have hgo : ¬(s1.cart.grid < parts + 1 || !writeAllowed s1) = true := by
    have hw : writeAllowed s1 = true := (writeAllowed_congr (s := s) rfl rfl).trans hallowed
    have hg : ¬ s1.cart.grid < parts + 1 := Nat.not_lt.2 hgrid
    simp [hw, hg]
  rw [if_neg hgo]
  exact ⟨waits, rfl⟩

/-- The timer makes a checkpoint due, and with the tape free it begins (R171). -/
theorem checkpointTimer_begins {s : State} (hon : param s 0x3010 7 ≠ 0) (hsince : s.wr.sinceCkpt ≠ 0)
    (hready : s.cart.state = .ready) (hckpt : s.wr.ckpt = none) (hpass : s.wr.pass = false) (hcur : s.rd.cur = none) :
    exec .checkpointTimer s = .next (beginCkpt (s.cart.ckptSeq + 1) (coveredEnd s) false
      { s with wr := { s.wr with ckptDue := true } }) := by
  rw [exec_checkpointTimer, execCheckpointTimer]
  simp only [hon, hsince, hready, ne_eq, not_true_eq_false, decide_false, Bool.or_false, Bool.false_eq_true, if_false]
  unfold tryCkpt
  simp only [hckpt, hpass, hcur, hready, Option.isSome_none, Bool.not_true, Bool.or_false, Bool.false_eq_true, if_false, if_true]
  rfl

/-! The pass of a copy. -/

/-- The state in which the pass of a copy begins: banks and verdicts of passes before are gone (R31, R333, R342, R345). -/
def copyPassBegun (j : CkptJob) (s : State) : State :=
  emptyBanks (lateFills (takeEqTarget { s with
    chans := s.chans.map fun p => (p.1, { p.2 with failsIn := [], judgedIn := [] }),
    wr := { s.wr with pass := true, passEnding := false, passIndex := true, tails := 0, head := none, lastCommit := j.pos } }))

theorem emptyBanks_members (s : State) : failedMembers (emptyBanks s) = failedMembers s :=
  failedMembers_of_map (g := fun c => { c with filling := none, draining := none }) (fun _ => rfl) rfl

theorem lateFills_members (s : State) : failedMembers (lateFills s) = failedMembers s :=
  failedMembers_of_map (g := fun c => { c with fifo := c.fifo.filter fun i => i.kind != 3 }) (fun _ => rfl) rfl

theorem copyPassBegun_members (j : CkptJob) (s : State) : failedMembers (copyPassBegun j s) = failedMembers s :=
  (emptyBanks_members _).trans <| (lateFills_members _).trans <|
    failedMembers_of_map (g := fun c => { c with failsIn := [], judgedIn := [] }) (fun _ => rfl) rfl

/-- With a buffer in hand the next dataset of a copy is encoded at its grid position, and the copy goes on (R168, R170, R303). -/
theorem encodeCkpt_encodes {j : CkptJob} {s : State} (hfail : j.failed = false) (hstop : s.wr.stopped = false)
    (hmade : j.made < j.parts) (hbuf : j.buf.isSome = true) : ∃ u k,
      BufOnly { s with wr := { s.wr with nextDs := s.wr.nextDs + 1, ckpt := some k } } u ∧
      encodeCkpt j s = encodeAs (ckptDataset j s.wr.nextDs) (j.pos + j.made) 0x30 u ∧
      k.made = j.made + 1 ∧ k.pos = j.pos ∧ k.parts = j.parts := by
  have hgo : ¬(j.failed || s.wr.stopped || decide (j.parts ≤ j.made)) = true := by simp [hfail, hstop, hmade]
  have hnot : ¬ j.buf.isNone = true := by simpa [Option.isSome_iff_ne_none] using hbuf
  unfold encodeCkpt
  rw [if_neg hgo, if_neg hnot]
  extract_lets _ d next s1 s2
  by_cases hmore : next.made < next.parts
  · obtain ⟨v, b, q, f, hask, he⟩ := askCkpt_asked next s1
    refine ⟨s2, { next with buf := b, bufReq := q, flow := f }, ?_, rfl, rfl, rfl, rfl⟩
    have h2 : s2 = _ := (if_pos hmore).trans he
    rw [h2]
    exact hask.bufs.with_wr _
  · refine ⟨s2, next, ?_, rfl, rfl, rfl, rfl⟩
    have h2 : s2 = s1 := if_neg hmore
    rw [h2]
    exact .refl _

section
variable {j : CkptJob} {s : State} (hckpt : s.wr.ckpt = some j) (hbuf : j.buf.isSome = true)
include hckpt hbuf

/-- A copy with a buffer is written in a pass of its own (R333). -/
theorem writePassStart_of_copy (hw : j.written = false) (hpass : s.wr.pass = false) (hcur : s.rd.cur = none)
    (hgone : tapeGone s = false) (hhcf : s.tce.hcfWrites = []) :
    exec .writePassStart s = .next (encodeStart (chooseSpeed true (copyPassBegun j s))) := by
  have hready : copyReady s = true := by simp [copyReady, hckpt, hw, hbuf]
  have hgo : ¬(s.wr.pass || s.rd.cur.isSome || tapeGone s || !s.tce.hcfWrites.isEmpty ||
      !(copyReady s || dataPassDue s)) = true := by
    simp [hpass, hcur, hgone, hhcf, hready]
  rw [exec_writePassStart, execWritePassStart, if_neg hgo]
  simp only [copyPassBegun, hready, hckpt, if_true]

/-- The first dataset of the pass is the next of the copy (R168, R170, R303, R334, R349). -/
theorem copyPass_encodes (hfail : j.failed = false) (hstop : s.wr.stopped = false) (hallowed : writeAllowed s = true)
    (hmade : j.made < j.parts) :
    ∃ e k, EncodedAs (ckptDataset j s.wr.nextDs) (j.pos + j.made) s e ∧
      (encodeStart (chooseSpeed true (copyPassBegun j s))).wr.pass = true ∧
      (encodeStart (chooseSpeed true (copyPassBegun j s))).wr.passIndex = true ∧
      e ∈ (encodeStart (chooseSpeed true (copyPassBegun j s))).wr.cocoon ∧
      (encodeStart (chooseSpeed true (copyPassBegun j s))).wr.ckpt = some k ∧
      k.made = j.made + 1 ∧ k.pos = j.pos ∧ k.parts = j.parts ∧
      (encodeStart (chooseSpeed true (copyPassBegun j s))).cart = s.cart ∧
      (encodeStart (chooseSpeed true (copyPassBegun j s))).wr.closedQ = s.wr.closedQ ∧
      (encodeStart (chooseSpeed true (copyPassBegun j s))).streams = s.streams := by
  set a := copyPassBegun j s with ha
  obtain ⟨H, E, O, P, v, m, n, hb⟩ := chooseSpeed_speedOnly true a
  set b := chooseSpeed true a
  have hmembers : failedMembers b = failedMembers s := by
    rw [hb]
    exact copyPassBegun_members j s
  have hallowedb : writeAllowed b = true := by
    have hdict : b.dict = s.dict := by rw [hb]; rfl
    rw [writeAllowed, hmembers, param_of_dict hdict]
    exact hallowed
  have hstopb : b.wr.stopped = false := by rw [hb]; exact hstop
  obtain ⟨C, hsweep⟩ := sweep_bufOnly b
  have hwr := hsweep.wr
  set c := sweep b with hc
  have hstart : encodeStart b = encodeCkpt j c := by
    have hcopy : (if c.wr.passIndex then c.wr.ckpt else none) = some j := by
      rw [hwr, hb]
      exact hckpt
    unfold encodeStart
    simp only [judgeMembers_of_allowed hallowedb hstopb, ← hc, hcopy]
  have hstopc : c.wr.stopped = false := by rw [hwr]; exact hstopb
  have hnext : c.wr.nextDs = s.wr.nextDs := by rw [hwr, hb]; rfl
  obtain ⟨u, k, hu, hcode, hkmade, hkpos, hkparts⟩ := encodeCkpt_encodes hfail hstopc hmade hbuf
  have hmembersu : failedMembers u = failedMembers s := by
    have hchans : u.chans = b.chans := hu.chans.trans hsweep.chans
    rw [failedMembers, hchans]
    exact hmembers
  obtain ⟨e, D, w, henc, hmem, htwr, htcart, htstr⟩ := encodeAs_encodes (s := u)
    (by rw [hmembersu]; exact failedMembers_of_allowed hallowed) (ckptDataset j c.wr.nextDs) (j.pos + j.made) 0x30
  rw [hnext] at henc hcode htwr htcart htstr
  rw [hstart, hcode]
  have henc' : EncodedAs (ckptDataset j s.wr.nextDs) (j.pos + j.made) s e := { henc with sample := henc.sample.trans hmembersu }
  refine ⟨e, k, henc', ?_, ?_, ?_, ?_, hkmade, hkpos, hkparts, ?_, ?_, ?_⟩
  · rw [htwr, hu.wr, hwr, hb]
    rfl
  · rw [htwr, hu.wr, hwr, hb]
    rfl
  · rw [htwr]
    exact hmem
  · rw [htwr, hu.wr]
  · rw [htcart, hu.cart]
    exact hsweep.cart.trans (by rw [hb]; rfl)
  · rw [htwr, hu.wr, hwr, hb]
    rfl
  · rw [htstr, hu.streams]
    exact hsweep.streams.trans (by rw [hb]; rfl)

end

/-! The verdict on a copy. -/

/-- No FLUSH is among no FLUSHes (R172). -/
theorem endSyncs_of_none (ok : Bool) (s : State) : endSyncs (some []) ok s = s := by
  refine foldl_same fun slot _ => ?_
  split
  · split
    · simp
    · rfl
  · rfl

/-- A read of a table whose values were all changed, each by its key. -/
theorem Tab.get?_map_key {α : Type} (f : Nat → α → α) (t : Tab α) (i : Nat) :
    Tab.get? (t.map fun p => (p.1, f p.1 p.2)) i = (Tab.get? t i).map (f i) := by
  induction t with
  | nil => rfl
  | cons p t ih =>
    simp only [List.map_cons, Tab.get?]
    split
    next h => rw [h]; rfl
    next => exact ih

/-- Copy A is verified: the checkpoint is the newest, and the leases in it are durable (R157, R168, R172). -/
def copyACounted (j : CkptJob) (s : State) : State :=
  { s with
    cart := { s.cart with ckptSeq := j.seq, ckptEnd := j.endDataset, posA := j.pos + j.parts },
    streams := s.streams.map fun p => (p.1, { p.2 with durable := max p.2.durable (Tab.getD j.leases p.1 0) }),
    wr := { s.wr with ckpt := some { j with copyB := true }, sinceCkpt := s.wr.sinceCkpt - j.count } }

theorem getStream_copyACounted {j : CkptJob} {s : State} {n : Nat} {x : Stream} (hx : getStream s n = some x) :
    getStream (copyACounted j s) n = some { x with durable := max x.durable (Tab.getD j.leases n 0) } := by
  refine (Tab.get?_map_key (fun k (y : Stream) => { y with durable := max y.durable (Tab.getD j.leases k 0) }) s.streams n).trans ?_
  rw [show Tab.get? s.streams n = some x from hx]
  rfl

/-- With nothing else waiting for it, copy B follows copy A (R170). -/
theorem checkpointCopyVerified_copyA {j : CkptJob} {s : State} (hckpt : s.wr.ckpt = some j) (hw : j.written = true)
    (hfail : j.failed = false) (hA : j.copyB = false) (hwaits : j.waits = []) (hformat : s.cart.format = none)
    (hload : s.cart.load = none) :
    exec .checkpointCopyVerified s = .next (startCopy { j with copyB := true } (copyACounted j s)) := by
  rw [exec_checkpointCopyVerified, execCheckpointCopyVerified]
  simp only [hckpt, hw, hA, hfail, Bool.not_true, Bool.not_false, Bool.false_eq_true, if_false, if_true]
  have hends : ∀ u, endSyncs (some j.waits) true u = u := fun u => by rw [hwaits, endSyncs_of_none]
  unfold copyAVerified
  simp only [hends, copyACounted, hformat, hload]
  rfl

/-- A request that is no longer held (R195). -/
theorem dropHeld_eq (id : Option Nat) (s : State) : ∃ B, dropHeld id s = { s with bpm := B } := by
  unfold dropHeld
  split
  · exact ⟨_, rfl⟩
  · exact ⟨_, rfl⟩

/-- The start of a read asks for its buffer and changes the Read Engine, nothing else (R176). -/
theorem startRead_bufOnly (s : State) : ∃ u R, BufOnly s u ∧ u.out = s.out ∧ startRead s = { u with rd := R } := by
  by_cases hwait : readsMayStart s = false ∨ chooseRead s = none
  · exact ⟨s, s.rd, .refl s, rfl, startRead_of_waiting hwait⟩
  · obtain ⟨hmay, hsome⟩ := not_or.1 hwait
    obtain ⟨n, hn⟩ := Option.ne_none_iff_exists'.1 hsome
    obtain ⟨u, b, q, f, hask, he⟩ := startRead_of_chosen (by simpa using hmay) hn
    exact ⟨u, _, hask.bufs, hask.out, he⟩

section
variable {j : CkptJob} {s : State} (hckpt : s.wr.ckpt = some j) (hbuf : j.buf = none)
include hckpt hbuf

/-- The end of a checkpoint that holds no buffer (R170). -/
theorem dropCkpt_of_no_buf : ∃ B, dropCkpt s = { s with wr := { s.wr with ckpt := none }, bpm := B } := by
  unfold dropCkpt
  simp only [hckpt, hbuf, freeOpt]
  exact dropHeld_eq ..

/-- With no other checkpoint due, an unload goes on or reads do (R99, R170, R172). -/
theorem afterCkpt_keeps (hdue : s.wr.ckptDue = false) : (afterCkpt s).wr.ckpt = none ∧ (afterCkpt s).cart.posA = s.cart.posA ∧
    (afterCkpt s).cart.posB = s.cart.posB ∧ (afterCkpt s).out = s.out ∧
    (∀ n, 0x508 ≤ n → Tab.getD (afterCkpt s).ev.counts n 0 = Tab.getD s.ev.counts n 0) ∧
    (s.cart.state = .unloading → s.cart.unloadClean = true → (afterCkpt s).cart.unthreading = true) := by
  obtain ⟨B, hdrop⟩ := dropCkpt_of_no_buf hckpt hbuf
  unfold afterCkpt
  rw [hdrop]
  by_cases hunload : (s.cart.state = .unloading && s.cart.unloadClean) = true
  · simp only [hunload, if_true]
    exact ⟨trivial, trivial, trivial, trivial, fun _ _ => trivial, fun _ _ => trivial⟩
  · have hidle : tryCkpt { s with wr := { s.wr with ckpt := none }, bpm := B } =
        { s with wr := { s.wr with ckpt := none }, bpm := B } := by simp [tryCkpt, hdue]
    obtain ⟨u, R, hu, hout, he⟩ := startRead_bufOnly { s with wr := { s.wr with ckpt := none }, bpm := B }
    simp only [if_neg hunload, hidle, he]
    refine ⟨congrArg Wr.ckpt hu.wr, congrArg Cart.posA hu.cart, congrArg Cart.posB hu.cart, hout, hu.counts, fun h1 h2 => ?_⟩
    exact absurd (by simp [h1, h2]) hunload

end

/-- Settles O43: the timer by the start of copy A, the pass by the dataset it encodes, each copy's verdict by what follows. -/
theorem checkpointsAreWrittenTwice : Obligations.CheckpointsAreWrittenTwice := by
  unfold Obligations.CheckpointsAreWrittenTwice
  refine ⟨fun s hon hsince hready hckpt hpass hcur hallowed hgrid => ?_,
    fun j s hckpt hw hfail hbuf hmade hpass hcur hgone hhcf hstop hallowed => ?_, fun j s hckpt hw => ?_,
    fun j s hckpt hw hfail hA hwaits hformat hload => ?_, fun j s hckpt hw hbuf hB hdue => ?_⟩
  · obtain ⟨w, hbegin⟩ := beginCkpt_starts_copy (s := { s with wr := { s.wr with ckptDue := true } }) (clean := false) hgrid
      hallowed (s.cart.ckptSeq + 1) (coveredEnd s)
    obtain ⟨u, b, q, f, hask, hcopy⟩ := startCopy_asked
      (ckptJob (s.cart.ckptSeq + 1) (coveredEnd s) false w { s with wr := { s.wr with ckptDue := true } })
      { s with wr := { s.wr with
        ckpt := some (ckptJob (s.cart.ckptSeq + 1) (coveredEnd s) false w { s with wr := { s.wr with ckptDue := true } }),
        ckptDue := false } }
    refine ⟨_, _, (checkpointTimer_begins hon hsince hready hckpt hpass hcur).trans (congrArg _ (hbegin.trans hcopy)), rfl, rfl, rfl,
      rfl, rfl, rfl, rfl, rfl, rfl, rfl, hask.granted, hask.held, hask.out, rfl, hask.bufs.cart, hask.bufs.streams⟩
  · obtain ⟨e, k, henc, htpass, hindex, hmem, htckpt, hkmade, hkpos, hkparts, hcart, hclosed, hstreams⟩ :=
      copyPass_encodes hckpt hbuf hfail hstop hallowed hmade
    exact ⟨_, e, k, writePassStart_of_copy hckpt hbuf hw hpass hcur hgone hhcf, htpass, hindex, hmem,
      henc.number, henc.kind, henc.index, henc.state, henc.sample, htckpt, hkmade, hkpos, hkparts, hcart, hclosed, hstreams⟩
  · rw [exec_checkpointCopyVerified, execCheckpointCopyVerified]
    simp only [hckpt, hw, Bool.not_false, if_true]
  · obtain ⟨u, b, q, f, hask, hcopy⟩ := startCopy_asked { j with copyB := true } (copyACounted j s)
    have hcart := hask.bufs.cart
    refine ⟨_, _, (checkpointCopyVerified_copyA hckpt hw hfail hA hwaits hformat hload).trans (congrArg _ hcopy),
      congrArg Cart.ckptSeq hcart, congrArg Cart.ckptEnd hcart, congrArg Cart.posA hcart, (congrArg Cart.posB hcart).trans rfl,
      rfl, rfl, rfl, rfl, rfl, rfl, rfl, rfl, rfl, hask.out, fun n x hx =>
        ⟨{ x with durable := max x.durable (Tab.getD j.leases n 0) }, ?_, rfl, rfl⟩⟩
    exact (getStream_congr hask.bufs.streams n).trans (getStream_copyACounted hx)
  · have hcall : exec .checkpointCopyVerified s = .next (afterCkpt
        (if j.failed then raise 0x542 [] s else { s with cart := { s.cart with posB := j.pos + j.parts } })) := by
      rw [exec_checkpointCopyVerified, execCheckpointCopyVerified]
      simp only [hckpt, hw, hB, Bool.not_true, Bool.false_eq_true, if_false]
      cases j.failed <;> rfl
    refine ⟨_, hcall, ?_⟩
    cases hfail : j.failed with
    | false =>
      obtain ⟨h1, h2, h3, h4, -, h6⟩ := afterCkpt_keeps (s := { s with cart := { s.cart with posB := j.pos + j.parts } })
        hckpt hbuf hdue
      exact ⟨h1, h2, fun _ => ⟨h3, h4⟩, fun h => absurd h (by decide), h6⟩
    | true =>
      have hwr : (raise 0x542 [] s).wr = s.wr := raise_wr ..
      have hcart : (raise 0x542 [] s).cart = s.cart := raise_cart ..
      obtain ⟨h1, h2, h3, -, h5, h6⟩ := afterCkpt_keeps (s := raise 0x542 [] s) (hwr ▸ hckpt) hbuf (hwr ▸ hdue)
      rw [hcart] at h2 h3 h6
      refine ⟨h1, h2, fun h => absurd h (by decide), fun _ => ⟨h3, ?_⟩, h6⟩
      rw [if_pos rfl, h5 _ (by decide), raise_counts, Tab.getD_put_self]

end Sys2Proof.Machine
end

section
/-! Errors in the DRAM: what a listed row, a corrected word and an uncorrectable one change, and the stall limit of a held request
(R180, R182, R183, R196). -/

namespace Sys2Proof.Machine

/-! The repair list. -/

theorem mem_insertUp {k n : Nat} {l : List Nat} : k ∈ insertUp n l ↔ k = n ∨ k ∈ l := by
  induction l with
  | nil => simp [insertUp]
  | cons m l ih =>
    unfold insertUp
    split
    · exact List.mem_cons
    · simp only [List.mem_cons, ih]
      exact or_left_comm

theorem quarantine_dram (p i : Nat) (s : State) : (quarantine p i s).dram = s.dram := raise_dram ..

/-- A withdrawal raises event 0x507 alone (R183). -/
theorem quarantine_counts_ne {m : Nat} (hm : m ≠ 0x507) (p i : Nat) (s : State) :
    Tab.getD (quarantine p i s).ev.counts m 0 = Tab.getD s.ev.counts m 0 := by
  unfold quarantine
  extract_lets t
  rw [raise_counts, Tab.getD_put_ne _ _ _ hm]
  rfl

/-- What no withdrawal changes, the withdrawals of a list leave too (R183). -/
theorem quarantineFree_keeps {β : Type} (g : State → β) (hg : ∀ p i t, g (quarantine p i t) = g t) (l : List (Nat × Nat))
    (s : State) : g (quarantineFree l s) = g s := by
  refine foldl_keeps g (fun t h => ?_) l s
  split
  · exact hg ..
  · rfl

/-- A row that is not listed yet is listed, and free buffers leave their pools (R183). -/
theorem listRow_eq (row : Nat) (s : State) : ∃ l, listRow row s = if s.dram.listed.contains row then s else
    quarantineFree l { s with dram := { s.dram with listed := insertUp row s.dram.listed } } := ⟨_, rfl⟩

/-- Of the DRAM's record a listed row changes the repair list alone, and it stands there (R183). -/
theorem listRow_dram (row : Nat) (s : State) :
    ∃ L, (listRow row s).dram = { s.dram with listed := L } ∧ row ∈ L := by
  obtain ⟨l, hl⟩ := listRow_eq row s
  rw [hl]
  split
  next hin => exact ⟨s.dram.listed, rfl, List.contains_iff_mem.1 hin⟩
  next => exact ⟨_, quarantineFree_keeps State.dram quarantine_dram .., mem_insertUp.2 (.inl rfl)⟩

theorem listRow_counts_ne {m : Nat} (hm : m ≠ 0x507) (row : Nat) (s : State) :
    Tab.getD (listRow row s).ev.counts m 0 = Tab.getD s.ev.counts m 0 := by
  obtain ⟨l, hl⟩ := listRow_eq row s
  rw [hl]
  split
  · rfl
  · exact quarantineFree_keeps (fun t => Tab.getD t.ev.counts m 0) (quarantine_counts_ne hm) ..

/-! Words with an error. -/

/-- An uncorrectable word is counted, its row listed, and event 0x506 raised (R180, R183). -/
theorem uncorrected_counted (addr : Nat) (s : State) :
    (∃ L, (uncorrected addr s).dram = { s.dram with uncorrectable := s.dram.uncorrectable + 1, listed := L } ∧ rowOf addr ∈ L) ∧
      Tab.getD (uncorrected addr s).ev.counts 0x506 0 = sat32 (Tab.getD s.ev.counts 0x506 0 + 1) := by
  unfold uncorrected
  extract_lets _ t
  obtain ⟨L, hL, hrow⟩ := listRow_dram (rowOf addr) (raise 0x506 [(34, addr)] t)
  refine ⟨⟨L, by rw [hL, raise_dram], hrow⟩, ?_⟩
  rw [listRow_counts_ne (by decide), raise_counts, Tab.getD_put_self]

/-- A corrected word is counted; the count of the second and its start serve the rate event alone (R180, R203). -/
theorem countCe_dram (s : State) :
    ∃ n t, (countCe s).dram = { s.dram with corrected := s.dram.corrected + 1, ceSecond := n, ceStart := t } := by
  unfold countCe
  extract_lets t fresh n u
  refine ⟨n, if fresh then t else s.dram.ceStart, ?_⟩
  unfold raiseIf
  split
  · exact raise_dram ..
  · rfl

theorem countCe_keeps (s : State) : (countCe s).bpm = s.bpm ∧ (countCe s).dict = s.dict := by
  unfold countCe raiseIf
  extract_lets t fresh n u
  split
  · exact ⟨raise_bpm .., raise_dict ..⟩
  · exact ⟨rfl, rfl⟩

/-- The state once a corrected word is counted, also among those of its row in this pass (R180, R183). -/
def rowCounted (addr : Nat) (s : State) : State :=
  { countCe s with dram := { (countCe s).dram with
      rowCe := Tab.put (countCe s).dram.rowCe (rowOf addr) (Tab.getD (countCe s).dram.rowCe (rowOf addr) 0 + 1) } }

theorem rowCounted_dram (addr : Nat) (s : State) :
    ∃ n t, (rowCounted addr s).dram = { s.dram with
      corrected := s.dram.corrected + 1, ceSecond := n, ceStart := t,
      rowCe := Tab.put s.dram.rowCe (rowOf addr) (Tab.getD s.dram.rowCe (rowOf addr) 0 + 1) } := by
  obtain ⟨n, t, h⟩ := countCe_dram s
  exact ⟨n, t, by rw [rowCounted, h]⟩

/-- A corrected word lists its row when the row's words of this pass reach the limit (R183). -/
theorem corrected_eq (addr : Nat) (s : State) :
    corrected addr s = if param s 0x2410 3 ≤ Tab.getD s.dram.rowCe (rowOf addr) 0 + 1
      then listRow (rowOf addr) (rowCounted addr s) else rowCounted addr s := by
  obtain ⟨n, t, h⟩ := countCe_dram s
  have hrow : (countCe s).dram.rowCe = s.dram.rowCe := by rw [h]
  have hlimit : param (rowCounted addr s) 0x2410 3 = param s 0x2410 3 := param_of_dict (countCe_keeps s).2 ..
  rw [← hlimit, ← hrow]
  rfl

/-- A corrected word is counted, in all and in its row (R180, R183). -/
theorem corrected_counted (addr : Nat) (s : State) :
    ∃ n t L, (corrected addr s).dram = { s.dram with
      corrected := s.dram.corrected + 1, ceSecond := n, ceStart := t, listed := L,
      rowCe := Tab.put s.dram.rowCe (rowOf addr) (Tab.getD s.dram.rowCe (rowOf addr) 0 + 1) } := by
  obtain ⟨n, t, h⟩ := rowCounted_dram addr s
  rw [corrected_eq]
  split
  · obtain ⟨L, hL, -⟩ := listRow_dram (rowOf addr) (rowCounted addr s)
    exact ⟨n, t, L, by rw [hL, h]⟩
  · exact ⟨n, t, s.dram.listed, h⟩

theorem corrected_lists {addr : Nat} {s : State} (h : param s 0x2410 3 ≤ Tab.getD s.dram.rowCe (rowOf addr) 0 + 1) :
    rowOf addr ∈ (corrected addr s).dram.listed := by
  obtain ⟨L, hL, hrow⟩ := listRow_dram (rowOf addr) (rowCounted addr s)
  rwa [corrected_eq, if_pos h, hL]

theorem corrected_below_limit {addr : Nat} {s : State} (h : Tab.getD s.dram.rowCe (rowOf addr) 0 + 1 < param s 0x2410 3) :
    (corrected addr s).dram.listed = s.dram.listed ∧ (corrected addr s).bpm = s.bpm := by
  obtain ⟨n, t, hd⟩ := rowCounted_dram addr s
  rw [corrected_eq, if_neg (Nat.not_le.2 h)]
  exact ⟨by rw [hd], (countCe_keeps s).1⟩

/-! The stall limit and the patrol scrub. -/

/-- A request held past the limit raises event 0x504 with its owner and size (R196). -/
theorem poolStallLimit_of_held {n : Nat} {s : State} (h : ∃ x ∈ s.bpm.held, x.id = n) :
    ∃ x ∈ s.bpm.held, x.id = n ∧ exec (.poolStallLimit n) s = .next (raise 0x504 [(8, x.owner.toNat), (25, x.size)] s) := by
  have hsome : (s.bpm.held.find? fun x => x.id == n).isSome := by simpa [List.find?_isSome] using h
  obtain ⟨x, hx⟩ := Option.isSome_iff_exists.1 hsome
  exact ⟨x, List.mem_of_find?_eq_some hx, beq_iff_eq.1 (List.find?_some (p := fun x : Held => x.id == n) hx),
    by rw [exec_poolStallLimit, execPoolStallLimit, hx]⟩

theorem poolStallLimit_of_not_held {n : Nat} {s : State} (h : ∀ x ∈ s.bpm.held, x.id ≠ n) :
    exec (.poolStallLimit n) s = .next s := by
  have hnone : s.bpm.held.find? (fun x => x.id == n) = none := by simpa [List.find?_eq_none] using h
  rw [exec_poolStallLimit, execPoolStallLimit, hnone]

theorem patrolScrub_disabled {s : State} (h : param s 0x2410 2 = 0) (a : BitVec 34) (b d : Bool) :
    exec (.patrolScrub a b d) s = .next s := by
  rw [exec_patrolScrub, execPatrolScrub, if_pos h]

/-- A word that does not begin a scrub pass leaves the counts of the rows (R182, R183). -/
theorem patrolScrub_reads {a : BitVec 34} {s : State} (ha : 8 ≤ a.toNat) (h : param s 0x2410 2 ≠ 0) (b d : Bool) :
    exec (.patrolScrub a b d) s =
      if d then .next (uncorrected a.toNat s) else if b then .next (corrected a.toNat s) else .next s := by
  rw [exec_patrolScrub, execPatrolScrub]
  simp only [if_neg h, if_neg (Nat.not_lt.2 ha)]

theorem patrolScrub_clean {a : BitVec 34} {s : State} (ha : 8 ≤ a.toNat) (h : param s 0x2410 2 ≠ 0) :
    exec (.patrolScrub a false false) s = .next s :=
  (patrolScrub_reads ha h false false).trans ((if_neg Bool.false_ne_true).trans (if_neg Bool.false_ne_true))

theorem patrolScrub_uncorrectable {a : BitVec 34} {s : State} (ha : 8 ≤ a.toNat) (h : param s 0x2410 2 ≠ 0) (b : Bool) :
    exec (.patrolScrub a b true) s = .next (uncorrected a.toNat s) :=
  (patrolScrub_reads ha h b true).trans (if_pos rfl)

theorem patrolScrub_corrects {a : BitVec 34} {s : State} (ha : 8 ≤ a.toNat) (h : param s 0x2410 2 ≠ 0) :
    exec (.patrolScrub a true false) s = .next (corrected a.toNat s) :=
  (patrolScrub_reads ha h true false).trans ((if_neg Bool.false_ne_true).trans (if_pos rfl))

/-- Settles O40, by what a held request, an uncorrectable word and a corrected one change. -/
theorem dramErrorsAreCounted : Obligations.DramErrorsAreCounted := by
  unfold Obligations.DramErrorsAreCounted
  refine ⟨fun n s => ⟨fun hheld => ?_, poolStallLimit_of_not_held⟩, fun a b d s hoff => patrolScrub_disabled hoff a b d,
    fun a b s ha hon => ⟨patrolScrub_clean ha hon, ?_, ?_⟩⟩
  · obtain ⟨x, -, -, hx⟩ := poolStallLimit_of_held hheld
    exact ⟨_, hx, raise_bpm .., by rw [raise_counts, Tab.getD_put_self]⟩
  · obtain ⟨⟨L, hdram, hrow⟩, hcount⟩ := uncorrected_counted a.toNat s
    exact ⟨_, patrolScrub_uncorrectable ha hon b, by rw [hdram], by rw [hdram], by rwa [hdram], hcount⟩
  · obtain ⟨n, t, L, hdram⟩ := corrected_counted a.toNat s
    exact ⟨_, patrolScrub_corrects ha hon, by rw [hdram], by rw [hdram],
      by rw [hdram, Tab.getD_put_self], corrected_lists, corrected_below_limit⟩

end Sys2Proof.Machine
end

section
/-! Keys: KEY_LOAD, KEY_UNLOAD, the reservations of invocation values and retiring slots (R248, R252-R261, R270). -/

namespace Sys2Proof.Machine

/-! The ends of commands beside the Cipher Engine. -/

theorem cip_aside (C : Cipher) (s : State) : Aside s { s with cip := C } :=
  ⟨fun _ _ h _ => h, fun _ _ => rfl, ⟨[], rfl⟩, rfl, rfl, rfl, rfl, rfl, fun _ _ => rfl⟩

theorem raiseIf_aside {n : Nat} (hn : n < 0x700) (b : Bool) (l : List (Nat × Nat)) (s : State) : Aside s (raiseIf b n l s) :=
  .ite (raise_aside hn l s) (.refl s)

/-- What an event keeps, an event raised on a condition keeps. -/
theorem raiseIf_keeps {β : Type} (g : State → β) {n : Nat} {l : List (Nat × Nat)} {s : State} (h : g (raise n l s) = g s)
    (b : Bool) : g (raiseIf b n l s) = g s := by
  cases b
  · rfl
  · exact h

@[simp] theorem raiseIf_cip (b : Bool) (n : Nat) (l : List (Nat × Nat)) (s : State) : (raiseIf b n l s).cip = s.cip :=
  raiseIf_keeps State.cip (raise_cip ..) b

/-- A command whose queue pair takes its completion ends in the same way after changes beside the commands. -/
theorem complete_of_aside {s t : State} {slot : Nat} {c : Cmd} {v : Qp} (k : Aside s t) (hc : getCmd s slot = some c)
    (hs : c.stage ≠ .held) (hw : ∀ w, c.stage ≠ .writing w) (ht : Takes s c v) (p : Cmd → Cpl) (e : ErrInfo) :
    Ends s (complete slot p e t) slot v (p c) ∧ (complete slot p e t).cip = t.cip ∧ (complete slot p e t).ev = t.ev := by
  have hct := k.cmd _ _ hc hw
  obtain ⟨o, ho⟩ := k.out
  obtain ⟨F, O, h⟩ := (complete_of_takes hct hs (ht.aside k) p e).1
  exact ⟨(complete_ends hct hs (ht.aside k) p e).1.of_out ho, by rw [h], by rw [h]⟩

/-- The count of an event, after a command that the event explains has ended. -/
theorem complete_counts {s t : State} {slot n : Nat} {l : List (Nat × Nat)} {p : Cmd → Cpl} {e : ErrInfo}
    (h : (complete slot p e (raise n l t)).ev = (raise n l t).ev) (ht : t.ev = s.ev) :
    Tab.getD (complete slot p e (raise n l t)).ev.counts n 0 = sat32 (Tab.getD s.ev.counts n 0 + 1) := by
  rw [h, raise_counts, Tab.getD_put_self, ht]

/-- A KEY_LOAD that succeeds answers a slot number and a value in its Specific bytes (R254). -/
theorem keyLoaded_of_aside {s t : State} {slot : Nat} {c : Cmd} {v : Qp} (k : Aside s t) (hc : getCmd s slot = some c)
    (hs : c.stage ≠ .held) (hw : ∀ w, c.stage ≠ .writing w) (ht : Takes s c v) (key check : Nat) :
    Ends s (keyLoaded slot key check t) slot v { baseCpl c .success with
      specific := BitVec.ofNat 96 (packLsb [(13, key), (19, 0), (64, check)]) } ∧ (keyLoaded slot key check t).cip = t.cip :=
  (complete_of_aside k hc hs hw ht (fun c => { baseCpl c .success with
    specific := BitVec.ofNat 96 (packLsb [(13, key), (19, 0), (64, check)]) }) {}).imp_right And.left

/-! KEY_LOAD. -/

/-- A KEY_LOAD with its data that nothing keeps from its effect (R252, R263, R269, R571). -/
structure LoadRuns (s : State) (slot : SlotId) (data : List Byte) (c : Cmd) : Prop where
  started : Started s slot.val opKeyLoad c
  idle : s.lc.job = none
  owned : s.lc.state = 2
  works : s.cip.failed = false
  whole : data.length = eLen c.entry
  first : earlierLoad s c = false

section
variable {slot : SlotId} {data : List Byte} {c : Cmd} {v : Qp} {s : State} (h : LoadRuns s slot data c)
include h

theorem keyLoad_installs (hkind : eKeyKind c.entry = 3) :
    exec (.keyLoad slot data) s = .next (installKek slot.val (eTargetFn c.entry) 3 data s) := by
  rw [exec_keyLoad, execKeyLoad, onCmd_of_started h.started (by simp)]
  simp [h.idle, h.owned, h.works, h.whole, h.first, hkind]

section
variable {k : BitVec 256} {n : Nat} (hkind : eKeyKind c.entry = 0) (hkek : Tab.get? s.cip.keks c.fn = some (k, n))
include hkind hkek

theorem keyLoad_refuses (hdata : Crypto.unwrap k data = none) :
    exec (.keyLoad slot data) s = .next (unwrapFail slot.val s) := by
  rw [exec_keyLoad, execKeyLoad, onCmd_of_started h.started (by simp)]
  simp [h.idle, h.owned, h.works, h.whole, h.first, hkind, hkek, hdata]

theorem keyLoad_unwraps {l : List Byte} (hdata : Crypto.unwrap k data = some l) :
    exec (.keyLoad slot data) s = .next (loadData slot.val c (BitVec.ofNat 256 (beNat l)) s) := by
  rw [exec_keyLoad, execKeyLoad, onCmd_of_started h.started (by simp)]
  simp [h.idle, h.owned, h.works, h.whole, h.first, hkind, hkek, hdata]

end

/-- A KEK is installed for its function and answered with its check value (R248). -/
theorem installKek_ends (ht : Takes s c v) (fn kind : Nat) :
    let t := installKek slot.val fn kind data s
    Tab.get? t.cip.keks fn = some (BitVec.ofNat 256 (beNat data), kind) ∧ t.cip.slots = s.cip.slots ∧
      Ends s t slot.val v { baseCpl c .success with
        specific := BitVec.ofNat 96 (packLsb [(13, 0), (19, 0), (64, leNat (Crypto.kekCheck data))]) } := by
  obtain ⟨hends, hcip⟩ := keyLoaded_of_aside
    (cip_aside { s.cip with keks := Tab.put s.cip.keks fn (BitVec.ofNat 256 (beNat data), kind) } s) h.started.cmd
    (by simp [h.started.stage]) (by simp [h.started.stage]) ht 0 (leNat (Crypto.kekCheck data))
  exact ⟨(congrArg (fun C : Cipher => Tab.get? C.keks fn) hcip).trans (Tab.get?_put_self ..),
    (congrArg Cipher.slots hcip).trans rfl, hends⟩

/-- Key data that does not unwrap ends its KEY_LOAD with INVALID_FIELD and event 0x520 (R253). -/
theorem unwrapFail_ends (ht : Takes s c v) :
    let t := unwrapFail slot.val s
    t.cip = s.cip ∧ Ends s t slot.val v (baseCpl c .invalidField) ∧
      Tab.getD t.ev.counts 0x520 0 = sat32 (Tab.getD s.ev.counts 0x520 0 + 1) := by
  obtain ⟨hends, hcip, hev⟩ := complete_of_aside (raise_aside (n := 0x520) (by decide) [] s) h.started.cmd
    (by simp [h.started.stage]) (by simp [h.started.stage]) ht (fun c => baseCpl c .invalidField)
    { block := bCipher, event := some 0x520 }
  exact ⟨hcip.trans (raise_cip ..), hends, complete_counts hev rfl⟩

end

/-- The state with these persists under way (R258). -/
def withLoads (l : List KeyPend) (s : State) : State := { s with cip := { s.cip with loads := l } }

/-- The slot that a KEY_LOAD from a start of its own loads (R244, R257, R258). -/
def freshKey (s : State) (c : Cmd) (key : BitVec 256) : KeySlot :=
  { state := .loaded, key := key, owner := c.fn, writerId := BitVec.ofNat 24 (eWriterId c.entry),
    lane := BitVec.ofNat 8 (param s 0x5800 4), scope := if eAnyStream c.entry then none else some (eStream c.entry),
    next := eStartCounter c.entry, highWater := min (eStartCounter c.entry + 2 ^ 24 - 1) (ivLimit - 1) }

/-- A data key of a pair never recorded takes the lowest free slot, and its reservation is written (R253, R257, R258). -/
theorem loadData_reserves {slot i : Nat} {c : Cmd} {key : BitVec 256} {s : State} (hc : getCmd s slot = some c)
    (hmode : eStartMode c.entry = false) (hstart : eStartCounter c.entry < ivLimit)
    (hnew : recordedHigh s (pairKey key (BitVec.ofNat 24 (eWriterId c.entry))) = none)
    (hfree : persisting s (pairKey key (BitVec.ofNat 24 (eWriterId c.entry))) = false)
    (hroom : counterRoom s (pairKey key (BitVec.ofNat 24 (eWriterId c.entry))) = true)
    (hi : lowestKey s = some i) (howned : keysOwned s c.fn < param s 0x5800 5) :
    loadData slot c key s = setCmd slot { c with stage := .waiting }
      (withLoads (s.cip.loads ++ [⟨some slot, freshKey s c key, i⟩]) s) := by
  unfold loadData
  simp only [hfree, hmode, hnew, hroom, hi, if_neg (Nat.not_le.2 hstart), if_neg (Nat.not_le.2 howned), Bool.false_eq_true,
    if_false, Bool.not_false, Bool.not_true, Bool.and_false]
  exact setStage_of_cmd (s := withLoads (s.cip.loads ++ [⟨some slot, freshKey s c key, i⟩]) s) hc .waiting

/-! KEY_UNLOAD. -/

/-- The slot that was put aside for a KEY_UNLOAD is free when the command runs (R255, R256). -/
theorem keyUnload_frees {slot : SlotId} {c : Cmd} {k : KeySlot} {v : Qp} {s : State} (h : Started s slot.val opKeyUnload c)
    (hk : Tab.get? s.cip.slots (eUnloadSlot c.entry) = some k) (hu : k.unloading = some c.seq) (ht : Takes s c v) :
    ∃ t, exec (.keyUnload slot) s = .next t ∧ t.cip = { s.cip with slots := Tab.del s.cip.slots (eUnloadSlot c.entry) } ∧
      Ends s t slot.val v (baseCpl c .success) := by
  obtain ⟨hends, hcip, -⟩ := complete_of_aside
    (cip_aside { s.cip with slots := Tab.del s.cip.slots (eUnloadSlot c.entry) } s) h.cmd (by simp [h.stage]) (by simp [h.stage]) ht
    (fun c => baseCpl c .success) {}
  refine ⟨_, ?_, hcip, hends⟩
  rw [exec_keyUnload, execKeyUnload, onCmd_of_started h (by simp)]
  simp only [hk, hu, ne_eq, not_true_eq_false, if_false]
  rfl

/-! IV_RESERVE_PERSIST_DONE. -/

theorem ivReservePersistDone_of_load {p : KeyPend} {l : List KeyPend} {slot : Nat} {s : State} (hl : s.cip.loads = p :: l)
    (hp : p.slot = some slot) (ok : Bool) : exec (.ivReservePersistDone ok) s =
      .next (loadPersisted p slot ok (withLoads l s)) := by
  rw [exec_ivReservePersistDone, execIvReservePersistDone]
  simp only [hl, hp]
  rfl

theorem ivReservePersistDone_of_pre {p : KeyPend} {l : List KeyPend} {s : State} (hl : s.cip.loads = p :: l)
    (hp : p.slot = none) (ok : Bool) : exec (.ivReservePersistDone ok) s =
      .next (prePersisted p ok (withLoads l s)) := by
  rw [exec_ivReservePersistDone, execIvReservePersistDone]
  simp only [hl, hp]
  rfl

/-- The recorded high-water of a pair, raised to that of a reservation and never lowered (R257, R258). -/
def raisedHigh (k : KeySlot) (s : State) : Nat :=
  max (Tab.getD s.cip.counters (pairKey k.key k.writerId) 0) k.highWater

/-- The Cipher Engine after the reservation of a KEY_LOAD is persisted (R253, R257, R261, R273). -/
def loadedCip (p : KeyPend) (s : State) : Cipher :=
  { s.cip with
    slots := Tab.put s.cip.slots p.key { p.entry with warned := nearLimit p.entry },
    counters := Tab.put s.cip.counters (pairKey p.entry.key p.entry.writerId) (raisedHigh p.entry s),
    persists := sat32 (s.cip.persists + 1) }

section
variable {p : KeyPend} {slot : Nat} {c : Cmd} {v : Qp} {s : State} (hc : getCmd s slot = some c) (hs : c.stage = .waiting)
  (ht : Takes s c v)
include hc hs ht

/-- The reservation of a KEY_LOAD is persisted: its slot is LOADED, and the command answers slot and first value (R253, R254). -/
theorem loadPersisted_loads :
    let t := loadPersisted p slot true s
    t.cip = loadedCip p s ∧ Ends s t slot v { baseCpl c .success with
      specific := BitVec.ofNat 96 (packLsb [(13, p.key), (19, 0), (64, p.entry.next)]) } := by
  have hcall : loadPersisted p slot true s = keyLoaded slot p.key p.entry.next
      (raiseIf (nearLimit p.entry) 0x524 [iKey p.key] { s with cip := loadedCip p s }) := by
    have hrec : getCmd (recordHigh p.entry s) slot = some c := hc
    unfold loadPersisted
    simp only [if_true, hrec, ht.live, Bool.false_eq_true, if_false]
    rfl
  have hside := (cip_aside (loadedCip p s) s).trans (raiseIf_aside (n := 0x524) (by decide) (nearLimit p.entry) [iKey p.key] _)
  obtain ⟨hends, hcip⟩ := keyLoaded_of_aside hside hc (by simp [hs]) (by simp [hs]) ht p.key p.entry.next
  rw [hcall]
  exact ⟨hcip.trans (raiseIf_cip ..), hends⟩

/-- A reservation that was not persisted ends its KEY_LOAD, with event 0x523 (R258). -/
theorem loadPersisted_fails :
    let t := loadPersisted p slot false s
    t.cip = s.cip ∧ Ends s t slot v (baseCpl c .internalError) ∧
      Tab.getD t.ev.counts 0x523 0 = sat32 (Tab.getD s.ev.counts 0x523 0 + 1) := by
  obtain ⟨hends, hcip, hev⟩ := complete_of_aside (raise_aside (n := 0x523) (by decide) [iKey p.key] s) hc (by simp [hs])
    (by simp [hs]) ht (fun c => baseCpl c .internalError) { block := bCipher, event := some 0x523 }
  exact ⟨hcip.trans (raise_cip ..), hends, complete_counts hev rfl⟩

end

/-- A pre-reservation that is persisted raises the high-water of its slot, which issues again (R259). -/
theorem prePersisted_records (p : KeyPend) (s : State) :
    (prePersisted p true s).cip = { s.cip with
      slots := Tab.upd (Tab.upd s.cip.slots p.key fun k => { k with persisting := false }) p.key
        fun k => { k with highWater := p.entry.highWater },
      counters := Tab.put s.cip.counters (pairKey p.entry.key p.entry.writerId) (raisedHigh p.entry s),
      persists := sat32 (s.cip.persists + 1) } := rfl

/-! SLOT_RETIRE_COMPLETE. -/

/-- A removed key takes every entry of its own with it. -/
theorem Tab.del_eq_filter {α : Type} (t : Tab α) (i : Nat) : Tab.del t i = t.filter fun p => p.1 ≠ i := by
  induction t with
  | nil => rfl
  | cons p t ih =>
    obtain ⟨k, w⟩ := p
    by_cases hk : i = k
    · subst hk
      simpa [Tab.del] using ih
    · simpa [Tab.del, hk, Ne.symm hk] using ih

/-- The last slot of a function is gone: event 0x526 (R270). -/
theorem retiredCheck_counts {f : Nat} {s : State} (h : ∀ p ∈ s.cip.slots, p.2.owner ≠ f) :
    Tab.getD (retiredCheck f s).ev.counts 0x526 0 = sat32 (Tab.getD s.ev.counts 0x526 0 + 1) := by
  have hnone : (s.cip.slots.any fun p => p.2.owner == f) = false := List.any_eq_false.2 fun p hp => by simpa using h p hp
  rw [retiredCheck, hnone]
  exact (congrArg (Tab.getD · 0x526 0) (raise_counts ..)).trans (Tab.getD_put_self ..)

theorem retiredCheck_cip (f : Nat) (s : State) : (retiredCheck f s).cip = s.cip := raiseIf_cip ..

/-- A retiring slot that no block and no stream names is gone (R270). -/
theorem slotRetireComplete_of_unnamed {n : Fin 8192} {k : KeySlot} {s : State} (hk : Tab.get? s.cip.slots n.val = some k)
    (hstate : k.state = .retiring) (hblks : ∀ p ∈ s.pack.blks, namesKey p.2 n.val = false)
    (hstreams : ∀ p ∈ s.streams, p.2.cipher = true → p.2.keySlot = n.val →
      (p.2.state = .closed ∧ p.2.opening = none) ∨ p.2.noKey = true) :
    exec (.slotRetireComplete n) s =
      .next (retiredCheck k.owner { s with cip := { s.cip with slots := Tab.del s.cip.slots n.val } }) := by
  have hused : (s.pack.blks.any fun p => namesKey p.2 n.val) = false := List.any_eq_false.2 fun p hp => by simp [hblks p hp]
  have hbound : (s.streams.any fun p => p.2.cipher && p.2.keySlot == n.val && (p.2.state != .closed || p.2.opening.isSome) &&
      !p.2.noKey) = false := by
    refine List.any_eq_false.2 fun p hp hall => ?_
    simp only [Bool.and_eq_true, beq_iff_eq, Bool.not_eq_true'] at hall
    obtain ⟨⟨⟨hcipher, hkey⟩, hopen⟩, hkeyed⟩ := hall
    rcases hstreams p hp hcipher hkey with ⟨hclosed, hnone⟩ | hno
    · simp [hclosed, hnone] at hopen
    · simp [hno] at hkeyed
  rw [exec_slotRetireComplete, execSlotRetireComplete]
  simp only [hk, hused, hbound, hstate, ne_eq, not_true_eq_false, decide_false, Bool.or_false, Bool.false_eq_true, if_false]

/-- Settles O37: a KEY_LOAD by its kind and by what its data unwraps to, a reservation by who waits for it, a retiring slot by what
names it. -/
theorem keysAreLoadedAndRetired : Obligations.KeysAreLoadedAndRetired := by
  unfold Obligations.KeysAreLoadedAndRetired
  refine ⟨?_, ?_, ?_, ?_⟩
  · intro slot data c v s hst hjob hlc hok hlen hfirst ht
    have h : LoadRuns s slot data c := ⟨hst, hjob, hlc, hok, hlen, hfirst⟩
    refine ⟨fun hkind => ⟨_, keyLoad_installs h hkind, installKek_ends h ht ..⟩, fun k n hkind hkek => ⟨fun hu =>
      ⟨_, keyLoad_refuses h hkind hkek hu, unwrapFail_ends h ht⟩, ?_⟩⟩
    intro l i hu hmode hstart hnew hfree hroom hi howned
    have hload := loadData_reserves hst.cmd hmode hstart hnew hfree hroom hi howned
    exact ⟨_, _, (keyLoad_unwraps h hkind hkek hu).trans (congrArg _ hload), rfl, rfl, rfl, rfl, rfl, rfl, rfl, rfl, rfl,
      getCmd_setCmd_self .., rfl, rfl⟩
  · intro slot c k v s hst hk hu ht
    obtain ⟨t, hcall, hcip, hends⟩ := keyUnload_frees hst hk hu ht
    exact ⟨t, hcall, by rw [hcip, Tab.get?_del_self], fun n hn => by rw [hcip, Tab.get?_del_ne _ hn], by rw [hcip], hends⟩
  · intro p l s hl
    refine ⟨fun slot c v hp hc hs ht => ?_, fun k hp hk => ?_⟩
    · have ht' : Takes (withLoads l s) c v := ht.of_qp rfl
      obtain ⟨hcip, hends⟩ := loadPersisted_loads (p := p) (s := withLoads l s) hc hs ht'
      obtain ⟨hcipF, hendsF, hcount⟩ := loadPersisted_fails (p := p) (s := withLoads l s) hc hs ht'
      exact ⟨⟨_, ivReservePersistDone_of_load hl hp true, congrArg Cipher.loads hcip, by rw [hcip]; exact Tab.get?_put_self ..,
        by rw [hcip]; exact Tab.get?_put_self .., congrArg Cipher.persists hcip, hends.of_out (k := []) rfl⟩,
        _, ivReservePersistDone_of_load hl hp false, congrArg Cipher.loads hcipF, (congrArg Cipher.slots hcipF).trans rfl,
        (congrArg Cipher.counters hcipF).trans rfl, hendsF.of_out (k := []) rfl, hcount⟩
    · have hcip := prePersisted_records p (withLoads l s)
      refine ⟨_, ivReservePersistDone_of_pre hl hp true, congrArg Cipher.loads hcip, ?_, by rw [hcip, Tab.get?_put_self]; rfl⟩
      rw [hcip, Tab.get?_upd_self, Tab.get?_upd_self]
      exact congrArg (Option.map _) (congrArg (Option.map _) hk)
  · intro n k s hk hstate hblks hstreams
    refine ⟨_, slotRetireComplete_of_unnamed hk hstate hblks hstreams, ?_, ?_, fun hlast => retiredCheck_counts fun p hp => ?_⟩
    · rw [retiredCheck_cip, Tab.get?_del_self]
    · rw [retiredCheck_cip]
    · rw [Tab.del_eq_filter, List.mem_filter] at hp
      exact hlast p.1 p.2 (by simpa using hp.2) hp.1

end Sys2Proof.Machine
end

section
/-! Encryption: a packet taken by a cipher pair and sealed, the random source and the counter table (R242-R244, R259, R262, R268,
R269, R275). -/

namespace Sys2Proof.Machine

/-! The packet that a cipher pair takes. -/

theorem eccReads_nil (s : State) : eccReads [] s = s := rfl

/-- With the slot of every packet waiting for its reservation, an engine has no packet to encrypt (R259). -/
theorem headPacket_of_waiting {s : State} {e : Nat}
    (h : ∀ p ∈ s.pack.blks, p.2.stage = .packet e → slotWaits s (p.2.key.getD 0) = true) : headPacket s e = none := by
  have hnone : (s.pack.blks.find? fun p => p.2.key.isSome && p.2.stage == .packet e && !slotWaits s (p.2.key.getD 0)) = none := by
    refine List.find?_eq_none.2 fun p hp hall => ?_
    simp only [Bool.and_eq_true, beq_iff_eq, Bool.not_eq_true'] at hall
    obtain ⟨⟨-, hstage⟩, hfree⟩ := hall
    rw [h p hp hstage] at hfree
    cases hfree
  rw [headPacket, hnone]
  rfl

/-- An idle pair has its output buffer, or is granted one; beside the buffers its own entry alone changes (R193, R196). -/
theorem cipherBuf_grants {pair : Nat} {b : Blk} {s : State}
    (h : (∃ i, (Tab.getD s.cip.pairs pair {}).buf = some i ∧ b.storedSize ≤ poolSize (i / 32768)) ∨
      ((Tab.getD s.cip.pairs pair {}).buf = none ∧ (Tab.getD s.cip.pairs pair {}).bufReq = none ∧
        (choosePool s 1 b.storedSize).isSome = true)) :
    ∃ u P i, BufOnly s u ∧ cipherBuf pair b s = ({ u with cip := { u.cip with pairs := P } }, some i) := by
  unfold cipherBuf
  rcases h with ⟨i, hbuf, hfits⟩ | ⟨hbuf, hreq, hpool⟩
  · exact ⟨s, s.cip.pairs, i, .refl s, by simp only [hbuf, if_pos hfits]⟩
  · obtain ⟨u, i, hask, hu, -⟩ := askBuf_grants hpool (0x70 + pair) b.flow
    refine ⟨u, Tab.put u.cip.pairs pair { Tab.getD s.cip.pairs pair {} with buf := some i, bufReq := none }, i, hu, ?_⟩
    simp only [hbuf, hreq, hask, Option.isSome_none, Bool.false_eq_true, if_false]

/-- A pre-reservation marks its slot and waits among the persists; nothing else changes (R259). -/
theorem reserveMore_eq (key : Nat) (k : KeySlot) (s : State) : ∃ L, reserveMore key k s =
    { s with cip := { s.cip with slots := Tab.put s.cip.slots key { k with persisting := true }, loads := L } } :=
  ⟨_, rfl⟩

/-- A block as its cipher pair takes it: with the slot's vector, in the pair's output buffer (R18, R244, R259). -/
def takenBlk (pair buf : Nat) (k : KeySlot) (b : Blk) : Blk :=
  { b with stage := .inCipher pair, iv := some (ivOf k), fifo := none, buf := some buf, flow := tagWithBuf b.flow buf }

/-- `t` follows from `s` by taking a packet: the block has the slot's next value and the buffer, the slot has moved on by one value,
perhaps marked as near its limit or as waiting for more, and the pair is busy (R244, R259, R261). -/
structure TookPacket (s t : State) (pair key buf : Nat) (k : KeySlot) (b : Blk) : Prop where
  blk : getBlk t b.id = some (takenBlk pair buf k b)
  slot : ∃ k', Tab.get? t.cip.slots key = some k' ∧ k'.next = k.next + 1 ∧ k'.key = k.key ∧ k'.highWater = k.highWater
  busy : ∃ p, Tab.get? t.cip.pairs pair = some p ∧ p.enc = some b.id ∧ p.buf = none
  wr : t.wr = s.wr
  streams : t.streams = s.streams

theorem takeValue_took (pair key buf : Nat) (k : KeySlot) (b : Blk) (s : State) :
    TookPacket s (takeValue pair key buf k b s) pair key buf k b := by
  unfold takeValue
  extract_lets s1 k1 near k2 p C s2 s3
  have hcip : s3.cip = s2.cip := raiseIf_cip ..
  have hblk : getBlk s3 b.id = some (takenBlk pair buf k b) := by
    rw [getBlk, show s3.pack = s2.pack from raiseIf_keeps State.pack (raise_pack ..) near]
    exact Tab.get?_put_self ..
  have hwr : s3.wr = s.wr := raiseIf_keeps State.wr (raise_wr ..) near
  have hstreams : s3.streams = s.streams := raiseIf_streams ..
  have hpair : ∃ q, Tab.get? s3.cip.pairs pair = some q ∧ q.enc = some b.id ∧ q.buf = none :=
    ⟨_, by rw [hcip]; exact Tab.get?_put_self .., rfl, rfl⟩
  split
  · obtain ⟨L, hmore⟩ := reserveMore_eq key k2 s3
    rw [hmore]
    exact ⟨hblk, ⟨_, Tab.get?_put_self .., rfl, rfl, rfl⟩, hpair, hwr, hstreams⟩
  · exact ⟨hblk, ⟨k2, by rw [hcip]; exact Tab.get?_put_self .., rfl, rfl, rfl⟩, hpair, hwr, hstreams⟩

/-- A packet is taken by an idle pair that has or gets its buffer, while the slot has a value that is reserved (R259, R261, R269). -/
theorem cipherTakePacket_takes {pair : Fin 4} {e : Fin 24} {b : Blk} {k : KeySlot} {s : State}
    (hb : headPacket s e.val = some b) (hidle : (Tab.getD s.cip.pairs pair.val {}).enc = none) (hup : resetting s 2 = false)
    (hok : s.cip.failed = false) (hk : Tab.get? s.cip.slots (b.key.getD 0) = some k) (hlimit : k.next < ivLimit)
    (hhigh : k.next ≤ k.highWater) {u : State} {i : Nat} (hbuf : cipherBuf pair.val b s = (u, some i)) :
    exec (.cipherTakePacket pair e [] true) s = .next (takeValue pair.val (b.key.getD 0) i k b u) := by
  rw [exec_cipherTakePacket, execCipherTakePacket]
  simp only [hb, hidle, hup, hok, hk, hbuf, if_neg (Nat.not_le.2 hlimit), if_neg (Nat.not_lt.2 hhigh), eccReads_nil, poisoned,
    List.filter_nil, List.map_nil, List.any_nil, Option.isSome_none, Bool.or_self, Bool.not_true, Bool.false_eq_true, if_false]

/-! The block is sealed. -/

/-- A block with its payload encrypted and its tag (R242, R243). -/
def sealedBlk (key : BitVec 256) (iv : BitVec 96) (b : Blk) : Blk :=
  { b with payload := (Crypto.gcmEnc key iv b.header b.payload).1, tag := (Crypto.gcmEnc key iv b.header b.payload).2 }

/-- A pair is idle again, and its block is counted (R259, R273). -/
def sealCounted (pair : Nat) (p : CipherPair) (s : State) : State :=
  { s with cip := { s.cip with pairs := Tab.put s.cip.pairs pair { p with enc := none }, encrypted := s.cip.encrypted + 1 } }

/-- The buffer of a block that a pair has encrypted goes to the Dataset Builder (R189). -/
def passBuf (pair : Nat) (b : Blk) (s : State) : State :=
  match b.buf with
  | some i => giveOwn (0x70 + pair) i 0x80 b.flow s
  | none => s

theorem passBuf_bufOnly (pair : Nat) (b : Blk) (s : State) : BufOnly s (passBuf pair b s) := by
  unfold passBuf
  split
  · exact giveOwn_bufOnly ..
  · exact .refl s

/-- The block that a pair holds is sealed under its slot's key and its own vector, and offered (R242, R243, R275). -/
theorem blockEncrypted_offers {pair : Fin 4} {b : Blk} {p : CipherPair} {k : KeySlot} {iv : BitVec 96} {s : State}
    (hp : Tab.get? s.cip.pairs pair.val = some p) (henc : p.enc = some b.id) (hb : getBlk s b.id = some b)
    (hk : Tab.get? s.cip.slots (b.key.getD 0) = some k) (hiv : b.iv = some iv) :
    exec (.blockEncrypted pair [] true) s = .next (offer b.id (setBlk b.id (sealedBlk k.key iv b)
      (passBuf pair.val b (countDraws (sealCounted pair.val p s))))) := by
  have hpair : Tab.getD s.cip.pairs pair.val {} = p := by rw [Tab.getD, hp, Option.getD_some]
  rw [exec_blockEncrypted, execBlockEncrypted]
  simp only [hpair, henc, Option.bind_some, hb, eccReads_nil, hk, hiv, sealedBlk, Bool.not_true, Bool.false_eq_true, if_false]
  refine (if_neg ?_).trans rfl
  split <;> exact Bool.false_ne_true

/-- Beside the draws and the buffer, sealing a block frees its pair and counts the block. -/
theorem passBuf_sealed (pair : Nat) (p : CipherPair) (b : Blk) (s : State) :
    let u := passBuf pair b (countDraws (sealCounted pair p s))
    u.cip.encrypted = s.cip.encrypted + 1 ∧ Tab.get? u.cip.pairs pair = some { p with enc := none } ∧
      u.cip.slots = s.cip.slots ∧ u.wr = s.wr := by
  have hpass := passBuf_bufOnly pair b (countDraws (sealCounted pair p s))
  obtain ⟨n, m, hdraw⟩ := countDraws_eq (sealCounted pair p s)
  dsimp only
  rw [hpass.cip, hpass.wr, hdraw]
  exact ⟨rfl, Tab.get?_put_self .., rfl, rfl⟩

/-! The random source and the counter table. -/

theorem entropyHealthFail_stops (s : State) : ∃ t, exec .entropyHealthFail s = .next t ∧ t.cip = { s.cip with failed := true } ∧
    Tab.getD t.ev.counts 0x527 0 = sat32 (Tab.getD s.ev.counts 0x527 0 + 1) :=
  ⟨_, rfl, raise_cip .., by rw [raise_counts, Tab.getD_put_self]⟩

theorem drbgReseed_restarts {s : State} (h : 2 ^ 20 ≤ s.cip.drbgRequests) :
    exec .drbgReseed s = .next { s with cip := { s.cip with drbgRequests := 0 } } := if_neg (Nat.not_lt.2 h)

theorem drbgReseed_early {s : State} (h : s.cip.drbgRequests < 2 ^ 20) : exec .drbgReseed s = .next s := if_pos h

theorem counterRetire_of_ok {blob : List Byte} {s : State} (h : retireOk s blob = true) : exec (.counterRetire blob) s =
    .next { s with cip := { s.cip with counters := Tab.del s.cip.counters (retirePair blob) } } := if_pos h

theorem counterRetire_of_used {blob : List Byte} {s : State} (h : retireOk s blob = false) :
    exec (.counterRetire blob) s = .next s := if_neg (by simp [h])

/-- Settles O38: a packet by the buffer of its pair and the value of its slot, a block by its seal, the other rows by what they
write. -/
theorem blocksAreEncrypted : Obligations.BlocksAreEncrypted := by
  unfold Obligations.BlocksAreEncrypted
  refine ⟨?_, fun pair e ecc tagOk s hwait => ?_, ?_, entropyHealthFail_stops,
    fun s => ⟨drbgReseed_restarts, drbgReseed_early⟩, fun blob s => ⟨fun hok => ?_, counterRetire_of_used⟩⟩
  · intro pair e b k s hb p hidle hup hok hk hlimit hhigh hbuf
    obtain ⟨u, P, i, hu, hgrant⟩ := cipherBuf_grants hbuf
    have htook := takeValue_took pair.val (b.key.getD 0) i k b { u with cip := { u.cip with pairs := P } }
    obtain ⟨k', hk', hnext, hkey, hsame⟩ := htook.slot
    obtain ⟨q, hq, henc, hnone⟩ := htook.busy
    exact ⟨_, k', q, i, cipherTakePacket_takes hb hidle hup hok hk hlimit hhigh hgrant, htook.blk, hk', hnext, hkey, hsame, hq,
      henc, hnone, htook.wr.trans hu.wr, htook.streams.trans hu.streams⟩
  · rw [exec_cipherTakePacket, execCipherTakePacket, headPacket_of_waiting hwait]
  · rintro pair b p n k iv s hp henc hb rfl hk hiv
    exact ⟨_, blockEncrypted_offers hp henc hb hk hiv, Tab.get?_put_self .., passBuf_sealed pair.val p b s⟩
  · exact ⟨_, counterRetire_of_ok hok, Tab.get?_del_self .., fun n hn => Tab.get?_del_ne _ hn, rfl⟩

end Sys2Proof.Machine
end

section
/-! The end of a pass: the gates, the windows that close, and the burst that marks the end of the data (R304, R306, R307, R346,
R356). -/

namespace Sys2Proof.Machine

/-! The Cocoon at the end of a pass. -/

/-- Without a failed dataset nothing leaves the Cocoon (R352). -/
theorem sweep_of_none_failed {s : State} (h : ∀ d ∈ s.wr.cocoon, d.state ≠ .failed) : sweep s = s := by
  have hgone : ∀ d ∈ s.wr.cocoon, (d.state == .failed && s.wr.head != some d.id) = false := fun d hd => by simp [h d hd]
  have hold : (s.wr.cocoon.filter fun d => d.state == .failed && s.wr.head != some d.id) = [] :=
    List.filter_eq_nil_iff.2 fun d hd => by simp [hgone d hd]
  have hstay : (s.wr.cocoon.filter fun d => !(d.state == .failed && s.wr.head != some d.id)) = s.wr.cocoon :=
    List.filter_eq_self.2 fun d hd => by simp [hgone d hd]
  unfold sweep
  simp only [hold, hstay, List.foldl_nil]

theorem sweep_of_empty {s : State} (h : s.wr.cocoon = []) : sweep s = s :=
  sweep_of_none_failed fun _ hd => absurd (h ▸ hd) List.not_mem_nil

theorem closeWindows_of_empty {s : State} (h : s.wr.cocoon = []) : closeWindows s = s := by
  rw [closeWindows, h, List.foldl_nil]

/-- Changes of channels change nothing else. -/
theorem foldl_updChan_eq (g : Nat → Channel → Channel) (l : List Nat) (s : State) :
    ∃ C, l.foldl (fun s p => updChan p (g p) s) s = { s with chans := C } := by
  induction l generalizing s with
  | nil => exact ⟨s.chans, rfl⟩
  | cons p l ih => exact ih (updChan p (g p) s)

/-- The end of a segment changes channels and the state of the dataset under the head, which it does not fail (R352). -/
theorem endSegment_eq (s : State) : ∃ C l, endSegment s = { s with chans := C, wr := { s.wr with cocoon := l } } ∧
    ((∀ d ∈ s.wr.cocoon, d.state ≠ .failed) → ∀ d ∈ l, d.state ≠ .failed) := by
  unfold endSegment
  split
  next d _ =>
    split
    · obtain ⟨C, hC⟩ := foldl_updChan_eq (fun _ c => { c with draining := none }) (List.range 128) s
      rw [hC]
      refine ⟨C, _, rfl, fun h e he => ?_⟩
      obtain ⟨d0, hd0, rfl⟩ := List.mem_map.1 he
      have hd0 := h d0 hd0
      split
      · show (if d0.state = .writing then DsState.verifying else d0.state) ≠ .failed
        split
        · decide
        · exact hd0
      · exact hd0
    · exact ⟨_, _, rfl, id⟩
  next => exact ⟨_, _, rfl, id⟩

/-! The write gates. -/

theorem setGates_of_same {b : Bool} {s : State} (h : s.wr.gates = b) : setGates b s = s := if_pos h

theorem setGates_of_ne {b : Bool} {s : State} (h : s.wr.gates ≠ b) :
    setGates b s = emit (.gates b) { s with wr := { s.wr with gates := b } } := if_neg h

@[simp] theorem setGates_wr (b : Bool) (s : State) : (setGates b s).wr = { s.wr with gates := b } := by
  by_cases h : s.wr.gates = b
  · subst h
    rw [setGates_of_same rfl]
  · rw [setGates_of_ne h, emit_wr]

@[simp] theorem setGates_cart (b : Bool) (s : State) : (setGates b s).cart = s.cart := by
  by_cases h : s.wr.gates = b
  · rw [setGates_of_same h]
  · rw [setGates_of_ne h, emit_cart]

theorem mem_setGates_out {o : Out} {s : State} (h : o ∈ s.out) (b : Bool) : o ∈ (setGates b s).out := by
  by_cases hb : s.wr.gates = b
  · rwa [setGates_of_same hb]
  · rw [setGates_of_ne hb]
    exact List.mem_cons_of_mem _ h

theorem closeGates_out (s : State) : (setGates false s).out = if s.wr.gates then .gates false :: s.out else s.out := by
  cases hg : s.wr.gates with
  | false => rw [setGates_of_same hg, if_neg Bool.false_ne_true]
  | true => rw [setGates_of_ne (by simp [hg]), if_pos rfl, emit_out]

/-! WRITE_PASS_END. -/

/-- The pass stops: its last segment ends, the gates close, no dataset is under the head (R337, R352, R356). -/
def passStopped (s : State) : State :=
  let u := setGates false (endSegment s)
  { u with wr := { u.wr with passEnding := true, head := none } }

theorem passStopped_keeps (s : State) : ∃ l, (passStopped s).wr =
      { s.wr with cocoon := l, gates := false, passEnding := true, head := none } ∧ (passStopped s).cart = s.cart ∧
    ((∀ d ∈ s.wr.cocoon, d.state ≠ .failed) → ∀ d ∈ l, d.state ≠ .failed) := by
  obtain ⟨C, l, hseg, hl⟩ := endSegment_eq s
  refine ⟨l, ?_, ?_, hl⟩
  · simp only [passStopped, hseg, setGates_wr]
  · simp only [passStopped, hseg, setGates_cart]

/-- The gates that the end of a pass finds open are closed (R337). -/
theorem passStopped_out (s : State) : (passStopped s).out = if s.wr.gates then .gates false :: s.out else s.out := by
  obtain ⟨C, l, hseg, -⟩ := endSegment_eq s
  exact (closeGates_out (endSegment s)).trans (by rw [hseg])

/-- Once quiet a pass that ends, or that reads wait for, stops; where no tail may follow, its windows close (R346, R356). -/
theorem writePassEnd_stops {b : Bool} {s : State} (hpass : s.wr.pass = true) (hend : s.wr.passEnding = true ∨ b = true)
    (hquiet : passQuiet s = true) (hfailed : ∀ d ∈ s.wr.cocoon, d.state ≠ .failed) :
    exec (.writePassEnd b) s = .next (if tailMay s then passStopped s else closeWindows (passStopped s)) := by
  obtain ⟨l, hwr, hcart, hl⟩ := passStopped_keeps s
  have hgo : ¬(!s.wr.pass || !(s.wr.passEnding || b) || !passQuiet s) = true := by
    rcases hend with h | h <;> simp [hpass, hquiet, h]
  have hsweep : sweep (passStopped s) = passStopped s := sweep_of_none_failed (by rw [hwr]; exact hl hfailed)
  have htail : tailMay (passStopped s) = tailMay s := by rw [tailMay, hwr, hcart, tailMay]
  rw [exec_writePassEnd, execWritePassEnd, if_neg hgo]
  show (let t := sweep (passStopped s); (.next (if tailMay t then t else closeWindows t) : Result)) = _
  simp only [hsweep, htail]

/-! The slots of a burst. -/

/-- `t` follows from `s` by slots that channels write: beside the channels and the agents' numbers, what was issued alone changes,
and it grows. -/
def WritesOnly (s t : State) : Prop := ∃ C A l, t = { s with chans := C, agentSeq := A, out := l ++ s.out }

theorem WritesOnly.refl (s : State) : WritesOnly s s := ⟨_, _, [], rfl⟩

theorem WritesOnly.trans {s t u : State} (h : WritesOnly s t) (k : WritesOnly t u) : WritesOnly s u := by
  obtain ⟨_, _, l, rfl⟩ := h
  obtain ⟨_, _, m, rfl⟩ := k
  exact ⟨_, _, m ++ l, by rw [List.append_assoc]⟩

theorem WritesOnly.foldl {α : Type} {f : State → α → State} (hf : ∀ t a, WritesOnly t (f t a)) (l : List α) (s : State) :
    WritesOnly s (l.foldl f s) := by
  induction l generalizing s with
  | nil => exact .refl s
  | cons a l ih => exact (hf s a).trans (ih (f s a))

theorem WritesOnly.wr {s t : State} (h : WritesOnly s t) : t.wr = s.wr := by obtain ⟨_, _, _, rfl⟩ := h; rfl

theorem WritesOnly.cart {s t : State} (h : WritesOnly s t) : t.cart = s.cart := by obtain ⟨_, _, _, rfl⟩ := h; rfl

/-- A channel has written a sector without data, under some tag, in a slot (R290). -/
def WroteFill (p j : Nat) (h : SectorHeader) (s : State) : Prop := ∃ f, .slotImage p j h fillCodeword f ∈ s.out

theorem WritesOnly.wrote {s t : State} (h : WritesOnly s t) {p j : Nat} {x : SectorHeader} (hw : WroteFill p j x s) :
    WroteFill p j x t := by
  obtain ⟨_, _, l, rfl⟩ := h
  obtain ⟨f, hf⟩ := hw
  exact ⟨f, List.mem_append_right l hf⟩

/-- What one step of a row of writes writes has been written after the row. -/
theorem WritesOnly.foldl_wrote {α : Type} {f : State → α → State} (hf : ∀ t a, WritesOnly t (f t a)) {l : List α} {a : α}
    (ha : a ∈ l) {s : State} {p j : Nat} {x : SectorHeader} (hw : ∀ t, WritesOnly s t → WroteFill p j x (f t a)) :
    WroteFill p j x (l.foldl f s) := by
  obtain ⟨l1, l2, rfl⟩ := List.append_of_mem ha
  rw [List.foldl_append, List.foldl_cons]
  exact (WritesOnly.foldl hf l2 _).wrote (hw _ (.foldl hf l1 s))

theorem drainBank_writesOnly (p : Nat) (i : Image) (cut : Bool) (s : State) : WritesOnly s (drainBank p i cut s) :=
  ⟨_, _, [_], rfl⟩

theorem agentTag_writesOnly (agent : Nat) (s : State) : WritesOnly s (agentTag agent s).2 := ⟨_, _, [], rfl⟩

theorem burstSlot_writesOnly (n : Nat) (place : Nat × Nat) (index : Bool) (s : State) (j : Nat) :
    WritesOnly s (burstSlot n place index s j) := by
  unfold burstSlot
  exact (agentTag_writesOnly agBuilder s).trans (.foldl (fun u p => drainBank_writesOnly p _ false u) _ _)

/-- Every channel writes its sector of a slot of the burst (R306). -/
theorem burstSlot_wrote (n : Nat) (place : Nat × Nat) (index : Bool) (s : State) (j : Nat) {p : Nat} (hp : p < 128) :
    WroteFill p j (fillHeader s n p j place index true false) (burstSlot n place index s j) := by
  unfold burstSlot
  exact WritesOnly.foldl_wrote (fun u q => drainBank_writesOnly q _ false u) (List.mem_range.2 hp)
    fun u _ => ⟨(agentTag agBuilder s).1, List.mem_cons_self⟩

/-- The header of a sector without data depends on the cartridge alone (R290). -/
theorem fillHeader_congr {s t : State} (h : t.cart = s.cart) (n p j : Nat) (place : Nat × Nat) (index eod degraded : Bool) :
    fillHeader t n p j place index eod degraded = fillHeader s n p j place index eod degraded := by
  rw [fillHeader, h, fillHeader]

/-- The three slots of a burst are written on all channels (R306). -/
theorem burst_wrote (n : Nat) (place : Nat × Nat) (index : Bool) (s : State) {p j : Nat} (hp : p < 128) (hj : j < 3) :
    WroteFill p j (fillHeader s n p j place index true false) ([0, 1, 2].foldl (burstSlot n place index) s) := by
  refine WritesOnly.foldl_wrote (burstSlot_writesOnly n place index) (a := j) (List.mem_range.2 hj) fun t ht => ?_
  rw [← fillHeader_congr ht.cart]
  exact burstSlot_wrote n place index t j hp

/-! EOD_BURST_WRITE. -/

/-- The end of the data is marked where a burst has its place, and the gates are closed (R306, R307, R342). -/
def endMarked (s : State) : State :=
  match burstPlace s with
  | some (n, place, index) => setGates false ([0, 1, 2].foldl (burstSlot n place index) (setGates true (lateFills s)))
  | none => setGates false s

theorem endMarked_keeps (s : State) : (∃ k, (endMarked s).wr = { s.wr with gates := false, fillVerifyFailures := k }) ∧
    (endMarked s).cart = s.cart := by
  unfold endMarked
  split
  next n place index _ =>
    have hburst := WritesOnly.foldl (burstSlot_writesOnly n place index) [0, 1, 2] (setGates true (lateFills s))
    rw [setGates_wr, setGates_cart, hburst.wr, hburst.cart, setGates_wr, setGates_cart]
    exact ⟨⟨_, rfl⟩, rfl⟩
  next =>
    rw [setGates_wr, setGates_cart]
    exact ⟨⟨_, rfl⟩, rfl⟩

/-- Where a burst has its place, it is written there (R306). -/
theorem endMarked_wrote {s : State} {n : Nat} {place : Nat × Nat} {index : Bool} (h : burstPlace s = some (n, place, index))
    {p j : Nat} (hp : p < 128) (hj : j < 3) :
    WroteFill p j (fillHeader s n p j place index true false) (endMarked s) := by
  obtain ⟨f, hf⟩ := burst_wrote n place index (setGates true (lateFills s)) hp hj
  rw [fillHeader_congr (s := s) (setGates_cart true (lateFills s))] at hf
  simp only [endMarked, h]
  exact ⟨f, mem_setGates_out hf false⟩

/-- Without a place for a burst nothing is written (R306). -/
theorem endMarked_of_no_place {s : State} (h : burstPlace s = none) (hg : s.wr.gates = false) : endMarked s = s := by
  simp only [endMarked, h, setGates_of_same hg]

theorem burstPlace_of_data {s : State} (hindex : s.wr.passIndex = false)
    (hfits : fits s.cart.wraps s.cart.grid s.cart.next = true) :
    burstPlace s = some (s.cart.next, placeOf s.cart.wraps s.cart.grid s.cart.next, false) := by
  simp [burstPlace, hindex, hfits]

theorem burstPlace_of_full {s : State} (hindex : s.wr.passIndex = false)
    (hfits : fits s.cart.wraps s.cart.grid s.cart.next = false) : burstPlace s = none := by
  simp [burstPlace, hindex, hfits]

theorem burstPlace_of_copy {s : State} {c : CkptJob} (hindex : s.wr.passIndex = true) (hc : s.wr.ckpt = some c) :
    burstPlace s = some (c.pos + c.made, (if c.copyB then 1 else 0, c.pos + c.made), true) := by
  simp [burstPlace, hindex, hc]

/-- A checkpoint copy whose pass is over waits for its result; one with a dataset missing has failed (R168, R170, R307). -/
def copyWritten (j : CkptJob) : CkptJob := { j with written := true, failed := j.failed || decide (j.made < j.parts) }

/-- With the Cocoon empty and no checkpoint due, the end of a pass ends the pass, and reads may start (R176, R356). -/
theorem endPass_ends {s : State} (hempty : s.wr.cocoon = []) (hdue : s.wr.ckptDue = false) :
    (endPass s).wr = { s.wr with
      pass := false, passEnding := false, passIndex := false, tails := 0, head := none,
      ckpt := if s.wr.passIndex then s.wr.ckpt.map copyWritten else s.wr.ckpt } ∧
    (endPass s).cart = s.cart ∧ (endPass s).out = s.out := by
  unfold endPass
  extract_lets ckpt w u
  have hu : u = emptyBanks _ := congrArg emptyBanks (sweep_of_empty hempty)
  have hidle : tryCkpt u = u := by
    have hnot : u.wr.ckptDue = false := by rw [hu]; exact hdue
    simp [tryCkpt, hnot]
  obtain ⟨v, R, hv, hout, he⟩ := startRead_bufOnly u
  rw [hidle, he]
  refine ⟨hv.wr.trans ?_, hv.cart.trans ?_, hout.trans ?_⟩ <;> rw [hu] <;> rfl

/-- Once the pass is quiet and its datasets have left the Cocoon, the end of the data is marked and the pass is over (R306, R307,
R356). -/
theorem eodBurstWrite_ends {s : State} (hpass : s.wr.pass = true) (hend : s.wr.passEnding = true) (hquiet : passQuiet s = true)
    (hopen : inhibited s = false) (hempty : s.wr.cocoon = []) :
    exec .eodBurstWrite s = .next (endPass (endMarked { s with wr := { s.wr with head := none } })) := by
  have hcopy : copyWanted s = false := by simp [copyWanted, hempty]
  have hgo : ¬(!s.wr.pass || !s.wr.passEnding || !passQuiet s || inhibited s || (copyWanted s && tailMay s)) = true := by
    simp [hpass, hend, hquiet, hopen, hcopy]
  have hleft : ¬ passLeft { s with wr := { s.wr with head := none } } = true := by simp [passLeft, hempty]
  rw [exec_eodBurstWrite, execEodBurstWrite, if_neg hgo, closeWindows_of_empty (by exact hempty), sweep_of_empty (by exact hempty)]
  exact if_neg hleft

/-- Settles O46: the pass stops and its windows close by what may follow; the burst is written by its place, and the pass ends. -/
theorem passesEndWithABurst : Obligations.PassesEndWithABurst := by
  unfold Obligations.PassesEndWithABurst
  refine ⟨fun b s hpass hend hquiet hfailed => ?_, fun s hpass hend hquiet hopen hempty hdue => ?_⟩
  · obtain ⟨l, hwr, hcart, -⟩ := passStopped_keeps s
    refine ⟨passStopped s, writePassEnd_stops hpass hend hquiet hfailed, ?_, ?_, ?_, fun hg => ?_, fun hg => ?_, hcart⟩
    · rw [hwr]
    · rw [hwr]
    · rw [hwr]
    · rw [passStopped_out, hg, if_pos rfl]
    · rw [passStopped_out, hg, if_neg Bool.false_ne_true]
  · set u : State := { s with wr := { s.wr with head := none } }
    obtain ⟨⟨k, hwr⟩, hcart⟩ := endMarked_keeps u
    obtain ⟨htwr, htcart, htout⟩ := endPass_ends (s := endMarked u) (by rw [hwr]; exact hempty) (by rw [hwr]; exact hdue)
    rw [hwr] at htwr
    have hburst : ∀ {n place index}, burstPlace s = some (n, place, index) → ∀ p j, p < 128 → j < 3 →
        WroteFill p j (fillHeader s n p j place index true false) (endPass (endMarked u)) := fun h p j hp hj => by
      rw [WroteFill, htout]
      exact endMarked_wrote (s := u) h hp hj
    refine ⟨_, eodBurstWrite_ends hpass hend hquiet hopen hempty, ?_, ?_, ?_, htcart.trans hcart,
      fun hindex hfits => hburst (burstPlace_of_data hindex hfits), fun hindex hfits hg => ?_,
      fun hindex c hc => ⟨?_, hburst (burstPlace_of_copy hindex hc)⟩⟩
    · rw [htwr]
    · rw [htwr]
    · rw [htwr]
    · rw [htout, endMarked_of_no_place (s := u) (burstPlace_of_full hindex hfits) hg]
    · rw [htwr, show u.wr.passIndex = true from hindex, show u.wr.ckpt = some c from hc, if_pos rfl]
      rfl

end Sys2Proof.Machine
end

section
/-! The numbering and the encoding of datasets, and the interrupt of the event that a tail dataset raises (R76, R357, R539). -/

namespace Sys2Proof.Machine

/-- A closed data dataset that waits to be written. -/
def waitingDs : Dataset := { id := 1, state := .closed }

/-- A dataset whose segment is past, with every home sector passed but one, which needs a copy (R345, R346). -/
def oneCopyDs : Dataset :=
  { id := 0, number := some 0, state := .verifying, slot := 100,
    sectors := (List.range (128 * 96)).map fun k => (k, { st := if k = 0 then .needsCopy else .passed }) }

/-- A pass that ends, with a copy still wanted and a closed dataset that may follow as a tail. EVQ-H is armed, and the functions are as
after reset: vector 1 of the PF, which serves EVQ-H, is masked and not pending (R74, R539). -/
def armedTail : State :=
  { State.reset with
    cart := { state := .ready, wraps := 280, grid := 1000, next := 1 }
    wr := { pass := true, passEnding := true, closedQ := [waitingDs], cocoon := [oneCopyDs] }
    ev := { armed := true } }

/-- The message of EVQ-H is held in the pending bit of its vector (R76, R539). -/
def hostEventPends (s : State) : Bool := (Tab.getD (getFn s 0).msix 1 {}).pend

/-- A tail dataset may begin, and the pending bit is clear before it. -/
theorem armedTail_may_begin : passQuiet armedTail = true ∧ copyWanted armedTail = true ∧ tailMay armedTail = true ∧
    writeAllowed armedTail = true ∧ fits armedTail.cart.wraps armedTail.cart.grid armedTail.cart.next = true ∧
    hostEventPends armedTail = false := by
  decide +kernel

/-- Event 0x554 of the tail dataset enters the armed EVQ-H, whose masked vector keeps the message (R76, R357, R539). -/
theorem armedTail_event_pends :
    (match exec .writeTailDataset armedTail with | .next t => hostEventPends t | _ => false) = true := by
  decide +kernel

/-- What is pending depends on the functions alone. -/
theorem hostEventPends_congr {s t : State} (h : t.host.fns = s.host.fns) : hostEventPends t = hostEventPends s := by
  simp only [hostEventPends, getFn, h]

/-- Refutes O44: the functions do not stay as they were. Each tail dataset raises event 0x554; with EVQ-H armed and its vector masked
that sets the vector's pending bit, which is part of the PF's state. -/
theorem not_datasetsAreNumberedAndEncoded : ¬ Obligations.DatasetsAreNumberedAndEncoded := by
  unfold Obligations.DatasetsAreNumberedAndEncoded
  rintro ⟨hstart, -, -⟩
  obtain ⟨hquiet, hcopy, hmay, hallowed, hfits, hclear⟩ := armedTail_may_begin
  obtain ⟨t, -, hcall, -, -, -, -, -, -, -, -, -, -, -, hfns, -⟩ :=
    hstart .writeTailDataset waitingDs [] armedTail rfl rfl hallowed hfits (.inr (.inr ⟨rfl, rfl, rfl, hquiet, hcopy, hmay⟩))
  have hset : hostEventPends t = true := by
    have hrun := armedTail_event_pends
    rwa [hcall] at hrun
  rw [hostEventPends_congr hfns, hclear] at hset
  cases hset

end Sys2Proof.Machine
end

section
/-! The pins, and why TFAULT# low cannot be promised to leave every READY cartridge FAULTED: PinsActOnTheirLevels asks nothing of what
the commands in flight have put off to their posting (R99, R466, R468). -/

namespace Sys2Proof.Machine

/-- A CARTRIDGE_FORMAT of queue pair 0 that has not completed and already carries a change for its posting: from FAULTED to PRESENT.
The model puts off a change only together with the completion that ends its command; the type `Cmd` does not ask for that. -/
def earlyPost : Cmd :=
  { fn := 0, qp := 0, epoch := 0, seq := 0, headAfter := 1, entry := BitVec.ofNat 512 opCartFormat, stage := .waiting,
    post := [.cart .faulted .present] }

/-- A READY cartridge that this command is formatting, with the transport in HOLD and TFAULT# high. -/
def earlyPosted : State :=
  { State.reset with
    host := { State.reset.host with fns := [(0, { qps := [(0, idleQp)] })], cmds := [(0, earlyPost)] }
    cart := { state := .ready, wraps := 280, grid := 1000, format := some 0, formatting := some 0 }
    tce := { state := .hold } }

/-- What the clause on TFAULT# asks before the fault. -/
theorem earlyPosted_may_fault : tceUnpowered earlyPosted = false ∧ earlyPosted.tce.faults.getLsbD 7 = false ∧
    earlyPosted.tce.state ≠ .off ∧ earlyPosted.cart.state = .ready := by
  decide +kernel

/-- The fault makes the cartridge FAULTED and then ends the CARTRIDGE_FORMAT (R99, R117); the posting of its completion applies the
change from FAULTED. -/
theorem earlyPosted_ends_present :
    (match exec (.tfaultLow true) earlyPosted with | .next t => some t.cart.state | _ => none) = some .present := by
  decide +kernel

/-- Refutes O47: with no well-formedness of the commands in flight asked for, the command that the transport fault ends can carry a
change that its posting applies to a FAULTED cartridge, so that TFAULT# low leaves a READY cartridge PRESENT. -/
theorem not_pinsActOnTheirLevels : ¬ Obligations.PinsActOnTheirLevels := by
  unfold Obligations.PinsActOnTheirLevels
  rintro ⟨-, -, htfault, -, -, -⟩
  obtain ⟨hpowered, hclear, hon, hready⟩ := earlyPosted_may_fault
  obtain ⟨t, hcall, -, -, -, -, hfaulted, -⟩ := htfault earlyPosted hpowered hclear hon
  have hrun := earlyPosted_ends_present
  rw [hcall] at hrun
  exact absurd ((hfaulted hready).symm.trans (Option.some.inj hrun)) (by decide)

end Sys2Proof.Machine
end

section
/-! SUPPORT. The data path leaves the channels alone: what cuts, places, loses and completes keeps every channel, and so do the
failed-member rules that it serves (R127, R152, R210, R301, R352, R411-R413). -/

namespace Sys2Proof.Machine

@[simp] theorem ite_chans (p : Prop) [Decidable p] (a b : State) :
    (if p then a else b).chans = if p then a.chans else b.chans :=
  apply_ite ..

@[simp] theorem foldl_chans {α : Type} {f : State → α → State} (hf : ∀ t a, (f t a).chans = t.chans) (l : List α)
    (s : State) : (l.foldl f s).chans = s.chans :=
  foldl_keeps State.chans hf l s

/-! Commands, buffers and blocks. -/

@[simp] theorem complete_chans (slot : Nat) (p : Cmd → Cpl) (e : ErrInfo) (s : State) :
    (complete slot p e s).chans = s.chans :=
  (complete_hostOut ⟨_, _, _, _, _, _, _, rfl⟩ ..).chans
@[simp] theorem finish_chans (slot : Nat) (st : Status) (block : Nat) (s : State) :
    (finish slot st block s).chans = s.chans :=
  complete_chans ..
@[simp] theorem setStage_chans (slot : Nat) (st : Stage) (s : State) : (setStage slot st s).chans = s.chans := updCmd_chans ..
@[simp] theorem setJob_chans (slot : Nat) (w : WriteJob) (s : State) : (setJob slot w s).chans = s.chans := setStage_chans ..
@[simp] theorem onPost_chans (slot : Nat) (a : PostAct) (s : State) : (onPost slot a s).chans = s.chans := updCmd_chans ..
@[simp] theorem noteInfo_chans (slot : Nat) (st : Status) (s : State) : (noteInfo slot st s).chans = s.chans := updCmd_chans ..
@[simp] theorem raiseIf_chans (b : Bool) (n : Nat) (l : List (Nat × Nat)) (s : State) : (raiseIf b n l s).chans = s.chans :=
  raiseIf_keeps State.chans (raise_chans ..) b
@[simp] theorem freeOpt_chans (id : Option Nat) (tag : BitVec 128) (s : State) : (freeOpt id tag s).chans = s.chans :=
  (freeOpt_bufOnly ..).chans
@[simp] theorem freeOwn_chans (owner id : Nat) (tag : BitVec 128) (s : State) : (freeOwn owner id tag s).chans = s.chans :=
  (freeOwn_bufOnly ..).chans
@[simp] theorem lessLeft_chans (b n : Nat) (s : State) : (lessLeft b n s).chans = s.chans := by simp [lessLeft]
@[simp] theorem freeHeld_chans (id : Nat) (tag : BitVec 128) (s : State) : (freeHeld id tag s).chans = s.chans :=
  freeOpt_chans (some id) tag s
@[simp] theorem freeIntake_chans (w : WriteJob) (tag : BitVec 128) (s : State) : (freeIntake w tag s).chans = s.chans := by
  simp [freeIntake]
@[simp] theorem consumeSrc_chans (src : List (Nat × Nat × Nat)) (tag : BitVec 128) (s : State) :
    (consumeSrc src tag s).chans = s.chans := by
  simp [consumeSrc]
@[simp] theorem recordNumOf_chans (given : Option Nat) (s : State) : (recordNumOf given s).2.chans = s.chans := by
  unfold recordNumOf
  split <;> rfl

theorem PackOnly.chans {s t : State} (h : PackOnly s t) : t.chans = s.chans := by
  obtain ⟨_, _, rfl⟩ := h
  rfl

@[simp] theorem cutBlock_chans (n : Nat) (s : State) : (cutBlock n s).chans = s.chans := (cutBlock_opens n s).1.chans
@[simp] theorem dispatchAll_chans (s : State) : (dispatchAll s).chans = s.chans := (dispatchAll_openKept s).frame.chans
@[simp] theorem closeStream_chans (n : Nat) (s : State) : (closeStream n s).chans = s.chans := (closeStream_streamsOnly n s).chans
@[simp] theorem dropBlk_chans (s : State) (x : Blk) : (dropBlk s x).chans = s.chans := by
  have hf : ∀ (t : State) (p : Nat × Engine), (setEngine p.1 { getEngine t p.1 with busy := none } t).chans = t.chans :=
    fun _ _ => rfl
  unfold dropBlk
  extract_lets s1 s2 s3 s4
  have h4 : s4.chans = s.chans := by simp [s4, s3, s2, s1, foldl_chans hf]
  split <;> exact h4

/-! WRITEs. -/

@[simp] theorem finishWrite_chans (slot : Nat) (st : Option Status) (e : ErrInfo) (s : State) :
    (finishWrite slot st e s).chans = s.chans := by
  unfold finishWrite
  split
  · rfl
  split
  · extract_lets _ _ _ whole s1 last s2 num ds
    have hnum : num.2.chans = s.chans := by simp [num, s2, s1, runSettled]
    have hds : ds.2.chans = num.2.chans := by
      subst ds
      split
      · rfl
      · clear_value last
        split <;> rfl
    exact (complete_chans ..).trans (hds.trans hnum)
  · rfl

@[simp] theorem stopWrite_chans (slot : Nat) (st : Status) (e : ErrInfo) (s : State) :
    (stopWrite slot st e s).chans = s.chans := by
  unfold stopWrite
  split
  · rfl
  split
  · extract_lets n r s1 s2 s3
    have h1 : s1.chans = s.chans := by
      subst s1
      split
      · split <;> rfl
      · rfl
    simp [s3, s2, h1, dropRun]
  · rfl

@[simp] theorem stopLost_chans (slot : Nat) (st : Status) (e : ErrInfo) (low : Option Nat) (s : State) :
    (stopLost slot st e low s).chans = s.chans := by
  unfold stopLost
  split
  · split <;> simp
  · simp

@[simp] theorem checkWrites_chans (s : State) : (checkWrites s).chans = s.chans := by
  refine foldl_chans (fun t slot => ?_) ..
  unfold checkWrite
  split
  · rfl
  split
  · simp
  · rfl

/-! READs and rebuilds. -/

@[simp] theorem toHostMem_chans (slot : Nat) (record : Bool) (bytes : List Byte) (s : State) :
    (toHostMem slot record bytes s).chans = s.chans := by
  unfold toHostMem
  split <;> simp

@[simp] theorem giveLens_chans (slot : Nat) (c : Cmd) (lens : List Nat) (s : State) :
    (giveLens slot c lens s).chans = s.chans := by
  simp [giveLens]

@[simp] theorem addInfo_chans (slot info : Nat) (s : State) : (addInfo slot info s).chans = s.chans := updCmd_chans ..

@[simp] theorem knownOr_chans (v : Option Nat) (s : State) : (knownOr v s).2.chans = s.chans := by
  unfold knownOr
  split <;> rfl

@[simp] theorem knownAll_chans (l : List (Option Nat)) (s : State) : (knownAll l s).2.chans = s.chans := by
  induction l generalizing s with
  | nil => rfl
  | cons v l ih => exact (ih (knownOr v s).2).trans (knownOr_chans v s)

@[simp] theorem endRead_chans (slot : Nat) (c : Cmd) (e : ErrInfo) (a : ReadAcc) (s : State) :
    (endRead slot c e a s).chans = s.chans := by
  simp [endRead]

@[simp] theorem endRaw_chans (slot : Nat) (c : Cmd) (e : ErrInfo) (a : RawAcc) (s : State) :
    (endRaw slot c e a s).chans = s.chans := by
  simp [endRaw]

@[simp] theorem tryRead_chans (slot : Nat) (s : State) : (tryRead slot s).chans = s.chans := by
  unfold tryRead
  split
  · rfl
  split
  · split
    · rfl
    · dsimp only
      split
      · rfl
      split
      · split <;> simp
      · split <;> simp
  · rfl

@[simp] theorem endReadEarly_chans (slot : Nat) (c : Cmd) (j : ReadJob) (st : Status) (i : ErrInfo) (s : State) :
    (endReadEarly slot c j st i s).chans = s.chans := by
  unfold endReadEarly
  dsimp only
  split
  · split <;> simp
  · split <;> simp

@[simp] theorem failReads_chans (s : State) : (failReads s).chans = s.chans := by
  unfold failReads
  split
  · rfl
  refine foldl_chans (fun t slot => ?_) ..
  split
  · split
    · simp
    · rfl
  · rfl

@[simp] theorem rebuildCheck_chans (s : State) : (rebuildCheck s).chans = s.chans := by
  unfold rebuildCheck endRebuild
  split
  · rfl
  · simp

@[simp] theorem cutWanted_chans (s : State) : (cutWanted s).chans = s.chans := by
  refine foldl_chans (fun t p => ?_) ..
  split
  · dsimp only
    split <;> simp
  · rfl

@[simp] theorem clearReads_chans (s : State) : (clearReads s).chans = s.chans := by
  have hl : (s.rd.blks.foldl freeTape s).chans = s.chans := foldl_chans (fun _ _ => (freeTape_bufOnly ..).chans) ..
  unfold clearReads
  dsimp only
  split
  · exact (dropHeld_bufOnly ..).chans.trans ((freeOpt_chans ..).trans hl)
  · exact hl

@[simp] theorem readsAdvance_chans (s : State) : (readsAdvance s).chans = s.chans := by
  simp [readsAdvance]

/-! Datasets and drains. -/

@[simp] theorem openDataset_chans (cont : Nat) (tag : BitVec 128) (s : State) : (openDataset cont tag s).chans = s.chans := by
  obtain ⟨_, _, _, _, hu, h⟩ := openDataset_eq cont tag s
  rw [h]
  exact hu.chans

@[simp] theorem closeDataset_chans (pad : Bool) (s : State) : (closeDataset pad s).chans = s.chans := by
  unfold closeDataset
  split <;> rfl

@[simp] theorem drainClose_chans (d : Drain) (s : State) : (drainClose d s).chans = s.chans := by
  unfold drainClose
  extract_lets waits here padded t
  have ht : t.chans = s.chans := closeDataset_chans ..
  split
  · split <;> simp [ht]
  · rfl

@[simp] theorem failStream_chans (err : DrainErr) (n : Nat) (nums : List Nat) (s : State) :
    (failStream err n nums s).chans = s.chans := by
  unfold failStream closeRecords
  split <;> simp

@[simp] theorem loseFrom_chans (b : Blk) (st : Status) (e : ErrInfo) (s : State) : (loseFrom b st e s).chans = s.chans := by
  unfold loseFrom
  extract_lets hit bad frags seqs s1 s2
  have h1 : s1.chans = s.chans := by
    refine foldl_chans (fun t q => ?_) ..
    split
    · simp
    · rfl
  have h2 : s2.chans = s.chans := (failStream_chans ..).trans h1
  refine (dispatchAll_chans _).trans ((foldl_chans (fun t x => ?_) ..).trans h2)
  split
  · exact dropBlk_chans ..
  · rfl

@[simp] theorem placeLoop_chans (n : Nat) (s : State) : (placeLoop n s).chans = s.chans := by
  induction n generalizing s with
  | zero => rfl
  | succ n ih =>
    unfold placeLoop loseAtEnd
    split
    · rfl
    split
    · simp [ih]
    · simp [ih, closeDrained, setBlk]

@[simp] theorem pushDrains_chans (s : State) : (pushDrains s).chans = s.chans := by
  simp [pushDrains, drainCuts]

@[simp] theorem settle_chans (s : State) : (settle s).chans = s.chans := by
  have hpower : ∀ t : State, (endPowerDrain t).chans = t.chans := by
    intro t
    unfold endPowerDrain
    split <;> simp
  simp [settle, settleN, closeEnded, hpower, placeAll]

@[simp] theorem endCreate_chans (n : Nat) (st : Option (Status × Option Nat)) (s : State) :
    (endCreate n st s).chans = s.chans := by
  unfold endCreate
  split
  · dsimp only
    split <;> simp
  · split <;> rfl

/-- A dataset fails without a change of a channel (R352, R354). -/
@[simp] theorem failDs_chans (d : Dataset) (cause : Status) (s : State) : (failDs d cause s).chans = s.chans := by
  unfold failDs
  extract_lets streams number s1 s2 s3 again first _ s4 s5 _ s6 s7 keep mark _ s8 _ s9 _ s10
  have h3 : s3.chans = s.chans := by
    refine (foldl_chans (fun t slot => ?_) ..).trans (by simp [s2, s1])
    split
    · simp
    · rfl
  have h7 : s7.chans = s3.chans := by simp [s7, s6, s5, s4, forgetDs]
  have h9 : s9.chans = s8.chans := by
    subst s9
    split
    · simp
    · rfl
  have h10 : s10.chans = s9.chans := by simp [s10]
  simpa using h10.trans (h9.trans (h7.trans h3))

/-! The failed members. -/

@[simp] theorem failIfStopped_chans (d : Drain) (s : State) : (failIfStopped d s).chans = s.chans := by
  simp [failIfStopped]

@[simp] theorem setCause_chans (n : Nat) (s : State) : (setCause n s).chans = s.chans := by
  simp [setCause]

/-- The failed-member rules stop and resume writing, and change no channel (R411-R413). -/
@[simp] theorem judgeMembers_chans (s : State) : (judgeMembers s).chans = s.chans := by
  simp [judgeMembers, resumeWriting, stopWriting]

end Sys2Proof.Machine
end

section
/-! The clock out of lock: the onset of the clock condition of the write guard leaves the synthesiser alone, and what is left of lock
when it goes (R359-R362, R372, R373, R376). -/

namespace Sys2Proof.Machine

/-! The write guard. -/

@[simp] theorem ite_tlcs (p : Prop) [Decidable p] (a b : State) :
    (if p then a else b).tlcs = if p then a.tlcs else b.tlcs :=
  apply_ite ..

@[simp] theorem foldl_tlcs {α : Type} {f : State → α → State} (hf : ∀ t a, (f t a).tlcs = t.tlcs) (l : List α) (s : State) :
    (l.foldl f s).tlcs = s.tlcs :=
  foldl_keeps State.tlcs hf l s

@[simp] theorem failDs_tlcs (d : Dataset) (cause : Status) (s : State) : (failDs d cause s).tlcs = s.tlcs :=
  (failDs_ctlKept (.refl s) ..).tlcs

@[simp] theorem updDs_tlcs (id : Nat) (g : Dataset → Dataset) (s : State) : (updDs id g s).tlcs = s.tlcs := rfl

@[simp] theorem setGates_tlcs (on : Bool) (s : State) : (setGates on s).tlcs = s.tlcs := by simp [setGates]

@[simp] theorem cutImage_tlcs (d : Dataset) (i : Image) (s : State) : (cutImage d i s).tlcs = s.tlcs := by
  have hcopy : (cutCopy i.dataset i.home i.row s).tlcs = s.tlcs := by
    unfold cutCopy loseSectors
    split
    · rfl
    · simp
  simp [cutImage, cutHome, hcopy]

@[simp] theorem countFail_tlcs (p under : Nat) (s : State) : (countFail p under s).tlcs = s.tlcs := by
  simp [countFail, raiseIf, updChan, setChan]

@[simp] theorem cutSlot_tlcs (d : Dataset) (s : State) : (cutSlot d s).tlcs = s.tlcs := by
  refine foldl_tlcs (fun t p => ?_) ..
  split
  · rfl
  · simp [updChan, setChan]

@[simp] theorem countInhibit_tlcs (d : Dataset) (s : State) : (countInhibit d s).tlcs = s.tlcs := by
  simp [countInhibit]

/-- The write guard does not reach the clock synthesiser (R359-R362). -/
@[simp] theorem guardOnset_tlcs (bit : Nat) (s : State) : (guardOnset bit s).tlcs = s.tlcs := by
  unfold guardOnset
  dsimp only
  split
  · rfl
  split
  · simp
  · simp

/-! Out of lock. -/

/-- The clock synthesiser as it stands in ACQUIRE after a loss of lock (R372, R376). -/
def outOfLock (fromFly : Bool) (c : Tlcs) : Tlcs :=
  { c with state := .acquire, lpos := false, fromFly := fromFly, steady := 0, unlocks := sat32 (c.unlocks + 1) }

@[simp] theorem loseLock_tlcs (b : Bool) (s : State) : (loseLock b s).tlcs = outOfLock b s.tlcs := by
  simp [loseLock, outOfLock]

@[simp] theorem loseLock_guardLocked (b : Bool) (s : State) : (loseLock b s).wr.guardLocked = 0 := rfl

@[simp] theorem unlockTlcs_tlcs (s : State) : (unlockTlcs s).tlcs = outOfLock true s.tlcs := by simp [unlockTlcs]

@[simp] theorem slipTlcs_tlcs (s : State) : (slipTlcs s).tlcs = outOfLock false s.tlcs := by simp [slipTlcs]

@[simp] theorem unlockTlcs_guardLocked (s : State) : (unlockTlcs s).wr.guardLocked = 0 := rfl

@[simp] theorem slipTlcs_guardLocked (s : State) : (slipTlcs s).wr.guardLocked = 0 := rfl

/-! Events counted. -/

theorem raise_count_self (n : Nat) (l : List (Nat × Nat)) (s : State) :
    Tab.getD (raise n l s).ev.counts n 0 = sat32 (Tab.getD s.ev.counts n 0 + 1) := by
  rw [raise_counts, Tab.getD_put_self]

theorem raise_count_ne {m n : Nat} (h : m ≠ n) (l : List (Nat × Nat)) (s : State) :
    Tab.getD (raise n l s).ev.counts m 0 = Tab.getD s.ev.counts m 0 := by
  rw [raise_counts, Tab.getD_put_ne _ _ _ h]

/-! CLOCK_READER_LOSS. -/

/-- A reader is no longer valid, with its event (R370). -/
def readerLost (r : Nat) (s : State) : State :=
  raise 0x643 [(2, r)] { s with tlcs := { s.tlcs with valid := s.tlcs.valid.erase r } }

/-- The tilt goes on hold where a band has no valid reader, or both have none (R378). -/
def tiltHeld (s : State) : State :=
  if !bothBands s && !s.tlcs.hold then raise 0x644 [] { s with tlcs := { s.tlcs with hold := true } } else s

/-- The last reader is gone in lock (R372, R374). -/
def flywheelEntered (s : State) : State :=
  raise 0x640 [] { s with tlcs := { s.tlcs with
    state := .flywheel, distance := 0, flyRef := speedRef s, flyEntries := sat32 (s.tlcs.flyEntries + 1) } }

theorem execClockReaderLoss_of_fails {r : Fin 4} {loss : ReaderLoss} {s : State} (hv : r.val ∈ s.tlcs.valid)
    (hf : readerFails r.val loss s = true) : execClockReaderLoss r loss s = .next
      (if (tiltHeld (readerLost r.val s)).tlcs.state = .locked && (tiltHeld (readerLost r.val s)).tlcs.valid.isEmpty then
        flywheelEntered (tiltHeld (readerLost r.val s)) else tiltHeld (readerLost r.val s)) := by
  have hgo : ¬(!s.tlcs.valid.contains r.val || !readerFails r.val loss s) = true := by simp [hv, hf]
  unfold execClockReaderLoss
  rw [if_neg hgo]
  exact (apply_ite Host.Outcome.next ..).symm

/-- What the hold leaves, and that it stands where a band has no reader (R378). -/
theorem tiltHeld_holds (s : State) : ∃ h, (tiltHeld s).tlcs = { s.tlcs with hold := h } ∧ (bothBands s = false → h = true) ∧
    (tiltHeld s).wr = s.wr ∧ ∀ n, n ≠ 0x644 → Tab.getD (tiltHeld s).ev.counts n 0 = Tab.getD s.ev.counts n 0 := by
  unfold tiltHeld
  split
  · exact ⟨true, raise_tlcs .., fun _ => rfl, raise_wr .., fun n hn => raise_count_ne hn ..⟩
  next h =>
    refine ⟨s.tlcs.hold, rfl, fun hb => ?_, rfl, fun _ _ => rfl⟩
    simpa [hb] using h

theorem bothBands_of_none_valid {s : State} (h : s.tlcs.valid = []) : bothBands s = false := by
  simp [bothBands, bandValid, h]

/-- A reader that fails a test is lost, and without any the synthesiser leaves LOCKED (R370, R372, R374, R378). -/
theorem clockReaderLoss_loses {r : Fin 4} {loss : ReaderLoss} {s : State} (hv : r.val ∈ s.tlcs.valid)
    (hf : readerFails r.val loss s = true) :
    ∃ t, exec (.clockReaderLoss r loss) s = .next t ∧ t.tlcs.valid = s.tlcs.valid.erase r.val ∧
      Tab.getD t.ev.counts 0x643 0 = sat32 (Tab.getD s.ev.counts 0x643 0 + 1) ∧
      (s.tlcs.state = .locked → s.tlcs.valid = [r.val] → t.tlcs.state = .flywheel ∧ t.tlcs.hold = true ∧ t.tlcs.distance = 0 ∧
        t.tlcs.flyEntries = sat32 (s.tlcs.flyEntries + 1) ∧
        Tab.getD t.ev.counts 0x640 0 = sat32 (Tab.getD s.ev.counts 0x640 0 + 1)) ∧
      (s.tlcs.state ≠ .locked → t.tlcs.state = s.tlcs.state) ∧ t.wr = s.wr := by
  have hlost : (readerLost r.val s).tlcs = { s.tlcs with valid := s.tlcs.valid.erase r.val } := raise_tlcs ..
  have hcount : Tab.getD (readerLost r.val s).ev.counts 0x643 0 = sat32 (Tab.getD s.ev.counts 0x643 0 + 1) := raise_count_self ..
  have hother : Tab.getD (readerLost r.val s).ev.counts 0x640 0 = Tab.getD s.ev.counts 0x640 0 := raise_count_ne (by decide) ..
  have hwr : (readerLost r.val s).wr = s.wr := raise_wr ..
  obtain ⟨h, htlcs, hhold, hwr2, hcounts⟩ := tiltHeld_holds (readerLost r.val s)
  rw [exec_clockReaderLoss, execClockReaderLoss_of_fails hv hf]
  generalize hu : tiltHeld (readerLost r.val s) = u at htlcs hwr2 hcounts
  refine ⟨_, rfl, ?_⟩
  rw [hlost] at htlcs
  rw [hwr] at hwr2
  have hc643 := (hcounts 0x643 (by decide)).trans hcount
  have hc640 := (hcounts 0x640 (by decide)).trans hother
  split
  next hlast =>
    obtain ⟨hlocked, hnone⟩ : s.tlcs.state = .locked ∧ s.tlcs.valid.erase r.val = [] := by simpa [htlcs] using hlast
    have hheld : h = true := hhold (bothBands_of_none_valid (by rw [hlost]; exact hnone))
    refine ⟨?_, ?_, fun _ _ => ⟨?_, ?_, ?_, ?_, ?_⟩, fun hn => absurd hlocked hn, (raise_wr ..).trans hwr2⟩
    · simp [flywheelEntered, htlcs]
    · exact (raise_count_ne (by decide) ..).trans hc643
    · simp [flywheelEntered]
    · simp [flywheelEntered, htlcs, hheld]
    · simp [flywheelEntered]
    · simp [flywheelEntered, htlcs]
    · exact (raise_count_self ..).trans (by rw [hc640])
  next hlast =>
    refine ⟨by rw [htlcs], hc643, fun hl hone => ?_, fun _ => by rw [htlcs], hwr2⟩
    simp [htlcs, hl, hone] at hlast

end Sys2Proof.Machine
end

section
/-! The clock readers and the flywheel: a reader becomes valid, lock is acquired, and the flywheel comes to its limit (R369, R370, R372,
R374, R377, R378). -/

namespace Sys2Proof.Machine

theorem pastLimit_congr {s t : State} (hd : t.dict = s.dict) (hn : t.tlcs.distance = s.tlcs.distance) : pastLimit t = pastLimit s := by
  rw [pastLimit, pastLimit, hn, param_of_dict hd]

/-! CLOCK_READER_VALID. -/

/-- A reader has become valid, with its phase, and the tilt is held where a band has none (R369, R370, R378). -/
def readerFound (r : Nat) (crossing : Int) (s : State) : State :=
  holdTilt (putPhase r crossing { s with tlcs := { s.tlcs with valid := insertUp r s.tlcs.valid } })

/-- The hold of the tilt changes nothing else of the clock (R378). -/
theorem holdTilt_holds (s : State) : ∃ h, (holdTilt s).tlcs = { s.tlcs with hold := h } ∧ (holdTilt s).wr = s.wr ∧
    (holdTilt s).dict = s.dict := by
  unfold holdTilt
  split
  · exact ⟨s.tlcs.hold, rfl, rfl, rfl⟩
  · exact ⟨true, raise_tlcs .., raise_wr .., raise_dict ..⟩

theorem readerFound_finds (r : Nat) (crossing : Int) (s : State) : ∃ h l,
    (readerFound r crossing s).tlcs = { s.tlcs with valid := insertUp r s.tlcs.valid, hold := h, phases := l } ∧
    (readerFound r crossing s).wr = s.wr ∧ (readerFound r crossing s).dict = s.dict := by
  obtain ⟨h, htlcs, hwr, hdict⟩ := holdTilt_holds (putPhase r crossing { s with tlcs := { s.tlcs with valid := insertUp r s.tlcs.valid } })
  exact ⟨h, _, htlcs, hwr, hdict⟩

theorem execClockReaderValid_of_passes {r : Fin 4} {x : ReaderSign} {s : State} (hv : r.val ∉ s.tlcs.valid)
    (hp : readerPasses r.val x s = true) : execClockReaderValid r x s =
      let u := readerFound r.val x.crossing s
      if u.tlcs.state = .flywheel then
        if (phaseOf x.crossing).natAbs ≤ 6 * 64 && !pastLimit (setDco (dcoNow u) u) then .next (enterLock (setDco (dcoNow u) u))
        else .next (unlockTlcs (setDco (dcoNow u) u))
      else .next u := by
  have hgo : ¬(s.tlcs.valid.contains r.val || !readerPasses r.val x s) = true := by simp [hv, hp]
  unfold execClockReaderValid
  rw [if_neg hgo]
  rfl

/-- A reader that passes every test is valid; in FLYWHEEL it decides between LOCKED and ACQUIRE (R370, R372). -/
theorem clockReaderValid_finds {r : Fin 4} {x : ReaderSign} {s : State} (hv : r.val ∉ s.tlcs.valid)
    (hp : readerPasses r.val x s = true) :
    ∃ t, exec (.clockReaderValid r x) s = .next t ∧
      t.tlcs.valid = insertUp r.val s.tlcs.valid ∧
      (s.tlcs.state ≠ .flywheel → t.tlcs.state = s.tlcs.state ∧ t.wr = s.wr) ∧
      (s.tlcs.state = .flywheel → (phaseOf x.crossing).natAbs ≤ 384 → pastLimit s = false →
        t.tlcs.state = .locked ∧ t.wr = s.wr) ∧
      (s.tlcs.state = .flywheel → (384 < (phaseOf x.crossing).natAbs ∨ pastLimit s = true) → t.tlcs.state = .acquire ∧
        t.tlcs.lpos = false ∧ t.tlcs.fromFly = true ∧ t.tlcs.unlocks = sat32 (s.tlcs.unlocks + 1) ∧ t.wr.guardLocked = 0) := by
  obtain ⟨h, l, htlcs, hwr, hdict⟩ := readerFound_finds r.val x.crossing s
  rw [exec_clockReaderValid, execClockReaderValid_of_passes hv hp]
  generalize readerFound r.val x.crossing s = u at htlcs hwr hdict
  have hlimit : pastLimit (setDco (dcoNow u) u) = pastLimit s := pastLimit_congr hdict (by simp [setDco, htlcs])
  dsimp only
  rw [hlimit]
  split
  next hfly =>
    have hs : s.tlcs.state = .flywheel := by simpa [htlcs] using hfly
    split
    next hnear =>
      obtain ⟨hphase, hpast⟩ : (phaseOf x.crossing).natAbs ≤ 384 ∧ pastLimit s = false := by simpa using hnear
      refine ⟨_, rfl, ?_, fun hn => absurd hs hn, fun _ _ _ => ⟨rfl, hwr⟩, fun _ hfar => ?_⟩
      · simp [enterLock, setDco, htlcs]
      · rcases hfar with hfar | hfar
        · omega
        · simp [hpast] at hfar
    next hnear =>
      refine ⟨_, rfl, ?_, fun hn => absurd hs hn, fun _ hphase hpast => ?_, fun _ _ => ⟨?_, ?_, ?_, ?_, rfl⟩⟩
      · simp [outOfLock, setDco, htlcs]
      · simp [hphase, hpast] at hnear
      · simp [outOfLock]
      · simp [outOfLock]
      · simp [outOfLock]
      · simp [outOfLock, setDco, htlcs]
  next hfly =>
    have hs : s.tlcs.state ≠ .flywheel := by simpa [htlcs] using hfly
    exact ⟨u, rfl, by rw [htlcs], fun _ => ⟨by rw [htlcs], hwr⟩, fun hn => absurd hn hs, fun hn => absurd hn hs⟩

/-! TLCS_LOCK_ACQUIRED. -/

theorem tlcsLockAcquired_locks {s : State} (hs : s.tlcs.state = .acquire) (hv : s.tlcs.valid ≠ []) (hp : s.tlcs.lpos = true)
    (hn : 256 ≤ s.tlcs.steady) : exec .tlcsLockAcquired s = .next (enterLock s) := by
  simp [execTlcsLockAcquired, hs, hv, hp, hn]

theorem tlcsLockAcquired_waits {s : State}
    (h : s.tlcs.state ≠ .acquire ∨ s.tlcs.valid = [] ∨ s.tlcs.lpos = false ∨ s.tlcs.steady < 256) :
    exec .tlcsLockAcquired s = .next s := by
  refine if_neg fun hgo => ?_
  obtain ⟨⟨⟨hs, hv⟩, hp⟩, hn⟩ : ((s.tlcs.state = .acquire ∧ s.tlcs.valid ≠ []) ∧ s.tlcs.lpos = true) ∧ 256 ≤ s.tlcs.steady := by
    simpa using hgo
  rcases h with h | h | h | h
  · exact h hs
  · exact hv h
  · simp [h] at hp
  · omega

/-! FLYWHEEL_LIMIT. -/

/-- The clock synthesiser after the DCO has counted on (R374, R375). -/
def countedTo (since : Nat) (speed : Int) (c : Tlcs) : Tlcs :=
  { c with
    counted := max c.counted since,
    position := if 0 ≤ speed then c.position + (since - c.counted : Nat) else c.position - (since - c.counted : Nat),
    distance := if c.state = .flywheel then c.distance + (since - c.counted) else c.distance }

theorem countTo_of_running {s : State} (h : s.tlcs.state ≠ .idle) (since : Nat) :
    countTo since s = { s with tlcs := countedTo since s.tce.speed s.tlcs } := if_neg h

theorem execFlywheelLimit_of_flywheel {s : State} (h : s.tlcs.state = .flywheel) (since : Nat) :
    execFlywheelLimit since s =
      let u : State := { s with tlcs := countedTo since s.tce.speed s.tlcs }
      if pastLimit u then .next (unlockTlcs (setDco (dcoNow u) u)) else .next u := by
  have hrun : s.tlcs.state ≠ .idle := by simp [h]
  rw [← countTo_of_running hrun]
  exact if_pos h

theorem pastLimit_counted {s : State} (h : s.tlcs.state = .flywheel) (since : Nat) :
    pastLimit { s with tlcs := countedTo since s.tce.speed s.tlcs } = true ↔
      64 * 44882 * param s 0x4860 1 ≤ 1000 * (s.tlcs.distance + (since - s.tlcs.counted)) := by
  have hn : (countedTo since s.tce.speed s.tlcs).distance = s.tlcs.distance + (since - s.tlcs.counted) := by simp [countedTo, h]
  rw [pastLimit, hn, decide_eq_true_eq]
  exact Iff.rfl

theorem flywheelLimit_unlocks {s : State} {since : Nat} (h : s.tlcs.state = .flywheel)
    (hfar : 64 * 44882 * param s 0x4860 1 ≤ 1000 * (s.tlcs.distance + (since - s.tlcs.counted))) :
    ∃ t, exec (.flywheelLimit since) s = .next t ∧ t.tlcs.state = .acquire ∧ t.tlcs.lpos = false ∧ t.tlcs.fromFly = true ∧
      t.tlcs.unlocks = sat32 (s.tlcs.unlocks + 1) ∧ t.wr.guardLocked = 0 := by
  rw [exec_flywheelLimit, execFlywheelLimit_of_flywheel h]
  dsimp only
  rw [if_pos ((pastLimit_counted h since).2 hfar)]
  exact ⟨_, rfl, by simp [outOfLock], by simp [outOfLock], by simp [outOfLock], by simp [outOfLock, setDco, countedTo], rfl⟩

theorem flywheelLimit_goes_on {s : State} {since : Nat} (h : s.tlcs.state = .flywheel)
    (hnear : ¬ 64 * 44882 * param s 0x4860 1 ≤ 1000 * (s.tlcs.distance + (since - s.tlcs.counted))) :
    ∃ t, exec (.flywheelLimit since) s = .next t ∧ t.tlcs.state = .flywheel ∧
      t.tlcs.distance = s.tlcs.distance + (since - s.tlcs.counted) ∧ t.wr = s.wr ∧ t.out = s.out := by
  rw [exec_flywheelLimit, execFlywheelLimit_of_flywheel h]
  dsimp only
  rw [if_neg fun hp => hnear ((pastLimit_counted h since).1 hp)]
  exact ⟨_, rfl, h, by simp [countedTo, h], rfl, rfl⟩

end Sys2Proof.Machine
end

section
/-! The position: servo frame boundaries and servo words set it, and one that disagrees with it in lock is a slip (R278-R280,
R375-R378). -/

namespace Sys2Proof.Machine

/-! SERVO_FRAME_BOUNDARY. -/

/-- The state once the boundary of a frame is noted, before its position is judged (R278, R375, R377, R378). -/
def boundaryNoted (upper : Bool) (f n : Nat) (x : Option (Nat × Nat)) (s : State) : State :=
  passBoundary upper f (noteBit upper x (countTo n s))

/-- How far a band's count is from the boundary of a frame, in 1/64 bit (R375). -/
def boundaryErr (upper : Bool) (f : Nat) (s : State) : Nat := (bandCount upper s - 64 * (9216 * f : Nat)).natAbs

/-- What a boundary does: in lock it checks the position, after an unlock from the flywheel it may restore it (R375, R376). -/
theorem execServoFrameBoundary_eq (upper : Bool) (f n : Nat) (x : Option (Nat × Nat)) (s : State) :
    execServoFrameBoundary upper f n x s =
      let u := boundaryNoted upper f n x s
      if u.tlcs.state = .locked then (if 768 < boundaryErr upper f u then .next (slipTlcs u) else .next u)
      else if u.tlcs.state = .acquire && !u.tlcs.lpos && u.tlcs.fromFly then
        if boundaryErr upper f u ≤ 147456 then .next (setPosition upper (9216 * f : Nat) u)
        else .next { u with tlcs := { u.tlcs with fromFly := false } }
      else .next u := rfl

/-- The position once the DCO has counted on (R375). -/
def positionAt (n : Nat) (s : State) : Int :=
  if 0 ≤ s.tce.speed then s.tlcs.position + (n - s.tlcs.counted : Nat) else s.tlcs.position - (n - s.tlcs.counted : Nat)

/-- `t` follows from `s` by the count alone: the position has counted on, and what a boundary judges is as it was (R375). -/
structure CountedOn (n : Nat) (s t : State) : Prop where
  state : t.tlcs.state = s.tlcs.state
  lpos : t.tlcs.lpos = s.tlcs.lpos
  fromFly : t.tlcs.fromFly = s.tlcs.fromFly
  deltaL : t.tlcs.deltaL = s.tlcs.deltaL
  unlocks : t.tlcs.unlocks = s.tlcs.unlocks
  position : t.tlcs.position = positionAt n s
  wr : t.wr = s.wr
  out : t.out = s.out

/-- With nothing to fix and no hold a boundary is noted, and the position counts on (R375, R377, R378). -/
theorem boundaryNoted_of_steady {s : State} (hrun : s.tlcs.state ≠ .idle) (hh : s.tlcs.hold = false) (hf : s.tlcs.fixWhole = false)
    (upper : Bool) (f n : Nat) (x : Option (Nat × Nat)) : CountedOn n s (boundaryNoted upper f n x s) := by
  obtain ⟨F, hv⟩ : ∃ F, noteBit upper x (countTo n s) =
      { s with tlcs := { countedTo n s.tce.speed s.tlcs with frameBits := F } } := by
    rw [countTo_of_running hrun]
    exact ⟨_, rfl⟩
  obtain ⟨P, hp⟩ : ∃ P, boundaryNoted upper f n x s =
      { s with tlcs := { countedTo n s.tce.speed s.tlcs with frameBits := F, passed := P } } := by
    unfold boundaryNoted passBoundary
    rw [hv]
    dsimp only
    split
    · rw [if_pos (by simp [countedTo, hh, hf])]
      exact ⟨_, rfl⟩
    · exact ⟨_, rfl⟩
  rw [hp]
  exact ⟨rfl, rfl, rfl, rfl, rfl, rfl, rfl, rfl⟩

theorem CountedOn.err_eq {n : Nat} {s t : State} (h : CountedOn n s t) (upper : Bool) (f : Nat) : boundaryErr upper f t =
    ((if upper then positionAt n s + s.tlcs.deltaL else positionAt n s) - 64 * (9216 * f : Nat)).natAbs := by
  rw [boundaryErr, bandCount, h.position, h.deltaL]

/-- Once both bands have passed one boundary in lock, a hold of the tilt is over (R378). -/
theorem boundaryNoted_ends_hold {s : State} {upper : Bool} {f : Nat} {p : Int} (hp : s.tlcs.passed = some (!upper, f, p))
    (hs : s.tlcs.state = .locked) (hb : bothBands s = true) (n : Nat) (x : Option (Nat × Nat)) :
    (boundaryNoted upper f n x s).tlcs.state = .locked ∧ (boundaryNoted upper f n x s).tlcs.hold = false ∧
      (boundaryNoted upper f n x s).tlcs.valid = s.tlcs.valid := by
  have hrun : s.tlcs.state ≠ .idle := by simp [hs]
  unfold boundaryNoted
  obtain ⟨F, hv⟩ : ∃ F, noteBit upper x (countTo n s) =
      { s with tlcs := { countedTo n s.tce.speed s.tlcs with frameBits := F } } := by
    rw [countTo_of_running hrun]
    exact ⟨_, rfl⟩
  generalize noteBit upper x (countTo n s) = v at hv
  have hpass : v.tlcs.passed = some (!upper, f, p) := by rw [hv]; exact hp
  have hlock : inLock v = true := by simp [hv, inLock, countedTo, hs]
  have hboth : bothBands v = true := by rw [hv]; exact hb
  have hstate : v.tlcs.state = .locked := by rw [hv]; exact hs
  have hvalid : v.tlcs.valid = s.tlcs.valid := by rw [hv]; rfl
  by_cases hdue : (v.tlcs.fixWhole || v.tlcs.hold) = true
  · simp [passBoundary, hpass, hlock, hboth, hdue, hstate, hvalid]
  · obtain ⟨hfix, hhold⟩ : v.tlcs.fixWhole = false ∧ v.tlcs.hold = false := by simpa using hdue
    simp [passBoundary, hpass, hfix, hstate, hvalid, hhold]

section
variable {s : State} (hh : s.tlcs.hold = false) (hf : s.tlcs.fixWhole = false) (upper : Bool) (f n : Nat)
  (x : Option (Nat × Nat))
include hh hf

/-- A boundary within 12 bits of the position in lock (R375). -/
theorem boundary_agrees (hs : s.tlcs.state = .locked)
    (he : ((if upper then positionAt n s + s.tlcs.deltaL else positionAt n s) - 64 * (9216 * f : Nat)).natAbs ≤ 768) :
    ∃ t, exec (.servoFrameBoundary upper f n x) s = .next t ∧ t.tlcs.state = .locked ∧ t.tlcs.position = positionAt n s ∧
      t.wr = s.wr ∧ t.out = s.out := by
  have hu := boundaryNoted_of_steady (by simp [hs]) hh hf upper f n x
  rw [exec_servoFrameBoundary, execServoFrameBoundary_eq]
  generalize boundaryNoted upper f n x s = u at hu
  rw [← hu.err_eq upper f] at he
  dsimp only
  rw [if_pos (hu.state.trans hs), if_neg (Nat.not_lt.2 he)]
  exact ⟨u, rfl, hu.state.trans hs, hu.position, hu.wr, hu.out⟩

/-- A boundary further off in lock is a slip (R372, R375). -/
theorem boundary_slips (hs : s.tlcs.state = .locked)
    (he : 768 < ((if upper then positionAt n s + s.tlcs.deltaL else positionAt n s) - 64 * (9216 * f : Nat)).natAbs) :
    ∃ t, exec (.servoFrameBoundary upper f n x) s = .next t ∧ t.tlcs.state = .acquire ∧ t.tlcs.lpos = false ∧
      t.tlcs.fromFly = false ∧ t.tlcs.unlocks = sat32 (s.tlcs.unlocks + 1) ∧ t.wr.guardLocked = 0 := by
  have hu := boundaryNoted_of_steady (by simp [hs]) hh hf upper f n x
  rw [exec_servoFrameBoundary, execServoFrameBoundary_eq]
  generalize boundaryNoted upper f n x s = u at hu
  rw [← hu.err_eq upper f] at he
  dsimp only
  rw [if_pos (hu.state.trans hs), if_pos he]
  refine ⟨_, rfl, ?_⟩
  simp [outOfLock, hu.unlocks]

/-- After an unlock from the flywheel a boundary near enough gives the position (R376). -/
theorem boundary_restores (hs : s.tlcs.state = .acquire) (hl : s.tlcs.lpos = false) (hfly : s.tlcs.fromFly = true)
    (he : ((if upper then positionAt n s + s.tlcs.deltaL else positionAt n s) - 64 * (9216 * f : Nat)).natAbs ≤ 147456) :
    ∃ t, exec (.servoFrameBoundary upper f n x) s = .next t ∧ t.tlcs.state = .acquire ∧ t.tlcs.lpos = true ∧
      t.tlcs.position = (if upper then 64 * (9216 * f : Nat) - s.tlcs.deltaL else 64 * (9216 * f : Nat)) ∧ t.wr = s.wr := by
  have hu := boundaryNoted_of_steady (by simp [hs]) hh hf upper f n x
  rw [exec_servoFrameBoundary, execServoFrameBoundary_eq]
  generalize boundaryNoted upper f n x s = u at hu
  rw [← hu.err_eq upper f] at he
  dsimp only
  rw [if_neg (by simp [hu.state, hs]), if_pos (by simp [hu.state, hu.lpos, hu.fromFly, hs, hl, hfly]), if_pos he]
  exact ⟨_, rfl, hu.state.trans hs, rfl, by rw [← hu.deltaL]; rfl, hu.wr⟩

/-- One further off leaves it to a servo word (R376). -/
theorem boundary_gives_up (hs : s.tlcs.state = .acquire) (hl : s.tlcs.lpos = false) (hfly : s.tlcs.fromFly = true)
    (he : 147456 < ((if upper then positionAt n s + s.tlcs.deltaL else positionAt n s) - 64 * (9216 * f : Nat)).natAbs) :
    ∃ t, exec (.servoFrameBoundary upper f n x) s = .next t ∧ t.tlcs.state = .acquire ∧ t.tlcs.lpos = false ∧
      t.tlcs.fromFly = false ∧ t.tlcs.position = positionAt n s ∧ t.wr = s.wr := by
  have hu := boundaryNoted_of_steady (by simp [hs]) hh hf upper f n x
  rw [exec_servoFrameBoundary, execServoFrameBoundary_eq]
  generalize boundaryNoted upper f n x s = u at hu
  rw [← hu.err_eq upper f] at he
  dsimp only
  rw [if_neg (by simp [hu.state, hs]), if_pos (by simp [hu.state, hu.lpos, hu.fromFly, hs, hl, hfly]), if_neg (Nat.not_le.2 he)]
  exact ⟨_, rfl, hu.state.trans hs, hu.lpos.trans hl, rfl, hu.position, hu.wr⟩

end

theorem boundary_ends_hold {s : State} {upper : Bool} {f : Nat} {p : Int} (hp : s.tlcs.passed = some (!upper, f, p))
    (hs : s.tlcs.state = .locked) (hb : bothBands s = true) (n : Nat) (x : Option (Nat × Nat)) :
    ∃ t, exec (.servoFrameBoundary upper f n x) s = .next t ∧ t.tlcs.hold = false ∧ t.tlcs.valid = s.tlcs.valid := by
  obtain ⟨hlocked, hhold, hvalid⟩ := boundaryNoted_ends_hold hp hs hb n x
  rw [exec_servoFrameBoundary, execServoFrameBoundary_eq]
  dsimp only
  rw [if_pos hlocked]
  split
  · exact ⟨_, rfl, by simp [outOfLock, hhold], by simp [outOfLock, hvalid]⟩
  · exact ⟨_, rfl, hhold, hvalid⟩

/-! SERVO_WORD. -/

theorem servoWord_ignored {upper : Bool} {s : State} (h : wordPayload (wordBits s upper) = none) :
    exec (.servoWord upper) s = .next s := by
  simp [execServoWord, h]

theorem servoWord_brings_data {upper : Bool} {s : State} {v : Nat} (h : wordPayload (wordBits s upper) = some v) (hv : 2 ^ 31 ≤ v) :
    exec (.servoWord upper) s = .next
      { s with tce := { s.tce with made := Tab.put s.tce.made (v / 2 ^ 28 % 8) (v % 2 ^ 24) } } := by
  rw [exec_servoWord, execServoWord, h]
  exact if_pos hv

/-- The frame at which a band stands when a servo word that names frame `f` has passed (R375, R376). -/
def wordEnd (s : State) (f : Nat) : Int := if 0 ≤ s.tce.speed then (f : Int) + 48 else (f : Int)

/-- A servo word with the index of a frame: in lock it checks the position, after a slip or a start it gives it (R375, R376). -/
theorem execServoWord_of_index {upper : Bool} {s : State} {v : Nat} (h : wordPayload (wordBits s upper) = some v) (hv : v < 2 ^ 31) :
    execServoWord upper s =
      if s.tlcs.state = .locked then
        (if roundDiv (bandCount upper s) (64 * 9216) ≠ wordEnd s (v % 2 ^ 24) then .next (slipTlcs s) else .next s)
      else if s.tlcs.state = .acquire && !s.tlcs.lpos && !s.tlcs.fromFly then
        .next (setPosition upper ((9216 : Nat) * wordEnd s (v % 2 ^ 24)) s)
      else .next s := by
  rw [execServoWord, h]
  exact if_neg (Nat.not_le.2 hv)

theorem bandCount_setPosition (upper : Bool) (b : Int) (s : State) : bandCount upper (setPosition upper b s) = 64 * b := by
  cases upper with
  | false => rfl
  | true => exact Int.sub_add_cancel ..

theorem servoWord_agrees {upper : Bool} {s : State} {v : Nat} (h : wordPayload (wordBits s upper) = some v) (hv : v < 2 ^ 31)
    (hs : s.tlcs.state = .locked) (hat : roundDiv (bandCount upper s) (64 * 9216) = wordEnd s (v % 2 ^ 24)) :
    exec (.servoWord upper) s = .next s := by
  rw [exec_servoWord, execServoWord_of_index h hv, if_pos hs, if_neg (not_not.2 hat)]

theorem servoWord_slips {upper : Bool} {s : State} {v : Nat} (h : wordPayload (wordBits s upper) = some v) (hv : v < 2 ^ 31)
    (hs : s.tlcs.state = .locked) (hat : roundDiv (bandCount upper s) (64 * 9216) ≠ wordEnd s (v % 2 ^ 24)) :
    exec (.servoWord upper) s = .next (slipTlcs s) := by
  rw [exec_servoWord, execServoWord_of_index h hv, if_pos hs, if_pos hat]

theorem servoWord_establishes {upper : Bool} {s : State} {v : Nat} (h : wordPayload (wordBits s upper) = some v) (hv : v < 2 ^ 31)
    (hs : s.tlcs.state = .acquire) (hl : s.tlcs.lpos = false) (hf : s.tlcs.fromFly = false) :
    exec (.servoWord upper) s = .next (setPosition upper ((9216 : Nat) * wordEnd s (v % 2 ^ 24)) s) := by
  rw [exec_servoWord, execServoWord_of_index h hv, if_neg (by simp [hs]), if_pos (by simp [hs, hl, hf])]

end Sys2Proof.Machine
end

section
/-! The tilt: what a TILT_UPDATE samples, and what follows from the phases of the bands (R369-R372, R374, R375, R377, R378). -/

namespace Sys2Proof.Machine

/-- The phases of the readers after their crossings (R369). -/
def phasesAfter (l : List (Fin 4 × Int)) (P : Tab Int) : Tab Int := l.foldl (fun P x => Tab.put P x.1.val (phaseOf x.2)) P

theorem foldl_putPhase (l : List (Fin 4 × Int)) (s : State) : l.foldl (fun s x => putPhase x.1.val x.2 s) s =
    { s with tlcs := { s.tlcs with phases := phasesAfter l s.tlcs.phases } } := by
  induction l generalizing s with
  | nil => rfl
  | cons x l ih => exact ih (putPhase x.1.val x.2 s)

theorem bandPhase_congr {s t : State} (hv : t.tlcs.valid = s.tlcs.valid) (hp : t.tlcs.phases = s.tlcs.phases) :
    bandPhase t = bandPhase s := by
  have hr : readerPhase t = readerPhase s := funext fun r => by rw [readerPhase, readerPhase, hp]
  simp only [bandPhase, meanPhase, hr, hv]

/-- The loops of the clock have worked: beside the learned differences, the time in lock and the DCO nothing changes (R370-R372). -/
def LoopsOnly (s t : State) : Prop := ∃ a b c n d f i, t = { s with tlcs := { s.tlcs with
  learned := a, learnSum := b, learnCount := c, steady := n, dco := d, flyRef := f, integ := i } }

theorem LoopsOnly.trans {s t u : State} (h : LoopsOnly s t) (k : LoopsOnly t u) : LoopsOnly s u := by
  obtain ⟨_, _, _, _, _, _, _, rfl⟩ := h
  obtain ⟨_, _, _, _, _, _, _, rfl⟩ := k
  exact ⟨_, _, _, _, _, _, _, rfl⟩

theorem learnBand_loopsOnly (s : State) (band : Nat) : LoopsOnly s (learnBand s band) := by
  unfold learnBand
  dsimp only
  split
  · exact ⟨_, _, _, _, _, _, _, rfl⟩
  split
  · exact ⟨_, _, _, _, _, _, _, rfl⟩
  · exact ⟨_, _, _, _, _, _, _, rfl⟩

theorem followPhase_loopsOnly (s : State) : LoopsOnly s (followPhase s) := by
  unfold followPhase
  dsimp only
  split
  · exact ⟨_, _, _, _, _, _, _, rfl⟩
  split
  · exact ⟨_, _, _, _, _, _, _, rfl⟩
  split
  · exact ⟨_, _, _, _, _, _, _, rfl⟩
  · exact ⟨_, _, _, _, _, _, _, rfl⟩

/-- The state once a TILT_UPDATE has its phases and its loops have worked, before ΔL follows (R369-R372, R375). -/
def tiltSampled (l : List (Fin 4 × Int)) (s : State) : State :=
  let s := countTo (24 * periodQ) s
  followPhase (learnBand (learnBand (l.foldl (fun s x => putPhase x.1.val x.2 s) { s with tlcs := { s.tlcs with counted := 0 } }) 0) 1)

/-- What a sample leaves: the count begins anew, and of the rest only the position, the distance and the loops have changed. -/
theorem tiltSampled_samples (l : List (Fin 4 × Int)) (s : State) : ∃ p n,
    LoopsOnly { s with tlcs := { s.tlcs with
      counted := 0, phases := phasesAfter l s.tlcs.phases, position := p, distance := n } } (tiltSampled l s) := by
  obtain ⟨k, p, n, h⟩ : ∃ k p n, countTo (24 * periodQ) s =
      { s with tlcs := { s.tlcs with counted := k, position := p, distance := n } } := by
    unfold countTo
    split
    · exact ⟨_, _, _, rfl⟩
    · exact ⟨_, _, _, rfl⟩
  refine ⟨p, n, ?_⟩
  unfold tiltSampled
  rw [h]
  dsimp only
  rw [foldl_putPhase]
  exact ((learnBand_loopsOnly ..).trans (learnBand_loopsOnly ..)).trans (followPhase_loopsOnly _)

/-- ΔL, tilt and width alone follow the phases (R377). -/
theorem followTilt_frame (s : State) : ∃ d a b k, followTilt s =
    { s with tlcs := { s.tlcs with deltaL := d, tilt := a, width := b }, drawn := k } := by
  unfold followTilt
  dsimp only
  split
  · exact ⟨_, _, _, _, rfl⟩
  split
  · exact ⟨_, _, _, _, rfl⟩
  · exact ⟨_, _, _, _, rfl⟩

theorem followTilt_of_hold {s : State} (h : s.tlcs.hold = true) : followTilt s = s := by
  unfold followTilt
  split
  · rfl
  next hno => simp [h] at hno

/-- ΔL with the tilt and the width it gives, which are free where the arc sine has no value: a difference longer than the span (R377). -/
def tiltFrom (d : Int) (span : Nat) (s : State) : State :=
  if d.natAbs * 10 ^ 6 ≤ 64 * 44882 * span then
    { s with tlcs := { s.tlcs with deltaL := d, tilt := tiltOf d span, width := widthOf d span } }
  else { s with tlcs := { s.tlcs with deltaL := d, tilt := Config.freeInt s.drawn, width := Config.freeInt (s.drawn + 1) },
                drawn := s.drawn + 2 }

theorem tiltFrom_frame (d : Int) (span : Nat) (s : State) : ∃ a b k,
    tiltFrom d span s = { s with tlcs := { s.tlcs with deltaL := d, tilt := a, width := b }, drawn := k } := by
  by_cases h : d.natAbs * 10 ^ 6 ≤ 64 * 44882 * span
  · exact ⟨_, _, _, if_pos h⟩
  · exact ⟨_, _, _, if_neg h⟩

theorem followTilt_of_both {s : State} (hh : s.tlcs.hold = false) (hf : s.tlcs.fixWhole = false) (hl : inLock s = true)
    (hb : bothBands s = true) :
    followTilt s = tiltFrom (bandPhase s + wholePeriods (s.tlcs.deltaL - bandPhase s)) (param s 0x4860 4) s := by
  unfold followTilt
  rw [if_neg (by simp [hh, hf, hl, hb])]
  rfl

/-- With both bands in lock ΔL is their phase difference, unwrapped, and gives the tilt and the width where it may (R377). -/
theorem followTilt_follows {s : State} (hh : s.tlcs.hold = false) (hf : s.tlcs.fixWhole = false) (hl : inLock s = true)
    (hb : bothBands s = true) :
    let d := bandPhase s + wholePeriods (s.tlcs.deltaL - bandPhase s)
    (followTilt s).tlcs.deltaL = d ∧ (d.natAbs * 10 ^ 6 ≤ 64 * 44882 * param s 0x4860 4 →
      (followTilt s).tlcs.tilt = tiltOf d (param s 0x4860 4) ∧ (followTilt s).tlcs.width = widthOf d (param s 0x4860 4)) := by
  rw [followTilt_of_both hh hf hl hb]
  refine ⟨?_, fun hnear => ?_⟩
  · obtain ⟨_, _, _, h⟩ := tiltFrom_frame _ (param s 0x4860 4) s
    rw [h]
  · rw [tiltFrom, if_pos hnear]
    exact ⟨rfl, rfl⟩

/-- The end of a TILT_UPDATE: its tilt and width enter the average of the SKEW loop (R377). -/
theorem execTiltUpdate_eq (l : List (Fin 4 × Int)) (s : State) : execTiltUpdate l s =
    let t := followTilt (tiltSampled l s)
    .next { t with tlcs := { t.tlcs with
      tiltSum := t.tlcs.tiltSum + t.tlcs.tilt, widthSum := t.tlcs.widthSum + t.tlcs.width, tiltCount := t.tlcs.tiltCount + 1 } } :=
  rfl

/-- What a TILT_UPDATE does (R369-R372, R375, R377, R378). -/
theorem tiltUpdate_samples (l : List (Fin 4 × Int)) (s : State) :
    ∃ t, exec (.tiltUpdate l) s = .next t ∧ t.tlcs.state = s.tlcs.state ∧
    t.tlcs.valid = s.tlcs.valid ∧ t.tlcs.hold = s.tlcs.hold ∧ t.tlcs.counted = 0 ∧
    t.tlcs.tiltCount = s.tlcs.tiltCount + 1 ∧ t.wr = s.wr ∧ t.tce = s.tce ∧ t.out = s.out ∧
    (s.tlcs.hold = true → t.tlcs.deltaL = s.tlcs.deltaL ∧ t.tlcs.tilt = s.tlcs.tilt ∧ t.tlcs.width = s.tlcs.width) ∧
    (s.tlcs.hold = false → s.tlcs.fixWhole = false → inLock s = true → bothBands s = true →
      let phase := bandPhase (l.foldl (fun s x => putPhase x.1.val x.2 s) s)
      let d := phase + wholePeriods (s.tlcs.deltaL - phase)
      t.tlcs.deltaL = d ∧ (d.natAbs * 10 ^ 6 ≤ 64 * 44882 * param s 0x4860 4 →
        t.tlcs.tilt = tiltOf d (param s 0x4860 4) ∧ t.tlcs.width = widthOf d (param s 0x4860 4))) := by
  obtain ⟨p, n, hu⟩ := tiltSampled_samples l s
  rw [exec_tiltUpdate, execTiltUpdate_eq]
  generalize tiltSampled l s = u at hu
  have hphase : bandPhase u = bandPhase (l.foldl (fun s x => putPhase x.1.val x.2 s) s) := by
    obtain ⟨_, _, _, _, _, _, _, rfl⟩ := hu
    rw [foldl_putPhase]
    exact bandPhase_congr rfl rfl
  have hheld : s.tlcs.hold = true → followTilt u = u := by
    obtain ⟨_, _, _, _, _, _, _, rfl⟩ := hu
    exact fun hh => followTilt_of_hold hh
  have hfollows := followTilt_follows (s := u)
  rw [hphase] at hfollows
  obtain ⟨d, a, b, k, ht⟩ := followTilt_frame u
  dsimp only
  refine ⟨_, rfl, ?_⟩
  generalize followTilt u = v at hheld hfollows ht
  refine ⟨?_, ?_, ?_, ?_, ?_, ?_, ?_, ?_, fun hh => ?_, fun hh hf hl hb => ?_⟩
  case refine_9 =>
    rw [hheld hh]
    obtain ⟨_, _, _, _, _, _, _, rfl⟩ := hu
    exact ⟨rfl, rfl, rfl⟩
  case refine_10 =>
    obtain ⟨_, _, _, _, _, _, _, rfl⟩ := hu
    exact hfollows hh hf hl hb
  all_goals
    rw [ht]
    obtain ⟨_, _, _, _, _, _, _, rfl⟩ := hu
    rfl

/-- Settles O48: the cases of each command, by what it leaves of the clock and what the write guard cannot reach. -/
theorem clockFollowsTheServo : Obligations.ClockFollowsTheServo := by
  unfold Obligations.ClockFollowsTheServo
  refine ⟨fun r loss s => ⟨fun h => ?_, fun hv hf => clockReaderLoss_loses hv hf⟩,
    fun r x s => ⟨fun h => ?_, fun hv hp => clockReaderValid_finds hv hp⟩,
    fun s => ⟨fun hs hv hp hn => ⟨_, tlcsLockAcquired_locks hs hv hp hn, rfl, rfl, rfl, rfl, rfl, rfl⟩, tlcsLockAcquired_waits,
      fun since => ⟨flywheelLimit_unlocks, flywheelLimit_goes_on, fun h => if_neg h⟩⟩,
    fun upper f n x s => ⟨fun hh hf => ⟨boundary_agrees hh hf upper f n x, boundary_slips hh hf upper f n x,
      boundary_restores hh hf upper f n x, boundary_gives_up hh hf upper f n x⟩, fun p hp hs hb => boundary_ends_hold hp hs hb n x⟩,
    fun upper s => ⟨servoWord_ignored, fun v h => ⟨fun hv => ⟨_, servoWord_brings_data h hv, rfl, rfl, Tab.get?_put_self ..⟩,
      fun hv => ⟨servoWord_agrees h hv, fun hs hat => ⟨_, servoWord_slips h hv hs hat, ?_⟩,
        fun hs hl hf => ⟨_, servoWord_establishes h hv hs hl hf, rfl, hs, bandCount_setPosition .., rfl⟩⟩⟩⟩,
    tiltUpdate_samples⟩
  · refine if_pos ?_
    rcases h with h | h <;> simp [h]
  · refine if_pos ?_
    rcases h with h | h <;> simp [h]
  · simp [outOfLock]

end Sys2Proof.Machine
end

section
/-! SUPPORT. The channels: what a change of one leaves of it and of the others, and a failure declared and taken back (R404, R405,
R409, R441, R443). -/

namespace Sys2Proof.Machine

theorem getChan_of_chans {s t : State} (h : t.chans = s.chans) (e : Nat) : getChan t e = getChan s e :=
  congrArg (fun l : Tab Channel => Tab.getD l e {}) h

@[simp] theorem getChan_setChan_self (e : Nat) (v : Channel) (s : State) : getChan (setChan e v s) e = v :=
  Tab.getD_put_self ..

@[simp] theorem getChan_updChan_self (e : Nat) (g : Channel → Channel) (s : State) :
    getChan (updChan e g s) e = g (getChan s e) :=
  getChan_setChan_self ..

theorem getChan_updChan_ne {d e : Nat} (h : d ≠ e) (g : Channel → Channel) (s : State) :
    getChan (updChan e g s) d = getChan s d :=
  Tab.getD_put_ne _ _ _ h

theorem getLsbD_ofNat_two_pow {n : Nat} (h : n < 32) (b : Nat) : (BitVec.ofNat 32 (2 ^ n)).getLsbD b = decide (n = b) := by
  rw [BitVec.getLsbD_ofNat, Nat.testBit_two_pow]
  by_cases hb : n = b
  · simp [← hb, h]
  · simp [hb]

/-- A cause of replacement that is set stands (R441). -/
theorem setCause_sets {n : Nat} (h : n < 32) (s : State) : (setCause n s).health.causes.getLsbD n = true := by
  unfold setCause
  split
  · assumption
  · rw [raise_health, BitVec.getLsbD_or, getLsbD_ofNat_two_pow h, decide_eq_true rfl, Bool.or_true]

theorem judgeMembers_health (s : State) : (judgeMembers s).health = s.health := (judgeMembers_ctlKept (.refl s)).health

@[simp] theorem judgeMembers_resets (s : State) : (judgeMembers s).resets = s.resets := (judgeMembers_ctlKept (.refl s)).resets

/-- A failure declared: what it leaves of the channel, with the cause of replacement set (R405, R441). -/
theorem declareFailed_fails {e : Nat} {s : State} (h : (getChan s e).failed = false) (cause : Nat) :
    (∃ at', getChan (declareFailed e cause s) e =
      { getChan s e with failed := true, cause := cause, failedAt := some at', failCount := sat32 ((getChan s e).failCount + 1) }) ∧
    (declareFailed e cause s).health.causes.getLsbD 0 = true ∧ (declareFailed e cause s).resets = s.resets := by
  unfold declareFailed
  rw [if_neg (by simp [h])]
  extract_lets at' s1
  refine ⟨⟨at', ?_⟩, ?_, ?_⟩
  · rw [getChan_of_chans ((judgeMembers_chans _).trans ((setCause_chans ..).trans (raise_chans ..))), getChan_updChan_self]
  · rw [judgeMembers_health]
    exact setCause_sets (by decide) _
  · rw [judgeMembers_resets, setCause_resets, raise_resets]
    rfl

/-- A failed channel does not fail again (R405). -/
theorem declareFailed_of_failed {e : Nat} {s : State} (h : (getChan s e).failed = true) (cause : Nat) :
    declareFailed e cause s = s :=
  if_pos h

/-- A FAILED channel is ACTIVE again (R409). -/
theorem restoreMember_restores {e : Nat} {s : State} (h : (getChan s e).failed = true) :
    getChan (restoreMember e s) e = { getChan s e with failed := false, bad := 0 } := by
  unfold restoreMember
  rw [if_pos h, getChan_of_chans ((judgeMembers_chans _).trans (raise_chans ..)), getChan_updChan_self]

end Sys2Proof.Machine
end
section
/-! The commands on a channel: a reset of its domain, `ChCommand` 1 and 2, and the acknowledged causes of replacement (R400, R402,
R405, R409, R441). -/

namespace Sys2Proof.Machine

/-- A channel whose FIFO is empty and whose domain is down keeps neither slots nor counts, and fails (R33, R400, R402, R405). -/
theorem channelDown_fails {p : Nat} {s : State} (h : (getChan s p).failed = false) (hfifo : (getChan s p).fifo = [])
    (cause : Nat) :
    let c := getChan (channelDown p cause s) p
    (channelDown p cause s).resets = s.resets ∧ c.failed = true ∧ c.cause = cause ∧
      c.failCount = sat32 ((getChan s p).failCount + 1) ∧ c.sectorsRead = 0 ∧ c.sectorsErased = 0 ∧ c.windows = [] ∧
      c.filling = none ∧ c.draining = none := by
  unfold channelDown
  rw [hfifo, List.foldl_nil]
  extract_lets s1 c report down s2 _ s3 last
  have hchan : getChan s3 p = down := by
    refine (getChan_of_chans (?_ : s3.chans = s2.chans) p).trans (getChan_setChan_self ..)
    subst s3
    split <;> rfl
  have hresets : s3.resets = s.resets := by
    subst s3
    split <;> rfl
  have hactive : (getChan s3 p).failed = false := by
    rw [hchan]
    exact h
  obtain ⟨⟨at', hc⟩, -, hr⟩ := declareFailed_fails hactive cause
  subst last
  rw [hc, hchan]
  exact ⟨hr.trans hresets, rfl, rfl, rfl, rfl, rfl, rfl, rfl, rfl⟩

/-- CHANNEL_RESET on an ACTIVE channel (R400, R405). -/
theorem channelReset_fails {p : Chan} {s : State} (h : (getChan s p.val).failed = false) (hfifo : (getChan s p.val).fifo = [])
    (hr : ∀ r ∈ s.resets, r.code ≠ 0x80 + p.val) : ∃ t, exec (.channelReset p) s = .next t ∧
      t.resets = s.resets ++ [{ code := 0x80 + p.val, cause := 5 }] ∧ (getChan t p.val).failed = true ∧
      (getChan t p.val).cause = 3 ∧ (getChan t p.val).failCount = sat32 ((getChan s p.val).failCount + 1) ∧
      (getChan t p.val).sectorsRead = 0 ∧ (getChan t p.val).sectorsErased = 0 ∧ (getChan t p.val).windows = [] ∧
      (getChan t p.val).filling = none ∧ (getChan t p.val).draining = none := by
  rw [exec_channelReset]
  refine ⟨_, rfl, ?_⟩
  have hnone : ¬ (s.resets.any fun r => r.code == 0x80 + p.val) = true := by simpa using hr
  unfold resetChannel
  rw [if_neg hnone]
  exact channelDown_fails (s := { s with resets := s.resets ++ [{ code := 0x80 + p.val, cause := 5 }] }) h hfifo 3

/-- `ChCommand` 1 on an ACTIVE channel (R405, R409, R441). -/
theorem chCommandFail_fails {p : Chan} {s : State} (h : (getChan s p.val).failed = false) :
    ∃ t, exec (.chCommandFail p) s = .next t ∧ (getChan t p.val).failed = true ∧ (getChan t p.val).cause = 4 ∧
      (getChan t p.val).failCount = sat32 ((getChan s p.val).failCount + 1) ∧ t.health.causes.getLsbD 0 = true ∧
      t.resets = s.resets := by
  rw [exec_chCommandFail]
  obtain ⟨⟨at', hc⟩, hcauses, hresets⟩ := declareFailed_fails h 4
  exact ⟨_, rfl, by rw [hc], by rw [hc], by rw [hc], hcauses, hresets⟩

theorem chCommandFail_of_failed {p : Chan} {s : State} (h : (getChan s p.val).failed = true) :
    exec (.chCommandFail p) s = .next s := by
  rw [exec_chCommandFail, execChCommandFail, declareFailed_of_failed h]

/-- `ChCommand` 2 while the head-front fault that failed the channel is still reported (R409). -/
theorem chCommandRestore_refused {p : Chan} {s : State} (h : (getChan s p.val).failed = true)
    (hc : (getChan s p.val).cause = 2) (hf : (getChan s p.val).headFault = true) :
    exec (.chCommandRestore p) s = .next s := by
  rw [exec_chCommandRestore]
  exact if_pos (by simp [restoreRefused, h, hc, hf])

theorem chCommandRestore_of_over {p : Chan} {s : State} (h : (getChan s p.val).cause ≠ 2 ∨ (getChan s p.val).headFault = false) :
    exec (.chCommandRestore p) s = .next (restoreCommand p.val s) := by
  rw [exec_chCommandRestore]
  refine if_neg ?_
  rcases h with h | h <;> simp [restoreRefused, h]

/-- `ChCommand` 2 makes a FAILED channel ACTIVE, or waits for the reset of its domain (R409). -/
theorem chCommandRestore_restores {p : Chan} {s : State} (h : (getChan s p.val).failed = true)
    (hover : (getChan s p.val).cause ≠ 2 ∨ (getChan s p.val).headFault = false) :
    (resetting s (0x80 + p.val) = false → ∃ t, exec (.chCommandRestore p) s = .next t ∧ (getChan t p.val).failed = false ∧
      (getChan t p.val).bad = 0 ∧ (getChan t p.val).failCount = (getChan s p.val).failCount) ∧
    (resetting s (0x80 + p.val) = true → ∃ t, exec (.chCommandRestore p) s = .next t ∧
      getChan t p.val = { getChan s p.val with restorePending := true }) := by
  rw [chCommandRestore_of_over hover]
  refine ⟨fun hr => ⟨_, rfl, ?_⟩, fun hr => ⟨_, rfl, ?_⟩⟩
  · rw [restoreCommand, if_neg (by simp [hr]), restoreMember_restores h]
    exact ⟨rfl, rfl, rfl⟩
  · rw [restoreCommand, if_pos hr, getChan_updChan_self]

/-- A bit is in a word put together of bits where it is one that was kept. -/
theorem getLsbD_foldl_or (keep : Nat → Bool) (l : List Nat) (hl : ∀ n ∈ l, n < 32) (a : BitVec 32) (b : Nat) :
    (l.foldl (fun a n => if keep n then a ||| BitVec.ofNat 32 (2 ^ n) else a) a).getLsbD b =
      (a.getLsbD b || (decide (b ∈ l) && keep b)) := by
  induction l generalizing a with
  | nil => simp
  | cons n l ih =>
    have hn : n < 32 := hl n List.mem_cons_self
    rw [List.foldl_cons, ih fun m hm => hl m (List.mem_cons_of_mem _ hm)]
    have hstep : (if keep n then a ||| BitVec.ofNat 32 (2 ^ n) else a).getLsbD b =
        (a.getLsbD b || (decide (b = n) && keep n)) := by
      cases keep n
      · simp
      · rw [if_pos rfl, BitVec.getLsbD_or, getLsbD_ofNat_two_pow hn, Bool.and_true]
        simp only [eq_comm]
    rw [hstep]
    by_cases hb : b = n
    · simp +contextual [hb]
    · simp [hb]

/-- REPLACE_ACKNOWLEDGE clears the causes named whose conditions are over (R441). -/
theorem replaceAcknowledge_keeps (bits : BitVec 32) (s : State) : ∃ t, exec (.replaceAcknowledge bits) s = .next t ∧
    (∀ b, b < 4 → t.health.causes.getLsbD b = (s.health.causes.getLsbD b && (!bits.getLsbD b || causeHolds s b))) ∧
    (∀ b, 4 ≤ b → t.health.causes.getLsbD b = false) ∧ t.health.temp = s.health.temp ∧ t.chans = s.chans ∧ t.ev = s.ev := by
  rw [exec_replaceAcknowledge]
  have hbit := getLsbD_foldl_or (fun b => s.health.causes.getLsbD b && (!bits.getLsbD b || causeHolds s b)) (List.range 4)
    (fun n hn => (List.mem_range.1 hn).trans (by decide)) 0#32
  refine ⟨_, rfl, fun b hb => (hbit b).trans ?_, fun b hb => (hbit b).trans ?_, rfl, rfl, rfl⟩
  · simp [hb]
  · simp [Nat.not_lt.2 hb]

end Sys2Proof.Machine
end

section
/-! A channel's sync window, and what its search finds in a slot (R373, R379, R380, R388, R391-R394, R398). -/

namespace Sys2Proof.Machine

/-! SYNC_WINDOW_OPEN. -/

/-- Where no load runs a window takes the place of each earlier one of its slot (R373). -/
theorem openWindow_of_not_loading (w : SyncWindow) (c : Channel) :
    openWindow false w c = { c with windows := (c.windows.filter fun x => x.slot != w.slot) ++ [w] } := by
  simp [openWindow]

/-- What SYNC_WINDOW_OPEN does (R373, R379, R380). -/
theorem syncWindowOpen_opens (p : Chan) (k : Fin 99) (g : Fin 65536) (r : Fin 384) (s : State) :
    ∃ t w, exec (.syncWindowOpen p k g r) s = .next t ∧
    w.slot = k.val ∧ w.wrap = r.val ∧ w.lock = inLock s ∧ w.number = numberAt s.cart.wraps s.cart.grid r.val g.val ∧
    w.lead = leadingEdge s.cart.lposB s.cart.lposE r.val g.val k.val ∧
    (∀ x, tiltTerm (trackOffset p.val r.val) s.tlcs.deltaL (param s 0x4860 4) = some x →
      w.predicted = predictFlat s p.val r.val w.lead - x ∧ w.setting = w.predicted + (getChan s p.val).loops.phase) ∧
    w ∈ (getChan t p.val).windows ∧
    (s.cart.state ≠ .loading → getChan t p.val =
      { getChan s p.val with windows := (getChan s p.val).windows.filter (fun x => x.slot != k.val) ++ [w] }) ∧
    (∀ q, q ≠ p.val → getChan t q = getChan s q) ∧ t.out = s.out ∧ t.rd = s.rd ∧ t.wr = s.wr := by
  rw [exec_syncWindowOpen]
  let w := windowAt s p.val k.val r.val (numberAt s.cart.wraps s.cart.grid r.val g.val)
    (leadingEdge s.cart.lposB s.cart.lposE r.val g.val k.val)
  have hself : getChan (drew (updChan p.val (openWindow (s.cart.state == .loading) w) s)) p.val =
      openWindow (s.cart.state == .loading) w (getChan s p.val) :=
    (getChan_of_chans (drew_chans _) _).trans (getChan_updChan_self ..)
  refine ⟨_, w, rfl, rfl, rfl, rfl, rfl, rfl, fun x hx => ⟨?_, rfl⟩, ?_, fun hl => ?_, fun q hq => ?_, rfl, rfl, rfl⟩
  · show predictFlat s p.val r.val _ - _ = _
    rw [hx]
    rfl
  · rw [hself]
    simp [openWindow]
  · rw [hself, beq_false_of_ne hl]
    exact openWindow_of_not_loading ..
  · exact (getChan_of_chans (drew_chans _) q).trans (getChan_updChan_ne hq ..)

/-! The search of a slot. -/

/-- With no decode allowed nothing is accepted (R393). -/
theorem searchFrom_zero (fits : SyncTry → Bool) (limit : Nat) (l : List (Int × Option SyncTry × Bool)) (r : SyncSearch)
    (h : r.accepted = none) : (searchFrom fits limit 0 l r).accepted = none := by
  induction l generalizing r with
  | nil => exact h
  | cons x l ih =>
    obtain ⟨q, y, b⟩ := x
    unfold searchFrom
    extract_lets r1
    have h1 : r1.accepted = none := by
      subst r1
      split <;> exact h
    split
    · exact ih _ h1
    · split
      · exact ih _ h1
      · rw [if_pos (by simp)]
        exact h1

/-- A first position whose header fits and where C1 converges ends the search, if its attempt is allowed (R391, R393). -/
theorem searchFrom_head {fits : SyncTry → Bool} {limit most : Nat} {y : SyncTry} (hf : fits y = true)
    (hc : c1Converges limit y = true) (hm : 0 < most) (hn : attemptCycles limit ≤ 16384) (q : Int) (b : Bool)
    (l : List (Int × Option SyncTry × Bool)) :
    (searchFrom fits limit most ((q, some y, b) :: l) {}).accepted = some (y, b) := by
  have hroom : ¬ (most = 0 ∨ 16384 < attemptCycles limit) := by omega
  simp [searchFrom, hf, hc, hroom]

/-- A slot is accepted exactly where the search accepted a position (R398). -/
theorem searchSlot_outcome (s : State) (chan reach limit most : Nat) (fits : SyncTry → Bool) (w : SyncWindow) (rd : SectorRead) :
    (searchSlot s chan reach limit most fits w rd).outcome = .accepted ↔
      (searchSlot s chan reach limit most fits w rd).search.accepted.isSome = true := by
  unfold searchSlot
  extract_lets bits order first defect r o
  dsimp only
  cases hd : defect with
  | true =>
    have hr : r.accepted = none := by
      simp only [r, hd, if_true]
      exact searchFrom_zero _ _ _ _ rfl
    simp [o, hd, hr]
  | false =>
    cases ha : r.accepted with
    | some a => simp [o, hd, ha]
    | none =>
      cases hfound : r.found <;> simp [o, hd, ha, hfound]

/-- What the search of a slot accepts is a position tried whose header fits and where C1 converges (R393, R394). -/
theorem searchSlot_accepted {s : State} {chan reach limit most : Nat} {fits : SyncTry → Bool} {w : SyncWindow} {rd : SectorRead}
    (hreach : 2 ≤ reach) (h : (searchSlot s chan reach limit most fits w rd).outcome = .accepted) :
    ∃ y ∈ triesOf w chan reach rd (detected s chan rd.samples), ∃ b,
      (searchSlot s chan reach limit most fits w rd).search.accepted = some (y, b) ∧ fits y = true ∧ c1Converges limit y = true := by
  obtain ⟨⟨y, b⟩, ha⟩ := Option.isSome_iff_exists.1 ((searchSlot_outcome ..).1 h)
  obtain ⟨q, hq, hf, hc⟩ := searchFrom_accepted _ _ _ _ _ _ _ rfl ha
  refine ⟨y, ?_, b, ha, hf, hc⟩
  rw [← max_eq_left hreach]
  exact mem_searchOrder _ _ _ _ _ _ _ hq

/-- Where one position alone can be tried, the predicted one, the search begins with it (R392, R393). -/
theorem searchOrder_of_single {w : SyncWindow} {y : SyncTry} (hy : y.pos = w.center) (reach maxErrors : Nat) :
    ∃ b, (searchOrder w reach maxErrors [y]).head? = some (w.center, some y, b) := by
  by_cases hd : syncDiffs y ≤ maxErrors
  · have hcand : candidates w reach maxErrors [y] = [y] := by simp [candidates, putCand, hy, hd]
    exact ⟨false, by simp [searchOrder, hcand, hy]⟩
  · have hcand : candidates w reach maxErrors [y] = [] := by simp [candidates, hd]
    exact ⟨true, by simp [searchOrder, hcand, hy]⟩

/-- The one position tried is accepted where it is the predicted one, its header fits and C1 converges (R388, R391-R394). -/
theorem searchSlot_single {s : State} {chan reach limit most : Nat} {fits : SyncTry → Bool} {w : SyncWindow} {rd : SectorRead}
    {y : SyncTry} (hreach : 2 ≤ reach) (hone : triesOf w chan reach rd (detected s chan rd.samples) = [y]) (hy : y.pos = w.center)
    (hf : fits y = true) (hc : c1Converges limit y = true) (hn : attemptCycles limit ≤ 16384) (hm : 0 < most)
    (hflags : flaggedAt w rd (detected s chan rd.samples) y.pos ≤ param s 0x4850 7) :
    (searchSlot s chan reach limit most fits w rd).outcome = .accepted := by
  obtain ⟨b, hhead⟩ := searchOrder_of_single hy reach (param s 0x4850 2)
  obtain ⟨l, horder⟩ := List.head?_eq_some_iff.1 hhead
  rw [searchSlot_outcome]
  unfold searchSlot
  rw [max_eq_left hreach]
  extract_lets bits order first defect r o
  have hbegins : order = (w.center, some y, b) :: l := (congrArg _ hone).trans horder
  have hfirst : first = w.center := by simp [first, hbegins, hf]
  have hdefect : defect = false := by
    rw [hy] at hflags
    simp only [defect, hfirst, decide_eq_false_iff_not, Nat.not_lt]
    exact hflags
  simp only [r, hdefect, hbegins]
  rw [if_neg Bool.false_ne_true, searchFrom_head hf hc hm hn]
  rfl

end Sys2Proof.Machine
end

section
/-! The end of a slot that a channel reads, and the sector it delivers (R381, R384-R388, R397, R398, R400, R402, R403, R415). -/

namespace Sys2Proof.Machine

/-- A channel has gone on to `t` after the counts of a slot: its loops, their copy and its runs alone have changed, and neither what
is read nor what is written (R384, R388, R400, R403). -/
structure SlotEnds (p : Nat) (s t : State) : Prop where
  chan : ∃ k a b, getChan t p = { getChan s p with kept := k, lossRun := a, longFlag := b }
  rd : t.rd = s.rd
  wr : t.wr = s.wr

theorem SlotEnds.trans {p : Nat} {s t u : State} (h : SlotEnds p s t) (k : SlotEnds p t u) : SlotEnds p s u := by
  obtain ⟨⟨_, _, _, hc⟩, hr, hw⟩ := h
  obtain ⟨⟨_, _, _, kc⟩, kr, kw⟩ := k
  exact ⟨⟨_, _, _, by rw [kc, hc]⟩, kr.trans hr, kw.trans hw⟩

theorem SlotEnds.of_eq {p : Nat} {s t : State} (hc : t.chans = s.chans) (hr : t.rd = s.rd) (hw : t.wr = s.wr) :
    SlotEnds p s t :=
  ⟨⟨_, _, _, getChan_of_chans hc p⟩, hr, hw⟩

theorem SlotEnds.refl (p : Nat) (s : State) : SlotEnds p s s := .of_eq rfl rfl rfl

theorem raise_slotEnds (p n : Nat) (l : List (Nat × Nat)) (s : State) : SlotEnds p s (raise n l s) :=
  .of_eq (raise_chans ..) (raise_rd ..) (raise_wr ..)

theorem raiseIf_slotEnds (p : Nat) (b : Bool) (n : Nat) (l : List (Nat × Nat)) (s : State) :
    SlotEnds p s (raiseIf b n l s) := by
  cases b
  · exact .refl p s
  · exact raise_slotEnds ..

theorem foldl_slotEnds {α : Type} {p : Nat} {f : State → α → State} (hf : ∀ s a, SlotEnds p s (f s a)) (l : List α) (s : State) :
    SlotEnds p s (l.foldl f s) := by
  induction l generalizing s with
  | nil => exact .refl p s
  | cons a l ih => exact (hf s a).trans (ih _)

theorem learnOffset_slotEnds (p : Nat) (w : SyncWindow) (rd : SectorRead) (f : SectorFound) (s : State) :
    SlotEnds p s (learnOffset p w rd f s) := by
  unfold learnOffset
  dsimp only
  split
  · exact .refl p s
  split
  · exact .of_eq rfl rfl rfl
  split
  · exact .refl p s
  · exact .of_eq rfl rfl rfl

theorem keepLoops_slotEnds (p : Nat) (s : State) : SlotEnds p s (keepLoops p s) :=
  ⟨⟨_, _, _, getChan_setChan_self ..⟩, rfl, rfl⟩

theorem slotEvents_slotEnds (p : Nat) (o : SectorOutcome) (rd : SectorRead) (flags : List Bool) (old : Loops) (s : State) :
    SlotEnds p s (slotEvents p o rd flags old s) := by
  unfold slotEvents
  extract_lets c base loss long s1 s2 s3 s4
  have h1 : SlotEnds p s s1 := ⟨⟨_, _, _, getChan_setChan_self ..⟩, rfl, rfl⟩
  have h3 : SlotEnds p s s3 := (h1.trans (raiseIf_slotEnds ..)).trans (raiseIf_slotEnds ..)
  have h4 : SlotEnds p s s4 := h3.trans (foldl_slotEnds (fun _ _ => raise_slotEnds ..) ..)
  exact h4.trans (foldl_slotEnds (fun _ _ => raise_slotEnds ..) ..)

/-- The end of a slot: its counts and its report, and what goes on after them (R397, R398, R402). -/
theorem endSlot_ends (p : Nat) (w : SyncWindow) (rd : SectorRead) (f : SectorFound) (s : State) :
    (∃ n l k a b, getChan (endSlot p w rd f s) p =
      { countSlot w rd f n (getChan s p) with loops := l, kept := k, lossRun := a, longFlag := b }) ∧
    (endSlot p w rd f s).rd = s.rd ∧ (endSlot p w rd f s).wr = s.wr := by
  unfold endSlot
  extract_lets bits old next s1 s2 s3
  have h1 : getChan s1 p = { countSlot w rd f (slotFlagged w rd bits) (getChan s p) with loops := next } :=
    (getChan_of_chans (drew_chans _) p).trans (getChan_updChan_self ..)
  have h3 : SlotEnds p s1 s3 := by
    refine (learnOffset_slotEnds p w rd f s1).trans ?_
    subst s3
    split
    · exact keepLoops_slotEnds ..
    · exact .refl ..
  obtain ⟨⟨k, a, b, hc⟩, hr, hw⟩ := h3.trans (slotEvents_slotEnds p f.outcome rd (bits.map (·.flag)) old s3)
  exact ⟨⟨_, _, _, _, _, hc.trans (by rw [h1])⟩, hr, hw⟩

/-- A delivered sector reaches the dataset that is read alone (R397, R415). -/
theorem deliverSector_eq (chan slot : Nat) (f : SectorFound) (s : State) : ∃ r, deliverSector chan slot f s = { s with rd := r } := by
  unfold deliverSector takeSector
  split
  · split
    · exact ⟨_, rfl⟩
    · split
      · exact ⟨_, rfl⟩
      · exact ⟨_, rfl⟩
  · exact ⟨_, rfl⟩

theorem deliverSector_chans (chan slot : Nat) (f : SectorFound) (s : State) : (deliverSector chan slot f s).chans = s.chans := by
  obtain ⟨r, h⟩ := deliverSector_eq chan slot f s
  rw [h]

theorem deliverSector_wr (chan slot : Nat) (f : SectorFound) (s : State) : (deliverSector chan slot f s).wr = s.wr := by
  obtain ⟨r, h⟩ := deliverSector_eq chan slot f s
  rw [h]

/-- Without an accepted position nothing is delivered (R397). -/
theorem deliverSector_of_none {f : SectorFound} (h : f.search.accepted = none) (chan slot : Nat) (s : State) :
    deliverSector chan slot f s = s := by
  rw [deliverSector, h]

/-! What a channel finds in a slot. -/

/-- Out of lock a slot is NOT_TIMED (R373, R398). -/
theorem sectorFound_of_unlocked {w : SyncWindow} (h : w.lock = false) (s : State) (p : Nat) (rd : SectorRead) :
    (sectorFound s p w rd).outcome = .notTimed := by
  simp [sectorFound, h]

/-- In lock, with an offset learned or in the calibration of a load, the slot is searched (R381, R391). -/
theorem sectorFound_of_timed {s : State} {p : Nat} {w : SyncWindow} (hl : w.lock = true)
    (hk : unlearnedOn s p w.wrap = false ∨ (s.cart.state = .loading ∧ w.wrap < 2)) (rd : SectorRead) :
    sectorFound s p w rd = searchSlot s p (readReach (unlearnedOn s p w.wrap)) (param s 0x4850 1) (param s 0x4850 3)
      (headerFound w p) w rd := by
  refine if_neg ?_
  rcases hk with hk | ⟨hc, hw⟩
  · simp [hl, hk]
  · simp [hl, hc, hw]

/-- A slot is NOT_TIMED, with nothing accepted, or is searched (R381, R391, R398). -/
theorem sectorFound_cases (s : State) (p : Nat) (w : SyncWindow) (rd : SectorRead) :
    ((sectorFound s p w rd).outcome = .notTimed ∧ (sectorFound s p w rd).search.accepted = none) ∨
    sectorFound s p w rd = searchSlot s p (readReach (unlearnedOn s p w.wrap)) (param s 0x4850 1) (param s 0x4850 3)
      (headerFound w p) w rd := by
  unfold sectorFound
  dsimp only
  split
  · exact .inl ⟨rfl, rfl⟩
  · exact .inr rfl

theorem two_le_readReach (b : Bool) : 2 ≤ readReach b := by cases b <;> decide

/-- A sector is accepted only at a position whose header is found and where C1 converges (R393, R394). -/
theorem sectorFound_accepted {s : State} {p : Nat} {w : SyncWindow} {rd : SectorRead}
    (h : (sectorFound s p w rd).outcome = .accepted) :
    ∃ y ∈ triesOf w p (readReach (unlearnedOn s p w.wrap)) rd (detected s p rd.samples), ∃ b,
      (sectorFound s p w rd).search.accepted = some (y, b) ∧ headerFound w p y = true ∧ c1Converges (param s 0x4850 1) y = true := by
  rcases sectorFound_cases s p w rd with ⟨hn, -⟩ | hs
  · rw [hn] at h
    cases h
  · rw [hs] at h ⊢
    exact searchSlot_accepted (two_le_readReach _) h

theorem sectorFound_of_not_accepted {s : State} {p : Nat} {w : SyncWindow} {rd : SectorRead}
    (h : (sectorFound s p w rd).outcome ≠ .accepted) : (sectorFound s p w rd).search.accepted = none := by
  rcases sectorFound_cases s p w rd with ⟨-, ha⟩ | hs
  · exact ha
  · rw [hs] at h ⊢
    exact Option.not_isSome_iff_eq_none.1 (mt (searchSlot_outcome ..).2 h)

/-! SECTOR_REPORT. -/

/-- The report of a slot for which the channel opened a window: the slot's end, its counts, and the sector delivered (R397, R398,
R402, R415). -/
theorem sectorReport_reports {p : Chan} {v : SectorRead} {w : SyncWindow} {s : State}
    (h : (getChan s p.val).windows.find? (fun w => w.slot == v.slot) = some w) :
    let f := sectorFound s p.val w v
    ∃ t, exec (.sectorReport p v) s = .next t ∧ (getChan t p.val).windows = (getChan s p.val).windows.erase w ∧
      (getChan t p.val).lastReport = reportBits w v f ∧
      (f.outcome = .accepted → (getChan t p.val).sectorsRead = (getChan s p.val).sectorsRead + 1 ∧
        (getChan t p.val).sectorsErased = (getChan s p.val).sectorsErased) ∧
      (f.outcome ≠ .accepted → (getChan t p.val).sectorsErased = (getChan s p.val).sectorsErased + 1 ∧
        (getChan t p.val).sectorsRead = (getChan s p.val).sectorsRead ∧ t.rd = s.rd) ∧
      (getChan t p.val).failed = (getChan s p.val).failed ∧ t.wr = s.wr := by
  have hexec : exec (.sectorReport p v) s = .next (deliverSector p.val w.slot (sectorFound s p.val w v)
      (endSlot p.val w v (sectorFound s p.val w v) s)) := by
    rw [exec_sectorReport]
    unfold execSectorReport
    dsimp only
    rw [h]
  intro f
  obtain ⟨⟨n, l, k, a, b, hc⟩, hr, hw⟩ := endSlot_ends p.val w v f s
  have hchan := (getChan_of_chans (deliverSector_chans p.val w.slot f (endSlot p.val w v f s)) p.val).trans hc
  refine ⟨_, hexec, ?_⟩
  rw [hchan]
  refine ⟨rfl, rfl, fun ho => ?_, fun ho => ?_, rfl, (deliverSector_wr ..).trans hw⟩
  · simp [countSlot, ho]
  · refine ⟨by simp [countSlot, ho], by simp [countSlot, ho], ?_⟩
    rw [deliverSector_of_none (sectorFound_of_not_accepted ho)]
    exact hr

/-- Settles O49: a slot's window and its search, what its end leaves of the channel, and what the commands on a channel make of it. -/
theorem channelsReportAndFail : Obligations.ChannelsReportAndFail := by
  unfold Obligations.ChannelsReportAndFail
  refine ⟨syncWindowOpen_opens, fun p v w s h => ⟨fun hl => sectorFound_of_unlocked hl s p.val v,
      fun ho => sectorFound_accepted ho, fun y hone hy hf hc hn hm hflags hl hk => ?_, sectorReport_reports h⟩,
    fun p s h => ⟨fun hfifo hr => channelReset_fails h hfifo hr, chCommandFail_fails h⟩,
    fun p s h => ⟨chCommandFail_of_failed h, chCommandRestore_refused h, chCommandRestore_restores h⟩, replaceAcknowledge_keeps⟩
  rw [sectorFound_of_timed hl hk]
  exact searchSlot_single (two_le_readReach _) hone hy hf hc hn hm hflags

end Sys2Proof.Machine
end

section
/-! Every command goes on calmly: the queue of commands, the fuse row and the firmware floor over a step (R528, R560, R570, R585). -/

namespace Sys2Proof.Machine

/-- A PORST that is held low too briefly stops the model (R585; log entry 3). -/
theorem exec_porst_tooShort {n : Nat} (h : n < 10000) (s : State) : exec (.porst n) s = .fault .porstTooShort := by
  rw [exec_porst]
  exact if_pos h

/-- Settles O3: an admissible command goes on, and `Calm` keeps the queue of commands. -/
theorem everyCommandGoesOn : Obligations.EveryCommandGoesOn := by
  unfold Obligations.EveryCommandGoesOn
  refine ⟨fun c s hc => ?_, fun n s hn => exec_porst_tooShort hn s⟩
  obtain ⟨t, ht, hcalm⟩ := exec_goes (Calm.refl s) hc
  exact ⟨t, ht, hcalm.pending⟩

/-- Settles O4: a step is calm, and `Calm` keeps every blown fuse blown. -/
theorem fusesOnlyBlow : Obligations.FusesOnlyBlow := by
  unfold Obligations.FusesOnlyBlow
  intro s t e
  obtain ⟨_, h⟩ := step_calm e
  exact h.fuses

/-- Settles O5: a step is calm, and `Calm` does not lower the floor. -/
theorem securityFloorOnlyRises : Obligations.SecurityFloorOnlyRises := by
  unfold Obligations.SecurityFloorOnlyRises
  intro s t e
  obtain ⟨_, h⟩ := step_calm e
  exact h.floor

end Sys2Proof.Machine
end

section
/-! EVQ-H and the event log: what a queue of events gives first, when an entry sends the message, what the log keeps (R29, R31, R538,
R539, R541, R542). -/

namespace Sys2Proof.Machine

/-- What the search for the highest priority holds after one more entry (R31). -/
def prioStep (m : Option Nat) (e : EvEntry) : Option Nat :=
  match m with
  | some p => some (min p e.prio)
  | none => some e.prio

/-- From a priority on, the search ends in the least of it and of the entries' priorities. -/
theorem foldl_prioStep_some (q : List EvEntry) (p : Nat) : ∃ r, q.foldl prioStep (some p) = some r ∧ r ≤ p ∧
    (∀ x ∈ q, r ≤ x.prio) ∧ (r = p ∨ ∃ x ∈ q, x.prio = r) := by
  induction q generalizing p with
  | nil => exact ⟨p, rfl, Nat.le_refl _, by simp, .inl rfl⟩
  | cons e q ih =>
    obtain ⟨r, hr, hp, hall, hfrom⟩ := ih (min p e.prio)
    refine ⟨r, hr, by omega, fun x hx => ?_, ?_⟩
    · rcases List.mem_cons.1 hx with rfl | hx
      · omega
      · exact hall x hx
    · rcases hfrom with hmin | ⟨x, hx, hxr⟩
      · rcases Nat.le_total p e.prio with hle | hle
        · exact .inl (by omega)
        · exact .inr ⟨e, List.mem_cons_self .., by omega⟩
      · exact .inr ⟨x, List.mem_cons_of_mem _ hx, hxr⟩

/-- The search of a queue with entries ends in the priority of one that none precedes (R31, R538). -/
theorem foldl_prioStep_none {q : List EvEntry} (h : q ≠ []) : ∃ r, q.foldl prioStep none = some r ∧ (∀ x ∈ q, r ≤ x.prio) ∧
    ∃ x ∈ q, x.prio = r := by
  cases q with
  | nil => exact absurd rfl h
  | cons e q =>
    obtain ⟨r, hr, hp, hall, hfrom⟩ := foldl_prioStep_some q e.prio
    refine ⟨r, hr, fun x hx => ?_, ?_⟩
    · rcases List.mem_cons.1 hx with rfl | hx
      · exact hp
      · exact hall x hx
    · rcases hfrom with rfl | ⟨x, hx, hxr⟩
      · exact ⟨e, List.mem_cons_self .., rfl⟩
      · exact ⟨x, List.mem_cons_of_mem _ hx, hxr⟩

theorem popEv_nil : popEv [] = none := rfl

/-- A queue with entries gives the oldest of the highest priority (R31, R538). -/
theorem popEv_of_ne_nil {q : List EvEntry} (h : q ≠ []) : ∃ e, popEv q = some (e, q.erase e) ∧ e ∈ q ∧ (∀ x ∈ q, e.prio ≤ x.prio) ∧
    q.find? (fun x => x.prio == e.prio) = some e := by
  obtain ⟨r, hr, hall, x, hx, hxr⟩ := foldl_prioStep_none h
  obtain ⟨e, he⟩ : ∃ e, q.find? (fun y => y.prio == r) = some e :=
    Option.isSome_iff_exists.1 (List.find?_isSome.2 ⟨x, hx, by simp [hxr]⟩)
  obtain rfl : e.prio = r := by simpa using List.find?_some he
  refine ⟨e, ?_, List.mem_of_find?_eq_some he, hall, he⟩
  have hpop : popEv q = match q.foldl prioStep none with
      | none => none
      | some p => match q.find? fun e => e.prio == p with
        | some e => some (e, q.erase e)
        | none => none := rfl
  rw [hpop, hr]
  simp only [he]

/-- The Event Unit after an entry for EVQ-H (R29, R31, R539). -/
def hostQueued (e : EvEntry) (v : Ev) : Ev :=
  lostHost (evPush 2048 v.host e).2 { v with host := (evPush 2048 v.host e).1, armed := false }

@[simp] theorem hostQueued_armed (e : EvEntry) (v : Ev) : (hostQueued e v).armed = false := by
  unfold hostQueued lostHost
  split <;> rfl

/-- An EVQ-H that is not armed takes an entry in silence (R539). -/
theorem toHost_of_unarmed (e : EvEntry) {s : State} (h : s.ev.armed = false) :
    toHost e s = { s with ev := hostQueued e s.ev } :=
  if_neg (by rw [h]; decide)

/-- The entry written into an armed EVQ-H sends its message (R539). -/
theorem toHost_of_armed (e : EvEntry) {s : State} (h : s.ev.armed = true) :
    toHost e s = sendMsix 0 1 { s with ev := hostQueued e s.ev } :=
  if_pos h

theorem toHost_armed (e : EvEntry) (s : State) : (toHost e s).ev.armed = false := by
  cases h : s.ev.armed
  · rw [toHost_of_unarmed e h]
    exact hostQueued_armed ..
  · rw [toHost_of_armed e h, sendMsix_ev]
    exact hostQueued_armed ..

/-- An entry into an armed EVQ-H whose vector is masked waits in the pending bit (R76, R539). -/
theorem toHost_pends (e : EvEntry) {s : State} (h : s.ev.armed = true) (hm : (Tab.getD (getFn s 0).msix 1 {}).masked = true) :
    (Tab.getD (getFn (toHost e s) 0).msix 1 {}).pend = true := by
  rw [toHost_of_armed e h, sendMsix_masked (s := { s with ev := hostQueued e s.ev }) hm, getFn_updFn_self, Tab.getD_put_self]

/-- EVQ_POP of a queue with entries delivers the one that `popEv` takes, with its tag (R29, R538). -/
theorem execEvqPop_of_pop {w : BitVec 4} {s : State} {e : EvEntry} {q : List EvEntry} (h : popEv s.ev.host = some (e, q)) :
    exec (.evqPop w) s = .next { s with ev := { s.ev with
      host := q, entry := e.bits, entryValid := true, poison := e.poison || !tagIntact e.bits w,
      hostPoisoned := if e.poison || !tagIntact e.bits w then sat32 (s.ev.hostPoisoned + 1) else s.ev.hostPoisoned } } := by
  rw [exec_evqPop, execEvqPop, h]

theorem execEvqPop_empty {w : BitVec 4} {s : State} (h : s.ev.host = []) :
    exec (.evqPop w) s = .next { s with ev := { s.ev with entry := 0, entryValid := false, poison := false } } := by
  rw [exec_evqPop, execEvqPop, h, popEv_nil]

theorem execEvqArm_empty {s : State} (h : s.ev.host = []) : exec .evqArm s = .next { s with ev := { s.ev with armed := true } } :=
  if_pos (by rw [h]; rfl)

theorem execEvqArm_waiting {s : State} (h : s.ev.host ≠ []) : exec .evqArm s = .next (sendMsix 0 1 s) :=
  if_neg (by simpa using h)

/-- The entry that the log takes of an entry of EVQ-M (R29, R541). -/
def logEntry (s : State) (w : BitVec 4) (e : EvEntry) : Nat × BitVec 64 × EvEntry :=
  (s.ev.nextLog, s.time, { e with poison := e.poison || !tagIntact e.bits w })

/-- The log after one more entry: its newest 1,024 (R541). -/
def logAfter (l : List (Nat × BitVec 64 × EvEntry)) (x : Nat × BitVec 64 × EvEntry) : List (Nat × BitVec 64 × EvEntry) :=
  (l ++ [x]).drop ((l ++ [x]).length - 1024)

theorem getLast?_logAfter (l : List (Nat × BitVec 64 × EvEntry)) (x : Nat × BitVec 64 × EvEntry) :
    (logAfter l x).getLast? = some x := by
  have hlen : ¬ (l ++ [x]).length ≤ (l ++ [x]).length - 1024 := by
    simp only [List.length_append, List.length_singleton]
    omega
  rw [logAfter, List.getLast?_drop, if_neg hlen]
  simp

/-- A log of less than 1,024 entries loses none (R541). -/
theorem logAfter_of_room {l : List (Nat × BitVec 64 × EvEntry)} (x : Nat × BitVec 64 × EvEntry) (h : l.length < 1024) :
    logAfter l x = l ++ [x] := by
  have hzero : (l ++ [x]).length - 1024 = 0 := by
    simp only [List.length_append, List.length_singleton]
    omega
  rw [logAfter, hzero, List.drop_zero]

/-- EVENT_LOG_COPY puts the entry taken at the end of the log (R541). -/
theorem execEventLogCopy_of_pop {w : BitVec 4} {s : State} {e : EvEntry} {q : List EvEntry} (h : popEv s.ev.mgmt = some (e, q)) :
    exec (.eventLogCopy w) s = .next { s with ev := { s.ev with
      mgmt := q, log := logAfter s.ev.log (logEntry s w e), nextLog := nextLogIndex s.ev.nextLog } } := by
  rw [exec_eventLogCopy, execEventLogCopy, h]
  rfl

theorem execEventLogCopy_empty {w : BitVec 4} {s : State} (h : s.ev.mgmt = []) : exec (.eventLogCopy w) s = .next s := by
  rw [exec_eventLogCopy, execEventLogCopy, h, popEv_nil]

/-- A read of an empty log gives no entry and leaves the index (R542). -/
theorem readLog_empty {s : State} (h : s.ev.log = []) (i : Nat) : readLog s i = (leBytes 4 0xFFFFFFFF ++ leBytes 28 0, i) := by
  unfold readLog
  rw [h]
  rfl

/-- A read at the index of the one entry gives it and moves the index on (R542). -/
theorem readLog_single {s : State} {x : Nat × BitVec 64 × EvEntry} (h : s.ev.log = [x]) :
    readLog s x.1 = (logBytes x, nextLogIndex x.1) := by
  unfold readLog
  rw [h]
  simp

/-- EVENT_LOG_READ by HOST-PF (R542). -/
theorem execEventLogRead_pf (s : State) : exec (.eventLogRead 0) s =
    .next (emit (.dictValue (readLog s (getFn s 0).logIdx).1)
      (updFn 0 (fun x => { x with logIdx := (readLog s (getFn s 0).logIdx).2 }) s)) := rfl

theorem execEventLogRead_unknown {id : Nat} {s : State} (h : id ≠ 0) (hs : Tab.get? s.staxa.sessions id = none) :
    exec (.eventLogRead id) s = .next s := by
  rw [exec_eventLogRead, execEventLogRead, if_neg h, hs]

/-- Settles O56: EVQ-H by what `popEv` takes and whether the queue is armed, the log by what it keeps, a read by the reader's
index. -/
theorem eventsAreReadAndLogged : Obligations.EventsAreReadAndLogged := by
  unfold Obligations.EventsAreReadAndLogged
  refine ⟨fun w s => ⟨execEvqPop_empty, fun h => ?_, rfl, execEvqArm_empty, execEvqArm_waiting, fun e => ⟨toHost_armed e s,
      fun h => ?_, fun h hm => ?_, toHost_pends e⟩⟩, fun w s => ⟨execEventLogCopy_empty, fun h => ?_⟩,
    fun s => ⟨fun h => ?_, fun x h hx _ => ?_, fun _ => execEventLogRead_unknown⟩⟩
  · obtain ⟨e, hpop, hmem, hmin, hfind⟩ := popEv_of_ne_nil h
    exact ⟨_, e, execEvqPop_of_pop hpop, hmem, hmin, hfind, rfl, rfl, rfl, rfl, rfl, rfl, rfl, rfl⟩
  · rw [toHost_of_unarmed e h]
  · rw [toHost_of_armed e h, sendMsix_unmasked (s := { s with ev := hostQueued e s.ev }) hm]
    rfl
  · obtain ⟨e, hpop, hmem, hmin, -⟩ := popEv_of_ne_nil h
    refine ⟨_, e, execEventLogCopy_of_pop hpop, hmem, hmin, rfl, ?_, rfl, ?_, rfl, rfl⟩ <;> dsimp only
    · exact getLast?_logAfter s.ev.log (logEntry s w e)
    · exact logAfter_of_room (logEntry s w e)
  · have hread := readLog_empty h (getFn s 0).logIdx
    exact ⟨_, execEventLogRead_pf s, by simp [hread], by simp [hread], by simp⟩
  · have hread : readLog s (getFn s 0).logIdx = (logBytes x, nextLogIndex x.1) := hx ▸ readLog_single h
    exact ⟨_, execEventLogRead_pf s, by simp [hread], by simp [hread, nextLogIndex], by simp⟩

end Sys2Proof.Machine
end

section
/-! The Flash Controller at rest and behind a descriptor: what waits, what starts, what is refused (R504, R507, R508, R517). -/

namespace Sys2Proof.Machine

/-! What the controller does when nothing waits, and when one descriptor does. -/

theorem refillFlash_of_held_nil {s : State} (h : s.flash.held = []) : refillFlash s = s := by
  unfold refillFlash
  dsimp only
  rw [h, List.take_nil, List.append_nil, List.drop_nil, ← h]

theorem nextDesc_of_busy {s : State} (h : s.flash.op.isSome = true) : nextDesc s = none := by
  simp [nextDesc, h]

theorem nextDesc_of_queue_nil {s : State} (h : s.flash.queue = []) : nextDesc s = none := by
  unfold nextDesc
  split
  · rfl
  · split <;> simp [h]

/-- A controller at rest takes the oldest descriptor (R508). -/
theorem nextDesc_of_rest {s : State} {x : FlashDesc} {q : List FlashDesc} (hop : s.flash.op = none) (her : s.flash.erase = none)
    (hr : resetting s 4 = false) (hq : s.flash.queue = x :: q) : nextDesc s = some x := by
  simp [nextDesc, hop, her, hr, hq]

theorem flashRun_of_idle {s : State} (h : nextDesc s = none) (n : Nat) : flashRun n s = s := by
  cases n with
  | zero => rfl
  | succ n =>
    unfold flashRun
    rw [h]

theorem flashGo_of_idle {s : State} (hh : s.flash.held = []) (h : nextDesc s = none) : flashGo s = s := by
  rw [flashGo, refillFlash_of_held_nil hh]
  exact flashRun_of_idle h _

/-- The one descriptor that waits is refused (R507). -/
theorem flashRun_refuses {s : State} {x : FlashDesc} {st : Nat} (hn : nextDesc s = some x) (hq : s.flash.queue = [x])
    (hh : s.flash.held = []) (hr : flashRefusal s x = some st)
    (ht : nextDesc (refuseFlash x st { s with flash := { s.flash with queue := [] } }) = none) (n : Nat) :
    flashRun (n + 1) s = refuseFlash x st { s with flash := { s.flash with queue := [] } } := by
  have hrefill : refillFlash { s with flash := { s.flash with queue := [] } } = { s with flash := { s.flash with queue := [] } } :=
    refillFlash_of_held_nil hh
  have hempty : s.flash.queue.erase x = [] := by simp [hq]
  unfold flashRun
  rw [hn]
  dsimp only
  rw [hempty, hrefill, hr]
  exact flashRun_of_idle ht n

/-- The one descriptor that waits starts (R508). -/
theorem flashRun_begins {s : State} {x : FlashDesc} (hn : nextDesc s = some x) (hq : s.flash.queue = [x])
    (hh : s.flash.held = []) (hr : flashRefusal s x = none)
    (ht : nextDesc (beginFlash x { s with flash := { s.flash with queue := [] } }) = none) (n : Nat) :
    flashRun (n + 1) s = beginFlash x { s with flash := { s.flash with queue := [] } } := by
  have hrefill : refillFlash { s with flash := { s.flash with queue := [] } } = { s with flash := { s.flash with queue := [] } } :=
    refillFlash_of_held_nil hh
  have hempty : s.flash.queue.erase x = [] := by simp [hq]
  unfold flashRun
  rw [hn]
  dsimp only
  rw [hempty, hrefill, hr]
  exact flashRun_of_idle ht n

/-- What the posting of a completion record changes: the output, `FlashDiagResult` and the cores that stall (R504, R520, R531). -/
theorem postFlash_eq (x : FlashDesc) (st retry maxErr total : Nat) (m : BitVec 64) (s : State) : ∃ d l,
    postFlash x st retry maxErr total m s = { s with
      out := .flash (flashRecord x.descId st retry maxErr total m) x.tag :: s.out,
      flash := { s.flash with diagResult := d, stalled := l } } := by
  unfold postFlash
  cases x.diag <;> cases x.core <;> simp only [Bool.false_eq_true, if_true, if_false]
  case false.none => exact ⟨s.flash.diagResult, s.flash.stalled, rfl⟩
  case false.some c => exact ⟨s.flash.diagResult, s.flash.stalled.filter (· != c), rfl⟩
  case true.none => exact ⟨flashRecord x.descId st retry maxErr total m, s.flash.stalled, rfl⟩
  case true.some c => exact ⟨flashRecord x.descId st retry maxErr total m, s.flash.stalled.filter (· != c), rfl⟩

/-- A refused descriptor ends with its code and no data; the metadata of a READ are free (R506, R507). -/
theorem refuseFlash_eq (x : FlashDesc) (st : Nat) (s : State) : ∃ n m d l, (x.op ≠ 1 → m = 0#64) ∧
    refuseFlash x st s = { s with
      drawn := n, out := .flash (flashRecord x.descId st 0 0 0 m) x.tag :: s.out,
      flash := { s.flash with diagResult := d, stalled := l } } := by
  unfold refuseFlash
  split
  · obtain ⟨d, l, h⟩ := postFlash_eq x st 0 0 0 (BitVec.ofNat 64 (Config.freeNat s.drawn)) (drew s)
    exact ⟨_, _, d, l, fun hne => absurd ‹_› hne, h⟩
  · obtain ⟨d, l, h⟩ := postFlash_eq x st 0 0 0 0 s
    exact ⟨_, _, d, l, fun _ => rfl, h⟩

/-- A record posted with nothing waiting: the controller goes on to nothing (R504). -/
theorem flashGo_posts (x : FlashDesc) (st retry maxErr total : Nat) (m : BitVec 64) (s : State) (hq : s.flash.queue = [])
    (hh : s.flash.held = []) : ∃ d l, flashGo (postFlash x st retry maxErr total m s) = { s with
      out := .flash (flashRecord x.descId st retry maxErr total m) x.tag :: s.out,
      flash := { s.flash with diagResult := d, stalled := l } } := by
  obtain ⟨d, l, h⟩ := postFlash_eq x st retry maxErr total m s
  rw [h]
  exact ⟨d, l, flashGo_of_idle hh (nextDesc_of_queue_nil hq)⟩

@[simp] theorem getBlock_setBlock_self (b : Nat) (v : FlashBlock) (s : State) : getBlock (setBlock b v s) b = v :=
  Tab.getD_put_self ..

theorem getBlock_setBlock_ne {a b : Nat} (v : FlashBlock) (s : State) (h : a ≠ b) : getBlock (setBlock b v s) a = getBlock s a :=
  Tab.getD_put_ne _ _ _ h

@[simp] theorem getBlock_updBlock_self (b : Nat) (g : FlashBlock → FlashBlock) (s : State) :
    getBlock (updBlock b g s) b = g (getBlock s b) :=
  getBlock_setBlock_self ..

theorem getBlock_updBlock_ne {a b : Nat} (g : FlashBlock → FlashBlock) (s : State) (h : a ≠ b) :
    getBlock (updBlock b g s) a = getBlock s a :=
  getBlock_setBlock_ne _ _ h

/-- A refusal depends on the blocks, the erase and the brown-out alone (R507). -/
theorem flashRefusal_congr {s t : State} (hb : t.flash.blocks = s.flash.blocks) (he : t.flash.erase = s.flash.erase)
    (ho : t.flash.brownout = s.flash.brownout) (x : FlashDesc) : flashRefusal t x = flashRefusal s x := by
  have hv : getBlock t x.block = getBlock s x.block := by rw [getBlock, hb, getBlock]
  unfold flashRefusal
  dsimp only
  rw [hv, he, ho]

/-- In a brown-out only a READ starts (R517). -/
theorem op_of_begin_in_brownout {s : State} {x : FlashDesc} (hb : s.flash.brownout = true) (h : flashRefusal s x = none) : x.op = 1 := by
  by_contra hne
  simp only [flashRefusal, hb, hne, if_true, if_false] at h
  split_ifs at h

/-- A descriptor that may start is a READ, a PROGRAM or an ERASE (R505). -/
theorem op_of_not_refused {s : State} {x : FlashDesc} (h : flashRefusal s x = none) : x.op = 1 ∨ x.op = 2 ∨ x.op = 3 := by
  by_contra hne
  have hbad : descValid x = false := by
    simp only [not_or] at hne
    simp [descValid, hne]
  simp [flashRefusal, hbad] at h

/-! The submission of a descriptor. -/

/-- A descriptor handed to the controller: behind those held (R504). -/
def handed (y : FlashDesc) (s : State) : State := { s with flash := { s.flash with held := s.flash.held ++ [y] } }

/-- A core of the management domain takes the number of its request and hands in the descriptor under that tag (R20, R543). -/
theorem submitFlash_eq (x : FlashDesc) (s : State) : submitFlash x s =
    flashGo (handed { x with tag := (agentTag (agCore + x.core.getD 0) s).1 } (agentTag (agCore + x.core.getD 0) s).2) := rfl

/-- A queue with room takes the descriptor handed in (R504). -/
theorem refillFlash_handed {s : State} (y : FlashDesc) (hh : s.flash.held = []) (hq : s.flash.queue.length < 64) :
    refillFlash (handed y s) = { s with flash := { s.flash with queue := s.flash.queue ++ [y] } } := by
  obtain ⟨k, hk⟩ : ∃ k, 64 - s.flash.queue.length = k + 1 := ⟨64 - s.flash.queue.length - 1, by omega⟩
  unfold refillFlash handed
  dsimp only
  rw [hh, hk, List.nil_append, List.take_succ_cons, List.take_nil, List.drop_succ_cons, List.drop_nil, ← hh]

/-- A full queue takes none of the descriptors held (R504). -/
theorem refillFlash_full {s : State} (h : 64 ≤ s.flash.queue.length) : refillFlash s = s := by
  unfold refillFlash
  dsimp only
  rw [Nat.sub_eq_zero_of_le h, List.take_zero, List.append_nil, List.drop_zero]

/-- Behind another descriptor one waits in the queue (R504, R508). -/
theorem flashGo_handed_waits {s : State} (y : FlashDesc) (hop : s.flash.op.isSome = true) (hh : s.flash.held = [])
    (hq : s.flash.queue.length < 64) : flashGo (handed y s) = { s with flash := { s.flash with queue := s.flash.queue ++ [y] } } := by
  rw [flashGo, refillFlash_handed y hh hq]
  refine flashRun_of_idle (nextDesc_of_busy ?_) _
  exact hop

/-- With 64 waiting the submitter is held (R504). -/
theorem flashGo_handed_full {s : State} (y : FlashDesc) (hop : s.flash.op.isSome = true) (hq : 64 ≤ s.flash.queue.length) :
    flashGo (handed y s) = handed y s := by
  rw [flashGo, refillFlash_full (s := handed y s) hq]
  refine flashRun_of_idle (nextDesc_of_busy ?_) _
  exact hop

/-- The controller is at rest: nothing runs, nothing waits, and its domain is not in reset. -/
structure FlashRest (s : State) : Prop where
  op : s.flash.op = none
  erase : s.flash.erase = none
  queue : s.flash.queue = []
  held : s.flash.held = []
  reset : resetting s 4 = false

/-- The state of a controller at rest that has one descriptor in its queue. -/
def queued (y : FlashDesc) (s : State) : State := { s with flash := { s.flash with queue := [y] } }

theorem FlashRest.refill {s : State} (h : FlashRest s) (y : FlashDesc) : refillFlash (handed y s) = queued y s := by
  rw [refillFlash_handed y h.held (by simp [h.queue]), h.queue]
  rfl

/-- At rest the descriptor in the queue is the next. -/
theorem FlashRest.next {s : State} (h : FlashRest s) (y : FlashDesc) : nextDesc (queued y s) = some y :=
  nextDesc_of_rest h.op h.erase h.reset rfl

/-- Once taken it leaves the queue empty, as it was. -/
theorem FlashRest.taken {s : State} (h : FlashRest s) (y : FlashDesc) :
    ({ queued y s with flash := { (queued y s).flash with queue := [] } } : State) = s := by
  rw [← h.queue]
  rfl

/-- A controller that has begun a descriptor with no other in the queue takes none. -/
theorem nextDesc_beginFlash (x : FlashDesc) {s : State} (hq : s.flash.queue = []) : nextDesc (beginFlash x s) = none := by
  apply nextDesc_of_queue_nil
  unfold beginFlash
  dsimp only
  split
  · split <;> exact hq
  · split <;> exact hq

theorem nextDesc_refuseFlash (x : FlashDesc) (st : Nat) {s : State} (hq : s.flash.queue = []) :
    nextDesc (refuseFlash x st s) = none := by
  obtain ⟨n, m, d, l, -, h⟩ := refuseFlash_eq x st s
  rw [h]
  exact nextDesc_of_queue_nil hq

/-- At rest a descriptor that nothing refuses starts (R508). -/
theorem FlashRest.starts {s : State} (h : FlashRest s) {y : FlashDesc} (hr : flashRefusal s y = none) :
    flashGo (handed y s) = beginFlash y s := by
  rw [flashGo, h.refill y]
  have hrun := flashRun_begins (h.next y) rfl h.held ((flashRefusal_congr rfl rfl rfl y).trans hr)
    (nextDesc_beginFlash y rfl) ((queued y s).flash.queue.length + (queued y s).flash.held.length)
  rwa [h.taken y] at hrun

/-- At rest a descriptor that is refused ends with its code (R507). -/
theorem FlashRest.refuses {s : State} (h : FlashRest s) {y : FlashDesc} {st : Nat} (hr : flashRefusal s y = some st) :
    flashGo (handed y s) = refuseFlash y st s := by
  rw [flashGo, h.refill y]
  have hrun := flashRun_refuses (h.next y) rfl h.held ((flashRefusal_congr rfl rfl rfl y).trans hr)
    (nextDesc_refuseFlash y st rfl) ((queued y s).flash.queue.length + (queued y s).flash.held.length)
  rwa [h.taken y] at hrun

theorem FlashRest.numbered {s : State} (h : FlashRest s) (agent : Nat) : FlashRest (agentTag agent s).2 :=
  ⟨h.op, h.erase, h.queue, h.held, h.reset⟩

end Sys2Proof.Machine
end

section
/-! Reports: what an event leaves alone, and the retirement of a block with the events it can raise (R441, R503, R514, R536). -/

namespace Sys2Proof.Machine

/-! Events alone. -/

/-- `t` follows from `s` by reports: beside the host's vectors, the Event Unit, the health causes and the messages that go out
nothing changes, and of the events those of the sources in `l` alone are counted (R441, R536). -/
structure Notes (l : List Nat) (s t : State) : Prop where
  frame : ∃ H E C o, t = { s with host := H, ev := E, health := C, out := o ++ s.out }
  counts : ∀ n, n ∉ l → Tab.getD t.ev.counts n 0 = Tab.getD s.ev.counts n 0

theorem Notes.refl (l : List Nat) (s : State) : Notes l s s := ⟨⟨_, _, _, [], rfl⟩, fun _ _ => rfl⟩

theorem Notes.trans {l m : List Nat} {s t u : State} (h : Notes l s t) (k : Notes m t u) : Notes (l ++ m) s u where
  frame := by
    obtain ⟨_, _, _, o, rfl⟩ := h.frame
    obtain ⟨H, E, C, p, rfl⟩ := k.frame
    exact ⟨H, E, C, p ++ o, by rw [List.append_assoc]⟩
  counts n hn := by
    rw [List.mem_append, not_or] at hn
    exact (k.counts n hn.2).trans (h.counts n hn.1)

theorem Notes.mono {l m : List Nat} {s t : State} (h : Notes l s t) (hl : l ⊆ m) : Notes m s t :=
  ⟨h.frame, fun n hn => h.counts n fun hm => hn (hl hm)⟩

/-- One raised event is a report of its source. -/
theorem raise_notes (n : Nat) (l : List (Nat × Nat)) (s : State) : Notes [n] s (raise n l s) where
  frame := by
    obtain ⟨v, h | ⟨u, h⟩⟩ := raise_eq n l s
    · exact ⟨s.host, v, s.health, [], h⟩
    · cases hm : (Tab.getD (getFn s 0).msix 1 {}).masked with
      | false =>
        rw [h, sendMsix_unmasked (s := { s with ev := u }) hm]
        exact ⟨s.host, v, s.health, [_], rfl⟩
      | true =>
        rw [h, sendMsix_masked (s := { s with ev := u }) hm]
        exact ⟨_, v, s.health, [], rfl⟩
  counts k hk := by
    rw [raise_counts, Tab.getD_put_ne _ _ _ (by simpa using hk)]

theorem setCause_notes (n : Nat) (s : State) : Notes [0x7C0] s (setCause n s) := by
  unfold setCause
  split
  · exact Notes.refl ..
  · obtain ⟨⟨H, E, C, o, h⟩, hc⟩ := raise_notes 0x7C0 [(8, n)]
      { s with health := { s.health with causes := s.health.causes ||| BitVec.ofNat 32 (2 ^ n) } }
    exact ⟨⟨H, E, C, o, h⟩, hc⟩

section
variable {l : List Nat} {s t : State} (h : Notes l s t)
include h

/-! What reports leave alone, by name. -/

theorem Notes.flash : t.flash = s.flash := by obtain ⟨_, _, _, _, rfl⟩ := h.frame; rfl
theorem Notes.tce : t.tce = s.tce := by obtain ⟨_, _, _, _, rfl⟩ := h.frame; rfl
theorem Notes.out : ∃ o, t.out = o ++ s.out := by obtain ⟨_, _, _, o, rfl⟩ := h.frame; exact ⟨o, rfl⟩

end

/-! The retirement of a block. -/

theorem wornCheck_notes (before : Bool) (s : State) : Notes [0x708, 0x7C0] s (wornCheck before s) := by
  unfold wornCheck
  split
  · exact (raise_notes 0x708 [] s).trans (setCause_notes 2 _)
  · exact Notes.refl ..

/-- `t` follows from `s` by the retirement of block `b`: it is RETIRED and counted, a spare may take its place, and events 0x704,
0x705, 0x708 and 0x7C0 alone are raised (R503, R514). -/
structure Retires (b : Nat) (s t : State) : Prop where
  frame : ∃ H E C o B k w, t = { s with
    host := H, ev := E, health := C, out := o ++ s.out,
    flash := { s.flash with blocks := B, retired := s.flash.retired + 1, sparesUsed := k, sparesOut := w } }
  state : (getBlock t b).state = .retired
  counted : Tab.getD t.ev.counts 0x704 0 = sat32 (Tab.getD s.ev.counts 0x704 0 + 1)
  counts : ∀ n, n ∉ [0x704, 0x705, 0x708, 0x7C0] → Tab.getD t.ev.counts n 0 = Tab.getD s.ev.counts n 0

/-- Reports that follow a retirement change nothing of it. -/
theorem Retires.notes {b : Nat} {l : List Nat} {s t u : State} (h : Retires b s t) (k : Notes l t u)
    (hl : l ⊆ [0x705, 0x708, 0x7C0]) : Retires b s u where
  frame := by
    obtain ⟨_, _, _, o, B, n, w, rfl⟩ := h.frame
    obtain ⟨H, E, C, p, rfl⟩ := k.frame
    exact ⟨H, E, C, p ++ o, B, n, w, by rw [List.append_assoc]⟩
  state := by
    rw [getBlock, k.flash]
    exact h.state
  counted := (k.counts 0x704 fun hm => absurd (hl hm) (by decide)).trans h.counted
  counts n hn := (k.counts n fun hm => hn (List.mem_cons_of_mem _ (hl hm))).trans (h.counts n hn)

/-- A block that is marked and counted, with its event, is retired (R514). -/
theorem retired_mark (b : Nat) (s : State) : Retires b s (raise 0x704 [(11, b)]
    { setBlock b { getBlock s b with state := .retired } s with
      flash := { (setBlock b { getBlock s b with state := .retired } s).flash with retired := s.flash.retired + 1 } }) := by
  have h := raise_notes 0x704 [(11, b)] { setBlock b { getBlock s b with state := .retired } s with
    flash := { (setBlock b { getBlock s b with state := .retired } s).flash with retired := s.flash.retired + 1 } }
  refine ⟨?_, ?_, raise_count_self .., fun n hn => h.counts n fun hm => hn (List.mem_cons.2 (.inl (List.mem_singleton.1 hm)))⟩
  · obtain ⟨H, E, C, o, e⟩ := h.frame
    exact ⟨H, E, C, o, _, _, _, e⟩
  · rw [getBlock, h.flash]
    exact congrArg FlashBlock.state (Tab.getD_put_self s.flash.blocks b _ _)

/-- A spare that takes the place of a retired block leaves it retired (R503, R514). -/
theorem Retires.spare {b : Nat} {s t : State} (h : Retires b s t) (x : Nat) (region : Nat) : Retires b s
    (updBlock x (fun y => { y with region := region }) { t with flash := { t.flash with sparesUsed := t.flash.sparesUsed + 1 } }) := by
  refine ⟨?_, ?_, h.counted, h.counts⟩
  · obtain ⟨H, E, C, o, B, k, w, rfl⟩ := h.frame
    exact ⟨H, E, C, o, _, _, _, rfl⟩
  · by_cases hx : b = x
    · subst hx
      rw [getBlock_updBlock_self]
      exact h.state
    · rw [getBlock_updBlock_ne _ _ hx]
      exact h.state

/-- With no spare left the event is raised once (R514). -/
theorem Retires.noSpare {b : Nat} {s t : State} (h : Retires b s t) :
    Retires b s (raise 0x705 [] { t with flash := { t.flash with sparesOut := true } }) := by
  have hout : Retires b s { t with flash := { t.flash with sparesOut := true } } := by
    refine ⟨?_, h.state, h.counted, h.counts⟩
    obtain ⟨H, E, C, o, B, k, w, rfl⟩ := h.frame
    exact ⟨H, E, C, o, _, _, _, rfl⟩
  exact hout.notes (raise_notes 0x705 [] _) (by decide)

/-- The retirement of a block (R503, R514). -/
theorem retireBlock_retires (b : Nat) (s : State) : Retires b s (retireBlock b s) := by
  have h := retired_mark b s
  refine Retires.notes ?_ (wornCheck_notes ..) (by decide)
  dsimp only
  split
  · exact h
  · split
    · exact h.spare ..
    · split
      · exact h
      · exact h.noSpare

end Sys2Proof.Machine
end

section
/-! The rows of the Flash Controller as what they hand to it (R505-R512, R514-R518, R520, R531). -/

namespace Sys2Proof.Machine

/-! The submission of a descriptor (FLASH_READ, FLASH_PROGRAM, FLASH_ERASE, FLASH_DIAG_DESCRIPTOR). -/

theorem beginFlash_read {x : FlashDesc} (h : x.op = 1) (s : State) :
    beginFlash x s = { s with flash := { s.flash with op := some x } } := by
  simp [beginFlash, h]

theorem beginFlash_program {x : FlashDesc} (h : x.op = 2) (s : State) : beginFlash x s =
    { updBlock x.block (fun v => { v with state := .opened }) s with
      flash := { (updBlock x.block (fun v => { v with state := .opened }) s).flash with op := some x } } := by
  simp [beginFlash, h]

theorem beginFlash_erase {x : FlashDesc} (h : x.op = 3) {s : State} (he : s.flash.erase = none) : beginFlash x s =
    { updBlock x.block (fun v => { v with state := .erasing, eraseCount := v.eraseCount + 1 }) s with
      flash := { (updBlock x.block (fun v => { v with state := .erasing, eraseCount := v.eraseCount + 1 }) s).flash with
        erase := some x, suspended := false } } := by
  have hf : (updBlock x.block (fun v => { v with state := .erasing, eraseCount := v.eraseCount + 1 }) s).flash.erase = none := he
  simp [beginFlash, h, hf]

/-- The rows that submit a descriptor, with the descriptor of each (R505, R531). -/
theorem submits_of_row {desc : BitVec 256} {i : Instr} {x : FlashDesc} {s : State} (h : (i, x) ∈ [(Instr.flashRead desc,
      ({ d := desc } : FlashDesc)), (.flashProgram desc, { d := desc }), (.flashErase desc, { d := desc }),
      (.flashDiagDescriptor desc, { d := desc, diag := true })]) :
    x.core = none ∧ (x.diag = true → s.lc.state ≠ 1 → s.lc.state ≠ 3 → exec i s = .next s) ∧
      ((x.diag = false ∨ s.lc.state = 1 ∨ s.lc.state = 3) → exec i s = .next (submitFlash x s)) := by
  simp only [List.mem_cons, Prod.mk.injEq, List.not_mem_nil, or_false] at h
  rcases h with ⟨rfl, rfl⟩ | ⟨rfl, rfl⟩ | ⟨rfl, rfl⟩ | ⟨rfl, rfl⟩
  · exact ⟨rfl, fun h => absurd h Bool.false_ne_true, fun _ => rfl⟩
  · exact ⟨rfl, fun h => absurd h Bool.false_ne_true, fun _ => rfl⟩
  · exact ⟨rfl, fun h => absurd h Bool.false_ne_true, fun _ => rfl⟩
  · refine ⟨rfl, fun _ h1 h3 => ?_, fun h => ?_⟩
    · rw [exec_flashDiagDescriptor, execFlashDiagDescriptor]
      simp [h1, h3]
    · rw [exec_flashDiagDescriptor, execFlashDiagDescriptor]
      have hs : s.lc.state = 1 ∨ s.lc.state = 3 := by simpa using h
      simp [hs]

/-- What begins of a descriptor by its Op (R505, R508, R512). -/
theorem beginFlash_begins {x : FlashDesc} {s : State} (h : FlashRest s) (hop : x.op = 1 ∨ x.op = 2 ∨ x.op = 3) :
    let t := beginFlash x s
    t.flash.queue = [] ∧ t.flash.held = [] ∧ t.out = s.out ∧
      (∀ b, b ≠ x.block → getBlock t b = getBlock s b) ∧ t.flash.pages = s.flash.pages ∧
      (x.op = 1 → t.flash.op = some x ∧ t.flash.erase = none ∧ getBlock t x.block = getBlock s x.block) ∧
      (x.op = 2 → t.flash.op = some x ∧ t.flash.erase = none ∧
        getBlock t x.block = { getBlock s x.block with state := .opened }) ∧
      (x.op = 3 → t.flash.op = none ∧ t.flash.erase = some x ∧ t.flash.suspended = false ∧
        getBlock t x.block = { getBlock s x.block with
          state := .erasing, eraseCount := (getBlock s x.block).eraseCount + 1 }) := by
  rcases hop with h1 | h2 | h3
  · rw [beginFlash_read h1]
    exact ⟨h.queue, h.held, rfl, fun _ _ => rfl, rfl, fun _ => ⟨rfl, h.erase, rfl⟩, fun e => absurd (h1.symm.trans e) (by decide),
      fun e => absurd (h1.symm.trans e) (by decide)⟩
  · have hblk := getBlock_updBlock_self x.block (fun v => { v with state := .opened }) s
    have hne (b : Nat) (hb : b ≠ x.block) := getBlock_updBlock_ne (fun v => { v with state := .opened }) s hb
    rw [beginFlash_program h2]
    exact ⟨h.queue, h.held, rfl, hne, rfl, fun e => absurd (h2.symm.trans e) (by decide),
      fun _ => ⟨rfl, h.erase, hblk⟩, fun e => absurd (h2.symm.trans e) (by decide)⟩
  · have hblk := getBlock_updBlock_self x.block (fun v => { v with state := .erasing, eraseCount := v.eraseCount + 1 }) s
    have hne (b : Nat) (hb : b ≠ x.block) := getBlock_updBlock_ne (fun v => { v with state := .erasing, eraseCount := v.eraseCount + 1 }) s hb
    rw [beginFlash_erase h3 h.erase]
    exact ⟨h.queue, h.held, rfl, hne, rfl, fun e => absurd (h3.symm.trans e) (by decide),
      fun e => absurd (h3.symm.trans e) (by decide), fun _ => ⟨h.op, rfl, rfl, hblk⟩⟩

/-! FLASH_READ_DONE. -/

/-- Four codewords that decode at once need no read step (R509, R510). -/
theorem readStep_decodes (limit n k : Nat) {e : List Nat} (l : List (List Nat)) (hl : e.length = 4) (he : ∀ m ∈ e, m ≤ 40) :
    readStep limit (n + 1) k (e :: l) = (some k, k) := by
  unfold readStep
  exact if_pos (by simpa [hl] using he)

/-- Codewords that do not decode with no read step left are uncorrectable (R510). -/
theorem readStep_fails {limit k : Nat} (n : Nat) {e : List Nat} (l : List (List Nat)) (he : ∃ m ∈ e, 40 < m) (hk : limit ≤ k) :
    readStep limit (n + 1) k (e :: l) = (none, k) := by
  obtain ⟨m, hm, h40⟩ := he
  have hbad : ¬ (e.length = 4 && e.all (fun x => decide (x ≤ 40))) = true := by
    simp only [Bool.and_eq_true, List.all_eq_true, decide_eq_true_eq]
    exact fun h => absurd (h.2 m hm) (by omega)
  unfold readStep
  dsimp only
  rw [List.getD_cons_zero, if_neg hbad, if_pos hk]

/-- The metadata that a READ of a page delivers (R506, R509). -/
def pageMeta (s : State) (x : FlashDesc) (m8 : List Byte) : BitVec 64 :=
  match Tab.get? s.flash.pages (x.block * 64 + x.page) with
  | some (some v) => v
  | _ => BitVec.ofNat 64 (leNat (m8.take 8))

theorem pageMeta_of_programmed {s : State} {x : FlashDesc} {v : BitVec 64} (m8 : List Byte)
    (h : Tab.get? s.flash.pages (x.block * 64 + x.page) = some (some v)) : pageMeta s x m8 = v := by
  rw [pageMeta, h]

/-- The controller when a READ has ended that corrected `n` bits and left `u` codewords counted as uncorrectable (R509, R530). -/
def readEnded (n u : Nat) (s : State) : State :=
  { s with flash := { s.flash with op := none, correctedBits := s.flash.correctedBits + n, uncorrectable := u } }

/-- A READ of decoded codewords ends with its count, and flags its block from the limit of errors on (R509). -/
theorem execFlashReadDone_decodes {x : FlashDesc} {e : List Nat} (l : List (List Nat)) (m8 : List Byte) {s : State}
    (hop : s.flash.op = some x) (h1 : x.op = 1) (hraw : x.raw = false) (hl : e.length = 4) (he : ∀ m ∈ e, m ≤ 40) :
    exec (.flashReadDone (e :: l) m8) s = .next (flashGo (if param s 0x7000 1 ≤ e.foldl max 0 then
      postFlash x 1 0 (e.foldl max 0) e.sum (pageMeta s x m8) (updBlock x.block (fun v => { v with refresh := true })
        (raise 0x700 [(11, x.block), (6, x.page)] (readEnded e.sum s.flash.uncorrectable s)))
      else postFlash x 0 0 (e.foldl max 0) e.sum (pageMeta s x m8) (readEnded e.sum s.flash.uncorrectable s))) := by
  rw [exec_flashReadDone, execFlashReadDone, hop]
  simp only [h1, ne_eq, not_true_eq_false, if_false, hraw, Bool.false_eq_true, readStep_decodes _ _ _ _ hl he]
  rw [apply_ite flashGo, apply_ite Host.Outcome.next]
  rfl

/-- A READ whose codewords do not decode, with no retry, ends uncorrectable (R510). -/
theorem execFlashReadDone_fails {x : FlashDesc} {e : List Nat} (l : List (List Nat)) (m8 : List Byte) {s : State}
    (hop : s.flash.op = some x) (h1 : x.op = 1) (hraw : x.raw = false) (he : ∃ m ∈ e, 40 < m) (hno : x.noRetry = true) :
    let good := e.filter fun n => decide (n ≤ 40)
    let u := raise 0x701 [(11, x.block), (6, x.page)] (readEnded good.sum (sat32 (s.flash.uncorrectable + 1)) s)
    exec (.flashReadDone (e :: l) m8) s =
      .next (flashGo (postFlash x 4 0 (good.foldl max 0) good.sum (BitVec.ofNat 64 (Config.freeNat u.drawn)) (drew u))) := by
  rw [exec_flashReadDone, execFlashReadDone, hop]
  simp only [h1, ne_eq, not_true_eq_false, if_false, hraw, Bool.false_eq_true, hno, if_true, readStep_fails _ _ he (Nat.le_refl 0)]
  rfl

/-! FLASH_PROGRAM_DONE and FLASH_ERASE_DONE. -/

theorem execFlashProgramDone_of_program {x : FlashDesc} {s : State} (hop : s.flash.op = some x) (h2 : x.op = 2) (ok : Bool) :
    exec (.flashProgramDone ok) s = .next (flashGo (if ok then
      postFlash x 0 0 0 0 0 (pageUsed x (some x.meta8) { s with flash := { s.flash with op := none } })
      else postFlash x 5 0 0 0 0 (retireBlock x.block (raise 0x702 [(11, x.block), (6, x.page)]
        (pageUsed x none { s with flash := { s.flash with op := none } }))))) := by
  rw [exec_flashProgramDone, execFlashProgramDone, hop]
  simp only [h2, ne_eq, not_true_eq_false, if_false]
  cases ok <;> rfl

/-- The block of the page that a program has used (R512). -/
theorem getBlock_pageUsed (x : FlashDesc) (m : Option (BitVec 64)) (s : State) : getBlock (pageUsed x m s) x.block =
    { getBlock s x.block with nextPage := x.page + 1, state := if x.page = 63 then .full else .opened } :=
  Tab.getD_put_self ..

/-- A key that fails the test is in no table kept by it. -/
theorem Tab.get?_keep_of_not {α : Type} (t : Tab α) (f : Nat → α → Bool) {i : Nat} (h : ∀ v, f i v = false) :
    Tab.get? (Tab.keep t f) i = none := by
  induction t with
  | nil => rfl
  | cons p t ih =>
    obtain ⟨k, w⟩ := p
    by_cases hf : f k w = true
    · have hk : i ≠ k := fun e => by
        rw [← e, h w] at hf
        cases hf
      have hcons : Tab.keep ((k, w) :: t) f = (k, w) :: Tab.keep t f := List.filter_cons_of_pos hf
      rw [hcons, Tab.get?, if_neg hk]
      exact ih
    · have hcons : Tab.keep ((k, w) :: t) f = Tab.keep t f := List.filter_cons_of_neg hf
      rw [hcons]
      exact ih

/-- The erased block, free, with none of its pages programmed (R512). -/
def erased (b : Nat) (s : State) : State :=
  setBlock b { getBlock s b with state := .free, refresh := false, nextPage := 0, sealed := false }
    { s with flash := { s.flash with erase := none, pages := Tab.keep s.flash.pages fun k _ => decide (k / 64 ≠ b) } }

theorem get?_pages_erased {b k : Nat} (h : k / 64 = b) (s : State) : Tab.get? (erased b s).flash.pages k = none :=
  Tab.get?_keep_of_not s.flash.pages (fun k _ => decide (k / 64 ≠ b)) fun _ => by simp [h]

/-- The one erase that runs, which is not suspended, is over (R512, R514). -/
theorem execFlashEraseDone_of_erase {x : FlashDesc} {s : State} (he : s.flash.erase = some x) (hs : s.flash.suspended = false)
    (hop : s.flash.op = none) (ok : Bool) : exec (.flashEraseDone ok) s = .next (flashGo (if ok then
      postFlash x 0 0 0 0 0 (if param s 0x7000 3 ≤ (getBlock s x.block).eraseCount then retireBlock x.block (erased x.block s)
        else erased x.block s)
      else postFlash x 6 0 0 0 0 (retireBlock x.block (raise 0x703 [(11, x.block)] { s with flash := { s.flash with erase := none } })))) := by
  have hrun : runningErase s = some x := by simp [runningErase, hop, hs, he]
  have hover : eraseOver s = { s with flash := { s.flash with erase := none } } := by simp [eraseOver, hop]
  rw [exec_flashEraseDone, execFlashEraseDone, hrun]
  dsimp only
  rw [hover]
  cases ok
  · rfl
  · rfl

/-! FETCH_MISS. -/

/-- The descriptor of an instruction fetch as a number: the core, Urgent, Op 1, block and page (R505, R520). -/
theorem fetchDesc_toNat {core b p : Nat} (hc : core < 65536) (hb : b < 2048) (hp : p < 64) :
    (fetchDesc core b p).toNat = core + 65536 + 16777216 + 4294967296 * b + 281474976710656 * p := by
  simp only [fetchDesc, packLsb, BitVec.toNat_ofNat]
  omega

section
variable {core b p : Nat} (hc : core < 65536) (hb : b < 2048) (hp : p < 64) {x : FlashDesc} (hx : x.d = fetchDesc core b p)
include hc hb hp hx

theorem field_of_fetch (lo w : Nat) : x.field lo w =
    (core + 65536 + 16777216 + 4294967296 * b + 281474976710656 * p) / 2 ^ lo % 2 ^ w := by
  rw [FlashDesc.field, BitVec.extractLsb'_toNat, hx, fetchDesc_toNat hc hb hp, Nat.shiftRight_eq_div_pow]

theorem getLsbD_of_fetch (i : Nat) : x.d.getLsbD i =
    decide ((core + 65536 + 16777216 + 4294967296 * b + 281474976710656 * p) / 2 ^ i % 2 = 1) := by
  rw [hx, ← BitVec.testBit_toNat, fetchDesc_toNat hc hb hp, Nat.testBit_eq_decide_div_mod_eq]

/-- The descriptor of an instruction fetch is an Urgent READ of the page (R505, R520). -/
theorem fields_of_fetch : x.op = 1 ∧ x.block = b ∧ x.page = p ∧ x.urgent = true ∧ x.raw = false := by
  refine ⟨?_, ?_, ?_, ?_, ?_⟩
  · rw [FlashDesc.op, field_of_fetch hc hb hp hx]
    omega
  · rw [FlashDesc.block, field_of_fetch hc hb hp hx]
    omega
  · rw [FlashDesc.page, field_of_fetch hc hb hp hx]
    omega
  · rw [FlashDesc.urgent, getLsbD_of_fetch hc hb hp hx, decide_eq_true_eq]
    omega
  · rw [FlashDesc.raw, getLsbD_of_fetch hc hb hp hx, decide_eq_false_iff_not]
    omega

/-- Its reserved fields are 0 (R505). -/
theorem descValid_of_fetch (hdiag : x.diag = false) : descValid x = true := by
  obtain ⟨hop, -, -, -, hraw⟩ := fields_of_fetch hc hb hp hx
  have h19 : x.field 19 5 = 0 := by
    rw [field_of_fetch hc hb hp hx]
    omega
  have h43 : x.field 43 5 = 0 := by
    rw [field_of_fetch hc hb hp hx]
    omega
  have h54 : x.field 54 10 = 0 := by
    rw [field_of_fetch hc hb hp hx]
    omega
  have h98 : x.field 98 30 = 0 := by
    rw [field_of_fetch hc hb hp hx]
    omega
  have h192 : x.field 192 64 = 0 := by
    rw [field_of_fetch hc hb hp hx]
    omega
  have hm : x.meta8 = 0#64 := by
    apply BitVec.eq_of_toNat_eq
    have hf := field_of_fetch hc hb hp hx 128 64
    rw [FlashDesc.field] at hf
    rw [FlashDesc.meta8, hf]
    show _ = 0
    omega
  simp [descValid, hop, h19, h43, h54, h98, h192, hm, hraw, hdiag]

end

/-- A READ of a block that can be read is not refused (R507). -/
theorem flashRefusal_of_read {s : State} {x : FlashDesc} (hv : descValid x = true) (h1 : x.op = 1) (he : s.flash.erase = none)
    (hr : (getBlock s x.block).state ≠ .retired) (hi : (getBlock s x.block).state ≠ .incomplete)
    (hE : (getBlock s x.block).state ≠ .erasing) : flashRefusal s x = none := by
  simp [flashRefusal, hv, h1, he, hr, hi, hE]

/-- The descriptor of an instruction fetch under its tag (R20, R520). -/
def fetchOf (core b p : Nat) (s : State) : FlashDesc :=
  { d := fetchDesc core b p, core := some core, tag := (agentTag (agCore + core) s).1 }

/-- At rest a fetch miss stalls its core and starts the READ of its page (R520). -/
theorem execFetchMiss_starts {core : Fin 4} {b : Fin 2048} {p : Fin 64} {s : State} (hc : core.val ∉ s.flash.stalled)
    (h : FlashRest s) (hr : (getBlock s b.val).state ≠ .retired) (hi : (getBlock s b.val).state ≠ .incomplete)
    (hE : (getBlock s b.val).state ≠ .erasing) :
    exec (.fetchMiss core b p) s = .next (beginFlash (fetchOf core.val b.val p.val s) (agentTag (agCore + core.val)
      { s with flash := { s.flash with stalled := insertUp core.val s.flash.stalled } }).2) := by
  have hrest : FlashRest { s with flash := { s.flash with stalled := insertUp core.val s.flash.stalled } } :=
    ⟨h.op, h.erase, h.queue, h.held, h.reset⟩
  have hcore : core.val < 65536 := by omega
  obtain ⟨hop, hblk, -⟩ := fields_of_fetch hcore b.isLt p.isLt (x := fetchOf core.val b.val p.val s) rfl
  have hv := descValid_of_fetch hcore b.isLt p.isLt (x := fetchOf core.val b.val p.val s) rfl rfl
  have hnot := flashRefusal_of_read hv hop h.erase (hblk.symm ▸ hr) (hblk.symm ▸ hi) (hblk.symm ▸ hE)
  have hstart := (hrest.numbered (agCore + core.val)).starts (y := fetchOf core.val b.val p.val s)
    ((flashRefusal_congr rfl rfl rfl _).trans hnot)
  rw [exec_fetchMiss, execFetchMiss]
  have hst : s.flash.stalled.contains core.val = false := by simpa using hc
  rw [hst]
  exact congrArg Host.Outcome.next hstart

/-! VFL_BROWNOUT. -/

/-- What a run of the controller cannot change in a brown-out: only READs start (R517). -/
structure Dimmed (s t : State) : Prop where
  brownout : t.flash.brownout = true
  erase : t.flash.erase = s.flash.erase
  brownouts : t.flash.brownouts = s.flash.brownouts
  ev : t.ev = s.ev

/-- In a brown-out the controller starts READs and refuses the others, with no event (R507, R517). -/
theorem flashRun_dimmed (n : Nat) {s : State} (h : s.flash.brownout = true) : Dimmed s (flashRun n s) := by
  induction n generalizing s with
  | zero => exact ⟨h, rfl, rfl, rfl⟩
  | succ n ih =>
    unfold flashRun
    split
    · exact ⟨h, rfl, rfl, rfl⟩
    next x _ =>
    dsimp only
    split
    next st _ =>
      obtain ⟨k, m, d, l, -, he⟩ := refuseFlash_eq x st
        (refillFlash { s with flash := { s.flash with queue := s.flash.queue.erase x } })
      rw [he]
      obtain ⟨hb, her, hbs, hev⟩ := ih (s := { refillFlash { s with flash := { s.flash with queue := s.flash.queue.erase x } } with
        drawn := k, out := _, flash := { (refillFlash { s with flash := { s.flash with queue := s.flash.queue.erase x } }).flash with
          diagResult := d, stalled := l } }) h
      exact ⟨hb, her, hbs, hev⟩
    next hr =>
      rw [beginFlash_read (op_of_begin_in_brownout h hr)]
      obtain ⟨hb, her, hbs, hev⟩ := ih (s := { refillFlash { s with flash := { s.flash with queue := s.flash.queue.erase x } } with
        flash := { (refillFlash { s with flash := { s.flash with queue := s.flash.queue.erase x } }).flash with op := some x } }) h
      exact ⟨hb, her, hbs, hev⟩

theorem Dimmed.trans {s t u : State} (h : Dimmed s t) (k : Dimmed t u) : Dimmed s u :=
  ⟨k.brownout, k.erase.trans h.erase, k.brownouts.trans h.brownouts, k.ev.trans h.ev⟩

theorem flashGo_dimmed {s : State} (h : s.flash.brownout = true) : Dimmed s (flashGo s) := by
  obtain ⟨hb, he, hbs, hev⟩ := flashRun_dimmed ((refillFlash s).flash.queue.length + (refillFlash s).flash.held.length + 1)
    (s := refillFlash s) h
  exact ⟨hb, he, hbs, hev⟩

theorem refuseFlash_dimmed (x : FlashDesc) (st : Nat) {s : State} (h : s.flash.brownout = true) : Dimmed s (refuseFlash x st s) := by
  obtain ⟨k, m, d, l, -, he⟩ := refuseFlash_eq x st s
  rw [he]
  exact ⟨h, rfl, rfl, rfl⟩

theorem refuseAll_dimmed (q : List FlashDesc) (st : Nat) {s : State} (h : s.flash.brownout = true) :
    Dimmed s (q.foldl (fun s x => refuseFlash x st s) s) := by
  induction q generalizing s with
  | nil => exact ⟨h, rfl, rfl, rfl⟩
  | cons x q ih =>
    have hx := refuseFlash_dimmed x st h
    exact hx.trans (ih hx.brownout)

/-- The operation that an interruption ends, if it is not a READ (R517, R518). -/
def interruptOp (s : State) : State :=
  match s.flash.op with
  | some x =>
    if x.op = 2 then
      postFlash x 3 0 0 0 0 (updBlock x.block (fun v => { v with sealed := true, refresh := true })
        (pageUsed x none { s with flash := { s.flash with op := none } }))
    else if x.op = 3 then postFlash x 3 0 0 0 0 { s with flash := { s.flash with op := none } }
    else s
  | none => s

/-- The erase that an interruption ends (R517, R518). -/
def interruptErase (s : State) : State :=
  match s.flash.erase with
  | some x => postFlash x 3 0 0 0 0 { s with flash := { s.flash with erase := none, suspended := false } }
  | none => s

theorem interruptFlash_eq (s : State) : interruptFlash s = interruptErase (interruptOp s) := rfl

theorem interruptErase_of_some {s : State} {x : FlashDesc} (h : s.flash.erase = some x) :
    interruptErase s = postFlash x 3 0 0 0 0 { s with flash := { s.flash with erase := none, suspended := false } } := by
  rw [interruptErase, h]

theorem interruptErase_of_none {s : State} (h : s.flash.erase = none) : interruptErase s = s := by
  rw [interruptErase, h]

theorem interruptOp_of_none {s : State} (h : s.flash.op = none) : interruptOp s = s := by
  rw [interruptOp, h]

theorem interruptOp_of_program {s : State} {x : FlashDesc} (h : s.flash.op = some x) (h2 : x.op = 2) :
    interruptOp s = postFlash x 3 0 0 0 0 (updBlock x.block (fun v => { v with sealed := true, refresh := true })
      (pageUsed x none { s with flash := { s.flash with op := none } })) := by
  rw [interruptOp, h]
  exact if_pos h2

/-- An interrupted operation leaves the brown-out and the events as they are (R517). -/
theorem interruptOp_keeps (s : State) : (interruptOp s).flash.brownout = s.flash.brownout ∧
    (interruptOp s).flash.brownouts = s.flash.brownouts ∧ (interruptOp s).ev = s.ev := by
  unfold interruptOp
  split
  next x _ =>
    split
    · obtain ⟨d, l, h⟩ := postFlash_eq x 3 0 0 0 0 (updBlock x.block (fun v => { v with sealed := true, refresh := true })
        (pageUsed x none { s with flash := { s.flash with op := none } }))
      rw [h]
      exact ⟨rfl, rfl, rfl⟩
    split
    · obtain ⟨d, l, h⟩ := postFlash_eq x 3 0 0 0 0 { s with flash := { s.flash with op := none } }
      rw [h]
      exact ⟨rfl, rfl, rfl⟩
    · exact ⟨rfl, rfl, rfl⟩
  next => exact ⟨rfl, rfl, rfl⟩

/-- No erase is left in progress by an interruption, and the rest is as it was (R517, R518). -/
theorem interruptErase_ends (s : State) : (interruptErase s).flash.erase = none ∧
    (interruptErase s).flash.brownout = s.flash.brownout ∧ (interruptErase s).flash.brownouts = s.flash.brownouts ∧
    (interruptErase s).ev = s.ev := by
  cases he : s.flash.erase with
  | none =>
    rw [interruptErase_of_none he]
    exact ⟨he, rfl, rfl, rfl⟩
  | some x =>
    obtain ⟨d, l, h⟩ := postFlash_eq x 3 0 0 0 0 { s with flash := { s.flash with erase := none, suspended := false } }
    rw [interruptErase_of_some he, h]
    exact ⟨rfl, rfl, rfl, rfl⟩

/-- The brown-out noted, with its event (R517, R530). -/
def dimmed (s : State) : State :=
  raise 0x706 [] { s with flash := { s.flash with brownout := true, brownouts := sat32 (s.flash.brownouts + 1) } }

/-- What waits and is no READ ends when the brown-out comes (R517). -/
def endWaiting (s : State) : State :=
  (s.flash.queue.filter fun x => x.op = 2 || x.op = 3).foldl (fun s x => refuseFlash x 3 s)
    { s with flash := { s.flash with queue := s.flash.queue.filter fun x => !(x.op = 2 || x.op = 3) } }

theorem execVflBrownout_of_clear {s : State} (h : s.flash.brownout = false) :
    exec .vflBrownout s = .next (flashGo (endWaiting (interruptFlash (dimmed s)))) := by
  rw [exec_vflBrownout, execVflBrownout, h]
  rfl

theorem endWaiting_nil {s : State} (h : s.flash.queue = []) : endWaiting s = s := by
  unfold endWaiting
  rw [h, List.filter_nil, List.filter_nil, List.foldl_nil, ← h]

theorem endWaiting_single {s : State} {y : FlashDesc} (h : s.flash.queue = [y]) (hy : y.op = 2 ∨ y.op = 3) :
    endWaiting s = refuseFlash y 3 { s with flash := { s.flash with queue := [] } } := by
  have hb : (decide (y.op = 2) || decide (y.op = 3)) = true := by simpa using hy
  unfold endWaiting
  rw [h, List.filter_singleton, List.filter_singleton, hb]
  rfl

/-- The brown-out, whatever runs and waits: no erase is left, and the event is counted once (R517). -/
theorem brownout_dims {s : State} : ∃ o, (dimmed s).out = o ++ s.out ∧
    let t := flashGo (endWaiting (interruptFlash (dimmed s)))
    t.flash.brownout = true ∧ t.flash.brownouts = sat32 (s.flash.brownouts + 1) ∧ t.flash.erase = none ∧
      Tab.getD t.ev.counts 0x706 0 = sat32 (Tab.getD s.ev.counts 0x706 0 + 1) := by
  have hn := raise_notes 0x706 [] { s with flash := { s.flash with brownout := true, brownouts := sat32 (s.flash.brownouts + 1) } }
  obtain ⟨o, ho⟩ := hn.out
  refine ⟨o, ho, ?_⟩
  obtain ⟨hb1, hbs1, hev1⟩ := interruptOp_keeps (dimmed s)
  obtain ⟨he2, hb2, hbs2, hev2⟩ := interruptErase_ends (interruptOp (dimmed s))
  have hb : (interruptErase (interruptOp (dimmed s))).flash.brownout = true := by
    rw [hb2, hb1, dimmed, hn.flash]
  have hw : Dimmed (interruptErase (interruptOp (dimmed s))) (endWaiting (interruptErase (interruptOp (dimmed s)))) := by
    obtain ⟨hb', he', hbs', hev'⟩ := refuseAll_dimmed
      ((interruptErase (interruptOp (dimmed s))).flash.queue.filter fun x => x.op = 2 || x.op = 3) 3
      (s := { interruptErase (interruptOp (dimmed s)) with flash := { (interruptErase (interruptOp (dimmed s))).flash with
        queue := (interruptErase (interruptOp (dimmed s))).flash.queue.filter fun x => !(x.op = 2 || x.op = 3) } }) hb
    exact ⟨hb', he', hbs', hev'⟩
  rw [interruptFlash_eq]
  obtain ⟨hb', he', hbs', hev'⟩ := hw.trans (flashGo_dimmed hw.brownout)
  refine ⟨hb', ?_, he'.trans he2, ?_⟩
  · rw [hbs', hbs2, hbs1, dimmed, hn.flash]
  · rw [hev', hev2, hev1]
    exact raise_count_self ..

end Sys2Proof.Machine
end

section
/-! What the rows of the Flash Controller leave, and their statement (R509, R510, R512-R518). -/

namespace Sys2Proof.Machine

/-! ERASE_SUSPEND and ERASE_RESUME. -/

/-- While an erase is suspended the Urgent descriptor is the next (R508, R515). -/
theorem nextDesc_of_suspended {s : State} {x y : FlashDesc} (hop : s.flash.op = none) (he : s.flash.erase = some x)
    (hs : s.flash.suspended = true) (hr : resetting s 4 = false) (hq : s.flash.queue = [y]) (hu : y.urgent = true) :
    nextDesc s = some y := by
  simp [nextDesc, hop, hr, he, hs, hq, hu]

/-- An erase is suspended for the one Urgent READ that waits, of another block, which then starts (R508, R515). -/
theorem execEraseSuspend_reads {x y : FlashDesc} {s : State} (he : s.flash.erase = some x) (hs : s.flash.suspended = false)
    (hop : s.flash.op = none) (hq : s.flash.queue = [y]) (hh : s.flash.held = []) (hr : resetting s 4 = false)
    (hu : y.urgent = true) (h1 : y.op = 1) (hb : y.block ≠ x.block) (hnot : flashRefusal s y = none) :
    exec .eraseSuspend s = .next { s with flash := { s.flash with suspended := true, queue := [], op := some y } } := by
  have hw : urgentWaits s x.block = true := by simp [urgentWaits, hq, hu, hb]
  have hnext : nextDesc { s with flash := { s.flash with suspended := true } } = some y :=
    nextDesc_of_suspended hop he rfl hr hq hu
  have hrun := flashRun_begins (s := { s with flash := { s.flash with suspended := true } }) hnext hq hh
    ((flashRefusal_congr rfl rfl rfl y).trans hnot) (nextDesc_beginFlash y rfl) (s.flash.queue.length + s.flash.held.length)
  rw [beginFlash_read h1] at hrun
  have hrefill : refillFlash { s with flash := { s.flash with suspended := true } } =
      { s with flash := { s.flash with suspended := true } } := refillFlash_of_held_nil hh
  rw [exec_eraseSuspend, execEraseSuspend, he]
  simp only [hs, hw, Bool.not_true, Bool.or_self, Bool.false_eq_true, if_false]
  rw [flashGo, hrefill]
  exact congrArg Host.Outcome.next hrun

/-- Without an Urgent descriptor that waits no erase is suspended (R515). -/
theorem execEraseSuspend_quiet {x : FlashDesc} {s : State} (he : s.flash.erase = some x) (hw : urgentWaits s x.block = false) :
    exec .eraseSuspend s = .next s := by
  rw [exec_eraseSuspend, execEraseSuspend, he]
  simp [hw]

theorem execEraseResume_goes_on {x : FlashDesc} {s : State} (he : s.flash.erase = some x) (hs : s.flash.suspended = true)
    (hop : s.flash.op = none) (hb : s.flash.brownout = false) (hw : urgentWaits s x.block = false) :
    exec .eraseResume s = .next { s with flash := { s.flash with suspended := false } } := by
  rw [exec_eraseResume, execEraseResume, he]
  simp [hs, hop, hb, hw]

theorem execEraseResume_waits {x : FlashDesc} {s : State} (he : s.flash.erase = some x) (hw : urgentWaits s x.block = true) :
    exec .eraseResume s = .next s := by
  rw [exec_eraseResume, execEraseResume, he]
  simp [hw]

/-- The release of a brown-out with nothing under way (R517). -/
theorem execBrownoutRelease_idle {s : State} (hb : s.flash.brownout = true) (hq : s.flash.queue = []) (hh : s.flash.held = []) :
    exec .brownoutRelease s = .next { s with flash := { s.flash with brownout := false } } := by
  rw [exec_brownoutRelease, execBrownoutRelease, if_pos hb]
  rw [flashGo_of_idle (s := { s with flash := { s.flash with brownout := false } }) hh (nextDesc_of_queue_nil hq)]

/-! What the rows leave, each with nothing waiting. -/

section
variable {x : FlashDesc} {s : State} (hq : s.flash.queue = []) (hh : s.flash.held = [])
include hq hh

/-- The end of a READ whose codewords decode (R509). -/
theorem flashReadDone_decodes {e : List Nat} (l : List (List Nat)) (m8 : List Byte) (hop : s.flash.op = some x) (h1 : x.op = 1)
    (hraw : x.raw = false) (hl : e.length = 4) (he : ∀ n ∈ e, n ≤ 40) :
    let top := e.foldl max 0
    ∃ t m o, exec (.flashReadDone (e :: l) m8) s = .next t ∧ t.flash.op = none ∧
      t.flash.correctedBits = s.flash.correctedBits + e.sum ∧ t.flash.uncorrectable = s.flash.uncorrectable ∧
      t.out = .flash (flashRecord x.descId (if param s 0x7000 1 ≤ top then 1 else 0) 0 top e.sum m) x.tag :: (o ++ s.out) ∧
      (∀ v, Tab.get? s.flash.pages (x.block * 64 + x.page) = some (some v) → m = v) ∧
      (param s 0x7000 1 ≤ top → (getBlock t x.block).refresh = true ∧
        Tab.getD t.ev.counts 0x700 0 = sat32 (Tab.getD s.ev.counts 0x700 0 + 1)) ∧
      (top < param s 0x7000 1 → getBlock t x.block = getBlock s x.block ∧ t.ev = s.ev) := by
  intro top
  rw [execFlashReadDone_decodes l m8 hop h1 hraw hl he]
  by_cases htop : param s 0x7000 1 ≤ top
  · have hn := raise_notes 0x700 [(11, x.block), (6, x.page)] (readEnded e.sum s.flash.uncorrectable s)
    have hc := raise_count_self 0x700 [(11, x.block), (6, x.page)] (readEnded e.sum s.flash.uncorrectable s)
    generalize raise 0x700 [(11, x.block), (6, x.page)] (readEnded e.sum s.flash.uncorrectable s) = u at hn hc ⊢
    obtain ⟨H, E, C, o, rfl⟩ := hn.frame
    have hblk := getBlock_updBlock_self x.block (fun v => { v with refresh := true })
      { readEnded e.sum s.flash.uncorrectable s with host := H, ev := E, health := C, out := o ++ s.out }
    obtain ⟨d, k, hgo⟩ := flashGo_posts x 1 0 top e.sum (pageMeta s x m8) (updBlock x.block (fun v => { v with refresh := true })
      { readEnded e.sum s.flash.uncorrectable s with host := H, ev := E, health := C, out := o ++ s.out }) hq hh
    rw [if_pos htop, if_pos htop]
    exact ⟨_, pageMeta s x m8, o, congrArg Host.Outcome.next hgo, rfl, rfl, rfl, rfl,
      fun v => pageMeta_of_programmed m8, fun _ => ⟨congrArg FlashBlock.refresh hblk, hc⟩, fun h => absurd htop (by omega)⟩
  · obtain ⟨d, k, hgo⟩ := flashGo_posts x 0 0 top e.sum (pageMeta s x m8) (readEnded e.sum s.flash.uncorrectable s) hq hh
    rw [if_neg htop, if_neg htop]
    exact ⟨_, pageMeta s x m8, [], congrArg Host.Outcome.next hgo, rfl, rfl, rfl, rfl,
      fun v => pageMeta_of_programmed m8, fun h => absurd h htop, fun _ => ⟨rfl, rfl⟩⟩

/-- The end of a READ whose codewords do not decode, with no retry (R510). -/
theorem flashReadDone_fails {e : List Nat} (l : List (List Nat)) (m8 : List Byte) (hop : s.flash.op = some x) (h1 : x.op = 1)
    (hraw : x.raw = false) (he : ∃ n ∈ e, 40 < n) (hno : x.noRetry = true) :
    ∃ t a b m o, exec (.flashReadDone (e :: l) m8) s = .next t ∧ t.flash.op = none ∧
      t.flash.uncorrectable = sat32 (s.flash.uncorrectable + 1) ∧ t.flash.blocks = s.flash.blocks ∧
      t.out = .flash (flashRecord x.descId 4 0 a b m) x.tag :: (o ++ s.out) ∧
      Tab.getD t.ev.counts 0x701 0 = sat32 (Tab.getD s.ev.counts 0x701 0 + 1) := by
  have hexec := execFlashReadDone_fails l m8 hop h1 hraw he hno
  extract_lets good u at hexec
  have hn : Notes [0x701] (readEnded good.sum (sat32 (s.flash.uncorrectable + 1)) s) u := raise_notes ..
  have hf := hn.flash
  obtain ⟨o, ho⟩ := hn.out
  have hc : Tab.getD u.ev.counts 0x701 0 = sat32 (Tab.getD s.ev.counts 0x701 0 + 1) := raise_count_self ..
  obtain ⟨d, k, hgo⟩ := flashGo_posts x 4 0 (good.foldl max 0) good.sum (BitVec.ofNat 64 (Config.freeNat u.drawn)) (drew u)
    ((congrArg Flash.queue hf).trans hq) ((congrArg Flash.held hf).trans hh)
  rw [hgo] at hexec
  exact ⟨_, _, _, _, o, hexec, congrArg Flash.op hf, congrArg Flash.uncorrectable hf, (congrArg Flash.blocks hf).trans rfl,
    congrArg (_ :: ·) ho, hc⟩

/-- The end of a PROGRAM (R512). -/
theorem flashProgramDone_done (hop : s.flash.op = some x) (h2 : x.op = 2) :
    ∃ t, exec (.flashProgramDone true) s = .next t ∧ t.flash.op = none ∧
      t.flash.pages = Tab.put s.flash.pages (x.block * 64 + x.page) (some x.meta8) ∧
      getBlock t x.block = { getBlock s x.block with
        nextPage := x.page + 1, state := (if x.page = 63 then .full else .opened) } ∧
      t.out = .flash (flashRecord x.descId 0 0 0 0 0) x.tag :: s.out ∧ t.ev = s.ev := by
  have hblk := getBlock_pageUsed x (some x.meta8) { s with flash := { s.flash with op := none } }
  obtain ⟨d, k, hgo⟩ := flashGo_posts x 0 0 0 0 0 (pageUsed x (some x.meta8) { s with flash := { s.flash with op := none } }) hq hh
  rw [execFlashProgramDone_of_program hop h2, if_pos rfl, hgo]
  exact ⟨_, rfl, rfl, rfl, hblk, rfl, rfl⟩

/-- A descriptor that ends with the retirement of its block (R514). -/
theorem Retires.posted {b : Nat} {u : State} (h : Retires b s u) (st : Nat) : ∃ t o,
    flashGo (postFlash x st 0 0 0 0 u) = t ∧ t.flash.op = s.flash.op ∧ t.flash.erase = s.flash.erase ∧
      (getBlock t b).state = .retired ∧ t.flash.pages = s.flash.pages ∧ t.flash.retired = s.flash.retired + 1 ∧
      t.out = .flash (flashRecord x.descId st 0 0 0 0) x.tag :: (o ++ s.out) ∧ t.ev = u.ev := by
  have hst := h.state
  obtain ⟨H, E, C, o, B, k, w, rfl⟩ := h.frame
  obtain ⟨d, l, hgo⟩ := flashGo_posts x st 0 0 0 0 { s with
    host := H, ev := E, health := C, out := o ++ s.out,
    flash := { s.flash with blocks := B, retired := s.flash.retired + 1, sparesUsed := k, sparesOut := w } } hq hh
  rw [hgo]
  exact ⟨_, o, rfl, rfl, rfl, hst, rfl, rfl, rfl, rfl⟩

/-- A PROGRAM that fails retires its block (R514). -/
theorem flashProgramDone_fails (hop : s.flash.op = some x) (h2 : x.op = 2) :
    ∃ t o, exec (.flashProgramDone false) s = .next t ∧ t.flash.op = none ∧ (getBlock t x.block).state = .retired ∧
      t.flash.pages = Tab.put s.flash.pages (x.block * 64 + x.page) none ∧
      t.flash.retired = s.flash.retired + 1 ∧ t.out = .flash (flashRecord x.descId 5 0 0 0 0) x.tag :: (o ++ s.out) ∧
      Tab.getD t.ev.counts 0x702 0 = sat32 (Tab.getD s.ev.counts 0x702 0 + 1) ∧
      Tab.getD t.ev.counts 0x704 0 = sat32 (Tab.getD s.ev.counts 0x704 0 + 1) := by
  have hn := raise_notes 0x702 [(11, x.block), (6, x.page)] (pageUsed x none { s with flash := { s.flash with op := none } })
  have hc := raise_count_self 0x702 [(11, x.block), (6, x.page)] (pageUsed x none { s with flash := { s.flash with op := none } })
  have hr := retireBlock_retires x.block
    (raise 0x702 [(11, x.block), (6, x.page)] (pageUsed x none { s with flash := { s.flash with op := none } }))
  have hf := hn.flash
  obtain ⟨o, ho⟩ := hn.out
  obtain ⟨t, p, hgo, top, -, hst, hpages, hret, hout, hev⟩ := hr.posted (x := x) ((congrArg Flash.queue hf).trans hq)
    ((congrArg Flash.held hf).trans hh) 5
  rw [execFlashProgramDone_of_program hop h2, if_neg Bool.false_ne_true, hgo]
  refine ⟨t, p ++ o, rfl, top.trans (congrArg Flash.op hf), hst, hpages.trans (congrArg Flash.pages hf),
    hret.trans (congrArg (·.retired + 1) hf), ?_, ?_, ?_⟩
  · rw [hout, ho, List.append_assoc]
    rfl
  · rw [hev, hr.counts 0x702 (by decide), hc]
    rfl
  · rw [hev, hr.counted, hn.counts 0x704 (by decide)]
    rfl

variable (hop : s.flash.op = none) (he : s.flash.erase = some x) (hs : s.flash.suspended = false)
include hop he hs

/-- The end of an ERASE below the limit of erases (R512). -/
theorem flashEraseDone_done (hl : (getBlock s x.block).eraseCount < param s 0x7000 3) :
    ∃ t, exec (.flashEraseDone true) s = .next t ∧ t.flash.erase = none ∧
      getBlock t x.block = { getBlock s x.block with state := .free, refresh := false, nextPage := 0, sealed := false } ∧
      (∀ k, k / 64 = x.block → Tab.get? t.flash.pages k = none) ∧
      t.out = .flash (flashRecord x.descId 0 0 0 0 0) x.tag :: s.out ∧ t.ev = s.ev := by
  have hblk : getBlock (erased x.block s) x.block =
      { getBlock s x.block with state := .free, refresh := false, nextPage := 0, sealed := false } := getBlock_setBlock_self ..
  obtain ⟨d, k, hgo⟩ := flashGo_posts x 0 0 0 0 0 (erased x.block s) hq hh
  rw [execFlashEraseDone_of_erase he hs hop, if_pos rfl, if_neg (by omega), hgo]
  exact ⟨_, rfl, rfl, hblk, fun k hk => get?_pages_erased hk s, rfl, rfl⟩

/-- The end of an ERASE at the limit of erases retires its block (R514). -/
theorem flashEraseDone_worn (hl : param s 0x7000 3 ≤ (getBlock s x.block).eraseCount) :
    ∃ t o, exec (.flashEraseDone true) s = .next t ∧ t.flash.erase = none ∧ (getBlock t x.block).state = .retired ∧
      t.flash.retired = s.flash.retired + 1 ∧ t.out = .flash (flashRecord x.descId 0 0 0 0 0) x.tag :: (o ++ s.out) := by
  obtain ⟨t, o, hgo, -, her, hst, -, hret, hout, -⟩ := Retires.posted (x := x) (s := erased x.block s) hq hh
    (retireBlock_retires x.block (erased x.block s)) 0
  rw [execFlashEraseDone_of_erase he hs hop, if_pos rfl, if_pos hl, hgo]
  exact ⟨t, o, rfl, her, hst, hret, hout⟩

/-- An ERASE that fails retires its block (R514). -/
theorem flashEraseDone_fails :
    ∃ t o, exec (.flashEraseDone false) s = .next t ∧ t.flash.erase = none ∧ (getBlock t x.block).state = .retired ∧
      t.flash.retired = s.flash.retired + 1 ∧ t.out = .flash (flashRecord x.descId 6 0 0 0 0) x.tag :: (o ++ s.out) ∧
      Tab.getD t.ev.counts 0x703 0 = sat32 (Tab.getD s.ev.counts 0x703 0 + 1) := by
  have hn := raise_notes 0x703 [(11, x.block)] { s with flash := { s.flash with erase := none } }
  have hc := raise_count_self 0x703 [(11, x.block)] { s with flash := { s.flash with erase := none } }
  have hr := retireBlock_retires x.block (raise 0x703 [(11, x.block)] { s with flash := { s.flash with erase := none } })
  have hf := hn.flash
  obtain ⟨o, ho⟩ := hn.out
  obtain ⟨t, p, hgo, -, her, hst, -, hret, hout, hev⟩ := hr.posted (x := x) ((congrArg Flash.queue hf).trans hq)
    ((congrArg Flash.held hf).trans hh) 6
  rw [execFlashEraseDone_of_erase he hs hop, if_neg Bool.false_ne_true, hgo]
  refine ⟨t, p ++ o, rfl, her.trans (congrArg Flash.erase hf), hst, hret.trans (congrArg (·.retired + 1) hf), ?_, ?_⟩
  · rw [hout, ho, List.append_assoc]
  · rw [hev, hr.counts 0x703 (by decide), hc]

end

/-- A brown-out while an erase alone is in progress ends it (R517). -/
theorem brownout_ends_erase {s : State} {x : FlashDesc} {o : List Out} (ho : (dimmed s).out = o ++ s.out) (hop : s.flash.op = none)
    (hq : s.flash.queue = []) (hh : s.flash.held = []) (he : s.flash.erase = some x) :
    let t := flashGo (endWaiting (interruptFlash (dimmed s)))
    t.flash.blocks = s.flash.blocks ∧ t.out = .flash (flashRecord x.descId 3 0 0 0 0) x.tag :: (o ++ s.out) := by
  have hf := (raise_notes 0x706 [] { s with
    flash := { s.flash with brownout := true, brownouts := sat32 (s.flash.brownouts + 1) } }).flash
  have hop' : (dimmed s).flash.op = none := (congrArg Flash.op hf).trans hop
  have he' : (dimmed s).flash.erase = some x := (congrArg Flash.erase hf).trans he
  have hq' : (dimmed s).flash.queue = [] := (congrArg Flash.queue hf).trans hq
  have hh' : (dimmed s).flash.held = [] := (congrArg Flash.held hf).trans hh
  have hb : (dimmed s).flash.blocks = s.flash.blocks := (congrArg Flash.blocks hf).trans rfl
  obtain ⟨d, l, hp⟩ := postFlash_eq x 3 0 0 0 0 { dimmed s with flash := { (dimmed s).flash with erase := none, suspended := false } }
  have hint := interruptFlash_eq (dimmed s)
  rw [interruptOp_of_none hop', interruptErase_of_some he', hp] at hint
  generalize interruptFlash (dimmed s) = u at hint ⊢
  have hqu : u.flash.queue = [] := by
    rw [hint]
    exact hq'
  have hhu : u.flash.held = [] := by
    rw [hint]
    exact hh'
  rw [endWaiting_nil hqu, flashGo_of_idle hhu (nextDesc_of_queue_nil hqu), hint]
  exact ⟨hb, congrArg (_ :: ·) ho⟩

/-- A brown-out while a PROGRAM is in progress seals its block, and what waits and is no READ ends (R517, R518). -/
theorem brownout_ends_program {s : State} {x y : FlashDesc} {o : List Out} (ho : (dimmed s).out = o ++ s.out)
    (hop : s.flash.op = some x) (h2 : x.op = 2) (he : s.flash.erase = none) (hq : s.flash.queue = [y]) (hy : y.op = 2 ∨ y.op = 3)
    (hh : s.flash.held = []) : let t := flashGo (endWaiting (interruptFlash (dimmed s)))
    t.flash.op = none ∧ t.flash.queue = [] ∧ t.flash.pages = Tab.put s.flash.pages (x.block * 64 + x.page) none ∧
      (getBlock t x.block).sealed = true ∧ (getBlock t x.block).refresh = true ∧
      t.out = .flash (flashRecord y.descId 3 0 0 0 0) y.tag :: .flash (flashRecord x.descId 3 0 0 0 0) x.tag :: (o ++ s.out) := by
  have hf := (raise_notes 0x706 [] { s with
    flash := { s.flash with brownout := true, brownouts := sat32 (s.flash.brownouts + 1) } }).flash
  have hop' : (dimmed s).flash.op = some x := (congrArg Flash.op hf).trans hop
  have he' : (dimmed s).flash.erase = none := (congrArg Flash.erase hf).trans he
  have hq' : (dimmed s).flash.queue = [y] := (congrArg Flash.queue hf).trans hq
  have hh' : (dimmed s).flash.held = [] := (congrArg Flash.held hf).trans hh
  have hpages : (dimmed s).flash.pages = s.flash.pages := (congrArg Flash.pages hf).trans rfl
  have hblk := getBlock_updBlock_self x.block (fun v => { v with sealed := true, refresh := true })
    (pageUsed x none { dimmed s with flash := { (dimmed s).flash with op := none } })
  obtain ⟨d, l, hp⟩ := postFlash_eq x 3 0 0 0 0 (updBlock x.block (fun v => { v with sealed := true, refresh := true })
    (pageUsed x none { dimmed s with flash := { (dimmed s).flash with op := none } }))
  have hint := interruptFlash_eq (dimmed s)
  rw [interruptOp_of_program hop' h2, hp] at hint
  replace hint := hint.trans (interruptErase_of_none he')
  generalize interruptFlash (dimmed s) = u at hint ⊢
  have hqu : u.flash.queue = [y] := by
    rw [hint]
    exact hq'
  have hhu : u.flash.held = [] := by
    rw [hint]
    exact hh'
  have hopu : u.flash.op = none := by rw [hint]; rfl
  have hpu : u.flash.pages = Tab.put s.flash.pages (x.block * 64 + x.page) none := by
    rw [hint, ← hpages]
    rfl
  have hbu : (getBlock u x.block).sealed = true ∧ (getBlock u x.block).refresh = true := by
    rw [hint]
    exact ⟨congrArg FlashBlock.sealed hblk, congrArg FlashBlock.refresh hblk⟩
  have hou : u.out = .flash (flashRecord x.descId 3 0 0 0 0) x.tag :: (o ++ s.out) := by
    rw [hint]
    exact congrArg (_ :: ·) ho
  have hy1 : y.op ≠ 1 := by omega
  obtain ⟨n, m, d', l', hm, hr⟩ := refuseFlash_eq y 3 { u with flash := { u.flash with queue := [] } }
  have hgo := flashGo_of_idle (s := refuseFlash y 3 { u with flash := { u.flash with queue := [] } })
    (by rw [hr]; exact hhu) (nextDesc_refuseFlash y 3 rfl)
  rw [endWaiting_single hqu hy, hgo, hr, hm hy1]
  exact ⟨hopu, rfl, hpu, hbu.1, hbu.2, congrArg (_ :: ·) hou⟩

/-- Settles O54: a descriptor by what is under way and what refuses it, each end of an operation by its record, the brown-out by
what it interrupts. -/
theorem flashWorks : Obligations.FlashWorks := by
  unfold Obligations.FlashWorks
  refine ⟨fun desc i x0 x s hrow hx => ?_, fun x e l m8 s hop h1 hraw _ hq hh hl =>
      ⟨flashReadDone_decodes hq hh l m8 hop h1 hraw hl, flashReadDone_fails hq hh l m8 hop h1 hraw⟩,
    fun x s hop h2 _ hq hh => ⟨flashProgramDone_done hq hh hop h2, flashProgramDone_fails hq hh hop h2⟩,
    fun x s he hs hop hq hh => ⟨flashEraseDone_done hq hh hop he hs, flashEraseDone_worn hq hh hop he hs,
      flashEraseDone_fails hq hh hop he hs⟩, fun x y s he => ⟨fun hs hop hq hh hr hu h1 hb hnot => ?_, execEraseSuspend_quiet he,
      fun hs hop hb => ⟨execEraseResume_goes_on he hs hop hb, execEraseResume_waits he⟩⟩,
    fun core b p s hc hop he hq hh hr hret hinc hers => ?_, fun s => ⟨fun h => ?_, fun h => ?_, fun hb _ _ => execBrownoutRelease_idle hb⟩⟩
  · obtain ⟨hcore, hclosed, hsub⟩ := submits_of_row (s := s) hrow
    obtain rfl : x = { x0 with tag := (agentTag (agCore + x0.core.getD 0) s).1 } := by rw [hx, hcore]; rfl
    refine ⟨hclosed, fun hopen => ?_⟩
    rw [hsub hopen, submitFlash_eq]
    refine ⟨fun hop he hq hh hr => ⟨fun hnot => ?_, fun st hst => ?_⟩, fun hop hh hq => ?_, fun hop hq => ?_⟩
    · have hrest : FlashRest s := ⟨hop, he, hq, hh, hr⟩
      have hrest' := hrest.numbered (agCore + x0.core.getD 0)
      rw [hrest'.starts ((flashRefusal_congr rfl rfl rfl _).trans hnot)]
      exact ⟨_, rfl, beginFlash_begins hrest' (op_of_not_refused hnot)⟩
    · have hrest : FlashRest s := ⟨hop, he, hq, hh, hr⟩
      rw [(hrest.numbered (agCore + x0.core.getD 0)).refuses ((flashRefusal_congr rfl rfl rfl _).trans hst)]
      obtain ⟨n, m, d, l, -, hend⟩ := refuseFlash_eq { x0 with tag := (agentTag (agCore + x0.core.getD 0) s).1 } st
        (agentTag (agCore + x0.core.getD 0) s).2
      rw [hend]
      exact ⟨_, m, rfl, rfl, hop, he, hq, rfl, rfl⟩
    · exact ⟨_, congrArg Host.Outcome.next (flashGo_handed_waits (s := (agentTag (agCore + x0.core.getD 0) s).2) _ hop hh hq), rfl, rfl⟩
    · exact ⟨_, congrArg Host.Outcome.next (flashGo_handed_full (s := (agentTag (agCore + x0.core.getD 0) s).2) _ hop hq), rfl, rfl⟩
  · exact ⟨_, execEraseSuspend_reads he hs hop hq hh hr hu h1 hb hnot, rfl, rfl⟩
  · have hcore : core.val < 65536 := by omega
    obtain ⟨h1, hblk, hpage, hu, -⟩ := fields_of_fetch hcore b.isLt p.isLt (x := fetchOf core.val b.val p.val s) rfl
    have hexec := execFetchMiss_starts hc ⟨hop, he, hq, hh, hr⟩ hret hinc hers (p := p)
    rw [beginFlash_read h1] at hexec
    exact ⟨_, fetchOf core.val b.val p.val s, hexec, rfl, h1, hblk, hpage, hu, rfl, rfl, rfl, rfl⟩
  · rw [exec_vflBrownout, execVflBrownout, if_pos h]
  · obtain ⟨o, ho, hb, hbs, he, hev⟩ := brownout_dims (s := s)
    exact ⟨_, o, execVflBrownout_of_clear h, hb, hbs, he, hev, fun hop hq hh x hx => brownout_ends_erase ho hop hq hh hx,
      fun x y hop h2 hno hq hy hh => brownout_ends_program ho hop h2 hno hq hy hh⟩

end Sys2Proof.Machine
end

section
/-! SUPPORT. The guard, the datasets and a transport fault leave the control side alone (R99, R359, R468). -/

namespace Sys2Proof.Machine

/-- A plain change of fields that are not of the control side. -/
theorem CtlKept.same {s0 s t : State} (h : CtlKept s0 s) (k : CtlKept s t) : CtlKept s0 t :=
  h.upd k.time k.tlcs k.tce k.dict k.staxa k.flash k.lc k.resets k.health

theorem CtlKept.withWr {s0 s : State} (h : CtlKept s0 s) (w : Wr) : CtlKept s0 { s with wr := w } :=
  h.same ⟨rfl, rfl, rfl, rfl, rfl, rfl, rfl, rfl, rfl⟩

theorem CtlKept.withCart {s0 s : State} (h : CtlKept s0 s) (c : Cart) : CtlKept s0 { s with cart := c } :=
  h.same ⟨rfl, rfl, rfl, rfl, rfl, rfl, rfl, rfl, rfl⟩

theorem CtlKept.withRd {s0 s : State} (h : CtlKept s0 s) (r : Rd) : CtlKept s0 { s with rd := r } :=
  h.same ⟨rfl, rfl, rfl, rfl, rfl, rfl, rfl, rfl, rfl⟩

/-! The write guard. -/

theorem setGates_ctlKept {s0 s : State} (h : CtlKept s0 s) (on : Bool) : CtlKept s0 (setGates on s) := by
  unfold setGates
  refine CtlKept.ite h ?_
  exact emit_ctlKept (h.withWr _) _

theorem updDs_ctlKept {s0 s : State} (h : CtlKept s0 s) (id : Nat) (g : Dataset → Dataset) : CtlKept s0 (updDs id g s) :=
  h.withWr _

theorem loseSectors_ctlKept {s0 s : State} (h : CtlKept s0 s) (d : Dataset) (l : List (Nat × Nat)) :
    CtlKept s0 (loseSectors d l s) := by
  unfold loseSectors
  refine CtlKept.ite h (failDs_ctlKept ?_ ..)
  have hfold : CtlKept s0 (l.foldl (fun s p => raise 0x550 []
      (updDs d.id (fun d => d.putSector p.2 p.1 { d.sector p.2 p.1 with st := .lost }) s)) s) :=
    CtlKept.foldl h fun t p ht => raise_ctlKept (updDs_ctlKept ht ..) ..
  exact hfold.withWr _

theorem cutCopy_ctlKept {s0 s : State} (h : CtlKept s0 s) (n home row : Nat) : CtlKept s0 (cutCopy n home row s) := by
  unfold cutCopy
  split
  · exact h
  · refine CtlKept.ite h (CtlKept.ite ?_ (loseSectors_ctlKept ?_ ..)) <;> exact updDs_ctlKept h ..

theorem cutImage_ctlKept {s0 s : State} (h : CtlKept s0 s) (d : Dataset) (i : Image) : CtlKept s0 (cutImage d i s) := by
  unfold cutImage
  exact CtlKept.ite (updDs_ctlKept h ..) (CtlKept.ite h (cutCopy_ctlKept h ..))

theorem countFail_ctlKept {s0 s : State} (h : CtlKept s0 s) (p under : Nat) : CtlKept s0 (countFail p under s) :=
  raiseIf_ctlKept (updChan_ctlKept h ..) ..

theorem cutSlot_ctlKept {s0 s : State} (h : CtlKept s0 s) (d : Dataset) : CtlKept s0 (cutSlot d s) := by
  refine CtlKept.foldl h fun t p ht => ?_
  split
  · exact ht
  · dsimp only
    exact CtlKept.ite (cutImage_ctlKept (updChan_ctlKept ht ..) ..)
      (countFail_ctlKept (cutImage_ctlKept (updChan_ctlKept ht ..) ..) ..)

theorem countInhibit_ctlKept {s0 s : State} (h : CtlKept s0 s) (d : Dataset) : CtlKept s0 (countInhibit d s) := by
  unfold countInhibit
  exact CtlKept.ite (failDs_ctlKept (updDs_ctlKept h ..) ..) (updDs_ctlKept h ..)

/-- An onset of the write guard leaves the control side alone (R359-R362). -/
theorem guardOnset_ctlKept {s0 s : State} (h : CtlKept s0 s) (bit : Nat) : CtlKept s0 (guardOnset bit s) := by
  unfold guardOnset
  dsimp only
  refine CtlKept.ite (h.withWr _) ?_
  split
  · exact countInhibit_ctlKept (CtlKept.ite (cutSlot_ctlKept (setGates_ctlKept (raise_ctlKept ((h.withWr _).withWr _) ..) _) _)
      (raise_ctlKept ((h.withWr _).withWr _) ..)) _
  · have hr := raise_ctlKept ((h.withWr { s.wr with
      guardPos := s.wr.guardPos || bit == 1, guardShock := s.wr.guardShock || bit == 2,
      guardClock := s.wr.guardClock || bit == 4 }).withWr { s.wr with
      guardPos := s.wr.guardPos || bit == 1, guardShock := s.wr.guardShock || bit == 2,
      guardClock := s.wr.guardClock || bit == 4, inhibitCount := s.wr.inhibitCount + 1 }) 0x620
    exact (hr _).same ⟨rfl, rfl, rfl, rfl, rfl, rfl, rfl, rfl, rfl⟩

theorem guardTick_ctlKept {s0 s : State} (h : CtlKept s0 s) : CtlKept s0 (guardTick s) :=
  h.same ⟨rfl, rfl, rfl, rfl, rfl, rfl, rfl, rfl, rfl⟩

theorem guardSample_ctlKept {s0 s : State} (h : CtlKept s0 s) (exceeds : Bool) : CtlKept s0 (guardSample exceeds s) := by
  unfold guardSample
  exact CtlKept.ite (guardOnset_ctlKept (guardTick_ctlKept (h.withWr _)) 1) (guardTick_ctlKept (h.withWr _))

/-! What a transport fault does to the cartridge. -/

theorem dropCkpt_ctlKept {s0 s : State} (h : CtlKept s0 s) : CtlKept s0 (dropCkpt s) := by
  unfold dropCkpt
  split
  · exact dropHeld_ctlKept (freeOpt_ctlKept (h.withWr _) ..) _
  · exact h

theorem emptyBanks_ctlKept {s0 s : State} (h : CtlKept s0 s) : CtlKept s0 (emptyBanks s) :=
  h.same ⟨rfl, rfl, rfl, rfl, rfl, rfl, rfl, rfl, rfl⟩

theorem sweep_ctlKept {s0 s : State} (h : CtlKept s0 s) : CtlKept s0 (sweep s) := by
  unfold sweep
  dsimp only
  exact CtlKept.foldl (h.withWr _) fun t d ht => freeOpt_ctlKept ht ..

theorem faultLoad_ctlKept {s0 s : State} (h : CtlKept s0 s) : CtlKept s0 (faultLoad s) := by
  unfold faultLoad
  split
  · exact h
  · dsimp only
    split
    · exact finish_ctlKept (h.withCart _) ..
    · exact raise_ctlKept (h.withCart _) ..

theorem faultFormat_ctlKept {s0 s : State} (h : CtlKept s0 s) : CtlKept s0 (faultFormat s) := by
  unfold faultFormat
  split
  · exact finish_ctlKept (onPost_ctlKept (h.withCart _) ..) ..
  · exact h

theorem faultWaits_ctlKept {s0 s : State} (h : CtlKept s0 s) : CtlKept s0 (faultWaits s) := by
  unfold faultWaits
  dsimp only
  refine CtlKept.foldl ?_ fun t p ht => endCreate_ctlKept ht ..
  refine CtlKept.withWr ?_ _
  refine CtlKept.foldl h fun t slot ht => ?_
  split
  · split
    · exact CtlKept.ite (finish_ctlKept ht ..) ht
    · exact ht
  · exact ht

theorem faultRebuild_ctlKept {s0 s : State} (h : CtlKept s0 s) : CtlKept s0 (faultRebuild s) := by
  unfold faultRebuild
  split
  · exact setStage_ctlKept h ..
  · exact h

/-- The cartridge after a transport fault: what the control side holds is as it was (R99, R352, R468). -/
theorem cartFault_ctlKept {s0 s : State} (h : CtlKept s0 s) : CtlKept s0 (cartFault s) := by
  unfold cartFault
  dsimp only
  refine CtlKept.ite h ?_
  refine settle_ctlKept (faultWaits_ctlKept (faultFormat_ctlKept (faultLoad_ctlKept (sweep_ctlKept (failHeld_ctlKept ?_ _)))))
  refine CtlKept.foldl (faultRebuild_ctlKept (CtlKept.withRd ?_ _)) fun t d ht => CtlKept.ite ht (failDs_ctlKept ht ..)
  split
  · refine dropHeld_ctlKept (freeOpt_ctlKept ?_ ..) _
    exact emptyBanks_ctlKept (setGates_ctlKept ((dropCkpt_ctlKept (raiseIf_ctlKept (h.withCart _) ..)).withWr _) _)
  · exact emptyBanks_ctlKept (setGates_ctlKept ((dropCkpt_ctlKept (raiseIf_ctlKept (h.withCart _) ..)).withWr _) _)

end Sys2Proof.Machine
end

section
/-! SUPPORT. What frames, faults and outputs change of the transport (R447, R455, R468, R470). -/

namespace Sys2Proof.Machine

/-! What frames, faults and the outputs of the loops leave of the transport. -/

/-- `t` follows from `s` by frames to the stages, latched faults and counted samples: of the transport its state, faults, stops, the
link and the saturation counts can change, and of each loop what is no measurement; the clock and the entries stay (R447, R455,
R468, R470). -/
structure Driven (s t : State) : Prop where
  tce : ∃ F S C K L Q A T H U, t.tce = { s.tce with
    faults := F, state := S, ctlStop := C, stopFrames := K, loops := L, aslSeq := Q, aslSilent := A, sat := T, hourSamples := H, hourSat := U }
  measured : ∀ l, (loopOf t l).measured = (loopOf s l).measured
  tlcs : t.tlcs = s.tlcs
  dict : t.dict = s.dict

theorem Driven.refl (s : State) : Driven s s := ⟨⟨_, _, _, _, _, _, _, _, _, _, rfl⟩, fun _ => rfl, rfl, rfl⟩

theorem Driven.trans {s t u : State} (h : Driven s t) (k : Driven t u) : Driven s u where
  tce := by
    obtain ⟨_, _, _, _, _, _, _, _, _, _, ht⟩ := h.tce
    obtain ⟨F, S, C, K, L, Q, A, T, H, U, hu⟩ := k.tce
    exact ⟨F, S, C, K, L, Q, A, T, H, U, by rw [hu, ht]⟩
  measured l := (k.measured l).trans (h.measured l)
  tlcs := k.tlcs.trans h.tlcs
  dict := k.dict.trans h.dict

theorem Driven.symm {s t : State} (h : Driven s t) : Driven t s where
  tce := by
    obtain ⟨_, _, _, _, _, _, _, _, _, _, ht⟩ := h.tce
    exact ⟨s.tce.faults, s.tce.state, s.tce.ctlStop, s.tce.stopFrames, s.tce.loops, s.tce.aslSeq, s.tce.aslSilent, s.tce.sat,
      s.tce.hourSamples, s.tce.hourSat, by rw [ht]⟩
  measured l := (h.measured l).symm
  tlcs := h.tlcs.symm
  dict := h.dict.symm

theorem Driven.ite {s a b : State} {p : Prop} [Decidable p] (ha : Driven s a) (hb : Driven s b) : Driven s (if p then a else b) := by
  split
  · exact ha
  · exact hb

/-- A change outside the transport and the clock. -/
theorem Driven.of_tce {s t : State} (h : t.tce = s.tce) (k : t.tlcs = s.tlcs) (d : t.dict = s.dict) : Driven s t :=
  ⟨⟨_, _, _, _, _, _, _, _, _, _, h⟩, fun l => by rw [loopOf, h, loopOf], k, d⟩

theorem Driven.of_ctlKept {s t : State} (h : CtlKept s t) : Driven s t := .of_tce h.tce h.tlcs h.dict

/-- A change of the transport that leaves the loops alone. -/
theorem Driven.of_loops {s t : State} (h : ∃ F S C K Q A T H U, t.tce = { s.tce with
      faults := F, state := S, ctlStop := C, stopFrames := K, aslSeq := Q, aslSilent := A, sat := T, hourSamples := H, hourSat := U })
    (k : t.tlcs = s.tlcs) (d : t.dict = s.dict) : Driven s t := by
  obtain ⟨F, S, C, K, Q, A, T, H, U, h⟩ := h
  exact ⟨⟨F, S, C, K, _, Q, A, T, H, U, h⟩, fun l => by rw [loopOf, h, loopOf], k, d⟩

theorem raise_driven (n : Nat) (l : List (Nat × Nat)) (s : State) : Driven s (raise n l s) := .of_tce (raise_tce ..) (raise_tlcs ..) (raise_dict ..)

theorem raiseIf_driven (b : Bool) (n : Nat) (l : List (Nat × Nat)) (s : State) : Driven s (raiseIf b n l s) :=
  .of_ctlKept (raiseIf_ctlKept (.refl s) ..)

theorem sendAsl_driven (addr ftype : Nat) (value : Int) (s : State) : Driven s (sendAsl addr ftype value s) :=
  .of_loops ⟨_, _, _, _, _, _, _, _, _, rfl⟩ rfl rfl

theorem sendAll_driven (ftype : Nat) (addrs : List Nat) (s : State) : Driven s (sendAll ftype addrs s) := by
  unfold sendAll
  induction addrs generalizing s with
  | nil => exact .refl s
  | cons a l ih => exact (sendAsl_driven a ftype 0 s).trans (ih _)

/-- A loop after it or another one is replaced. -/
theorem loopOf_setLoop (l k : Nat) (v : Loop) (s : State) :
    loopOf (setLoop l v s) k = if l = k ∧ k < s.tce.loops.length then v else loopOf s k := by
  simp only [loopOf, setLoop, setAt, List.getD_eq_getElem?_getD, List.getElem?_set]
  by_cases hl : l = k
  · subst hl
    by_cases hk : l < s.tce.loops.length
    · simp [hk]
    · simp [hk]
  · simp [hl]

theorem loopOf_setLoop_self {l : Nat} {s : State} (h : l < s.tce.loops.length) (v : Loop) : loopOf (setLoop l v s) l = v := by
  rw [loopOf_setLoop, if_pos ⟨rfl, h⟩]

theorem loopOf_setLoop_ne {l k : Nat} (h : l ≠ k) (v : Loop) (s : State) : loopOf (setLoop l v s) k = loopOf s k := by
  rw [loopOf_setLoop, if_neg fun e => h e.1]

@[simp] theorem setLoop_length (l : Nat) (v : Loop) (s : State) : (setLoop l v s).tce.loops.length = s.tce.loops.length :=
  List.length_set ..

/-- A loop whose measurement stays is driven. -/
theorem setLoop_driven {l : Nat} {v : Loop} {s : State} (h : v.measured = (loopOf s l).measured) : Driven s (setLoop l v s) := by
  refine ⟨⟨_, _, _, _, _, _, _, _, _, _, rfl⟩, fun k => ?_, rfl, rfl⟩
  rw [loopOf_setLoop]
  split
  · next hk => rw [h, hk.1]
  · rfl

theorem retarget_driven (l : Nat) (target : Int) (s : State) : Driven s (retarget l target s) := setLoop_driven rfl

theorem zeroOutputs_driven (s : State) : Driven s (zeroOutputs s) := by
  refine ⟨⟨_, _, _, _, _, _, _, _, _, _, rfl⟩, fun k => ?_, rfl, rfl⟩
  simp only [loopOf, zeroOutputs, List.getD_eq_getElem?_getD, List.getElem?_map]
  cases s.tce.loops[k]? <;> rfl

theorem stopFor_driven (bit : Nat) (s : State) : Driven s (stopFor bit s) := by
  unfold stopFor
  have hctl : Driven s { s with tce := { s.tce with ctlStop := true } } := .of_loops ⟨_, _, _, _, _, _, _, _, _, rfl⟩ rfl rfl
  exact Driven.ite (Driven.ite (.refl s) (hctl.trans (retarget_driven 3 0 _)))
    (Driven.ite (.of_loops ⟨_, _, _, _, _, _, _, _, _, rfl⟩ rfl rfl) (.refl s))

/-- A latched fault (R468). -/
theorem tceFault_driven (bit : Nat) (s : State) : Driven s (tceFault bit s) := by
  unfold tceFault
  refine Driven.ite (.refl s) ?_
  have hlatch : Driven s { s with tce := { s.tce with faults := s.tce.faults ||| BitVec.ofNat 32 (2 ^ bit) } } :=
    .of_loops ⟨_, _, _, _, _, _, _, _, _, rfl⟩ rfl rfl
  have hraise := hlatch.trans (raise_driven (0x600 + bit) [] _)
  refine Driven.trans ?_ (.of_ctlKept (cartFault_ctlKept (.refl _)))
  have hstop : Driven s (if (raise (0x600 + bit) [] { s with tce := { s.tce with
      faults := s.tce.faults ||| BitVec.ofNat 32 (2 ^ bit) } }).tce.state = .off then _ else _) :=
    Driven.ite hraise (hraise.trans (stopFor_driven bit _))
  exact Driven.ite (hstop.trans (.of_loops ⟨_, _, _, _, _, _, _, _, _, rfl⟩ rfl rfl)) hstop

theorem faultIf_driven (b : Bool) (bit : Nat) (s : State) : Driven s (faultIf b bit s) :=
  Driven.ite (tceFault_driven bit s) (.refl s)

theorem aslCheck_driven (s : State) : Driven s (aslCheck s) := faultIf_driven ..

theorem setFlags_driven (l flags : Nat) (s : State) : Driven s (setFlags l flags s) := by
  have hsat (v : BitVec 64) : Driven s { s with tce := { s.tce with sat := v } } := .of_loops ⟨_, _, _, _, _, _, _, _, _, rfl⟩ rfl rfl
  exact (hsat _).trans (raiseIf_driven ..)

theorem countHour_driven (l : Nat) (outSat : Bool) (s : State) : Driven s (countHour l outSat s) := by
  unfold countHour
  exact Driven.ite (.refl s) (.of_loops ⟨_, _, _, _, _, _, _, _, _, rfl⟩ rfl rfl)

theorem sendOutput_driven (l : Nat) (s : State) : Driven s (sendOutput l s) := by
  unfold sendOutput
  exact Driven.ite (.refl s) ((sendAsl_driven ..).trans (aslCheck_driven _))

theorem stopFramesStep_driven (s : State) : Driven s (stopFramesStep s) := by
  unfold stopFramesStep
  have hframes (n : Nat) : Driven s { s with tce := { s.tce with stopFrames := n } } := .of_loops ⟨_, _, _, _, _, _, _, _, _, rfl⟩ rfl rfl
  exact Driven.ite (((hframes 1).trans (sendAll_driven ..)).trans (zeroOutputs_driven _))
    (Driven.ite ((hframes 0).trans (sendAll_driven ..)) (.refl s))

/-! A sample of a loop. -/

/-- The ramp takes the measurement (R461). -/
@[simp] theorem rampStep_measured (step measured : Int) (p : Loop) : (rampStep step measured p).measured = measured := by
  unfold rampStep
  dsimp only
  split
  · rfl
  · split
    · split <;> rfl
    · rfl

/-- The loop that a sample leaves before its output goes out (R456). -/
def sampledLoop (l : Nat) (step measured : Int) (den : Nat) (ff : Int → Int) (s : State) : Loop :=
  let p := rampStep step measured (loopOf s l)
  (chain s l (p.setpoint - measured) den (ff (if (loopOf s l).newTarget then 0 else p.setpoint - (loopOf s l).setpoint)) p).loop

theorem sampledLoop_measured (l : Nat) (step measured : Int) (den : Nat) (ff : Int → Int) (s : State) :
    (sampledLoop l step measured den ff s).measured = measured :=
  rampStep_measured ..

/-- A sample drives the transport with the loop that it leaves (R445, R456). -/
theorem sampleLoop_driven (l : Nat) (step measured : Int) (den : Nat) (ff : Int → Int) (overrun : Bool) (s : State) :
    Driven (setLoop l (sampledLoop l step measured den ff s) s) (sampleLoop l step measured den ff overrun s) := by
  unfold sampleLoop
  exact Driven.ite (((setFlags_driven ..).trans (countHour_driven ..)).trans (tceFault_driven ..))
    (((setFlags_driven ..).trans (countHour_driven ..)).trans (sendOutput_driven ..))

/-- A sample leaves its measurement in the loop. -/
theorem sampleLoop_measures {l : Nat} {s : State} (h : l < s.tce.loops.length) (step measured : Int) (den : Nat) (ff : Int → Int)
    (overrun : Bool) : (loopOf (sampleLoop l step measured den ff overrun s) l).measured = measured := by
  rw [(sampleLoop_driven ..).measured, loopOf_setLoop_self h, sampledLoop_measured]

end Sys2Proof.Machine
end

section
/-! PROOFS. The LAT sample (R444, R445, R447, R449). -/

namespace Sys2Proof.Machine

/-! What a driven transport keeps. -/

theorem Driven.frame {s t : State} (h : Driven s t) : t.tce.frame = s.tce.frame := by
  obtain ⟨_, _, _, _, _, _, _, _, _, _, e⟩ := h.tce; rw [e]

theorem Driven.pes {s t : State} (h : Driven s t) : t.tce.pes = s.tce.pes := by
  obtain ⟨_, _, _, _, _, _, _, _, _, _, e⟩ := h.tce; rw [e]

theorem Driven.lossCount {s t : State} (h : Driven s t) : t.tce.lossCount = s.tce.lossCount := by
  obtain ⟨_, _, _, _, _, _, _, _, _, _, e⟩ := h.tce; rw [e]

theorem Driven.seek {s t : State} (h : Driven s t) : t.tce.seek = s.tce.seek := by
  obtain ⟨_, _, _, _, _, _, _, _, _, _, e⟩ := h.tce; rw [e]

theorem Driven.tension {s t : State} (h : Driven s t) : t.tce.tension = s.tce.tension := by
  obtain ⟨_, _, _, _, _, _, _, _, _, _, e⟩ := h.tce; rw [e]

theorem Driven.region {s t : State} (h : Driven s t) : t.tce.region = s.tce.region := by
  obtain ⟨_, _, _, _, _, _, _, _, _, _, e⟩ := h.tce; rw [e]

theorem Driven.width {s t : State} (h : Driven s t) : t.tce.width = s.tce.width := by
  obtain ⟨_, _, _, _, _, _, _, _, _, _, e⟩ := h.tce; rw [e]

theorem Driven.bandSum {s t : State} (h : Driven s t) : t.tce.bandSum = s.tce.bandSum := by
  obtain ⟨_, _, _, _, _, _, _, _, _, _, e⟩ := h.tce; rw [e]

theorem Driven.bandCount {s t : State} (h : Driven s t) : t.tce.bandCount = s.tce.bandCount := by
  obtain ⟨_, _, _, _, _, _, _, _, _, _, e⟩ := h.tce; rw [e]

/-- The error of a band follows from the readers, the target and the entries (R449). -/
theorem bandPes2_congr {s t : State} (hr : t.tce.readers = s.tce.readers) (hw : t.tce.wrap = s.tce.wrap)
    (ho : t.tce.readOffset = s.tce.readOffset) (hd : t.dict = s.dict) (b : Nat) : bandPes2 t b = bandPes2 s b := by
  simp only [bandPes2, readerPes, readerTarget, entryBytesOf, hr, hw, ho, hd]

theorem Driven.bandPes2 {s t : State} (h : Driven s t) (b : Nat) : bandPes2 t b = bandPes2 s b := by
  obtain ⟨_, _, _, _, _, _, _, _, _, _, e⟩ := h.tce
  exact bandPes2_congr (by rw [e]) (by rw [e]) (by rw [e]) h.dict b

/-! LAT (R447, R449). -/

/-- Without a seek the measurement is the readers' mean (R449). -/
theorem latMeasure_of_readers {s : State} (h : s.tce.seek = false) {p : Int} (hp : (bandPes2 s 0).or (bandPes2 s 1) = some p) :
    latMeasure s = (roundDiv p 2, false) := by
  unfold latMeasure
  rw [if_neg (by simp [h]), hp]

/-- With no valid reader the last measurement stands, and counts as lost (R449). -/
theorem latMeasure_of_lost {s : State} (h : s.tce.seek = false) (hp : (bandPes2 s 0).or (bandPes2 s 1) = none) :
    latMeasure s = (s.tce.pes, true) := by
  unfold latMeasure
  rw [if_neg (by simp [h]), hp]

/-- The sums of the bands are not part of the measurement (R452). -/
theorem latMeasure_sumBands (s : State) : latMeasure (sumBands s) = latMeasure s := by
  unfold sumBands
  split <;> rfl

theorem sumBands_tce (s : State) : ∃ x n, (sumBands s).tce = { s.tce with bandSum := x, bandCount := n } := by
  unfold sumBands
  split <;> exact ⟨_, _, rfl⟩

/-- The state in which a LAT sample measures: a seek whose readers have arrived is over, and the bands are summed (R449, R452). -/
def latStart (s : State) : State :=
  sumBands (if s.tce.seek && seekDone s then { s with tce := { s.tce with seek := false } } else s)

/-- The measurement has passed the guard and is taken, with the counts of what it lost and how far it lay (R447, R449, R468). -/
def latTaken (s : State) : State :=
  let m := latMeasure s
  let g := guardSample (m.2 || s.tce.seek || decide (m.1.natAbs * 100 > param s 0x4830 1 * 206500) || s.tce.faults != 0#32) s
  { g with tce := { g.tce with pes := m.1, lossCount := if m.2 then g.tce.lossCount + 1 else 0,
                               rangeCount := if !s.tce.seek && decide (51625 < m.1.natAbs) then g.tce.rangeCount + 1 else 0 } }

/-- The loop computes, and the faults of the counts are latched (R449, R468). -/
def latDrive (overrun : Bool) (step m : Int) (s : State) : State :=
  let t := if s.tce.state = .fault then (if s.tce.ctlStop then sendOutput 0 s else s) else sampleLoop 0 step m 1000 id overrun s
  let t := if (t : State).tce.state = .fault && overrun then tceFault 8 t else t
  faultIf (decide (100 ≤ s.tce.rangeCount)) 1 (faultIf (decide (param t 0x6000 9 ≤ s.tce.lossCount)) 0 t)

/-- A LAT sample in a powered loop: measure, take, drive. -/
theorem latRun_eq (overrun : Bool) (s : State) : latRun overrun s =
    latDrive overrun (if (latStart s).tce.seek then 10000 * param (latTaken (latStart s)) 0x6000 7
      else 10 * param (latTaken (latStart s)) 0x6000 6 : Nat) (latMeasure (latStart s)).1 (latTaken (latStart s)) := by
  unfold latRun latDrive latTaken latStart
  dsimp only

theorem latStart_frame (s : State) : (latStart s).tce.frame = s.tce.frame := by
  unfold latStart
  obtain ⟨x, n, h⟩ := sumBands_tce (if s.tce.seek && seekDone s then { s with tce := { s.tce with seek := false } } else s)
  rw [h]
  split <;> rfl

theorem latStart_of_tracking {s : State} (h : s.tce.seek = false) : latStart s = sumBands s := by
  unfold latStart
  rw [if_neg (by simp [h])]

theorem latTaken_tce (s : State) : ∃ n, (latTaken s).tce = { s.tce with
      pes := (latMeasure s).1,
      lossCount := if (latMeasure s).2 then s.tce.lossCount + 1 else 0, rangeCount := n } := by
  unfold latTaken
  dsimp only
  rw [(guardSample_ctlKept (.refl s) _).tce]
  exact ⟨_, rfl⟩

/-- The drive changes loop 0 and what frames, faults and counts change. -/
theorem latDrive_driven (overrun : Bool) (step m : Int) (s : State) : ∃ v, Driven (setLoop 0 v s) (latDrive overrun step m s) := by
  have hloop : ∃ v, Driven (setLoop 0 v s) (if s.tce.state = .fault then (if s.tce.ctlStop then sendOutput 0 s else s)
      else sampleLoop 0 step m 1000 id overrun s) := by
    split
    · exact ⟨_, (setLoop_driven (v := loopOf s 0) rfl).symm.trans (Driven.ite (sendOutput_driven 0 s) (.refl s))⟩
    · exact ⟨_, sampleLoop_driven ..⟩
  obtain ⟨v, hv⟩ := hloop
  exact ⟨v, ((hv.trans (Driven.ite (tceFault_driven ..) (.refl _))).trans (faultIf_driven ..)).trans (faultIf_driven ..)⟩

/-- What a LAT sample leaves: the frame goes on, and without a seek the measurement and the count of lost samples are its own. -/
theorem latRun_takes (overrun : Bool) (s : State) : (latRun overrun s).tce.frame = s.tce.frame ∧
    (s.tce.seek = false → (latRun overrun s).tce.pes = (latMeasure s).1 ∧
      (latRun overrun s).tce.lossCount = if (latMeasure s).2 then s.tce.lossCount + 1 else 0) := by
  rw [latRun_eq]
  obtain ⟨v, hv⟩ := latDrive_driven overrun (if (latStart s).tce.seek then 10000 * param (latTaken (latStart s)) 0x6000 7
      else 10 * param (latTaken (latStart s)) 0x6000 6 : Nat) (latMeasure (latStart s)).1 (latTaken (latStart s))
  obtain ⟨n, ht⟩ := latTaken_tce (latStart s)
  refine ⟨?_, fun h => ?_⟩
  · exact hv.frame.trans ((congrArg Tce.frame ht).trans (latStart_frame s))
  · have hm : latMeasure (latStart s) = latMeasure s := by rw [latStart_of_tracking h, latMeasure_sumBands]
    obtain ⟨x, k, hb⟩ := sumBands_tce s
    have hl : (latStart s).tce.lossCount = s.tce.lossCount := by rw [latStart_of_tracking h, hb]
    exact ⟨hv.pes.trans ((congrArg Tce.pes ht).trans (congrArg Prod.fst hm)),
      hv.lossCount.trans ((congrArg Tce.lossCount ht).trans (by rw [hm, hl]))⟩

theorem stopFramesStep_measures (s : State) : latMeasure (stopFramesStep s) = latMeasure s := by
  have h := stopFramesStep_driven s
  obtain ⟨_, _, _, _, _, _, _, _, _, _, e⟩ := h.tce
  unfold latMeasure
  rw [h.bandPes2, h.bandPes2, h.seek, h.pes]
  simp only [e]

/-- LAT_SAMPLE in OFF: only the periods of the guard go on (R359). -/
theorem exec_latSample_of_off (x : Bool) {s : State} (hp : tceUnpowered s = false) (h : s.tce.state = .off) :
    exec (.latSample x) s = .next (guardTick { s with tce := { s.tce with frame := s.tce.frame + 1 } }) := by
  rw [exec_latSample, execLatSample, if_neg (by simp [hp])]
  exact if_pos h

/-- LAT_SAMPLE otherwise: a frame begins, with the stop frames that it carries, and the loop runs (R445, R449). -/
theorem exec_latSample_of_on (x : Bool) {s : State} (hp : tceUnpowered s = false) (h : s.tce.state ≠ .off) :
    exec (.latSample x) s = .next (latRun x (stopFramesStep { s with tce := { s.tce with frame := s.tce.frame + 1 } })) := by
  rw [exec_latSample, execLatSample, if_neg (by simp [hp])]
  exact if_neg h

/-- A LAT sample begins a frame and takes the mean of a band's readers (R444, R445, R449). -/
theorem latSample_takes (x : Bool) {s : State} (hp : tceUnpowered s = false) : ∃ t, exec (.latSample x) s = .next t ∧
    t.tce.frame = s.tce.frame + 1 ∧
    (s.tce.state = .off → t.wr.guardQuiet = (if s.wr.shockLow = 0 then s.wr.guardQuiet + 1 else 0) ∧
      t.wr.shockLow = s.wr.shockLow - 1 ∧ t.out = s.out ∧ t.ev = s.ev) ∧
    (s.tce.state ≠ .off → s.tce.seek = false → t.tce.pes = (latMeasure s).1 ∧
      t.tce.lossCount = if (latMeasure s).2 then s.tce.lossCount + 1 else 0) := by
  by_cases h : s.tce.state = .off
  · exact ⟨_, exec_latSample_of_off x hp h, rfl, fun _ => ⟨rfl, rfl, rfl, rfl⟩, fun hn => absurd h hn⟩
  · have hd := stopFramesStep_driven { s with tce := { s.tce with frame := s.tce.frame + 1 } }
    obtain ⟨hf, ht⟩ := latRun_takes x (stopFramesStep { s with tce := { s.tce with frame := s.tce.frame + 1 } })
    refine ⟨_, exec_latSample_of_on x hp h, hf.trans hd.frame, fun hn => absurd hn h, fun _ hs => ?_⟩
    obtain ⟨hpes, hloss⟩ := ht (hd.seek.trans hs)
    rw [stopFramesStep_measures] at hpes hloss
    exact ⟨hpes, by rw [hloss, hd.lossCount]; rfl⟩

end Sys2Proof.Machine
end

section
/-! PROOFS. The reels and the skew (R444, R450-R452). -/

namespace Sys2Proof.Machine

/-! The reels and the skew (R450-R452, R461). -/

/-- The tension estimate of a reel sample (R451). -/
theorem reelSSample_takes (b : Bool) {s : State} (hp : tceUnpowered s = false) (hl : s.tce.loops.length = 4) :
    ∃ t, exec (.reelSSample b) s = .next t ∧
      t.tce.tension = roundDiv ((param s 0x6000 17 : Int) * (loopOf s 3).aslValue * 1000000000 -
        32767 * (param s 0x6000 18 : Int) * s.tce.alphaT) (32767 * s.tce.rT.getD 28000) ∧
      (loopsRun s = true → (loopOf t 2).measured = t.tce.tension) := by
  rw [exec_reelSSample, execReelSSample, if_neg (by simp [hp])]
  dsimp only
  generalize hx : roundDiv _ (32767 * s.tce.rT.getD 28000) = x
  have hr : loopsRun { s with tce := { s.tce with tension := x } } = loopsRun s := rfl
  rw [hr]
  cases hrun : loopsRun s with
  | false => exact ⟨_, rfl, rfl, fun h => absurd h (by decide)⟩
  | true =>
    refine ⟨_, rfl, ?_, fun _ => ?_⟩
    · exact (sampleLoop_driven ..).tension.trans rfl
    · rw [sampleLoop_measures (by simp [hl]), (sampleLoop_driven ..).tension]
      rfl

theorem reelTSample_takes (b : Bool) {s : State} (hp : tceUnpowered s = false) (hl : s.tce.loops.length = 4)
    (hr : loopsRun s = true) : ∃ t, exec (.reelTSample b) s = .next t ∧ (loopOf t 3).measured = s.tce.speed := by
  rw [exec_reelTSample, execReelTSample, if_neg (by simp [hp]), if_neg (by simp [hr])]
  exact ⟨_, rfl, sampleLoop_measures (by simp [hl]) ..⟩

theorem reelTSample_of_stopped (b : Bool) {s : State} (hp : tceUnpowered s = false) (hr : loopsRun s = false) :
    exec (.reelTSample b) s = .next s := by
  rw [exec_reelTSample, execReelTSample, if_neg (by simp [hp]), if_pos (by simp [hr])]

/-- The state of a SKEW sample with its sums begun again (R377, R452). -/
def skewFresh (s : State) : State :=
  { s with tlcs := { s.tlcs with tiltSum := 0, widthSum := 0, tiltCount := 0 }, tce := { s.tce with bandSum := 0, bandCount := 0 } }

/-- The loop of a SKEW sample with the target that follows the width (R452, R461). -/
def skewFollow (width target : Int) (s : State) : State :=
  setLoop 1 { loopOf { s with tce := { s.tce with width := width } } 1 with target := target, ramping := true }
    { s with tce := { s.tce with width := width } }

/-- The width of a SKEW sample: that of the clock tracks less the mean difference of the bands (R452). -/
def skewWidth (s : State) : Int :=
  tlcsMean s (1000 * s.tlcs.widthSum) (1000 * s.tlcs.width) - roundDiv (s.tce.bandSum * 1000000) (2 * s.tce.bandCount * 2737500)

theorem loopsRun_skewFresh (s : State) : loopsRun (skewFresh s) = loopsRun s := rfl

/-- SKEW_SAMPLE with the stages not driven (R467). -/
theorem exec_skewSample_of_stopped (b : Bool) {s : State} (hp : tceUnpowered s = false) (hr : loopsRun s = false) :
    exec (.skewSample b) s = .next (skewFresh s) := by
  rw [exec_skewSample, execSkewSample, if_neg (by simp [hp])]
  have hn : (!loopsRun (skewFresh s)) = true := by rw [loopsRun_skewFresh, hr]; rfl
  exact if_pos hn

/-- SKEW_SAMPLE that holds its output: the stage is driven with the last one (R377, R452). -/
theorem exec_skewSample_of_held (b : Bool) {s : State} (hp : tceUnpowered s = false) (hr : loopsRun s = true)
    (hh : (s.tlcs.hold || decide (s.tce.bandCount = 0) || s.tce.ctlStop) = true) :
    exec (.skewSample b) s = .next (if b then tceFault 8 (skewFresh s) else sendOutput 1 (skewFresh s)) := by
  rw [exec_skewSample, execSkewSample, if_neg (by simp [hp])]
  have hn : ¬(!loopsRun (skewFresh s)) = true := by rw [loopsRun_skewFresh, hr]; decide
  exact (if_neg hn).trans (if_pos hh)

/-- The target of the width, and what its draw leaves (R452). -/
def skewAim (s : State) : Int × State :=
  match skewTarget (skewWidth s) (param (skewFresh s) 0x4860 4) with
  | some x => (x, skewFresh s)
  | none => (Config.freeInt (skewFresh s).drawn, drew (skewFresh s))

theorem skewAim_keeps (s : State) : (skewAim s).2.tce = (skewFresh s).tce ∧ (skewAim s).2.tlcs = (skewFresh s).tlcs := by
  unfold skewAim
  split <;> exact ⟨rfl, rfl⟩

/-- SKEW_SAMPLE that measures: the loop follows the target of the width (R452). -/
theorem exec_skewSample_of_measuring (b : Bool) {s : State} (hp : tceUnpowered s = false) (hr : loopsRun s = true)
    (hh : ¬(s.tlcs.hold || decide (s.tce.bandCount = 0) || s.tce.ctlStop) = true) : ∃ target u, exec (.skewSample b) s =
      .next (sampleLoop 1 (100 * param (skewFollow (skewWidth s) target u) 0x6000 8 : Nat)
        (tlcsMean s (1000 * s.tlcs.tiltSum) (1000 * s.tlcs.tilt)) 1000 (fun _ => 0) b (skewFollow (skewWidth s) target u)) ∧
      u.tce = (skewFresh s).tce ∧ u.tlcs = (skewFresh s).tlcs := by
  rw [exec_skewSample, execSkewSample, if_neg (by simp [hp])]
  have hn : ¬(!loopsRun (skewFresh s)) = true := by rw [loopsRun_skewFresh, hr]; decide
  obtain ⟨hu, hv⟩ := skewAim_keeps s
  exact ⟨(skewAim s).1, (skewAim s).2, (if_neg hn).trans (if_neg hh), hu, hv⟩

/-- SKEW_SAMPLE starts its sums again; in lock, with a band difference, it measures the tilt and the width (R377, R452). -/
theorem skewSample_takes (b : Bool) {s : State} (hp : tceUnpowered s = false) (hl : s.tce.loops.length = 4) :
    ∃ t, exec (.skewSample b) s = .next t ∧ t.tce.bandSum = 0 ∧ t.tce.bandCount = 0 ∧ t.tlcs.tiltCount = 0 ∧
      (loopsRun s = true → s.tlcs.hold = false → s.tce.bandCount ≠ 0 → s.tce.ctlStop = false → s.tlcs.tiltCount ≠ 0 →
        (loopOf t 1).measured = roundDiv (1000 * s.tlcs.tiltSum) s.tlcs.tiltCount ∧
        t.tce.width = roundDiv (1000 * s.tlcs.widthSum) s.tlcs.tiltCount -
          roundDiv (s.tce.bandSum * 1000000) (2 * s.tce.bandCount * 2737500)) := by
  cases hr : loopsRun s with
  | false => exact ⟨_, exec_skewSample_of_stopped b hp hr, rfl, rfl, rfl, fun h => absurd h (by decide)⟩
  | true =>
    by_cases hh : (s.tlcs.hold || decide (s.tce.bandCount = 0) || s.tce.ctlStop) = true
    · have hd : Driven (skewFresh s) (if b then tceFault 8 (skewFresh s) else sendOutput 1 (skewFresh s)) :=
        Driven.ite (tceFault_driven ..) (sendOutput_driven ..)
      refine ⟨_, exec_skewSample_of_held b hp hr hh, hd.bandSum, hd.bandCount, congrArg Tlcs.tiltCount hd.tlcs, fun _ h1 h2 h3 => ?_⟩
      simp [h1, h2, h3] at hh
    · obtain ⟨target, u, he, hu, hv⟩ := exec_skewSample_of_measuring b hp hr hh
      have hd := sampleLoop_driven 1 (100 * param (skewFollow (skewWidth s) target u) 0x6000 8 : Nat)
        (tlcsMean s (1000 * s.tlcs.tiltSum) (1000 * s.tlcs.tilt)) 1000 (fun _ => 0) b (skewFollow (skewWidth s) target u)
      refine ⟨_, he, hd.bandSum.trans (congrArg Tce.bandSum hu), hd.bandCount.trans (congrArg Tce.bandCount hu),
        (congrArg Tlcs.tiltCount hd.tlcs).trans (congrArg Tlcs.tiltCount hv), fun _ _ _ _ ht => ⟨?_, hd.width.trans ?_⟩⟩
      · have hlen : 1 < (skewFollow (skewWidth s) target u).tce.loops.length := by
          rw [skewFollow, setLoop_length, hu]
          exact hl.symm ▸ (by decide)
        rw [sampleLoop_measures hlen, tlcsMean, if_neg ht]
      · change skewWidth s = _
        rw [skewWidth, tlcsMean, if_neg ht]

end Sys2Proof.Machine
end

section
/-! PROOFS. The background window (R445, R459, R467, R468). -/

namespace Sys2Proof.Machine

/-! The background window (R445, R459, R461, R467, R468). -/

/-- What the targets and the fault timers leave of the transport. -/
structure Aimed (s t : State) : Prop where
  region : t.tce.region = s.tce.region
  length : t.tce.loops.length = s.tce.loops.length
  state : t.tce.state = s.tce.state
  ctlStop : t.tce.ctlStop = s.tce.ctlStop
  speed : t.tce.speed = s.tce.speed
  speedCount : t.tce.speedCount = s.tce.speedCount
  tensionCount : t.tce.tensionCount = s.tce.tensionCount

theorem Aimed.refl (s : State) : Aimed s s := ⟨rfl, rfl, rfl, rfl, rfl, rfl, rfl⟩

theorem Aimed.trans {s t u : State} (h : Aimed s t) (k : Aimed t u) : Aimed s u :=
  ⟨k.region.trans h.region, k.length.trans h.length, k.state.trans h.state, k.ctlStop.trans h.ctlStop, k.speed.trans h.speed,
    k.speedCount.trans h.speedCount, k.tensionCount.trans h.tensionCount⟩

theorem retarget_aimed (l : Nat) (target : Int) (s : State) : Aimed s (retarget l target s) :=
  ⟨rfl, setLoop_length .., rfl, rfl, rfl, rfl, rfl⟩

theorem Aimed.ite {s a b : State} {p : Prop} [Decidable p] (ha : Aimed s a) (hb : Aimed s b) : Aimed s (if p then a else b) := by
  split
  · exact ha
  · exact hb

/-- The targets of the write and read sides are of the loops, the wrap and the seek only (R449, R461). -/
theorem takeTargets_aimed (s : State) : Aimed s (takeTargets s) := by
  have hgo (wrap : Nat) (offset : Int) (v : Bool) (s : State) : Aimed s (retarget 0 0 { s with tce := { s.tce with
      wrap := wrap, readOffset := offset, seek := v } }) := by
    have h : Aimed s { s with tce := { s.tce with wrap := wrap, readOffset := offset, seek := v } } := ⟨rfl, rfl, rfl, rfl, rfl, rfl, rfl⟩
    exact h.trans (retarget_aimed ..)
  unfold takeTargets
  dsimp only
  have hten : Aimed s (if (loopOf s 2).target = (param s 0x6000 4 * 1000000 : Nat) then s
      else retarget 2 (param s 0x6000 4 * 1000000 : Nat) s) := Aimed.ite (.refl s) (retarget_aimed ..)
  obtain ⟨u, hu⟩ : ∃ u, (if (loopOf s 2).target = (param s 0x6000 4 * 1000000 : Nat) then s
      else retarget 2 (param s 0x6000 4 * 1000000 : Nat) s) = u := ⟨_, rfl⟩
  rw [hu] at hten ⊢
  refine hten.trans ?_
  cases headJob u with
  | none => exact .refl u
  | some w =>
    exact (Aimed.ite (p := (_ && _) = true) (.refl u) (hgo w.1 w.2.1 _ u)).trans
      (Aimed.ite (p := (_ || _) = true) (.refl _) (retarget_aimed ..))

/-- The faults of the timers (R468). -/
def timerFaults (s : State) : State :=
  let s := faultIf (decide (5000 ≤ s.tce.speedCount)) 2 s
  let s := faultIf (decide (2000 ≤ s.tce.tensionCount)) 3 s
  faultIf (decide (500 ≤ s.tce.quietS ∨ 500 ≤ s.tce.quietT)) 4 s

/-- The fault timers count, and those that have run out latch their fault (R468). -/
theorem runTimers_eq (s : State) : ∃ slow tense, runTimers s = timerFaults { s with tce := { s.tce with
    speedCount := timerUp slow s.tce.speedCount, tensionCount := timerUp tense s.tce.tensionCount,
    quietS := timerUp (s.tce.state != .off && decide (100000 < s.tce.speed.natAbs)) s.tce.quietS,
    quietT := timerUp (s.tce.state != .off && decide (100000 < s.tce.speed.natAbs)) s.tce.quietT } } :=
  ⟨_, _, rfl⟩

theorem timerFaults_driven (s : State) : Driven s (timerFaults s) :=
  ((faultIf_driven ..).trans (faultIf_driven ..)).trans (faultIf_driven ..)

theorem timerUp_le (b : Bool) (n : Nat) : timerUp b n ≤ n + 1 := by
  unfold timerUp
  split <;> omega

/-- Timers that have not run out latch no fault (R468). -/
theorem timerFaults_of_short {s : State} (h : s.tce.speedCount < 5000) (k : s.tce.tensionCount < 2000)
    (hs : s.tce.quietS = 0) (ht : s.tce.quietT = 0) : timerFaults s = s := by
  have hf {b : Bool} (hb : b = false) (bit : Nat) : faultIf b bit s = s := by rw [faultIf, hb]; rfl
  simp only [timerFaults, hf (decide_eq_false (Nat.not_le.2 h)), hf (decide_eq_false (Nat.not_le.2 k)), hs, ht]
  exact hf rfl 4

theorem runTimers_region (s : State) : (runTimers s).tce.region = s.tce.region := by
  obtain ⟨_, _, h⟩ := runTimers_eq s
  rw [h, (timerFaults_driven _).region]

theorem runTimers_of_short {s : State} (hspeed : s.tce.speed.natAbs < 20000) (hs : s.tce.speedCount < 4999)
    (ht : s.tce.tensionCount < 1999) : ∃ n k, runTimers s = { s with tce := { s.tce with
      speedCount := n, tensionCount := k, quietS := 0, quietT := 0 } } := by
  obtain ⟨slow, tense, h⟩ := runTimers_eq s
  have hn := timerUp_le slow s.tce.speedCount
  have hk := timerUp_le tense s.tce.tensionCount
  have hfast : (s.tce.state != .off && decide (100000 < s.tce.speed.natAbs)) = false := by
    rw [decide_eq_false (by omega), Bool.and_false]
  rw [hfast] at h
  exact ⟨_, _, h.trans (timerFaults_of_short (show timerUp slow s.tce.speedCount < 5000 by omega)
    (show timerUp tense s.tce.tensionCount < 2000 by omega) rfl rfl)⟩

theorem endMotion_region (s : State) : (endMotion s).tce.region = s.tce.region := by
  unfold endMotion
  split
  · rfl
  split
  · exact (((sendAll_driven ..).trans (sendAll_driven ..)).trans (zeroOutputs_driven _)).region.trans rfl
  split <;> rfl

/-- A stop whose tape stands becomes HOLD with loop 3 at rest (R467). -/
theorem endMotion_of_stopped {s : State} (h : s.tce.speed.natAbs < 20000) (hc : s.tce.ctlStop = false) (hs : s.tce.state = .stopping) :
    endMotion s = setLoop 3 { loopOf s 3 with target := 0, setpoint := 0, newTarget := false, ramping := false }
      { s with tce := { s.tce with state := .hold } } := by
  unfold endMotion
  rw [if_neg (by omega), if_neg (by simp [hc]), if_pos hs]

theorem exec_tceBackground_of_off {s : State} (hp : tceUnpowered s = false) (h : s.tce.state = .off) :
    exec .tceBackground s = .next s := by
  rw [exec_tceBackground, execTceBackground, if_neg (by simp [hp]), if_pos h]

theorem exec_tceBackground_of_on {s : State} (hp : tceUnpowered s = false) (h : s.tce.state ≠ .off) :
    exec .tceBackground s = .next (endMotion (runTimers (if s.tce.state = .fault then
      { s with tce := { s.tce with region := regionOf s } } else takeTargets { s with tce := { s.tce with region := regionOf s } }))) := by
  rw [exec_tceBackground, execTceBackground, if_neg (by simp [hp]), if_neg h]

/-- The background window puts the gain region in force (R459). -/
theorem tceBackground_takesRegion {s : State} (hp : tceUnpowered s = false) (h : s.tce.state ≠ .off) :
    ∃ t, exec .tceBackground s = .next t ∧ t.tce.region = regionOf s := by
  refine ⟨_, exec_tceBackground_of_on hp h, ?_⟩
  rw [endMotion_region, runTimers_region]
  split
  · rfl
  · exact (takeTargets_aimed _).region

/-- The background window ends a stop whose tape stands (R467). -/
theorem tceBackground_endsStop {s : State} (hp : tceUnpowered s = false) (h : s.tce.state = .stopping) (hc : s.tce.ctlStop = false)
    (hv : s.tce.speed.natAbs < 20000) (hs : s.tce.speedCount < 4999) (ht : s.tce.tensionCount < 1999) (hl : s.tce.loops.length = 4) :
    ∃ t, exec .tceBackground s = .next t ∧ t.tce.state = .hold ∧ (loopOf t 3).setpoint = 0 ∧ (loopOf t 3).target = 0 := by
  refine ⟨_, exec_tceBackground_of_on hp (by rw [h]; decide), ?_⟩
  rw [if_neg (by rw [h]; decide)]
  have ha := takeTargets_aimed { s with tce := { s.tce with region := regionOf s } }
  generalize takeTargets { s with tce := { s.tce with region := regionOf s } } = u at ha ⊢
  obtain ⟨_, hlen, hst, hct, hsp, hsc, htc⟩ := ha
  dsimp only at hlen hst hct hsp hsc htc
  obtain ⟨n, k, hr⟩ := runTimers_of_short (s := u) (by rw [hsp]; exact hv) (by rw [hsc]; exact hs) (by rw [htc]; exact ht)
  rw [hr, endMotion_of_stopped (by rw [hsp]; exact hv) (by rw [hct]; exact hc) (by rw [hst]; exact h)]
  refine ⟨rfl, ?_⟩
  rw [loopOf_setLoop_self (by rw [hlen, hl]; decide)]
  exact ⟨rfl, rfl⟩

end Sys2Proof.Machine
end

section
/-! PROOFS. Readers, tachometer edges and hours, and the samples of the loops as a whole (R448, R450, R470). -/

namespace Sys2Proof.Machine

/-! Readers, edges and hours (R448, R450, R470). -/

/-- The entry at a position after it is replaced. -/
theorem getD_setAt_self {α : Type} {l : List α} {i : Nat} (h : i < l.length) (v d : α) : (setAt l i v).getD i d = v := by
  simp [setAt, h]

/-- A valid estimate of a servo reader is taken (R448). -/
theorem exec_servoReaderPosition_of_valid {r : Fin 4} {ab ac : Nat} {b : Bool} {s : State} (hp : tceUnpowered s = false)
    (h : b = true ∧ 0 < ac ∧ (readerY ab ac).natAbs ≤ 60000000) : exec (.servoReaderPosition r ab ac b) s =
      .next { s with tce := { s.tce with readers := setAt s.tce.readers r.val (some (readerY ab ac)),
                                         readerBad := setAt s.tce.readerBad r.val false } } := by
  obtain ⟨hb, hc, hy⟩ := h
  rw [exec_servoReaderPosition, execServoReaderPosition, if_neg (by simp [hp])]
  exact if_pos (by simp [hb, hc, hy])

/-- Any other estimate makes the reader invalid, which is reported once (R448). -/
theorem exec_servoReaderPosition_of_invalid {r : Fin 4} {ab ac : Nat} {b : Bool} {s : State} (hp : tceUnpowered s = false)
    (h : b = false ∨ ac = 0 ∨ 60000000 < (readerY ab ac).natAbs) : exec (.servoReaderPosition r ab ac b) s =
      .next (raiseIf (!s.tce.readerBad.getD r.val false) 0x615 [(2, r.val)] { s with tce := { s.tce with
        readers := setAt s.tce.readers r.val none, readerBad := setAt s.tce.readerBad r.val true } }) := by
  rw [exec_servoReaderPosition, execServoReaderPosition, if_neg (by simp [hp])]
  refine if_neg ?_
  simp only [Bool.and_eq_true, decide_eq_true_eq]
  rintro ⟨⟨hb, hc⟩, hy⟩
  obtain h | h | h := h
  · rw [hb] at h; cases h
  · omega
  · omega

theorem raiseIf_tce (b : Bool) (n : Nat) (l : List (Nat × Nat)) (s : State) : (raiseIf b n l s).tce = s.tce :=
  (raiseIf_ctlKept (.refl s) b n l).tce

theorem servoReaderPosition_takes (r : Fin 4) (ab ac : Nat) (b : Bool) {s : State} (hp : tceUnpowered s = false)
    (hr : s.tce.readers.length = 4) (hb : s.tce.readerBad.length = 4) :
    ∃ t, exec (.servoReaderPosition r ab ac b) s = .next t ∧
      ((b = true ∧ 0 < ac ∧ (readerY ab ac).natAbs ≤ 60000000) →
        t.tce.readers.getD r.val none = some (readerY ab ac) ∧ t.tce.readerBad.getD r.val true = false ∧ t.ev = s.ev) ∧
      ((b = false ∨ ac = 0 ∨ 60000000 < (readerY ab ac).natAbs) →
        t.tce.readers.getD r.val none = none ∧ t.tce.readerBad.getD r.val false = true ∧
        (s.tce.readerBad.getD r.val false = false →
          Tab.getD t.ev.counts 0x615 0 = sat32 (Tab.getD s.ev.counts 0x615 0 + 1)) ∧
        (s.tce.readerBad.getD r.val false = true → t.ev = s.ev)) ∧ t.wr = s.wr ∧ t.cart = s.cart := by
  have hr' : r.val < s.tce.readers.length := by have := r.isLt; omega
  have hb' : r.val < s.tce.readerBad.length := by have := r.isLt; omega
  by_cases h : b = true ∧ 0 < ac ∧ (readerY ab ac).natAbs ≤ 60000000
  · refine ⟨_, exec_servoReaderPosition_of_valid hp h, fun _ => ⟨getD_setAt_self hr' .., getD_setAt_self hb' .., rfl⟩, fun hn => ?_, rfl, rfl⟩
    obtain ⟨h1, h2, h3⟩ := h
    obtain hn | hn | hn := hn
    · rw [h1] at hn; cases hn
    · omega
    · omega
  · have hn : b = false ∨ ac = 0 ∨ 60000000 < (readerY ab ac).natAbs := by
      cases b with
      | false => exact .inl rfl
      | true => right; by_contra hc; exact h ⟨rfl, by omega, by omega⟩
    refine ⟨_, exec_servoReaderPosition_of_invalid hp hn, fun hv => absurd hv h, fun _ => ?_, ?_, raiseIf_cart ..⟩
    · rw [raiseIf_tce]
      refine ⟨getD_setAt_self hr' .., getD_setAt_self hb' .., fun hg => ?_, fun hg => by rw [hg]; rfl⟩
      rw [hg]
      exact raise_count_self ..
    · exact raiseIf_keeps State.wr (raise_wr ..) _

theorem tlcsSpeed_tce (v : Int) (s : State) : (tlcsSpeed v s).tce = s.tce := by
  unfold tlcsSpeed
  dsimp only
  split
  · split <;> rfl
  split
  · split
    · exact (guardOnset_ctlKept (.refl s) 4).tce
    · rfl
  · rfl

/-- A tachometer edge gives its reel's rate and the tape speed: that of the clock in lock, else that of the take-up reel (R450). -/
theorem tachEdge_takes (up : Bool) (n : Nat) (back : Bool) {s : State} (hp : tceUnpowered s = false) (hn : 0 < n) :
    let rate : Int := reelRate (param s 0x6000 (if up then 15 else 14)) n
    let w := if back then -rate else rate
    ∃ t, exec (.tachEdge up n back) s = .next t ∧
      (up = true → t.tce.omegaT = w ∧ t.tce.quietT = 0 ∧ t.tce.omegaS = s.tce.omegaS) ∧
      (up = false → t.tce.omegaS = w ∧ t.tce.quietS = 0 ∧ t.tce.omegaT = s.tce.omegaT) ∧
      (inLock s = true → t.tce.speed = if back then -(dcoSpeed s : Int) else (dcoSpeed s : Int)) ∧
      (inLock s = false → t.tce.speed =
        roundDiv ((if up then w else s.tce.omegaT) * ((s.tce.rT.getD 28000 : Nat) : Int)) 1000000) := by
  intro rate w
  refine ⟨_, by rw [exec_tachEdge, execTachEdge, if_neg (by simp [hp]), if_neg (by omega)], ?_⟩
  rw [tlcsSpeed_tce]
  cases up with
  | true => exact ⟨fun _ => ⟨rfl, rfl, rfl⟩, fun h => absurd h (by decide), fun h => if_pos h, fun h => if_neg (by simp [h])⟩
  | false => exact ⟨fun h => absurd h (by decide), fun _ => ⟨rfl, rfl, rfl⟩, fun h => if_pos h, fun h => if_neg (by simp [h])⟩

/-- A check of the saturated hours changes no transport, cartridge or write side (R470). -/
theorem satCheck_keeps (b : Bool) (s : State) : (satCheck b s).tce = s.tce ∧ (satCheck b s).wr = s.wr ∧ (satCheck b s).cart = s.cart := by
  unfold satCheck
  split
  · obtain ⟨_, _, _, _, h⟩ := (setCause_notes 3 (raise 0x611 [] s)).frame
    rw [h]
    exact ⟨raise_tce .., raise_wr .., raise_cart ..⟩
  · exact ⟨rfl, rfl, rfl⟩

/-- An hour without saturated samples is a good one (R470). -/
theorem hourBad_of_unsaturated (p : Nat) (samples : List Nat) : ((List.range 4).any fun l =>
    decide (p * samples.getD l 0 < 100 * [0, 0, 0, 0].getD l 0)) = false := by
  refine List.any_eq_false.2 fun l hl => ?_
  have hz : [0, 0, 0, 0].getD l 0 = 0 := by
    have h4 : l < 4 := List.mem_range.1 hl
    interval_cases l <;> rfl
  rw [hz]
  simp

/-- The end of an hour of motion: the hour is judged, and its samples begin again (R470). -/
theorem satHourEnd_takes (s : State) : ∃ t, exec .satHourEnd s = .next t ∧ t.tce.hourSamples = [0, 0, 0, 0] ∧
    t.tce.hourSat = [0, 0, 0, 0] ∧ t.tce.hours.length = min 64 (s.tce.hours.length + 1) ∧
    (s.tce.hourSat = [0, 0, 0, 0] → ∃ l, t.tce.hours = false :: l) ∧ t.wr = s.wr ∧ t.cart = s.cart := by
  refine ⟨_, by rw [exec_satHourEnd, execSatHourEnd], ?_⟩
  obtain ⟨ht, hw, hc⟩ := satCheck_keeps (satHolds s) { s with tce := { s.tce with
    hours := (((List.range 4).any fun l => decide (param s 0x6000 19 * s.tce.hourSamples.getD l 0 < 100 * s.tce.hourSat.getD l 0)) ::
      s.tce.hours).take 64, hourSamples := [0, 0, 0, 0], hourSat := [0, 0, 0, 0] } }
  rw [ht, hw, hc]
  refine ⟨rfl, rfl, List.length_take .., fun h => ?_, rfl, rfl⟩
  rw [h, hourBad_of_unsaturated]
  exact ⟨_, rfl⟩

/-- Without power, or in reset, the transport control neither samples nor moves (R471, R546, R549). -/
theorem exec_of_tceUnpowered {s : State} (h : tceUnpowered s = true) : ∀ i ∈ [Instr.latSample false, .reelSSample false,
    .reelTSample false, .skewSample false, .aslKeepalive, .tceBackground, .threadRequest, .stopRequest], exec i s = .next s := by
  simp [execLatSample, execReelSSample, execReelTSample, execSkewSample, execAslKeepalive, execTceBackground, execThreadRequest,
    execStopRequest, h]

/-- Settles O50: each sample by its own rule above; what frames, faults and outputs change is `Driven`. -/
theorem loopsTakeTheirSamples : Obligations.LoopsTakeTheirSamples := by
  unfold Obligations.LoopsTakeTheirSamples
  refine ⟨fun s h => exec_of_tceUnpowered h, fun x s hp => ?_, fun b s hp hl =>
    ⟨reelSSample_takes b hp hl, fun hr => reelTSample_takes b hp hl hr, fun hr => reelTSample_of_stopped b hp hr, skewSample_takes b hp hl⟩,
    fun s hp => ⟨exec_tceBackground_of_off hp, tceBackground_takesRegion hp, fun h hc hv hs ht hl => tceBackground_endsStop hp h hc hv hs ht hl⟩,
    fun r ab ac b s hp hr hb => servoReaderPosition_takes r ab ac b hp hr hb, fun up n back s hp hn => tachEdge_takes up n back hp hn,
    satHourEnd_takes⟩
  obtain ⟨t, he, hf, hoff, hon⟩ := latSample_takes x hp
  refine ⟨t, he, hf, hoff, fun ho hs p hm => ?_, fun ho hs hm => ?_⟩
  · have h := hon ho hs
    rwa [latMeasure_of_readers hs hm] at h
  · have h := hon ho hs
    rwa [latMeasure_of_lost hs hm] at h

end Sys2Proof.Machine
end

section
/-! SUPPORT. What a channel's reset leaves of the transport and of the other channels (R400, R405, R588). -/

namespace Sys2Proof.Machine

/-! What a channel's reset leaves of the transport, of the head-front faults and of the failures (R400, R405, R588). -/

/-- The transport stays, no head-front fault is taken or dropped, and no failed channel becomes active (R405, R588). -/
structure FrontKept (s t : State) : Prop where
  tce : t.tce = s.tce
  fault : ∀ p, (getChan t p).headFault = (getChan s p).headFault
  failed : ∀ p, (getChan s p).failed = true → (getChan t p).failed = true

theorem FrontKept.refl (s : State) : FrontKept s s := ⟨rfl, fun _ => rfl, fun _ h => h⟩

theorem FrontKept.trans {s t u : State} (h : FrontKept s t) (k : FrontKept t u) : FrontKept s u :=
  ⟨k.tce.trans h.tce, fun p => (k.fault p).trans (h.fault p), fun p hp => k.failed p (h.failed p hp)⟩

theorem FrontKept.ite {s a b : State} {p : Prop} [Decidable p] (ha : FrontKept s a) (hb : FrontKept s b) :
    FrontKept s (if p then a else b) := by
  split
  · exact ha
  · exact hb

theorem FrontKept.when {p : Prop} [Decidable p] {f : State → State} (hf : ∀ s, FrontKept s (f s)) (s : State) :
    FrontKept s (if p then f s else s) :=
  FrontKept.ite (hf s) (.refl s)

theorem FrontKept.of_chans {s t : State} (ht : t.tce = s.tce) (hc : t.chans = s.chans) : FrontKept s t :=
  ⟨ht, fun p => by rw [getChan_of_chans hc], fun p hp => by rwa [getChan_of_chans hc]⟩

theorem FrontKept.foldl {α : Type} {f : State → α → State} (hf : ∀ t a, FrontKept t (f t a)) (l : List α) (s : State) :
    FrontKept s (l.foldl f s) := by
  induction l generalizing s with
  | nil => exact .refl s
  | cons a l ih => exact (hf s a).trans (ih _)

/-- A channel is replaced by one with its fault, and failed if it was. -/
theorem setChan_front {p : Nat} {c : Channel} {s : State} (hc : c.headFault = (getChan s p).headFault)
    (hf : (getChan s p).failed = true → c.failed = true) : FrontKept s (setChan p c s) := by
  refine ⟨rfl, fun q => ?_, fun q hq => ?_⟩ <;> by_cases h : q = p
  · rw [h, getChan_setChan_self, hc]
  · exact congrArg Channel.headFault (Tab.getD_put_ne _ _ _ h)
  · rw [h] at hq ⊢
    rw [getChan_setChan_self, hf hq]
  · exact (congrArg Channel.failed (Tab.getD_put_ne _ _ _ h)).trans hq

theorem updChan_front {p : Nat} {g : Channel → Channel} {s : State} (hc : ∀ c, (g c).headFault = c.headFault)
    (hf : ∀ c, c.failed = true → (g c).failed = true) : FrontKept s (updChan p g s) :=
  setChan_front (hc _) (hf _)

theorem raise_front (n : Nat) (l : List (Nat × Nat)) (s : State) : FrontKept s (raise n l s) := .of_chans (raise_tce ..) (raise_chans ..)

theorem setCause_front (n : Nat) (s : State) : FrontKept s (setCause n s) := .of_chans (setCause_notes n s).tce (setCause_chans ..)

theorem judgeMembers_front (s : State) : FrontKept s (judgeMembers s) :=
  .of_chans (judgeMembers_ctlKept (.refl s)).tce (judgeMembers_chans s)

/-- A failure that is declared (R405). -/
theorem declareFailed_front (e cause : Nat) (s : State) : FrontKept s (declareFailed e cause s) := by
  unfold declareFailed
  have hfail (at' : Option Nat) : FrontKept s (updChan e (fun c => { c with
      failed := true, cause := cause, failedAt := at', failCount := sat32 (c.failCount + 1) }) s) :=
    updChan_front (fun _ => rfl) fun _ _ => rfl
  exact FrontKept.ite (.refl s) ((((hfail _).trans (raise_front ..)).trans (setCause_front ..)).trans (judgeMembers_front _))

theorem declareFailed_failed (e cause : Nat) (s : State) : (getChan (declareFailed e cause s) e).failed = true := by
  cases h : (getChan s e).failed with
  | true => rw [declareFailed_of_failed h]; exact h
  | false =>
    obtain ⟨⟨at', hc⟩, -, -⟩ := declareFailed_fails h cause
    rw [hc]

theorem judgeChannel_front (p n : Nat) (s : State) : FrontKept s (judgeChannel p n s) := by
  unfold judgeChannel
  dsimp only
  have hset : FrontKept s (setChan p { getChan s p with
      bad := if decide (param s (0x4000 + p) 4 ≤ Tab.getD (getChan s p).judgedIn n 0) then (getChan s p).bad + 1 else 0,
      judgedIn := Tab.del (getChan s p).judgedIn n, failsIn := (getChan s p).failsIn.filter fun x => decide (n ≤ x.1) } s) :=
    setChan_front rfl id
  exact FrontKept.ite (hset.trans (declareFailed_front ..)) hset

theorem loseSectors_front (d : Dataset) (l : List (Nat × Nat)) (s : State) : FrontKept s (loseSectors d l s) := by
  refine .of_chans (loseSectors_ctlKept (.refl s) ..).tce ?_
  simp only [loseSectors, ite_chans, failDs_chans]
  split
  · rfl
  · refine foldl_chans (fun t a => ?_) l s
    exact raise_chans ..

theorem moveSector_front (i : Image) (pass : Bool) (s : State) : FrontKept s (moveSector i pass s) := by
  have hupd (id : Nat) (g : Dataset → Dataset) (s : State) : FrontKept s (updDs id g s) := .of_chans rfl rfl
  unfold moveSector
  split
  · exact .refl s
  · refine FrontKept.ite (.refl s) (FrontKept.ite (FrontKept.ite (.refl s) (hupd ..))
      (FrontKept.ite (.refl s) (FrontKept.ite (hupd ..) ?_)))
    unfold copyFailed
    exact FrontKept.ite ((hupd ..).trans (loseSectors_front ..)) (hupd ..)

theorem countFail_front (p under : Nat) (s : State) : FrontKept s (countFail p under s) := by
  have hcount (k : Nat) : FrontKept s (updChan p (fun c => { c with failsIn := Tab.put c.failsIn under k }) s) :=
    updChan_front (fun _ => rfl) fun _ h => h
  unfold countFail raiseIf
  dsimp only
  exact (hcount _).trans (FrontKept.ite (raise_front ..) (.refl _))

theorem homeFailed_front (p : Nat) (i : Image) (s : State) : FrontKept s (homeFailed p i s) := by
  have hcount : FrontKept s (updChan p (fun c => { c with verifyFailures := c.verifyFailures + 1 }) s) :=
    updChan_front (fun _ => rfl) fun _ h => h
  have hjudged (s : State) : FrontKept s (countJudged p i.dataset s) := updChan_front (fun _ => rfl) fun _ h => h
  unfold homeFailed
  exact FrontKept.ite hcount (hcount.trans (hjudged _))

/-- A verdict moves sectors, counts, and may fail its channel (R345, R406). -/
theorem postVerdict_front (p : Nat) (i : Image) (pass : Bool) (s : State) : FrontKept s (postVerdict p i pass s) := by
  unfold postVerdict
  extract_lets at' s1 missed _ s2 _ s3 s4 s5 s6
  have hread : FrontKept s s1 := updChan_front (fun _ => rfl) fun _ h => h
  have hfill : FrontKept s1 s2 := .of_chans rfl rfl
  refine FrontKept.ite (hread.trans hfill) ?_
  have hcount : FrontKept s2 s3 := .of_chans rfl rfl
  have hsector : FrontKept s3 s4 := moveSector_front ..
  have hfails : FrontKept s4 s5 := .when (countFail_front p i.under) s4
  have hhome : FrontKept s5 s6 := .when (homeFailed_front p i) s5
  exact (((((hread.trans hfill).trans hcount).trans hsector).trans hfails).trans hhome).trans (.when (judgeChannel_front p i.dataset) s6)

/-- A domain of a channel that goes down (R400, R405). -/
theorem channelDown_front (p cause : Nat) (s : State) : FrontKept s (channelDown p cause s) ∧
    (getChan (channelDown p cause s) p).failed = true := by
  refine ⟨?_, declareFailed_failed ..⟩
  unfold channelDown
  extract_lets s1 c report down s2 _ s3
  have hdown : FrontKept s1 s2 := setChan_front rfl id
  have hoffsets : FrontKept s2 s3 := by
    subst s3
    split
    · exact .of_chans rfl rfl
    · exact .refl s2
  exact (((FrontKept.foldl (fun t i => postVerdict_front p i false t) (getChan s p).fifo s).trans hdown).trans hoffsets).trans
    (declareFailed_front ..)

theorem resetChannel_front (p rcause cause : Nat) (s : State) : FrontKept s (resetChannel p rcause cause s) ∧
    (getChan (resetChannel p rcause cause s) p).failed = true := by
  unfold resetChannel
  dsimp only
  split
  · exact ⟨declareFailed_front .., declareFailed_failed ..⟩
  · have hreset : FrontKept s { s with resets := s.resets ++ [{ code := 0x80 + p, cause := rcause }] } := .of_chans rfl rfl
    obtain ⟨h, k⟩ := channelDown_front p cause { s with resets := s.resets ++ [{ code := 0x80 + p, cause := rcause }] }
    exact ⟨hreset.trans h, k⟩

end Sys2Proof.Machine
end

section
/-! PROOFS. The head-front link and the temperature (R465, R586-R588, R593). -/

namespace Sys2Proof.Machine

/-! A fault map is taken (R588). -/

/-- One channel of a fault map. -/
def takeFault (chip : Nat) (map : BitVec 16) (s : State) (i : Nat) : State :=
  let p := 16 * chip + i
  if map.getLsbD i = (getChan s p).headFault then s
  else if map.getLsbD i then resetChannel p 8 2 (updChan p (fun c => { c with headFault := map.getLsbD i }) s)
  else updChan p (fun c => { c with headFault := map.getLsbD i }) s

/-- The channels `l` of a chip have taken their fault bits: a fault that rises fails its channel (R588). -/
structure FaultsTaken (chip : Nat) (map : BitVec 16) (l : List Nat) (s t : State) : Prop where
  tce : t.tce = s.tce
  taken : ∀ i ∈ l, (getChan t (16 * chip + i)).headFault = map.getLsbD i
  others : ∀ p, (∀ i ∈ l, p ≠ 16 * chip + i) → (getChan t p).headFault = (getChan s p).headFault
  kept : ∀ p, (getChan s p).failed = true → (getChan t p).failed = true
  fails : ∀ i ∈ l, map.getLsbD i = true → (getChan s (16 * chip + i)).headFault = false → (getChan t (16 * chip + i)).failed = true

theorem FaultsTaken.refl (chip : Nat) (map : BitVec 16) (s : State) : FaultsTaken chip map [] s s :=
  ⟨rfl, fun _ hi => absurd hi List.not_mem_nil, fun _ _ => rfl, fun _ h => h, fun _ hi => absurd hi List.not_mem_nil⟩

theorem takeFault_takes (chip : Nat) (map : BitVec 16) (s : State) (i : Nat) : FaultsTaken chip map [i] s (takeFault chip map s i) := by
  unfold takeFault
  dsimp only
  generalize hp : 16 * chip + i = p
  have one {P : Nat → Prop} (h : P i) : ∀ j ∈ [i], P j := fun j hj => List.mem_singleton.1 hj ▸ h
  by_cases h : map.getLsbD i = (getChan s p).headFault
  · rw [if_pos h]
    refine ⟨rfl, one (by rw [hp, h]), fun _ _ => rfl, fun _ hf => hf, one fun h1 h2 => ?_⟩
    rw [hp] at h2
    rw [h1, h2] at h
    cases h
  rw [if_neg h]
  have hself : (getChan (updChan p (fun c => { c with headFault := map.getLsbD i }) s) p).headFault = map.getLsbD i := by
    rw [getChan_updChan_self]
  have hother (q : Nat) (hq : q ≠ p) : getChan (updChan p (fun c => { c with headFault := map.getLsbD i }) s) q = getChan s q :=
    getChan_updChan_ne hq ..
  have hfail (q : Nat) (hq : (getChan s q).failed = true) :
      (getChan (updChan p (fun c => { c with headFault := map.getLsbD i }) s) q).failed = true := by
    by_cases hqp : q = p
    · rw [hqp] at hq ⊢
      rwa [getChan_updChan_self]
    · rwa [hother q hqp]
  have htce : (updChan p (fun c => { c with headFault := map.getLsbD i }) s).tce = s.tce := rfl
  generalize updChan p (fun c => { c with headFault := map.getLsbD i }) s = u at *
  have hne {q : Nat} (hq : ∀ j ∈ [i], q ≠ 16 * chip + j) : q ≠ p := hp ▸ hq i (List.mem_singleton.2 rfl)
  cases hm : map.getLsbD i with
  | false =>
    simp only [Bool.false_eq_true, if_false]
    exact ⟨htce, one (by rw [hp, hself]), fun q hq => by rw [hother q (hne hq)], hfail,
      one fun h1 => absurd (h1.symm.trans hm) (by decide)⟩
  | true =>
    simp only [if_true]
    obtain ⟨hk, hf⟩ := resetChannel_front p 8 2 u
    exact ⟨hk.tce.trans htce, one (by rw [hp]; exact (hk.fault p).trans hself), fun q hq => (hk.fault q).trans (by rw [hother q (hne hq)]),
      fun q hq => hk.failed q (hfail q hq), one fun _ _ => by rw [hp]; exact hf⟩

theorem FaultsTaken.cons {chip : Nat} {map : BitVec 16} {a : Nat} {l : List Nat} {s t u : State} (ha : a ∉ l)
    (h : FaultsTaken chip map [a] s t) (k : FaultsTaken chip map l t u) : FaultsTaken chip map (a :: l) s u := by
  have hne (i : Nat) (hi : i ∈ l) : 16 * chip + i ≠ 16 * chip + a := fun e => ha (by rwa [← Nat.add_left_cancel e])
  have hself := List.mem_singleton.2 (rfl : a = a)
  refine ⟨k.tce.trans h.tce, List.forall_mem_cons.2 ⟨?_, k.taken⟩, fun p hp => ?_, fun p hp => k.kept p (h.kept p hp),
    List.forall_mem_cons.2 ⟨fun hm hf => k.kept _ (h.fails a hself hm hf), fun i hi hm hf => k.fails i hi hm ?_⟩⟩
  · exact (k.others _ fun i hi => (hne i hi).symm).trans (h.taken a hself)
  · obtain ⟨hpa, hpl⟩ := List.forall_mem_cons.1 hp
    exact (k.others p hpl).trans (h.others p fun i hi => List.mem_singleton.1 hi ▸ hpa)
  · exact (h.others _ fun j hj => List.mem_singleton.1 hj ▸ hne i hi).trans hf

theorem foldl_takeFault_takes (chip : Nat) (map : BitVec 16) {l : List Nat} (hl : l.Nodup) (s : State) :
    FaultsTaken chip map l s (l.foldl (takeFault chip map) s) := by
  induction l generalizing s with
  | nil => exact .refl chip map s
  | cons a l ih =>
    obtain ⟨ha, hl⟩ := List.nodup_cons.1 hl
    exact .cons ha (takeFault_takes chip map s a) (ih hl _)

/-- A fault map reaches all the channels of its chip. -/
theorem takeFaults_takes (chip : Nat) (map : BitVec 16) (s : State) : FaultsTaken chip map (List.range 16) s (takeFaults chip map s) :=
  foldl_takeFault_takes chip map List.nodup_range s

/-! The head-front link (R586-R588). -/

/-- A status frame of the head front that fails a check is counted (R465, R586). -/
theorem exec_headFrontStatus_of_bad {f : StatusFrame} (h : statusCrc f = false) (s : State) : exec (.headFrontStatus f) s =
    .next { s with tce := { s.tce with hcfErrors := sat32 (s.tce.hcfErrors + 1) } } := by
  rw [exec_headFrontStatus, execHeadFrontStatus]
  exact if_pos (by simp [h])

/-- One that passes brings its fault map (R588). -/
theorem exec_headFrontStatus_of_good {f : StatusFrame} {s : State} (h : statusCrc f = true) (ha : f.address ≤ 7) (ht : f.ftype = 2)
    (he : f.echo = (Tab.getD s.tce.hcfSeq f.address 0 + 15) % 16) : exec (.headFrontStatus f) s =
    .next (takeFaults f.address f.value { s with tce := { s.tce with hcfSilent := Tab.put s.tce.hcfSilent f.address 0 } }) := by
  rw [exec_headFrontStatus, execHeadFrontStatus]
  exact if_neg (by simp [h, ht, he, Nat.not_lt.2 ha])

theorem headFrontStatus_takes {f : StatusFrame} {s : State} (h : statusCrc f = true) (ha : f.address ≤ 7) (ht : f.ftype = 2)
    (he : f.echo = (Tab.getD s.tce.hcfSeq f.address 0 + 15) % 16) : ∃ t, exec (.headFrontStatus f) s = .next t ∧
      Tab.get? t.tce.hcfSilent f.address = some 0 ∧
      (∀ i, i < 16 → (getChan t (16 * f.address + i)).headFault = f.value.getLsbD i) ∧
      (∀ i, i < 16 → f.value.getLsbD i = true → (getChan s (16 * f.address + i)).headFault = false →
        (getChan t (16 * f.address + i)).failed = true) := by
  have hk := takeFaults_takes f.address f.value { s with tce := { s.tce with hcfSilent := Tab.put s.tce.hcfSilent f.address 0 } }
  refine ⟨_, exec_headFrontStatus_of_good h ha ht he, ?_, fun i hi => hk.taken i (List.mem_range.2 hi),
    fun i hi => hk.fails i (List.mem_range.2 hi)⟩
  rw [hk.tce]
  exact Tab.get?_put_self ..

/-- The slot of a chip: a register write takes the place of a poll (R586, R588). -/
theorem exec_headFrontPoll_answered (s : State) : exec (.headFrontPoll false) s =
    .next (emit (.hcf (match s.tce.hcfWrites.find? (fun w => w.1 == s.tce.hcfChip % 8) with
        | some (_, r, d) => commandFrame (s.tce.hcfChip % 8) 0 (256 * r + d) (Tab.getD s.tce.hcfSeq (s.tce.hcfChip % 8) 0)
        | none => commandFrame (s.tce.hcfChip % 8) 4 0 (Tab.getD s.tce.hcfSeq (s.tce.hcfChip % 8) 0)))
      { s with tce := { s.tce with
        hcfChip := (s.tce.hcfChip % 8 + 1) % 8, hcfSilent := Tab.put s.tce.hcfSilent (s.tce.hcfChip % 8) 0,
        hcfSeq := Tab.put s.tce.hcfSeq (s.tce.hcfChip % 8) ((Tab.getD s.tce.hcfSeq (s.tce.hcfChip % 8) 0 + 1) % 16),
        hcfWrites := match s.tce.hcfWrites.find? (fun w => w.1 == s.tce.hcfChip % 8) with
          | some x => s.tce.hcfWrites.erase x
          | none => s.tce.hcfWrites } }) := rfl

theorem headFrontPoll_polls {s : State} (hk : s.tce.hcfChip < 8) (h : s.tce.hcfWrites = []) :
    ∃ t, exec (.headFrontPoll false) s = .next t ∧ t.tce.hcfChip = (s.tce.hcfChip + 1) % 8 ∧
      t.out = .hcf (commandFrame s.tce.hcfChip 4 0 (Tab.getD s.tce.hcfSeq s.tce.hcfChip 0)) :: s.out ∧
      Tab.get? t.tce.hcfSilent s.tce.hcfChip = some 0 ∧ t.chans = s.chans := by
  refine ⟨_, exec_headFrontPoll_answered s, ?_⟩
  rw [h, Nat.mod_eq_of_lt hk]
  exact ⟨rfl, rfl, Tab.get?_put_self .., rfl⟩

theorem headFrontPoll_writes {s : State} (hk : s.tce.hcfChip < 8) {r d : Nat} {l : List (Nat × Nat × Nat)}
    (h : s.tce.hcfWrites = (s.tce.hcfChip, r, d) :: l) : ∃ t, exec (.headFrontPoll false) s = .next t ∧ t.tce.hcfWrites = l ∧
      t.out = .hcf (commandFrame s.tce.hcfChip 0 (256 * r + d) (Tab.getD s.tce.hcfSeq s.tce.hcfChip 0)) :: s.out := by
  refine ⟨_, exec_headFrontPoll_answered s, ?_⟩
  have hf : s.tce.hcfWrites.find? (fun w => w.1 == s.tce.hcfChip) = some (s.tce.hcfChip, r, d) := by simp [h]
  rw [Nat.mod_eq_of_lt hk, hf]
  refine ⟨?_, rfl⟩
  change s.tce.hcfWrites.erase (s.tce.hcfChip, r, d) = l
  rw [h, List.erase_cons_head]

/-- The temperature of the die, and its maximum (R593). -/
theorem temperatureSample_takes (x : BitVec 16) (s : State) : ∃ t m, exec (.temperatureSample x) s = .next t ∧ t.health.temp = x ∧
    t.health.tempMax = some m ∧ (m = x ∨ s.health.tempMax = some m) ∧ x.sle m = true ∧
    (∀ k, s.health.tempMax = some k → k.sle m = true) ∧ t.health.causes = s.health.causes ∧ t.ev = s.ev := by
  refine ⟨_, _, rfl, rfl, rfl, ?_⟩
  cases h : s.health.tempMax with
  | none => exact ⟨.inl rfl, by simp [BitVec.sle], fun k hk => (by cases hk), rfl, rfl⟩
  | some m =>
    dsimp only
    split
    · next hlt =>
      exact ⟨.inl rfl, by simp [BitVec.sle], fun k hk => (by cases hk; simp [BitVec.sle, BitVec.slt] at hlt ⊢; omega), rfl, rfl⟩
    · next hlt =>
      exact ⟨.inr rfl, by simp [BitVec.sle, BitVec.slt] at hlt ⊢; omega, fun k hk => (by cases hk; simp [BitVec.sle]), rfl, rfl⟩

end Sys2Proof.Machine
end

section
/-! PROOFS. Requests to the transport, its faults cleared, and the Actuator Serial Link (R461, R463-R469). -/

namespace Sys2Proof.Machine

/-- What stands in a table after an entry is put in it. -/
theorem Tab.eq_or_mem_of_mem_put {α : Type} {t : Tab α} {i : Nat} {v : α} {p : Nat × α} (h : p ∈ Tab.put t i v) :
    p = (i, v) ∨ p ∈ t := by
  induction t with
  | nil => exact .inl (List.mem_singleton.1 h)
  | cons x t ih =>
    obtain ⟨k, w⟩ := x
    unfold Tab.put at h
    split at h
    · exact List.mem_cons.1 h
    split at h
    · exact (List.mem_cons.1 h).imp_right (List.mem_cons_of_mem _)
    · obtain h | h := List.mem_cons.1 h
      · exact .inr (h ▸ List.mem_cons_self)
      · exact (ih h).imp_right (List.mem_cons_of_mem _)

/-! Requests to the transport (R461, R467, R562). -/

theorem exec_threadRequest_of_tables {s : State} (hp : tceUnpowered s = false) (h : s.tce.state = .off) (hl : s.lc.state ≠ 4)
    (hv : tablesValid s = true) : ∃ t, exec .threadRequest s = .next t ∧ t.tce.state = .hold ∧ t.tce.rT = none ∧ t.tce.rS = none ∧
      (loopOf t 2).target = (param s 0x6000 4 * 1000000 : Nat) ∧ ∃ a b c d, t.out = .asl d :: .asl c :: .asl b :: .asl a :: s.out := by
  rw [exec_threadRequest, execThreadRequest, if_neg (by simp [hp]), if_neg (by simp [h, hl]), if_neg (by simp [hv])]
  exact ⟨_, rfl, rfl, rfl, rfl, rfl, _, _, _, _, rfl⟩

/-- A latched fault is set, and one of bit 9 or 10 takes the transport to FAULT (R467, R468). -/
theorem tceFault_of_off {bit : Nat} {s : State} (h : s.tce.state = .off) (hf : s.tce.faults.getLsbD bit = false)
    (hb : bit = 9 ∨ bit = 10) : (tceFault bit s).tce.state = .fault ∧ (tceFault bit s).tce.faults.getLsbD bit = true := by
  have hlt : bit < 32 := by omega
  unfold tceFault
  rw [if_neg (by simp [hf])]
  extract_lets _ s1 s2 _ s3
  have h1 : s1.tce = { s.tce with faults := s.tce.faults ||| BitVec.ofNat 32 (2 ^ bit) } := raise_tce ..
  have h2 : s2 = s1 := if_pos (by rw [h1]; exact h)
  have h3 : s3 = { s2 with tce := { s2.tce with state := .fault } } := if_pos (by obtain rfl | rfl := hb <;> simp)
  rw [(cartFault_ctlKept (.refl s3)).tce, h3, h2]
  refine ⟨rfl, ?_⟩
  change s1.tce.faults.getLsbD bit = true
  rw [h1, BitVec.getLsbD_or, getLsbD_ofNat_two_pow hlt, decide_eq_true rfl, Bool.or_true]

theorem exec_threadRequest_of_no_tables {s : State} (hp : tceUnpowered s = false) (h : s.tce.state = .off) (hl : s.lc.state ≠ 4)
    (hv : tablesValid s = false) (hf : s.tce.faults.getLsbD 9 = false) : ∃ t, exec .threadRequest s = .next t ∧
      t.tce.state = .fault ∧ t.tce.faults.getLsbD 9 = true := by
  rw [exec_threadRequest, execThreadRequest, if_neg (by simp [hp]), if_neg (by simp [h, hl]), if_pos (by simp [hv])]
  exact ⟨_, rfl, rfl, (tceFault_of_off h hf (.inl rfl)).2⟩

theorem retarget_self {l : Nat} {s : State} (h : l < s.tce.loops.length) (target : Int) :
    (loopOf (retarget l target s) l).target = target ∧ (loopOf (retarget l target s) l).newTarget = true := by
  rw [retarget, loopOf_setLoop_self h]
  exact ⟨rfl, rfl⟩

theorem motionRequest_moves {s : State} (hp : tceUnpowered s = false) (h : s.tce.state = .hold ∨ s.tce.state = .moving)
    (hl : s.tce.loops.length = 4) (v : Int) : ∃ t, exec (.motionRequest v) s = .next t ∧ t.tce.state = .moving ∧
      (loopOf t 3).target = 1000 * v ∧ (loopOf t 3).newTarget = true ∧ t.wr = s.wr ∧ t.out = s.out := by
  rw [exec_motionRequest, execMotionRequest, if_neg (by simp [hp]), if_pos (by simpa using h)]
  obtain ⟨ht, hn⟩ := retarget_self (s := { s with tce := { s.tce with state := .moving } }) (l := 3) (by simp [hl]) (1000 * v)
  exact ⟨_, rfl, rfl, ht, hn, rfl, rfl⟩

theorem motionRequest_of_still {s : State} (hp : tceUnpowered s = false) (h : s.tce.state ≠ .hold) (hm : s.tce.state ≠ .moving) (v : Int) :
    exec (.motionRequest v) s = .next s := by
  rw [exec_motionRequest, execMotionRequest, if_neg (by simp [hp]), if_neg (by simp [h, hm])]

theorem stopRequest_stops {s : State} (hp : tceUnpowered s = false) (h : s.tce.state = .moving) (hl : s.tce.loops.length = 4) :
    ∃ t, exec .stopRequest s = .next t ∧ t.tce.state = .stopping ∧ (loopOf t 3).target = 0 ∧ (loopOf t 3).newTarget = true ∧
      t.wr = s.wr ∧ t.out = s.out := by
  rw [exec_stopRequest, execStopRequest, if_neg (by simp [hp]), if_pos h]
  obtain ⟨ht, hn⟩ := retarget_self (s := { s with tce := { s.tce with state := .stopping } }) (l := 3) (by simp [hl]) 0
  exact ⟨_, rfl, rfl, ht, hn, rfl, rfl⟩

theorem stopRequest_of_not_moving {s : State} (hp : tceUnpowered s = false) (h : s.tce.state ≠ .moving) :
    exec .stopRequest s = .next s := by
  rw [exec_stopRequest, execStopRequest, if_neg (by simp [hp]), if_neg h]

/-! Faults that are cleared (R469). -/

/-- The fault bits that a clear leaves. -/
def faultsKept (bits : BitVec 32) (s : State) : BitVec 32 :=
  (List.range 11).foldl (fun a b => if s.tce.faults.getLsbD b && (!bits.getLsbD b || faultHolds s b) then
    a ||| BitVec.ofNat 32 (2 ^ b) else a) 0#32

theorem faultsKept_getLsbD (bits : BitVec 32) (s : State) {b : Nat} (h : b < 11) :
    (faultsKept bits s).getLsbD b = (s.tce.faults.getLsbD b && (!bits.getLsbD b || faultHolds s b)) := by
  refine (getLsbD_foldl_or (fun b => s.tce.faults.getLsbD b && (!bits.getLsbD b || faultHolds s b)) (List.range 11)
    (fun n hn => (List.mem_range.1 hn).trans (by decide)) 0#32 b).trans ?_
  simp [h]

theorem tceFaultClear_of_unable {bits : BitVec 32} {s : State} (h : s.tce.state ≠ .fault ∨ tapeStopped s = false) :
    exec (.tceFaultClear bits) s = .next s := by
  rw [exec_tceFaultClear, execTceFaultClear, tceClear, if_pos (by simpa using h)]

theorem tceFaultClear_of_kept {bits : BitVec 32} {s : State} (h : s.tce.state = .fault) (ht : tapeStopped s = true)
    (hk : faultsKept bits s ≠ 0#32) :
    exec (.tceFaultClear bits) s = .next { s with tce := { s.tce with faults := faultsKept bits s } } := by
  rw [exec_tceFaultClear, execTceFaultClear, tceClear, if_neg (by simp [h, ht])]
  exact congrArg Host.Outcome.next (if_pos hk)

theorem tceFaultClear_of_cleared {bits : BitVec 32} {s : State} (h : s.tce.state = .fault) (ht : tapeStopped s = true)
    (hk : faultsKept bits s = 0#32) : ∃ t, exec (.tceFaultClear bits) s = .next t ∧ t.tce.faults = faultsKept bits s ∧
      t.tce.state = .hold ∧ t.cart = s.cart := by
  rw [exec_tceFaultClear, execTceFaultClear, tceClear, if_neg (by simp [h, ht])]
  exact ⟨_, congrArg Host.Outcome.next (if_neg (not_not_intro hk)), rfl, rfl, rfl⟩

theorem tceFaultClear_takes (bits : BitVec 32) {s : State} (h : s.tce.state = .fault) (ht : tapeStopped s = true) :
    ∃ t, exec (.tceFaultClear bits) s = .next t ∧
      (∀ b, b < 11 → t.tce.faults.getLsbD b = (s.tce.faults.getLsbD b && (!bits.getLsbD b || faultHolds s b))) ∧
      (t.tce.faults = 0#32 → t.tce.state = .hold) ∧ (t.tce.faults ≠ 0#32 → t.tce.state = .fault) ∧ t.cart = s.cart := by
  by_cases hk : faultsKept bits s = 0#32
  · obtain ⟨t, he, hf, hs, hc⟩ := tceFaultClear_of_cleared h ht hk
    exact ⟨t, he, fun b hb => by rw [hf, faultsKept_getLsbD bits s hb], fun _ => hs, fun hn => absurd (hf.trans hk) hn, hc⟩
  · exact ⟨_, tceFaultClear_of_kept h ht hk, fun b hb => faultsKept_getLsbD bits s hb, fun hn => absurd hn hk, fun _ => h, rfl⟩

/-! The Actuator Serial Link (R463-R465). -/

/-- A frame to a stage that has answered all but two latches no fault (R468). -/
theorem aslCheck_sendAsl {s : State} (h : ∀ p ∈ s.tce.aslSilent, p.2 < 3) (a ftype : Nat) (v : Int) :
    aslCheck (sendAsl a ftype v s) = sendAsl a ftype v s := by
  have hlast : Tab.getD s.tce.aslSilent a 0 < 3 := by
    unfold Tab.getD
    cases hg : Tab.get? s.tce.aslSilent a with
    | none => decide
    | some n => exact h _ (Tab.mem_of_get? hg)
  have hnone : ((sendAsl a ftype v s).tce.aslSilent.any fun p => decide (3 < p.2)) = false := by
    refine List.any_eq_false.2 fun p hp => ?_
    have hle : p.2 ≤ 3 := by
      obtain rfl | hp := Tab.eq_or_mem_of_mem_put hp
      · exact hlast
      · exact Nat.le_of_lt (h p hp)
    simpa using hle
  rw [aslCheck, faultIf, hnone]
  rfl

theorem sendAsl_out (a ftype : Nat) (v : Int) (s : State) : (sendAsl a ftype v s).out =
    .asl (commandFrame a ftype (v % 65536).toNat (Tab.getD s.tce.aslSeq a 0)) :: s.out := rfl

theorem aslKeepalive_sends {s : State} (hp : tceUnpowered s = false) (hs : s.tce.stopFrames = 0) (h : ∀ p ∈ s.tce.aslSilent, p.2 < 3) :
    let a := (s.tce.frame - 1) % 4
    ∃ t, exec .aslKeepalive s = .next t ∧
      t.out = .asl (commandFrame a 4 (if a = 0 ∧ s.tce.seek then 1 else 0) (Tab.getD s.tce.aslSeq a 0)) :: s.out ∧
      Tab.get? t.tce.aslSeq a = some ((Tab.getD s.tce.aslSeq a 0 + 1) % 16) ∧ t.tce.faults = s.tce.faults := by
  intro a
  rw [exec_aslKeepalive, execAslKeepalive, if_neg (by simp [hp]), if_neg (not_not_intro hs)]
  refine ⟨_, congrArg Host.Outcome.next (aslCheck_sendAsl h a 4 _), ?_, Tab.get?_put_self .., rfl⟩
  rw [sendAsl_out]
  split <;> simp

theorem aslStatusFrame_of_bad {f : StatusFrame} {s : State} (hp : tceUnpowered s = false) (h : statusCrc f = false) :
    exec (.aslStatusFrame f) s = .next { s with tce := { s.tce with aslErrors := sat32 (s.tce.aslErrors + 1) } } := by
  rw [exec_aslStatusFrame, execAslStatusFrame, if_neg (by simp [hp])]
  exact if_pos (by simp [h])

theorem aslStatusFrame_answers {f : StatusFrame} {s : State} (hp : tceUnpowered s = false) (h : statusCrc f = true)
    (ha : f.address ≤ 3) (hs : Tab.getD s.tce.aslSilent f.address 0 ≠ 0)
    (he : f.echo = (Tab.getD s.tce.aslSeq f.address 0 + 15) % 16) (hf : f.flags.toNat % 16 = 0) :
    ∃ t, exec (.aslStatusFrame f) s = .next t ∧ Tab.get? t.tce.aslSilent f.address = none ∧
      Tab.get? t.tce.stageFlags f.address = some f.flags.toNat ∧ t.tce.faults = s.tce.faults ∧
      t.tce.aslErrors = s.tce.aslErrors ∧ t.out = s.out := by
  rw [exec_aslStatusFrame, execAslStatusFrame, if_neg (by simp [hp])]
  have hn : ¬(!statusCrc f || decide (3 < f.address) || decide (Tab.getD s.tce.aslSilent f.address 0 = 0) ||
      decide (f.echo ≠ (Tab.getD s.tce.aslSeq f.address 0 + 15) % 16)) = true := by
    simp [h, hs, he, Nat.not_lt.2 ha]
  refine ⟨_, (if_neg hn).trans (congrArg Host.Outcome.next (if_neg (by simp [hf]))), Tab.get?_del_self .., Tab.get?_put_self ..,
    rfl, rfl, rfl⟩

/-- Settles O51: each request, frame and sample by its own rule above. -/
theorem transportMovesAndLinksAnswer : Obligations.TransportMovesAndLinksAnswer := by
  unfold Obligations.TransportMovesAndLinksAnswer
  refine ⟨fun s hp => ⟨exec_threadRequest_of_tables hp, exec_threadRequest_of_no_tables hp, fun v h hl => motionRequest_moves hp h hl v,
      fun v h hm => motionRequest_of_still hp h hm v, stopRequest_stops hp, stopRequest_of_not_moving hp⟩,
    fun bits s => ⟨tceFaultClear_of_unable, tceFaultClear_takes bits⟩, fun s hp hs h => aslKeepalive_sends hp hs h,
    fun f s hp => ⟨fun h => ⟨_, aslStatusFrame_of_bad hp h, rfl, rfl⟩, aslStatusFrame_answers hp⟩,
    fun s hk => ⟨headFrontPoll_polls hk, fun r d l h => headFrontPoll_writes hk h⟩,
    fun f s => ⟨fun h => ⟨_, exec_headFrontStatus_of_bad h s, rfl, rfl⟩, headFrontStatus_takes⟩, temperatureSample_takes⟩

end Sys2Proof.Machine
end

section
/-! PROOFS. The life cycle: challenges, tokens, fuses and the debug ports (R560-R575). -/

namespace Sys2Proof.Machine

/-! Challenges and tokens (R567-R571). -/

/-- A dictionary with nothing to serve stays as it is (R481). -/
theorem serveLoop_of_empty {s : State} (h : s.dict.queue = []) (n : Nat) : serveLoop n s = s := by
  cases n with
  | zero => rfl
  | succ n =>
    unfold serveLoop
    rw [h]
    exact ite_self s

theorem serve_of_empty {s : State} (h : s.dict.queue = []) : serve s = s := serveLoop_of_empty h _

theorem lcChallengeRead_of_scrapped {s : State} (h : s.lc.state = 4) : exec .lcChallengeRead s = .next s := by
  rw [exec_lcChallengeRead, execLcChallengeRead, if_pos h]

theorem lcChallengeRead_draws {s : State} (h : s.lc.state ≠ 4) : ∃ t c, exec .lcChallengeRead s = .next t ∧
    t.lc = { s.lc with challenge := some c } ∧ t.out = .dictValue (beBytes 32 c.toNat) :: s.out ∧ t.ev = s.ev := by
  rw [exec_lcChallengeRead, execLcChallengeRead, if_neg h]
  exact ⟨_, _, rfl, rfl, rfl, rfl⟩

/-- A token of the right length is judged (R480, R569). -/
theorem exec_lcRequest_of_open {token : List Byte} {s : State} (hs : s.lc.state ≠ 4) (hl : token.length = 116) (p : Fin 4) :
    exec (.lcRequest p token) s = .next (lcRequest .row (principalBits p) token s).2 := by
  rw [exec_lcRequest, execLcRequest, if_neg (by simp [hs, hl])]

/-- A token that fails a check spends the challenge (R569). -/
theorem lcRequest_of_fault {prin : Nat} {token : List Byte} {s : State} {f : Nat × Status} (h : tokenFault s prin token = some f)
    (src : DictSrc) : (lcRequest src prin token s).2 = raise 0x781 [iCode f.1] { s with lc := { s.lc with challenge := none } } := by
  unfold lcRequest
  rw [h]

/-- The transition that a token starts (R570). -/
def tokenJob (src : DictSrc) (token : List Byte) (s : State) : LcJob :=
  { target := leNat (token.take 1), triple := if leNat (token.take 1) = 4 then none else some (lcCount s.lc.row),
    oldState := s.lc.state, src := src }

theorem lcRequest_of_pass {prin : Nat} {token : List Byte} {s : State} (h : tokenFault s prin token = none) (src : DictSrc) :
    (lcRequest src prin token s).2 = beforeFuses s.lc.state (leNat (token.take 1))
      (closeDebug { s with lc := { s.lc with challenge := none, job := some (tokenJob src token s) } }) := by
  unfold lcRequest
  rw [h]
  rfl

/-- A closed instruction decodes as BYPASS, and no more changes (R562). -/
theorem closeDebug_eq (s : State) : ∃ i, closeDebug s = { s with lc := { s.lc with jtag := i } } := by
  unfold closeDebug
  split <;> exact ⟨_, rfl⟩

theorem endLoads_ctlKept (s : State) : CtlKept s (endLoads s) := by
  unfold endLoads
  exact CtlKept.foldl (.upd (.refl s) rfl rfl rfl rfl rfl rfl rfl rfl rfl) fun t n ht => finish_ctlKept ht ..

/-- Zeroisation empties the key slots, the KEKs, the transport key and the Staxa keys, and leaves the life cycle (R249, R488, R572). -/
theorem zeroise_empties (s : State) : (zeroise s).lc = s.lc ∧ (zeroise s).cip.slots = [] ∧ (zeroise s).cip.keks = [] ∧
    (zeroise s).cip.transport = none ∧ (zeroise s).staxa.keys = [] := by
  unfold zeroise
  rw [raise_lc, raise_cip, raise_staxa]
  exact ⟨(endLoads_ctlKept s).lc, rfl, rfl, rfl, rfl⟩

/-- What goes before the fuses (R565, R572). -/
theorem beforeFuses_takes (now target : Nat) (s : State) : (beforeFuses now target s).lc = s.lc ∧
    ((target = 4 ∨ now = 2) → (beforeFuses now target s).cip.slots = [] ∧ (beforeFuses now target s).cip.keks = [] ∧
      (beforeFuses now target s).cip.transport = none ∧ (beforeFuses now target s).staxa.keys = []) ∧
    (target ≠ 4 → now ≠ 2 → (beforeFuses now target s).cip = s.cip ∧ (beforeFuses now target s).staxa = s.staxa) := by
  unfold beforeFuses
  by_cases h : target = 4 ∨ now = 2
  · rw [if_pos h]
    obtain ⟨hlc, hz⟩ := zeroise_empties s
    exact ⟨hlc, fun _ => hz, fun h1 h2 => absurd h (by simp [h1, h2])⟩
  · rw [if_neg h]
    split <;> exact ⟨rfl, fun hn => absurd hn h, fun _ _ => ⟨rfl, rfl⟩⟩

/-- A token that passes starts its transition (R565, R570, R572). -/
theorem lcRequest_starts {p : Fin 4} {token : List Byte} {s : State} (hs : s.lc.state ≠ 4) (hl : token.length = 116)
    (h : tokenFault s (principalBits p) token = none) :
    let target := leNat (token.take 1)
    ∃ t j, exec (.lcRequest p token) s = .next t ∧ t.lc.job = some j ∧ t.lc.challenge = none ∧ t.lc.row = s.lc.row ∧
      t.lc.state = s.lc.state ∧ j.target = target ∧ j.tries = 0 ∧
      j.triple = (if target = 4 then none else some (lcCount s.lc.row)) ∧
      ((target = 4 ∨ s.lc.state = 2) → t.cip.slots = [] ∧ t.cip.keks = [] ∧ t.cip.transport = none ∧ t.staxa.keys = []) ∧
      (target ≠ 4 → s.lc.state ≠ 2 → t.cip = s.cip ∧ t.staxa = s.staxa) := by
  intro target
  obtain ⟨i, hi⟩ := closeDebug_eq { s with lc := { s.lc with challenge := none, job := some (tokenJob .row token s) } }
  obtain ⟨hlc, hz, hk⟩ := beforeFuses_takes s.lc.state target
    (closeDebug { s with lc := { s.lc with challenge := none, job := some (tokenJob .row token s) } })
  refine ⟨_, tokenJob .row token s, by rw [exec_lcRequest_of_open hs hl, lcRequest_of_pass h], ?_⟩
  change target ≠ 4 → s.lc.state ≠ 2 → _ at hk
  rw [hi] at hlc hk ⊢
  rw [hi] at hz
  refine ⟨by rw [hlc], by rw [hlc], by rw [hlc], by rw [hlc], rfl, rfl, rfl, hz, hk⟩

/-! The fuse (R570). -/

/-- In FIELD a device without a transport key draws one: nothing but the random source, the keys and its event (R247, R573). -/
theorem fieldKey_keeps (s : State) : (fieldKey s).lc = s.lc ∧ (fieldKey s).dict = s.dict ∧
    Tab.getD (fieldKey s).ev.counts 0x780 0 = Tab.getD s.ev.counts 0x780 0 := by
  unfold fieldKey
  split
  · exact ⟨raise_lc .., raise_dict .., raise_count_ne (by decide) ..⟩
  · exact ⟨rfl, rfl, rfl⟩

/-- No session outlives a transition that the row itself reports (R570). -/
theorem lapseSessions_row (s : State) : lapseSessions .row s = { s with staxa := { s.staxa with sessions := [] } } := by
  have hkeep (l : Tab Session) : Tab.keep l (fun id (x : Session) => DictSrc.row == .staxa id && x.running.isSome) = [] :=
    List.filter_eq_nil_iff.2 fun p _ => by simp
  unfold lapseSessions
  simp only [hkeep, List.map_nil]

/-- The triple of a transition reads as blown: the row and the state that it reads (R560, R570). -/
def fuseBlown (j : LcJob) (s : State) : State :=
  let row := blowTriple s.lc.row (j.triple.getD 12)
  { s with lc := { s.lc with row := row, state := rowState row, job := none } }

/-- The fuse read back as blown ends the transition in the state that the row reads (R560, R570). -/
theorem lcFuseProgrammed_ends {j : LcJob} {s : State} (hj : s.lc.job = some j) (hsrc : j.src = .row) (hq : s.dict.queue = []) :
    ∃ t, exec (.lcFuseProgrammed true) s = .next t ∧ t.lc.row = blowTriple s.lc.row (j.triple.getD 12) ∧
      t.lc.state = rowState t.lc.row ∧ t.lc.job = none ∧ t.staxa.sessions = [] ∧
      Tab.getD t.ev.counts 0x780 0 = sat32 (Tab.getD s.ev.counts 0x780 0 + 1) := by
  obtain ⟨i, hi⟩ := closeDebug_eq (fuseBlown j s)
  obtain ⟨hlc, hdict, hcount⟩ := fieldKey_keeps (closeDebug (fuseBlown j s))
  have hfuse : lcFuse true s =
      lapseSessions .row (raise 0x780 [iCode j.oldState, iCode (fuseBlown j s).lc.state] (fieldKey (closeDebug (fuseBlown j s)))) := by
    rw [lcFuse, hj]
    simp only [Bool.not_true, Bool.false_eq_true, if_false, hsrc]
    rfl
  generalize fieldKey _ = u at hlc hdict hcount hfuse
  rw [hi] at hlc hdict hcount
  rw [exec_lcFuseProgrammed, execLcFuseProgrammed, hfuse, lapseSessions_row]
  refine ⟨_, congrArg Host.Outcome.next (serve_of_empty ?_), ?_⟩
  · exact (congrArg Dict.queue ((raise_dict ..).trans hdict)).trans hq
  dsimp only
  rw [raise_lc, hlc, raise_count_self, hcount]
  exact ⟨rfl, rfl, rfl, rfl, rfl⟩

theorem lcFuseProgrammed_again {j : LcJob} {s : State} (hj : s.lc.job = some j) (hq : s.dict.queue = []) (ht : j.tries < 3) :
    exec (.lcFuseProgrammed false) s = .next { s with lc := { s.lc with job := some { j with tries := j.tries + 1 } } } := by
  rw [exec_lcFuseProgrammed, execLcFuseProgrammed, lcFuse, hj]
  simp only [Bool.not_false, if_true, if_pos ht]
  exact congrArg Host.Outcome.next (serve_of_empty hq)

theorem lcFuseProgrammed_fails {j : LcJob} {s : State} (hj : s.lc.job = some j) (hsrc : j.src = .row) (hq : s.dict.queue = [])
    (ht : 3 ≤ j.tries) : exec (.lcFuseProgrammed false) s = .next { s with lc := { s.lc with job := none } } := by
  rw [exec_lcFuseProgrammed, execLcFuseProgrammed, lcFuse, hj]
  simp only [Bool.not_false, if_true, if_neg (Nat.not_lt.2 ht), hsrc]
  exact congrArg Host.Outcome.next (serve_of_empty hq)

/-! The debug ports (R562, R564). -/

theorem jtagInstruction_of_closed {i : JtagInstr} {s : State} (h : jtagOpen s i = false) :
    exec (.jtagInstruction i) s = .next { s with lc := { s.lc with jtag := .bypass } } := by
  rw [exec_jtagInstruction, execJtagInstruction, if_neg (by simp [h])]

/-- An open instruction is in force; the first Plovnor one since the reset is reported (R562, R564). -/
theorem jtagInstruction_of_open {i : JtagInstr} {s : State} (h : jtagOpen s i = true) :
    ∃ t, exec (.jtagInstruction i) s = .next t ∧ t.lc.jtag = i ∧ ((jtagPlovnor i = false ∨ s.lc.jtagUsed = true) → t.ev = s.ev) ∧
      (jtagPlovnor i = true → t.lc.jtagUsed = true ∧ (s.lc.jtagUsed = false →
        Tab.getD t.ev.counts 0x785 0 = sat32 (Tab.getD s.ev.counts 0x785 0 + 1))) := by
  rw [exec_jtagInstruction, execJtagInstruction, if_pos h]
  dsimp only
  cases hp : jtagPlovnor i with
  | false => exact ⟨_, rfl, rfl, fun _ => rfl, fun hn => absurd hn (by decide)⟩
  | true =>
    cases hu : s.lc.jtagUsed with
    | true => exact ⟨_, rfl, rfl, fun _ => rfl, fun _ => ⟨rfl, fun hn => absurd hn (by decide)⟩⟩
    | false =>
      refine ⟨_, rfl, ?_, fun hn => absurd hn (by decide), fun _ => ⟨?_, fun _ => raise_count_self ..⟩⟩ <;> rw [raise_lc]

theorem uartRxByte_of_closed {s : State} (h : debugOpen s = false) (b : Byte) : exec (.uartRxByte b) s = .next s := by
  rw [exec_uartRxByte, execUartRxByte, if_pos (by simp [h])]

/-- An open UART takes the byte; its first use since the reset is reported (R562, R564). -/
theorem uartRxByte_of_open {s : State} (h : debugOpen s = true) (b : Byte) : ∃ t o, exec (.uartRxByte b) s = .next t ∧
    t.lc.uartUsed = true ∧ t.out = o ++ .debug b.toNat :: s.out ∧
    (s.lc.uartUsed = false → Tab.getD t.ev.counts 0x785 0 = sat32 (Tab.getD s.ev.counts 0x785 0 + 1)) ∧
    (s.lc.uartUsed = true → t.ev = s.ev) := by
  rw [exec_uartRxByte, execUartRxByte, if_neg (by simp [h])]
  by_cases hu : s.lc.uartUsed = true
  · exact ⟨_, [], if_pos hu, hu, rfl, fun hn => absurd hu (by simp [hn]), fun _ => rfl⟩
  · obtain ⟨o, ho⟩ := (raise_notes 0x785 [iCode 1] { emit (.debug b.toNat) s with lc := { s.lc with uartUsed := true } }).out
    exact ⟨_, o, if_neg hu, by rw [raise_lc], ho, fun _ => raise_count_self .., fun hn => absurd hn hu⟩

/-- Settles O58: challenges, tokens, the fuse and the debug ports, each by its own rule above. -/
theorem lifeCycleMovesByTokens : Obligations.LifeCycleMovesByTokens := by
  unfold Obligations.LifeCycleMovesByTokens
  refine ⟨fun s => ⟨lcChallengeRead_of_scrapped, lcChallengeRead_draws, exec_lcChallengeExpiry s⟩, fun p token s hs hl => ⟨fun f hf => ?_,
      lcRequest_starts hs hl⟩,
    fun j s hj hsrc hq => ⟨lcFuseProgrammed_ends hj hsrc hq, lcFuseProgrammed_again hj hq, lcFuseProgrammed_fails hj hsrc hq⟩,
    fun i s => ⟨jtagInstruction_of_open, jtagInstruction_of_closed⟩, fun b s => ⟨fun h => uartRxByte_of_closed h b,
      fun h => uartRxByte_of_open h b⟩⟩
  refine ⟨_, (exec_lcRequest_of_open hs hl p).trans (congrArg Host.Outcome.next (lcRequest_of_fault hf .row)), ?_,
    raise_count_self .., ?_, ?_⟩
  · exact raise_lc ..
  · exact raise_cip ..
  · exact raise_staxa ..

end Sys2Proof.Machine
end

section
/-! PROOFS. Staxa and the management port (R488, R493-R500). -/

namespace Sys2Proof.Machine

/-! The dictionary server serves one operation (R481). -/

/-- With one operation in the queue, the server carries it out; with none left it stops. -/
theorem serve_one {op : DictOp} {s : State} (hp : s.dict.persisting = false) (hr : resetting s 5 = false)
    (hq : s.dict.queue = []) (ht : (serveOp op s).dict.queue = []) : serve (queueOp op s) = serveOp op s := by
  have hpop : ({ queueOp op s with dict := { (queueOp op s).dict with queue := [] } } : State) = s := by
    rw [← hq]
    rfl
  have hqueue : (queueOp op s).dict.queue = [op] := by
    rw [queueOp, hq]
    rfl
  have hgo : ¬((queueOp op s).dict.persisting || resetting (queueOp op s) 5) = true := by
    have : resetting (queueOp op s) 5 = resetting s 5 := rfl
    rw [this, hr]
    simp [queueOp, hp]
  have hfuel : ∃ n, serveFuel (queueOp op s) = n + 1 := ⟨_, rfl⟩
  obtain ⟨n, hn⟩ := hfuel
  rw [serve, hn, serveLoop, if_neg hgo, hqueue]
  dsimp only
  rw [hpop]
  exact serveLoop_of_empty ht n

/-! StaxaKey (R488). -/

theorem findEntry_staxaKey (k : Fin 8) : ∃ e, findEntry (0x1110 + k.val) 1 = some e ∧ e.kind = .blob ∧ e.len = 32 ∧ e.acc ≠ .ro ∧
    e.acc ≠ .rwp ∧ (∀ n < 4, e.mask.testBit n = true) ∧ 4 &&& e.wr ≠ 0 := by
  fin_cases k <;> exact ⟨_, rfl, by decide⟩

theorem familyOf_staxaKey (k : Fin 8) : familyOf (0x1110 + k.val) = 0x1110 := by
  have hk := k.isLt
  unfold familyOf
  rw [if_neg (by omega), if_neg (by omega), if_neg (by omega), if_neg (by omega), if_neg (by omega), if_pos (by omega)]

/-- A write of a Staxa key passes the checks of R480. -/
theorem checkOp_staxaKey (k : Fin 8) {key : List Byte} {s : State} (hl : key.length = 32) (hlc : s.lc.state < 4) :
    checkOp s { prin := 4, all := true } { src := .row, isWrite := true, index := 0x1110 + k.val, sub := 1, value := key } = none := by
  obtain ⟨e, he, hkind, hlen, hro, -, hmask, hwr⟩ := findEntry_staxaKey k
  have hk := k.isLt
  have hi : ∀ n, 0x1118 ≤ n ∨ n < 0x1110 → 0x1110 + k.val ≠ n := by omega
  have hfam := familyOf_staxaKey k
  have hadmits : admits s { prin := 4, all := true } { src := .row, isWrite := true, index := 0x1110 + k.val, sub := 1, value := key } e = true := by
    simp [admits, hmask _ hlc, hwr, hi]
  have hdepends : dependsOk s { prin := 4, all := true } (0x1110 + k.val) 1 key = true := by
    simp [dependsOk, hfam, hi]
  have hstate : stateAdmits s (0x1110 + k.val) 1 = true := by
    simp [stateAdmits, hfam, hi]
  simp [checkOp, he, hadmits, hro, lengthOk, hkind, hlen, hl, inRange, hdepends, hstate]

/-- A write of `StaxaKey` stores the key, or drops it when it is all zeros (R488). -/
theorem staxaKeyWrite_stores (k : Fin 8) {key : List Byte} {s : State} (hq : s.dict.queue = []) (hp : s.dict.persisting = false)
    (hr : resetting s 5 = false) (hlc : s.lc.state < 4) (hl : key.length = 32) :
    exec (.staxaKeyWrite k key) s = .next (putStaxaKey k.val key s) := by
  have hk := k.isLt
  obtain ⟨e, he, -, -, -, hrwp, -, -⟩ := findEntry_staxaKey k
  have hfam := familyOf_staxaKey k
  have hserve : serveOp { src := .row, isWrite := true, index := 0x1110 + k.val, sub := 1, value := key } s = putStaxaKey k.val key s := by
    have hpersist : persists { src := .row, isWrite := true, index := 0x1110 + k.val, sub := 1, value := key } = false := by
      simp [persists, he, hrwp]
    have hnow : writeNow .row { prin := 4, all := true } { src := .row, isWrite := true, index := 0x1110 + k.val, sub := 1, value := key } s =
        (some { st := .success }, putStaxaKey k.val key s) := by
      unfold writeNow
      simp [hfam]
      omega
    simp [serveOp, readerOf, overfull, heldByActivation, checkOp_staxaKey k hl hlc, hpersist, hnow, answerDict]
  rw [exec_staxaKeyWrite, execStaxaKeyWrite, rowWrite, serve_one hp hr hq (by rw [hserve]; exact hq), hserve]

/-! OPEN (R488, R494-R496). -/

/-- The lowest free number is at or above the start, and free. -/
theorem Tab.lowest_free {α : Type} {t : Tab α} {n i j : Nat} (h : Tab.lowest t n i = some j) : i ≤ j ∧ Tab.get? t j = none := by
  induction n generalizing i with
  | zero => cases h
  | succ n ih =>
    unfold Tab.lowest at h
    split at h
    · obtain ⟨hle, hfree⟩ := ih h
      exact ⟨Nat.le_of_succ_le hle, hfree⟩
    · next hfree =>
      obtain rfl := Option.some.inj h
      exact ⟨Nat.le_refl _, by simpa using hfree⟩

/-- Without a free number among those tried, all of them are keys. -/
theorem Tab.mem_keys_of_lowest_none {α : Type} {t : Tab α} {n i : Nat} (h : Tab.lowest t n i = none) :
    List.range' i n ⊆ t.map (·.1) := by
  induction n generalizing i with
  | zero => exact List.nil_subset _
  | succ n ih =>
    unfold Tab.lowest at h
    split at h
    · next hkey =>
      obtain ⟨v, hv⟩ := Option.isSome_iff_exists.1 hkey
      exact List.cons_subset.2 ⟨List.mem_map.2 ⟨_, Tab.mem_of_get? hv, rfl⟩, ih h⟩
    · cases h

/-- More numbers are tried than there are keys: one is free. -/
theorem Tab.lowest_of_length {α : Type} {t : Tab α} {n : Nat} (h : t.length < n) (i : Nat) : ∃ j, Tab.lowest t n i = some j := by
  cases hj : Tab.lowest t n i with
  | some j => exact ⟨j, rfl⟩
  | none =>
    have hle := ((List.nodup_range' (step := 1)).subperm (Tab.mem_keys_of_lowest_none hj)).length_le
    rw [List.length_range', List.length_map] at hle
    omega

/-- OPEN with the port on and the key admitted: its Tag is judged. -/
theorem exec_staxaOpen_of_wrong {nonce : BitVec 128} {timeout : BitVec 16} {keyId : Byte} {tag : BitVec 128} {key : Option (BitVec 256)}
    {s : State} (hr : resetting s 5 = false) (hon : staxaOn s = true) (hk : staxaKey s keyId.toNat = some key)
    (h : tagOk 1 0 0 keyId.toNat (key.getD 0) (beBytes 16 nonce.toNat ++ beBytes 2 timeout.toNat ++ [0#8, 0#8]) tag = false) :
    exec (.staxaOpen nonce timeout keyId tag) s = .next (tagFailed s) := by
  rw [exec_staxaOpen, execStaxaOpen]
  simp only [hr, hon, hk, h, Bool.false_eq_true, if_false, Bool.not_true, Bool.not_false, if_true]

theorem exec_staxaOpen_of_good {nonce : BitVec 128} {timeout : BitVec 16} {keyId : Byte} {tag : BitVec 128} {key : Option (BitVec 256)}
    {s : State} (hr : resetting s 5 = false) (hon : staxaOn s = true) (hk : staxaKey s keyId.toNat = some key)
    (h : tagOk 1 0 0 keyId.toNat (key.getD 0) (beBytes 16 nonce.toNat ++ beBytes 2 timeout.toNat ++ [0#8, 0#8]) tag = true) :
    exec (.staxaOpen nonce timeout keyId tag) s =
      match s.staxa.sessions.find? (fun p => p.2.clientNonce == nonce && p.2.keyId == keyId.toNat) with
      | some p => .next (emit (.staxa p.2.ack) s)
      | none => if 16 ≤ s.staxa.sessions.length then .next (staxaError 2 0 0 s)
        else .next (openSession nonce timeout.toNat keyId.toNat key s) := by
  rw [exec_staxaOpen, execStaxaOpen]
  simp only [hr, hon, hk, h, Bool.false_eq_true, if_false, Bool.not_true] <;> rfl

/-- An ERROR message changes no session (R495). -/
theorem staxaError_sessions (code session seq : Nat) (s : State) : (staxaError code session seq s).staxa.sessions = s.staxa.sessions := by
  unfold staxaError
  dsimp only
  split <;> rfl

/-- An ERROR message within the rate goes out (R495). -/
theorem staxaError_of_rare {s : State} (h : (s.staxa.errTimes.filter fun t => decide (s.time.toNat < t + 1000000000)).length < 100)
    (code session seq : Nat) : (staxaError code session seq s).out =
      .staxa (staxaMessage 7 session seq 0 0 [BitVec.ofNat 8 code, 0#8, 0#8, 0#8]) :: s.out := by
  unfold staxaError
  dsimp only
  rw [if_neg (by omega)]
  rfl

/-- The number that a new session takes, where it is free (R496). -/
def newSessionId (s : State) : Nat :=
  (Tab.lowest s.staxa.sessions 17 ((drawRandom s).1.toNat % (2 ^ 32 - 17) + 1)).getD 1

theorem newSessionId_free {s : State} (h : s.staxa.sessions.length < 16) :
    1 ≤ newSessionId s ∧ Tab.get? s.staxa.sessions (newSessionId s) = none := by
  obtain ⟨id, hid⟩ := Tab.lowest_of_length (t := s.staxa.sessions) (n := 17) (by omega) ((drawRandom s).1.toNat % (2 ^ 32 - 17) + 1)
  obtain ⟨hle, hfree⟩ := Tab.lowest_free hid
  rw [newSessionId, hid]
  exact ⟨(Nat.le_add_left 1 _).trans hle, hfree⟩

/-- A new session has the timeout that is granted, and its OPEN_ACK goes out (R479, R496). -/
theorem openSession_eq (nonce : BitVec 128) (asked keyId : Nat) (key : Option (BitVec 256)) (s : State) :
    ∃ x, openSession nonce asked keyId key s = emit (.staxa x.ack) { (drawRandom (drawRandom s).2).2 with
        staxa := { s.staxa with sessions := Tab.put s.staxa.sessions (newSessionId (drawRandom s).2) x } } ∧
      x.keyId = keyId ∧ x.clientNonce = nonce ∧ x.last = 0 ∧ x.running = none ∧ x.maker = decide (keyId = 0xFF) ∧
      x.timeout = max 5 (min (if asked = 0 then param s 0x1100 9 else asked) 3600) :=
  ⟨_, rfl, rfl, rfl, rfl, rfl, rfl, rfl⟩

/-- An OPEN of a new session (R496). -/
theorem staxaOpen_opens {nonce : BitVec 128} {timeout : BitVec 16} {keyId : Byte} {tag : BitVec 128} {key : Option (BitVec 256)}
    {s : State} (hr : resetting s 5 = false) (hon : staxaOn s = true) (hk : staxaKey s keyId.toNat = some key)
    (h : tagOk 1 0 0 keyId.toNat (key.getD 0) (beBytes 16 nonce.toNat ++ beBytes 2 timeout.toNat ++ [0#8, 0#8]) tag = true)
    (hnew : ∀ p ∈ s.staxa.sessions, p.2.clientNonce ≠ nonce ∨ p.2.keyId ≠ keyId.toNat) :
    (16 ≤ s.staxa.sessions.length → ∃ t, exec (.staxaOpen nonce timeout keyId tag) s = .next t ∧
      t.staxa.sessions = s.staxa.sessions) ∧
    (s.staxa.sessions.length < 16 → ∃ t id x, exec (.staxaOpen nonce timeout keyId tag) s = .next t ∧ 1 ≤ id ∧
      Tab.get? s.staxa.sessions id = none ∧ t.staxa.sessions = Tab.put s.staxa.sessions id x ∧ x.keyId = keyId.toNat ∧
      x.clientNonce = nonce ∧ x.last = 0 ∧ x.running = none ∧ x.maker = decide (keyId = 0xFF#8) ∧
      x.timeout = max 5 (min (if timeout = 0#16 then param s 0x1100 9 else timeout.toNat) 3600) ∧
      t.out = .staxa x.ack :: s.out) := by
  have hnone : s.staxa.sessions.find? (fun p => p.2.clientNonce == nonce && p.2.keyId == keyId.toNat) = none := by
    refine List.find?_eq_none.2 fun p hp => ?_
    obtain hn | hn := hnew p hp <;> simp [hn]
  rw [exec_staxaOpen_of_good hr hon hk h, hnone]
  dsimp only
  refine ⟨fun hfull => ⟨_, if_pos hfull, staxaError_sessions ..⟩, fun hroom => ?_⟩
  rw [if_neg (Nat.not_le.2 hroom)]
  obtain ⟨x, hx, hkey, hnonce, hlast, hrun, hmaker, htime⟩ := openSession_eq nonce timeout.toNat keyId.toNat key s
  obtain ⟨hpos, hfree⟩ := newSessionId_free (s := (drawRandom s).2) hroom
  refine ⟨_, newSessionId (drawRandom s).2, x, rfl, hpos, hfree, by rw [hx]; rfl, hkey, hnonce, hlast, hrun, ?_, ?_, by rw [hx]; rfl⟩
  · rw [hmaker]
    exact decide_eq_decide.2 (BitVec.toNat_inj (y := 0xFF#8))
  · rw [htime]
    have hz : timeout.toNat = 0 ↔ timeout = 0#16 := BitVec.toNat_inj (y := 0#16)
    simp only [hz]

/-! CLOSE, the idle timeout and datagrams (R493-R497). -/

theorem staxaClose_closes {session seq : BitVec 32} {tag : BitVec 128} {x : Session} {s : State} (hr : resetting s 5 = false)
    (hon : staxaOn s = true) (hx : Tab.get? s.staxa.sessions session.toNat = some x)
    (h : tagOk 5 session.toNat seq.toNat x.keyId x.key [] tag = true) (hseq : seq.toNat = x.last + 1) :
    ∃ t, exec (.staxaClose session seq tag) s = .next t ∧
      t.staxa = { s.staxa with sessions := Tab.del s.staxa.sessions session.toNat } ∧
      t.out = .staxa (staxaMessage 6 session.toNat seq.toNat x.keyId x.key []) :: s.out := by
  rw [exec_staxaClose, execStaxaClose]
  simp only [hr, hon, hx, h, Bool.false_eq_true, if_false, Bool.not_true]
  rw [if_neg (not_not_intro hseq)]
  exact ⟨_, rfl, rfl, rfl⟩

theorem unusableDatagram_counts {s : State} (hr : resetting s 5 = false) :
    (∀ d ∈ [BadDatagram.short, .badMagic], exec (.unusableDatagram d) s =
      .next { s with staxa := { s.staxa with dropped := sat32 (s.staxa.dropped + 1) } }) ∧
    (staxaOn s = true → exec (.unusableDatagram .tagFails) s =
      .next { s with staxa := { s.staxa with authFailures := sat32 (s.staxa.authFailures + 1) } }) ∧
    (∀ a b, staxaOn s = true → (s.staxa.errTimes.filter fun t => decide (s.time.toNat < t + 1000000000)).length < 100 →
      ∃ t, exec (.unusableDatagram (.badVersion a b)) s = .next t ∧ t.staxa.sessions = s.staxa.sessions ∧
        t.out = .staxa (staxaMessage 7 a b 0 0 [3#8, 0#8, 0#8, 0#8]) :: s.out) := by
  simp only [exec_unusableDatagram, execUnusableDatagram, hr, Bool.false_eq_true, if_false]
  refine ⟨fun d hd => ?_, fun hon => by rw [if_pos hon]; rfl, fun a b hon hrare => ?_⟩
  · obtain rfl | rfl : d = .short ∨ d = .badMagic := by simpa using hd
    · rfl
    · rfl
  · rw [if_pos hon]
    exact ⟨_, rfl, staxaError_sessions .., staxaError_of_rare hrare ..⟩

/-! The port's own addresses (R493). -/

theorem port_answers (v4 : BitVec 32) (v6 : BitVec 128) (b : Bool) (payload : List Byte) {s : State} (hr : resetting s 5 = false) :
    (ownV4 s v4.toNat = true → exec (.arpRequest v4) s = .next (emit (.net (portMac ++ beBytes 4 v4.toNat)) s)) ∧
    (ownV4 s v4.toNat = false → exec (.arpRequest v4) s = .next s) ∧
    (ownV6 s v6.toNat = true → exec (.neighborDiscovery v6) s = .next (emit (.net (portMac ++ beBytes 16 v6.toNat)) s)) ∧
    (ownV6 s v6.toNat = false → exec (.neighborDiscovery v6) s = .next s) ∧
    ((if b then ownV6 s v6.toNat else ownV4 s v6.toNat) = true → exec (.icmpEcho b v6 payload) s = .next (emit (.net payload) s)) := by
  simp only [exec_arpRequest, execArpRequest, exec_neighborDiscovery, execNeighborDiscovery, exec_icmpEcho, execIcmpEcho, hr, Bool.false_or]
  refine ⟨fun h => ?_, fun h => ?_, fun h => ?_, fun h => ?_, fun h => ?_⟩ <;> simp [h]

/-! REQUEST (R494, R495, R497-R500). -/

/-- The running REQUEST of one operation. -/
def running (session seq : Nat) (o : StaxaOp) (s : State) : State :=
  updSession session (fun x => { x with running := some (seq, [o], [], 0) }) s

/-- A REQUEST whose Tag is right and that is as R498 lays down follows the sequence rules (R497). -/
theorem exec_staxaRequest_of_good {session seq : BitVec 32} {o : StaxaOp} {tag : BitVec 128} {x : Session} {s : State}
    (hr : resetting s 5 = false) (hon : staxaOn s = true) (hx : Tab.get? s.staxa.sessions session.toNat = some x)
    (hok : requestOk [o] = true) (hallow : requestAllowed s [o] = true)
    (h : tagOk 3 session.toNat seq.toNat x.keyId x.key (requestPayload [o]) tag = true) :
    exec (.staxaRequest session seq [o] tag) s = .next (takeRequest session.toNat seq.toNat [o] x s) := by
  rw [exec_staxaRequest, execStaxaRequest]
  simp only [hr, hon, hx, h, hok, hallow, Bool.false_eq_true, if_false, Bool.not_true]

/-- The next Sequence starts the REQUEST (R497). -/
theorem takeRequest_of_next {id seq : Nat} {x : Session} (hl : x.last ≠ 0xFFFFFFFF) (hs : seq = x.last + 1) (hrun : x.running = none)
    (o : StaxaOp) (s : State) : takeRequest id seq [o] x s = serve (queueOp (opOfStaxa id o) (running id seq o s)) := by
  unfold takeRequest
  rw [if_pos ⟨hl, hs⟩, if_neg (by simp [hrun])]
  rfl

/-- The last Sequence brings its RESPONSE again (R497). -/
theorem takeRequest_of_last {id seq : Nat} {x : Session} (hs : seq = x.last) (hl : x.last ≠ 0) (o : StaxaOp) (s : State) :
    takeRequest id seq [o] x s = emit (.staxa x.response) s := by
  unfold takeRequest
  rw [if_neg (by omega), if_pos ⟨hs, hl⟩]

/-- Any other Sequence is refused (R497). -/
theorem takeRequest_of_other {id seq : Nat} {x : Session} (hs : seq ≠ x.last) (hn : seq ≠ x.last + 1) (o : StaxaOp) (s : State) :
    takeRequest id seq [o] x s = staxaError 5 id seq s := by
  unfold takeRequest
  rw [if_neg (fun h => hn h.2), if_neg (fun h => hs h.1)]

section
variable {id seq : Nat} {o : StaxaOp} {x : Session} {s : State} (hx : Tab.get? s.staxa.sessions id = some x)
include hx

theorem running_get : Tab.get? (running id seq o s).staxa.sessions id = some { x with running := some (seq, [o], [], 0) } := by
  rw [running, updSession]
  exact (Tab.get?_upd_self ..).trans (by rw [hx]; rfl)

/-- The reader of a session is the same while its REQUEST runs. -/
theorem readerOf_running : readerOf (running id seq o s) (.staxa id) = readerOf s (.staxa id) := by
  simp only [readerOf, running_get hx, hx, Option.map_some]

/-- The only operation of a REQUEST is answered: the RESPONSE goes out and is kept (R497, R498). -/
theorem answerStaxa_running {t : State} (ht : t.staxa = (running id seq o s).staxa) (hc : x.closing = false) (a : DictAns) :
    let v := if o.op = 1 && !a.st.isError then a.value else []
    let m := staxaMessage 4 id seq x.keyId x.key ([1#8, 0#8, 0#8, 0#8] ++ staxaResult o a.st v)
    (answerStaxa id a t).out = .staxa m :: t.out ∧ (answerStaxa id a t).dict = t.dict ∧
      Tab.get? (answerStaxa id a t).staxa.sessions id = some { x with last := seq, response := m, running := none } := by
  intro v m
  have hget : Tab.get? t.staxa.sessions id = some { x with running := some (seq, [o], [], 0) } := by
    rw [ht, running_get hx]
  have hnext : Tab.get? (updSession id (fun x => { x with running := some (seq, [], staxaResult o a.st v, 1) }) t).staxa.sessions id =
      some { x with running := some (seq, [], staxaResult o a.st v, 1) } := by
    exact (Tab.get?_upd_self ..).trans (by rw [hget]; rfl)
  have hanswer : answerStaxa id a t =
      staxaRespond id (updSession id (fun x => { x with running := some (seq, [], staxaResult o a.st v, 1) }) t) := by
    unfold answerStaxa
    rw [hget]
    rfl
  have hrespond : staxaRespond id (updSession id (fun x => { x with running := some (seq, [], staxaResult o a.st v, 1) }) t) =
      emit (.staxa m) (updSession id (fun x => { x with last := seq, response := m, running := none })
        (updSession id (fun x => { x with running := some (seq, [], staxaResult o a.st v, 1) }) t)) := by
    unfold staxaRespond
    rw [hnext]
    exact if_neg (by simp [hc])
  rw [hanswer, hrespond]
  refine ⟨rfl, rfl, ?_⟩
  exact (Tab.get?_upd_self ..).trans (by rw [hnext]; rfl)

end

/-- A read in a REQUEST, as the server takes it (R498). -/
theorem opOfStaxa_isWrite {o : StaxaOp} (ho : o.op = 1) (id : Nat) : (opOfStaxa id o).isWrite = false := by
  simp [opOfStaxa, ho]

/-- The checks of a read do not see the running REQUEST (R480). -/
theorem checkOp_running {o : StaxaOp} (ho : o.op = 1) (id seq : Nat) (r : Reader) (s : State) :
    checkOp (running id seq o s) r (opOfStaxa id o) = checkOp s r (opOfStaxa id o) := by
  unfold checkOp
  simp only [opOfStaxa_isWrite ho, Bool.not_false, if_true]
  rfl

/-- A result of at most 1,024 bytes never stops a REQUEST of one read (R498). -/
theorem overfull_running {id seq : Nat} {o : StaxaOp} {x : Session} {s : State} (hx : Tab.get? s.staxa.sessions id = some x) {r : Reader}
    (h : resultSize (running id seq o s) r (opOfStaxa id o) ≤ 1032) : overfull (running id seq o s) r (opOfStaxa id o) = none := by
  change ((Tab.get? (running id seq o s).staxa.sessions id).bind (·.running)).bind _ = none
  rw [running_get hx]
  exact if_neg (by simp only [List.length_nil]; omega)

section
variable {id seq : Nat} {o : StaxaOp} {x : Session} {r : Reader} {s : State} (hx : Tab.get? s.staxa.sessions id = some x) (ho : o.op = 1)
  (hr : readerOf s (.staxa id) = some r)
include hx ho hr

/-- The server answers a read with its value (R481, R498). -/
theorem serveOp_running_of_value {e : Entry} (hc : checkOp s r (opOfStaxa id o) = none) (he : findEntry o.index o.sub = some e)
    (h1 : o.index ≠ 0x9010) (h2 : o.index ≠ 0x8020) (hl : (readValue (running id seq o s) r o.index o.sub e).length ≤ 1024) :
    serveOp (opOfStaxa id o) (running id seq o s) =
      answerStaxa id { st := .success, value := readValue (running id seq o s) r o.index o.sub e } (drew (running id seq o s)) := by
  have hsize : resultSize (running id seq o s) r (opOfStaxa id o) ≤ 1032 := by
    have hw : ((opOfStaxa id o).isWrite || (checkOp (running id seq o s) r (opOfStaxa id o)).isSome) = false := by
      rw [opOfStaxa_isWrite ho, checkOp_running ho, hc]
      rfl
    have hf : findEntry (opOfStaxa id o).index (opOfStaxa id o).sub = some e := he
    rw [resultSize, hw, hf]
    simp only [Bool.false_eq_true, if_false]
    rw [if_neg fun h => h1 h.1]
    exact Nat.add_le_add_left hl 8
  have hread : readNow (.staxa id) r (opOfStaxa id o) (running id seq o s) =
      (readValue (running id seq o s) r o.index o.sub e, drew (running id seq o s)) := by
    have hf : findEntry (opOfStaxa id o).index (opOfStaxa id o).sub = some e := he
    rw [readNow, if_neg fun h => h1 h.1, if_neg fun h => h2 h.1, hf]
    rfl
  have hreader : readerOf (running id seq o s) (opOfStaxa id o).src = some r := (readerOf_running hx).trans hr
  rw [serveOp, hreader]
  simp only [overfull_running hx hsize, heldByActivation, opOfStaxa_isWrite ho, Bool.and_false, Bool.false_and, Bool.false_eq_true, if_false,
    checkOp_running ho, hc, Bool.not_false, if_true]
  rw [show (opOfStaxa id o).src = .staxa id from rfl, hread]
  rfl

/-- The server answers a read that fails a check with that check's status (R480, R498). -/
theorem serveOp_running_of_fault {st : Status} (hc : checkOp s r (opOfStaxa id o) = some st) :
    serveOp (opOfStaxa id o) (running id seq o s) = answerStaxa id { st := st } (running id seq o s) := by
  have hsize : resultSize (running id seq o s) r (opOfStaxa id o) ≤ 1032 := by
    rw [resultSize, checkOp_running ho, hc]
    simp
  have hreader : readerOf (running id seq o s) (opOfStaxa id o).src = some r := (readerOf_running hx).trans hr
  rw [serveOp, hreader]
  simp only [overfull_running hx hsize, heldByActivation, opOfStaxa_isWrite ho, Bool.and_false, Bool.false_and, Bool.false_eq_true, if_false,
    checkOp_running ho, hc]
  rfl

end

/-- A REQUEST of one read is executed, and its RESPONSE sent and kept (R497, R498). -/
theorem staxaRequest_responds {session seq : BitVec 32} {o : StaxaOp} {tag : BitVec 128} {x : Session} {s : State}
    (hr : resetting s 5 = false) (hon : staxaOn s = true) (hx : Tab.get? s.staxa.sessions session.toNat = some x)
    (hok : requestOk [o] = true) (hallow : requestAllowed s [o] = true)
    (h : tagOk 3 session.toNat seq.toNat x.keyId x.key (requestPayload [o]) tag = true) (hl : x.last ≠ 0xFFFFFFFF)
    (hs : seq.toNat = x.last + 1) (hrun : x.running = none) (hcl : x.closing = false) (hq : s.dict.queue = [])
    (hp : s.dict.persisting = false) {a : DictAns} {t : State} (ht : t.staxa = (running session.toNat seq.toNat o s).staxa)
    (htd : t.dict = s.dict) (hto : t.out = s.out) (hval : (if o.op = 1 && !a.st.isError then a.value else []) = a.value)
    (hserve : serveOp (opOfStaxa session.toNat o) (running session.toNat seq.toNat o s) = answerStaxa session.toNat a t) :
    let m := staxaMessage 4 session.toNat seq.toNat x.keyId x.key ([1#8, 0#8, 0#8, 0#8] ++ staxaResult o a.st a.value)
    ∃ t, exec (.staxaRequest session seq [o] tag) s = .next t ∧ t.out = .staxa m :: s.out ∧
      Tab.get? t.staxa.sessions session.toNat = some { x with last := seq.toNat, response := m, running := none } := by
  intro m
  obtain ⟨hout, hdict, hget⟩ := answerStaxa_running hx ht hcl a
  rw [hval] at hout hget
  refine ⟨answerStaxa session.toNat a t, ?_, by rw [hout, hto], hget⟩
  rw [exec_staxaRequest_of_good hr hon hx hok hallow h, takeRequest_of_next hl hs hrun,
    serve_one (s := running session.toNat seq.toNat o s) hp hr hq, hserve]
  rw [hserve, hdict, htd]
  exact hq

/-- Settles O53: keys, sessions, messages and the port's own addresses, each by its own rule above. -/
theorem staxaAndPortAnswer : Obligations.StaxaAndPortAnswer := by
  unfold Obligations.StaxaAndPortAnswer
  refine ⟨fun k key s hq hp hr hlc hl => ?_, fun nonce timeout keyId tag key s hr hon hk => ⟨fun hg => ?_, fun hg p hf => ?_, fun hg hnew => ?_⟩,
    fun session seq o tag x s hr hon hx hok hallow h => ⟨fun hl hs hrun hcl hq hp r hrd => ⟨fun e ho hc he h1 h2 hlen => ?_, fun st ho hc => ?_⟩,
      fun hs hl => ?_, fun hs hn hrare => ?_⟩,
    fun session seq tag x s hr hon hx h hseq => staxaClose_closes hr hon hx h hseq, fun session s => rfl,
    fun s hr => unusableDatagram_counts hr, fun v4 v6 b payload s hr => port_answers v4 v6 b payload hr⟩
  · refine ⟨_, staxaKeyWrite_stores k hq hp hr hlc hl, rfl, fun hz => ?_, fun hz => ?_, rfl, rfl⟩
    · exact if_pos hz
    · exact if_neg (by simp [hz])
  · exact ⟨_, exec_staxaOpen_of_wrong hr hon hk hg, rfl, rfl⟩
  · rw [exec_staxaOpen_of_good hr hon hk hg, hf]
  · exact staxaOpen_opens hr hon hk hg hnew
  · exact staxaRequest_responds hr hon hx hok hallow h hl hs hrun hcl hq hp (t := drew (running session.toNat seq.toNat o s))
      (a := { st := .success, value := readValue (running session.toNat seq.toNat o s) r o.index o.sub e }) rfl rfl rfl
      (by rw [ho]; rfl) (serveOp_running_of_value hx ho hrd hc he h1 h2 hlen)
  · exact staxaRequest_responds hr hon hx hok hallow h hl hs hrun hcl hq hp (t := running session.toNat seq.toNat o s)
      (a := { st := st }) rfl rfl rfl (ite_self _)
      (serveOp_running_of_fault hx ho hrd hc)
  · rw [exec_staxaRequest_of_good hr hon hx hok hallow h, takeRequest_of_last hs hl]
  · rw [exec_staxaRequest_of_good hr hon hx hok hallow h, takeRequest_of_other hs hn]
    exact ⟨_, rfl, staxaError_sessions .., staxaError_of_rare hrare ..⟩

end Sys2Proof.Machine
end

section
/-! SUPPORT. What leaves D3hot, the queue pairs that there are, the functions ready and the count of domain resets reported as they
were: interrupts, events, and the completion of a command. -/

namespace Sys2Proof.Machine

/-- Of the host interface: D3hot, which queue pairs there are, and which functions are ready. -/
def quietHost (h : HostIf) : Bool × (Nat → Nat → Bool) × (Nat → Bool) :=
  (h.d3hot, fun f q => (Tab.get? (Tab.getD h.fns f {}).qps q).isSome, fun f => (Tab.getD h.fns f {}).ready)

/-- Of the Event Unit: how many resets of domains have been reported (0x7D0, R548). -/
def domainReports (e : Ev) : Nat := Tab.getD e.counts 0x7D0 0

/-- `t` has the D3hot, the queue pairs and the functions ready of `s`, and as many reports of domains. -/
@[simp] abbrev Quiet (s t : State) : Prop := quietHost t.host = quietHost s.host ∧ domainReports t.ev = domainReports s.ev

/-- The commands in flight are no part of it. -/
@[simp] theorem quietHost_cmds (h : HostIf) (c : Tab Cmd) : quietHost { h with cmds := c } = quietHost h := rfl

@[simp] theorem ite_quietHost (p : Prop) [Decidable p] (a b : State) :
    quietHost (if p then a else b).host = if p then quietHost a.host else quietHost b.host :=
  apply_ite (fun s : State => quietHost s.host) ..

@[simp] theorem ite_domainReports (p : Prop) [Decidable p] (a b : State) :
    domainReports (if p then a else b).ev = if p then domainReports a.ev else domainReports b.ev :=
  apply_ite (fun s : State => domainReports s.ev) ..

@[simp] theorem foldl_quietHost {α : Type} {f : State → α → State} (hf : ∀ t a, quietHost (f t a).host = quietHost t.host)
    (l : List α) (s : State) : quietHost (l.foldl f s).host = quietHost s.host :=
  foldl_keeps (fun s : State => quietHost s.host) hf l s

@[simp] theorem foldl_domainReports {α : Type} {f : State → α → State}
    (hf : ∀ t a, domainReports (f t a).ev = domainReports t.ev) (l : List α) (s : State) :
    domainReports (l.foldl f s).ev = domainReports s.ev :=
  foldl_keeps (fun s : State => domainReports s.ev) hf l s

/-- A fold of an operation that keeps what `Quiet` says. -/
theorem foldl_quiet {α : Type} {f : State → α → State} (hf : ∀ t a, Quiet t (f t a)) (l : List α) (s : State) :
    Quiet s (l.foldl f s) :=
  ⟨foldl_quietHost (fun t a => (hf t a).1) .., foldl_domainReports (fun t a => (hf t a).2) ..⟩

theorem Quiet.trans {s t u : State} (h : Quiet s t) (k : Quiet t u) : Quiet s u := ⟨k.1.trans h.1, k.2.trans h.2⟩

/-- A function that keeps its queue pairs and stays ready or not. -/
theorem updFn_quiet (f : Nat) (g : Fn → Fn) (s : State) (hg : ∀ x, (g x).qps = x.qps ∧ (g x).ready = x.ready) :
    Quiet s (updFn f g s) := by
  have hfn (k : Nat) : (getFn (updFn f g s) k).qps = (getFn s k).qps ∧ (getFn (updFn f g s) k).ready = (getFn s k).ready := by
    by_cases hk : k = f
    · rw [hk, getFn_updFn_self]
      exact hg _
    · rw [getFn_updFn_ne _ _ hk]
      exact ⟨rfl, rfl⟩
  have hqp (k q : Nat) : (getQp (updFn f g s) k q).isSome = (getQp s k q).isSome := by rw [getQp, getQp, (hfn k).1]
  exact ⟨Prod.ext rfl (Prod.ext (funext fun k => funext (hqp k)) (funext fun k => (hfn k).2)), rfl⟩

/-- A queue pair that is there is replaced. -/
theorem setQp_quiet {f q : Nat} {v : Qp} {s : State} (h : getQp s f q = some v) (w : Qp) : Quiet s (setQp f q w s) := by
  have hqp (g r : Nat) : (getQp (setQp f q w s) g r).isSome = (getQp s g r).isSome := by
    by_cases hk : g ≠ f ∨ r ≠ q
    · rw [getQp_setQp_ne _ _ hk]
    · obtain ⟨rfl, rfl⟩ : g = f ∧ r = q := by simpa using hk
      rw [getQp_setQp_self, h]
      rfl
  have hready (g : Nat) : (getFn (setQp f q w s) g).ready = (getFn s g).ready := by
    by_cases hg : g = f
    · rw [hg, setQp, getFn_updFn_self]
    · rw [setQp, getFn_updFn_ne _ _ hg]
  exact ⟨Prod.ext rfl (Prod.ext (funext fun g => funext (hqp g)) (funext hready)), rfl⟩

@[simp] theorem sendMsix_quiet (f v : Nat) (s : State) : Quiet s (sendMsix f v s) := by
  unfold sendMsix
  dsimp only
  split
  · exact updFn_quiet _ _ _ fun _ => ⟨rfl, rfl⟩
  · exact ⟨rfl, rfl⟩

@[simp] theorem toHost_quiet (e : EvEntry) (s : State) : Quiet s (toHost e s) := by
  unfold toHost
  extract_lets p armed _ t
  have hcounts (b : Bool) (v : Ev) : (lostHost b v).counts = v.counts := by
    unfold lostHost
    split <;> rfl
  have ht : Quiet s t := ⟨rfl, congrArg (Tab.getD · 0x7D0 0) (hcounts ..)⟩
  split
  · simpa using ht
  · exact ht

@[simp] theorem shutdownCheck_quiet (f : Nat) (s : State) : Quiet s (shutdownCheck f s) := by
  unfold shutdownCheck
  dsimp only
  split
  · exact updFn_quiet _ _ _ fun _ => ⟨rfl, rfl⟩
  · exact ⟨rfl, rfl⟩

/-- An event other than the report of a domain. -/
@[simp] theorem raise_quiet {n : Nat} (h : n ≠ 0x7D0) (l : List (Nat × Nat)) (s : State) : Quiet s (raise n l s) := by
  refine ⟨?_, ?_⟩
  · unfold raise
    extract_lets r e _ s1 s2
    have h2 : quietHost s2.host = quietHost s.host := by simp [s2, s1]
    split <;> exact h2
  · unfold domainReports
    rw [raise_counts, Tab.getD_put_ne _ _ _ h.symm]

@[simp] theorem raiseIf_quiet (b : Bool) {n : Nat} (h : n ≠ 0x7D0) (l : List (Nat × Nat)) (s : State) :
    Quiet s (raiseIf b n l s) := by
  simp [raiseIf, h]

@[simp] theorem enterCart_quiet (now : CartState) (s : State) : Quiet s (enterCart now s) := by
  simp [enterCart]

@[simp] theorem endFormat_quiet (ok : Option Bool) (s : State) : Quiet s (endFormat ok s) := by
  unfold endFormat
  dsimp only
  split <;> simp

@[simp] theorem PostAct.apply_quiet (a : PostAct) (s : State) : Quiet s (a.apply s) := by
  cases a with
  | resetPosted f q =>
    unfold PostAct.apply updQp
    dsimp only
    split
    · exact setQp_quiet ‹_› _
    · exact ⟨rfl, rfl⟩
  | openFailed n key => cases key <;> simp [PostAct.apply, unbindKey, updKey, updStream]
  | _ => simp [PostAct.apply]

@[simp] theorem updCmd_quiet (slot : Nat) (g : Cmd → Cmd) (s : State) : Quiet s (updCmd slot g s) := by
  unfold updCmd
  split <;> exact ⟨rfl, rfl⟩

@[simp] theorem dropCmd_quiet (slot : Nat) (s : State) : Quiet s (dropCmd slot s) := by
  unfold dropCmd
  split
  · exact ⟨rfl, rfl⟩
  · dsimp only
    split <;> simp [retireOwn]

/-- What is written of a completion keeps the queue pair. -/
@[simp] theorem issueCpl_quiet (f q : Nat) (h : HeldCpl) (s : State) : Quiet s (issueCpl f q h s) := by
  unfold issueCpl
  split
  · exact ⟨rfl, rfl⟩
  · rename_i v hv
    extract_lets _ v1
    have hs := setQp_quiet hv (coalesce h.cpl.status.isError v1).1
    generalize coalesce h.cpl.status.isError v1 = r at hs ⊢
    dsimp -zeta only
    extract_lets t u
    have hu : Quiet s u := by simp_all [u, t]
    split
    · simpa using hu
    · exact hu

@[simp] theorem postCpl_quiet (f q : Nat) (h : HeldCpl) (s : State) : Quiet s (postCpl f q h s) := by
  unfold postCpl
  split
  · exact ⟨rfl, rfl⟩
  · rename_i v hv
    have hs := setQp_quiet hv { v with held := v.held ++ [h] }
    split
    · simp
    · dsimp only
      split <;> simp [setStage, hs]

@[simp] theorem complete_quiet (slot : Nat) (cpl : Cmd → Cpl) (e : ErrInfo) (s : State) : Quiet s (complete slot cpl e s) := by
  unfold complete
  split
  · exact ⟨rfl, rfl⟩
  split
  · exact ⟨rfl, rfl⟩
  split
  · simp
  split
  · simp
  · rename_i v hv
    split
    · simp
    · dsimp only
      simp [setQp_quiet hv]

end Sys2Proof.Machine
end

section
/-! SUPPORT. The data path leaves D3hot, the queue pairs and the reports of domain resets as they were (R544, R548, R555). -/

namespace Sys2Proof.Machine

/-! Commands, streams and keys. -/

@[simp] theorem drew_quiet (s : State) : Quiet s (drew s) := ⟨rfl, rfl⟩

@[simp] theorem recordNumOf_quiet (given : Option Nat) (s : State) : Quiet s (recordNumOf given s).2 := by
  unfold recordNumOf
  split <;> simp

@[simp] theorem setCmd_quiet (slot : Nat) (c : Cmd) (s : State) : Quiet s (setCmd slot c s) := ⟨rfl, rfl⟩

@[simp] theorem setStage_quiet (slot : Nat) (st : Stage) (s : State) : Quiet s (setStage slot st s) := by simp [setStage]

@[simp] theorem updStream_quiet (n : Nat) (g : Stream → Stream) (s : State) : Quiet s (updStream n g s) := ⟨rfl, rfl⟩

@[simp] theorem updKey_quiet (n : Nat) (g : KeySlot → KeySlot) (s : State) : Quiet s (updKey n g s) := ⟨rfl, rfl⟩

@[simp] theorem unbindKey_quiet (n : Nat) (s : State) : Quiet s (unbindKey n s) := ⟨rfl, rfl⟩

@[simp] theorem retag_quiet (tag : BitVec 128) (id : Nat) (s : State) : Quiet s (retag tag id s) := by simp [retag]

@[simp] theorem onPost_quiet (slot : Nat) (a : PostAct) (s : State) : Quiet s (onPost slot a s) := by simp [onPost]

@[simp] theorem retireMarks_quiet (f : Nat) (s : State) : Quiet s (retireMarks f s) := ⟨rfl, rfl⟩

@[simp] theorem retireOwn_quiet (c : Cmd) (s : State) : Quiet s (retireOwn c s) := by simp [retireOwn]

@[simp] theorem agentTag_quiet (agent : Nat) (s : State) : Quiet s (agentTag agent s).2 := ⟨rfl, rfl⟩

@[simp] theorem toHostMem_quiet (slot : Nat) (record : Bool) (bytes : List Byte) (s : State) :
    Quiet s (toHostMem slot record bytes s) := by
  unfold toHostMem
  split <;> simp

@[simp] theorem finish_quiet (slot : Nat) (st : Status) (block : Nat) (s : State) : Quiet s (finish slot st block s) := by
  simp [finish]

@[simp] theorem noteInfo_quiet (slot : Nat) (st : Status) (s : State) : Quiet s (noteInfo slot st s) := by simp [noteInfo]

/-! Buffers. -/

@[simp] theorem updPool_quiet (p : Nat) (g : Pool → Pool) (s : State) : Quiet s (updPool p g s) := ⟨rfl, rfl⟩

@[simp] theorem throttle_quiet (s : State) : Quiet s (throttle s) := ⟨rfl, rfl⟩

@[simp] theorem updAbove_quiet (s : State) : Quiet s (updAbove s) := by simp [updAbove]

@[simp] theorem takeBuf_quiet (owner p : Nat) (s : State) : Quiet s (takeBuf owner p s).1 := by simp [takeBuf]

@[simp] theorem answer_quiet (owner : Nat) (r : Response) (id : Option Nat) (tag : BitVec 128) (s : State) :
    Quiet s (answer owner r id tag s) :=
  ⟨rfl, rfl⟩

@[simp] theorem holdReq_quiet (owner cls size : Nat) (tag : BitVec 128) (s : State) :
    Quiet s (holdReq owner cls size tag s).1 := by
  unfold holdReq
  dsimp only
  split <;> simp

@[simp] theorem askBuf_quiet (owner size : Nat) (tag : BitVec 128) (s : State) : Quiet s (askBuf owner size tag s).1 := by
  unfold askBuf
  split <;> simp

@[simp] theorem quarantine_quiet (p i : Nat) (s : State) : Quiet s (quarantine p i s) := by simp [quarantine]

@[simp] theorem returnBuf_quiet (id : Nat) (s : State) : Quiet s (returnBuf id s) := by simp [returnBuf]

@[simp] theorem dropRef_quiet (id : Nat) (s : State) : Quiet s (dropRef id s) := by
  unfold dropRef
  split <;> simp

/-- The answer of a request for a buffer that is not its owner's, with its event. -/
@[simp] theorem misuse_quiet (r : Response) {src : Nat} (h : src ≠ 0x7D0) (owner id : Nat) (tag : BitVec 128) (s : State) :
    Quiet s (misuse r src owner id tag s) := by
  simp [misuse, h]

@[simp] theorem addRef_quiet (id : Nat) (s : State) : Quiet s (addRef id s) := by
  unfold addRef
  split <;> simp

@[simp] theorem freeReq_quiet (owner id : Nat) (tag : BitVec 128) (s : State) : Quiet s (freeReq owner id tag s) := by
  unfold freeReq
  split <;> simp

@[simp] theorem refReq_quiet (owner id : Nat) (tag : BitVec 128) (s : State) : Quiet s (refReq owner id tag s) := by
  unfold refReq
  split <;> simp

@[simp] theorem giveReq_quiet (owner id newOwner : Nat) (tag : BitVec 128) (s : State) :
    Quiet s (giveReq owner id newOwner tag s) := by
  unfold giveReq
  split <;> simp

@[simp] theorem freeOwn_quiet (owner id : Nat) (tag : BitVec 128) (s : State) : Quiet s (freeOwn owner id tag s) := by
  unfold freeOwn
  split <;> simp

@[simp] theorem giveOwn_quiet (owner id newOwner : Nat) (tag : BitVec 128) (s : State) :
    Quiet s (giveOwn owner id newOwner tag s) := by
  unfold giveOwn
  split <;> simp

@[simp] theorem freeHeld_quiet (id : Nat) (tag : BitVec 128) (s : State) : Quiet s (freeHeld id tag s) := by
  unfold freeHeld
  split <;> simp

@[simp] theorem freeOpt_quiet (id : Option Nat) (tag : BitVec 128) (s : State) : Quiet s (freeOpt id tag s) := by
  unfold freeOpt
  split <;> simp

@[simp] theorem BufReq.run_quiet (r : BufReq) (s : State) : Quiet s (BufReq.run r s) := by
  unfold BufReq.run
  split <;> simp

@[simp] theorem dropOwners_quiet (mine : Nat → Bool) (s : State) : Quiet s (dropOwners mine s) := by simp [dropOwners]

/-! Blocks and WRITEs. -/

@[simp] theorem setJob_quiet (slot : Nat) (w : WriteJob) (s : State) : Quiet s (setJob slot w s) := by simp [setJob]

@[simp] theorem setBlk_quiet (b : Nat) (v : Blk) (s : State) : Quiet s (setBlk b v s) := ⟨rfl, rfl⟩

@[simp] theorem setEngine_quiet (e : Nat) (v : Engine) (s : State) : Quiet s (setEngine e v s) := ⟨rfl, rfl⟩

@[simp] theorem saveLane_quiet (e : Nat) (s : State) : Quiet s (saveLane e s) := by
  unfold saveLane
  dsimp only
  split <;> simp

@[simp] theorem putOnEngine_quiet (e : Nat) (b : Blk) (s : State) : Quiet s (putOnEngine e b s) := ⟨rfl, rfl⟩

@[simp] theorem dispatch_quiet (e : Nat) (s : State) : Quiet s (dispatch e s) := by
  unfold dispatch
  dsimp only
  repeat' split
  all_goals simp

@[simp] theorem dispatchAll_quiet (s : State) : Quiet s (dispatchAll s) :=
  foldl_quiet (fun t e => dispatch_quiet e t) ..

@[simp] theorem cutBlock_quiet (n : Nat) (s : State) : Quiet s (cutBlock n s) := by
  unfold cutBlock
  repeat' split
  all_goals simp

@[simp] theorem lessLeft_quiet (b n : Nat) (s : State) : Quiet s (lessLeft b n s) := by simp [lessLeft]

@[simp] theorem freeIntake_quiet (w : WriteJob) (tag : BitVec 128) (s : State) : Quiet s (freeIntake w tag s) := by
  simp [freeIntake]

@[simp] theorem giveIntake_quiet (w : WriteJob) (tag : BitVec 128) (s : State) : Quiet s (giveIntake w tag s) := by
  simp [giveIntake]

@[simp] theorem closeRecords_quiet (n : Nat) (nums : List Nat) (s : State) : Quiet s (closeRecords n nums s) := ⟨rfl, rfl⟩

@[simp] theorem runSettled_quiet (n : Nat) (s : State) : Quiet s (runSettled n s) := ⟨rfl, rfl⟩

@[simp] theorem finishWrite_quiet (slot : Nat) (st : Option Status) (e : ErrInfo) (s : State) :
    Quiet s (finishWrite slot st e s) := by
  unfold finishWrite
  dsimp only
  repeat' split
  all_goals simp

@[simp] theorem dropRun_quiet (n seq : Nat) (s : State) : Quiet s (dropRun n seq s) := ⟨rfl, rfl⟩

@[simp] theorem stopWrite_quiet (slot : Nat) (st : Status) (e : ErrInfo) (s : State) : Quiet s (stopWrite slot st e s) := by
  unfold stopWrite
  dsimp only
  repeat' split
  all_goals simp

@[simp] theorem checkWrite_quiet (slot : Nat) (s : State) : Quiet s (checkWrite slot s) := by
  unfold checkWrite
  repeat' split
  all_goals simp

@[simp] theorem checkWrites_quiet (s : State) : Quiet s (checkWrites s) := by simp [checkWrites]

@[simp] theorem endRun_quiet (slot n : Nat) (c : Cmd) (w : WriteJob) (s : State) : Quiet s (endRun slot n c w s) := by
  simp [endRun]

/-- What a step of the packer leaves, where it goes on. -/
def Packed.Quiet (s : State) : Packed → Prop
  | .idle => True
  | .again t => Machine.Quiet s t

theorem Packed.Quiet.ite {s : State} {p : Prop} [Decidable p] {a b : Packed} (ha : a.Quiet s) (hb : b.Quiet s) :
    (if p then a else b).Quiet s := by
  split
  · exact ha
  · exact hb

theorem packAct_quiet (n : Nat) (s : State) : (packAct n s).Quiet s := by
  have again {t : State} (h : Quiet s t) : (Packed.again t).Quiet s := h
  unfold packAct
  split
  · trivial
  split
  · trivial
  split
  · exact again (by simp)
  refine .ite (again (by simp)) ?_
  dsimp only
  refine .ite (again (by simp)) (.ite (again (by simp)) (.ite (.ite (again (by simp)) (again (by simp))) (.ite trivial ?_)))
  exact .ite (again (by simp)) (.ite (again (by simp)) (.ite (again (by simp)) (.ite (again (by simp))
    (.ite (again (by simp)) (again (by simp))))))

@[simp] theorem packLoop_quiet (n k : Nat) (s : State) : Quiet s (packLoop n k s) := by
  induction k generalizing s with
  | zero => exact ⟨rfl, rfl⟩
  | succ k ih =>
    have h := packAct_quiet n s
    unfold packLoop
    split
    · exact ⟨rfl, rfl⟩
    · rename_i t e
      rw [e] at h
      exact ⟨(ih t).1.trans h.1, (ih t).2.trans h.2⟩

@[simp] theorem cutFull_quiet (n : Nat) (s : State) : Quiet s (cutFull n s) := by
  unfold cutFull
  split <;> simp

@[simp] theorem packStream_quiet (n : Nat) (s : State) : Quiet s (packStream n s) := by simp [packStream]

/-! READs and rebuilds. -/

@[simp] theorem consumeSrc_quiet (src : List (Nat × Nat × Nat)) (tag : BitVec 128) (s : State) :
    Quiet s (consumeSrc src tag s) := by
  simp [consumeSrc]

@[simp] theorem freeRefs_quiet (refs : List WinRef) (tag : BitVec 128) (s : State) : Quiet s (freeRefs refs tag s) := by
  simp [freeRefs]

@[simp] theorem dropLanes_quiet (n : Nat) (s : State) : Quiet s (dropLanes n s) := by simp [dropLanes]

@[simp] theorem dropHeld_quiet (id : Option Nat) (s : State) : Quiet s (dropHeld id s) := by
  unfold dropHeld
  split <;> simp

@[simp] theorem freeTape_quiet (s : State) (b : TapeBlk) : Quiet s (freeTape s b) := by simp [freeTape]

@[simp] theorem clearReads_quiet (s : State) : Quiet s (clearReads s) := by
  unfold clearReads
  dsimp only
  split <;> simp

@[simp] theorem addInfo_quiet (slot info : Nat) (s : State) : Quiet s (addInfo slot info s) := by simp [addInfo]

@[simp] theorem giveLens_quiet (slot : Nat) (c : Cmd) (lens : List Nat) (s : State) : Quiet s (giveLens slot c lens s) := by
  simp [giveLens]

@[simp] theorem endRead_quiet (slot : Nat) (c : Cmd) (e : ErrInfo) (a : ReadAcc) (s : State) :
    Quiet s (endRead slot c e a s) := by
  simp [endRead]

@[simp] theorem knownOr_quiet (v : Option Nat) (s : State) : Quiet s (knownOr v s).2 := by
  unfold knownOr
  split <;> simp

@[simp] theorem knownAll_quiet (l : List (Option Nat)) (s : State) : Quiet s (knownAll l s).2 := by
  induction l generalizing s with
  | nil => exact ⟨rfl, rfl⟩
  | cons v l ih => simp [knownAll, ih]

@[simp] theorem endRaw_quiet (slot : Nat) (c : Cmd) (e : ErrInfo) (a : RawAcc) (s : State) :
    Quiet s (endRaw slot c e a s) := by
  simp [endRaw]

@[simp] theorem tryRead_quiet (slot : Nat) (s : State) : Quiet s (tryRead slot s) := by
  unfold tryRead
  dsimp only
  repeat' split
  all_goals simp

@[simp] theorem endReadEarly_quiet (slot : Nat) (c : Cmd) (j : ReadJob) (st : Status) (i : ErrInfo) (s : State) :
    Quiet s (endReadEarly slot c j st i s) := by
  unfold endReadEarly
  dsimp only
  repeat' split
  all_goals simp

@[simp] theorem cutWanted_quiet (s : State) : Quiet s (cutWanted s) := by
  refine foldl_quiet (fun t p => ?_) ..
  split
  · dsimp only
    split <;> simp
  · exact ⟨rfl, rfl⟩

@[simp] theorem endRebuild_quiet (slot : Nat) (j : RebuildJob) (st : Option Status) (e : ErrInfo) (s : State) :
    Quiet s (endRebuild slot j st e s) := by
  simp [endRebuild]

@[simp] theorem rebuildCheck_quiet (s : State) : Quiet s (rebuildCheck s) := by
  unfold rebuildCheck
  split <;> simp

@[simp] theorem failReads_quiet (s : State) : Quiet s (failReads s) := by
  unfold failReads
  split
  · exact ⟨rfl, rfl⟩
  · refine foldl_quiet (fun t slot => ?_) ..
    split
    · split <;> simp
    · exact ⟨rfl, rfl⟩

@[simp] theorem readsAdvance_quiet (s : State) : Quiet s (readsAdvance s) := by
  simp [readsAdvance]

/-! Datasets, drains and the settling of the data path. -/

@[simp] theorem closeDataset_quiet (pad : Bool) (s : State) : Quiet s (closeDataset pad s) := by
  unfold closeDataset
  split <;> simp

@[simp] theorem openInBuf_quiet (buf cont : Nat) (tag : BitVec 128) (s : State) : Quiet s (openInBuf buf cont tag s) :=
  ⟨rfl, rfl⟩

@[simp] theorem openDataset_quiet (cont : Nat) (tag : BitVec 128) (s : State) : Quiet s (openDataset cont tag s) := by
  unfold openDataset
  dsimp only
  repeat' split
  all_goals simp

@[simp] theorem drainCuts_quiet (d : Drain) (s : State) : Quiet s (drainCuts d s) := by simp [drainCuts]

@[simp] theorem drainClose_quiet (d : Drain) (s : State) : Quiet s (drainClose d s) := by
  unfold drainClose
  repeat' split
  all_goals simp

@[simp] theorem failStream_quiet (err : DrainErr) (n : Nat) (nums : List Nat) (s : State) :
    Quiet s (failStream err n nums s) := by
  unfold failStream
  split <;> simp

@[simp] theorem dropBlk_quiet (s : State) (x : Blk) : Quiet s (dropBlk s x) := by simp [dropBlk]

@[simp] theorem stopLost_quiet (slot : Nat) (st : Status) (e : ErrInfo) (low : Option Nat) (s : State) :
    Quiet s (stopLost slot st e low s) := by
  unfold stopLost
  repeat' split
  all_goals simp

@[simp] theorem loseFrom_quiet (b : Blk) (st : Status) (e : ErrInfo) (s : State) : Quiet s (loseFrom b st e s) := by
  unfold loseFrom
  extract_lets hit bad frags seqs s1 s2
  have h1 : Quiet s s1 := foldl_quiet (fun t q => by split <;> simp) ..
  have h3 : Quiet s2 (bad.foldl (fun s x => match getBlk s x.id with | some y => dropBlk s y | none => s) s2) :=
    foldl_quiet (fun t x => by split <;> simp) ..
  exact (h1.trans (failStream_quiet ..)).trans (h3.trans (dispatchAll_quiet _))

@[simp] theorem loseAtEnd_quiet (b : Blk) (s : State) : Quiet s (loseAtEnd b s) := by
  simp [loseAtEnd]

@[simp] theorem closeDrained_quiet (s : State) : Quiet s (closeDrained s) := by simp [closeDrained]

@[simp] theorem placeLoop_quiet (k : Nat) (s : State) : Quiet s (placeLoop k s) := by
  induction k generalizing s with
  | zero => exact ⟨rfl, rfl⟩
  | succ k ih =>
    unfold placeLoop
    split
    · exact ⟨rfl, rfl⟩
    · split <;> simp [ih, setBlk]

@[simp] theorem placeAll_quiet (s : State) : Quiet s (placeAll s) := by simp [placeAll]

@[simp] theorem closeStream_quiet (n : Nat) (s : State) : Quiet s (closeStream n s) := by
  unfold closeStream
  split <;> simp

@[simp] theorem closeEnded_quiet (s : State) : Quiet s (closeEnded s) := by simp [closeEnded]

@[simp] theorem endPowerDrain_quiet (s : State) : Quiet s (endPowerDrain s) := by
  unfold endPowerDrain
  split <;> simp

@[simp] theorem pushDrains_quiet (s : State) : Quiet s (pushDrains s) := by simp [pushDrains]

@[simp] theorem settleN_quiet (n : Nat) (s : State) : Quiet s (settleN n s) := by
  induction n generalizing s with
  | zero => exact ⟨rfl, rfl⟩
  | succ n ih => simp [settleN, ih]

/-- The data path goes as far as it can. -/
@[simp] theorem settle_quiet (s : State) : Quiet s (settle s) := by simp [settle]

/-! Failed datasets and failed members. -/

@[simp] theorem endCreate_quiet (n : Nat) (st : Option (Status × Option Nat)) (s : State) : Quiet s (endCreate n st s) := by
  unfold endCreate
  repeat' split
  all_goals simp

@[simp] theorem forgetDs_quiet (id : Nat) (s : State) : Quiet s (forgetDs id s) := ⟨rfl, rfl⟩

@[simp] theorem failDs_quiet (d : Dataset) (cause : Status) (s : State) : Quiet s (failDs d cause s) := by
  unfold failDs
  extract_lets streams number s1 s2 s3 again first _ s4 s5 _ s6 s7 keep mark _ s8 _ s9 _ s10
  have h3 : Quiet s2 s3 := foldl_quiet (fun t slot => by split <;> simp) ..
  have h2 : Quiet s s2 := by simp [s2, s1]
  have h5 : Quiet s3 s5 := by simp [s5, s4]
  have h6 : Quiet s5 s6 := by
    subst s6
    split <;> exact ⟨rfl, rfl⟩
  have h9 : Quiet s6 s9 := by
    subst s9
    split <;> simp [s8, s7]
  have h10 : Quiet s9 s10 := by simp [s10]
  exact (h2.trans (h3.trans (h5.trans (h6.trans (h9.trans h10))))).trans (by simp)

@[simp] theorem setChan_quiet (e : Nat) (v : Channel) (s : State) : Quiet s (setChan e v s) := ⟨rfl, rfl⟩

@[simp] theorem updChan_quiet (e : Nat) (g : Channel → Channel) (s : State) : Quiet s (updChan e g s) := ⟨rfl, rfl⟩

@[simp] theorem failIfStopped_quiet (d : Drain) (s : State) : Quiet s (failIfStopped d s) := by simp [failIfStopped]

@[simp] theorem stopWriting_quiet (s : State) : Quiet s (stopWriting s) := by simp [stopWriting]

@[simp] theorem resumeWriting_quiet (s : State) : Quiet s (resumeWriting s) := by simp [resumeWriting]

@[simp] theorem judgeMembers_quiet (s : State) : Quiet s (judgeMembers s) := by simp [judgeMembers]

@[simp] theorem restoreMember_quiet (e : Nat) (s : State) : Quiet s (restoreMember e s) := by
  have h : 8 * e + 7 ≠ 0x7D0 := by omega
  simp [restoreMember, h]

/-! Commands ended without a completion. -/

@[simp] theorem rebuildEnded_quiet (j : RebuildJob) (s : State) : Quiet s (rebuildEnded j s) := by simp [rebuildEnded]

@[simp] theorem noRun_quiet (e : BitVec 512) (s : State) : Quiet s (noRun e s) := by simp [noRun]

@[simp] theorem endCmd_quiet (slot : Nat) (s : State) : Quiet s (endCmd slot s) := by
  unfold endCmd
  repeat' split
  all_goals simp

@[simp] theorem endCmds_quiet (slots : List Nat) (s : State) : Quiet s (endCmds slots s).1 := by
  simp [endCmds]

end Sys2Proof.Machine
end

section
/-! SUPPORT. Which domains are in reset, through the reset of each domain (R544-R546). -/

namespace Sys2Proof.Machine

/-- The domains in reset, by their codes (R544). -/
def resetCodes (s : State) : List Nat := s.resets.map (·.code)

theorem resetCodes_of_eq {s t : State} (h : t.resets = s.resets) : resetCodes t = resetCodes s :=
  congrArg (List.map DomReset.code) h

/-- A domain is in reset when its code is among them. -/
theorem any_resets {c : Nat} {s : State} : (s.resets.any fun r => r.code == c) = true ↔ c ∈ resetCodes s := by
  simp [resetCodes]

theorem dropWindow_codes (f : Nat) (s : State) : resetCodes (dropWindow f s) = resetCodes s := by
  simp [resetCodes, dropWindow, Function.comp_def]

theorem hostReset_codes (s : State) : resetCodes (hostReset s) = resetCodes s := by
  have hf (t : State) (f : Nat) :
      resetCodes (resetFnRegs f (dropWindow f (retireKeys f (endFunction f t)))) = resetCodes t := by
    have h : (retireKeys f (endFunction f t)).resets = t.resets :=
      (retireKeys_ctlKept (endFunction_ctlKept (.refl t) f) f).resets
    exact (resetCodes_of_eq (updFn_resets ..)).trans ((dropWindow_codes f _).trans (resetCodes_of_eq h))
  unfold hostReset
  extract_lets fs s1 s2
  have h1 : resetCodes s1 = resetCodes s := foldl_keeps resetCodes hf fs s
  exact (resetCodes_of_eq (t := s2) (dropOwners_ctlKept (.refl s1) _).resets).trans h1

theorem resetCmd_ctlKept {s0 s : State} (h : CtlKept s0 s) (slot : Nat) : CtlKept s0 (resetCmd slot s) := by
  unfold resetCmd
  split
  · exact h
  extract_lets op
  refine CtlKept.ite h (CtlKept.ite (dropCmd_ctlKept h _) ?_)
  split
  · exact h
  · exact finishWrite_ctlKept h ..
  · exact endReadEarly_ctlKept h ..
  · exact endRebuild_ctlKept h ..
  · exact CtlKept.ite (complete_ctlKept h ..) (complete_ctlKept h ..)
  · exact CtlKept.ite (complete_ctlKept (recordNumOf_ctlKept h _) ..) (complete_ctlKept h ..)

theorem repairRow_resets (s : State) (row : Nat) : (repairRow s row).resets = s.resets := by
  unfold repairRow
  dsimp only
  split
  · rfl
  split
  · rfl
  · rw [setCause_resets, raise_resets]

theorem fillPools_resets (s : State) : (fillPools s).resets = s.resets := by
  unfold fillPools
  extract_lets s1 s2 fresh s3
  have h1 : s1.resets = s.resets := foldl_keeps State.resets repairRow_resets ..
  refine (foldl_keeps State.resets (fun t p => ?_) ..).trans h1
  rfl

theorem cartAtReset_resets (b : Bool) (s : State) : (cartAtReset b s).resets = s.resets := by
  have hfin (n : Nat) (st : Status) (bl : Nat) (t : State) : (finish n st bl t).resets = t.resets :=
    (finish_ctlKept (.refl t) ..).resets
  have hst (n : Nat) (st : Stage) (t : State) : (setStage n st t).resets = t.resets := (setStage_ctlKept (.refl t) ..).resets
  unfold cartAtReset
  dsimp only
  repeat' split
  all_goals simp [hfin, hst]

theorem dataReset_resets (b : Bool) (s : State) : (dataReset b s).resets = s.resets := by
  unfold dataReset
  extract_lets s1 s2 s3 s4 w _ _ s5
  have h1 : s1.resets = s.resets := (setGates_ctlKept (.refl s) _).resets
  have h2 : s2.resets = s1.resets := foldl_keeps State.resets (fun t n => (resetCmd_ctlKept (.refl t) n).resets) ..
  have h3 : s3.resets = s2.resets := foldl_keeps State.resets (fun t _ => (answer_ctlKept (.refl t) ..).resets) ..
  have h4 : s4.resets = s3.resets := foldl_keeps State.resets (fun t n => (closeStream_ctlKept (.refl t) n).resets) ..
  exact (cartAtReset_resets ..).trans ((fillPools_resets s5).trans (h4.trans (h3.trans (h2.trans h1))))

theorem failCmd_resets (slot : Nat) (st : Status) (e : ErrInfo) (s : State) : (failCmd slot st e s).resets = s.resets := by
  have hs (t : State) : (settle t).resets = t.resets := (settle_ctlKept (.refl t)).resets
  unfold failCmd
  split
  · rfl
  split
  · split
    · rfl
    · rw [hs, (stopWrite_ctlKept (.refl s) ..).resets]
  · rw [hs, (endReadEarly_ctlKept (.refl s) ..).resets]
  · rw [hs, (endRebuild_ctlKept (.refl s) ..).resets]
  · rw [hs, (complete_ctlKept (.refl _) ..).resets]
    rfl
  · rw [hs, (complete_ctlKept (.refl s) ..).resets]

theorem cipherReset_resets (s : State) : (cipherReset s).resets = s.resets := by
  unfold cipherReset
  extract_lets inside s1 readers s2 mine blks s3
  have h1 : s1.resets = s.resets := by
    refine foldl_keeps State.resets (fun t n => ?_) ..
    split
    · exact (settle_ctlKept (loseFrom_ctlKept (.refl t) ..)).resets
    · rfl
  have h2 : s2.resets = s1.resets := foldl_keeps State.resets (fun t n => failCmd_resets ..) ..
  exact (dropOwners_ctlKept (.refl _) _).resets.trans (h2.trans h1)

theorem transportReset_resets (s : State) : (transportReset s).resets = s.resets := by
  have ht (t : State) : (endThread t).resets = t.resets := by
    unfold endThread
    split
    · rfl
    · extract_lets state _ t1
      split
      · exact (complete_ctlKept (.refl t1) ..).resets
      · rfl
  have hu (t : State) : (endUnthread t).resets = t.resets := by
    unfold endUnthread
    split
    · split
      · exact (complete_ctlKept (.refl _) ..).resets
      · rfl
    · rfl
  have hl (t : State) : (tlcsReset t).resets = t.resets := by
    unfold tlcsReset
    dsimp only
    split
    · exact (guardOnset_ctlKept (.refl t) _).resets
    · rfl
  exact (hl _).trans ((hu _).trans (ht s))

theorem resets_of_outside {s t : State} (h : outside t = outside s) : t.resets = s.resets := by
  obtain ⟨-, -, -, -, -, -, -, -, -, -, -, -, -, -, -, -, -, -, -, hr⟩ := fields_of_outside h
  exact hr

theorem stopFlash_resets (s : State) : (stopFlash s).resets = s.resets := by
  unfold stopFlash
  extract_lets s1
  show s1.resets = s.resets
  subst s1
  split
  · split <;> rfl
  · rfl

theorem flashReset_resets (s : State) : (flashReset s).resets = s.resets := by
  unfold flashReset
  extract_lets all s1
  have h : (all.foldl (fun s x => refuseFlash x 0x0B s) (stopFlash s)).resets = (stopFlash s).resets :=
    foldl_keeps State.resets (fun t x => resets_of_outside (refuseFlash_outside x _ t)) ..
  exact (dropOwners_ctlKept (.refl _) _).resets.trans (h.trans (stopFlash_resets s))

theorem declareFailed_resets (e cause : Nat) (s : State) : (declareFailed e cause s).resets = s.resets := by
  unfold declareFailed
  split
  · rfl
  · rw [judgeMembers_resets, setCause_resets, raise_resets]
    rfl

theorem mgmtDown_codes (s : State) : resetCodes (mgmtDown s) = resetCodes s := by
  obtain ⟨-, -, -, -, -, -, h⟩ := mgmtDown_keeps s
  simp [resetCodes, h, Function.comp_def]

end Sys2Proof.Machine
end

section
/-! PROOFS. A domain that goes down, and the note of its reset (R544, R546, R548, R554). -/

namespace Sys2Proof.Machine

@[simp] theorem ite_resets (p : Prop) [Decidable p] (a b : State) :
    (if p then a else b).resets = if p then a.resets else b.resets :=
  apply_ite ..

theorem moveSector_resets (i : Image) (pass : Bool) (s : State) : (moveSector i pass s).resets = s.resets := by
  have hlose (d : Dataset) (l : List (Nat × Nat)) (t : State) : (loseSectors d l t).resets = t.resets :=
    (loseSectors_ctlKept (.refl t) ..).resets
  unfold moveSector copyFailed
  split
  · rfl
  · simp [hlose, updDs]

theorem postVerdict_resets (p : Nat) (i : Image) (pass : Bool) (s : State) : (postVerdict p i pass s).resets = s.resets := by
  have hjudge (n : Nat) (t : State) : (judgeChannel p n t).resets = t.resets := by
    simp [judgeChannel, declareFailed_resets, setChan]
  have hcount (t : State) : (countFail p i.under t).resets = t.resets := by simp [countFail, raiseIf, updChan, setChan]
  have hhome (t : State) : (homeFailed p i t).resets = t.resets := by
    unfold homeFailed
    dsimp only
    split <;> rfl
  simp [postVerdict, hjudge, hcount, hhome, moveSector_resets, updChan, setChan]

theorem channelDown_resets (p cause : Nat) (s : State) : (channelDown p cause s).resets = s.resets := by
  unfold channelDown
  extract_lets s1 c report down s2 _ s3
  have h1 : s1.resets = s.resets := foldl_keeps State.resets (fun t i => postVerdict_resets p i false t) ..
  have h3 : s3.resets = s2.resets := by
    subst s3
    split <;> rfl
  exact (declareFailed_resets ..).trans (h3.trans h1)

/-- A domain that goes down takes no other domain into reset and brings none back (R544). -/
theorem domainDown_codes (c : Nat) (s : State) : resetCodes (domainDown c s) = resetCodes s := by
  unfold domainDown
  split
  · exact hostReset_codes s
  · exact resetCodes_of_eq (dataReset_resets ..)
  · exact resetCodes_of_eq (cipherReset_resets s)
  · exact resetCodes_of_eq (transportReset_resets s)
  · exact resetCodes_of_eq (flashReset_resets s)
  · exact mgmtDown_codes s
  · exact resetCodes_of_eq (channelDown_resets ..)

/-- A reset of a domain that is not yet in reset (R546). -/
theorem noteReset_of_new {c : Nat} {s : State} (h : c ∉ resetCodes s) (cause : Nat) (w : List DictSrc) :
    noteReset c cause w s = { s with resets := s.resets ++ [{ code := c, cause := cause, waits := w }] } :=
  if_neg (mt any_resets.1 h)

theorem not_mem_resetCodes {c : Nat} {s : State} : c ∉ resetCodes s ↔ ∀ r ∈ s.resets, r.code ≠ c := by
  simp [resetCodes]

/-- A powered domain goes down, and its reset is noted with its cause (R546, R548). -/
theorem startReset_of_powered {c : Nat} {s : State} (h : c ∉ resetCodes s) (hp : poweredDown s c = false) (cause : Nat)
    (w : List DictSrc) : startReset c cause w s =
      { domainDown c s with resets := (domainDown c s).resets ++ [{ code := c, cause := cause, waits := w }] } := by
  unfold startReset
  rw [if_neg (mt any_resets.1 h), hp, if_neg Bool.false_ne_true]
  exact noteReset_of_new ((domainDown_codes c s).symm ▸ h) ..

theorem startReset_of_unpowered {c : Nat} {s : State} (h : c ∉ resetCodes s) (hp : poweredDown s c = true) (cause : Nat)
    (w : List DictSrc) : startReset c cause w s =
      { s with resets := s.resets ++ [{ code := c, cause := cause, deferred := true }] } := by
  unfold startReset
  rw [if_neg (mt any_resets.1 h), if_pos hp]

theorem exec_domainResetWrite_of_taken {mgmt : Bool} {code : Byte} {s : State} (hl : s.lc.state ≠ 4)
    (hc : domainCode code.toNat = true) (hm : mgmt = true ∨ hostDomain code.toNat = true) :
    exec (.domainResetWrite mgmt code) s = .next (startReset code.toNat 5 [] s) := by
  rw [exec_domainResetWrite]
  unfold execDomainResetWrite
  dsimp only
  rw [if_neg]
  rcases hm with hm | hm <;> simp [hl, hc, hm]

end Sys2Proof.Machine
end

section
/-! PROOFS. What the domains do when they come up, and the reports of their resets (R548). -/

namespace Sys2Proof.Machine

@[simp] theorem setGates_quiet (on : Bool) (s : State) : Quiet s (setGates on s) := by simp [setGates]
@[simp] theorem dropCkpt_quiet (s : State) : Quiet s (dropCkpt s) := by
  unfold dropCkpt
  split <;> simp
@[simp] theorem emptyBanks_quiet (s : State) : Quiet s (emptyBanks s) := ⟨rfl, rfl⟩
@[simp] theorem faultRebuild_quiet (s : State) : Quiet s (faultRebuild s) := by
  unfold faultRebuild
  split <;> simp
@[simp] theorem failHeld_quiet (cause : Status) (s : State) : Quiet s (failHeld cause s) :=
  foldl_quiet (fun t d => by split <;> simp) ..
@[simp] theorem sweep_quiet (s : State) : Quiet s (sweep s) := by simp [sweep]
@[simp] theorem faultLoad_quiet (s : State) : Quiet s (faultLoad s) := by
  unfold faultLoad
  split
  · simp
  · dsimp only
    split <;> simp
@[simp] theorem faultFormat_quiet (s : State) : Quiet s (faultFormat s) := by
  unfold faultFormat
  split <;> simp
@[simp] theorem faultWaits_quiet (s : State) : Quiet s (faultWaits s) := by
  unfold faultWaits
  extract_lets s1 lost kept
  have h1 : Quiet s s1 := foldl_quiet (fun t slot => by repeat' split <;> simp) ..
  clear_value s1
  simp only [Quiet] at h1
  simp [h1]

@[simp] theorem cartFault_quiet (s : State) : Quiet s (cartFault s) := by
  unfold cartFault
  extract_lets cart unloading s1 s2 _ s3 s4 _ s5 s6 s7 s8
  split
  · exact ⟨rfl, rfl⟩
  have h3 : Quiet s s3 := by simp [s3, s2, s1]
  have h4 : Quiet s3 s4 := by
    subst s4
    split <;> simp
  have h7 : Quiet s6 s7 := foldl_quiet (fun t d => by split <;> simp) ..
  have h6 : Quiet s4 s6 := by simp [s6, s5]
  exact (h3.trans (h4.trans (h6.trans h7))).trans (by simp [s8])

theorem tceFault_quiet {bit : Nat} (h : 0x600 + bit ≠ 0x7D0) (s : State) : Quiet s (tceFault bit s) := by
  have hstop (t : State) : Quiet t (stopFor bit t) := by simp [stopFor, retarget, setLoop]
  simp only [Quiet] at hstop
  simp [tceFault, h, hstop]

@[simp] theorem postFlash_quiet (x : FlashDesc) (st retry maxErr total : Nat) (m : BitVec 64) (s : State) :
    Quiet s (postFlash x st retry maxErr total m s) := by
  unfold postFlash
  dsimp only
  split <;> split <;> exact ⟨rfl, rfl⟩

@[simp] theorem refuseFlash_quiet (x : FlashDesc) (st : Nat) (s : State) : Quiet s (refuseFlash x st s) := by simp [refuseFlash]

@[simp] theorem beginFlash_quiet (x : FlashDesc) (s : State) : Quiet s (beginFlash x s) := by
  unfold beginFlash
  dsimp only
  split
  · split <;> exact ⟨rfl, rfl⟩
  · split <;> exact ⟨rfl, rfl⟩

@[simp] theorem flashRun_quiet (n : Nat) (s : State) : Quiet s (flashRun n s) := by
  induction n generalizing s with
  | zero => exact ⟨rfl, rfl⟩
  | succ n ih =>
    unfold flashRun
    split
    · exact ⟨rfl, rfl⟩
    · dsimp only
      split <;> simp [ih, refillFlash]

/-- The controller goes on with what waits. -/
theorem flashGo_quiet (s : State) : Quiet s (flashGo s) := flashRun_quiet _ (refillFlash s)

theorem flashInit_quiet (s : State) : Quiet s (flashInit s) := foldl_quiet (fun t p => by simp [updBlock, setBlock]) ..

theorem poolsReady_quiet (s : State) : Quiet s (poolsReady s) := by
  have hp : ∀ (t : State) (p : Nat) (g : Pool → Pool), Quiet t (updPool p g t) := fun _ _ _ => ⟨rfl, rfl⟩
  simp [poolsReady]

theorem poolsReady_ctlKept (s : State) : CtlKept s (poolsReady s) := by
  have hp : CtlKept s ((List.range 5).foldl (fun s p => updPool p (fun x => { x with minFree := poolFree s p }) s) s) :=
    CtlKept.foldl (.refl s) fun _ _ ht => ht.upd rfl rfl rfl rfl rfl rfl rfl rfl rfl
  exact CtlKept.foldl (hp.upd rfl rfl rfl rfl rfl rfl rfl rfl rfl) fun _ r ht => BufReq.run_ctlKept ht r

/-- What a domain's coming up leaves: the domains in reset, the dictionary, and the count of the resets reported. -/
structure UpKept (s t : State) : Prop where
  resets : t.resets = s.resets
  dict : t.dict = s.dict
  reports : domainReports t.ev = domainReports s.ev

theorem UpKept.trans {s t u : State} (h : UpKept s t) (k : UpKept t u) : UpKept s u :=
  ⟨k.resets.trans h.resets, k.dict.trans h.dict, k.reports.trans h.reports⟩

/-- After a change of nothing that `UpKept` speaks of. -/
theorem UpKept.after {s t u : State} (k : UpKept t u) (hr : t.resets = s.resets) (hd : t.dict = s.dict) (he : t.ev = s.ev) :
    UpKept s u :=
  ⟨k.resets.trans hr, k.dict.trans hd, k.reports.trans (congrArg domainReports he)⟩

theorem UpKept.of_ctlKept {s t : State} (h : CtlKept s t) (k : Quiet s t) : UpKept s t := ⟨h.resets, h.dict, k.2⟩

theorem raiseIf_upKept {n : Nat} (h : n ≠ 0x7D0) (b : Bool) (l : List (Nat × Nat)) (s : State) : UpKept s (raiseIf b n l s) :=
  ⟨raiseIf_keeps State.resets (raise_resets ..) b, raiseIf_keeps State.dict (raise_dict ..) b, (raiseIf_quiet b h l s).2⟩

theorem restoreMember_upKept (e : Nat) (s : State) : UpKept s (restoreMember e s) :=
  .of_ctlKept (restoreMember_ctlKept (.refl s) e) (restoreMember_quiet e s)

theorem tceFault_upKept {bit : Nat} (h : 0x600 + bit ≠ 0x7D0) (s : State) : UpKept s (tceFault bit s) := by
  refine ⟨?_, (tceFault_driven bit s).dict, (tceFault_quiet h s).2⟩
  have hstop (t : State) : (stopFor bit t).resets = t.resets := by simp [stopFor, retarget, setLoop]
  have hcart (t : State) : (cartFault t).resets = t.resets := (cartFault_ctlKept (.refl t)).resets
  simp [tceFault, hstop, hcart]

theorem faultIf_upKept {bit : Nat} (h : 0x600 + bit ≠ 0x7D0) (b : Bool) (s : State) : UpKept s (faultIf b bit s) := by
  unfold faultIf
  split
  · exact tceFault_upKept h s
  · exact ⟨rfl, rfl, rfl⟩

theorem flashUp_upKept (s : State) : UpKept s (flashGo (flashInit s)) := by
  have hinit : outside (flashInit s) = outside s :=
    foldl_keeps outside (fun t p => (raise_outside ..).trans (updBlock_outside ..)) ..
  have h := (flashGo_outside (flashInit s)).trans hinit
  obtain ⟨-, -, -, -, -, -, -, -, -, -, -, -, hdict, -, -, -, -, -, -, hresets⟩ := fields_of_outside h
  exact ⟨hresets, hdict, ((flashInit_quiet s).trans (flashGo_quiet _)).2⟩

/-- What comes up keeps the domains in reset and the dictionary, and reports no reset of a domain by itself (R544). -/
theorem domainUp_upKept (c : Nat) (b : Bool) (s : State) : UpKept s (domainUp c b s) := by
  unfold domainUp
  split
  · exact .of_ctlKept (poolsReady_ctlKept s) (poolsReady_quiet s)
  split
  · exact (raiseIf_upKept (by decide : 0x527 ≠ 0x7D0) ..).after rfl rfl rfl
  split
  · refine UpKept.trans ?_ (faultIf_upKept (by decide : 0x600 + 7 ≠ 0x7D0) ..)
    split
    · exact (tceFault_upKept (by decide : 0x600 + 10 ≠ 0x7D0) _).after rfl rfl rfl
    · exact ⟨rfl, rfl, rfl⟩
  split
  · exact flashUp_upKept s
  split
  · dsimp only
    split
    · exact (restoreMember_upKept ..).after rfl rfl rfl
    · exact ⟨rfl, rfl, rfl⟩
  · exact ⟨rfl, rfl, rfl⟩

/-- The known-answer tests of the cipher domain decide whether it works (R269). -/
theorem domainUp_cipher (b : Bool) (s : State) : (domainUp 2 b s).cip.failed = !b := by
  simp [domainUp]

/-- A domain in reset that is the only one of its code, with no write waiting for it, comes up: the reset ends, and is reported
(R548). -/
theorem domainReady_reports {code : Byte} {s : State} {r : DomReset} (hq : s.dict.queue = []) (hr : r ∈ s.resets)
    (hone : ∀ x ∈ s.resets, x.code = code.toNat → x = r) (hc : r.code = code.toNat) (hd : r.deferred = false)
    (hw : r.waits = [])
    (hfw : code ≠ 5#8 ∨ s.fw.starting = false) (b : Bool) :
    exec (.domainReady code b) s = .next (raise 0x7D0 [iCode code.toNat, (8, r.cause)]
      (domainUp code.toNat b { s with resets := s.resets.filter fun x => x.code != code.toNat || x.deferred })) := by
  have hfind : (s.resets.find? fun x => x.code == code.toNat && !x.deferred) = some r := by
    cases hf : s.resets.find? fun x => x.code == code.toNat && !x.deferred with
    | none => exact absurd (List.find?_eq_none.1 hf r hr) (by simp [hc, hd])
    | some x =>
      have hx := List.find?_some hf
      rw [Bool.and_eq_true, beq_iff_eq] at hx
      rw [hone x (List.mem_of_find?_eq_some hf) hx.1]
  have hstart : (decide (code.toNat = 5) && s.fw.starting) = false := by
    rcases hfw with h | h
    · have : code.toNat ≠ 5 := fun e => h (BitVec.eq_of_toNat_eq e)
      simp [this]
    · simp [h]
  have hup := domainUp_upKept code.toNat b { s with resets := s.resets.filter fun x => x.code != code.toNat || x.deferred }
  rw [exec_domainReady]
  unfold execDomainReady
  simp only [hfind, hstart, hw, List.foldl_nil, Bool.false_eq_true, if_false]
  rw [serve_of_empty]
  rw [raise_dict, hup.dict]
  exact hq

theorem domainReady_of_none {code : Byte} {s : State} (h : ∀ r ∈ s.resets, r.code ≠ code.toNat ∨ r.deferred = true)
    (b : Bool) : exec (.domainReady code b) s = .next s := by
  have hfind : (s.resets.find? fun x => x.code == code.toNat && !x.deferred) = none := by
    refine List.find?_eq_none.2 fun r hr => ?_
    rcases h r hr with h | h <;> simp [h]
  rw [exec_domainReady]
  unfold execDomainReady
  simp only [hfind]

end Sys2Proof.Machine
end

section
/-! PROOFS. The end of one function leaves the others without queue pairs that are so, and a reset of the host interface leaves none
(R93, R540). -/

namespace Sys2Proof.Machine

/-- What keeps the queue pairs keeps a function that has none. -/
theorem bare_of_quiet {f : Nat} {s t : State} (h : Bare f s) (k : Quiet s t) : Bare f t := by
  obtain ⟨hd, hrest⟩ := Prod.mk.inj k.1
  obtain ⟨hq, hr⟩ := Prod.mk.inj hrest
  have hready : (getFn t f).ready = (getFn s f).ready := congrFun hr f
  refine ⟨?_, hready.trans h.2⟩
  have hsome (q : Nat) : (getQp t f q).isSome = (getQp s f q).isSome := congrFun (congrFun hq f) q
  cases hl : (getFn t f).qps with
  | nil => rfl
  | cons p l =>
    have hp := hsome p.1
    rw [h.getQp, getQp, hl] at hp
    simp [Tab.get?] at hp

theorem carryOn_quiet (f q : Nat) (x : FqEntry) (s : State) : Quiet s (carryOn f q x s) := by
  unfold carryOn
  dsimp only
  split
  · simp
  split
  · simp
  · split <;> simp

theorem bare_endFunction {g : Nat} {s : State} (h : Bare g s) (f : Nat) : Bare g (endFunction f s) := by
  unfold endFunction
  extract_lets x slots s1 s2
  have h1 : Bare g s1 := bare_of_quiet h (endCmds_quiet slots s)
  have h2 : Bare g s2 := bare_of_quiet h1 (foldl_quiet (fun t p => foldl_quiet (fun u y => carryOn_quiet ..) _ t) ..)
  have h3 : Bare g (dropQpCmds f s2) := bare_of_quiet h2 (foldl_quiet (fun t p => dropCmd_quiet ..) ..)
  refine takeReturns_bare (shutdownCheck_bare ?_ f)
  by_cases hg : g = f
  · subst hg
    exact ⟨by simp, by simp⟩
  · unfold Bare
    rw [getFn_updFn_ne _ _ hg]
    exact h3

theorem markEnded_quiet (f : Nat) (s : State) : Quiet s (markEnded f s) := ⟨rfl, rfl⟩

theorem bare_retireKeys {g : Nat} {s : State} (h : Bare g s) (f : Nat) : Bare g (retireKeys f s) :=
  bare_of_quiet h ((markEnded_quiet f s).trans ((retireMarks_quiet f _).trans (settle_quiet _)))

/-- The reset of one function (R93). -/
def functionReset (f : Nat) (s : State) : State := resetFnRegs f (dropWindow f (retireKeys f (endFunction f s)))

theorem resetFnRegs_bare (f : Nat) (s : State) : Bare f (resetFnRegs f s) := by
  unfold resetFnRegs
  exact ⟨by simp, by simp⟩

theorem dropWindow_host (f : Nat) (s : State) : (dropWindow f s).host = s.host := rfl

theorem bare_resetFnRegs {g : Nat} {s : State} (h : Bare g s) (f : Nat) : Bare g (resetFnRegs f s) := by
  by_cases hg : g = f
  · rw [hg]
    exact resetFnRegs_bare f s
  · unfold Bare resetFnRegs
    rw [getFn_updFn_ne _ _ hg]
    exact h

theorem bare_functionReset {g : Nat} {s : State} (h : Bare g s) (f : Nat) : Bare g (functionReset f s) :=
  bare_resetFnRegs ((bare_retireKeys (bare_endFunction h f) f).of_fns (congrArg HostIf.fns (dropWindow_host f _))) f

/-- A function is bare once its turn has come, where each turn leaves its own function bare and no other's harm. -/
theorem foldl_bare {g : Nat} {F : State → Nat → State} (hself : ∀ s, Bare g (F s g)) (hkeep : ∀ s f, Bare g s → Bare g (F s f))
    (l : List Nat) {s : State} (h : g ∈ l ∨ Bare g s) : Bare g (l.foldl F s) := by
  induction l generalizing s with
  | nil => exact h.resolve_left List.not_mem_nil
  | cons f l ih =>
    refine ih ?_
    rcases h with h | h
    · rcases List.mem_cons.1 h with rfl | h
      · exact .inr (hself s)
      · exact .inl h
    · exact .inr (hkeep s f h)

/-- What a reset of the host interface leaves of the clock, the transport and flash. -/
structure CoreKept (s t : State) : Prop where
  time : t.time = s.time
  tce : t.tce = s.tce
  flash : t.flash = s.flash

theorem CtlKept.core {s t : State} (h : CtlKept s t) : CoreKept s t := ⟨h.time, h.tce, h.flash⟩

theorem CoreKept.trans {s t u : State} (h : CoreKept s t) (k : CoreKept t u) : CoreKept s u :=
  ⟨k.time.trans h.time, k.tce.trans h.tce, k.flash.trans h.flash⟩

theorem dropWindow_core (f : Nat) (s : State) : CoreKept s (dropWindow f s) := ⟨rfl, rfl, rfl⟩

theorem resetFnRegs_core (f : Nat) (s : State) : CoreKept s (resetFnRegs f s) := ⟨rfl, rfl, rfl⟩

theorem functionReset_core (f : Nat) (s : State) : CoreKept s (functionReset f s) :=
  ((retireKeys_ctlKept (endFunction_ctlKept (.refl s) f) f).core.trans (dropWindow_core f _)).trans (resetFnRegs_core f _)

theorem foldl_core {F : State → Nat → State} (h : ∀ s f, CoreKept s (F s f)) (l : List Nat) (s : State) :
    CoreKept s (l.foldl F s) := by
  induction l generalizing s with
  | nil => exact ⟨rfl, rfl, rfl⟩
  | cons f l ih => exact (h s f).trans (ih _)

/-- The host interface with its registers reset and EVQ-H emptied (R93, R540). -/
def hostCleared (s : State) : State :=
  { s with
    host := { s.host with vfEnable := false, numVfs := 0, d3hot := false, rrAdmin := 0, rrFn := 0 },
    ev := { s.ev with host := [], lost := 0, entryValid := false, poison := false, armed := false, entry := 0,
                      hostLostTotal := sat32 (s.ev.hostLostTotal + s.ev.host.length) } }

theorem hostCleared_core (s : State) : CoreKept s (hostCleared s) := ⟨rfl, rfl, rfl⟩

theorem hostCleared_fns (s : State) : (hostCleared s).host.fns = s.host.fns := rfl

theorem hostReset_eq (s : State) : hostReset s = hostCleared (dropOwners (· == 0x10)
    (((List.range 64).filter (fnExists s)).foldl (fun s f => functionReset f s) s)) := rfl

theorem hostReset_core (s : State) : CoreKept s (hostReset s) := by
  rw [hostReset_eq]
  have hfns := foldl_core (fun s f => functionReset_core f s) ((List.range 64).filter (fnExists s)) s
  exact (hfns.trans (dropOwners_ctlKept (.refl _) _).core).trans (hostCleared_core _)

theorem hostReset_bare {f : Nat} {s : State} (hf : f < 64) (he : fnExists s f = true) : Bare f (hostReset s) := by
  have hmem : f ∈ (List.range 64).filter (fnExists s) := List.mem_filter.2 ⟨List.mem_range.2 hf, he⟩
  have h := foldl_bare (fun s => resetFnRegs_bare f _) (fun s k h => bare_functionReset h k) _ (s := s) (.inl hmem)
  rw [hostReset_eq]
  exact (bare_of_quiet h (dropOwners_quiet _ _)).of_fns (hostCleared_fns _)

theorem hostCleared_regs (s : State) : (hostCleared s).host.vfEnable = false ∧ (hostCleared s).host.numVfs = 0 ∧
    (hostCleared s).ev.host = [] ∧ (hostCleared s).ev.lost = 0 := ⟨rfl, rfl, rfl, rfl⟩

theorem poweredDown_host (s : State) : poweredDown s 0 = false := by
  simp [poweredDown]

/-- PERST# and a hot reset start the reset of the host interface domain (R544, R548). -/
theorem startReset_host {s t : State} (h : ∀ r ∈ s.resets, r.code ≠ 0) {cause : Nat} (ht : startReset 0 cause [] s = t) :
    (∃ r ∈ t.resets, r.code = 0 ∧ r.cause = cause) ∧ t.host.vfEnable = false ∧ t.host.numVfs = 0 ∧
    (∀ f, f < 64 → fnExists s f = true → (getFn t f).qps = []) ∧ t.ev.host = [] ∧ t.ev.lost = 0 ∧ t.time = s.time ∧
    t.tce = s.tce ∧ t.flash = s.flash := by
  obtain ⟨hv, hn, hq, hl⟩ := hostCleared_regs (dropOwners (· == 0x10)
    (((List.range 64).filter (fnExists s)).foldl (fun s f => functionReset f s) s))
  rw [← hostReset_eq] at hv hn hq hl
  have hcore := hostReset_core s
  have hstart := startReset_of_powered (not_mem_resetCodes.2 h) (poweredDown_host s) cause []
  rw [show domainDown 0 s = hostReset s from rfl] at hstart
  rw [hstart] at ht
  subst ht
  exact ⟨⟨_, List.mem_append_right _ (List.mem_singleton_self _), rfl, rfl⟩, hv, hn,
    fun f hf he => (hostReset_bare hf he).1, hq, hl, hcore.time, hcore.tce, hcore.flash⟩

end Sys2Proof.Machine
end

section
/-! PROOFS. A reset of the whole device: what it keeps of the state before, and what the start after it leaves as it was reset
(R529, R544, R545, R560). -/

namespace Sys2Proof.Machine

/-- TIME, the transport, the Staxa keys, the fuse row and the security floor. -/
structure GlobalKept (s t : State) : Prop where
  time : t.time = s.time
  tce : t.tce = s.tce
  staxa : t.staxa = s.staxa
  row : t.lc.row = s.lc.row
  floor : t.fw.floor = s.fw.floor

theorem GlobalKept.refl (s : State) : GlobalKept s s := ⟨rfl, rfl, rfl, rfl, rfl⟩

theorem GlobalKept.trans {s t u : State} (h : GlobalKept s t) (k : GlobalKept t u) : GlobalKept s u :=
  ⟨k.time.trans h.time, k.tce.trans h.tce, k.staxa.trans h.staxa, k.row.trans h.row, k.floor.trans h.floor⟩

theorem GlobalKept.of_ctlKept {s t : State} (h : CtlKept s t) (k : FwKept s.fw t.fw) : GlobalKept s t :=
  ⟨h.time, h.tce, h.staxa, by rw [h.lc], by rcases k with k | k <;> rw [k]⟩

theorem GlobalKept.of_outside {s t : State} (h : outside t = outside s) : GlobalKept s t := by
  have hstaxa : (outside t).staxa = (outside s).staxa := by rw [h]
  obtain ⟨-, -, -, -, -, -, -, -, -, -, -, htce, -, -, hrow, -, -, htime, hfw, -⟩ := fields_of_outside h
  exact ⟨htime, htce, hstaxa, hrow, congrArg Fw.floor hfw⟩

theorem satCheck_outside (before : Bool) (s : State) : outside (satCheck before s) = outside s := by
  unfold satCheck
  split
  · exact (setCause_outside ..).trans (raise_outside ..)
  · rfl

theorem rwpEffect_global (a b : Bool) (index sub : Nat) (s : State) : GlobalKept s (rwpEffect a b index sub s) := by
  unfold rwpEffect
  split
  · exact .of_ctlKept (judgeMembers_ctlKept (.refl s)) (judgeMembers_fwKept (.refl _))
  split
  · exact .of_ctlKept (updAbove_ctlKept (.refl s)) (.inl (updAbove_fw s))
  split
  · exact .of_ctlKept (dispatchAll_ctlKept (.refl s)) (.inl (dispatchAll_fw s))
  split
  · exact .of_outside (satCheck_outside a s)
  split
  · exact .of_outside (wornCheck_outside b s)
  · exact .refl s

theorem storeRwp_global (op : DictOp) (s : State) : GlobalKept s (storeRwp op s) := by
  unfold storeRwp
  split
  · exact ⟨rfl, rfl, rfl, rfl, rfl⟩
  split
  · exact ⟨rfl, rfl, rfl, rfl, rfl⟩
  · have hstored : GlobalKept s { s with dict := { s.dict with
        vals := Tab.put s.dict.vals (entryKey op.index op.sub) op.value } } := ⟨rfl, rfl, rfl, rfl, rfl⟩
    exact hstored.trans (rwpEffect_global ..)

theorem cutPersist_global (s : State) : GlobalKept s (cutPersist s) := by
  unfold cutPersist
  extract_lets kept s1
  have h1 : GlobalKept s s1 := ⟨rfl, rfl, rfl, rfl, rfl⟩
  split
  · exact .refl s
  split
  · split
    · exact h1.trans (storeRwp_global ..)
    · exact h1
  · exact h1

theorem setGates_global (on : Bool) (s : State) : GlobalKept s (setGates on s) := by
  unfold setGates
  split <;> exact ⟨rfl, rfl, rfl, rfl, rfl⟩

theorem stopFlash_global (s : State) : GlobalKept s (stopFlash s) := by
  refine .of_outside ?_
  unfold stopFlash
  split
  · split <;> rfl
  · rfl

/-- What the start after a reset of the whole device leaves as it was reset; fuses are repaired at most (R562). -/
structure StartKept (s t : State) : Prop where
  resets : t.resets = s.resets
  time : t.time = s.time
  streams : t.streams = s.streams
  staxa : t.staxa = s.staxa
  staged : t.fw.staged = s.fw.staged
  floor : t.fw.floor = s.fw.floor
  pwr : t.pwr = s.pwr
  slots : t.cip.slots = s.cip.slots
  keks : t.cip.keks = s.cip.keks
  cart : t.cart = s.cart
  row : s.lc.row.toNat ≤ t.lc.row.toNat

theorem StartKept.refl (s : State) : StartKept s s := ⟨rfl, rfl, rfl, rfl, rfl, rfl, rfl, rfl, rfl, rfl, Nat.le_refl _⟩

theorem StartKept.trans {s t u : State} (h : StartKept s t) (k : StartKept t u) : StartKept s u :=
  ⟨k.resets.trans h.resets, k.time.trans h.time, k.streams.trans h.streams, k.staxa.trans h.staxa, k.staged.trans h.staged,
    k.floor.trans h.floor, k.pwr.trans h.pwr, k.slots.trans h.slots, k.keks.trans h.keks, k.cart.trans h.cart, h.row.trans k.row⟩

theorem StartKept.of_outside {s t : State} (h : outside t = outside s) : StartKept s t := by
  have hstaxa : (outside t).staxa = (outside s).staxa := by rw [h]
  obtain ⟨hcart, hstreams, -, -, -, -, -, -, hcip, -, -, -, -, -, hrow, -, hpwr, htime, hfw, hresets⟩ := fields_of_outside h
  exact ⟨hresets, htime, hstreams, hstaxa, congrArg Fw.staged hfw, congrArg Fw.floor hfw, hpwr, congrArg Cipher.slots hcip,
    congrArg Cipher.keks hcip, hcart, Nat.le_of_eq (congrArg BitVec.toNat hrow.symm)⟩

theorem StartKept.foldl {α : Type} {f : State → α → State} (hf : ∀ s a, StartKept s (f s a)) (l : List α) (s : State) :
    StartKept s (l.foldl f s) := by
  induction l generalizing s with
  | nil => exact .refl s
  | cons a l ih => exact (hf s a).trans (ih _)

theorem repairRow_start (s : State) (row : Nat) : StartKept s (repairRow s row) := by
  have hexhausted : StartKept s { s with dram := { s.dram with exhausted := true } } :=
    ⟨rfl, rfl, rfl, rfl, rfl, rfl, rfl, rfl, rfl, rfl, Nat.le_refl _⟩
  unfold repairRow
  dsimp only
  split
  · exact ⟨rfl, rfl, rfl, rfl, rfl, rfl, rfl, rfl, rfl, rfl, Nat.le_refl _⟩
  split
  · exact .refl s
  · exact (hexhausted.trans (.of_outside (raise_outside ..))).trans (.of_outside (setCause_outside ..))

theorem updPool_start (p : Nat) (g : Pool → Pool) (s : State) : StartKept s (updPool p g s) :=
  ⟨rfl, rfl, rfl, rfl, rfl, rfl, rfl, rfl, rfl, rfl, Nat.le_refl _⟩

theorem fillPools_start (s : State) : StartKept s (fillPools s) := by
  unfold fillPools
  extract_lets s1 _ s2 fresh s3
  have h1 : StartKept s s1 := StartKept.foldl repairRow_start ..
  have h3 : StartKept s1 s3 := ⟨rfl, rfl, rfl, rfl, rfl, rfl, rfl, rfl, rfl, rfl, Nat.le_refl _⟩
  exact (h1.trans h3).trans (StartKept.foldl (fun t p => updPool_start ..) ..)

theorem repairTriple_start (s : State) (k : Nat) : StartKept s (repairTriple s k) := by
  unfold repairTriple
  split
  · refine StartKept.trans (t := { s with lc := { s.lc with row := blowTriple s.lc.row k } })
      ⟨rfl, rfl, rfl, rfl, rfl, rfl, rfl, rfl, rfl, rfl, ?_⟩ (.of_outside (raise_outside ..))
    show s.lc.row.toNat ≤ (blowTriple s.lc.row k).toNat
    rw [blowTriple, BitVec.toNat_or]
    exact Nat.left_le_or
  · exact .refl s

theorem readFuses_start (s : State) : StartKept s (readFuses s) := by
  have hstate (t : State) (n : Nat) : StartKept t { t with lc := { t.lc with state := n } } :=
    ⟨rfl, rfl, rfl, rfl, rfl, rfl, rfl, rfl, rfl, rfl, Nat.le_refl _⟩
  unfold readFuses
  split
  · exact (hstate s 4).trans (.of_outside (raise_outside ..))
  · exact (StartKept.foldl repairTriple_start ..).trans (hstate ..)

theorem boot_start (s : State) : StartKept s (boot s) := by
  obtain ⟨a, n, b, f, h⟩ := boot_eq s
  rw [h]
  exact ⟨rfl, rfl, rfl, rfl, rfl, rfl, rfl, rfl, rfl, rfl, Nat.le_refl _⟩

theorem fieldKey_start (s : State) : StartKept s (fieldKey s) := by
  unfold fieldKey
  extract_lets r
  split
  · have hdraw : StartKept s { r.2 with cip := { r.2.cip with transport := some r.1 } } :=
      ⟨rfl, rfl, rfl, rfl, rfl, rfl, rfl, rfl, rfl, rfl, Nat.le_refl _⟩
    exact hdraw.trans (.of_outside (raise_outside ..))
  · exact .refl s

theorem headFrontInit_start (want : Nat → Bool) (s : State) : StartKept s (headFrontInit want s) :=
  ⟨rfl, rfl, rfl, rfl, rfl, rfl, rfl, rfl, rfl, rfl, Nat.le_refl _⟩

/-- The state at a reset of the whole device, before the start: what it holds of the state before (R529, R544, R545, R560). -/
structure AtReset (power : Bool) (cause : Nat) (s u : State) : Prop where
  resets : u.resets = domainCodes.map fun c => { code := c, cause := cause }
  time : u.time = if power then 0#64 else s.time
  streams : u.streams = []
  staxa : u.staxa = { keys := if power then [] else s.staxa.keys }
  staged : u.fw.staged = []
  floor : u.fw.floor = s.fw.floor
  now : u.pwr.now = 0
  row : u.lc.row = s.lc.row
  keys : power = true → u.cip.slots = [] ∧ u.cip.keks = []
  cart : power = true → u.cart.state = if s.tce.cartHigh then .empty else .present

theorem restart_starts (power : Bool) (cause : Nat) (s : State) :
    ∃ u, AtReset power cause s u ∧ StartKept u (restart power cause s) := by
  have hkept : GlobalKept s (stopFlash (cutPersist (setGates false s))) :=
    ((setGates_global false s).trans (cutPersist_global _)).trans (stopFlash_global _)
  unfold restart
  generalize stopFlash (cutPersist (setGates false s)) = x at hkept
  obtain ⟨htime, htce, hstaxa, hrow, hfloor⟩ := hkept
  extract_lets x' t keepTce s2 s3 s4 _ s5
  refine ⟨s2, ⟨rfl, by simp [s2, t, x', htime], rfl, by simp [s2, x', hstaxa], rfl, hfloor, rfl, hrow, ?_, ?_⟩, ?_⟩
  · rintro rfl
    exact ⟨rfl, rfl⟩
  · rintro rfl
    simp [s2, x', cartRestart, htce]
  · have h4 : StartKept s2 s4 := by
      subst s4
      split <;> exact ⟨rfl, rfl, rfl, rfl, rfl, rfl, rfl, rfl, rfl, rfl, Nat.le_refl _⟩
    have hw : StartKept s4 { s4 with wr := { s4.wr with stopped := !writeAllowed s4 } } :=
      ⟨rfl, rfl, rfl, rfl, rfl, rfl, rfl, rfl, rfl, rfl, Nat.le_refl _⟩
    have h5 : StartKept s2 s5 := (h4.trans hw).trans (fillPools_start _)
    exact (((h5.trans (readFuses_start _)).trans (boot_start _)).trans (fieldKey_start _)).trans (headFrontInit_start ..)

theorem accrue_global (s : State) : GlobalKept s (accrue s) := ⟨rfl, rfl, rfl, rfl, rfl⟩

theorem exec_sysrst_of_long {n : Nat} (h : 100 ≤ n) (s : State) : exec (.sysrst n) s = .next (restart false 2 (accrue s)) := by
  rw [exec_sysrst, execSysrst, if_neg (by omega), if_neg (by omega)]

/-- SYSRST# held for 100 ns resets every domain; TIME, the Staxa keys, the security floor and the blown fuses stay (R544). -/
theorem sysrst_resets {n : Nat} (h : 100 ≤ n) (s : State) : ∃ t, exec (.sysrst n) s = .next t ∧
    t.resets = domainCodes.map (fun c => { code := c, cause := 2 }) ∧ t.time = s.time ∧ t.streams = [] ∧
    t.staxa = { keys := s.staxa.keys } ∧ t.fw.staged = [] ∧ t.pwr.now = 0 ∧ t.fw.floor = s.fw.floor ∧
    t.lc.row.toNat ≥ s.lc.row.toNat := by
  obtain ⟨u, hu, hk⟩ := restart_starts false 2 (accrue s)
  have ha := accrue_global s
  refine ⟨_, exec_sysrst_of_long h s, hk.resets.trans hu.resets, hk.time.trans hu.time, hk.streams.trans hu.streams, ?_,
    hk.staged.trans hu.staged, (congrArg Power.now hk.pwr).trans hu.now, hk.floor.trans (hu.floor.trans ha.floor), ?_⟩
  · exact hk.staxa.trans hu.staxa
  · have hrow := hk.row
    rwa [hu.row, ha.row] at hrow

theorem exec_sysrst_of_short {n : Nat} (h : n < 20) (s : State) : exec (.sysrst n) s = .next s := by
  rw [exec_sysrst, execSysrst, if_pos h]

/-- One of 20 ns to 100 ns may or may not reset the device (R585). -/
theorem exec_sysrst_of_between {n : Nat} (h : 20 ≤ n) (hn : n < 100) (s : State) :
    exec (.sysrst n) s = .next (drew s) ∨ exec (.sysrst n) s = exec (.sysrst 100) (drew s) := by
  rw [exec_sysrst_of_long (Nat.le_refl 100), exec_sysrst, execSysrst, if_neg (by omega), if_pos hn]
  split
  · exact .inr rfl
  · exact .inl rfl

theorem exec_porst_of_long {n : Nat} (h : 10000 ≤ n) (s : State) : exec (.porst n) s = .next (restart true 1 s) := by
  rw [exec_porst, execPorst, if_neg (by omega)]

/-- PORST# held long enough also restarts TIME and clears the keys (R544). -/
theorem porst_resets {n : Nat} (h : 10000 ≤ n) (s : State) : ∃ t, exec (.porst n) s = .next t ∧
    t.resets = domainCodes.map (fun c => { code := c, cause := 1 }) ∧ t.time = 0#64 ∧ t.streams = [] ∧ t.staxa = {} ∧
    t.cip.slots = [] ∧ t.cip.keks = [] ∧ t.fw.staged = [] ∧ t.pwr.now = 0 ∧ t.fw.floor = s.fw.floor ∧
    t.cart.state = if s.tce.cartHigh then .empty else .present := by
  obtain ⟨u, hu, hk⟩ := restart_starts true 1 s
  obtain ⟨hslots, hkeks⟩ := hu.keys rfl
  exact ⟨_, exec_porst_of_long h s, hk.resets.trans hu.resets, hk.time.trans hu.time, hk.streams.trans hu.streams,
    hk.staxa.trans hu.staxa, hk.slots.trans hslots, hk.keks.trans hkeks, hk.staged.trans hu.staged,
    (congrArg Power.now hk.pwr).trans hu.now, hk.floor.trans hu.floor, (congrArg Cart.state hk.cart).trans (hu.cart rfl)⟩

/-- A supply out of range is a power-on reset; VFL has its brown-out detector alone (R517, R583). -/
theorem supplyMonitorTrip_eq (s : State) : (∀ r : Rail, r ≠ .vfl → exec (.supplyMonitorTrip r) s = exec (.porst 10000) s) ∧
    exec (.supplyMonitorTrip .vfl) s = .next s := by
  refine ⟨fun r hr => ?_, by rw [exec_supplyMonitorTrip]; rfl⟩
  rw [exec_porst_of_long (Nat.le_refl _), exec_supplyMonitorTrip]
  cases r with
  | vfl => exact absurd rfl hr
  | _ => rfl

end Sys2Proof.Machine
end

section
/-! PROOFS. The power states: entries begun by the timers and by requests, the drain before PS2, and what a wake does (R549-R556). -/

namespace Sys2Proof.Machine

theorem enterPower_enters {n : Nat} {s : State} (hn : s.pwr.now + 1 = n) (hg : s.pwr.goal = none) (hi : idle s = true)
    (hm : n ≤ powerMax s) (hb : n = 2 → bytesHeld s = false) :
    enterPower n s = { s with pwr := { s.pwr with goal := some n } } := by
  have hb' : (decide (n = 2) && bytesHeld s) = false := by
    by_cases h : n = 2
    · simp [h, hb h]
    · simp [h]
  unfold enterPower
  rw [if_neg (by simp [hn, hg, hi, hm]), if_neg (by simp [hb'])]

theorem enterPower_drains {s : State} (hn : s.pwr.now = 1) (hg : s.pwr.goal = none) (hi : idle s = true)
    (hm : 2 ≤ powerMax s) (hb : bytesHeld s = true) : enterPower 2 s = settle { s with
      pwr := { s.pwr with drain := some s.host.fetchSeq, goal := some 0, request := none } } := by
  unfold enterPower
  rw [if_neg (by simp [hn, hg, hi, Nat.lt_iff_add_one_le, hm]), if_pos (by simp [hb])]

theorem idleTo_of_timers {n : Nat} {s : State} (h : timersOn s n = true) : idleTo n s = enterPower n s := by
  unfold idleTo
  rw [if_pos (by rw [h, Bool.true_or])]

theorem wanted_of_none {s : State} (h : s.pwr.request = none) (n : Nat) : wanted s n = false := by
  unfold wanted
  rw [h]

theorem idleTo_of_off {n : Nat} {s : State} (h : timersOn s n = false) (hr : s.pwr.request = none) : idleTo n s = s := by
  unfold idleTo
  rw [if_neg (by simp [h, wanted_of_none hr])]

theorem followRequest_of_wanted {s : State} (h : wanted s (s.pwr.now + 1) = true) :
    followRequest s = enterPower (s.pwr.now + 1) s := by
  unfold followRequest
  rw [if_pos h]

/-- A request for a state. -/
def asked (n : Nat) (s : State) : State := { s with pwr := { s.pwr with request := some n } }

theorem idle_asked (n : Nat) (s : State) : idle (asked n s) = idle s := rfl

theorem powerMax_asked (n : Nat) (s : State) : powerMax (asked n s) = powerMax s := rfl

/-- A request for PS1 stands in for the timer (R551). -/
theorem powerRequest_enters {s : State} (hn : s.pwr.now = 0) (hg : s.pwr.goal = none) (hi : idle s = true) (hm : 1 ≤ powerMax s) :
    powerRequest 1 s = { s with pwr := { s.pwr with request := some 1, goal := some 1 } } := by
  have hnow : (asked 1 s).pwr.now = 0 := hn
  have hw : wanted (asked 1 s) ((asked 1 s).pwr.now + 1) = true := by rw [hnow]; rfl
  have h : powerRequest 1 s = followRequest (asked 1 s) := if_neg (by decide)
  rw [h, followRequest_of_wanted hw, enterPower_enters (s := asked 1 s) rfl hg ((idle_asked 1 s).trans hi) ?_ ?_]
  · rw [hnow]
    rfl
  · rw [hnow, powerMax_asked]
    exact hm
  · intro h
    omega

theorem wakeUp_of_low {s : State} (hg : s.pwr.goal = none) (hn : s.pwr.now ≠ 0) :
    wakeUp s = { s with pwr := { s.pwr with goal := some 0, request := none } } := by
  unfold wakeUp
  simp only [hg]
  rw [if_neg hn]

theorem wakeUp_of_awake {s : State} (hg : s.pwr.goal = none) (hn : s.pwr.now = 0) : wakeUp s = s := by
  unfold wakeUp
  simp only [hg]
  rw [if_pos hn]

theorem wakeUp_of_entering {g : Nat} {s : State} (hg : s.pwr.goal = some g) (h : g ≠ 0) :
    wakeUp s = { s with pwr := { s.pwr with wake := true, request := none } } := by
  unfold wakeUp
  rw [hg]
  cases g with
  | zero => exact absurd rfl h
  | succ g => rfl

/-! The end of an entry. -/

/-- What the braking of the reels leaves. -/
structure PowerKept (s t : State) : Prop where
  pwr : t.pwr = s.pwr
  ev : t.ev = s.ev
  streams : t.streams = s.streams
  cart : t.cart = s.cart

theorem sendAll_power (ftype : Nat) (l : List Nat) (s : State) : PowerKept s (sendAll ftype l s) := by
  unfold sendAll
  induction l generalizing s with
  | nil => exact ⟨rfl, rfl, rfl, rfl⟩
  | cons a l ih =>
    obtain ⟨hp, he, hs, hc⟩ := ih (sendAsl a ftype 0 s)
    exact ⟨hp, he, hs, hc⟩

theorem PowerKept.trans {s t u : State} (h : PowerKept s t) (k : PowerKept t u) : PowerKept s u :=
  ⟨k.pwr.trans h.pwr, k.ev.trans h.ev, k.streams.trans h.streams, k.cart.trans h.cart⟩

theorem zeroOutputs_power (s : State) : PowerKept s (zeroOutputs s) := ⟨rfl, rfl, rfl, rfl⟩

theorem powerOff_power (s : State) : PowerKept s (powerOff s) := by
  unfold powerOff disableStages
  split
  · exact ((sendAll_power ..).trans (zeroOutputs_power _)).trans (sendAll_power ..)
  · exact ⟨rfl, rfl, rfl, rfl⟩

/-- Without a request only a request that cannot be followed is forgotten. -/
theorem followRequest_of_none {s : State} (h : s.pwr.request = none) (hn : s.pwr.now ≠ 0) : followRequest s = s := by
  unfold followRequest
  rw [if_neg (by simp [wanted_of_none h]), if_pos (by simp [hn]), ← h]

/-- An entry ends: the state is in force, and reported (R549, R558). -/
theorem powerStateReached_enters {g : Nat} {s : State} (hg : s.pwr.goal = some g) (hw : s.pwr.wake = false)
    (hr : s.pwr.request = none) (h : g ≠ 0) : ∃ t, exec .powerStateReached s = .next t ∧ t.pwr.now = g ∧ t.pwr.goal = none ∧
      Tab.getD t.ev.counts 0x7D1 0 = sat32 (Tab.getD s.ev.counts 0x7D1 0 + 1) ∧ t.streams = s.streams ∧ t.cart = s.cart := by
  generalize hx : raise 0x7D1 [(8, (accrue s).pwr.now), (8, g)]
    { accrue s with pwr := { (accrue s).pwr with now := g, goal := none, wake := false } } = x
  have hpwr : x.pwr = { (accrue s).pwr with now := g, goal := none, wake := false } := by rw [← hx, raise_pwr]
  have hev : Tab.getD x.ev.counts 0x7D1 0 = sat32 (Tab.getD s.ev.counts 0x7D1 0 + 1) := by
    rw [← hx, raise_count_self]
    rfl
  have hstr : x.streams = s.streams := by
    rw [← hx, raise_streams]
    rfl
  have hcart : x.cart = s.cart := by
    rw [← hx, raise_cart]
    rfl
  have hoff : ∃ y, PowerKept x y ∧ exec .powerStateReached s = .next (followRequest y) := by
    rw [exec_powerStateReached, execPowerStateReached, hg]
    dsimp only
    rw [hx, show (accrue s).pwr.wake = false from hw, if_neg Bool.false_ne_true]
    split
    · exact ⟨_, powerOff_power x, rfl⟩
    · rw [if_neg (by simp [h])]
      exact ⟨x, ⟨rfl, rfl, rfl, rfl⟩, rfl⟩
  obtain ⟨y, hy, he⟩ := hoff
  have hypwr := hy.pwr.trans hpwr
  rw [followRequest_of_none (by rw [hypwr]; exact hr) (by rw [hypwr]; exact h)] at he
  exact ⟨y, he, by rw [hypwr], by rw [hypwr], by rw [hy.ev, hev], hy.streams.trans hstr, hy.cart.trans hcart⟩

/-! D3hot. -/

theorem d3hot_of_quiet {s t : State} (h : Quiet s t) : t.host.d3hot = s.host.d3hot := congrArg Prod.fst h.1

theorem settle_d3hot (s : State) : (settle s).host.d3hot = s.host.d3hot :=
  d3hot_of_quiet (s := s) (t := settle s) (settle_quiet s)

theorem enterPower_d3hot (n : Nat) (s : State) : (enterPower n s).host.d3hot = s.host.d3hot := by
  unfold enterPower
  split
  · rfl
  split
  · rw [settle_d3hot]
  · rfl

theorem followRequest_d3hot (s : State) : (followRequest s).host.d3hot = s.host.d3hot := by
  unfold followRequest
  split
  · exact enterPower_d3hot ..
  · split <;> rfl

end Sys2Proof.Machine
end

section
/-! PROOFS. The rows of the resets and the power states (R544-R556). -/

namespace Sys2Proof.Machine

theorem domainResetWrite_notes {mgmt : Bool} {code : Byte} {s : State} (hl : s.lc.state ≠ 4) (hc : domainCode code.toNat = true)
    (hm : mgmt = true ∨ hostDomain code.toNat = true) (hr : ∀ r ∈ s.resets, r.code ≠ code.toNat) :
    (poweredDown s code.toNat = false → ∃ t, exec (.domainResetWrite mgmt code) s = .next t ∧
      ∃ r ∈ t.resets, r.code = code.toNat ∧ r.cause = 5 ∧ r.deferred = false) ∧
    (poweredDown s code.toNat = true → exec (.domainResetWrite mgmt code) s =
      .next { s with resets := s.resets ++ [{ code := code.toNat, cause := 5, deferred := true }] }) := by
  have hnew := not_mem_resetCodes.2 hr
  rw [exec_domainResetWrite_of_taken hl hc hm]
  refine ⟨fun hp => ?_, fun hp => congrArg Host.Outcome.next (startReset_of_unpowered hnew hp 5 [])⟩
  rw [startReset_of_powered hnew hp]
  exact ⟨_, rfl, _, List.mem_append_right _ (List.mem_singleton_self _), rfl, rfl, rfl⟩

theorem domainReady_ends {code : Byte} {b : Bool} {s : State} (hq : s.dict.queue = []) {r : DomReset} (hr : r ∈ s.resets)
    (hone : ∀ x ∈ s.resets, x.code = code.toNat → x = r) (hc : r.code = code.toNat) (hd : r.deferred = false)
    (hw : r.waits = []) (hfw : code ≠ 5#8 ∨ s.fw.starting = false) : ∃ t, exec (.domainReady code b) s = .next t ∧
      (∀ x ∈ t.resets, x.code ≠ code.toNat) ∧ (code = 2#8 → t.cip.failed = !b) ∧
      Tab.getD t.ev.counts 0x7D0 0 = sat32 (Tab.getD s.ev.counts 0x7D0 0 + 1) := by
  generalize hx : { s with resets := s.resets.filter fun x => x.code != code.toNat || x.deferred } = x
  have hup := domainUp_upKept code.toNat b x
  refine ⟨_, domainReady_reports hq hr hone hc hd hw hfw b, ?_, ?_, ?_⟩ <;> rw [hx]
  · rw [raise_resets, hup.resets, ← hx]
    intro y hy hyc
    obtain ⟨hy, hdef⟩ := List.mem_filter.1 hy
    obtain rfl := hone y hy hyc
    simp [hyc, hd] at hdef
  · rintro rfl
    rw [raise_cip]
    exact domainUp_cipher b x
  · rw [raise_count_self]
    refine congrArg (fun n => sat32 (n + 1)) (Eq.trans hup.reports ?_)
    rw [← hx]
    rfl

theorem perst_hotReset_take {i : Instr} {cause : Nat} {s : State} (hi : (i, cause) ∈ [(Instr.perst, 3), (.hotReset, 4)])
    (h : ∀ r ∈ s.resets, r.code ≠ 0) : ∃ t, exec i s = .next t ∧ (∃ r ∈ t.resets, r.code = 0 ∧ r.cause = cause) ∧
      t.host.vfEnable = false ∧ t.host.numVfs = 0 ∧ (∀ f, f < 64 → fnExists s f = true → (getFn t f).qps = []) ∧
      t.ev.host = [] ∧ t.ev.lost = 0 ∧ t.time = s.time ∧ t.tce = s.tce ∧ t.flash = s.flash := by
  have hcall : exec i s = .next (startReset 0 cause [] s) := by
    rcases List.mem_cons.1 hi with e | hi
    · cases e
      rw [exec_perst, execPerst]
    · cases List.mem_singleton.1 hi
      rw [exec_hotReset, execHotReset]
  exact ⟨_, hcall, startReset_host h rfl⟩

/-- The rows of the idle timers, on an idle device (R551). -/
theorem idle_rows {s : State} (hi : idle s = true) (hg : s.pwr.goal = none) :
    (s.pwr.now = 0 → 1 ≤ powerMax s → timersOn s 1 = true →
      exec .idleToPs1 s = .next { s with pwr := { s.pwr with goal := some 1 } }) ∧
    (s.pwr.now = 1 → 2 ≤ powerMax s → timersOn s 2 = true →
      (bytesHeld s = false → exec .idleToPs2 s = .next { s with pwr := { s.pwr with goal := some 2 } }) ∧
      (bytesHeld s = true → exec .idleToPs2 s = .next (settle { s with
        pwr := { s.pwr with drain := some s.host.fetchSeq, goal := some 0, request := none } }))) ∧
    (s.pwr.now = 2 → 3 ≤ powerMax s → timersOn s 3 = true →
      exec .idleToPs3 s = .next { s with pwr := { s.pwr with goal := some 3 } }) := by
  rw [exec_idleToPs1, exec_idleToPs2, exec_idleToPs3, execIdleToPs1, execIdleToPs2, execIdleToPs3]
  refine ⟨fun hn hm ht => ?_, fun hn hm ht => ⟨fun hb => ?_, fun hb => ?_⟩, fun hn hm ht => ?_⟩ <;> rw [idleTo_of_timers ht]
  · rw [enterPower_enters (by rw [hn]) hg hi hm fun h => absurd h (by decide)]
  · rw [enterPower_enters (by rw [hn]) hg hi hm fun _ => hb]
  · rw [enterPower_drains hn hg hi hm hb]
  · rw [enterPower_enters (by rw [hn]) hg hi hm fun h => absurd h (by decide)]

/-- A timer that is off begins no entry (R551). -/
theorem idle_rows_of_off {s : State} (hr : s.pwr.request = none) : (timersOn s 1 = false → exec .idleToPs1 s = .next s) ∧
    (timersOn s 2 = false → exec .idleToPs2 s = .next s) ∧ (timersOn s 3 = false → exec .idleToPs3 s = .next s) := by
  rw [exec_idleToPs1, exec_idleToPs2, exec_idleToPs3, execIdleToPs1, execIdleToPs2, execIdleToPs3]
  have hoff {n : Nat} (h : timersOn s n = false) : (.next (idleTo n s) : Result) = .next s := congrArg _ (idleTo_of_off h hr)
  exact ⟨hoff, hoff, hoff⟩

theorem exec_powerStateRequest_of_le {n : Byte} (h : n.toNat ≤ 3) (s : State) :
    exec (.powerStateRequest n) s = .next (powerRequest n.toNat s) := by
  rw [exec_powerStateRequest, execPowerStateRequest, if_neg (by omega)]

/-- A request for PS0 is a wake (R551, R552). -/
theorem powerRequest_zero {s : State} (hg : s.pwr.goal = none) (hn : s.pwr.now ≠ 0) :
    powerRequest 0 s = { s with pwr := { s.pwr with goal := some 0, request := none } } := by
  unfold powerRequest
  rw [if_pos rfl]
  exact wakeUp_of_low hg hn

theorem d3hot_rows (s : State) : (∃ t, exec .d3hotEntry s = .next t ∧ t.host.d3hot = true) ∧
    (powerMax s = 0 → exec .d3hotEntry s = .next { s with host := { s.host with d3hot := true } }) ∧
    (s.pwr.goal = none → s.pwr.now ≠ 0 → exec .d0Return s = .next { s with
      host := { s.host with d3hot := false }, pwr := { s.pwr with goal := some 0, request := none } }) ∧
    (s.pwr.goal = none → s.pwr.now = 0 → exec .d0Return s = .next { s with
      host := { s.host with d3hot := false }, pwr := { s.pwr with request := none } }) := by
  rw [exec_d3hotEntry, execD3hotEntry, exec_d0Return, execD0Return]
  refine ⟨?_, fun h => if_pos h, fun hg hn => ?_, fun hg hn => ?_⟩
  · dsimp only
    split
    · exact ⟨_, rfl, rfl⟩
    · refine ⟨_, rfl, ?_⟩
      rw [followRequest_d3hot]
  · exact congrArg Host.Outcome.next (wakeUp_of_low hg hn)
  · exact congrArg Host.Outcome.next (wakeUp_of_awake hg hn)

/-- Settles O57: each reset through what its domain's going down keeps (the domains in reset, the queue pairs of bare functions),
each start through what it leaves as it was reset, and the power states through the entries, the drain and the wake. -/
theorem resetsAndPower : Obligations.ResetsAndPower := by
  unfold Obligations.ResetsAndPower
  refine ⟨fun mgmt code s hl hc hm hr => domainResetWrite_notes hl hc hm hr,
    fun code b s hq => ⟨fun h => domainReady_of_none h b,
      fun r hr hone hc hd hw hfw => domainReady_ends hq hr hone hc hd hw hfw⟩,
    fun i cause s hi hr => perst_hotReset_take hi hr,
    fun n s => ⟨fun h => exec_sysrst_of_short h s, fun h hn => exec_sysrst_of_between h hn s, fun h => sysrst_resets h s,
      fun h => porst_resets h s, (supplyMonitorTrip_eq s).1, (supplyMonitorTrip_eq s).2⟩,
    fun s hi hg => ?_, fun s => ⟨fun hg hn => ⟨?_, ?_⟩, fun g hg h => ?_, fun hg hn => ?_⟩,
    fun g s hg hw hr h => powerStateReached_enters hg hw hr h, d3hot_rows⟩
  · obtain ⟨h1, h2, h3⟩ := idle_rows hi hg
    refine ⟨h1, h2, h3, fun hr => idle_rows_of_off hr, fun hn hm => ?_⟩
    rw [exec_powerStateRequest_of_le (by decide)]
    exact congrArg Host.Outcome.next (powerRequest_enters hn hg hi hm)
  · rw [exec_wake, execWake, wakeUp_of_low hg hn]
  · rw [exec_powerStateRequest_of_le (by decide)]
    exact congrArg Host.Outcome.next (powerRequest_zero hg hn)
  · rw [exec_wake, execWake, wakeUp_of_entering hg h]
  · rw [exec_wake, execWake, wakeUp_of_awake hg hn]

end Sys2Proof.Machine
end
